-- ==== Sys2Proof/Word.lean ====
section
/-! DEFINITION. The words of the DF4-1024 and the one container its large sparse state is kept in.
`Word` is the 32-bit data word of R78, `Acc` the 48-bit accumulator of R46, `Stamp` the 32-bit stamp of R24.
`SMap` is a list of (key, value) pairs: strictly rising keys and no entry equal to what an unlisted key reads as. -/

namespace Sys2Proof

/-- A 32-bit data word (R78, Table 3.2 field D). -/
abbrev Word := BitVec 32

/-- A byte. -/
abbrev Byte := BitVec 8

/-- A 48-bit accumulator a0 or a1 (R46). -/
abbrev Acc := BitVec 48

/-- A stamp, T[31:0] at an instant (R24). -/
abbrev Stamp := BitVec 32

/-- A sparse map from natural keys, in the canonical form that `mwf` states. -/
abbrev SMap (α : Type) := List (Nat × α)

/-- A byte-addressed memory: the host's cells in canonical form (unlisted addresses read 0). -/
abbrev Mem := List Host.Cell

end Sys2Proof
end

