-- ==== Sys2Proof/Syntax.lean ====
section
/-! DEFINITION. The commands of the DF4-1024, modelled as a block: `Instr`, one constructor per row of the operation table.
A command stands for one indivisible step of the part. Its operands are what the sender or the environment supplies:
who and where (motif, position, initiator, port), values written, and outcomes measured outside the model
(a lane that disagrees, an ECC error found, a measured frequency). -/

namespace Sys2Proof

/-- TIDs: those a grant notice carries, or those of which a pricking-log record reads with an uncorrectable error (R173). -/
abbrev TidList := List Nat

/-- A beat of a cell operation (R64, R73): motif, position, the word that leaves if the lanes disagree (`none` when they agree),
whether it is only the LD result that differs, its request having compared equal, what the memory word read shows (0 clean, 1 single-bit error, 2 uncorrectable, R108), and the TIDs whose pricking-log records are
uncorrectable should the beat abort one (R173). -/
structure CellBeat where
  m : Nat := 0
  pos : Nat := 0
  mismatch : Option Word := none
  inResult : Bool := false
  ecc : Nat := 0
  badLog : TidList := []
  deriving DecidableEq, Repr

/-- What a drive's SMART log shows (Table 11.14): media errors, temperature in °C, percent used. -/
structure DriveSmart where
  mediaErrors : Nat := 0
  temperature : Int := 0
  percentUsed : Nat := 0
  deriving DecidableEq, Repr

/-- What the boundary measurements of R38, R45, R512 and R529 find: frequencies in Hz of CD0 to CD39; supplies in mV (VDD_CORE, VDD_SRAM, VDD_AON,
VDDIO_T0, T1, T2, C, VDDQ_DR, VDD_DR, VDDA_PCIE, VDDH_PCIE, VDDA_ETH, VDDA_CSI, VDDA_BL); junction temperatures in °C; MR4 asking for refresh above 1×
(Table 6.14); the drives' SMART logs. -/
structure Measures where
  freqs : List Nat := []
  supplies : List Nat := []
  temps : List Int := []
  derated : Bool := false
  smart : List DriveSmart := []
  deriving DecidableEq, Repr

/-- A live bank word during a remap (R186): the slot, the word (0 to 3 for K0 to K3, 4 and 5 for A0 and A1), and for the copy of each lane the bits in
which its corrected value differs from the one the state holds and its ECC state (0 clean, 1 corrected, 2 uncorrectable). -/
structure LaneWord where
  slot : Nat := 0
  word : Nat := 0
  flipA : Nat := 0
  eccA : Nat := 0
  flipB : Nat := 0
  eccB : Nat := 0
  deriving DecidableEq, Repr

/-- A selvedge entry that reads with an ECC error at its release (R192, Table 5.2): the port, its number among the port's entries that are released, and
the ECC state. -/
structure EntryError where
  port : Nat := 0
  index : Nat := 0
  ecc : Nat := 0
  deriving DecidableEq, Repr

/-- The word a scrub engine reads (R193): in a motif's scratchpad or a hoop store, at a byte address, with its ECC state. -/
structure ScrubWord where
  hoop : Bool := false
  unit : Nat := 0
  addr : Nat := 0
  ecc : Nat := 0
  deriving DecidableEq, Repr
/-- One received serial byte with its parity and framing errors (R407). -/
structure RxByte where
  value : Nat := 0
  parity : Bool := false
  framing : Bool := false
  deriving DecidableEq, Repr

/-- One CSI-2 long packet of a line (R414, R415): virtual channel, data type, its pixel values (for YUV422-8 its bytes), whether its CRC failed and
whether its header was uncorrectable. -/
structure CsiLine where
  vc : Nat := 0
  dt : Nat := 0
  pixels : List Nat := []
  crcError : Bool := false
  headerError : Bool := false
  deriving DecidableEq, Repr

/-- The bytes of a host frame on the config slave port (R262), or the 64-bit blocks of a link frame (R420). -/
abbrev FrameData := List Nat

/-- How one start step ended (R468, R471): 0 passed, otherwise a code of Table 12.3; its duration in milliseconds. -/
structure StepOutcome where
  code : Nat := 0
  ms : Nat := 0
  deriving DecidableEq, Repr

/-- A journal drive as discovery finds it (Table 11.14): present, link 0, 3 or 4, lanes, capacity in bytes, LBA size, model, serial number, what its
SMART log gives (media errors, temperature, percent used), the warning temperature of its Identify data, and whether it carries no valid superblock. -/
structure DriveInfo where
  present : Bool := false
  link : Nat := 0
  width : Nat := 0
  capacity : Nat := 0
  lba : Nat := 512
  model : List Nat := []
  serial : List Nat := []
  mediaErrors : Nat := 0
  temperature : Int := 0
  percentUsed : Nat := 0
  warnTemp : Int := 70
  blank : Bool := false
  deriving DecidableEq, Repr

/-- What a start finds on the board and in the part: MODE pins (R267), boot flash size in MiB (R478), -L grade (R2), DRAM size in MiB, its highest
rate and ranks, drives, failed lanes of each motif at S5 (R189), motifs whose memories fail S4 with the words that failed, the voltages of
VDDIO_T0 to T2 and VDDIO_C in mV as PORST_N rises (R511), TAMPER_N low at S3 (R500), whether TCLK_IN toggles during S1 (R40), the highest QSPI_CLK rate in MHz that the flash's SFDP table allows, and the
masks of the delay steps 0 to 7 at which the first 16 bytes of the loader read right at 25, 50 and 100 MHz (R523). -/
structure Board where
  mode : Nat := 0
  flashMiB : Nat := 0
  gradeL : Bool := false
  dramMiB : Nat := 0
  dramRate : Nat := 0
  dramRanks : Nat := 0
  drives : List DriveInfo := []
  lanes : List (Nat × Nat) := []
  badMotifs : List (Nat × Nat) := []
  vddio : List Nat := []
  tamperLow : Bool := false
  tclk : Bool := false
  sfdp : Nat := 25
  qspi : List Nat := []
  deriving DecidableEq, Repr

/-- One sync manager's settings: enabled, the direction (`out`: written by the MainDevice), with 1 or 3 buffers, start, length (R358). -/
structure SyncMan where
  enable : Bool := false
  out : Bool := false
  buffers : Nat := 1
  start : Nat := 0
  len : Nat := 0
  deriving DecidableEq, Repr

/-- An EtherCAT state request (R359) with what the MainDevice has set in the ESC register space by then: the state (1 INIT, 2 PREOP, 3 BOOT, 4 SAFEOP,
8 OP), the four sync managers, the SYNC0 and SYNC1 cycles in nanoseconds, the synchronisation (0 free run, 1 SM2 event, 2 DC SYNC0) and the SM2
watchdog period in nanoseconds. -/
structure AlRequest where
  state : Nat := 1
  sms : List SyncMan := []
  sync0 : Nat := 0
  sync1 : Nat := 0
  syncMode : Nat := 0
  watchdog : Nat := 100000000
  deriving DecidableEq, Repr


/-- The commands of the block: one constructor per row of the operation table, named after its mnemonic, with the operands
that the sender, a pin or the environment supplies. -/
inductive Instr where
  /-- TIME_SOURCE_WRITE (R14). -/
  | timeSourceWrite (path : Nat) (v : Nat)
  /-- DC_OFFSET_MEASUREMENT (R15). -/
  | dcOffsetMeasurement (dc : Nat)
  /-- DC_REFERENCE_LOSS (R15). -/
  | dcReferenceLoss
  /-- PPS_EDGE (R16). -/
  | ppsEdge
  /-- PPS_REFERENCE_LOSS (R16). -/
  | ppsReferenceLoss
  /-- PPS_NEXT_WRITE (R16). -/
  | ppsNextWrite (path : Nat) (v : Nat)
  /-- TIME_STEP (R20). -/
  | timeStep (dc : Nat)
  /-- PPS_OUT_RISE (R23). -/
  | ppsOutRise
  /-- PPS_OUT_FALL (R23). -/
  | ppsOutFall
  /-- EPOCH_BOUNDARY (R38). -/
  | epochBoundary (q : Measures)
  /-- TOKEN_TIMER_FIRING (R34). -/
  | tokenTimerFiring (planeB : Bool) (n : Nat)
  /-- TIMER_ENABLE_WRITE (R33). -/
  | timerEnableWrite (path : Nat) (n : Nat) (v : Bool)
  /-- DUAL_CLOCK_QUEUE_DELIVERY (R42). -/
  | dualClockQueueDelivery (q : Nat)
  /-- MAILBOX_EXCHANGE (R44). -/
  | mailboxExchange (ecc : Nat)
  /-- CELL_PASS (R64). -/
  | cellPass (b : CellBeat)
  /-- CELL_ADD (R65). -/
  | cellAdd (b : CellBeat)
  /-- CELL_SUB (R65). -/
  | cellSub (b : CellBeat)
  /-- CELL_NEG (R65). -/
  | cellNeg (b : CellBeat)
  /-- CELL_ABS (R65). -/
  | cellAbs (b : CellBeat)
  /-- CELL_AND (R64). -/
  | cellAnd (b : CellBeat)
  /-- CELL_OR (R64). -/
  | cellOr (b : CellBeat)
  /-- CELL_XOR (R64). -/
  | cellXor (b : CellBeat)
  /-- CELL_ANDN (R64). -/
  | cellAndn (b : CellBeat)
  /-- CELL_NOT (R64). -/
  | cellNot (b : CellBeat)
  /-- CELL_SHL (R65). -/
  | cellShl (b : CellBeat)
  /-- CELL_SHR (R65). -/
  | cellShr (b : CellBeat)
  /-- CELL_SAR (R65). -/
  | cellSar (b : CellBeat)
  /-- CELL_ROL (R65). -/
  | cellRol (b : CellBeat)
  /-- CELL_ROR (R65). -/
  | cellRor (b : CellBeat)
  /-- CELL_CMPEQ (R64). -/
  | cellCmpeq (b : CellBeat)
  /-- CELL_CMPNE (R64). -/
  | cellCmpne (b : CellBeat)
  /-- CELL_CMPLT (R64). -/
  | cellCmplt (b : CellBeat)
  /-- CELL_CMPLTU (R64). -/
  | cellCmpltu (b : CellBeat)
  /-- CELL_CMPLE (R64). -/
  | cellCmple (b : CellBeat)
  /-- CELL_CMPLEU (R64). -/
  | cellCmpleu (b : CellBeat)
  /-- CELL_SEL (R64). -/
  | cellSel (b : CellBeat)
  /-- CELL_MIN (R64). -/
  | cellMin (b : CellBeat)
  /-- CELL_MAX (R64). -/
  | cellMax (b : CellBeat)
  /-- CELL_MINU (R64). -/
  | cellMinu (b : CellBeat)
  /-- CELL_MAXU (R64). -/
  | cellMaxu (b : CellBeat)
  /-- CELL_CLZ (R64). -/
  | cellClz (b : CellBeat)
  /-- CELL_ADDS (R66). -/
  | cellAdds (b : CellBeat)
  /-- CELL_SUBS (R66). -/
  | cellSubs (b : CellBeat)
  /-- CELL_ADDSU (R66). -/
  | cellAddsu (b : CellBeat)
  /-- CELL_SUBSU (R66). -/
  | cellSubsu (b : CellBeat)
  /-- CELL_SATS (R64). -/
  | cellSats (b : CellBeat)
  /-- CELL_SATU (R64). -/
  | cellSatu (b : CellBeat)
  /-- CELL_MUL (R64). -/
  | cellMul (b : CellBeat)
  /-- CELL_MULH (R64). -/
  | cellMulh (b : CellBeat)
  /-- CELL_MULHU (R64). -/
  | cellMulhu (b : CellBeat)
  /-- CELL_QMUL31 (R66). -/
  | cellQmul31 (b : CellBeat)
  /-- CELL_QMUL16 (R66). -/
  | cellQmul16 (b : CellBeat)
  /-- CELL_MAC2 (R67). -/
  | cellMac2 (b : CellBeat)
  /-- CELL_MAC2U (R67). -/
  | cellMac2u (b : CellBeat)
  /-- CELL_MSU2 (R67). -/
  | cellMsu2 (b : CellBeat)
  /-- CELL_MAC2Z (R67). -/
  | cellMac2z (b : CellBeat)
  /-- CELL_RDACC (R67). -/
  | cellRdacc (b : CellBeat)
  /-- CELL_FADD (R68). -/
  | cellFadd (b : CellBeat)
  /-- CELL_FSUB (R68). -/
  | cellFsub (b : CellBeat)
  /-- CELL_FMUL (R68). -/
  | cellFmul (b : CellBeat)
  /-- CELL_FMA (R68). -/
  | cellFma (b : CellBeat)
  /-- CELL_FMS (R68). -/
  | cellFms (b : CellBeat)
  /-- CELL_FNMA (R68). -/
  | cellFnma (b : CellBeat)
  /-- CELL_FMIN (R68). -/
  | cellFmin (b : CellBeat)
  /-- CELL_FMAX (R68). -/
  | cellFmax (b : CellBeat)
  /-- CELL_FCMPLT (R68). -/
  | cellFcmplt (b : CellBeat)
  /-- CELL_FCMPLE (R68). -/
  | cellFcmple (b : CellBeat)
  /-- CELL_FCMPEQ (R68). -/
  | cellFcmpeq (b : CellBeat)
  /-- CELL_FTOI (R68). -/
  | cellFtoi (b : CellBeat)
  /-- CELL_FTOIR (R68). -/
  | cellFtoir (b : CellBeat)
  /-- CELL_ITOF (R68). -/
  | cellItof (b : CellBeat)
  /-- CELL_FABS (R68). -/
  | cellFabs (b : CellBeat)
  /-- CELL_FNEG (R68). -/
  | cellFneg (b : CellBeat)
  /-- CELL_FCLASS (R68). -/
  | cellFclass (b : CellBeat)
  /-- CELL_LUT (R69). -/
  | cellLut (b : CellBeat)
  /-- CELL_LUT4 (R69). -/
  | cellLut4 (b : CellBeat)
  /-- CELL_SDIFF (R70). -/
  | cellSdiff (b : CellBeat)
  /-- CELL_SLT (R70). -/
  | cellSlt (b : CellBeat)
  /-- CELL_SLE (R70). -/
  | cellSle (b : CellBeat)
  /-- CELL_SADD (R70). -/
  | cellSadd (b : CellBeat)
  /-- CELL_SLATER (R70). -/
  | cellSlater (b : CellBeat)
  /-- CELL_SEARLIER (R70). -/
  | cellSearlier (b : CellBeat)
  /-- CELL_LD (R71). -/
  | cellLd (b : CellBeat)
  /-- CELL_ST (R71). -/
  | cellSt (b : CellBeat)
  /-- CELL_GATHER (R117). -/
  | cellGather (b : CellBeat)
  /-- CELL_STEER (R72). -/
  | cellSteer (b : CellBeat)
  /-- CELL_DROP (R72). -/
  | cellDrop (b : CellBeat)
  /-- CELL_CANCEL (R72). -/
  | cellCancel (b : CellBeat)
  /-- TOKEN_DELIVERY (R91). -/
  | tokenDelivery (m : Nat) (src : Nat)
  /-- MATCH_ENTRY_WAIT_TIMEOUT (R94). -/
  | matchEntryWaitTimeout (m : Nat) (src : Nat)
  /-- ORDER_WINDOW_REACHED (R95). -/
  | orderWindowReached (m : Nat) (pos : Nat)
  /-- WINNER_SELECTION (R99). -/
  | winnerSelection (m : Nat) (pos : Nat)
  /-- INSTANCE_DISPATCH (R99). -/
  | instanceDispatch (m : Nat) (pos : Nat) (ecc : Nat) (tok : Nat) (bad : TidList)
  /-- CANCEL_WORD_ARRIVAL (R102). -/
  | cancelWordArrival (m : Nat) (src : Nat)
  /-- BANK_POWER_WRITE (R114). -/
  | bankPowerWrite (path : Nat) (m : Nat) (v : Nat)
  /-- BANK_POWER_TRANSITION_DONE (R113). -/
  | bankPowerTransitionDone (m : Nat) (bank : Nat)
  /-- GATHER_START (R124). -/
  | gatherStart (m : Nat)
  /-- GATHER_ELEMENT_READ (R118). -/
  | gatherElementRead (m : Nat) (ecc : Nat) (bad : TidList)
  /-- SCRUB_READ (R193). -/
  | scrubRead (w : ScrubWord)
  /-- CONTEXT_REPAIR (R275). -/
  | contextRepair (m : Nat) (kind : Nat) (pos : Nat) (slot : Nat) (ecc : Nat)
  /-- TID_GRANT_NOTICE (R132). -/
  | tidGrantNotice (m : Nat) (tids : TidList)
  /-- SUSPEND_WRITE (R135). -/
  | suspendWrite (path : Nat) (c : Nat) (v : Bool)
  /-- OPENING_NOTICE (R139). -/
  | openingNotice (tid : Nat)
  /-- CLOSE_REPORT (R137). -/
  | closeReport (m : Nat) (tid : Nat)
  /-- CLOSE_HANDOVER (R138). -/
  | closeHandover (m : Nat) (tid : Nat)
  /-- CLOSE_NOTICE (R139). -/
  | closeNotice (tid : Nat) (ecc : Nat)
  /-- COMMIT_NOTICE (R140). -/
  | commitNotice (m : Nat) (tid : Nat)
  /-- CHILD_RECHECK (R140). -/
  | childRecheck (tid : Nat) (ecc : Nat)
  /-- STORE_BUFFER_DRAIN (R150). -/
  | storeBufferDrain (m : Nat) (ecc : Nat) (entry : Nat)
  /-- REENTRY_INJECT (R156). -/
  | reentryInject
  /-- SELVEDGE_ENTRY_ARRIVAL (R157). -/
  | selvedgeEntryArrival (port : Nat)
  /-- DEADLINE_CHECK (R143). -/
  | deadlineCheck
  /-- RELEASE_INSTANT (R159). -/
  | releaseInstant (bad : List EntryError)
  /-- PORT_BUSY_RELEASE (R160). -/
  | portBusyRelease (port : Nat)
  /-- TID_RETURN (R145). -/
  | tidReturn (tid : Nat)
  /-- LANE_MISMATCH_REPORT (R169). -/
  | laneMismatchReport (m : Nat) (bad : TidList)
  /-- ABORT_NOTICE (R171). -/
  | abortNotice (m : Nat) (tid : Nat) (bad : TidList)
  /-- REPLAY_NOTICE (R174). -/
  | replayNotice (tid : Nat)
  /-- NO_REPLAY_NOTICE (R174). -/
  | noReplayNotice (tid : Nat)
  /-- REPLAY_SERVICE_INSERT (R320). -/
  | replayServiceInsert (m : Nat)
  /-- REPLAY_STREAM_START (R180). -/
  | replayStreamStart (m : Nat) (ecc : Nat) (bad : TidList)
  /-- REMAP_START (R184). -/
  | remapStart (m : Nat) (bad : TidList)
  /-- REMAP_COMPLETE (R184). -/
  | remapComplete (m : Nat) (words : List LaneWord)
  /-- CLEAR_SUSPECT_WRITE (R189). -/
  | clearSuspectWrite (path : Nat) (v : Nat)
  /-- PAGE_COPY_COMPLETE (R196). -/
  | pageCopyComplete (page : Nat)
  /-- DRAM_PATROL_SCRUB (R197). -/
  | dramPatrolScrub (addr : Nat) (ecc : Nat)
  /-- FLIT_CRC_ERROR (R198). -/
  | flitCrcError (x : Nat) (y : Nat) (port : Nat) (again : Bool)
  /-- DRIVE_RESYNC_COMPLETE (R201). -/
  | driveResyncComplete (drive : Nat) (n : Nat)
  /-- PACKET_INJECTION (R218). -/
  | packetInjection (k : Nat)
  /-- ROUTE_CACHE_REFILL_DONE (R234). -/
  | routeCacheRefillDone (k : Nat)
  /-- PACKET_FORWARD (R223). -/
  | packetForward (x : Nat) (y : Nat) (port : Nat) (ecc : Nat) (bad : TidList)
  /-- URGENCY_AGEING (R225). -/
  | urgencyAgeing (inSource : Bool) (k : Nat)
  /-- PACKET_DELIVERY (R226). -/
  | packetDelivery (x : Nat) (y : Nat) (edge : Bool)
  /-- READ_REQUEST (R229). -/
  | readRequest (x : Nat) (y : Nat) (edge : Bool) (ecc : Nat)
  /-- WRITE_REQUEST (R229). -/
  | writeRequest (x : Nat) (y : Nat) (edge : Bool) (ecc : Nat)
  /-- PULL_REQUEST (R239). -/
  | pullRequest (x : Nat) (y : Nat) (edge : Bool) (ecc : Nat)
  /-- READ_RESP (R216). -/
  | readResp (k : Nat)
  /-- WRITE_ACK (R216). -/
  | writeAck (k : Nat)
  /-- PULL_RESP (R239). -/
  | pullResp (k : Nat)
  /-- STREAM_QUEUE_APPEND (R239). -/
  | streamQueueAppend (hoop : Nat) (q : Nat)
  /-- ROUTE_ENTRY_WRITE_LAZY (R236). -/
  | routeEntryWriteLazy (path : Nat) (v : Nat)
  /-- ROUTE_ENTRY_WRITE_INVALIDATE (R237). -/
  | routeEntryWriteInvalidate (path : Nat) (v : Nat)
  /-- ROUTE_INVALIDATION_COMPLETE (R237). -/
  | routeInvalidationComplete
  /-- FLUSH_ALL_WRITE (R237). -/
  | flushAllWrite (path : Nat) (v : Bool)
  /-- HOOP_BANK_POWER_WRITE (R242). -/
  | hoopBankPowerWrite (path : Nat) (h : Nat) (v : Nat)
  /-- HOOP_BANK_TRANSITION_DONE (R242). -/
  | hoopBankTransitionDone (h : Nat) (bank : Nat)
  /-- DRAM_REQUEST_SERVICE (R248). -/
  | dramRequestService (ecc : Nat) (pick : Nat)
  /-- ISLAND_WIPE_COMPLETE (R250). -/
  | islandWipeComplete
  /-- CFG_WIDTH_SAMPLE (R260). -/
  | cfgWidthSample (mode : Nat)
  /-- IMAGE_BEGIN_DEVICE_LOAD (R268). -/
  | imageBeginDeviceLoad (bs : FrameData)
  /-- IMAGE_BEGIN_REGION_RELOAD (R276). -/
  | imageBeginRegionReload (bs : FrameData)
  /-- IMAGE_BEGIN_SHADOW_LOAD (R279). -/
  | imageBeginShadowLoad (bs : FrameData)
  /-- IMAGE_BEGIN_RECIPE_STORE (R270). -/
  | imageBeginRecipeStore (bs : FrameData)
  /-- IMAGE_DATA (R262). -/
  | imageData (bs : FrameData)
  /-- IMAGE_END (R259). -/
  | imageEnd (bs : FrameData)
  /-- IMAGE_ABORT (R262). -/
  | imageAbort (bs : FrameData)
  /-- LOAD_CHECK_COMPLETE (R259). -/
  | loadCheckComplete (failed : Nat)
  /-- SDO_FRAME_READ (R266). -/
  | sdoFrameRead (bs : FrameData)
  /-- SDO_FRAME_WRITE (R266). -/
  | sdoFrameWrite (bs : FrameData)
  /-- SDO_FRAME_CA_READ (R266). -/
  | sdoFrameCaRead (bs : FrameData)
  /-- SDO_FRAME_CA_WRITE (R266). -/
  | sdoFrameCaWrite (bs : FrameData)
  /-- BQ_WRITE (R428). -/
  | bqWrite (bs : FrameData)
  /-- READ_STATUS (R265). -/
  | readStatus (bs : FrameData)
  /-- READ_SDO_RESPONSE (R265). -/
  | readSdoResponse (bs : FrameData)
  /-- READ_BQ (R430). -/
  | readBq (bs : FrameData)
  /-- FOE_WRITE_RECIPE (R271). -/
  | foeWriteRecipe (slot : Nat) (pw : Nat) (req : Bool) (bs : FrameData)
  /-- FOE_WRITE_SHADOW (R271). -/
  | foeWriteShadow (pw : Nat) (req : Bool) (bs : FrameData)
  /-- FOE_WRITE_REGION (R271). -/
  | foeWriteRegion (pw : Nat) (req : Bool) (bs : FrameData)
  /-- FOE_READ_RECIPE (R271). -/
  | foeReadRecipe (slot : Nat) (pw : Nat) (req : Bool)
  /-- FOE_WRITE_FIRMWARE (R485). -/
  | foeWriteFirmware (pw : Nat) (req : Bool) (bs : FrameData)
  /-- FOE_READ_FIRMWARE (R485). -/
  | foeReadFirmware (pw : Nat)
  /-- DONE_HIGH_SEEN (R273). -/
  | doneHighSeen
  /-- FABRIC_START (R273). -/
  | fabricStart
  /-- REGION_DRAINED (R276). -/
  | regionDrained
  /-- REGION_LEAVE_RESET (R276). -/
  | regionLeaveReset
  /-- CONTROL_START_LOAD (R285). -/
  | controlStartLoad (path : Nat)
  /-- CONTROL_ACKNOWLEDGE (R285). -/
  | controlAcknowledge (path : Nat)
  /-- CO_ID_WRITE (R286). -/
  | coIdWrite (path : Nat) (v : Nat)
  /-- T_C_WRITE (R286). -/
  | tCWrite (path : Nat) (v : Nat)
  /-- CHANGEOVER_ARM (R286). -/
  | changeoverArm
  /-- COMMIT_WRITE (R287). -/
  | commitWrite (path : Nat) (v : Nat)
  /-- CANCEL_WRITE (R289). -/
  | cancelWrite (path : Nat) (v : Nat)
  /-- PREPARE_DEADLINE (R288). -/
  | prepareDeadline
  /-- CHANGEOVER_INSTANT (R281). -/
  | changeoverInstant
  /-- OLD_PLANE_RETIRE (R283). -/
  | oldPlaneRetire
  /-- VOTE_FRAME (R290). -/
  | voteFrame (l : Nat) (bs : FrameData)
  /-- ADD (R333). -/
  | fzAdd (c : Nat) (rd : Nat) (ra : Nat) (rb : Nat)
  /-- SUB (R333). -/
  | fzSub (c : Nat) (rd : Nat) (ra : Nat) (rb : Nat)
  /-- AND (R333). -/
  | fzAnd (c : Nat) (rd : Nat) (ra : Nat) (rb : Nat)
  /-- OR (R333). -/
  | fzOr (c : Nat) (rd : Nat) (ra : Nat) (rb : Nat)
  /-- XOR (R333). -/
  | fzXor (c : Nat) (rd : Nat) (ra : Nat) (rb : Nat)
  /-- ANDN (R333). -/
  | fzAndn (c : Nat) (rd : Nat) (ra : Nat) (rb : Nat)
  /-- SLL (R333). -/
  | fzSll (c : Nat) (rd : Nat) (ra : Nat) (rb : Nat)
  /-- SRL (R333). -/
  | fzSrl (c : Nat) (rd : Nat) (ra : Nat) (rb : Nat)
  /-- SRA (R333). -/
  | fzSra (c : Nat) (rd : Nat) (ra : Nat) (rb : Nat)
  /-- ROR (R333). -/
  | fzRor (c : Nat) (rd : Nat) (ra : Nat) (rb : Nat)
  /-- SLT (R333). -/
  | fzSlt (c : Nat) (rd : Nat) (ra : Nat) (rb : Nat)
  /-- SLTU (R333). -/
  | fzSltu (c : Nat) (rd : Nat) (ra : Nat) (rb : Nat)
  /-- MIN (R333). -/
  | fzMin (c : Nat) (rd : Nat) (ra : Nat) (rb : Nat)
  /-- MAX (R333). -/
  | fzMax (c : Nat) (rd : Nat) (ra : Nat) (rb : Nat)
  /-- CLZ (R333). -/
  | fzClz (c : Nat) (rd : Nat) (ra : Nat)
  /-- MUL (R333). -/
  | fzMul (c : Nat) (rd : Nat) (ra : Nat) (rb : Nat)
  /-- MULH (R333). -/
  | fzMulh (c : Nat) (rd : Nat) (ra : Nat) (rb : Nat)
  /-- MULHU (R333). -/
  | fzMulhu (c : Nat) (rd : Nat) (ra : Nat) (rb : Nat)
  /-- DIV (R333). -/
  | fzDiv (c : Nat) (rd : Nat) (ra : Nat) (rb : Nat)
  /-- DIVU (R333). -/
  | fzDivu (c : Nat) (rd : Nat) (ra : Nat) (rb : Nat)
  /-- REM (R333). -/
  | fzRem (c : Nat) (rd : Nat) (ra : Nat) (rb : Nat)
  /-- REMU (R333). -/
  | fzRemu (c : Nat) (rd : Nat) (ra : Nat) (rb : Nat)
  /-- ADDI (R333). -/
  | fzAddi (c : Nat) (rd : Nat) (ra : Nat) (imm : Nat)
  /-- ANDI (R333). -/
  | fzAndi (c : Nat) (rd : Nat) (ra : Nat) (imm : Nat)
  /-- ORI (R333). -/
  | fzOri (c : Nat) (rd : Nat) (ra : Nat) (imm : Nat)
  /-- XORI (R333). -/
  | fzXori (c : Nat) (rd : Nat) (ra : Nat) (imm : Nat)
  /-- SLTI (R333). -/
  | fzSlti (c : Nat) (rd : Nat) (ra : Nat) (imm : Nat)
  /-- SLTIU (R333). -/
  | fzSltiu (c : Nat) (rd : Nat) (ra : Nat) (imm : Nat)
  /-- SLLI (R333). -/
  | fzSlli (c : Nat) (rd : Nat) (ra : Nat) (imm : Nat)
  /-- SRLI (R333). -/
  | fzSrli (c : Nat) (rd : Nat) (ra : Nat) (imm : Nat)
  /-- SRAI (R333). -/
  | fzSrai (c : Nat) (rd : Nat) (ra : Nat) (imm : Nat)
  /-- LUI (R333). -/
  | fzLui (c : Nat) (rd : Nat) (imm : Nat)
  /-- LW (R298). -/
  | fzLw (c : Nat) (rd : Nat) (ra : Nat) (imm : Nat) (ecc : Nat)
  /-- LH (R333). -/
  | fzLh (c : Nat) (rd : Nat) (ra : Nat) (imm : Nat) (ecc : Nat)
  /-- LHU (R333). -/
  | fzLhu (c : Nat) (rd : Nat) (ra : Nat) (imm : Nat) (ecc : Nat)
  /-- LB (R333). -/
  | fzLb (c : Nat) (rd : Nat) (ra : Nat) (imm : Nat) (ecc : Nat)
  /-- LBU (R333). -/
  | fzLbu (c : Nat) (rd : Nat) (ra : Nat) (imm : Nat) (ecc : Nat)
  /-- SWAP (R333). -/
  | fzSwap (c : Nat) (rd : Nat) (ra : Nat) (imm : Nat) (ecc : Nat)
  /-- SW (R298). -/
  | fzSw (c : Nat) (rs : Nat) (ra : Nat) (imm : Nat) (ecc : Nat)
  /-- SH (R298). -/
  | fzSh (c : Nat) (rs : Nat) (ra : Nat) (imm : Nat) (ecc : Nat)
  /-- SB (R298). -/
  | fzSb (c : Nat) (rs : Nat) (ra : Nat) (imm : Nat) (ecc : Nat)
  /-- CLW (R334). -/
  | fzClw (c : Nat) (rd : Nat) (ra : Nat) (imm : Nat)
  /-- CLH (R335). -/
  | fzClh (c : Nat) (rd : Nat) (ra : Nat) (imm : Nat)
  /-- CLB (R335). -/
  | fzClb (c : Nat) (rd : Nat) (ra : Nat) (imm : Nat)
  /-- CLD (R336). -/
  | fzCld (c : Nat) (rd : Nat) (ra : Nat) (imm : Nat)
  /-- CSW (R334). -/
  | fzCsw (c : Nat) (rs : Nat) (ra : Nat) (imm : Nat)
  /-- CSH (R335). -/
  | fzCsh (c : Nat) (rs : Nat) (ra : Nat) (imm : Nat)
  /-- CSB (R335). -/
  | fzCsb (c : Nat) (rs : Nat) (ra : Nat) (imm : Nat)
  /-- CSD (R336). -/
  | fzCsd (c : Nat) (rs : Nat) (ra : Nat) (imm : Nat)
  /-- BEQ (R333). -/
  | fzBeq (c : Nat) (ra : Nat) (rb : Nat) (disp : Nat)
  /-- BNE (R333). -/
  | fzBne (c : Nat) (ra : Nat) (rb : Nat) (disp : Nat)
  /-- BLT (R333). -/
  | fzBlt (c : Nat) (ra : Nat) (rb : Nat) (disp : Nat)
  /-- BGE (R333). -/
  | fzBge (c : Nat) (ra : Nat) (rb : Nat) (disp : Nat)
  /-- BLTU (R333). -/
  | fzBltu (c : Nat) (ra : Nat) (rb : Nat) (disp : Nat)
  /-- BGEU (R333). -/
  | fzBgeu (c : Nat) (ra : Nat) (rb : Nat) (disp : Nat)
  /-- J (R333). -/
  | fzJ (c : Nat) (disp : Nat)
  /-- JAL (R333). -/
  | fzJal (c : Nat) (disp : Nat)
  /-- JALR (R333). -/
  | fzJalr (c : Nat) (rd : Nat) (ra : Nat) (imm : Nat)
  /-- CTX (R303). -/
  | fzCtx (c : Nat) (ra : Nat) (ecc : Nat)
  /-- SAVL (R308). -/
  | fzSavl (c : Nat)
  /-- SAVU (R308). -/
  | fzSavu (c : Nat)
  /-- RSTL (R308). -/
  | fzRstl (c : Nat) (ecc : Nat)
  /-- RSTU (R308). -/
  | fzRstu (c : Nat) (ecc : Nat)
  /-- SAVF (R311). -/
  | fzSavf (c : Nat)
  /-- RSTF (R311). -/
  | fzRstf (c : Nat) (ecc : Nat)
  /-- RFE (R324). -/
  | fzRfe (c : Nat) (ecc : Nat)
  /-- RFI (R316). -/
  | fzRfi (c : Nat)
  /-- WAIT (R333). -/
  | fzWait (c : Nat)
  /-- WAIT_WAKE (R333). -/
  | fzWaitWake (c : Nat)
  /-- SYS (R323). -/
  | fzSys (c : Nat)
  /-- BRK (R323). -/
  | fzBrk (c : Nat)
  /-- FENCE (R298). -/
  | fzFence (c : Nat)
  /-- EI (R333). -/
  | fzEi (c : Nat)
  /-- DI (R333). -/
  | fzDi (c : Nat)
  /-- FADD (R314). -/
  | fzFadd (c : Nat) (fd : Nat) (fa : Nat) (fb : Nat) (ecc : Nat)
  /-- FSUB (R314). -/
  | fzFsub (c : Nat) (fd : Nat) (fa : Nat) (fb : Nat) (ecc : Nat)
  /-- FMUL (R314). -/
  | fzFmul (c : Nat) (fd : Nat) (fa : Nat) (fb : Nat) (ecc : Nat)
  /-- FDIV (R314). -/
  | fzFdiv (c : Nat) (fd : Nat) (fa : Nat) (fb : Nat) (ecc : Nat)
  /-- FSQRT (R314). -/
  | fzFsqrt (c : Nat) (fd : Nat) (fa : Nat) (ecc : Nat)
  /-- FMA (R314). -/
  | fzFma (c : Nat) (fd : Nat) (fa : Nat) (fb : Nat) (fc : Nat) (ecc : Nat)
  /-- FMS (R314). -/
  | fzFms (c : Nat) (fd : Nat) (fa : Nat) (fb : Nat) (fc : Nat) (ecc : Nat)
  /-- FNMA (R314). -/
  | fzFnma (c : Nat) (fd : Nat) (fa : Nat) (fb : Nat) (fc : Nat) (ecc : Nat)
  /-- FMIN (R314). -/
  | fzFmin (c : Nat) (fd : Nat) (fa : Nat) (fb : Nat) (ecc : Nat)
  /-- FMAX (R314). -/
  | fzFmax (c : Nat) (fd : Nat) (fa : Nat) (fb : Nat) (ecc : Nat)
  /-- FCMPLT (R314). -/
  | fzFcmplt (c : Nat) (rd : Nat) (fa : Nat) (fb : Nat) (ecc : Nat)
  /-- FCMPLE (R314). -/
  | fzFcmple (c : Nat) (rd : Nat) (fa : Nat) (fb : Nat) (ecc : Nat)
  /-- FCMPEQ (R314). -/
  | fzFcmpeq (c : Nat) (rd : Nat) (fa : Nat) (fb : Nat) (ecc : Nat)
  /-- FTOI (R314). -/
  | fzFtoi (c : Nat) (rd : Nat) (fa : Nat) (ecc : Nat)
  /-- FTOIR (R314). -/
  | fzFtoir (c : Nat) (rd : Nat) (fa : Nat) (ecc : Nat)
  /-- ITOF (R314). -/
  | fzItof (c : Nat) (fd : Nat) (ra : Nat) (ecc : Nat)
  /-- FMVGF (R333). -/
  | fzFmvgf (c : Nat) (fd : Nat) (ra : Nat) (ecc : Nat)
  /-- FMVFG (R333). -/
  | fzFmvfg (c : Nat) (rd : Nat) (fa : Nat) (ecc : Nat)
  /-- FABS (R333). -/
  | fzFabs (c : Nat) (fd : Nat) (fa : Nat) (ecc : Nat)
  /-- FNEG (R333). -/
  | fzFneg (c : Nat) (fd : Nat) (fa : Nat) (ecc : Nat)
  /-- FLW (R333). -/
  | fzFlw (c : Nat) (fd : Nat) (ra : Nat) (imm : Nat) (ecc : Nat)
  /-- FSW (R333). -/
  | fzFsw (c : Nat) (fs : Nat) (ra : Nat) (imm : Nat) (ecc : Nat)
  /-- INTERRUPT_ENTRY (R316). -/
  | interruptEntry (c : Nat)
  /-- REPLAYQ_POP (R321). -/
  | replayqPop (c : Nat) (rd : Nat)
  /-- REPLAY_REQUEST_WRITE (R321). -/
  | replayRequestWrite (c : Nat) (rs : Nat)
  /-- TXDATA_APPEND (R337). -/
  | txdataAppend (c : Nat) (rs : Nat)
  /-- TXLAST_SEND (R337). -/
  | txlastSend (c : Nat) (rs : Nat)
  /-- RXHEAD_READ (R337). -/
  | rxheadRead (c : Nat) (rd : Nat)
  /-- RXDATA_POP (R337). -/
  | rxdataPop (c : Nat) (rd : Nat)
  /-- EXCOUNT_READ (R337). -/
  | excountRead (c : Nat) (rd : Nat)
  /-- LATCHED_PAIR_READ (R336). -/
  | latchedPairRead (c : Nat) (rd : Nat) (addr : Nat)
  /-- WDOG_WRITE (R329). -/
  | wdogWrite (c : Nat) (rs : Nat)
  /-- PULLREQ_WRITE (R337). -/
  | pullreqWrite (c : Nat) (rs : Nat)
  /-- DOORBELL_WRITE (R337). -/
  | doorbellWrite (c : Nat) (rs : Nat)
  /-- SHCTL_STOP (R337). -/
  | shctlStop (c : Nat) (n : Nat)
  /-- SHCTL_RESTART (R328). -/
  | shctlRestart (c : Nat) (n : Nat)
  /-- IBIND_WRITE (R317). -/
  | ibindWrite (c : Nat) (high : Bool) (rs : Nat)
  /-- WATCHDOG_WARNING (R315). -/
  | watchdogWarning
  /-- WATCHDOG_EXPIRY (R329). -/
  | watchdogExpiry
  /-- MP_RESTART_DONE (R329). -/
  | mpRestartDone
  /-- SUPERVISOR_TIMER_EXPIRY (R315). -/
  | supervisorTimerExpiry (h : Nat)
  /-- MP_TIMER_EXPIRY (R315). -/
  | mpTimerExpiry
  /-- SUPERVISOR_RESTART_WRITE (R338). -/
  | supervisorRestartWrite (path : Nat) (h : Nat) (v : Bool)
  /-- SHUTTLE_RESTART_WRITE (R328). -/
  | shuttleRestartWrite (path : Nat) (v : Nat)
  /-- OBJECT_WRITE (R347). -/
  | objectWrite (path : Nat) (ix : Nat) (sub : Nat) (size : Nat) (bs : FrameData)
  /-- SDO_UPLOAD (R347). -/
  | sdoUpload (path : Nat) (ix : Nat) (sub : Nat) (ecc : Nat)
  /-- SDO_COMPLETE_ACCESS_READ (R349). -/
  | sdoCompleteAccessRead (path : Nat) (ix : Nat) (from1 : Bool) (ecc : Nat)
  /-- SDO_COMPLETE_ACCESS_WRITE (R349). -/
  | sdoCompleteAccessWrite (path : Nat) (ix : Nat) (from1 : Bool) (size : Nat) (bs : FrameData)
  /-- SDO_SEGMENT (R348). -/
  | sdoSegment (path : Nat) (toggle : Bool) (last : Bool) (bs : FrameData)
  /-- SDO_SEGMENT_TIMEOUT (R351). -/
  | sdoSegmentTimeout (path : Nat)
  /-- SDO_BLOCK_REQUEST (R371). -/
  | sdoBlockRequest (path : Nat) (ix : Nat) (sub : Nat)
  /-- SDO_ABORT_REQUEST (R371). -/
  | sdoAbortRequest (path : Nat)
  /-- SDO_INFO_OBJECT_LIST (R371). -/
  | sdoInfoObjectList (typ : Nat)
  /-- SDO_INFO_OBJECT_DESC (R371). -/
  | sdoInfoObjectDesc (ix : Nat)
  /-- SDO_INFO_ENTRY_DESC (R371). -/
  | sdoInfoEntryDesc (ix : Nat) (sub : Nat)
  /-- MAILBOX_REPEAT_REQUEST (R371). -/
  | mailboxRepeatRequest
  /-- SECURE_RESPONSE_DUE (R385). -/
  | secureResponseDue
  /-- SAVE_WRITE (R354). -/
  | saveWrite (path : Nat) (v : Nat)
  /-- SAVE_COMPLETE (R354). -/
  | saveComplete
  /-- RESTORE_DEFAULTS_WRITE (R355). -/
  | restoreDefaultsWrite (path : Nat) (v : Nat)
  /-- LOCK_WRITE (R345). -/
  | lockWrite (path : Nat) (v : Nat)
  /-- AL_STATE_REQUEST (R359). -/
  | alStateRequest (q : AlRequest)
  /-- SM_WATCHDOG_EXPIRY (R370). -/
  | smWatchdogExpiry
  /-- RXPDO_BUFFER_SWITCH (R365). -/
  | rxpdoBufferSwitch (ago : Nat) (bs : FrameData)
  /-- TXPDO_CAPTURE (R364). -/
  | txpdoCapture
  /-- ETHERCAT_FRAME_ERROR (R360). -/
  | ethercatFrameError (port : Nat)
  /-- SYNC_EVENT (R369). -/
  | syncEvent (n : Nat)
  /-- LATCH_EVENT (R369). -/
  | latchEvent (n : Nat) (falling : Bool) (dc : Nat)
  /-- SII_WRITE (R361). -/
  | siiWrite (a : Nat) (bs : FrameData)
  /-- EMCY_MAILBOX_READ (R374). -/
  | emcyMailboxRead
  /-- CAN_EMCY_FRAME_SENT (R374). -/
  | canEmcyFrameSent
  /-- NMT_START_REMOTE_NODE (R377). -/
  | nmtStartRemoteNode (target : Nat)
  /-- NMT_STOP_REMOTE_NODE (R377). -/
  | nmtStopRemoteNode (target : Nat)
  /-- NMT_ENTER_PRE_OPERATIONAL (R377). -/
  | nmtEnterPreOperational (target : Nat)
  /-- NMT_RESET_NODE (R377). -/
  | nmtResetNode (target : Nat)
  /-- NMT_RESET_COMMUNICATION (R377). -/
  | nmtResetCommunication (target : Nat)
  /-- HEARTBEAT_TIMER (R376). -/
  | heartbeatTimer
  /-- CAN_FRAME_RECEIVED (R379). -/
  | canFrameReceived (w0 : Nat) (ago : Nat) (passive : Bool) (bs : FrameData)
  /-- CAN_BUS_OFF (R378). -/
  | canBusOff
  /-- CAN_BUS_OFF_RECOVERY (R378). -/
  | canBusOffRecovery
  /-- MP_LOAD_WINDOW (R381). -/
  | mpLoadWindow (load : Nat)
  /-- TIO_INPUT_EDGE (R29). -/
  | tioInputEdge (p : Nat) (level : Bool)
  /-- TIO_DEGLITCH_PASS (R396). -/
  | tioDeglitchPass (p : Nat)
  /-- TIO_BURST_SUMMARY (R397). -/
  | tioBurstSummary (p : Nat)
  /-- TIO_STUCK_TIMEOUT (R398). -/
  | tioStuckTimeout (p : Nat)
  /-- TIO_TOKEN_QUEUE_ENTRY (R400). -/
  | tioTokenQueueEntry (p : Nat)
  /-- PULSE_TRAIN_EDGE (R402). -/
  | pulseTrainEdge (p : Nat)
  /-- DE_LEAD_START (R404). -/
  | deLeadStart (ch : Nat)
  /-- UART_FRAME_END (R407). -/
  | uartFrameEnd (ch : Nat) (ago : Nat) (bytes : List RxByte)
  /-- SSI_POLL (R409). -/
  | ssiPoll (ch : Nat)
  /-- SSI_READ_COMPLETE (R410). -/
  | ssiReadComplete (ch : Nat) (pos : Nat) (st : Nat) (err : Bool)
  /-- DRIVE_RESPONSE_RECEIVED (R413). -/
  | driveResponseReceived (ch : Nat) (ago : Nat) (bytes : List RxByte)
  /-- DRIVE_RESPONSE_TIMEOUT (R413). -/
  | driveResponseTimeout (ch : Nat)
  /-- CSI_FRAME_START (R417). -/
  | csiFrameStart (cam : Nat) (vc : Nat) (number : Nat) (rate : Nat)
  /-- CSI_LINE_START (R417). -/
  | csiLineStart (cam : Nat) (vc : Nat)
  /-- CSI_LONG_PACKET (R415). -/
  | csiLongPacket (cam : Nat) (q : CsiLine)
  /-- CSI_FRAME_END (R418). -/
  | csiFrameEnd (cam : Nat) (vc : Nat)
  /-- I2C_XFER_WRITE (R419). -/
  | i2cXferWrite (path : Nat) (bytes : FrameData)
  /-- I2C_TRANSFER_END (R419). -/
  | i2cTransferEnd (cam : Nat) (code : Nat) (bytes : FrameData)
  /-- LINK_TOKEN_FRAME (R421). -/
  | linkTokenFrame (l : Nat) (bs : FrameData)
  /-- LINK_RELAY_FRAME (R426). -/
  | linkRelayFrame (l : Nat) (bs : FrameData)
  /-- LINK_IDLE_FRAME (R420). -/
  | linkIdleFrame (l : Nat) (bs : FrameData)
  /-- LINK_RESEND_TIMEOUT (R422). -/
  | linkResendTimeout (l : Nat)
  /-- LINK_IDLE_TIMER (R422). -/
  | linkIdleTimer (l : Nat)
  /-- VOTE_TIMER (R425). -/
  | voteTimer
  /-- LINK_TRAINING_DONE (R424). -/
  | linkTrainingDone (l : Nat)
  /-- LINK_LOSS_OF_LOCK (R424). -/
  | linkLossOfLock (l : Nat)
  /-- BQ_PACKET_READOUT (R429). -/
  | bqPacketReadout (q : Nat)
  /-- ALARM_EVENT (R435). -/
  | alarmEvent (a : Nat)
  /-- ALARM_CLEAR_WRITE (R437). -/
  | alarmClearWrite (path : Nat) (v : Nat)
  /-- SAMPLER_RECORD_OFFER (R442). -/
  | samplerRecordOffer (typ : Nat) (t : Nat) (payload : FrameData)
  /-- SAMPLER_RELEASE_WRITE (R443). -/
  | samplerReleaseWrite (path : Nat) (n : Nat)
  /-- TRACE_EXPORT_READ (R451). -/
  | traceExportRead (path : Nat)
  /-- TRACE_EXPORT_COPY (R451). -/
  | traceExportCopy
  /-- JOURNAL_RECORD_LEAVE (R457). -/
  | journalRecordLeave
  /-- JOURNAL_BLOCK_WRITE (R460). -/
  | journalBlockWrite
  /-- NVME_COMMAND_COMPLETE (R460). -/
  | nvmeCommandComplete (drive : Nat) (n : Nat) (failed : Bool)
  /-- NVME_COMMAND_TIMEOUT (R452). -/
  | nvmeCommandTimeout (drive : Nat) (n : Nat)
  /-- JOURNAL_BLOCK_READ (R461). -/
  | journalBlockRead (path : Nat)
  /-- FORMAT_MIRRORED (R453). -/
  | formatMirrored (path : Nat)
  /-- FORMAT_STRIPED (R453). -/
  | formatStriped (path : Nat)
  /-- JOURNAL_ENABLE_TRUE (R463). -/
  | journalEnableTrue (path : Nat)
  /-- JOURNAL_ENABLE_FALSE (R465). -/
  | journalEnableFalse (path : Nat)
  /-- PORST_N_RESET (R466). -/
  | porstNReset (width : Nat) (aonLost : Bool)
  /-- SUPPLY_MONITOR_RESET (R467). -/
  | supplyMonitorReset (rail : Nat) (mv : Nat) (width : Nat) (aonLost : Bool)
  /-- RESET_N_RESET (R466). -/
  | resetNReset (width : Nat)
  /-- RESTART_WRITE (R503). -/
  | restartWrite (path : Nat) (v : Nat)
  /-- REQUESTED_RESET (R466). -/
  | requestedReset
  /-- RESET_RELEASE (R468). -/
  | resetRelease (b : Board) (steps : List StepOutcome)
  /-- START_STEP_TIMEOUT (R468). -/
  | startStepTimeout (steps : List StepOutcome)
  /-- CLEAR_RECORD_WRITE (R472). -/
  | clearRecordWrite (path : Nat) (v : Nat)
  /-- STOP_WRITE (R477). -/
  | stopWrite (path : Nat) (v : Nat)
  /-- STOP_DRAINED (R477). -/
  | stopDrained
  /-- FLASH_ERASE_COMPLETE (R480). -/
  | flashEraseComplete
  /-- FLASH_PROGRAM_COMPLETE (R487). -/
  | flashProgramComplete
  /-- FW_BEGIN (R486). -/
  | fwBegin (path : Nat) (bs : FrameData)
  /-- FW_BLOCK_HALF (R487). -/
  | fwBlockHalf (path : Nat) (bs : FrameData)
  /-- FW_END (R488). -/
  | fwEnd (path : Nat) (bs : FrameData)
  /-- FW_ABORT (R491). -/
  | fwAbort (path : Nat) (v : Nat)
  /-- UPDATE_VERDICT (R488). -/
  | updateVerdict
  /-- ACTIVATE_AT_WRITE (R492). -/
  | activateAtWrite (path : Nat) (v : Nat)
  /-- ACTIVATION_INSTANT (R492). -/
  | activationInstant
  /-- LC_REQUEST_PROV (R497). -/
  | lcRequestProv (path : Nat)
  /-- LC_REQUEST_FIEL (R497). -/
  | lcRequestFiel (path : Nat)
  /-- LC_REQUEST_RETN (R497). -/
  | lcRequestRetn (path : Nat)
  /-- LC_REQUEST_SCRP (R497). -/
  | lcRequestScrp (path : Nat)
  /-- AUTH_WRITE (R497). -/
  | authWrite (path : Nat) (bs : FrameData)
  /-- CHALLENGE_WRITE (R505). -/
  | challengeWrite (path : Nat) (bs : FrameData)
  /-- IMAGE_KEY_HASH_WRITE (R505). -/
  | imageKeyHashWrite (path : Nat) (n : Nat) (bs : FrameData)
  /-- SECURITY_RELEASE_WRITE (R505). -/
  | securityReleaseWrite (path : Nat) (v : Nat)
  /-- TAMPER_EVENT (R500). -/
  | tamperEvent
  /-- DOMAIN_ON_WRITE (R518). -/
  | domainOnWrite (path : Nat)
  /-- DOMAIN_OFF_WRITE (R515). -/
  | domainOffWrite (path : Nat)
  /-- DOMAIN_SWITCH_DONE (R518). -/
  | domainSwitchDone
  /-- DOMAIN_SWITCH_TIMEOUT (R518). -/
  | domainSwitchTimeout
  /-- REFERENCE_CLOCK_STOP (R526). -/
  | referenceClockStop
  /-- DC_SYSTEM_TIME_UPDATE (R15). -/
  | dcSystemTimeUpdate (dc : Nat)
  /-- PCIE_LINK_DOWN (R201). -/
  | pcieLinkDown (drive : Nat)
  /-- ETHERCAT_PORT_LINK_CHANGE (R357). -/
  | ethercatPortLinkChange (port : Nat) (up : Bool)
  /-- RESERVED_ENCODING (R333). -/
  | reservedEncoding (c : Nat) (w : Nat)
  /-- INSTRUCTION_FETCH_FAULT (R296). -/
  | instructionFetchFault (c : Nat) (ecc : Nat)
  /-- ORDERLY_STOP_WAIT_EXPIRY (R477). -/
  | orderlyStopWaitExpiry
  /-- OPERATING_TIME_SECOND (R440). -/
  | operatingTimeSecond
  deriving DecidableEq, Repr

end Sys2Proof
end

