-- ==== Sys2Proof/Decode.lean ====
section
/-! DEFINITION. Words of commands. No row of the operation table gives its command bits: a command is a register access, an event of a protocol or a
pin, not a word. The Fizhaig cores' instructions are 32-bit words of their own (R332, R333): `encodeFizhaig` gives the word of each, and
`fizhaigSpells` says which command a word is on a core. -/

namespace Sys2Proof

/-- The command a word spells by the table's bits: none, as no row gives bits. -/
def decodeTableWord (_nbits _w : Nat) : Option Instr := none

/-! ## Fizhaig instruction words (Tables 8.12, 8.13) -/

/-- A word of format R or F: OP, three register fields and [10:0]. -/
def fzWordR (op d a b func : Nat) : Nat := op * 2 ^ 26 + d * 2 ^ 21 + a * 2 ^ 16 + b * 2 ^ 11 + func

/-- A word of format I, S or B: OP, two register fields and [15:0]. -/
def fzWordI (op d a imm : Nat) : Nat := op * 2 ^ 26 + d * 2 ^ 21 + a * 2 ^ 16 + imm

/-- The core, the memory word's state and the word of an instruction of Table 8.13; `none` for every other command. -/
def encodeFizhaig : Instr → Option (Nat × Nat × Nat)
  | .fzAdd c d a b => some (c, 0, fzWordR 0x00 d a b 0x000)
  | .fzSub c d a b => some (c, 0, fzWordR 0x00 d a b 0x001)
  | .fzAnd c d a b => some (c, 0, fzWordR 0x00 d a b 0x002)
  | .fzOr c d a b => some (c, 0, fzWordR 0x00 d a b 0x003)
  | .fzXor c d a b => some (c, 0, fzWordR 0x00 d a b 0x004)
  | .fzAndn c d a b => some (c, 0, fzWordR 0x00 d a b 0x005)
  | .fzSll c d a b => some (c, 0, fzWordR 0x00 d a b 0x008)
  | .fzSrl c d a b => some (c, 0, fzWordR 0x00 d a b 0x009)
  | .fzSra c d a b => some (c, 0, fzWordR 0x00 d a b 0x00A)
  | .fzRor c d a b => some (c, 0, fzWordR 0x00 d a b 0x00B)
  | .fzSlt c d a b => some (c, 0, fzWordR 0x00 d a b 0x010)
  | .fzSltu c d a b => some (c, 0, fzWordR 0x00 d a b 0x011)
  | .fzMin c d a b => some (c, 0, fzWordR 0x00 d a b 0x012)
  | .fzMax c d a b => some (c, 0, fzWordR 0x00 d a b 0x013)
  | .fzClz c d a => some (c, 0, fzWordR 0x00 d a 0 0x014)
  | .fzMul c d a b => some (c, 0, fzWordR 0x01 d a b 0x000)
  | .fzMulh c d a b => some (c, 0, fzWordR 0x01 d a b 0x001)
  | .fzMulhu c d a b => some (c, 0, fzWordR 0x01 d a b 0x002)
  | .fzDiv c d a b => some (c, 0, fzWordR 0x01 d a b 0x004)
  | .fzDivu c d a b => some (c, 0, fzWordR 0x01 d a b 0x005)
  | .fzRem c d a b => some (c, 0, fzWordR 0x01 d a b 0x006)
  | .fzRemu c d a b => some (c, 0, fzWordR 0x01 d a b 0x007)
  | .fzCtx c a ecc => some (c, ecc, fzWordR 0x38 0 a 0 0x000)
  | .fzSavl c => some (c, 0, fzWordR 0x38 0 0 0 0x001)
  | .fzSavu c => some (c, 0, fzWordR 0x38 0 0 0 0x002)
  | .fzRstl c ecc => some (c, ecc, fzWordR 0x38 0 0 0 0x003)
  | .fzRstu c ecc => some (c, ecc, fzWordR 0x38 0 0 0 0x004)
  | .fzSavf c => some (c, 0, fzWordR 0x38 0 0 0 0x005)
  | .fzRstf c ecc => some (c, ecc, fzWordR 0x38 0 0 0 0x006)
  | .fzRfe c ecc => some (c, ecc, fzWordR 0x38 0 0 0 0x008)
  | .fzRfi c => some (c, 0, fzWordR 0x38 0 0 0 0x009)
  | .fzWait c => some (c, 0, fzWordR 0x38 0 0 0 0x00A)
  | .fzSys c => some (c, 0, fzWordR 0x38 0 0 0 0x00B)
  | .fzBrk c => some (c, 0, fzWordR 0x38 0 0 0 0x00C)
  | .fzFence c => some (c, 0, fzWordR 0x38 0 0 0 0x00D)
  | .fzEi c => some (c, 0, fzWordR 0x38 0 0 0 0x00E)
  | .fzDi c => some (c, 0, fzWordR 0x38 0 0 0 0x00F)
  | .fzFadd c d a b ecc => some (c, ecc, fzWordR 0x3C d a b 0x00)
  | .fzFsub c d a b ecc => some (c, ecc, fzWordR 0x3C d a b 0x01)
  | .fzFmul c d a b ecc => some (c, ecc, fzWordR 0x3C d a b 0x02)
  | .fzFdiv c d a b ecc => some (c, ecc, fzWordR 0x3C d a b 0x03)
  | .fzFsqrt c d a ecc => some (c, ecc, fzWordR 0x3C d a 0 0x04)
  | .fzFma c d a b f ecc => some (c, ecc, fzWordR 0x3C d a b (64 * f + 0x05))
  | .fzFms c d a b f ecc => some (c, ecc, fzWordR 0x3C d a b (64 * f + 0x06))
  | .fzFnma c d a b f ecc => some (c, ecc, fzWordR 0x3C d a b (64 * f + 0x07))
  | .fzFmin c d a b ecc => some (c, ecc, fzWordR 0x3C d a b 0x08)
  | .fzFmax c d a b ecc => some (c, ecc, fzWordR 0x3C d a b 0x09)
  | .fzFcmplt c d a b ecc => some (c, ecc, fzWordR 0x3C d a b 0x0A)
  | .fzFcmple c d a b ecc => some (c, ecc, fzWordR 0x3C d a b 0x0B)
  | .fzFcmpeq c d a b ecc => some (c, ecc, fzWordR 0x3C d a b 0x0C)
  | .fzFtoi c d a ecc => some (c, ecc, fzWordR 0x3C d a 0 0x0D)
  | .fzFtoir c d a ecc => some (c, ecc, fzWordR 0x3C d a 0 0x0E)
  | .fzItof c d a ecc => some (c, ecc, fzWordR 0x3C d a 0 0x0F)
  | .fzFmvgf c d a ecc => some (c, ecc, fzWordR 0x3C d a 0 0x10)
  | .fzFmvfg c d a ecc => some (c, ecc, fzWordR 0x3C d a 0 0x11)
  | .fzFabs c d a ecc => some (c, ecc, fzWordR 0x3C d a 0 0x12)
  | .fzFneg c d a ecc => some (c, ecc, fzWordR 0x3C d a 0 0x13)
  | .fzAddi c d a imm => some (c, 0, fzWordI 0x04 d a imm)
  | .fzAndi c d a imm => some (c, 0, fzWordI 0x05 d a imm)
  | .fzOri c d a imm => some (c, 0, fzWordI 0x06 d a imm)
  | .fzXori c d a imm => some (c, 0, fzWordI 0x07 d a imm)
  | .fzSlti c d a imm => some (c, 0, fzWordI 0x08 d a imm)
  | .fzSltiu c d a imm => some (c, 0, fzWordI 0x09 d a imm)
  | .fzSlli c d a imm => some (c, 0, fzWordI 0x0A d a imm)
  | .fzSrli c d a imm => some (c, 0, fzWordI 0x0B d a imm)
  | .fzSrai c d a imm => some (c, 0, fzWordI 0x0C d a imm)
  | .fzLui c d imm => some (c, 0, fzWordI 0x0D d 0 imm)
  | .fzLw c d a imm ecc => some (c, ecc, fzWordI 0x10 d a imm)
  | .fzLh c d a imm ecc => some (c, ecc, fzWordI 0x11 d a imm)
  | .fzLhu c d a imm ecc => some (c, ecc, fzWordI 0x12 d a imm)
  | .fzLb c d a imm ecc => some (c, ecc, fzWordI 0x13 d a imm)
  | .fzLbu c d a imm ecc => some (c, ecc, fzWordI 0x14 d a imm)
  | .fzSwap c d a imm ecc => some (c, ecc, fzWordI 0x15 d a imm)
  | .fzSw c d a imm ecc => some (c, ecc, fzWordI 0x18 d a imm)
  | .fzSh c d a imm ecc => some (c, ecc, fzWordI 0x19 d a imm)
  | .fzSb c d a imm ecc => some (c, ecc, fzWordI 0x1A d a imm)
  | .fzClw c d a imm => some (c, 0, fzWordI 0x1C d a imm)
  | .fzClh c d a imm => some (c, 0, fzWordI 0x1D d a imm)
  | .fzClb c d a imm => some (c, 0, fzWordI 0x1E d a imm)
  | .fzCld c d a imm => some (c, 0, fzWordI 0x1F d a imm)
  | .fzCsw c d a imm => some (c, 0, fzWordI 0x20 d a imm)
  | .fzCsh c d a imm => some (c, 0, fzWordI 0x21 d a imm)
  | .fzCsb c d a imm => some (c, 0, fzWordI 0x22 d a imm)
  | .fzCsd c d a imm => some (c, 0, fzWordI 0x23 d a imm)
  | .fzBeq c a b disp => some (c, 0, fzWordI 0x28 a b disp)
  | .fzBne c a b disp => some (c, 0, fzWordI 0x29 a b disp)
  | .fzBlt c a b disp => some (c, 0, fzWordI 0x2A a b disp)
  | .fzBge c a b disp => some (c, 0, fzWordI 0x2B a b disp)
  | .fzBltu c a b disp => some (c, 0, fzWordI 0x2C a b disp)
  | .fzBgeu c a b disp => some (c, 0, fzWordI 0x2D a b disp)
  | .fzJ c disp => some (c, 0, 0x30 * 2 ^ 26 + disp)
  | .fzJal c disp => some (c, 0, 0x31 * 2 ^ 26 + disp)
  | .fzJalr c d a imm => some (c, 0, fzWordI 0x32 d a imm)
  | .fzFlw c d a imm ecc => some (c, ecc, fzWordI 0x3D d a imm)
  | .fzFsw c d a imm ecc => some (c, ecc, fzWordI 0x3E d a imm)
  | _ => none

/-- Bits of an instruction's word for which Table 8.13 gives no field and no value. -/
def fizhaigIgnored : Instr → Nat
  | .fzSavf _ => 0x3FFF800
  | .fzRstf _ _ => 0x3FFF800
  | .fzRfe _ _ => 0x3FFF800
  | .fzRfi _ => 0x3FFF800
  | .fzWait _ => 0x3FFF800
  | .fzSys _ => 0x3FFF800
  | .fzBrk _ => 0x3FFF800
  | .fzFence _ => 0x3FFF800
  | .fzEi _ => 0x3FFF800
  | .fzDi _ => 0x3FFF800
  | .fzFadd _ _ _ _ _ => 0x7C0
  | .fzFsub _ _ _ _ _ => 0x7C0
  | .fzFmul _ _ _ _ _ => 0x7C0
  | .fzFdiv _ _ _ _ _ => 0x7C0
  | .fzFmin _ _ _ _ _ => 0x7C0
  | .fzFmax _ _ _ _ _ => 0x7C0
  | .fzFcmplt _ _ _ _ _ => 0x7C0
  | .fzFcmple _ _ _ _ _ => 0x7C0
  | .fzFcmpeq _ _ _ _ _ => 0x7C0
  | .fzFsqrt _ _ _ _ => 0xFFC0
  | .fzFtoi _ _ _ _ => 0xFFC0
  | .fzFtoir _ _ _ _ => 0xFFC0
  | .fzItof _ _ _ _ => 0xFFC0
  | .fzFmvgf _ _ _ _ => 0xFFC0
  | .fzFmvfg _ _ _ _ => 0xFFC0
  | .fzFabs _ _ _ _ => 0xFFC0
  | .fzFneg _ _ _ _ => 0xFFC0
  | _ => 0

/-- The word, on core c, is the instruction i (R332, R333). -/
def fizhaigSpells (c w : Nat) (i : Instr) : Bool :=
  match encodeFizhaig i with
  | some (c', _, v) => c' == c && (w ||| fizhaigIgnored i) == (v ||| fizhaigIgnored i)
  | none => false

end Sys2Proof
end

