-- ==== Sys2Proof/Config.lean ====
section
/-! DEFINITION. What one implementation fixes and the spec leaves open: free values without a body.
Every function here is applied to the operands the open value depends on, or to the counter `State.free`,
which each step that needs a fresh value reads and advances. No proof can see any of these values. -/

namespace Sys2Proof.Config

/-- The discipline loop's estimate of the reference frequency, parts per 10⁹ (R17 gives no filter). DESIGN CHOICE, log entry 4. -/
opaque loopEstimate : Nat → Int

/-- The size of the discipline loop's phase-steering term less 1, parts per 10⁹ (R17 gives no filter). DESIGN CHOICE, log entry 4. -/
opaque loopPhase : Nat → Nat

/-- Phase of the hoop cycle count against T (R107 gives none). Log entry 5. -/
opaque hoopPhase : Nat → Nat

/-- A value that a random generator of the device draws (VOLUME_ID, nonces, keys). Log entry 6. -/
opaque random : Nat → Nat

/-- A word the spec leaves undefined or does not state. Log entry 6. -/
opaque freeWord : Nat → BitVec 32

/-- Bytes the security sampler holds (R505 gives no size). Log entry 31. -/
opaque securityRoom : Nat

/-- A byte of a Fizhaig core's ROM: 2¹⁶ × core + offset (Table 8.1 gives no contents). Log entry 7. -/
opaque rom : Nat → BitVec 8

/-- Where the replay service begins in a shuttle's ROM (R321 gives no address). Log entry 7. -/
opaque replayEntry : Nat → BitVec 32

end Sys2Proof.Config
end

