-- ==== Sys2Proof/Machine/Bits.lean ====
section
/-! DEFINITION. Bit fields, byte order, checksums and stamp order: the helpers every family shares.
Values of more than one byte are little-endian (R341). -/

namespace Sys2Proof.Machine

/-- Bits [hi:lo] of `n` as a number. -/
def field (n hi lo : Nat) : Nat := (n / 2 ^ lo) % 2 ^ (hi + 1 - lo)

/-- Bit `i` of `n`. -/
def bit (n i : Nat) : Bool := (n / 2 ^ i) % 2 == 1

/-- `n` with bit `i` set to `b`. -/
def withBit (n i : Nat) (b : Bool) : Nat :=
  n - (if bit n i then 2 ^ i else 0) + (if b then 2 ^ i else 0)

/-- `n` with bits [hi:lo] replaced by `v`. -/
def withField (n hi lo v : Nat) : Nat :=
  n - field n hi lo * 2 ^ lo + (v % 2 ^ (hi + 1 - lo)) * 2 ^ lo

/-- How many of bits 0 … k−1 of `n` are set. -/
def popCount (n : Nat) : Nat → Nat
  | 0 => 0
  | k + 1 => popCount n k + (if bit n k then 1 else 0)

/-- The set bits of `n` below `k`, ascending. -/
def bitsOf (n k : Nat) : List Nat := (List.range k).filter (bit n ·)

/-- 0 or 1. -/
def b2n (b : Bool) : Nat := if b then 1 else 0

/-- The `n` low bytes of `v`, little-endian (R341). -/
def leBytes (v : Nat) : Nat → List Byte
  | 0 => []
  | n + 1 => BitVec.ofNat 8 v :: leBytes (v / 256) n

/-- A little-endian number (R341). -/
def leNat : List Byte → Nat
  | [] => 0
  | b :: bs => b.toNat + 256 * leNat bs

/-- The little-endian 32-bit words of a byte string (whole words only). -/
def leWords : List Byte → List Word
  | a :: b :: c :: d :: r => BitVec.ofNat 32 (leNat [a, b, c, d]) :: leWords r
  | _ => []

/-- The bytes of words, little-endian. -/
def wordBytes (ws : List Word) : List Byte := ws.flatMap fun w => leBytes w.toNat 4

/-- A two's-complement number of `w` bits from an integer. -/
def toTwos (w : Nat) (i : Int) : Nat := (i % (2 ^ w : Nat)).toNat

/-- The integer a two's-complement number of `w` bits stands for. -/
def fromTwos (w n : Nat) : Int := if n % 2 ^ w < 2 ^ (w - 1) then (n % 2 ^ w : Nat) else (n % 2 ^ w : Nat) - (2 ^ w : Nat)

/-- An integer clamped to lo … hi. -/
def clampInt (lo hi i : Int) : Int := if i < lo then lo else if hi < i then hi else i

/-- T[31:0] of a device time (R24). -/
def stampOf (t : Nat) : Stamp := BitVec.ofNat 32 t

/-- diff(a, b) of R25: (a − b) mod 2³² read as a signed 32-bit integer. -/
def diff (a b : Stamp) : Int := (a - b).toInt

/-- a is earlier than b (R25); at a difference of exactly 0x8000_0000 the lower unsigned value is the earlier. -/
def earlier (a b : Stamp) : Bool :=
  if a - b = 0x80000000#32 then a.toNat < b.toNat else decide (diff a b < 0)

/-- a is later than b (R25). -/
def later (a b : Stamp) : Bool := earlier b a

/-- The order key of a held stamp at time replica `now` (R536); `old` is the stale mark of R26. -/
def stampKey (now s : Stamp) (old : Bool) : Int :=
  if old then -(2 ^ 31 : Int) - ((now - s).toNat : Int) else diff s now

/-- A stamp `s` taken in the past and extended to 64 bits against `t` (R456: K − diff(K[31:0], s)). -/
def extendStamp (t : Nat) (s : Stamp) : Nat := ((t : Int) - diff (stampOf t) s).toNat % 2 ^ 64

/-- One byte through the reflected CRC-32C (Castagnoli, 0x1EDC_6F41 reflected: 0x82F6_3B78). -/
def crc32cBits : Nat → BitVec 32 → BitVec 32
  | 0, c => c
  | n + 1, c => crc32cBits n (if c.getLsbD 0 then (c >>> 1) ^^^ 0x82F63B78#32 else c >>> 1)

/-- CRC-32C register after the bytes. -/
def crc32cRun (c : BitVec 32) : List Byte → BitVec 32
  | [] => c
  | b :: bs => crc32cRun (crc32cBits 8 (c ^^^ b.setWidth 32)) bs

/-- CRC-32C of a byte string (initial and final XOR 0xFFFF_FFFF). -/
def crc32c (bs : List Byte) : Nat := (crc32cRun 0xFFFFFFFF#32 bs ^^^ 0xFFFFFFFF#32).toNat

/-- One byte through the CRC-16 with polynomial 0x1021. -/
def crc16Bits : Nat → BitVec 16 → BitVec 16
  | 0, c => c
  | n + 1, c => crc16Bits n (if c.getLsbD 15 then (c <<< 1) ^^^ 0x1021#16 else c <<< 1)

/-- CRC-16 register after the bytes. -/
def crc16Run (c : BitVec 16) : List Byte → BitVec 16
  | [] => c
  | b :: bs => crc16Run (crc16Bits 8 (c ^^^ (b.setWidth 16 <<< 8))) bs

/-- CRC-16 of R411 (polynomial 0x1021, initial value 0xFFFF). -/
def crc16 (bs : List Byte) : Nat := (crc16Run 0xFFFF#16 bs).toNat

/-! ## Sampler record types -/

/-- Payload bytes P of a sampler record type (Tables 11.4, 12.14); `none` for a type that is never written. -/
def samplerPayload (typ : Nat) : Option Nat :=
  if typ = 1 ∨ typ = 5 ∨ typ = 6 ∨ typ = 8 ∨ typ = 9 ∨ typ = 0x0A ∨ typ = 0x0100 ∨ typ = 0x0101 ∨ typ = 0x0102 then some 8
  else if typ = 2 then some 12
  else if typ = 3 then some 16
  else if typ = 4 ∨ typ = 0x0103 then some 4
  else if typ = 7 ∨ typ = 0x0104 then some 0
  else none

end Sys2Proof.Machine
end

