-- ==== Sys2Proof/Machine/Objects.lean ====
section
/-! DEFINITION. The object dictionary's rows as the object tables of the spec list them (R45, R76, R129, R165, R166, R204 to R206,
R251, R292, R293, R338, R387 to R390, R434, R465, R503, R504, R534, R535): index range, subindex range, type, access right,
default, PDO column. The secure range (R505) has its own table beside its rules. -/

namespace Sys2Proof.Machine

/-- Access rights (Table 9.3). -/
inductive Access where
  | const | ro | wo | rw | rwi | rwl
  deriving DecidableEq, Repr

/-- One row of an object table: indices ix … ix + n − 1, subindices lo … hi. `size` is the type's size in bytes, 0 for a string;
`ty` its SDO information code (Table 9.2); `image` says the Default column reads "image", `computed` that it reads "—". -/
structure ObjRow where
  ix : Nat
  n : Nat
  lo : Nat
  hi : Nat
  size : Nat
  ty : Nat
  acc : Access
  dflt : Nat
  image : Bool
  computed : Bool
  pdo : Bool
  maxLen : Nat
  deriving DecidableEq, Repr

/-- A row with a stored numeric default. -/
def row (ix n lo hi size ty : Nat) (acc : Access) (dflt : Nat) (pdo : Bool := false) : ObjRow :=
  ⟨ix, n, lo, hi, size, ty, acc, dflt, false, false, pdo, size⟩

/-- A row whose value the personality image sets (R346). -/
def rowImage (ix n lo hi size ty : Nat) (acc : Access) (pdo : Bool := false) : ObjRow :=
  ⟨ix, n, lo, hi, size, ty, acc, 0, true, false, pdo, size⟩

/-- A row whose value is computed when it is read, or that starts an action (R346). -/
def rowComp (ix n lo hi size ty : Nat) (acc : Access) (pdo : Bool := false) : ObjRow :=
  ⟨ix, n, lo, hi, size, ty, acc, 0, false, true, pdo, size⟩

/-- A string row of at most `maxLen` bytes. -/
def rowStr (ix lo ty : Nat) (acc : Access) (maxLen : Nat) : ObjRow :=
  ⟨ix, 1, lo, lo, 0, ty, acc, 0, false, true, false, maxLen⟩

/-- Table 1.8, object 0x2100 (R45). -/
def rows_2100 : List ObjRow := [
  row 0x2100 1 0x00 0x00 1 5 .const 0xC,  -- Highest subindex
  row 0x2100 1 0x01 0x01 1 5 .rw 1,  -- SOURCE
  row 0x2100 1 0x02 0x02 1 5 .ro 0 true,  -- STATUS
  row 0x2100 1 0x03 0x03 4 4 .ro 0 true,  -- OFFSET
  row 0x2100 1 0x04 0x04 4 4 .ro 0,  -- FREQ_CORR
  rowComp 0x2100 1 0x05 0x05 8 27 .ro true,  -- NOW
  row 0x2100 1 0x06 0x06 8 27 .rw 0,  -- PPS_NEXT
  row 0x2100 1 0x07 0x07 2 6 .rw 0x14,  -- LOCK_THRESH
  row 0x2100 1 0x08 0x08 4 7 .rw 0x2710,  -- STEP_THRESH
  row 0x2100 1 0x09 0x09 2 6 .rw 0x64,  -- LOSS_TIMEOUT
  row 0x2100 1 0x0A 0x0A 1 5 .ro 0,  -- reserved
  row 0x2100 1 0x0B 0x0B 4 7 .rw 0,  -- PPS_OUT_WIDTH
  rowComp 0x2100 1 0x0C 0x0C 1 5 .ro ]  -- REFERENCE

/-- Table 1.9, object 0x2101 (R45). -/
def rows_2101 : List ObjRow := [
  row 0x2101 1 0x00 0x00 1 5 .const 6,  -- Highest subindex
  row 0x2101 1 0x01 0x01 4 7 .ro 0,  -- STALE_COUNT
  row 0x2101 1 0x02 0x02 4 7 .ro 0,  -- LOCK_LOSSES
  row 0x2101 1 0x03 0x03 4 7 .ro 0,  -- STEPS
  row 0x2101 1 0x04 0x04 4 7 .ro 0,  -- MAX_ABS_OFFSET
  row 0x2101 1 0x05 0x05 8 27 .ro 0,  -- LAST_STEP
  row 0x2101 1 0x06 0x06 4 7 .ro 0 ]  -- TIMER_MISSED

/-- Table 1.10, object 0x2102 (R45). -/
def rows_2102 : List ObjRow := [
  row 0x2102 1 0x00 0x00 1 5 .const 0x28,  -- Highest subindex
  row 0x2102 1 0x01 0x28 4 7 .ro 0 ]  -- FREQ_CDn

/-- Table 1.11, object 0x2103 (R45). -/
def rows_2103 : List ObjRow := [
  row 0x2103 1 0x00 0x00 1 5 .const 2,  -- Highest subindex
  rowComp 0x2103 1 0x01 0x01 8 27 .ro true,  -- EPOCH
  row 0x2103 1 0x02 0x02 8 27 .ro 0 ]  -- SNAPSHOT_EPOCH

/-- Table 1.12, object 0x2110 + 0 … 15 (R45). -/
def rows_2110 : List ObjRow := [
  row 0x2110 16 0x00 0x00 1 5 .const 5,  -- Highest subindex
  row 0x2110 16 0x01 0x01 1 1 .rw 0 true,  -- ENABLE
  row 0x2110 16 0x02 0x02 8 27 .rw 0,  -- START
  row 0x2110 16 0x03 0x03 4 7 .rw 0,  -- PERIOD
  row 0x2110 16 0x04 0x04 2 6 .rw 0,  -- STREAM
  row 0x2110 16 0x05 0x05 4 7 .ro 0 true ]  -- COUNT

/-- Table 2.12, object 0x3020 (R76). -/
def rows_3020 : List ObjRow := [
  row 0x3020 1 0x00 0x00 1 5 .const 5,  -- Highest subindex
  row 0x3020 1 0x01 0x01 4 7 .ro 0,  -- FP_INVALID
  row 0x3020 1 0x02 0x02 4 7 .ro 0,  -- FP_OVERFLOW
  row 0x3020 1 0x03 0x03 4 7 .ro 0,  -- FP_FLUSHED
  row 0x3020 1 0x04 0x04 4 7 .ro 0,  -- CONV_SATURATED
  row 0x3020 1 0x05 0x05 4 7 .ro 0 ]  -- INT_SATURATED

/-- Table 3.14, object 0x3200 + 0 … 63 (R129). -/
def rows_3200 : List ObjRow := [
  row 0x3200 64 0x00 0x00 1 5 .const 0x2F,  -- Highest subindex
  row 0x3200 64 0x01 0x01 1 5 .ro 0,  -- MATCH_PEAK
  row 0x3200 64 0x02 0x02 4 7 .ro 0,  -- MATCH_WAITS
  row 0x3200 64 0x03 0x03 4 7 .ro 0,  -- READY_FULL
  row 0x3200 64 0x04 0x04 4 7 .ro 0,  -- DISPATCH_LATE
  row 0x3200 64 0x05 0x05 4 7 .ro 0,  -- FREE_DISCARDS
  row 0x3200 64 0x06 0x06 2 6 .rwi 0,  -- ORDER_WINDOW
  row 0x3200 64 0x07 0x07 4 7 .ro 0,  -- NEXT_MISSES
  row 0x3200 64 0x08 0x08 2 6 .rwi 0,  -- BANK_POWER
  row 0x3200 64 0x09 0x09 4 7 .ro 0,  -- MIRROR_PAIRS
  row 0x3200 64 0x0A 0x0A 4 7 .ro 0,  -- BANK_WAIT_CYCLES
  row 0x3200 64 0x0B 0x0B 4 7 .ro 0,  -- GATHERS
  row 0x3200 64 0x0C 0x0C 4 7 .ro 0,  -- GATHER_FAULTS
  row 0x3200 64 0x0D 0x0D 4 7 .ro 0,  -- GATHER_FILLED
  row 0x3200 64 0x0E 0x0E 1 1 .rw 0,  -- TRACE_ENABLE
  row 0x3200 64 0x0F 0x0F 2 6 .rw 0xFFFF,  -- TRACE_SLOTS
  row 0x3200 64 0x10 0x10 1 5 .rw 0x7F,  -- TRACE_OUTCOMES
  row 0x3200 64 0x11 0x11 4 7 .ro 0,  -- MOTIF_CONSTANT
  row 0x3200 64 0x12 0x12 2 6 .ro 0,  -- PATTERNS_A
  row 0x3200 64 0x13 0x13 2 6 .ro 0,  -- PATTERNS_B
  row 0x3200 64 0x14 0x14 4 7 .ro 0 ]  -- CANCEL_IGNORED

/-- Table 4.13, object 0x3400 + 0 … 63 (R165). -/
def rows_3400 : List ObjRow := [
  row 0x3400 64 0x00 0x00 1 5 .const 0x14,  -- Highest subindex
  row 0x3400 64 0x01 0x01 1 5 .ro 0 true,  -- STATE
  row 0x3400 64 0x02 0x02 1 1 .rw 0 true,  -- SUSPEND
  rowImage 0x3400 64 0x03 0x03 8 27 .ro,  -- MEMBERS
  rowImage 0x3400 64 0x04 0x04 8 27 .ro,  -- PORTS
  rowImage 0x3400 64 0x05 0x05 4 7 .rwi,  -- OFFSET
  rowImage 0x3400 64 0x06 0x06 4 7 .ro,  -- MIN_OFFSET
  rowImage 0x3400 64 0x07 0x07 1 5 .rwi,  -- REPLAY_BUDGET
  rowImage 0x3400 64 0x08 0x08 1 5 .ro,  -- PROVED_BUDGET
  rowImage 0x3400 64 0x09 0x09 1 5 .rwi,  -- DEADLINE_ACTION
  row 0x3400 64 0x0A 0x0A 4 7 .ro 0,  -- OPENED
  row 0x3400 64 0x0B 0x0B 4 7 .ro 0,  -- COMMITTED
  row 0x3400 64 0x0C 0x0C 4 7 .ro 0,  -- REPLAYS
  row 0x3400 64 0x0D 0x0D 4 7 .ro 0,  -- PROGRAM_ABORTS
  row 0x3400 64 0x0E 0x0E 4 7 .ro 0,  -- DEADLINE_MISSES
  row 0x3400 64 0x0F 0x0F 4 7 .ro 0,  -- CASCADE_ABORTS
  row 0x3400 64 0x10 0x10 4 7 .ro 0,  -- SUSPENDED_DISCARDS
  row 0x3400 64 0x11 0x11 4 4 .ro 0x7FFFFFFF,  -- MIN_SLACK
  row 0x3400 64 0x12 0x12 1 5 .ro 0,  -- LAST_FAULT
  row 0x3400 64 0x13 0x13 4 7 .ro 0,  -- LAST_MISS_STAMP
  row 0x3400 64 0x14 0x14 2 6 .ro 0 true ]  -- IN_FLIGHT

/-- Table 4.14, object 0x3500 (R166). -/
def rows_3500 : List ObjRow := [
  row 0x3500 1 0x00 0x00 1 5 .const 0x6A,  -- Highest subindex
  row 0x3500 1 0x01 0x01 2 6 .ro 0 true,  -- TIDS_IN_USE
  row 0x3500 1 0x02 0x02 2 6 .ro 0,  -- TID_PEAK
  row 0x3500 1 0x03 0x03 4 7 .ro 0,  -- TID_STARVED
  row 0x3500 1 0x04 0x04 2 6 .ro 0 true,  -- ENTRIES_IN_USE
  row 0x3500 1 0x05 0x05 4 7 .ro 0,  -- QUEUE_FULL_WAITS
  row 0x3500 1 0x06 0x06 4 7 .ro 0,  -- RELEASES
  row 0x3500 1 0x07 0x07 4 7 .ro 0,  -- PORT_BUSY_DELAYS
  row 0x3500 1 0x08 0x08 4 7 .ro 0,  -- TIO_MERGES
  row 0x3500 1 0x09 0x09 4 7 .ro 0,  -- DEADLINE_ACTIONS
  row 0x3500 1 0x0A 0x0A 4 7 .ro 0,  -- FREE_TOKEN_DISCARDS
  row 0x3500 1 0x0B 0x0B 4 7 .ro 0,  -- LATE_ENTRIES
  row 0x3500 1 0x0C 0x0C 4 7 .ro 0,  -- STRAGGLER_DISCARDS
  row 0x3500 1 0x0D 0x0D 4 7 .ro 0,  -- NO_TRANSACTION
  row 0x3500 1 0x0E 0x0E 4 7 .ro 0,  -- CHAIN_WAITS
  row 0x3500 1 0x0F 0x0F 4 7 .ro 0,  -- STATEFUL_WAITS
  row 0x3500 1 0x10 0x10 8 27 .ro 0,  -- LAST_RELEASE
  row 0x3500 1 0x40 0x6A 2 6 .ro 0 ]  -- QUEUE_PEAK_n

/-- Table 5.9, object 0x3200 + 0 … 63 (R204). -/
def rows_3200_5_9 : List ObjRow := [
  row 0x3200 64 0x20 0x20 4 7 .ro 0,  -- MISMATCHES
  row 0x3200 64 0x21 0x21 4 7 .ro 0,  -- REPLAYS
  row 0x3200 64 0x22 0x22 1 5 .ro 0,  -- REMAPS
  row 0x3200 64 0x23 0x23 1 5 .ro 2 true,  -- SPARES_FREE
  row 0x3200 64 0x24 0x24 8 27 .ro 0x706050403020100,  -- MAP_LOW
  row 0x3200 64 0x25 0x25 8 27 .ro 0xF0E0D0C0B0A0908,  -- MAP_HIGH
  row 0x3200 64 0x26 0x26 4 7 .ro 0,  -- SUSPECT
  row 0x3200 64 0x27 0x27 4 7 .ro 0,  -- LAST_MISMATCH
  row 0x3200 64 0x28 0x28 4 7 .ro 0,  -- LAST_MISMATCH_STAMP
  row 0x3200 64 0x29 0x29 2 6 .ro 0,  -- LOG_PEAK
  row 0x3200 64 0x2A 0x2A 4 7 .ro 0,  -- LOG_FULL_EVENTS
  row 0x3200 64 0x2B 0x2B 4 7 .ro 0,  -- SRAM_CORRECTED
  row 0x3200 64 0x2C 0x2C 4 7 .ro 0,  -- SRAM_UNCORRECTABLE
  row 0x3200 64 0x2D 0x2D 1 5 .ro 0,  -- MIRROR_STATE
  row 0x3200 64 0x2E 0x2E 8 27 .ro 0,  -- BIST_LANES
  row 0x3200 64 0x2F 0x2F 4 7 .ro 0 ]  -- COLLATERAL_ABORTS

/-- Table 5.10, object 0x3700 (R205). -/
def rows_3700 : List ObjRow := [
  row 0x3700 1 0x00 0x00 1 5 .const 0xD,  -- Highest subindex
  row 0x3700 1 0x01 0x01 4 7 .ro 0 true,  -- DEGRADED_REASONS
  row 0x3700 1 0x02 0x02 4 7 .ro 0,  -- MISMATCHES
  row 0x3700 1 0x03 0x03 4 7 .ro 0,  -- REPLAYS
  row 0x3700 1 0x04 0x04 4 7 .ro 0,  -- SECOND_REPLAYS
  row 0x3700 1 0x05 0x05 2 6 .ro 0,  -- REMAPS
  row 0x3700 1 0x06 0x06 1 5 .ro 0x80 true,  -- SPARES_FREE
  row 0x3700 1 0x07 0x07 8 27 .ro 0,  -- MOTIFS_NO_SPARE
  row 0x3700 1 0x08 0x08 4 7 .ro 0,  -- BUDGET_EXCEEDED
  row 0x3700 1 0x09 0x09 4 7 .ro 0,  -- REPLAYS_REFUSED
  row 0x3700 1 0x0A 0x0A 2 6 .rw 4,  -- MISMATCH_RATE_LIMIT
  rowComp 0x3700 1 0x0B 0x0B 1 5 .wo,  -- CLEAR_SUSPECT
  row 0x3700 1 0x0C 0x0C 4 7 .ro 0,  -- STATE_LOST
  row 0x3700 1 0x0D 0x0D 4 7 .ro 0 ]  -- COLLATERAL_ABORTS

/-- Table 5.11, object 0x3701 (R205). -/
def rows_3701 : List ObjRow := [
  row 0x3701 1 0x00 0x00 1 5 .const 9,  -- Highest subindex
  row 0x3701 1 0x01 0x01 4 7 .ro 0,  -- SRAM_CORRECTED
  row 0x3701 1 0x02 0x02 4 7 .ro 0,  -- SRAM_UNCORRECTABLE
  row 0x3701 1 0x03 0x03 4 7 .ro 0,  -- HOOP_STORE_CORRECTED
  row 0x3701 1 0x04 0x04 4 7 .ro 0,  -- DRAM_CORRECTED
  row 0x3701 1 0x05 0x05 4 7 .ro 0,  -- DRAM_UNCORRECTABLE
  row 0x3701 1 0x06 0x06 2 6 .ro 0,  -- DRAM_PAGES_RETIRED
  rowImage 0x3701 1 0x07 0x07 4 7 .ro,  -- DRAM_POOL_FREE
  row 0x3701 1 0x08 0x08 1 5 .ro 0,  -- DRAM_MIRROR_STATE
  row 0x3701 1 0x09 0x09 1 5 .rw 2 ]  -- DRAM_RETIRE_THRESHOLD

/-- Table 5.12, object 0x3702 (R205). -/
def rows_3702 : List ObjRow := [
  row 0x3702 1 0x00 0x00 1 5 .const 7,  -- Highest subindex
  row 0x3702 1 0x01 0x01 4 7 .ro 0,  -- CRC_ERRORS
  row 0x3702 1 0x02 0x02 4 7 .ro 0,  -- RETRANSMISSIONS
  row 0x3702 1 0x03 0x03 2 6 .ro 0,  -- FAILED_LINKS
  row 0x3702 1 0x04 0x04 8 27 .ro 0,  -- FAILED_X
  row 0x3702 1 0x05 0x05 8 27 .ro 0,  -- FAILED_Y
  row 0x3702 1 0x06 0x06 2 6 .ro 0,  -- RINGS_BROKEN
  row 0x3702 1 0x07 0x07 4 7 .ro 0 ]  -- UNREACHABLE_DISCARDS

/-- Table 5.13, object 0x3703 (R205). -/
def rows_3703 : List ObjRow := [
  row 0x3703 1 0x00 0x00 1 5 .const 3,  -- Highest subindex
  row 0x3703 1 0x01 0x01 1 5 .ro 0 true,  -- STATE
  row 0x3703 1 0x02 0x02 1 5 .ro 0,  -- RESYNC_PROGRESS
  row 0x3703 1 0x03 0x03 4 7 .ro 0 ]  -- READS_FROM_OTHER

/-- Table 5.14, object 0x3740 + 0 … 63 (R206). -/
def rows_3740 : List ObjRow := [
  row 0x3740 64 0x00 0x00 1 5 .const 4,  -- Highest subindex
  rowImage 0x3740 64 0x01 0x01 4 7 .ro,  -- EXEC_BOUND
  rowImage 0x3740 64 0x02 0x02 1 1 .ro,  -- LOCAL_ONLY
  row 0x3740 64 0x03 0x03 4 7 .ro 0,  -- REPLAYS_REFUSED
  row 0x3740 64 0x04 0x04 4 7 .ro 0 ]  -- SECOND_REPLAYS

/-- Table 6.15, object 0x3010 (R251). -/
def rows_3010 : List ObjRow := [
  row 0x3010 1 0x00 0x00 1 5 .const 8,  -- Highest subindex
  row 0x3010 1 0x01 0x01 4 7 .ro 0,  -- PACKETS
  row 0x3010 1 0x02 0x02 4 7 .ro 0,  -- URGENCY_AGED_15
  row 0x3010 1 0x03 0x03 4 7 .ro 0,  -- ROUTE_DISCARDS
  row 0x3010 1 0x04 0x04 4 7 .ro 0,  -- OFFLINE_DISCARDS
  row 0x3010 1 0x05 0x05 4 7 .ro 0,  -- OFFLINE_RESPONSES
  row 0x3010 1 0x06 0x06 4 7 .ro 0,  -- QUEUE_TID_DISCARDS
  row 0x3010 1 0x07 0x07 4 7 .ro 0,  -- BAD_PACKET_DISCARDS
  row 0x3010 1 0x08 0x08 4 7 .ro 0 ]  -- QUEUE_FULL_WAITS

/-- Table 6.16, object 0x3080 + 0 … 71 (R251). -/
def rows_3080 : List ObjRow := [
  row 0x3080 72 0x00 0x00 1 5 .const 0x15,  -- Highest subindex
  row 0x3080 72 0x01 0x01 8 27 .ro 0,  -- BYTES_SENT
  row 0x3080 72 0x02 0x02 8 27 .ro 0,  -- BYTES_RECEIVED
  row 0x3080 72 0x03 0x03 4 7 .ro 0,  -- PACKETS_SENT
  row 0x3080 72 0x04 0x04 4 7 .ro 0,  -- PACKETS_RECEIVED
  row 0x3080 72 0x05 0x05 1 5 .ro 0,  -- OUTSTANDING_PEAK
  row 0x3080 72 0x06 0x0D 4 7 .ro 0,  -- RTT_BIN_n
  row 0x3080 72 0x0E 0x15 4 7 .ro 0 ]  -- OWL_BIN_n

/-- Table 6.17, object 0x3800 (R251). -/
def rows_3800 : List ObjRow := [
  row 0x3800 1 0x00 0x00 1 5 .const 0xB,  -- Highest subindex
  row 0x3800 1 0x01 0x01 2 6 .rw 0,  -- SELECT
  row 0x3800 1 0x02 0x02 8 27 .rw 0,  -- ENTRY
  row 0x3800 1 0x03 0x03 1 1 .rw 1,  -- INVALIDATE_ON_WRITE
  rowComp 0x3800 1 0x04 0x04 1 1 .wo,  -- FLUSH_ALL
  row 0x3800 1 0x05 0x05 2 6 .ro 0,  -- VALID_ENTRIES
  row 0x3800 1 0x06 0x06 4 7 .ro 0,  -- CACHE_MISSES
  row 0x3800 1 0x07 0x07 2 6 .ro 0,  -- STALE_CACHED
  row 0x3800 1 0x08 0x08 8 27 .ro 0,  -- LAST_CHANGE
  row 0x3800 1 0x09 0x09 1 5 .rw 0,  -- QUEUE_SELECT
  row 0x3800 1 0x0A 0x0A 2 6 .ro 0 true,  -- QUEUE_COUNT
  row 0x3800 1 0x0B 0x0B 2 6 .ro 0 ]  -- QUEUE_PEAK

/-- Table 6.18, object 0x3100 + 0 … 3 (R251). -/
def rows_3100 : List ObjRow := [
  rowImage 0x3100 4 0x20 0x20 8 27 .rwi,  -- HS_BANK_POWER
  row 0x3100 4 0x21 0x21 8 27 .ro 0,  -- HS_READ_BYTES
  row 0x3100 4 0x22 0x22 8 27 .ro 0,  -- HS_WRITE_BYTES
  row 0x3100 4 0x23 0x23 4 7 .ro 0,  -- HS_WAIT_CYCLES
  row 0x3100 4 0x24 0x24 4 7 .ro 0,  -- HS_CORRECTED
  row 0x3100 4 0x25 0x25 4 7 .ro 0,  -- HS_UNCORRECTABLE
  row 0x3100 4 0x26 0x26 4 7 .ro 0,  -- ROUTE_REFILLS
  rowImage 0x3100 4 0x27 0x27 1 5 .ro ]  -- QUEUES_DECLARED

/-- Table 6.19, object 0x3012 (R251). -/
def rows_3012 : List ObjRow := [
  row 0x3012 1 0x00 0x00 1 5 .const 0xB,  -- Highest subindex
  rowComp 0x3012 1 0x01 0x01 2 6 .ro,  -- RAW_CAPACITY
  rowComp 0x3012 1 0x02 0x02 2 6 .ro,  -- USABLE
  rowComp 0x3012 1 0x03 0x03 2 6 .ro,  -- DATA_RATE
  rowComp 0x3012 1 0x04 0x04 1 5 .ro,  -- RANKS
  rowImage 0x3012 1 0x05 0x05 4 7 .rwi,  -- WINDOW_BASE
  rowImage 0x3012 1 0x06 0x06 1 5 .ro,  -- MIRROR_REGIONS
  rowImage 0x3012 1 0x07 0x07 2 6 .ro,  -- MIRRORED_MIB
  rowImage 0x3012 1 0x08 0x08 2 6 .ro,  -- SPARE_PAGES
  row 0x3012 1 0x09 0x09 8 27 .ro 0,  -- READ_BYTES
  row 0x3012 1 0x0A 0x0A 8 27 .ro 0,  -- WRITE_BYTES
  row 0x3012 1 0x0B 0x0B 1 5 .ro 0 ]  -- QUEUE_PEAK

/-- Table 7.10, object 0x3600 (R292). -/
def rows_3600 : List ObjRow := [
  row 0x3600 1 0x00 0x00 1 5 .const 0x13,  -- Highest subindex
  row 0x3600 1 0x01 0x01 1 5 .ro 0 true,  -- STATE
  row 0x3600 1 0x02 0x02 2 6 .rw 0 true,  -- CO_ID
  row 0x3600 1 0x03 0x03 8 27 .rw 0 true,  -- T_C
  row 0x3600 1 0x04 0x04 1 5 .rw 1,  -- SOURCE
  row 0x3600 1 0x05 0x05 1 5 .rw 0,  -- RECIPE
  row 0x3600 1 0x06 0x06 1 5 .rw 0,  -- COMMIT_MODE
  row 0x3600 1 0x07 0x07 2 6 .rw 0 true,  -- COMMIT
  row 0x3600 1 0x08 0x08 2 6 .rw 0 true,  -- CANCEL
  rowComp 0x3600 1 0x09 0x09 1 5 .wo,  -- CONTROL
  row 0x3600 1 0x0A 0x0A 1 5 .ro 0 true,  -- REASON
  row 0x3600 1 0x0B 0x0B 1 5 .ro 0 true,  -- ACTIVE_PLANE
  row 0x3600 1 0x0C 0x0C 4 7 .rw 0x6052340,  -- RETIRE_DELAY
  row 0x3600 1 0x0D 0x0D 8 27 .ro 0,  -- RETIRE_AT
  row 0x3600 1 0x0E 0x0E 4 7 .ro 0,  -- LATE_OLD_DISCARDS
  row 0x3600 1 0x0F 0x0F 4 7 .ro 0,  -- CHANGEOVERS
  row 0x3600 1 0x10 0x10 4 7 .ro 0 true,  -- PERSONALITY_ACTIVE
  row 0x3600 1 0x11 0x11 4 7 .ro 0,  -- PERSONALITY_IDLE
  row 0x3600 1 0x12 0x12 1 5 .ro 0x80,  -- PARTNER_STATE
  row 0x3600 1 0x13 0x13 8 27 .ro 0 ]  -- LAST_SWITCH

/-- Table 7.11, object 0x3601 (R293). -/
def rows_3601 : List ObjRow := [
  row 0x3601 1 0x00 0x00 1 5 .const 0xB,  -- Highest subindex
  row 0x3601 1 0x01 0x01 1 5 .ro 0,  -- LOAD_STATE
  row 0x3601 1 0x02 0x02 1 5 .ro 0,  -- LOAD_RESULT
  row 0x3601 1 0x03 0x03 4 7 .ro 0,  -- RESULT_DETAIL
  row 0x3601 1 0x04 0x04 4 7 .ro 0,  -- RECEIVED
  row 0x3601 1 0x05 0x05 1 1 .rwl 0,  -- REQUIRE_SIGNED
  rowComp 0x3601 1 0x06 0x06 1 5 .ro,  -- UNIT_NUMBER
  row 0x3601 1 0x07 0x07 1 5 .ro 3,  -- CFG_PORT_MODE
  row 0x3601 1 0x08 0x08 8 27 .rw 0,  -- REGION
  row 0x3601 1 0x09 0x09 4 7 .ro 0,  -- FRAME_ERRORS
  row 0x3601 1 0x0A 0x0A 4 7 .ro 0,  -- CONTEXT_REPAIRS
  row 0x3601 1 0x0B 0x0B 4 7 .ro 0 ]  -- LOADS

/-- Table 7.12, object 0x3602 (R293). -/
def rows_3602 : List ObjRow := [
  row 0x3602 1 0x00 0x00 1 5 .const 8,  -- Highest subindex
  rowComp 0x3602 1 0x01 0x01 1 5 .ro,  -- SLOTS
  row 0x3602 1 0x02 0x02 1 5 .rw 0,  -- SELECT
  row 0x3602 1 0x03 0x03 4 7 .ro 0,  -- PERSONALITY_ID
  row 0x3602 1 0x04 0x04 4 7 .ro 0,  -- IMAGE_VERSION
  row 0x3602 1 0x05 0x05 4 7 .ro 0,  -- LENGTH
  row 0x3602 1 0x06 0x06 1 1 .ro 0,  -- VALID
  rowComp 0x3602 1 0x07 0x07 1 5 .wo,  -- ERASE
  row 0x3602 1 0x08 0x08 1 5 .rw 0xFF ]  -- START_RECIPE

/-- Table 8.15, object 0x3030 (R338). -/
def rows_3030 : List ObjRow := [
  row 0x3030 1 0x00 0x00 1 5 .const 0xA,  -- Highest subindex
  row 0x3030 1 0x01 0x01 1 5 .ro 0,  -- STATE
  row 0x3030 1 0x02 0x02 4 7 .ro 0,  -- RESTARTS
  row 0x3030 1 0x03 0x03 8 27 .ro 0,  -- LAST_RESTART
  row 0x3030 1 0x04 0x04 4 7 .ro 0,  -- EXCEPTIONS
  row 0x3030 1 0x05 0x05 4 7 .ro 0,  -- DOUBLE_ENTRIES
  row 0x3030 1 0x06 0x06 4 7 .ro 0,  -- OVERFLOW_TRAPS
  row 0x3030 1 0x07 0x07 4 7 .ro 0,  -- SAVE_HEADROOM
  row 0x3030 1 0x08 0x08 4 7 .ro 0,  -- FP_SWAPS
  row 0x3030 1 0x09 0x09 4 7 .ro 0,  -- LAST_CAUSE
  row 0x3030 1 0x0A 0x0A 2 6 .rw 0x64 ]  -- WATCHDOG_MS

/-- Table 8.16, object 0x3031 + 0 … 3 (R338). -/
def rows_3031 : List ObjRow := [
  row 0x3031 4 0x00 0x00 1 5 .const 8,  -- Highest subindex
  row 0x3031 4 0x01 0x01 1 5 .ro 0,  -- STATE
  row 0x3031 4 0x02 0x02 4 7 .ro 0,  -- EXCEPTIONS
  row 0x3031 4 0x03 0x03 4 7 .ro 0,  -- DOUBLE_ENTRIES
  row 0x3031 4 0x04 0x04 4 7 .ro 0,  -- HALTS
  row 0x3031 4 0x05 0x05 4 7 .ro 0,  -- FP_SWAPS
  row 0x3031 4 0x06 0x06 4 7 .ro 0,  -- LAST_CAUSE
  rowComp 0x3031 4 0x07 0x07 1 1 .wo,  -- RESTART
  row 0x3031 4 0x08 0x08 2 6 .ro 0 ]  -- LATENCY_PEAK

/-- Table 8.17, object 0x3038 (R338). -/
def rows_3038 : List ObjRow := [
  row 0x3038 1 0x00 0x00 1 5 .const 9,  -- Highest subindex
  row 0x3038 1 0x01 0x01 8 27 .ro 0 true,  -- HALTED
  row 0x3038 1 0x02 0x02 1 5 .rw 0,  -- SELECT
  row 0x3038 1 0x03 0x03 1 5 .ro 0,  -- STATE
  row 0x3038 1 0x04 0x04 4 7 .ro 0,  -- EXCEPTIONS
  row 0x3038 1 0x05 0x05 4 7 .ro 0,  -- DOUBLE_ENTRIES
  row 0x3038 1 0x06 0x06 4 7 .ro 0,  -- OVERFLOW_TRAPS
  row 0x3038 1 0x07 0x07 1 5 .ro 0,  -- SERVICE_PEAK
  row 0x3038 1 0x08 0x08 4 7 .ro 0,  -- LAST_CAUSE
  rowComp 0x3038 1 0x09 0x09 1 5 .wo ]  -- RESTART

/-- Table 9.14, object 0x1000 (R387). -/
def rows_1000 : List ObjRow := [
  row 0x1000 1 0x00 0x00 4 7 .const 0 ]  -- DEVICE_TYPE (0x1000)

/-- Table 9.14, object 0x1001 (R387). -/
def rows_1001 : List ObjRow := [
  row 0x1001 1 0x00 0x00 1 5 .ro 0 true ]  -- ERROR_REGISTER (0x1001)

/-- Table 9.14, object 0x1008 (R387). -/
def rows_1008 : List ObjRow := [
  rowStr 0x1008 0x00 9 .const 8 ]  -- DEVICE_NAME (0x1008)

/-- Table 9.14, object 0x1009 (R387). -/
def rows_1009 : List ObjRow := [
  rowStr 0x1009 0x00 9 .const 16 ]  -- HARDWARE_VERSION (0x1009)

/-- Table 9.14, object 0x100A (R387). -/
def rows_100A : List ObjRow := [
  rowStr 0x100A 0x00 9 .ro 16 ]  -- SOFTWARE_VERSION (0x100A)

/-- Table 9.15, object 0x1003 (R387). -/
def rows_1003 : List ObjRow := [
  row 0x1003 1 0x00 0x00 1 5 .rw 0,  -- ERRORS
  row 0x1003 1 0x01 0x10 4 7 .ro 0 ]  -- ERROR_n

/-- Table 9.16, object 0x1018 (R387). -/
def rows_1018 : List ObjRow := [
  row 0x1018 1 0x00 0x00 1 5 .const 4,  -- Highest subindex
  row 0x1018 1 0x01 0x01 4 7 .const 0xA7E,  -- VENDOR_ID
  row 0x1018 1 0x02 0x02 4 7 .const 0xD4F0400,  -- PRODUCT_CODE
  row 0x1018 1 0x03 0x03 4 7 .ro 0x10000,  -- REVISION
  rowComp 0x1018 1 0x04 0x04 4 7 .ro ]  -- SERIAL_NUMBER

/-- Table 9.17, object 0x1600 + 0 … 63 (R387). -/
def rows_1600 : List ObjRow := [
  rowImage 0x1600 64 0x00 0x00 1 5 .rw,  -- ENTRIES
  rowImage 0x1600 64 0x01 0x20 4 7 .rw ]  -- ENTRY_n

/-- Table 9.17, object 0x1A00 + 0 … 63 (R387). -/
def rows_1A00 : List ObjRow := [
  rowImage 0x1A00 64 0x00 0x00 1 5 .rw,  -- ENTRIES
  rowImage 0x1A00 64 0x01 0x20 4 7 .rw ]  -- ENTRY_n

/-- Table 9.18, object 0x1C12 (R387). -/
def rows_1C12 : List ObjRow := [
  rowImage 0x1C12 1 0x00 0x00 1 5 .rw,  -- ASSIGNED
  rowImage 0x1C12 1 0x01 0x10 2 6 .rw ]  -- PDO_n

/-- Table 9.18, object 0x1C13 (R387). -/
def rows_1C13 : List ObjRow := [
  rowImage 0x1C13 1 0x00 0x00 1 5 .rw,  -- ASSIGNED
  rowImage 0x1C13 1 0x01 0x10 2 6 .rw ]  -- PDO_n

/-- Table 9.19, object 0x2010 (R388). -/
def rows_2010 : List ObjRow := [
  row 0x2010 1 0x00 0x00 1 5 .const 0xB,  -- Highest subindex
  row 0x2010 1 0x01 0x01 1 5 .ro 0 true,  -- LOAD
  row 0x2010 1 0x02 0x02 1 5 .ro 0,  -- LOAD_PEAK
  row 0x2010 1 0x03 0x03 1 5 .ro 0 true,  -- SHED
  row 0x2010 1 0x04 0x04 4 7 .ro 0,  -- SHED_EVENTS
  row 0x2010 1 0x05 0x05 4 7 .ro 0,  -- SDO_LATENCY_MAX
  row 0x2010 1 0x06 0x06 4 7 .ro 0,  -- SDO_SERVED
  row 0x2010 1 0x07 0x07 4 7 .ro 0,  -- SDO_ABORTS
  row 0x2010 1 0x08 0x08 4 7 .ro 0,  -- EMCY_DROPPED
  row 0x2010 1 0x09 0x09 4 7 .ro 0,  -- RXPDO_IGNORED
  row 0x2010 1 0x0A 0x0A 1 5 .ro 1,  -- ECAT_STATE
  row 0x2010 1 0x0B 0x0B 2 6 .ro 0 ]  -- AL_STATUS_CODE

/-- Table 9.20, object 0x2011 (R388). -/
def rows_2011 : List ObjRow := [
  row 0x2011 1 0x00 0x00 1 5 .const 7,  -- Highest subindex
  rowComp 0x2011 1 0x01 0x01 4 7 .wo,  -- SAVE
  rowComp 0x2011 1 0x02 0x02 4 7 .wo,  -- RESTORE_DEFAULTS
  row 0x2011 1 0x03 0x03 1 5 .ro 0,  -- STATE
  row 0x2011 1 0x04 0x04 8 27 .ro 0,  -- LAST_SAVE
  row 0x2011 1 0x05 0x05 4 7 .ro 0,  -- SAVES
  row 0x2011 1 0x06 0x06 2 6 .ro 0,  -- SKIPPED
  row 0x2011 1 0x07 0x07 1 5 .ro 0 ]  -- APPLIED_COPY

/-- Table 9.21, object 0x2012 (R388). -/
def rows_2012 : List ObjRow := [
  row 0x2012 1 0x00 0x00 1 5 .const 3,  -- Highest subindex
  row 0x2012 1 0x01 0x01 1 5 .ro 0,  -- LOCK_STATE
  rowComp 0x2012 1 0x02 0x02 4 7 .wo,  -- LOCK
  row 0x2012 1 0x03 0x03 8 27 .ro 0 ]  -- LOCKED_AT

/-- Table 9.22, object 0x4600 (R389). -/
def rows_4600 : List ObjRow := [
  row 0x4600 1 0x00 0x00 1 5 .const 0x1F,  -- Highest subindex
  row 0x4600 1 0x01 0x01 1 5 .rw 0,  -- NODE_ID
  row 0x4600 1 0x02 0x02 2 6 .rw 0x1F4,  -- NOMINAL_RATE
  row 0x4600 1 0x03 0x03 2 6 .rw 0x7D0,  -- DATA_RATE
  row 0x4600 1 0x04 0x04 1 1 .rw 0,  -- FD_ENABLE
  row 0x4600 1 0x05 0x05 2 6 .rw 0,  -- HEARTBEAT_MS
  row 0x4600 1 0x06 0x06 1 5 .ro 0 true,  -- NMT_STATE
  row 0x4600 1 0x07 0x07 1 5 .ro 0 true,  -- BUS_STATE
  row 0x4600 1 0x08 0x08 4 7 .ro 0,  -- RX_FRAMES
  row 0x4600 1 0x09 0x09 4 7 .ro 0,  -- TX_FRAMES
  row 0x4600 1 0x0A 0x0A 4 7 .ro 0,  -- BUS_OFF_COUNT
  row 0x4600 1 0x0B 0x0B 4 7 .ro 0,  -- TX_NOT_SENT
  row 0x4600 1 0x10 0x1F 8 27 .rw 0 ]  -- FILTER_n

/-- Table 9.23, object 0x6000 + 0 … 63 (R390). -/
def rows_6000 : List ObjRow := [
  row 0x6000 64 0x00 0x00 1 5 .const 4,  -- Highest subindex
  row 0x6000 64 0x01 0x04 4 7 .ro 0 true ]  -- WORD_n

/-- Table 9.23, object 0x7000 + 0 … 63 (R390). -/
def rows_7000 : List ObjRow := [
  row 0x7000 64 0x00 0x00 1 5 .const 4,  -- Highest subindex
  row 0x7000 64 0x01 0x04 4 7 .rw 0 true ]  -- WORD_n

/-- Table 10.11, object 0x4000 (R434). -/
def rows_4000 : List ObjRow := [
  row 0x4000 1 0x00 0x00 1 5 .const 0xF,  -- Highest subindex
  row 0x4000 1 0x01 0x01 1 5 .rw 0,  -- SELECT
  rowImage 0x4000 1 0x02 0x02 1 5 .rwi,  -- MODE
  rowImage 0x4000 1 0x03 0x03 1 5 .rwi,  -- INPUT_CFG
  rowImage 0x4000 1 0x04 0x04 1 5 .rwi,  -- DEGLITCH
  row 0x4000 1 0x05 0x05 1 5 .ro 0,  -- reserved
  rowImage 0x4000 1 0x06 0x06 4 7 .rwi,  -- STUCK_TIMEOUT
  rowImage 0x4000 1 0x07 0x07 1 5 .rwi,  -- INIT_LEVEL
  rowImage 0x4000 1 0x08 0x08 4 7 .rwi,  -- PULSE_HIGH
  rowImage 0x4000 1 0x09 0x09 4 7 .rwi,  -- PULSE_PERIOD
  rowImage 0x4000 1 0x0A 0x0A 4 7 .rwi,  -- PULSE_CFG
  row 0x4000 1 0x0B 0x0B 4 7 .ro 0 true,  -- LEVELS
  row 0x4000 1 0x0C 0x0C 4 7 .ro 0,  -- GLITCHES
  row 0x4000 1 0x0D 0x0D 4 7 .ro 0,  -- MERGED
  row 0x4000 1 0x0E 0x0E 4 7 .ro 0,  -- FOLDED
  row 0x4000 1 0x0F 0x0F 4 7 .ro 0 true ]  -- STUCK_PINS

/-- Table 10.12, object 0x4100 (R434). -/
def rows_4100 : List ObjRow := [
  row 0x4100 1 0x00 0x00 1 5 .const 0xC,  -- Highest subindex
  row 0x4100 1 0x01 0x01 1 5 .rw 0,  -- SELECT
  rowImage 0x4100 1 0x02 0x02 1 5 .rwi,  -- MODE
  rowImage 0x4100 1 0x03 0x03 4 7 .rwi,  -- BIT_RATE
  rowImage 0x4100 1 0x04 0x04 4 7 .rwi,  -- FORMAT
  rowImage 0x4100 1 0x05 0x05 2 6 .rwi,  -- DE_LEAD
  rowImage 0x4100 1 0x06 0x06 4 7 .rwi,  -- GAP_TIME
  rowImage 0x4100 1 0x07 0x07 4 7 .rwi,  -- POLL_PERIOD
  row 0x4100 1 0x08 0x08 4 7 .ro 0,  -- FRAMES_SENT
  row 0x4100 1 0x09 0x09 4 7 .ro 0,  -- FRAMES_RECEIVED
  row 0x4100 1 0x0A 0x0A 4 7 .ro 0,  -- ERRORS
  row 0x4100 1 0x0B 0x0B 4 7 .ro 0,  -- TIMEOUTS
  row 0x4100 1 0x0C 0x0C 4 7 .ro 0 ]  -- POLLS_SKIPPED

/-- Table 10.13, object 0x4200 (R434). -/
def rows_4200 : List ObjRow := [
  row 0x4200 1 0x00 0x00 1 5 .const 0x12,  -- Highest subindex
  row 0x4200 1 0x01 0x01 1 5 .rw 0,  -- SELECT
  rowImage 0x4200 1 0x02 0x02 1 1 .rw,  -- ENABLE
  rowImage 0x4200 1 0x03 0x03 4 7 .rwi,  -- LINK
  rowImage 0x4200 1 0x04 0x04 4 7 .rwi,  -- GEOMETRY
  rowImage 0x4200 1 0x05 0x05 4 7 .rwi,  -- STRIDE
  rowImage 0x4200 1 0x06 0x06 2 6 .rwi,  -- LINE_TOKENS
  rowImage 0x4200 1 0x07 0x0A 8 27 .rwi,  -- WINDOW_n
  rowImage 0x4200 1 0x0B 0x0B 2 6 .rwi,  -- I2C_RATE
  rowStr 0x4200 0x0C 10 .wo 35,  -- I2C_XFER
  rowStr 0x4200 0x0D 10 .ro 34,  -- I2C_RESULT
  row 0x4200 1 0x0E 0x0E 4 7 .ro 0,  -- FRAMES
  row 0x4200 1 0x0F 0x0F 4 7 .ro 0,  -- FRAME_ERRORS
  row 0x4200 1 0x10 0x10 4 7 .ro 0,  -- LINES_LOST
  row 0x4200 1 0x11 0x11 4 7 .ro 0 true,  -- LAST_FRAME_START
  row 0x4200 1 0x12 0x12 2 6 .ro 0 ]  -- LANE_RATE

/-- Table 10.14, object 0x4300 (R434). -/
def rows_4300 : List ObjRow := [
  row 0x4300 1 0x00 0x00 1 5 .const 0xB,  -- Highest subindex
  row 0x4300 1 0x01 0x01 1 5 .rw 0,  -- SELECT
  rowImage 0x4300 1 0x02 0x02 1 1 .rwi,  -- ENABLE
  rowImage 0x4300 1 0x03 0x03 1 1 .rwi,  -- RELAY
  row 0x4300 1 0x04 0x04 1 5 .ro 0 true,  -- STATE
  row 0x4300 1 0x05 0x05 1 5 .ro 0xFF,  -- PARTNER_UNIT
  row 0x4300 1 0x06 0x06 4 7 .ro 0,  -- FRAMES_SENT
  row 0x4300 1 0x07 0x07 4 7 .ro 0,  -- FRAMES_RECEIVED
  row 0x4300 1 0x08 0x08 4 7 .ro 0,  -- CRC_ERRORS
  row 0x4300 1 0x09 0x09 4 7 .ro 0,  -- RESENDS
  row 0x4300 1 0x0A 0x0A 4 7 .ro 0,  -- LINK_DOWNS
  row 0x4300 1 0x0B 0x0B 4 7 .ro 0 ]  -- LOST_FRAMES

/-- Table 10.15, object 0x4500 (R434). -/
def rows_4500 : List ObjRow := [
  row 0x4500 1 0x00 0x00 1 5 .const 0x12,  -- Highest subindex
  row 0x4500 1 0x01 0x01 1 5 .rw 0,  -- SELECT
  rowImage 0x4500 1 0x02 0x02 2 6 .rwi,  -- HIGH
  rowImage 0x4500 1 0x03 0x03 2 6 .rwi,  -- LOW
  rowImage 0x4500 1 0x04 0x04 1 1 .rwi,  -- HOST_STAMP
  row 0x4500 1 0x05 0x05 1 5 .ro 0,  -- reserved
  row 0x4500 1 0x06 0x06 2 6 .ro 0 true,  -- OCCUPANCY
  row 0x4500 1 0x07 0x07 8 27 .ro 0,  -- PACKETS
  row 0x4500 1 0x08 0x08 1 1 .ro 0 true,  -- FLAG
  row 0x4500 1 0x09 0x09 4 7 .ro 0,  -- OVERFLOWS
  row 0x4500 1 0x0A 0x0A 2 6 .ro 0,  -- PEAK
  rowImage 0x4500 1 0x10 0x10 4 7 .rw,  -- FC_MAP
  rowImage 0x4500 1 0x11 0x11 1 5 .rw,  -- FC_ACTIVE_LOW
  row 0x4500 1 0x12 0x12 1 5 .ro 0 true ]  -- FC_STATE

/-- Table 11.10, object 0x5000 (R465). -/
def rows_5000 : List ObjRow := [
  row 0x5000 1 0x00 0x00 1 5 .const 0xD,  -- Highest subindex
  row 0x5000 1 0x01 0x01 4 7 .ro 0,  -- FIRST_SEQ
  row 0x5000 1 0x02 0x02 4 7 .ro 0xFFFFFFFF,  -- LAST_SEQ
  row 0x5000 1 0x03 0x03 4 7 .ro 0 true,  -- USED_BYTES
  row 0x5000 1 0x04 0x04 1 5 .ro 0 true,  -- STATE
  row 0x5000 1 0x05 0x05 4 7 .ro 0,  -- LOST_PENDING
  row 0x5000 1 0x06 0x06 4 7 .ro 0,  -- LOST_TOTAL
  rowComp 0x5000 1 0x07 0x07 4 7 .wo,  -- RELEASE
  row 0x5000 1 0x08 0x08 4 7 .rw 0,  -- READ_SEQ
  rowStr 0x5000 0x09 10 .ro 256,  -- RECORD
  rowComp 0x5000 1 0x0A 0x0A 4 7 .ro,  -- OPERATING_TIME
  rowComp 0x5000 1 0x0B 0x0B 4 7 .ro,  -- POWER_CYCLES
  row 0x5000 1 0x0C 0x0C 8 27 .ro 0,  -- FLASH_COPY_T
  row 0x5000 1 0x0D 0x0D 1 5 .rw 0 ]  -- SOURCE

/-- Table 11.11, object 0x5100 (R465). -/
def rows_5100 : List ObjRow := [
  row 0x5100 1 0x00 0x00 1 5 .const 0xB,  -- Highest subindex
  row 0x5100 1 0x01 0x01 8 27 .ro 0 true,  -- SET_LOW
  row 0x5100 1 0x02 0x02 8 27 .ro 0 true,  -- SET_HIGH
  row 0x5100 1 0x03 0x03 8 27 .rw 0xFFFFFFFFFFFFFFFF,  -- MASK_LOW
  row 0x5100 1 0x04 0x04 8 27 .rw 0xFFFFFFFFFFFFFFFF,  -- MASK_HIGH
  row 0x5100 1 0x05 0x05 1 5 .rw 0,  -- SELECT
  row 0x5100 1 0x06 0x06 2 6 .ro 0,  -- COUNT
  row 0x5100 1 0x07 0x07 8 27 .ro 0,  -- FIRST
  row 0x5100 1 0x08 0x08 8 27 .ro 0,  -- LAST
  rowComp 0x5100 1 0x09 0x09 1 5 .wo,  -- CLEAR
  rowComp 0x5100 1 0x0A 0x0A 1 5 .ro,  -- KIND
  row 0x5100 1 0x0B 0x0B 1 1 .ro 0 true ]  -- ALARM_N

/-- Table 11.12, object 0x5200 (R465). -/
def rows_5200 : List ObjRow := [
  row 0x5200 1 0x00 0x00 1 5 .const 0xD,  -- Highest subindex
  row 0x5200 1 0x01 0x01 1 1 .rw 0,  -- ENABLE
  row 0x5200 1 0x02 0x02 1 5 .rwi 0,  -- DEST
  row 0x5200 1 0x03 0x03 8 27 .rw 0,  -- CLASSES
  row 0x5200 1 0x04 0x04 1 1 .rw 0,  -- NOC_STATS
  row 0x5200 1 0x05 0x05 8 27 .rwi 0,  -- RING_BASE
  row 0x5200 1 0x06 0x06 4 7 .ro 0,  -- SOURCE_DROPS
  row 0x5200 1 0x07 0x07 4 7 .ro 0,  -- RING_DROPS
  row 0x5200 1 0x08 0x08 4 7 .ro 0,  -- GAP_RECORDS
  row 0x5200 1 0x09 0x09 4 7 .rwi 0,  -- RING_BLOCKS
  row 0x5200 1 0x0A 0x0A 4 7 .ro 0,  -- BLOCKS_CLOSED
  row 0x5200 1 0x0B 0x0B 4 7 .ro 0,  -- BLOCKS_TO_NVME
  rowStr 0x5200 0x0C 10 .ro 4096,  -- EXPORT_BLOCK
  row 0x5200 1 0x0D 0x0D 4 7 .rw 0x400 ]  -- TRACE_SEGMENTS

/-- Table 11.13, object 0x5300 (R465). -/
def rows_5300 : List ObjRow := [
  row 0x5300 1 0x00 0x00 1 5 .const 0x11,  -- Highest subindex
  row 0x5300 1 0x01 0x01 1 5 .ro 0 true,  -- STATE
  row 0x5300 1 0x02 0x02 1 5 .ro 0,  -- MODE
  rowComp 0x5300 1 0x03 0x03 1 5 .wo,  -- FORMAT
  row 0x5300 1 0x04 0x04 4 7 .ro 0,  -- SEGMENTS
  row 0x5300 1 0x05 0x05 1 1 .rw 1,  -- ENABLE
  row 0x5300 1 0x06 0x06 8 27 .ro 0,  -- SEGSEQ
  row 0x5300 1 0x07 0x07 8 27 .ro 0,  -- OLDEST_SEGSEQ
  row 0x5300 1 0x08 0x08 8 27 .ro 0,  -- RECORDS
  row 0x5300 1 0x09 0x09 4 7 .ro 0,  -- REORDER_PEAK
  row 0x5300 1 0x0A 0x0A 4 7 .ro 0,  -- DROPPED
  row 0x5300 1 0x0B 0x0B 4 7 .ro 0,  -- LATE
  row 0x5300 1 0x0C 0x0C 4 7 .ro 0,  -- VOLUME_ID
  row 0x5300 1 0x0D 0x0D 8 27 .ro 0 true,  -- DURABLE_K
  row 0x5300 1 0x0E 0x0E 8 27 .rw 0,  -- READ_SEGSEQ
  row 0x5300 1 0x0F 0x0F 2 6 .rw 0,  -- READ_BLOCK
  rowStr 0x5300 0x10 10 .ro 4096,  -- BLOCK_DATA
  row 0x5300 1 0x11 0x11 8 27 .ro 0 ]  -- FIRST_SEQ

/-- Table 11.14, object 0x4400 (R465). -/
def rows_4400 : List ObjRow := [
  row 0x4400 1 0x00 0x00 1 5 .const 0xD,  -- Highest subindex
  row 0x4400 1 0x01 0x01 1 5 .rw 0,  -- SELECT
  row 0x4400 1 0x02 0x02 1 1 .ro 0 true,  -- PRESENT
  row 0x4400 1 0x03 0x03 1 5 .ro 0,  -- LINK
  row 0x4400 1 0x04 0x04 1 5 .ro 0,  -- WIDTH
  row 0x4400 1 0x05 0x05 8 27 .ro 0,  -- CAPACITY
  row 0x4400 1 0x06 0x06 2 6 .ro 0,  -- LBA_SIZE
  rowStr 0x4400 0x07 9 .ro 40,  -- MODEL
  rowStr 0x4400 0x08 9 .ro 20,  -- SERIAL
  row 0x4400 1 0x09 0x09 4 7 .ro 0,  -- TIMEOUTS
  row 0x4400 1 0x0A 0x0A 4 7 .ro 0,  -- MEDIA_ERRORS
  row 0x4400 1 0x0B 0x0B 2 3 .ro 0,  -- TEMPERATURE
  row 0x4400 1 0x0C 0x0C 1 5 .ro 0,  -- PERCENT_USED
  row 0x4400 1 0x0D 0x0D 8 27 .ro 0 ]  -- WRITTEN

/-- Table 12.15, object 0x2000 (R503). -/
def rows_2000 : List ObjRow := [
  row 0x2000 1 0x00 0x00 1 5 .const 0xD,  -- Highest subindex
  rowComp 0x2000 1 0x01 0x01 1 5 .ro,  -- RESET_CAUSE
  row 0x2000 1 0x02 0x02 4 7 .ro 0,  -- START_MS
  row 0x2000 1 0x03 0x03 1 5 .rw 0,  -- STEP_SELECT
  row 0x2000 1 0x04 0x04 8 27 .ro 0,  -- STEP_ENTRY
  row 0x2000 1 0x05 0x05 2 6 .ro 0 true,  -- FALLBACKS
  row 0x2000 1 0x06 0x06 2 6 .ro 0 true,  -- SKIPPED
  rowComp 0x2000 1 0x07 0x07 4 7 .wo,  -- CLEAR_RECORD
  rowComp 0x2000 1 0x08 0x08 4 7 .wo,  -- RESTART
  rowComp 0x2000 1 0x09 0x09 4 7 .wo,  -- STOP
  row 0x2000 1 0x0A 0x0A 1 5 .ro 0,  -- STOP_STATE
  row 0x2000 1 0x0B 0x0B 1 5 .ro 0xFF,  -- HOLD_STEP
  row 0x2000 1 0x0C 0x0C 2 6 .ro 0,  -- HOLD_CODE
  row 0x2000 1 0x0D 0x0D 1 1 .ro 0 true ]  -- LOADER_MODE

/-- Table 12.16, object 0x2001 (R503). -/
def rows_2001 : List ObjRow := [
  row 0x2001 1 0x00 0x00 1 5 .ro 0 true ]  -- DEVICE_STATE

/-- Table 12.17, object 0x5800 (R504). -/
def rows_5800 : List ObjRow := [
  row 0x5800 1 0x00 0x00 1 5 .const 0xC,  -- Highest subindex
  row 0x5800 1 0x01 0x01 1 5 .ro 0 true,  -- STATE
  rowStr 0x5800 0x02 10 .wo 832,  -- BEGIN
  rowStr 0x5800 0x03 10 .wo 2048,  -- BLOCK_HALF
  rowStr 0x5800 0x04 10 .wo 144,  -- END
  row 0x5800 1 0x05 0x05 2 6 .ro 0,  -- NEXT_BLOCK
  row 0x5800 1 0x06 0x06 8 27 .rw 0,  -- ACTIVATE_AT
  rowComp 0x5800 1 0x07 0x07 1 5 .wo,  -- ABORT
  rowComp 0x5800 1 0x08 0x08 4 7 .ro true,  -- RUNNING_VERSION
  rowComp 0x5800 1 0x09 0x09 4 7 .ro,  -- SLOT_VERSION
  rowComp 0x5800 1 0x0A 0x0A 1 1 .ro true,  -- SLOT_VALID
  row 0x5800 1 0x0B 0x0B 8 27 .ro 0,  -- LAST_ACTIVATION
  row 0x5800 1 0x0C 0x0C 4 7 .ro 0 ]  -- REFUSALS

/-- Table 13.19, object 0x2200 (R534). -/
def rows_2200 : List ObjRow := [
  row 0x2200 1 0x00 0x00 1 5 .const 0x18,  -- Highest subindex
  rowComp 0x2200 1 0x01 0x01 2 3 .ro true,  -- TJ
  rowComp 0x2200 1 0x02 0x02 2 3 .ro,  -- TJ_PEAK
  row 0x2200 1 0x03 0x03 2 3 .rw 0x64,  -- TJ_HIGH
  rowComp 0x2200 1 0x04 0x04 2 6 .ro true,  -- VDD_CORE
  rowComp 0x2200 1 0x05 0x05 2 6 .ro,  -- VDD_SRAM
  rowComp 0x2200 1 0x06 0x06 2 6 .ro,  -- VDD_AON
  rowComp 0x2200 1 0x07 0x07 1 5 .ro,  -- VDDIO_CLASS
  rowComp 0x2200 1 0x08 0x08 4 7 .ro true,  -- CORE_CURRENT
  row 0x2200 1 0x09 0x09 4 7 .rw 0xD6D8,  -- CORE_CURRENT_LIMIT
  rowComp 0x2200 1 0x0A 0x0A 4 7 .ro true,  -- POWER
  rowComp 0x2200 1 0x0B 0x0B 4 7 .ro true,  -- DOMAIN_STATE
  row 0x2200 1 0x0C 0x0C 1 5 .rw 1,  -- DOMAIN_SELECT
  rowComp 0x2200 1 0x0D 0x0D 1 5 .wo,  -- DOMAIN_CONTROL
  rowComp 0x2200 1 0x0E 0x0E 4 7 .ro,  -- DOMAIN_POWER
  row 0x2200 1 0x0F 0x0F 4 7 .ro 0,  -- DOMAIN_SWITCHES
  rowComp 0x2200 1 0x10 0x17 2 3 .ro,  -- SENSOR_n
  row 0x2200 1 0x18 0x18 4 7 .rw 0 ]  -- START_OFF

/-- Table 13.20, object 0x3100 + 0 … 3 (R535). -/
def rows_3100_13_20 : List ObjRow := [
  row 0x3100 4 0x00 0x00 1 5 .const 0x27,  -- Highest subindex
  rowImage 0x3100 4 0x01 0x01 4 7 .ro,  -- CLOCK
  row 0x3100 4 0x02 0x02 1 1 .ro 0,  -- DPLL_LOCKED
  rowComp 0x3100 4 0x03 0x03 1 5 .ro true,  -- HALF_A
  rowComp 0x3100 4 0x04 0x04 1 5 .ro true,  -- HALF_B
  row 0x3100 4 0x05 0x05 2 6 .ro 0,  -- MOTIFS_CONFIGURED
  rowComp 0x3100 4 0x06 0x06 2 3 .ro true,  -- TEMPERATURE
  rowComp 0x3100 4 0x07 0x07 2 3 .ro,  -- TEMP_PEAK
  rowComp 0x3100 4 0x08 0x08 4 7 .ro ]  -- POWER

/-- Every row of the dictionary outside the secure range (Table 9.1). -/
def objRows : List ObjRow :=
  rows_2100 ++ rows_2101 ++ rows_2102 ++ rows_2103 ++ rows_2110 ++ rows_3020 ++
  rows_3200 ++ rows_3400 ++ rows_3500 ++ rows_3200_5_9 ++ rows_3700 ++ rows_3701 ++
  rows_3702 ++ rows_3703 ++ rows_3740 ++ rows_3010 ++ rows_3080 ++ rows_3800 ++
  rows_3100 ++ rows_3012 ++ rows_3600 ++ rows_3601 ++ rows_3602 ++ rows_3030 ++
  rows_3031 ++ rows_3038 ++ rows_1000 ++ rows_1001 ++ rows_1008 ++ rows_1009 ++
  rows_100A ++ rows_1003 ++ rows_1018 ++ rows_1600 ++ rows_1A00 ++ rows_1C12 ++
  rows_1C13 ++ rows_2010 ++ rows_2011 ++ rows_2012 ++ rows_4600 ++ rows_6000 ++
  rows_7000 ++ rows_4000 ++ rows_4100 ++ rows_4200 ++ rows_4300 ++ rows_4500 ++
  rows_5000 ++ rows_5100 ++ rows_5200 ++ rows_5300 ++ rows_4400 ++ rows_2000 ++
  rows_2001 ++ rows_5800 ++ rows_2200 ++ rows_3100_13_20

/-- Reset values that are not zero, by key instance × 2²⁴ + index × 2⁸ + subindex: the Default columns of the object tables. -/
def odReset0 : SMap Nat := [
  (0x101803, 0x10000), (0x20000B, 0xFF), (0x20100A, 0x1), (0x210001, 0x1),
  (0x210007, 0x14), (0x210008, 0x2710), (0x210009, 0x64), (0x220003, 0x64),
  (0x220009, 0xD6D8), (0x22000C, 0x1), (0x30300A, 0x64), (0x32000F, 0xFFFF),
  (0x320010, 0x7F), (0x320023, 0x2), (0x320024, 0x706050403020100), (0x320025, 0xF0E0D0C0B0A0908),
  (0x32010F, 0xFFFF), (0x320110, 0x7F), (0x320123, 0x2), (0x320124, 0x706050403020100),
  (0x320125, 0xF0E0D0C0B0A0908), (0x32020F, 0xFFFF), (0x320210, 0x7F), (0x320223, 0x2),
  (0x320224, 0x706050403020100), (0x320225, 0xF0E0D0C0B0A0908), (0x32030F, 0xFFFF), (0x320310, 0x7F),
  (0x320323, 0x2), (0x320324, 0x706050403020100), (0x320325, 0xF0E0D0C0B0A0908), (0x32040F, 0xFFFF),
  (0x320410, 0x7F), (0x320423, 0x2), (0x320424, 0x706050403020100), (0x320425, 0xF0E0D0C0B0A0908),
  (0x32050F, 0xFFFF), (0x320510, 0x7F), (0x320523, 0x2), (0x320524, 0x706050403020100),
  (0x320525, 0xF0E0D0C0B0A0908), (0x32060F, 0xFFFF), (0x320610, 0x7F), (0x320623, 0x2),
  (0x320624, 0x706050403020100), (0x320625, 0xF0E0D0C0B0A0908), (0x32070F, 0xFFFF), (0x320710, 0x7F),
  (0x320723, 0x2), (0x320724, 0x706050403020100), (0x320725, 0xF0E0D0C0B0A0908), (0x32080F, 0xFFFF),
  (0x320810, 0x7F), (0x320823, 0x2), (0x320824, 0x706050403020100), (0x320825, 0xF0E0D0C0B0A0908),
  (0x32090F, 0xFFFF), (0x320910, 0x7F), (0x320923, 0x2), (0x320924, 0x706050403020100),
  (0x320925, 0xF0E0D0C0B0A0908), (0x320A0F, 0xFFFF), (0x320A10, 0x7F), (0x320A23, 0x2) ]

def odReset1 : SMap Nat := [
  (0x320A24, 0x706050403020100), (0x320A25, 0xF0E0D0C0B0A0908), (0x320B0F, 0xFFFF), (0x320B10, 0x7F),
  (0x320B23, 0x2), (0x320B24, 0x706050403020100), (0x320B25, 0xF0E0D0C0B0A0908), (0x320C0F, 0xFFFF),
  (0x320C10, 0x7F), (0x320C23, 0x2), (0x320C24, 0x706050403020100), (0x320C25, 0xF0E0D0C0B0A0908),
  (0x320D0F, 0xFFFF), (0x320D10, 0x7F), (0x320D23, 0x2), (0x320D24, 0x706050403020100),
  (0x320D25, 0xF0E0D0C0B0A0908), (0x320E0F, 0xFFFF), (0x320E10, 0x7F), (0x320E23, 0x2),
  (0x320E24, 0x706050403020100), (0x320E25, 0xF0E0D0C0B0A0908), (0x320F0F, 0xFFFF), (0x320F10, 0x7F),
  (0x320F23, 0x2), (0x320F24, 0x706050403020100), (0x320F25, 0xF0E0D0C0B0A0908), (0x32100F, 0xFFFF),
  (0x321010, 0x7F), (0x321023, 0x2), (0x321024, 0x706050403020100), (0x321025, 0xF0E0D0C0B0A0908),
  (0x32110F, 0xFFFF), (0x321110, 0x7F), (0x321123, 0x2), (0x321124, 0x706050403020100),
  (0x321125, 0xF0E0D0C0B0A0908), (0x32120F, 0xFFFF), (0x321210, 0x7F), (0x321223, 0x2),
  (0x321224, 0x706050403020100), (0x321225, 0xF0E0D0C0B0A0908), (0x32130F, 0xFFFF), (0x321310, 0x7F),
  (0x321323, 0x2), (0x321324, 0x706050403020100), (0x321325, 0xF0E0D0C0B0A0908), (0x32140F, 0xFFFF),
  (0x321410, 0x7F), (0x321423, 0x2), (0x321424, 0x706050403020100), (0x321425, 0xF0E0D0C0B0A0908),
  (0x32150F, 0xFFFF), (0x321510, 0x7F), (0x321523, 0x2), (0x321524, 0x706050403020100),
  (0x321525, 0xF0E0D0C0B0A0908), (0x32160F, 0xFFFF), (0x321610, 0x7F), (0x321623, 0x2),
  (0x321624, 0x706050403020100), (0x321625, 0xF0E0D0C0B0A0908), (0x32170F, 0xFFFF), (0x321710, 0x7F) ]

def odReset2 : SMap Nat := [
  (0x321723, 0x2), (0x321724, 0x706050403020100), (0x321725, 0xF0E0D0C0B0A0908), (0x32180F, 0xFFFF),
  (0x321810, 0x7F), (0x321823, 0x2), (0x321824, 0x706050403020100), (0x321825, 0xF0E0D0C0B0A0908),
  (0x32190F, 0xFFFF), (0x321910, 0x7F), (0x321923, 0x2), (0x321924, 0x706050403020100),
  (0x321925, 0xF0E0D0C0B0A0908), (0x321A0F, 0xFFFF), (0x321A10, 0x7F), (0x321A23, 0x2),
  (0x321A24, 0x706050403020100), (0x321A25, 0xF0E0D0C0B0A0908), (0x321B0F, 0xFFFF), (0x321B10, 0x7F),
  (0x321B23, 0x2), (0x321B24, 0x706050403020100), (0x321B25, 0xF0E0D0C0B0A0908), (0x321C0F, 0xFFFF),
  (0x321C10, 0x7F), (0x321C23, 0x2), (0x321C24, 0x706050403020100), (0x321C25, 0xF0E0D0C0B0A0908),
  (0x321D0F, 0xFFFF), (0x321D10, 0x7F), (0x321D23, 0x2), (0x321D24, 0x706050403020100),
  (0x321D25, 0xF0E0D0C0B0A0908), (0x321E0F, 0xFFFF), (0x321E10, 0x7F), (0x321E23, 0x2),
  (0x321E24, 0x706050403020100), (0x321E25, 0xF0E0D0C0B0A0908), (0x321F0F, 0xFFFF), (0x321F10, 0x7F),
  (0x321F23, 0x2), (0x321F24, 0x706050403020100), (0x321F25, 0xF0E0D0C0B0A0908), (0x32200F, 0xFFFF),
  (0x322010, 0x7F), (0x322023, 0x2), (0x322024, 0x706050403020100), (0x322025, 0xF0E0D0C0B0A0908),
  (0x32210F, 0xFFFF), (0x322110, 0x7F), (0x322123, 0x2), (0x322124, 0x706050403020100),
  (0x322125, 0xF0E0D0C0B0A0908), (0x32220F, 0xFFFF), (0x322210, 0x7F), (0x322223, 0x2),
  (0x322224, 0x706050403020100), (0x322225, 0xF0E0D0C0B0A0908), (0x32230F, 0xFFFF), (0x322310, 0x7F),
  (0x322323, 0x2), (0x322324, 0x706050403020100), (0x322325, 0xF0E0D0C0B0A0908), (0x32240F, 0xFFFF) ]

def odReset3 : SMap Nat := [
  (0x322410, 0x7F), (0x322423, 0x2), (0x322424, 0x706050403020100), (0x322425, 0xF0E0D0C0B0A0908),
  (0x32250F, 0xFFFF), (0x322510, 0x7F), (0x322523, 0x2), (0x322524, 0x706050403020100),
  (0x322525, 0xF0E0D0C0B0A0908), (0x32260F, 0xFFFF), (0x322610, 0x7F), (0x322623, 0x2),
  (0x322624, 0x706050403020100), (0x322625, 0xF0E0D0C0B0A0908), (0x32270F, 0xFFFF), (0x322710, 0x7F),
  (0x322723, 0x2), (0x322724, 0x706050403020100), (0x322725, 0xF0E0D0C0B0A0908), (0x32280F, 0xFFFF),
  (0x322810, 0x7F), (0x322823, 0x2), (0x322824, 0x706050403020100), (0x322825, 0xF0E0D0C0B0A0908),
  (0x32290F, 0xFFFF), (0x322910, 0x7F), (0x322923, 0x2), (0x322924, 0x706050403020100),
  (0x322925, 0xF0E0D0C0B0A0908), (0x322A0F, 0xFFFF), (0x322A10, 0x7F), (0x322A23, 0x2),
  (0x322A24, 0x706050403020100), (0x322A25, 0xF0E0D0C0B0A0908), (0x322B0F, 0xFFFF), (0x322B10, 0x7F),
  (0x322B23, 0x2), (0x322B24, 0x706050403020100), (0x322B25, 0xF0E0D0C0B0A0908), (0x322C0F, 0xFFFF),
  (0x322C10, 0x7F), (0x322C23, 0x2), (0x322C24, 0x706050403020100), (0x322C25, 0xF0E0D0C0B0A0908),
  (0x322D0F, 0xFFFF), (0x322D10, 0x7F), (0x322D23, 0x2), (0x322D24, 0x706050403020100),
  (0x322D25, 0xF0E0D0C0B0A0908), (0x322E0F, 0xFFFF), (0x322E10, 0x7F), (0x322E23, 0x2),
  (0x322E24, 0x706050403020100), (0x322E25, 0xF0E0D0C0B0A0908), (0x322F0F, 0xFFFF), (0x322F10, 0x7F),
  (0x322F23, 0x2), (0x322F24, 0x706050403020100), (0x322F25, 0xF0E0D0C0B0A0908), (0x32300F, 0xFFFF),
  (0x323010, 0x7F), (0x323023, 0x2), (0x323024, 0x706050403020100), (0x323025, 0xF0E0D0C0B0A0908) ]

def odReset4 : SMap Nat := [
  (0x32310F, 0xFFFF), (0x323110, 0x7F), (0x323123, 0x2), (0x323124, 0x706050403020100),
  (0x323125, 0xF0E0D0C0B0A0908), (0x32320F, 0xFFFF), (0x323210, 0x7F), (0x323223, 0x2),
  (0x323224, 0x706050403020100), (0x323225, 0xF0E0D0C0B0A0908), (0x32330F, 0xFFFF), (0x323310, 0x7F),
  (0x323323, 0x2), (0x323324, 0x706050403020100), (0x323325, 0xF0E0D0C0B0A0908), (0x32340F, 0xFFFF),
  (0x323410, 0x7F), (0x323423, 0x2), (0x323424, 0x706050403020100), (0x323425, 0xF0E0D0C0B0A0908),
  (0x32350F, 0xFFFF), (0x323510, 0x7F), (0x323523, 0x2), (0x323524, 0x706050403020100),
  (0x323525, 0xF0E0D0C0B0A0908), (0x32360F, 0xFFFF), (0x323610, 0x7F), (0x323623, 0x2),
  (0x323624, 0x706050403020100), (0x323625, 0xF0E0D0C0B0A0908), (0x32370F, 0xFFFF), (0x323710, 0x7F),
  (0x323723, 0x2), (0x323724, 0x706050403020100), (0x323725, 0xF0E0D0C0B0A0908), (0x32380F, 0xFFFF),
  (0x323810, 0x7F), (0x323823, 0x2), (0x323824, 0x706050403020100), (0x323825, 0xF0E0D0C0B0A0908),
  (0x32390F, 0xFFFF), (0x323910, 0x7F), (0x323923, 0x2), (0x323924, 0x706050403020100),
  (0x323925, 0xF0E0D0C0B0A0908), (0x323A0F, 0xFFFF), (0x323A10, 0x7F), (0x323A23, 0x2),
  (0x323A24, 0x706050403020100), (0x323A25, 0xF0E0D0C0B0A0908), (0x323B0F, 0xFFFF), (0x323B10, 0x7F),
  (0x323B23, 0x2), (0x323B24, 0x706050403020100), (0x323B25, 0xF0E0D0C0B0A0908), (0x323C0F, 0xFFFF),
  (0x323C10, 0x7F), (0x323C23, 0x2), (0x323C24, 0x706050403020100), (0x323C25, 0xF0E0D0C0B0A0908),
  (0x323D0F, 0xFFFF), (0x323D10, 0x7F), (0x323D23, 0x2), (0x323D24, 0x706050403020100) ]

def odReset5 : SMap Nat := [
  (0x323D25, 0xF0E0D0C0B0A0908), (0x323E0F, 0xFFFF), (0x323E10, 0x7F), (0x323E23, 0x2),
  (0x323E24, 0x706050403020100), (0x323E25, 0xF0E0D0C0B0A0908), (0x323F0F, 0xFFFF), (0x323F10, 0x7F),
  (0x323F23, 0x2), (0x323F24, 0x706050403020100), (0x323F25, 0xF0E0D0C0B0A0908), (0x340011, 0x7FFFFFFF),
  (0x340111, 0x7FFFFFFF), (0x340211, 0x7FFFFFFF), (0x340311, 0x7FFFFFFF), (0x340411, 0x7FFFFFFF),
  (0x340511, 0x7FFFFFFF), (0x340611, 0x7FFFFFFF), (0x340711, 0x7FFFFFFF), (0x340811, 0x7FFFFFFF),
  (0x340911, 0x7FFFFFFF), (0x340A11, 0x7FFFFFFF), (0x340B11, 0x7FFFFFFF), (0x340C11, 0x7FFFFFFF),
  (0x340D11, 0x7FFFFFFF), (0x340E11, 0x7FFFFFFF), (0x340F11, 0x7FFFFFFF), (0x341011, 0x7FFFFFFF),
  (0x341111, 0x7FFFFFFF), (0x341211, 0x7FFFFFFF), (0x341311, 0x7FFFFFFF), (0x341411, 0x7FFFFFFF),
  (0x341511, 0x7FFFFFFF), (0x341611, 0x7FFFFFFF), (0x341711, 0x7FFFFFFF), (0x341811, 0x7FFFFFFF),
  (0x341911, 0x7FFFFFFF), (0x341A11, 0x7FFFFFFF), (0x341B11, 0x7FFFFFFF), (0x341C11, 0x7FFFFFFF),
  (0x341D11, 0x7FFFFFFF), (0x341E11, 0x7FFFFFFF), (0x341F11, 0x7FFFFFFF), (0x342011, 0x7FFFFFFF),
  (0x342111, 0x7FFFFFFF), (0x342211, 0x7FFFFFFF), (0x342311, 0x7FFFFFFF), (0x342411, 0x7FFFFFFF),
  (0x342511, 0x7FFFFFFF), (0x342611, 0x7FFFFFFF), (0x342711, 0x7FFFFFFF), (0x342811, 0x7FFFFFFF),
  (0x342911, 0x7FFFFFFF), (0x342A11, 0x7FFFFFFF), (0x342B11, 0x7FFFFFFF), (0x342C11, 0x7FFFFFFF),
  (0x342D11, 0x7FFFFFFF), (0x342E11, 0x7FFFFFFF), (0x342F11, 0x7FFFFFFF), (0x343011, 0x7FFFFFFF),
  (0x343111, 0x7FFFFFFF), (0x343211, 0x7FFFFFFF), (0x343311, 0x7FFFFFFF), (0x343411, 0x7FFFFFFF) ]

def odReset6 : SMap Nat := [
  (0x343511, 0x7FFFFFFF), (0x343611, 0x7FFFFFFF), (0x343711, 0x7FFFFFFF), (0x343811, 0x7FFFFFFF),
  (0x343911, 0x7FFFFFFF), (0x343A11, 0x7FFFFFFF), (0x343B11, 0x7FFFFFFF), (0x343C11, 0x7FFFFFFF),
  (0x343D11, 0x7FFFFFFF), (0x343E11, 0x7FFFFFFF), (0x343F11, 0x7FFFFFFF), (0x360004, 0x1),
  (0x36000C, 0x6052340), (0x360012, 0x80), (0x360107, 0x3), (0x360208, 0xFF),
  (0x370006, 0x80), (0x37000A, 0x4), (0x370109, 0x2), (0x380003, 0x1),
  (0x430005, 0xFF), (0x460002, 0x1F4), (0x460003, 0x7D0), (0x500002, 0xFFFFFFFF),
  (0x510003, 0xFFFFFFFFFFFFFFFF), (0x510004, 0xFFFFFFFFFFFFFFFF), (0x52000D, 0x400), (0x530005, 0x1),
  (0x1430005, 0xFF) ]

/-- The object dictionary at reset (R346): every entry not listed reads 0. -/
def odReset : SMap Nat :=
  odReset0 ++ odReset1 ++ odReset2 ++ odReset3 ++ odReset4 ++ odReset5 ++ odReset6

end Sys2Proof.Machine
end

