-- ==== Sys2Proof/Machine/State.lean ====
section
/-! DEFINITION. The state of the block: every register, queue, memory and mode the spec gives it, as plain data, and the queue of
commands that are waiting. Registers that are dictionary objects live in `od`, keyed instance × 2²⁴ + index × 2⁸ + subindex. -/

namespace Sys2Proof.Machine

/-- Why a command stops with a fault. No command of this model faults; the constructor is the one a memory-less access would raise. -/
inductive Fault where
  /-- Raised by no meaning: kept for an access the spec gives no effect to. Safe: the machine stops. -/
  | noEffect
  deriving DecidableEq, Repr

/-- Why a command is refused. -/
inductive Refusal where
  /-- Raised by an arm of the dispatch whose command has no meaning yet. Safe: the machine stops. -/
  | notModelled (mnemonic : String)
  deriving DecidableEq, Repr

/-! ## Recording (R435 to R465) -/

/-- One alarm latch (R435): SET, COUNT, FIRST and LAST. -/
structure AlarmLatch where
  set : Bool := false
  count : Nat := 0
  first : Nat := 0
  last : Nat := 0
  deriving DecidableEq, Repr

/-- One sampler record (Table 11.3) without its computed LENGTH and check fields. -/
structure SamplerRec where
  typ : Nat := 0
  seq : Nat := 0
  opTime : Nat := 0
  cycle : Nat := 0
  t : Nat := 0
  payload : List Byte := []
  deriving DecidableEq, Repr

/-- The sampler (R439 to R445). Counters and state are dictionary entries of 0x5000. -/
structure Sampler where
  recs : List SamplerRec := []
  nextSeq : Nat := 0
  lossFirstT : Nat := 0
  lossLast : Stamp := 0#32
  deriving DecidableEq, Repr

/-- One emergency message (R373): error code, error register, alarm number, stamp. -/
structure Emcy where
  code : Nat := 0
  reg : Nat := 0
  alarm : Nat := 0
  stamp : Stamp := 0#32
  deriving DecidableEq, Repr

/-- One journal record (Table 11.8). -/
structure JRec where
  typ : Nat := 0
  source : Nat := 0xFFFF
  late : Bool := false
  planeB : Bool := false
  seq : Nat := 0
  t : Nat := 0
  k : Nat := 0
  payload : List Byte := []
  deriving DecidableEq, Repr

/-- One segment of the volume as an index describes it (R455): volume segment number, SEGSEQ, area (1 journal, 2 trace), first and last K,
record count, SEQ of its first record. -/
structure JSeg where
  number : Nat := 0
  segSeq : Nat := 0
  area : Nat := 0
  firstK : Nat := 0
  lastK : Nat := 0
  count : Nat := 0
  firstSeq : Nat := 0
  deriving DecidableEq, Repr

/-- One NVMe command of the journal engine (R460, R461): `id` joins the copies of one write, the drive, the priority class 1–4, the kind (0 journal
block, 1 trace block, 2 segment header, 3 index entry, 4 superblock, 5 block read), volume segment and block, the bytes, the newest K and the number
of records in it, the trace ring block it carries, the path a read answers, the LBA it names (R453), when it was issued (elapsed) and how often it timed out. -/
structure NvCmd where
  id : Nat := 0
  drive : Nat := 0
  prio : Nat := 1
  kind : Nat := 0
  seg : Nat := 0
  block : Nat := 0
  bytes : List Byte := []
  info : JSeg := {}
  durK : Nat := 0
  records : Nat := 0
  ring : Nat := 0
  firstK : Nat := 0
  path : Nat := 0
  lba : Nat := 0
  issued : Nat := 0
  tries : Nat := 0
  deriving DecidableEq, Repr

/-- What one drive holds (R453 to R455): a valid superblock with its fields, the index copy, what the blocks of segments without an index entry
show, and block contents by drive segment × 16,384 + block. -/
structure DriveVol where
  valid : Bool := false
  id : Nat := 0
  mode : Nat := 0
  segs : Nat := 0
  traceSegs : Nat := 0
  formatT : Nat := 0
  index : SMap JSeg := []
  found : SMap JSeg := []
  blocks : SMap (List Byte) := []
  deriving DecidableEq, Repr

/-- The journal engine (R452 to R463). `stage` is in order of K; `full` holds blocks that are full and not yet written; `segs` is the engine's index of
segments in use, `jSeg` and `trSeg` the open segments (0: none) with their next blocks. -/
structure Journal where
  stage : List JRec := []
  lastLeft : Option Nat := none
  dropped : Nat := 0
  dropFirstK : Nat := 0
  dropLastK : Nat := 0
  rateSec : Nat := 0
  rateCount : Nat := 0
  nextSeq : Nat := 0
  openRecs : List JRec := []
  openSince : Nat := 0
  full : List (List JRec) := []
  segs : SMap JSeg := []
  jSeg : Nat := 0
  jBlock : Nat := 1
  trSeg : Nat := 0
  trBlock : Nat := 1
  segSeq : Nat := 0
  volSegs : Nat := 0
  traceSegs : Nat := 0
  cmdId : Nat := 0
  waiting : List NvCmd := []
  flight : List NvCmd := []
  lost : List Nat := []
  deriving DecidableEq, Repr

/-- One trace entry: KIND and SOURCE of its tag and its 128-bit record (R449). -/
structure TraceEntry where
  kind : Nat := 0
  source : Nat := 0
  record : Nat := 0
  stamp : Stamp := 0#32
  deriving DecidableEq, Repr

/-- One source's trace buffer with what it dropped (R450). -/
structure TraceBuf where
  entries : List TraceEntry := []
  drops : Nat := 0
  firstLost : Stamp := 0#32
  lastLost : Stamp := 0#32
  deriving DecidableEq, Repr

/-- One closed trace block in the ring with its place there, the consumers that still have to take it, the WRITE packets of it not yet acknowledged, the parts
of 256 bytes that READ packets have brought for the trace area and for export, and whether it is being read for export. -/
structure TraceBlock where
  slot : Nat := 0
  entries : List TraceEntry := []
  epoch : Nat := 0
  needNvme : Bool := false
  needExport : Bool := false
  left : Nat := 0
  forNvme : SMap (List Byte) := []
  forExport : SMap (List Byte) := []
  exporting : Bool := false
  deriving DecidableEq, Repr

/-- The trace stream (R447 to R451); `next` is the place of the ring after the last one taken. -/
structure Trace where
  bufs : SMap TraceBuf := []
  openEntries : List TraceEntry := []
  ring : List TraceBlock := []
  next : Nat := 0
  ready : Option TraceBlock := none
  deriving DecidableEq, Repr

/-! ## Time (R11 to R45) -/

/-- The time base beside its objects 0x2100 to 0x2103: T, elapsed nanoseconds (which no step moves), those at which the device was reset, runs of good and
bad offsets, the last sign of the reference, the previous PPS edge's meaning, the frequency estimate, PPS_OUT, whether LOCKED has been entered, whether the
reference was ever present since SOURCE selected it (R14), the epoch number of the last DC measurement (R15), the steps performed (newest first: elapsed
time and T before it), and the last frequencies measured of CD37 (Table 1.10). -/
structure TimeBase where
  t : Nat := 0
  clk : Nat := 0
  resetAt : Nat := 0
  good : Nat := 0
  bad : Nat := 0
  lastRef : Nat := 0
  ppsPrev : Option Nat := none
  freqEst : Int := 0
  ppsOut : Bool := false
  ppsRose : Nat := 0
  everLocked : Bool := false
  refSeen : Bool := false
  measured : Option Nat := none
  steps : List (Nat × Nat) := []
  aon : List Nat := []
  deriving DecidableEq, Repr

/-- One token timer of one plane (R33, R36). `preset` marks one that an image enabled before the fabric start. -/
structure Timer where
  enable : Bool := false
  start : Nat := 0
  period : Nat := 0
  stream : Nat := 0
  count : Nat := 0
  nextN : Nat := 0
  active : Bool := false
  preset : Bool := false
  deriving DecidableEq, Repr

/-! ## Tokens, cells and motifs (R46 to R129) -/

/-- A token (R79) with the marks that travel beside it: execution number (R144), plane (R49), the stale mark (R82),
the source's frame end (R235) and, at a motif, the pricking-log record it was written to (R175) or that there was no space for it (R178). -/
structure Token where
  tid : Nat := 0
  stamp : Stamp := 0#32
  words : List Word := []
  prio : Nat := 0
  exec : Nat := 0
  planeB : Bool := false
  old : Bool := false
  cancel : Bool := false
  fend : Bool := true
  replay : Bool := false
  logId : Nat := 0
  unlogged : Bool := false
  deriving DecidableEq, Repr

/-- The register bank of a context (R46). -/
structure Bank where
  k0 : Word := 0#32
  k1 : Word := 0#32
  k2 : Word := 0#32
  k3 : Word := 0#32
  a0 : Acc := 0#48
  a1 : Acc := 0#48
  deriving DecidableEq, Repr

/-- One context slot of a logical position (R46): context word, table, initial and live bank, admission and shadow bank (R146). -/
structure Slot where
  ctx : BitVec 128 := 0#128
  lut : List (Nat × Byte) := []
  init : Bank := {}
  live : Bank := {}
  admitted : Option Nat := none
  shadow : Bank := {}
  deriving DecidableEq, Repr

/-- One matching store entry (R91): a complete token at an input of a slot. -/
structure MEntry where
  slot : Nat := 0
  input : Nat := 0
  key : Nat := 0
  tok : Token := {}
  deriving DecidableEq, Repr

/-- One formed instance (R92). `readyAt` is 0 until it is ready, then one more than the elapsed nanoseconds of its readiness; `parent` is
the TID its lead token carried at an OPEN slot (R151); `late` is the mark of R100; `counted` holds the waits already counted for it
(bit 0 READY_FULL, bit 1 TID_STARVED, bit 2 STATEFUL_WAITS, bit 3 CHAIN_WAITS). -/
structure Inst where
  slot : Nat := 0
  key : Nat := 0
  tid : Nat := 0
  stamp : Stamp := 0#32
  old : Bool := false
  exec : Nat := 0
  planeB : Bool := false
  toks : List (Nat × Token) := []
  readyAt : Nat := 0
  parent : Nat := 0
  replay : Bool := false
  late : Bool := false
  counted : Nat := 0
  deriving DecidableEq, Repr

/-- One instance in progress (R98). `stopped` marks an instance of an aborted TID whose results are suppressed (R141). -/
structure Run where
  inst : Inst := {}
  beat : Nat := 0
  beats : Nat := 1
  prev : Word := 0#32
  bank : Bank := {}
  out : List Word := []
  toDst1 : Bool := false
  stopped : Bool := false
  deriving DecidableEq, Repr

/-- One logical position: matching store, instances waiting for order (R95) or for a list place (R97), ready lists in list order,
the selected winner, instances in progress (oldest first), the held NEXT slot plus 1 (R101; 0 before the first dispatch), and the
instant and priority of the last selection from the lists (R100). -/
structure Cell where
  store : List MEntry := []
  formed : List Inst := []
  ready : List Inst := []
  winner : Option Inst := none
  runs : List Run := []
  next : Nat := 0
  lastSel : Option (Nat × Nat) := none
  deriving DecidableEq, Repr

/-- One token in a switch source's output buffer, bound for a route entry (R85, R86). -/
structure OutTok where
  route : Nat := 0
  tok : Token := {}
  since : Nat := 0
  forward : Bool := false
  waitT : Nat := 0
  endpoint : Nat := 0
  deriving DecidableEq, Repr

/-- One store-buffer entry (R148). -/
structure SbEntry where
  tid : Nat := 0
  addr : Nat := 0
  data : Word := 0#32
  committed : Bool := false
  deriving DecidableEq, Repr

/-- One pricking-log record (R176). -/
structure LogRec where
  id : Nat := 0
  tid : Nat := 0
  endpoint : Nat := 0
  bound : Bool := false
  planeB : Bool := false
  provisional : Bool := false
  stamp : Stamp := 0#32
  words : List Word := []
  deriving DecidableEq, Repr

/-- One gather in the engine's queue (R117 to R124); `ready` once the eight index words have come. -/
structure Gather where
  pos : Nat := 0
  slot : Nat := 0
  tid : Nat := 0
  exec : Nat := 0
  planeB : Bool := false
  stamp : Stamp := 0#32
  prio : Nat := 0
  indices : List Nat := []
  base : Nat := 0
  fill : Word := 0#32
  k : Nat := 0
  started : Bool := false
  out : List Word := []
  mask : Nat := 0
  ready : Bool := false
  deriving DecidableEq, Repr

/-- What a motif knows of one TID: the execution it works on, executions ended (R169), its close (R137), the mask of motifs it sent
tokens to, whether it opened the TID, whether its log is complete (R178), whether the commit notice came (R144), one more than the execution in
which a store of the TID found the store buffer full (R139, R149; 0: none), and one more than that of which its router discarded a token (R234). -/
structure Part where
  exec : Nat := 0
  ended : Nat := 0
  closed : Bool := false
  sent : Nat := 0
  opener : Bool := false
  unlogged : Bool := false
  committed : Bool := false
  cls : Nat := 0
  overEx : Nat := 0
  lostEx : Nat := 0
  deriving DecidableEq, Repr

/-- A lane mismatch waiting for its report (R169): position, slot, TID, execution, stamp, and whether it was a memory request. -/
structure Mism where
  pos : Nat := 0
  slot : Nat := 0
  tid : Nat := 0
  exec : Nat := 0
  stamp : Stamp := 0#32
  mem : Bool := false
  deriving DecidableEq, Repr

/-- A close report on its way out of the motif (R137, R138). -/
structure CloseRep where
  tid : Nat := 0
  exec : Nat := 0
  formed : Bool := false
  deriving DecidableEq, Repr

/-- A bank power transition in progress (R113): bank, the state it goes to, whether it is zero-filled on
the way (it leaves OFF), and the elapsed time at which it is done. -/
structure BankTr where
  bank : Nat := 0
  target : Nat := 0
  zeroFill : Bool := false
  due : Nat := 0
  deriving DecidableEq, Repr

/-- A remap in progress (R184): the position, the spare, the TID whose abort marked the cell (0 once it has returned), and the elapsed time at which
it began. -/
structure Remap where
  pos : Nat := 0
  spare : Nat := 0
  tid : Nat := 0
  since : Nat := 0
  deriving DecidableEq, Repr

/-- A motif's configuration mirror (R275): what its context stores, lookup tables and pattern tables were loaded with. -/
structure Mirror where
  ctx : SMap (BitVec 128) := []
  lut : SMap (List (Nat × Byte)) := []
  patA : SMap Nat := []
  patB : SMap Nat := []
  deriving DecidableEq, Repr

/-- One motif (Table 3.1); `serving` are the replay decisions that the replay service has read and not yet requested (R321), `mirror` the configuration
mirror, `remaps` the remaps under way (R184), `streaming` the replay tokens for which the buffer of source 18 has no room yet (R85, R180); `absent` marks a
motif that is unavailable (R189); `lenA`, `lenB` are the pattern table lengths (0x3200 + m:12, :13), `bankWaits` the cycles that a request for a bank has
waited (R109). Its counters and settings are the entries of 0x3200 + m. -/
structure Motif where
  cells : SMap Cell := []
  slots : SMap Slot := []
  patA : SMap Nat := []
  patB : SMap Nat := []
  outs : SMap (List OutTok) := []
  scratch : Mem := []
  ecc : SMap Nat := []
  bankTr : List BankTr := []
  sb : List SbEntry := []
  log : List LogRec := []
  logNext : Nat := 1
  gathers : List Gather := []
  pool : List Nat := []
  parts : SMap Part := []
  mism : List Mism := []
  closes : List CloseRep := []
  shuttleIn : List Token := []
  mismBy : List (Nat × Nat) := []
  mismAt : List (Nat × Nat) := []
  bankErrs : List (Nat × Nat) := []
  replays : List Nat := []
  decided : List Nat := []
  serving : List Nat := []
  mirror : Mirror := {}
  remaps : List Remap := []
  streaming : List OutTok := []
  suspectTid : List (Nat × Nat) := []
  bankWaits : SMap Nat := []
  offline : Bool := false
  absent : Bool := false
  fullStore : Bool := false
  lenA : Nat := 0
  lenB : Nat := 0
  constA : Word := 0#32
  constB : Word := 0#32
  sbOver : Bool := false
  deriving DecidableEq, Repr

/-! ## Transactions and the selvedge (R130 to R166) -/

/-- The states of Table 4.3. -/
inductive TxState where
  | opened | executing | checked | committed | aborted | released
  deriving DecidableEq, Repr

/-- Why a transaction aborted (Table 11.4 and R447): none, lane mismatch, other device fault, program fault code, cascade, deadline. -/
inductive Cause where
  | none | mismatch | device | program (code : Nat) | cascade | deadline
  deriving DecidableEq, Repr

/-- One transaction record (R134, R139). -/
structure Txn where
  state : TxState := .opened
  cls : Nat := 0
  stamp : Stamp := 0#32
  release : Stamp := 0#32
  planeB : Bool := false
  parent : Nat := 0
  exec : Nat := 0
  opener : Nat := 0
  members : Nat := 0
  part : Nat := 0
  closed : Nat := 0
  cause : Cause := .none
  noReplay : Bool := false
  silent : Bool := false
  releasedAt : Nat := 0
  deriving DecidableEq, Repr

/-- One selvedge queue entry (R154, R158). -/
structure Entry where
  tid : Nat := 0
  cls : Nat := 0
  stamp : Stamp := 0#32
  release : Stamp := 0#32
  words : List Word := []
  prio : Nat := 0
  planeB : Bool := false
  committed : Bool := false
  old : Bool := false
  stream : Nat := 0
  deriving DecidableEq, Repr

/-- A port that is sending: busy, and the entries that wait for it to end (R160). -/
structure PortLine where
  busy : Bool := false
  waiting : List Entry := []
  deriving DecidableEq, Repr

/-- The selvedge controller. -/
structure Selvedge where
  txns : SMap Txn := []
  queues : SMap (List Entry) := []
  lines : SMap PortLine := []
  lastOut : SMap (List Word) := []
  safe : SMap (List Word) := []
  recheck : List Nat := []
  inject : List Entry := []
  deriving DecidableEq, Repr

/-! ## Network and memory (R207 to R251) -/

/-- One packet (Table 6.2): `stream` is the unresolved destination of a token, `rx`, `ry` the router it is at,
`inPort` the input port it came by, `reStream` the stream of a FORWARD token on its way to the re-entry queue, `worm` the buffers that hold its flits, the
front one first, with how many stand in each (R220). -/
structure Packet where
  typ : Nat := 0
  resp : Bool := false
  src : Nat := 0
  dx : Nat := 0
  dy : Nat := 0
  edge : Bool := false
  endpoint : Nat := 0
  urgency : Nat := 0
  len : Nat := 0
  tid : Nat := 0
  exec : Nat := 0
  planeB : Bool := false
  words : Nat := 0
  aux : Nat := 0
  fend : Bool := true
  tstamp : Word := 0#32
  istamp : Stamp := 0#32
  data : List Word := []
  old : Bool := false
  stream : Option Nat := none
  look : Nat := 0
  rx : Nat := 0
  ry : Nat := 0
  inPort : Nat := 0
  vc : Nat := 0
  waited : Nat := 0
  timer : Nat := 0
  rtt : Nat := 0
  reStream : Nat := 0
  worm : List (Nat × Nat) := []
  deriving DecidableEq, Repr

/-- One initiator's source side (R209, R234, R235): packets waiting to be injected, the router's route cache (most recent first),
a pending refill, the stream of an unfinished frame with the route entry it holds, and requests awaiting a response (stamp of injection). -/
structure Source where
  queue : List Packet := []
  cache : List (Nat × Nat) := []
  refill : Option Nat := none
  frame : Option (Nat × Nat) := none
  outstanding : Nat := 0
  deriving DecidableEq, Repr

/-- A stream queue's descriptor (Table 6.12), the slots from HEAD on that it spans, the highest COUNT, and those of its slots whose token a sweep has
discarded; its slots stand in memory from BASE on (R239). -/
structure StreamQ where
  base : Nat := 0
  slots : Nat := 0
  head : Nat := 0
  count : Nat := 0
  peak : Nat := 0
  gone : List Nat := []
  deriving DecidableEq, Repr

/-- One hoop (R9, R240, R242): its store, and the cycles its clock had counted at the elapsed time `cycAt`, when its frequency last changed (R107). -/
structure Hoop where
  mem : Mem := []
  ecc : SMap Nat := []
  bankTr : List BankTr := []
  cyc : Nat := 0
  cycAt : Nat := 0
  deriving DecidableEq, Repr

/-- The network: packets inside it in order of arrival at the router they are at, packets delivered and waiting to be taken by their
endpoint, the least-recently-granted order of each router's inputs, CRC error bookkeeping per link,
pending invalidations (stream and path of the write), and for each route entry the planes that declared it (bit 0 A, bit 1 B; R280). -/
structure Network where
  flying : List Packet := []
  inbox : List Packet := []
  sources : SMap Source := []
  grants : SMap Nat := []
  grantSeq : Nat := 0
  retries : SMap Nat := []
  epochErrs : SMap Nat := []
  edgeFailed : SMap Nat := []
  master : SMap Nat := []
  queues : SMap StreamQ := []
  hoops : SMap Hoop := []
  invalidating : List (Nat × Nat) := []
  owlMax : SMap Nat := []
  epochPackets : SMap Nat := []
  epochBytes : SMap Nat := []
  crossing : SMap (List Packet) := []
  declared : SMap Nat := []
  deriving DecidableEq, Repr

/-- The DRAM controller (R243 to R248, R196, R197). -/
structure Dram where
  mem : Mem := []
  lost : SMap Nat := []
  rows : List Packet := []
  retired : SMap Nat := []
  copying : List (Nat × Nat) := []
  pageErrs : List (Nat × Nat) := []
  regions : List (Nat × Nat) := []
  mirrorLost : SMap Nat := []
  rawMiB : Nat := 0
  rate : Nat := 0
  ranks : Nat := 0
  deriving DecidableEq, Repr

/-! ## Dictionary, EtherCAT and CANopen (R339 to R390) -/

/-- One answer of the dictionary: abort code 0 is success. -/
structure SdoAnswer where
  abort : Nat := 0
  data : List Byte := []
  deriving DecidableEq, Repr

/-- One path's SDO service (R350): a request still being served (`busy`), a segmented transfer in progress and the last answer. -/
structure SdoPath where
  busy : Bool := false
  active : Bool := false
  write : Bool := false
  ix : Nat := 0
  sub : Nat := 0
  complete : Bool := false
  declared : Nat := 0
  buf : List Byte := []
  toggle : Bool := false
  lastT : Nat := 0
  answer : SdoAnswer := {}
  answered : Bool := false
  since : Nat := 0
  deriving DecidableEq, Repr

/-- What an FoE answer says when it refuses (R268, R271, R372, R486, R489); `refused` is an error the spec does not name. -/
inductive FoeError where
  | notFound
  | illegal
  | accessDenied
  | refused
  deriving DecidableEq, Repr

/-- FoE (R271, R372, R485): a transfer in progress, its file (0 recipe slot, 1 shadow, 2 region, 3 firmware), direction and slot, the last error, the
packet last acknowledged or sent, the data packet sent, what is still to be read, firmware bytes that fill no block yet, and an
acknowledgement withheld until the verdict (R489). -/
structure Foe where
  active : Bool := false
  file : Nat := 0
  reading : Bool := false
  slot : Nat := 0
  error : Option FoeError := none
  packet : Nat := 0
  data : List Byte := []
  rest : List Byte := []
  short : Bool := false
  withheld : Bool := false
  deriving DecidableEq, Repr

/-- One FoE packet: the file (0 recipe slot, 1 shadow, 2 region, 3 firmware), of a read, the slot, the password, a request, and its bytes. -/
structure FoePacket where
  file : Nat := 0
  read : Bool := false
  slot : Nat := 0
  pw : Nat := 0
  req : Bool := false
  data : List Byte := []
  deriving DecidableEq, Repr

/-- The last message written for the MainDevice (R371): an EMCY message, an SDO or information answer, or an FoE answer. -/
inductive Mail where
  | none
  | emcy (bytes : List Byte)
  | sdo (answer : SdoAnswer)
  | foe (error : Option FoeError) (packet : Nat) (data : List Byte)
  deriving DecidableEq, Repr

/-- The sync managers before the MainDevice sets them (Table 9.8). -/
def defaultSms : List SyncMan :=
  [{ out := true, start := 0x1000, len := 512 }, { start := 0x1200, len := 512 }, { out := true, buffers := 3, start := 0x1400 }, { buffers := 3, start := 0x2000 }]

/-- The EtherCAT block (R357 to R370): sync managers, SYNC cycles and synchronisation (0 free run, 1 SM2, 2 DC SYNC0) as the MainDevice set them, SM2 and
SM3 buffers, the input bytes that the last passing output frame carried, an output frame accepted since the unit was last in another state than SAFEOP or OP and when the last one came (elapsed), SM2 watchdog period, a capture of the TxPDO buffer
that is due and when the last one was (elapsed), an upward state request and an FoE packet that wait for the MP (R380, R383), receive error counters and links of the two ports, the port on which the last frame in error
went on with whether its FCS was valid (R360), SII, the SM1 buffer filled with an EMCY or a repeated message, the last message written, the latch registers, FoE. -/
structure Ecat where
  sms : List SyncMan := defaultSms
  sync0 : Nat := 0
  sync1 : Nat := 0
  syncMode : Nat := 0
  outBuf : List Byte := []
  inBuf : List Byte := []
  passed : List Byte := []
  outSeen : Bool := false
  outAt : Nat := 0
  watchdog : Nat := 100000000
  captureDue : Bool := false
  capturedAt : Nat := 0
  alWait : Option AlRequest := none
  rxErrors : SMap Nat := []
  links : SMap Nat := []
  sii : Mem := []
  mailbox : Bool := false
  lastMail : Mail := .none
  foeWait : Option FoePacket := none
  forwarded : Option (Nat × Bool) := none
  latches : SMap Nat := []
  foe : Foe := {}
  deriving DecidableEq, Repr

/-- A request taken from an SDO frame of the CAN bus (R376) whose answer frame is still to be sent: upload initiate 0, download initiate 1, download segment 2,
upload segment 3; index, subindex and toggle bit. -/
structure CanAsk where
  op : Nat := 0
  ix : Nat := 0
  sub : Nat := 0
  toggle : Bool := false
  deriving DecidableEq, Repr

/-- The CAN FD controller (R376 to R379): the settings in force, released frames handed to the bus, the last frame of a CANopen service, and when the next
heartbeat and the next EMCY frame may go (elapsed), and the SDO frame that waits for its answer. -/
structure Can where
  asked : Option CanAsk := none
  node : Nat := 0
  nominal : Nat := 500
  dataRate : Nat := 2000
  fd : Bool := false
  tx : List (List Word) := []
  last : List Word := []
  hbNext : Nat := 0
  emcyNext : Nat := 0
  replaced : List (Nat × Nat × Nat) := []
  deriving DecidableEq, Repr

/-- One class declaration of one plane's class table (Table 4.1, R282, R206). -/
structure ClassDecl where
  declared : Bool := false
  members : Nat := 0
  ports : Nat := 0
  offset : Nat := 0
  minOffset : Nat := 0
  budget : Nat := 0
  proved : Nat := 0
  action : Nat := 0
  execBound : Nat := 0
  deriving DecidableEq, Repr
/-! ## Fizhaig cores (R294 to R338) -/

/-- What a bank waits for: nothing, the answer to a load in the NoC window (kind 0 LW, 1 LH, 2 LHU, 3 LB, 4 LBU, 5 FLW; register, address,
request tag), the write acknowledgements of a FENCE, or the event of a WAIT. -/
inductive FWait where
  | none
  | load (kind rd addr tag : Nat)
  | fence
  | event
  | ended
  deriving DecidableEq, Repr

/-- One register bank of a core (R299, Table 8.3): g1 to g31, pc, STATUS fields, save-stack registers; whether a CTX context is resident in
it and since when (R304); what it waits for; the address of a store error not yet taken and of a load that was refused
while another bank was current (R298). -/
structure FBank where
  regs : SMap Word := []
  pc : Word := 0#32
  sys : Bool := true
  ie : Bool := false
  level : Nat := 0
  prev : Nat := 0
  planeB : Bool := false
  dirty : Nat := 0
  impPend : Bool := false
  impAddr : Word := 0#32
  busErr : Option Nat := none
  ssp : Word := 0#32
  ssb : Word := 0#32
  ssl : Word := 0#32
  resident : Bool := false
  age : Nat := 0
  wait : FWait := .none
  deriving DecidableEq, Repr

/-- One Fizhaig core (Tables 8.1, 8.14). `state` is 0 RUNNING, 1 HALTED, 2 STOPPED, 3 NO_PROGRAM; bank 16 is the recovery bank; `other` is the
current bank of the half that issues in the other cycles from T_c to T_r (R331). On the MP `dmem` is the MP memory. -/
structure Core where
  started : Bool := false
  state : Nat := 0
  cur : Nat := 0
  other : Option Nat := none
  banks : SMap FBank := []
  imem : Mem := []
  dmem : Mem := []
  priv : Mem := []
  fregs : SMap Word := []
  fcsr : Nat := 0
  fpown : Nat := 1
  corecfg : Nat := 0
  vbaseA : Nat := 0
  vbaseB : Nat := 0
  rvec : Nat := 0
  splo : Nat := 0
  sphi : Nat := 0
  savbase : Nat := 0
  savlim : Nat := 0
  double : Bool := false
  lastResorts : Nat := 0
  ibindL : Nat := 0
  ibindH : Nat := 0
  ipend : Nat := 0
  ilvl : Nat := 0
  nocbase : Nat := 0
  nocurg : Nat := 4
  exccount : Nat := 0
  latch : SMap Nat := []
  pullDone : Bool := false
  pullStatus : Nat := 0
  pullBuf : List Word := []
  txctl : Nat := 0
  txstamp : Nat := 0
  txWords : List Word := []
  rxStarted : Bool := false
  logaddr : Nat := 0
  doorbell : Nat := 0
  writes : List (Nat × Nat) := []
  held : Nat := 0
  seq : Nat := 0
  ageSeq : Nat := 0
  popped : Nat := 0
  wdog : Nat := 0
  warned : Bool := false
  entryA : Bool := false
  entryB : Bool := false
  deriving DecidableEq, Repr

/-! ## Ports (R391 to R434) -/

/-- A pulse train in progress (R402): the elapsed time of its first edge, and the number of the next edge (2k: pulse level, 2k + 1: opposite). -/
structure Pulse where
  start : Nat := 0
  next : Nat := 0
  deriving DecidableEq, Repr

/-- One TIO pin (R396 to R403): the level at the ball, an edge still in the deglitch stage, the level after it, the previous selected edge,
the last token's instant, folded edges, since when the active level holds, the stuck mark, the token held for the bank's queue, the
driven level, the running pulse train and the MODE in force (R394). Instants are elapsed nanoseconds with the stamp where one is needed. -/
structure TioPin where
  raw : Bool := false
  edge : Option (Nat × Stamp) := none
  level : Bool := false
  lastSel : Option (Nat × Stamp) := none
  lastTok : Option Nat := none
  folded : Nat := 0
  foldFirst : Stamp := 0#32
  foldLast : Stamp := 0#32
  activeAt : Option (Nat × Stamp) := none
  stuck : Bool := false
  held : Option Token := none
  stuckTok : Option Token := none
  out : Bool := false
  pulse : Option Pulse := none
  mode : Nat := 0
  deriving DecidableEq, Repr

/-- One serial channel (R404 to R413): DE raised ahead of a release (with the release stamp), the channel's frame count, the elapsed time at which
the last bit sent ends, the bytes last sent, the elapsed time at which DE rose for it, the drive command that awaits a response (header byte, SEQ), a read in progress (elapsed time and
stamp of the first falling edge, and whether it is a poll), and whether a release of its instant has joined it. -/
structure Serial where
  lead : Option Stamp := none
  seq : Nat := 0
  endAt : Nat := 0
  tx : List Byte := []
  cmd : Option (Nat × Nat) := none
  reading : Option (Nat × Stamp × Bool) := none
  shared : Bool := false
  deAt : Nat := 0
  deriving DecidableEq, Repr

/-- One camera frame (R417, R418): its serial number in the model, frame number, Sf, lines received, status, and whether its end came. -/
structure CamFrame where
  id : Nat := 0
  number : Nat := 0
  sf : Stamp := 0#32
  lines : Nat := 0
  status : Nat := 0
  ended : Bool := false
  deriving DecidableEq, Repr

/-- One line in the line buffer (R416): its frame, bytes, and the tags of its WRITE packets not yet acknowledged. -/
structure CamLine where
  frame : Nat := 0
  bytes : Nat := 0
  tags : List Nat := []
  deriving DecidableEq, Repr

/-- An I2C transfer that runs (R419): the path of its request, address, bytes to be written, count of bytes to be read, rate in kHz, and since when
(elapsed). -/
structure I2c where
  path : Nat := 0
  addr : Nat := 0
  tx : List Nat := []
  reads : Nat := 0
  rate : Nat := 0
  since : Nat := 0
  deriving DecidableEq, Repr

/-- One camera port (R414 to R419). `line` is the stamp of a line start whose long packet has not come; `i2c` a transfer that runs, with its
path and read count. -/
structure Camera where
  frames : List CamFrame := []
  nextId : Nat := 0
  line : Option Stamp := none
  lines : List CamLine := []
  seq : Nat := 0
  i2c : Option I2c := none
  result : List Byte := []
  deriving DecidableEq, Repr

/-- One token of a link frame: head stamp and data words. -/
structure LinkTok where
  stamp : Stamp := 0#32
  words : List Word := []
  deriving DecidableEq, Repr

/-- A link frame that was sent (R420, R422): kind 0 TOKEN, 1 VOTE, 2 RELAY; its SEQ, stream or vote fields, tokens or relayed bytes, whether it
is a relay's last, when it was last sent (elapsed), and how often it was resent. -/
structure LinkFrame where
  kind : Nat := 0
  seq : Nat := 0
  stream : Nat := 0
  coId : Nat := 0
  coState : Nat := 0
  reason : Nat := 0
  toks : List LinkTok := []
  bytes : List Byte := []
  last : Bool := false
  sentAt : Nat := 0
  rounds : Nat := 0
  deriving DecidableEq, Repr

/-- One bride link (R420 to R426): next SEQ to send, next SEQ expected, frames not acknowledged (oldest first), frames that wait for a place
among them, the last sending, the last VOTE, relayed bytes received. -/
structure Link where
  txSeq : Nat := 0
  rxSeq : Nat := 0
  unacked : List LinkFrame := []
  queued : List LinkFrame := []
  sentAt : Nat := 0
  votedAt : Nat := 0
  relayIn : List Byte := []
  deriving DecidableEq, Repr

/-- One packet of a boundary queue (R427): priority, words, and the stamp at which it became complete. -/
structure BqPacket where
  prio : Nat := 0
  words : List Word := []
  stamp : Stamp := 0#32
  deriving DecidableEq, Repr

/-- The ports: TIO pins, the port-block queues of the three TIO banks (oldest first), serial channels, cameras, links, boundary queues, the latch
pins of Table 10.2 kind 0x06, and CO_ID and state of the last VOTE received (R290). -/
structure Ports where
  tio : SMap TioPin := []
  tioBanks : SMap (List (Nat × Token)) := []
  serial : SMap Serial := []
  cams : SMap Camera := []
  links : SMap Link := []
  bqs : SMap (List BqPacket) := []
  latchPins : Nat := 0xFFFF
  partner : Option (Nat × Nat) := none
  deriving DecidableEq, Repr

/-! ## Requests, boot flash, start, secure island, loading, power (R252 to R293, R350, R466 to R505, R514 to R519) -/

/-- One SDO request (R347, R348, R350, R371): path; kind (0 read, 1 write, 2 complete-access read, 3 complete-access write, 4 segment, 5 block
transfer, 6 object list, 7 object description, 8 entry description); index, subindex (of a segment: 2 × toggle + last; of an object list: its
type), data, what the stored words a read meets show (0 clean, 1 corrected, 2 uncorrectable; R192), and the size stated: by a write's initiate where the bytes sent with it are not that many, by a read of the config slave port where it is
not 0. -/
structure SdoReq where
  path : Nat := 0
  kind : Nat := 0
  ix : Nat := 0
  sub : Nat := 0
  data : List Byte := []
  stated : Option Nat := none
  ecc : Nat := 0
  deriving DecidableEq, Repr

/-- One request of the secure range (R385): when its answer is due, since when its mailbox exchange runs, and the island's answer. -/
structure SecureDue where
  req : SdoReq := {}
  due : Nat := 0
  at' : Nat := 0
  answer : Option SdoAnswer := none
  deriving DecidableEq, Repr

/-- One entry of the start record (R468, R471): ATTEMPTS, FAILS, RESULT, VARIANT, duration in ms, CODE. -/
structure StepEntry where
  attempts : Nat := 0
  fails : Nat := 0
  result : Nat := 0
  variant : Nat := 0
  ms : Nat := 0
  code : Nat := 0
  deriving DecidableEq, Repr

/-- A copy of the saved set in boot flash (R354): sequence number, values by dictionary key, and the CRC-32C over both. -/
structure SavedCopy where
  seq : Nat := 0
  values : SMap Nat := []
  crc : Nat := 0
  deriving DecidableEq, Repr

/-- A copy of the persistent records in boot flash (R356, R440). -/
structure PersistCopy where
  seq : Nat := 0
  marks : SMap Nat := []
  retired : SMap Nat := []
  locked : Bool := false
  lockedAt : Nat := 0
  sii : Mem := []
  opTime : Nat := 0
  deriving DecidableEq, Repr

/-- A copy of the start record in boot flash (R473). -/
structure MirrorCopy where
  seq : Nat := 0
  entries : SMap StepEntry := []
  cycles : Nat := 0
  deriving DecidableEq, Repr

/-- The sampler copy in boot flash (R445): its T and records. -/
structure SampCopy where
  t : Nat := 0
  recs : List SamplerRec := []
  deriving DecidableEq, Repr

/-- What the completion of a flash job makes valid. -/
inductive FlashDone where
  | none
  | recipe (slot : Nat) (image : List Byte)
  | erased (slot : Nat)
  | saved (copy : Nat) (c : SavedCopy)
  | persist (copy : Nat)
  | mirror (copy : Nat)
  | sampler (c : SampCopy)
  | fwHead (head : List Byte)
  | fwBlock (n : Nat) (block : List Byte)
  | fwMark
  deriving DecidableEq, Repr

/-- One job of the flash manager: a sector erase (with the PURPOSE of Table 12.6) or a page program. -/
structure FlashJob where
  erase : Bool := false
  addr : Nat := 0
  purpose : Nat := 0
  effect : FlashDone := .none
  deriving DecidableEq, Repr

/-- One intent entry (Table 12.6): SEQ, ADDRESS, PURPOSE, and whether DONE was programmed. -/
structure Intent where
  seq : Nat := 0
  addr : Nat := 0
  purpose : Nat := 0
  done : Bool := false
  deriving DecidableEq, Repr

/-- Boot flash and its manager (R478 to R483): size, jobs (the first one runs while `running`), the active intent sector's number, sequence and
entries, the next entry number, the recipe slots, the copies, and the firmware slot (header page, blocks, verified mark). `orphan` marks a running
erase that the firmware before an MP restart had started (R483). -/
structure Flash where
  mib : Nat := 0
  jobs : List FlashJob := []
  running : Bool := false
  orphan : Bool := false
  active : Nat := 0
  sectorSeq : Nat := 0
  intents : List Intent := []
  nextSeq : Nat := 0
  recipes : SMap (List Byte) := []
  saved : SMap SavedCopy := []
  persist : SMap PersistCopy := []
  mirror : SMap MirrorCopy := []
  samp : Option SampCopy := none
  fwHead : List Byte := []
  fwBlocks : SMap (List Byte) := []
  fwMark : Bool := false
  deriving DecidableEq, Repr

/-- The start (R466 to R477): the device is held in reset; the running step (0–9, 13 for S9C, 10–12) and when it began; the record in PD0 retention;
release of reset; what the board showed; S11 waits for a device load; DONE released; the fixed fabric start instant; the record in retention is valid; a fresh record
was started; erases that S6 did again; a requested reset; the phase of an orderly stop and when its wait ends; QSPI_CLK in MHz and its sampling
delay step (R523); since when PE0_REFCLK and PE1_REFCLK are driven (R527). -/
structure Start where
  held : Bool := true
  step : Nat := 0
  stepAt : Nat := 0
  relAt : Nat := 0
  record : SMap StepEntry := []
  board : Board := {}
  waitLoad : Bool := false
  done : Bool := false
  fabricAt : Option Nat := none
  retained : Bool := false
  lost : Bool := false
  redone : List Intent := []
  resetAt : Option Nat := none
  stopPhase : Nat := 0
  stopAt : Nat := 0
  qspiMHz : Nat := 25
  qspiDelay : Nat := 0
  peRef : Option Nat := none
  deriving DecidableEq, Repr

/-- The fuses (R495 to R498, R505): life-cycle state, serial number, public-key hash slots 0–3, the unit-key seed (0: none programmed), and whether the
first S6 in RETURN has run. -/
structure Fuses where
  lc : Nat := 0
  serial : Nat := 0
  hashes : SMap (List Byte) := []
  seed : Nat := 0
  destroyed : Bool := false
  returned : Bool := false
  deriving DecidableEq, Repr

/-- The secure island (R249, R250, R499, R500, R505): it holds its keys; what it has loaded from the fuses, the unit key's seed, the public-key hashes and
the working copy of the life-cycle state; the elapsed time at which a wipe ends; it was wiped by TAMPER_N; the AUTH value; the attestation made for the last
challenge; the security sampler with its counters. -/
structure Island where
  keys : Bool := false
  seed : Nat := 0
  hashes : SMap (List Byte) := []
  lc : Nat := 0
  wipeEnd : Option Nat := none
  tampered : Bool := false
  auth : List Byte := []
  attest : List Byte := []
  recs : List SamplerRec := []
  nextSeq : Nat := 0
  readSeq : Nat := 0
  stopped : Bool := false
  lost : Nat := 0
  lossFirstT : Nat := 0
  lossLast : Stamp := 0#32
  deriving DecidableEq, Repr

/-- A firmware update (R484 to R494): header and CRC table of BEGIN, the first half of a block, blocks accepted, blocks in the loader's buffer, the
signature block with its arrival, the last program's completion, and transfer by FoE. -/
structure Update where
  head : List Byte := []
  half : Option (List Byte) := none
  got : Nat := 0
  buffered : Nat := 0
  sig : Option (List Byte) := none
  sigAt : Nat := 0
  progAt : Nat := 0
  foe : Bool := false
  deriving DecidableEq, Repr

/-- An image transfer or load (R259, R262, R268, R276): in progress; kind 0 device load, 1 region reload, 2 shadow-plane load, 3 recipe store;
recipe slot; where it comes from (0 config slave port, 1 recipe store, 2 FoE); announced length; bytes received; every byte has come. `region` is
an accepted region reload that waits for its classes to drain, `locking` one that was written and has not left reset. -/
structure Load where
  active : Bool := false
  kind : Nat := 0
  slot : Nat := 0
  source : Nat := 0
  total : Nat := 0
  buf : List Byte := []
  whole : Bool := false
  region : Option (List Byte) := none
  locking : Option (List Byte) := none
  deriving DecidableEq, Repr

/-- The config slave port (R260 to R266): the width fixed since reset (CFG_D[3:2]), the last accepted SEQ, whether an SDO response waits to be read, and the last response frame sent. -/
structure CfgPort where
  width : Option Nat := none
  lastSeq : Option Nat := none
  sdoReady : Bool := false
  out : List Byte := []
  deriving DecidableEq, Repr

/-- Power domains (R514 to R519): bit n of `on` says that PDn is ON; a switch in progress with its target, path and beginning; the highest temperatures
since reset of TJ and the four hoops (none before the first measurement). -/
structure Power where
  on : Nat := 1
  switch : Option (Nat × Bool × Nat × Nat) := none
  peaks : List Int := []
  deriving DecidableEq, Repr

/-- Upkeep that runs by elapsed time: when the last window of the MP's load ended, whether it was at 90 % or more, consecutive windows below 70 % (R381),
when the last second of operating time was counted (R440), and the longest SDO response time in µs (0x2010:05). -/
structure Upkeep where
  windowAt : Nat := 0
  high : Bool := false
  low : Nat := 0
  secondAt : Nat := 0
  latency : Nat := 0
  deriving DecidableEq, Repr

/-- The block. -/
structure State where
  pending : List Instr := []
  od : SMap Nat := []
  snap : SMap Nat := []
  free : Nat := 0
  time : TimeBase := {}
  timersA : SMap Timer := []
  timersB : SMap Timer := []
  alarms : SMap AlarmLatch := []
  conds : Nat := 0
  sampler : Sampler := {}
  coeEmcy : List Emcy := []
  canEmcy : List Emcy := []
  journal : Journal := {}
  trace : Trace := {}
  motifs : SMap Motif := []
  selvedge : Selvedge := {}
  net : Network := {}
  dram : Dram := {}
  sdo : SMap SdoPath := []
  secure : List SecureDue := []
  ecat : Ecat := {}
  can : Can := {}
  classes : SMap ClassDecl := []
  ingress : SMap Nat := []
  fabric : Bool := false
  marks : SMap Nat := []
  cores : SMap Core := []
  ports : Ports := {}
  sdoWait : List SdoReq := []
  sdoRun : Option Nat := none
  flash : Flash := {}
  start : Start := {}
  fuses : Fuses := {}
  island : Island := {}
  update : Update := {}
  load : Load := {}
  cfg : CfgPort := {}
  power : Power := {}
  vols : SMap DriveVol := []
  upkeep : Upkeep := {}
  deriving DecidableEq, Repr

/-- The block right after reset (R346): the dictionary at its default values, every store empty, T at 0 (R11), no command waiting. -/
def State.reset : State := { od := odReset }

end Sys2Proof.Machine
end

