-- ==== Sys2Proof/Machine/Ops.lean ====
section
/-! DEFINITION. The named operations over the block's state: sparse maps, byte memories, dictionary entries, counters,
device time, free values and answers of the dictionary. -/

namespace Sys2Proof.Machine
open Sys2Proof

/-! ## Sparse maps -/

/-- What the map holds at key `k`; `d` where nothing is listed. -/
def mget {α : Type} (d : α) : SMap α → Nat → α
  | [], _ => d
  | (j, v) :: r, k => if j = k then v else mget d r k

/-- The map without key `k`. -/
def mdel {α : Type} (m : SMap α) (k : Nat) : SMap α := m.filter (fun e => e.1 != k)

/-- The map with `v` listed at key `k`, in key order. -/
def mput {α : Type} : SMap α → Nat → α → SMap α
  | [], k, v => [(k, v)]
  | (j, w) :: r, k, v =>
    if k < j then (k, v) :: (j, w) :: r
    else if k = j then (k, v) :: r
    else (j, w) :: mput r k v

/-- The map with value `v` at key `k`; the value an unlisted key reads as removes the entry. -/
def mset {α : Type} [DecidableEq α] (d : α) (m : SMap α) (k : Nat) (v : α) : SMap α :=
  if v = d then mdel m k else mput m k v

/-- Keys strictly rise from above `lo`. -/
def keysRise {α : Type} : Option Nat → SMap α → Bool
  | _, [] => true
  | lo, (j, _) :: r => (match lo with | none => true | some l => decide (l < j)) && keysRise (some j) r

/-- The canonical form: keys strictly rise and no entry equals what an unlisted key reads as. -/
def mwf {α : Type} [DecidableEq α] (d : α) (m : SMap α) : Bool :=
  keysRise none m && m.all (fun e => decide (e.2 ≠ d))

/-- The canonical form of a byte memory (an unlisted byte reads 0). -/
def Memory.wf (m : Mem) : Bool := mwf (0#8) m

/-! ## Byte memories -/

/-- One byte. -/
def memByte (m : Mem) (a : Nat) : Byte := mget 0#8 m a

/-- One byte written. -/
def memSetByte (m : Mem) (a : Nat) (b : Byte) : Mem := mset 0#8 m a b

/-- Bytes written at consecutive addresses. -/
def memWrite (m : Mem) (a : Nat) : List Byte → Mem
  | [] => m
  | b :: bs => memWrite (memSetByte m a b) (a + 1) bs

/-- `n` bytes read from consecutive addresses. -/
def memRead (m : Mem) (a : Nat) : Nat → List Byte
  | 0 => []
  | n + 1 => memByte m a :: memRead m (a + 1) n

/-- The little-endian 32-bit word at an address. -/
def memWord (m : Mem) (a : Nat) : Word := BitVec.ofNat 32 (leNat (memRead m a 4))

/-- A little-endian 32-bit word written. -/
def memSetWord (m : Mem) (a : Nat) (w : Word) : Mem := memWrite m a (leBytes w.toNat 4)

/-- Addresses lo … hi − 1 zeroed. -/
def memZero (m : Mem) (lo hi : Nat) : Mem := m.filter (fun e => decide (e.1 < lo) || decide (hi ≤ e.1))

/-! ## The dictionary's stored values -/

/-- The key of a subindex of an object that has no selector. -/
def odKey (ix sub : Nat) : Nat := ix * 256 + sub

/-- The key of a subindex of one instance behind a selector. -/
def odKeyI (inst ix sub : Nat) : Nat := 2 ^ 24 * inst + ix * 256 + sub

/-- The stored value of a subindex. -/
def State.obj (s : State) (ix sub : Nat) : Nat := mget 0 s.od (odKey ix sub)

/-- The state with a subindex at value `v`. -/
def State.setObj (s : State) (ix sub v : Nat) : State := { s with od := mset 0 s.od (odKey ix sub) v }

/-- The stored value of a subindex of instance `i` behind a selector. -/
def State.obji (s : State) (i ix sub : Nat) : Nat := mget 0 s.od (odKeyI i ix sub)

/-- The state with a subindex of instance `i` at value `v`. -/
def State.setObji (s : State) (i ix sub v : Nat) : State := { s with od := mset 0 s.od (odKeyI i ix sub) v }

/-- A sum held at its maximum `2^w − 1` (saturating counters). -/
def satAdd (w a b : Nat) : Nat := if a + b < 2 ^ w then a + b else 2 ^ w - 1

/-- A 32-bit counter advanced by `n`, saturating. -/
def State.addObj (s : State) (ix sub n : Nat) : State := s.setObj ix sub (satAdd 32 (s.obj ix sub) n)

/-- A 32-bit counter advanced by 1, saturating. -/
def State.bump (s : State) (ix sub : Nat) : State := s.addObj ix sub 1

/-- A saturating counter of `w` bits advanced by `n`. -/
def State.addObjW (s : State) (w ix sub n : Nat) : State := s.setObj ix sub (satAdd w (s.obj ix sub) n)

/-- A 32-bit counter of instance `i` advanced by 1, saturating. -/
def State.bumpi (s : State) (i ix sub : Nat) : State := s.setObji i ix sub (satAdd 32 (s.obji i ix sub) 1)

/-- A peak raised to `v` if `v` is higher. -/
def State.peak (s : State) (ix sub v : Nat) : State := if s.obj ix sub < v then s.setObj ix sub v else s

/-- A subindex bit set or cleared. -/
def State.setObjBit (s : State) (ix sub i : Nat) (b : Bool) : State := s.setObj ix sub (withBit (s.obj ix sub) i b)

/-! ## Time and free values -/

/-- T (R11). -/
def State.t (s : State) : Nat := s.time.t

/-- T[31:0] (R24). -/
def State.now (s : State) : Stamp := stampOf s.time.t

/-- T `ago` nanoseconds before the present, steps since then undone: an instant keeps the T it had (R29). -/
def State.tAgo (s : State) (ago : Nat) : Nat :=
  match s.time.steps.reverse.find? (fun e => decide (s.time.clk < e.1 + ago)) with
  | none => (s.time.t + 2 ^ 64 - ago % 2 ^ 64) % 2 ^ 64
  | some e => (e.2 + 2 ^ 64 - (ago - (s.time.clk - e.1)) % 2 ^ 64) % 2 ^ 64

/-- The stamp of an event `ago` nanoseconds before the present (R24, R29). -/
def State.stampAgo (s : State) (ago : Nat) : Stamp := stampOf (s.tAgo ago)

/-- A fresh free value's number, and the state in which it is used up. -/
def State.fresh (s : State) : Nat × State := (s.free, { s with free := s.free + 1 })

/-! ## Parts of the state -/

/-- Motif `m`. -/
def State.motif (s : State) (m : Nat) : Motif := mget {} s.motifs m

/-- The state with motif `m` replaced. -/
def State.setMotif (s : State) (m : Nat) (x : Motif) : State := { s with motifs := mset {} s.motifs m x }

/-- The cell at position `p`. -/
def Motif.cell (x : Motif) (p : Nat) : Cell := mget {} x.cells p

/-- The motif with the cell at position `p` replaced. -/
def Motif.setCell (x : Motif) (p : Nat) (c : Cell) : Motif := { x with cells := mset {} x.cells p c }

/-- Slot `k` of position `p`. -/
def Motif.slot (x : Motif) (p k : Nat) : Slot := mget {} x.slots (16 * p + k)

/-- The motif with slot `k` of position `p` replaced. -/
def Motif.setSlot (x : Motif) (p k : Nat) (v : Slot) : Motif := { x with slots := mset {} x.slots (16 * p + k) v }

/-- What motif `x` knows of TID `t`. -/
def Motif.part (x : Motif) (t : Nat) : Part := mget {} x.parts t

/-- The motif with its knowledge of TID `t` replaced. -/
def Motif.setPart (x : Motif) (t : Nat) (v : Part) : Motif := { x with parts := mset {} x.parts t v }

/-- The output buffer of switch source `k` (0–15 cells, 16 router, 17 gather engine, 18 shuttle). -/
def Motif.out (x : Motif) (k : Nat) : List OutTok := mget [] x.outs k

/-- The motif with a source's output buffer replaced. -/
def Motif.setOut (x : Motif) (k : Nat) (v : List OutTok) : Motif := { x with outs := mset [] x.outs k v }

/-- A token appended to a source's output buffer at elapsed time `clk`. -/
def Motif.pushOut (x : Motif) (clk k : Nat) (o : OutTok) : Motif := x.setOut k (x.out k ++ [{ o with since := clk }])

/-- The transaction record of TID `t`, if one is allocated. -/
def State.txn? (s : State) (t : Nat) : Option Txn := (s.selvedge.txns.find? (fun e => e.1 == t)).map (·.2)

/-- The state with the record of TID `t` replaced. -/
def State.setTxn (s : State) (t : Nat) (x : Txn) : State :=
  { s with selvedge := { s.selvedge with txns := mput s.selvedge.txns t x } }

/-- The queue of a selvedge port. -/
def State.queue (s : State) (p : Nat) : List Entry := mget [] s.selvedge.queues p

/-- The state with a port's queue replaced. -/
def State.setQueue (s : State) (p : Nat) (q : List Entry) : State :=
  { s with selvedge := { s.selvedge with queues := mset [] s.selvedge.queues p q } }

/-- The sending line of a selvedge port. -/
def State.line (s : State) (p : Nat) : PortLine := mget {} s.selvedge.lines p

/-- The state with a port's sending line replaced. -/
def State.setLine (s : State) (p : Nat) (x : PortLine) : State :=
  { s with selvedge := { s.selvedge with lines := mset {} s.selvedge.lines p x } }

/-- The source side of initiator `i`. -/
def State.source (s : State) (i : Nat) : Source := mget {} s.net.sources i

/-- The state with an initiator's source side replaced. -/
def State.setSource (s : State) (i : Nat) (x : Source) : State :=
  { s with net := { s.net with sources := mset {} s.net.sources i x } }

/-- Hoop h: its store and its cycle count. -/
def State.hoop (s : State) (h : Nat) : Hoop := mget {} s.net.hoops h

/-- The state with hoop h replaced. -/
def State.setHoop (s : State) (h : Nat) (x : Hoop) : State := { s with net := { s.net with hoops := mset {} s.net.hoops h x } }

/-- A packet appended to an initiator's source queue. -/
def State.submit (s : State) (i : Nat) (p : Packet) : State :=
  s.setSource i { s.source i with queue := (s.source i).queue ++ [{ p with src := i }] }

/-- The SDO service of a path (0 EtherCAT, 1 CANopen, 2 config slave port). -/
def State.path (s : State) (p : Nat) : SdoPath := mget {} s.sdo p

/-- The state with a path's SDO service replaced. -/
def State.setPath (s : State) (p : Nat) (x : SdoPath) : State := { s with sdo := mset {} s.sdo p x }

/-! ## Fizhaig cores: shuttles 0–63, hoop supervisors 64–67, the MP 68 -/

/-- The core is the MP. -/
def isMp (c : Nat) : Bool := c == 68
/-- The core is a shuttle. -/
def isShuttle (c : Nat) : Bool := decide (c < 64)

/-- Base of the private RAM in every core's address space (Table 8.2). -/
def privBase : Nat := 0x200000
/-- Base of the ROM. -/
def romBase : Nat := 0x300000
/-- Bytes of private RAM (Table 8.1). -/
def privSize (c : Nat) : Nat := if c < 64 then 512 else if c < 68 then 2048 else 4096
/-- Bytes of ROM (Table 8.1). -/
def romSize (c : Nat) : Nat := if c < 68 then 1024 else 4096
/-- Bytes of one plane half of instruction memory. -/
def imemHalf (c : Nat) : Nat := if c < 64 then 0x2000 else 0x8000
/-- Bytes of one plane half of data memory. -/
def dmemHalf (c : Nat) : Nat := if c < 64 then 0x1000 else 0x8000

/-- Default interrupt levels of Table 8.7 as ILVL0 and the words after it, 4 bits a source. -/
def ilvlReset (c : Nat) : Nat := if c < 64 then 0 else if c < 68 then 0x23467 else 0x5689ABCDEEF

/-- The recovery bank at reset: its sp at private RAM base + 0xC0 (R326). -/
def recoveryBank : FBank := { regs := [(30, BitVec.ofNat 32 (privBase + 0xC0))] }

/-- A core at reset (Table 8.14). -/
def Core.atReset (c : Nat) : Core :=
  { vbaseB := if isMp c then 0 else imemHalf c, rvec := romBase, splo := privBase + 0xC0, sphi := privBase + privSize c,
    ilvl := ilvlReset c, banks := [(16, recoveryBank)] }

/-- Core c. -/
def State.core (s : State) (c : Nat) : Core := mget (Core.atReset c) s.cores c

/-- The state with core c replaced. -/
def State.setCore (s : State) (c : Nat) (x : Core) : State := { s with cores := mset (Core.atReset c) s.cores c x }

/-- Bank k. -/
def Core.bank (x : Core) (k : Nat) : FBank := mget {} x.banks k

/-- Bank bound to a level in a pair of IBIND words (R317). -/
def boundBank (lo hi l : Nat) : Nat := if l < 8 then field lo (4 * l + 3) (4 * l) else field hi (4 * (l - 8) + 3) (4 * (l - 8))

/-- What an image gives a core beside its memories (Table 8.14): SAVBASE, SAVLIM and FPMODE. No format of the image names a field for them, so that each is a
free value; FPMODE is one of R310's, 0 on a shuttle (log 134). -/
def imageRegs (c : Nat) (s : State) : State :=
  let (f, s1) := s.fresh
  let (g, s2) := s1.fresh
  let (h, s3) := s2.fresh
  s3.setCore c { s3.core c with
    savbase := (Config.freeWord f).toNat, savlim := (Config.freeWord g).toNat, corecfg := if isShuttle c then 0 else (Config.freeWord h).toNat % 3 }

/-- Source n of Table 8.7 becomes pending at core c. -/
def State.interrupt (s : State) (c n : Nat) : State :=
  let x := s.core c
  s.setCore c { x with ipend := withBit x.ipend n true }

/-- The pending condition of source n at core c has ended (R317). -/
def State.uninterrupt (s : State) (c n : Nat) : State :=
  let x := s.core c
  s.setCore c { x with ipend := withBit x.ipend n false }

/-! ## Answers of the dictionary -/

/-- A request's answer: abort code 0 for success, the data read, the state after it, and whether the service port times it (R385). -/
structure Reply where
  abort : Nat := 0
  data : List Byte := []
  state : State
  timed : Bool := false
  deriving DecidableEq, Repr

/-- A refused request: it changes nothing (R347). -/
def Reply.refuse (s : State) (code : Nat) : Reply := { abort := code, state := s }

/-- An accepted write. -/
def Reply.ok (s : State) : Reply := { state := s }

/-- value range exceeded (Table 9.4). -/
def abortValue : Nat := 0x06090030
/-- not possible in the present device state. -/
def abortState : Nat := 0x08000022
/-- attempt to write a read-only object. -/
def abortReadOnly : Nat := 0x06010002
/-- attempt to read a write-only object. -/
def abortWriteOnly : Nat := 0x06010001
/-- length too high. -/
def abortLong : Nat := 0x06070012
/-- length too low. -/
def abortShort : Nat := 0x06070013
/-- length of service parameter does not match. -/
def abortLength : Nat := 0x06070010
/-- object does not exist. -/
def abortNoObject : Nat := 0x06020000
/-- subindex does not exist. -/
def abortNoSub : Nat := 0x06090011
/-- unsupported access to an object. -/
def abortAccess : Nat := 0x06010000
/-- object cannot be mapped to the PDO. -/
def abortNoMap : Nat := 0x06040041
/-- mapped objects exceed the PDO length. -/
def abortMapLen : Nat := 0x06040042
/-- general parameter incompatibility. -/
def abortParam : Nat := 0x06040043
/-- general error: the secure range (R384). -/
def abortSecure : Nat := 0x08000000
/-- toggle bit not alternated. -/
def abortToggle : Nat := 0x05030000
/-- SDO protocol timed out. -/
def abortTimeout : Nat := 0x05040000
/-- command specifier not valid. -/
def abortCommand : Nat := 0x05040001
/-- out of memory: the size limit of R348. -/
def abortMemory : Nat := 0x05040005
/-- access failed due to a hardware error: a stored value read with an uncorrectable ECC error. -/
def abortHardware : Nat := 0x06060000

/-- The length of sync manager k, with the defaults of Table 9.8 until the MainDevice sets it. -/
def smLen (s : State) (k : Nat) : Nat := match s.ecat.sms[k]? with | some m => m.len | none => if k < 2 then 512 else 0

/-- How many of an answer's bytes its first response carries (R348, R371): on CANopen up to 4, or none of a longer value; on CoE the SM1 size less
16 bytes; on the config slave port all. -/
def firstPart (s : State) (path n : Nat) : Nat := if path = 0 then smLen s 1 - 16 else if path = 1 then (if n ≤ 4 then n else 0) else n

/-- How many bytes a segment carries: 7 on CANopen, on CoE the SM1 size less 9 bytes. -/
def segPart (s : State) (path : Nat) : Nat := if path = 0 then smLen s 1 - 9 else 7

/-- The response time of a request of a path shown in 0x2010:05, µs: what it has waited since it arrived, and what the MP takes to serve it, which is open
up to R382's 20 ms. The service port of the path times a response of the secure range (R385). -/
def latencyShown (path : Nat) (timed : Bool) (s : State) : State :=
  let waited := if (s.path path).busy then (s.time.clk - (s.path path).since) / 1000 else 0
  let (f, s1) := s.fresh
  let us := waited + (if timed then 0 else (Config.freeWord f).toNat % (20001 - min waited 20000))
  { s1 with upkeep := { s1.upkeep with latency := max s1.upkeep.latency us } }

/-- A frame of a CANopen service: 8 data bytes, in FD format with bit-rate switch where FD is enabled (R378). -/
def serviceFrame (s : State) (ident : Nat) (bs : List Byte) : List Word :=
  BitVec.ofNat 32 (ident + (if s.can.fd then 3 * 2 ^ 30 else 0)) :: 8#32 :: leWords ((bs ++ List.replicate 8 0#8).take 8)

/-- A service frame sent without error. -/
def serviceSend (ident : Nat) (bs : List Byte) (s : State) : State :=
  ({ s with can := { s.can with last := serviceFrame s ident bs } } : State).bump 0x4600 9

/-- The controller is bus-off. -/
def busOff (s : State) : Bool := s.obj 0x4600 7 == 2

/-- The data bytes of an SDO answer frame (R376, R371): abort, upload initiate, download initiate, download segment, upload segment. -/
def sdoFrame (k : CanAsk) (a : SdoAnswer) (p : SdoPath) : List Byte :=
  let mux := leBytes k.ix 2 ++ leBytes k.sub 1
  let t := 16 * b2n k.toggle
  let n := a.data.length
  if a.abort ≠ 0 then leBytes 0x80 1 ++ mux ++ leBytes a.abort 4
  else if k.op = 0 then
    (if p.active ∨ n = 0 then leBytes 0x41 1 ++ mux ++ leBytes p.declared 4 else leBytes (0x43 + 4 * (4 - n)) 1 ++ mux ++ a.data)
  else if k.op = 1 then leBytes 0x60 1 ++ mux
  else if k.op = 2 then leBytes (0x20 + t) 1
  else leBytes (t + 2 * (7 - n) + b2n (!p.active)) 1 ++ a.data

/-- The answer to a request that came in an SDO frame goes out in a frame with identifier 0x580 + NODE_ID (R376), unless the controller is bus-off. -/
def canAnswer (a : SdoAnswer) (s : State) : State :=
  match s.can.asked with
  | none => s
  | some k =>
    let s1 : State := { s with can := { s.can with asked := none } }
    if busOff s then s1 else serviceSend (0x580 + s.can.node) (sdoFrame k a (s.path 1)) s1

/-- An answer leaves by its path: on CoE it is the message that a repeat request asks for (R371), on CANopen it goes out in a frame. -/
def answerSent (path : Nat) (a : SdoAnswer) (s : State) : State :=
  if path = 0 then { s with ecat := { s.ecat with lastMail := .sdo a } } else if path = 1 then canAnswer a s else s

/-- A request answered on a path with a first response of at most `cap` bytes: the answer is kept for the path, and SDO_SERVED (0x2010:06) and, for
an abort, SDO_ABORTS (:07) count, but for a core's own access (R295). What does not fit waits for segments. -/
def answeredPart (path cap : Nat) (r : Reply) : State :=
  let s1 := if path < 3 then (latencyShown path r.timed r.state).bump 0x2010 0x06 else r.state
  let s2 := if r.abort = 0 ∨ 3 ≤ path then s1 else s1.bump 0x2010 0x07
  let s3 := s2.setPath path
    { s2.path path with
      busy := false, answer := { abort := r.abort, data := r.data.take cap }, answered := true, active := decide (cap < r.data.length),
      write := false, declared := r.data.length, buf := r.data.drop cap, toggle := false, lastT := s2.time.clk }
  answerSent path { abort := r.abort, data := r.data.take cap }
    { s3 with sdoRun := if s3.sdoRun = some path then none else s3.sdoRun,
              cfg := if path = 2 then { s3.cfg with sdoReady := true } else s3.cfg }

/-- A request answered on a path. -/
def answered (path : Nat) (r : Reply) : State := answeredPart path (firstPart r.state path r.data.length) r

/-! ## Requests (R347, R350, R366, R474) -/

/-- The MP restarts: service requests wait (R329). -/
def mpDown (s : State) : Bool := s.obj 0x3030 1 != 0

/-- The MP takes up a new request at once: it is not in a restart, and no request of level 3 is in execution (R350, R380, R383). -/
def mpFree (s : State) : Bool := s.sdoRun.isNone && !mpDown s

/-- The device serves only the service set: START_HOLD (R474) or loader mode (R475). -/
def serviceOnly (s : State) : Bool := s.obj 0x2001 0 == 3 || s.obj 0x2000 0x0D == 1

/-- The EtherCAT PHYs have passed calibration, in S9 or by the loader (R474, R475). -/
def holdEcat (s : State) : Bool :=
  decide (10 ≤ s.start.step) || s.obj 0x2000 0x0D == 1 || (s.start.step == 9 && s.obj 0x2000 0x0C == 0x0A)

/-- The config slave port is served, and CFG_RDY may be high: from the end of S7 on, in loader mode, and in a START_HOLD but one at S0 or S1
(Table 12.2, R474). -/
def cfgServed (s : State) : Bool :=
  decide (7 < s.start.step) || s.obj 0x2000 0x0D == 1 || (s.obj 0x2001 0 == 3 && decide (2 ≤ s.start.step))

/-- A core runs its program. -/
def coreRuns (s : State) (c : Nat) : Bool := (s.core c).started && (s.core c).state == 0

/-- A path carries SDO: EtherCAT in PREOP, SAFEOP and OP (R371); CANopen in PRE-OPERATIONAL and OPERATIONAL (R377); the config slave port (R266). In
START_HOLD it is the config slave port, and EtherCAT in INIT, PREOP and BOOT; a hold at S0 or S1 serves nothing (R474). Path 3 is the MP's own access to the
dictionary, 4 + h that of supervisor h (R295). -/
def pathServes (s : State) (p : Nat) : Bool :=
  let e := s.obj 0x2010 0x0A
  if 3 ≤ p then decide (p < 8) && coreRuns s (if p = 3 then 68 else 60 + p)
  else if s.obj 0x2001 0 = 3 then
    decide (2 ≤ s.start.step) && (p == 2 || (p == 0 && holdEcat s && (e == 1 || e == 2 || e == 3)))
  else if p = 0 then e == 2 || e == 4 || e == 8
  else if p = 1 then s.can.node != 0 && (s.obj 0x4600 6 == 127 || s.obj 0x4600 6 == 5)
  else p == 2 && cfgServed s

/-- The service set of R474, reduced in SCRAPPED by R496. -/
def inServiceSet (s : State) (ix : Nat) : Bool :=
  if s.fuses.lc = 4 then ix == 0x1018 || ix == 0x2000 || ix == 0x2001 || ix == 0x5C00
  else (decide (0x1000 ≤ ix) && decide (ix ≤ 0x1018)) || [0x2000, 0x2001, 0x2011, 0x5000, 0x5100, 0x5800].contains ix ||
    (decide (0x5C00 ≤ ix) && decide (ix ≤ 0x5FFF))

/-- The entries of an assignment object (0x1C12 or 0x1C13) as mapped (index, subindex, bits), in mapping order (R362, R363). -/
def mappedEntries (s : State) (assign : Nat) : List (Nat × Nat × Nat) :=
  (List.range (s.obj assign 0)).flatMap (fun i =>
    let m := s.obj assign (i + 1)
    (List.range (s.obj m 0)).map (fun j =>
      let e := s.obj m (j + 1)
      (e / 65536, e / 256 % 256, e % 256)))

/-- The subindex is mapped, with this size in bytes, into an assigned RxPDO while the unit is in SAFEOP or OP (R366). -/
def rxLocked (s : State) (ix sub n : Nat) : Bool :=
  (s.obj 0x2010 0x0A == 4 || s.obj 0x2010 0x0A == 8) && (mappedEntries s 0x1C12).any (fun e => e.1 == ix && e.2.1 == sub && e.2.2 == 8 * n)

/-- Abort code of the device-wide state conditions on a request; 0 when it may go on (R366, R474, R475). A write of `n` bytes of another length than
the subindex's is left to the length check, which comes first (R347). -/
def sdoGate (s : State) (q : SdoReq) : Nat :=
  if serviceOnly s && !inServiceSet s q.ix then abortState
  else if q.kind = 1 ∧ rxLocked s q.ix q.sub q.data.length then abortState
  else 0

/-- A request has arrived: MP interrupt source 4 (Table 8.7). -/
def mailArrives (s : State) : State := s.interrupt 68 4

/-- The state in which a request of a path is taken up: only SDO requests raise the interrupt source. -/
def arrives (path : Nat) (s : State) : State := if path < 3 then mailArrives s else s

/-- A request that cannot be served yet waits its turn (R329, R350). -/
def sdoQueue (q : SdoReq) (s : State) : State :=
  { (s.setPath q.path { s.path q.path with busy := true, since := s.time.clk, answered := false }) with sdoWait := s.sdoWait ++ [q] }

/-- A path takes a request: none of it is under way, and on the config slave port the previous response has been read (R266). -/
def pathFree (s : State) (p : Nat) : Bool := !(s.path p).busy && !(p == 2 && s.cfg.sdoReady)

/-- A request that its path does not take: on the config slave port it is discarded as a frame error (R266, 0x3601:09). -/
def sdoTurned (p : Nat) (s : State) : State := if p = 2 ∧ pathServes s 2 ∧ !pathFree s 2 then s.bump 0x3601 9 else s

/-- A request of a path: it waits while another is in execution or the MP restarts (R329, R350), is refused by the device-wide conditions, or is
performed by `f` and answered. A path that is busy, or that carries no SDO now, brings no request. -/
def sdoServe (q : SdoReq) (f : State → Reply) (s : State) : State :=
  if !pathServes s q.path || !pathFree s q.path then sdoTurned q.path s
  else if s.sdoRun.isSome || mpDown s then
    sdoQueue q (mailArrives s)
  else if sdoGate s q ≠ 0 then answered q.path (.refuse (mailArrives s) (sdoGate s q))
  else answered q.path (f (mailArrives s))

/-- A write request of `size` bytes for a subindex. A value that does not fit them is no request of this kind. -/
def sdoWrite (path ix sub size v : Nat) (f : State → Reply) (s : State) : State :=
  if 2 ^ (8 * size) ≤ v then s else sdoServe { path := path, kind := 1, ix := ix, sub := sub, data := leBytes v size } f s

/-- A request whose action completes later: it is in execution until it is answered (R350). -/
def sdoStart (path : Nat) (s : State) : State :=
  let p := s.path path
  { (s.setPath path { p with busy := true, since := if p.busy then p.since else s.time.clk, answered := false }) with sdoRun := some path }

/-- A request whose action may complete later: `f` answers a refusal at once (`some code`), or gives the state in which the action runs. -/
def sdoAct (q : SdoReq) (f : State → Sum Nat State) (s : State) : State :=
  if !pathServes s q.path || !pathFree s q.path then sdoTurned q.path s
  else if s.sdoRun.isSome || mpDown s then
    sdoQueue q (mailArrives s)
  else if sdoGate s q ≠ 0 then answered q.path (.refuse (mailArrives s) (sdoGate s q))
  else match f (mailArrives s) with
    | .inl code => answered q.path (.refuse (mailArrives s) code)
    | .inr s1 => sdoStart q.path s1

/-- The same for a value of `size` bytes. -/
def sdoAction (path ix sub size v : Nat) (f : State → Sum Nat State) (s : State) : State :=
  if 2 ^ (8 * size) ≤ v then s else sdoAct { path := path, kind := 1, ix := ix, sub := sub, data := leBytes v size } f s

/-- The outcome every meaning ends in: the next state. -/
def done (s : State) : Host.Outcome State Fault Refusal := .next s

/-- First element that satisfies a test, with the list without it. -/
def takeFirst {α : Type} (p : α → Bool) : List α → Option (α × List α)
  | [] => none
  | x :: xs =>
    if p x then some (x, xs)
    else match takeFirst p xs with
      | none => none
      | some (y, ys) => some (y, x :: ys)

end Sys2Proof.Machine
end

