-- ==== Sys2Proof/Machine/LinkOps.lean ====
section
/-! DEFINITION. Bride links (R420 to R426): frames as 64-bit blocks, sequence numbers, acknowledgements, votes. What a received frame does to the
unit stands in Link.lean. -/

namespace Sys2Proof.Machine
open Sys2Proof

/-- Link l. -/
def State.link (s : State) (l : Nat) : Link := mget {} s.ports.links l

/-- The state with link l replaced. -/
def State.setLink (s : State) (l : Nat) (x : Link) : State :=
  { s with ports := { s.ports with links := mset {} s.ports.links l x } }

/-- The link is UP (0x4300:04). -/
def linkUp (s : State) (l : Nat) : Bool := s.obji l 0x4300 4 == 2

/-- 64-bit blocks of a byte string, the last one padded with zeros. -/
def byteBlocks : Nat → List Byte → List Nat
  | 0, _ => []
  | _ + 1, [] => []
  | f + 1, bs => leNat (bs.take 8) :: byteBlocks f (bs.drop 8)

/-- Data blocks of a token: even word in [31:0]. -/
def wordBlocks : List Word → List Nat
  | [] => []
  | [a] => [a.toNat]
  | a :: b :: r => (a.toNat + 2 ^ 32 * b.toNat) :: wordBlocks r

/-- The blocks of one token of a TOKEN frame (Table 10.10). -/
def LinkTok.blocks (t : LinkTok) : List Nat := (t.words.length + 2 ^ 32 * t.stamp.toNat) :: wordBlocks t.words

/-- The header block of a frame (Table 10.10). -/
def LinkFrame.header (f : LinkFrame) : Nat :=
  if f.kind = 0 then (f.toks.length - 1) * 2 ^ 4 + f.stream * 2 ^ 8 + 2 ^ 24 * f.seq
  else if f.kind = 1 then 1 + 2 ^ 24 * f.seq + 2 ^ 32 * f.coId + 2 ^ 48 * f.coState + 2 ^ 51 * f.reason
  else 2 + b2n f.last * 2 ^ 4 + (f.bytes.length + 7) / 8 * 2 ^ 8 + 2 ^ 24 * f.seq

/-- The trailer block: CRC-32C over all earlier blocks, and ACK (R420). -/
def linkTrailer (bs : List Nat) (ack : Nat) : Nat := crc32c (bs.flatMap (fun b => leBytes b 8)) + 2 ^ 32 * ack

/-- A frame as the lanes carry it. -/
def LinkFrame.blocks (f : LinkFrame) (ack : Nat) : List Nat :=
  let bs := f.header :: (if f.kind = 0 then f.toks.flatMap LinkTok.blocks else byteBlocks f.bytes.length f.bytes)
  bs ++ [linkTrailer bs ack]

/-- An IDLE frame of unit u (Table 10.10). -/
def idleBlocks (u ack : Nat) : List Nat :=
  let h := 3 + u * 2 ^ 8
  [h, linkTrailer [h] ack]

/-- The ACK a link sends: the SEQ of the last frame accepted (R422). -/
def Link.ack (x : Link) : Nat := (x.rxSeq + 255) % 256

/-- A frame's first sending: it takes the next SEQ, is kept until acknowledged, and is counted. -/
def linkTransmit (l : Nat) (f : LinkFrame) (s : State) : State :=
  let x := s.link l
  let f1 : LinkFrame := { f with seq := x.txSeq, sentAt := s.time.clk, rounds := 0 }
  (s.setLink l { x with txSeq := (x.txSeq + 1) % 256, unacked := x.unacked ++ [f1], sentAt := s.time.clk }).bumpi l 0x4300 6

/-- A frame to be sent on an UP link: at most 64 are unacknowledged, later ones wait (R422). -/
def linkSend (l : Nat) (f : LinkFrame) (s : State) : State :=
  let x := s.link l
  if x.queued.isEmpty && decide (x.unacked.length < 64) then linkTransmit l f s else s.setLink l { x with queued := x.queued ++ [f] }

/-- Frames that waited are sent while there is a place. -/
def linkDrain (l : Nat) (s : State) : State :=
  let x := s.link l
  let n := 64 - x.unacked.length
  (x.queued.take n).foldl (fun st f => linkTransmit l f st) (s.setLink l { x with queued := x.queued.drop n })

/-- The frames up to the one of SEQ `ack` are acknowledged. -/
def dropAcked (ack : Nat) (fs : List LinkFrame) : List LinkFrame :=
  if fs.any (fun f => f.seq == ack) then (fs.dropWhile (fun f => f.seq != ack)).drop 1 else fs

/-- An ACK received (R422). -/
def linkAcked (l ack : Nat) (s : State) : State :=
  let x := s.link l
  linkDrain l (s.setLink l { x with unacked := dropAcked ack x.unacked })

/-- A link becomes DOWN (R424): every frame not acknowledged is lost and counted, and so are the released entries that wait on its port (R160). -/
def linkFall (l : Nat) (s : State) : State :=
  let x := s.link l
  let n := x.unacked.length + x.queued.length + (s.line (40 + l)).waiting.length
  let s1 := (s.setLine (40 + l) {}).setLink l { x with unacked := [], queued := [], relayIn := [] }
  (s1.setObji l 0x4300 0x0B (satAdd 32 (s1.obji l 0x4300 0x0B) n)).setObji l 0x4300 4 0

/-- Training starts on a link that is enabled and powered (R424); otherwise the link stays DOWN. -/
def linkTrain (l : Nat) (s : State) : State :=
  s.setObji l 0x4300 4 (if s.obji l 0x4300 2 = 1 ∧ bit s.power.on 16 then 1 else 0)

/-- The VOTE frame of this unit. -/
def voteFrame (s : State) : LinkFrame :=
  { kind := 1, coId := s.obj 0x3600 2, coState := s.obj 0x3600 1, reason := s.obj 0x3600 0x0A }

/-- A VOTE frame on every UP link (R425). -/
def sendVotes (s : State) : State :=
  [0, 1].foldl (fun st l =>
    if linkUp st l then linkSend l (voteFrame st) (st.setLink l { st.link l with votedAt := st.time.clk }) else st) s

end Sys2Proof.Machine
end

