-- ==== Sys2Proof/Machine/JournalOps.lean ====
section
/-! DEFINITION. The journal volume and its NVMe commands (R452 to R463): block layout, segments, placing and issuing of writes. Trace blocks
and journal blocks share it. -/

namespace Sys2Proof.Machine
open Sys2Proof

/-! ## Byte forms -/

/-- One journal record as bytes (Table 11.8). -/
def JRec.bytes (r : JRec) : List Byte :=
  let n := 32 + (r.payload.length + 3) / 4 * 4
  leBytes n 2 ++ leBytes r.typ 2 ++ leBytes r.source 2 ++ leBytes (b2n r.late + 2 * b2n r.planeB) 2 ++ leBytes r.seq 8 ++ leBytes r.t 8 ++
    leBytes r.k 8 ++ r.payload ++ List.replicate (n - 32 - r.payload.length) 0#8

/-- One block of the volume (Table 11.7). -/
def blockBytes (kind segSeq first block volume : Nat) (content : List Byte) : List Byte :=
  let body := leBytes 0x4C4E524A 4 ++ leBytes kind 2 ++ leBytes (32 + content.length) 2 ++ leBytes segSeq 8 ++ leBytes first 8 ++
    leBytes block 4 ++ leBytes volume 4 ++ content ++ List.replicate (4060 - content.length) 0#8
  body ++ leBytes (crc32c body) 4

/-- One trace entry as bytes: tag and record (R449). -/
def TraceEntry.bytes (e : TraceEntry) : List Byte := leBytes (e.kind + e.source * 16) 4 ++ leBytes e.record 16

/-- The superblock (R455, KIND 3): the mode, two drives, S, TRACE_SEGMENTS and the formatting T. -/
def superBytes (mode segs traceSegs t volume : Nat) : List Byte :=
  blockBytes 3 0 0 0 volume (leBytes mode 1 ++ leBytes 2 1 ++ leBytes 0 2 ++ leBytes segs 4 ++ leBytes traceSegs 4 ++ leBytes t 8)

/-- One index entry (R455). -/
def JSeg.entry (g : JSeg) : List Byte := leBytes g.segSeq 8 ++ leBytes g.firstK 8 ++ leBytes g.lastK 8 ++ leBytes g.count 4 ++ leBytes g.area 2 ++ leBytes 0 2

/-- Index block b of segment 0 (R455, KIND 4): entry i describes volume segment i + 1, 126 of them in a block from block 1 on. -/
def indexBytes (index : SMap JSeg) (b volume : Nat) : List Byte :=
  blockBytes 4 0 0 b volume ((List.range 126).flatMap (fun i => (mget ({} : JSeg) index (126 * (b - 1) + i + 1)).entry))

/-- The block of a trace block's bytes in a segment of the trace area: what the ring holds, under the segment's header. -/
def traceBytes (ring : List Byte) (segSeq block volume : Nat) : List Byte :=
  blockBytes 1 segSeq (leNat ((ring.drop 16).take 8)) block volume ((ring.drop 32).take (leNat ((ring.drop 6).take 2) - 32))

/-- The trace block as 4 KiB (Table 11.7, KIND 1). -/
def TraceBlock.bytes (b : TraceBlock) (segSeq block volume : Nat) : List Byte :=
  blockBytes 1 segSeq b.epoch block volume (b.entries.flatMap TraceEntry.bytes)

/-! ## Segments (R453, R454) -/

/-- The volume is striped (0x5300:02). -/
def striped (s : State) : Bool := s.obj 0x5300 2 == 1

/-- The state with its journal engine replaced. -/
def State.setJournal (s : State) (j : Journal) : State := { s with journal := j }

/-- Data segments of a volume of mode `mode` on drives of `n` segments. -/
def dataSegs (mode n : Nat) : Nat := if mode = 1 then 2 * (n - 1) else n - 1

/-- The drives a volume segment lies on that are not lost. -/
def segDrives (s : State) (n : Nat) : List Nat :=
  (if striped s then [(n - 1) % 2] else [0, 1]).filter (fun d => !s.journal.lost.contains d)

/-- The drive segment of a volume segment. -/
def driveSeg (s : State) (n : Nat) : Nat := if striped s then 1 + (n - 1) / 2 else n

/-- What drive d holds. -/
def State.vol (s : State) (d : Nat) : DriveVol := mget {} s.vols d

/-- The state with a drive's contents replaced. -/
def State.setVol (s : State) (d : Nat) (v : DriveVol) : State := { s with vols := mset {} s.vols d v }

/-- The segments of an area in use (1 journal, 2 trace). -/
def areaSegs (j : Journal) (area : Nat) : List JSeg := (j.segs.map (·.2)).filter (fun g => g.area == area)

/-- The segment with the lowest segment sequence number. -/
def oldestSeg : List JSeg → Option JSeg
  | [] => none
  | g :: gs => match oldestSeg gs with
    | none => some g
    | some h => if g.segSeq ≤ h.segSeq then some g else some h

/-- The segment written next in an area: the lowest number not in use, else the one with the lowest SEGSEQ (R454). -/
def nextSegment (s : State) (area : Nat) : Nat :=
  let j := s.journal
  let used := areaSegs j area
  let lo := if area = 2 then 1 else j.traceSegs + 1
  let hi := if area = 2 then j.traceSegs else j.volSegs
  let tops := used.map (·.number)
  let next := tops.foldl max (lo - 1) + 1
  if next ≤ hi then next
  else match (if used.length < hi + 1 - lo then (List.range used.length).find? (fun i => !tops.contains (lo + i)) else none) with
    | some i => lo + i
    | none => ((oldestSeg used).map (·.number)).getD lo

/-- 0x5300:06, :07 and :11 as the index gives them. -/
def journalShow (s : State) : State :=
  let gs := areaSegs s.journal 1
  let s1 := s.setObj 0x5300 6 ((gs.map (·.segSeq)).foldl max 0)
  let s2 := s1.setObj 0x5300 7 (((oldestSeg gs).map (·.segSeq)).getD 0)
  let held := gs.filter (fun g => g.count != 0)
  s2.setObj 0x5300 0x11 (((oldestSeg held).map (·.firstSeq)).getD 0)

/-! ## Commands (R461) -/

/-- Block b of drive segment g lies at LBA (16,384 g + b) × 4,096 / LBA size (R453); the index and the superblock lie in segment 0 (R455). -/
def nvLba (s : State) (c : NvCmd) : Nat :=
  let g := if c.kind = 3 ∨ c.kind = 4 then 0 else driveSeg s c.seg
  (16384 * g + c.block) * 4096 / s.obji c.drive 0x4400 6

/-- Commands of drive d that could be issued next: those of the highest priority that waits. -/
def nvBest (d : Nat) (ws : List NvCmd) : Option NvCmd :=
  let mine := ws.filter (fun c => c.drive == d)
  [1, 2, 3, 4].findSome? (fun p => mine.find? (fun c => c.prio == p))

/-- Waiting commands of a drive are issued while its queue of depth 64 has room. -/
def nvIssueDrive : Nat → Nat → State → State
  | 0, _, s => s
  | n + 1, d, s =>
    if 64 ≤ (s.journal.flight.filter (fun c => c.drive == d)).length then s
    else match nvBest d s.journal.waiting with
      | none => s
      | some c =>
        nvIssueDrive n d (s.setJournal { s.journal with waiting := s.journal.waiting.erase c, flight := s.journal.flight ++ [{ c with lba := nvLba s c, issued := s.time.clk }] })

/-- Commands issued on both drives. -/
def nvIssue (s : State) : State := nvIssueDrive 64 1 (nvIssueDrive 64 0 s)

/-- A write queued on every drive of its volume segment (index and superblock: on both drives). -/
def nvWrite (c : NvCmd) (s : State) : State :=
  let ds := if c.kind = 3 ∨ c.kind = 4 then [0, 1].filter (fun d => !s.journal.lost.contains d) else segDrives s c.seg
  let j := s.journal
  nvIssue (s.setJournal { j with cmdId := j.cmdId + 1, waiting := j.waiting ++ ds.map (fun d => { c with id := j.cmdId, drive := d }) })

/-- A new segment opened in an area with the next SEGSEQ; its header is block 0 (R454, R455). -/
def openSegment (area : Nat) (s : State) : State :=
  let n := nextSegment s area
  let j := s.journal
  let q := j.segSeq + 1
  let g : JSeg := { number := n, segSeq := q, area := area }
  let j1 : Journal := { j with segSeq := q, segs := mput j.segs n g }
  let j2 : Journal := if area = 2 then { j1 with trSeg := n, trBlock := 1 } else { j1 with jSeg := n, jBlock := 1 }
  let content := leBytes s.t 8 ++ leBytes (if area = 2 then 1 else 0) 1 ++ leBytes (s.obj 0x5300 2) 1
  journalShow (nvWrite { prio := 1, kind := 2, seg := n, block := 0, info := g, bytes := blockBytes 2 q 0 0 (s.obj 0x5300 0x0C) content } (s.setJournal j2))

/-- The index of a drive with the entries that are still to be written to it. -/
def indexAhead (d : Nat) (s : State) : SMap JSeg :=
  ((s.journal.flight ++ s.journal.waiting).filter (fun c => c.kind == 3 && c.drive == d)).foldl (fun m c => mput m c.seg c.info) (s.vol d).index

/-- A segment closes: its index entry is written (R455). -/
def closeSegment (n : Nat) (s : State) : State :=
  let g := mget {} s.journal.segs n
  let d := ([0, 1].find? (fun d => !s.journal.lost.contains d)).getD 0
  let b := 1 + (n - 1) / 126
  nvWrite { prio := 1, kind := 3, seg := n, block := b, info := g, bytes := indexBytes (mput (indexAhead d s) n g) b (s.obj 0x5300 0x0C) } s

/-- The open segment of an area that has a free block, after closing a full one. -/
def roomInSegment (area : Nat) (s : State) : State :=
  let (n, b) := if area = 2 then (s.journal.trSeg, s.journal.trBlock) else (s.journal.jSeg, s.journal.jBlock)
  if n = 0 then openSegment area s else if 16384 ≤ b then openSegment area (closeSegment n s) else s

/-- The bytes of the parts read, in order. -/
def partBytes (m : SMap (List Byte)) : List Byte := m.flatMap (·.2)

/-- A trace block that has been read from the ring is written to the trace area (R450, R461); a volume without a trace area takes none. -/
def traceWrite (b : TraceBlock) (s : State) : State :=
  if s.obj 0x5300 1 ≠ 2 ∨ s.journal.traceSegs = 0 then s
  else
    let s1 := roomInSegment 2 s
    let j := s1.journal
    let g := mget {} j.segs j.trSeg
    let s2 := s1.setJournal { j with trBlock := j.trBlock + 1, segs := mput j.segs j.trSeg { g with count := g.count + b.entries.length } }
    nvWrite { prio := 4, kind := 1, seg := j.trSeg, block := j.trBlock, ring := b.slot, info := mget {} s2.journal.segs j.trSeg, bytes := traceBytes (partBytes b.forNvme) g.segSeq j.trBlock (s.obj 0x5300 0x0C) } s2

/-- A journal block is written with FUA (R460): RECORDS and the index learn of it. -/
def journalBlockWrite (rs : List JRec) (s : State) : State :=
  match rs with
  | [] => s
  | r :: rest =>
    let s1 := roomInSegment 1 s
    let j := s1.journal
    let g := mget {} j.segs j.jSeg
    let ks := rs.map (·.k)
    let g1 : JSeg := { g with count := g.count + rs.length, firstSeq := if g.count = 0 then r.seq else g.firstSeq,
                              firstK := if g.count = 0 then ks.foldl min r.k else ks.foldl min g.firstK, lastK := ks.foldl max g.lastK }
    let s2 := s1.setJournal { j with jBlock := j.jBlock + 1, segs := mput j.segs j.jSeg g1 }
    journalShow (nvWrite { prio := 1, kind := 0, seg := j.jSeg, block := j.jBlock, firstK := r.k, durK := ((rest.getLast?).getD r).k, records := rs.length, info := g1,
                           bytes := blockBytes 0 g.segSeq r.seq j.jBlock (s.obj 0x5300 0x0C) (rs.flatMap JRec.bytes) } s2)

end Sys2Proof.Machine
end

