-- ==== Sys2Proof/Machine/Record.lean ====
section
/-! DEFINITION. The recording paths every family feeds: alarm latches (R435 to R438), emergency messages (R373 to R375), sampler records
(R439 to R446), journal records (R456 to R459) and trace records (R447 to R450). One event can cause others (an alarm writes a
sampler record, a lost sampler record latches an alarm); `emit` handles them in order. -/

namespace Sys2Proof.Machine
open Sys2Proof

/-! ## Alarms: numbers, categories, kinds -/

/-- Alarm categories of Table 9.10. -/
inductive Category where
  | generic | voltage | temperature | hardware | program | communication | time
  deriving DecidableEq, Repr

/-- EMCY error code of a category (Table 9.10). -/
def Category.code : Category → Nat
  | .generic => 0x1000 | .voltage => 0x3000 | .temperature => 0x4000 | .hardware => 0x5000
  | .program => 0x6100 | .communication => 0x8100 | .time => 0xFF00

/-- Bits a category sets in 0x1001 (Table 9.10). -/
def Category.bits : Category → Nat
  | .generic => 0x01 | .voltage => 0x05 | .temperature => 0x09 | .hardware => 0x81
  | .program => 0x81 | .communication => 0x11 | .time => 0x81

/-- Category of an alarm that can be set (Tables 11.2, 12.13, 13.16); `none` for a latch that is never set (R436, R501, R531). -/
def alarmCategory (a : Nat) : Option Category :=
  if a = 0 then none
  else if a = 1 then some .time
  else if a = 2 ∨ a = 24 ∨ a = 25 ∨ a = 28 ∨ a = 33 ∨ a = 35 then some .generic
  else if a = 3 ∨ a = 16 ∨ a = 18 then some .program
  else if a = 26 ∨ a = 27 ∨ (29 ≤ a ∧ a ≤ 32) then some .communication
  else if a ≤ 36 then some .hardware
  else if a ≤ 63 then none
  else if a ≤ 71 then some .voltage
  else if a ≤ 77 then some .temperature
  else if a ≤ 79 then none
  else if a ≤ 89 then some .hardware
  else none

/-- The alarm is a condition alarm (Tables 11.2, 12.13, 13.16). -/
def alarmIsC (a : Nat) : Bool :=
  [1, 5, 7, 11, 12, 13, 14, 15, 19, 21, 22, 28, 31, 33, 34, 64, 65, 66, 67, 68, 70, 71, 72, 73, 74, 76, 77, 80, 81, 85, 89].contains a

/-- KIND of 0x5100:0A: 0 E, 1 C, 2 never set. -/
def alarmKind (a : Nat) : Nat := if (alarmCategory a).isNone then 2 else if alarmIsC a then 1 else 0

/-! ## Byte forms -/

/-- One sampler record as bytes (Table 11.3). -/
def SamplerRec.bytes (r : SamplerRec) : List Byte :=
  let head := leBytes (28 + r.payload.length) 2 ++ leBytes r.typ 2 ++ leBytes r.seq 4 ++ leBytes r.opTime 4 ++ leBytes r.cycle 2
  let body := head ++ leBytes (crc16 head) 2 ++ leBytes r.t 8 ++ r.payload
  body ++ leBytes (crc32c body) 4

/-- Bytes a sampler record takes (R439). -/
def SamplerRec.size (r : SamplerRec) : Nat := 28 + r.payload.length

/-- Bytes the stored records take. -/
def recsSize (rs : List SamplerRec) : Nat := rs.foldl (fun n r => n + r.size) 0

/-- Bytes a journal record takes (Table 11.8: a multiple of 4). -/
def JRec.size (r : JRec) : Nat := 32 + (r.payload.length + 3) / 4 * 4

/-- Bytes the stage holds (R459). -/
def stageSize (rs : List JRec) : Nat := rs.foldl (fun n r => n + r.size) 0

/-- One emergency message as its 8 bytes (R373). -/
def Emcy.bytes (e : Emcy) : List Byte :=
  leBytes e.code 2 ++ leBytes e.reg 1 ++ leBytes e.alarm 1 ++ leBytes e.stamp.toNat 4

/-! ## Events -/

/-- What can happen on the recording paths. -/
inductive Ev where
  | alarm (a t : Nat)
  | record (typ t : Nat) (payload : List Byte)
  | journal (r : JRec)
  deriving DecidableEq, Repr

/-- 0x1001 as the set latches give it (R375). -/
def errorRegister (al : SMap AlarmLatch) : Nat :=
  al.foldl (fun n e => if e.2.set then (match alarmCategory e.1 with | some c => n ||| c.bits | none => n) else n) 0

/-- ALARM_N is low: some set latch is selected in 0x5100:03 or :04 (R438). -/
def alarmLow (s : State) : Bool :=
  s.alarms.any (fun e => e.2.set && (if e.1 < 64 then bit (s.obj 0x5100 3) e.1 else bit (s.obj 0x5100 4) (e.1 - 64)))

/-- ALARM_N follows the masked latches (R438). -/
def alarmNUpdate (s : State) : State := s.setObj 0x5100 0x0B (b2n (alarmLow s))

/-- The unit is in PREOP, SAFEOP or OP: EMCY goes by CoE (R374). -/
def coeActive (s : State) : Bool := s.obj 0x2010 0x0A = 2 || s.obj 0x2010 0x0A = 4 || s.obj 0x2010 0x0A = 8

/-- NODE_ID is not 0 and NMT is PRE-OPERATIONAL or OPERATIONAL: EMCY goes by CANopen (R374). -/
def canActive (s : State) : Bool := s.can.node != 0 && (s.obj 0x4600 6 = 127 || s.obj 0x4600 6 = 5)

/-- The next CoE message is written into the SM1 buffer once the MainDevice has read it (R374); an MP that restarts writes none (R383). -/
def mailPump (s : State) : State :=
  if !coeActive s || s.ecat.mailbox || mpDown s then s
  else match s.coeEmcy with
    | [] => s
    | e :: rest => { s with coeEmcy := rest, ecat := { s.ecat with mailbox := true, lastMail := .emcy e.bytes } }

/-- One message queued on each path that carries EMCY; a full queue of 32 drops it into 0x2010:08 (R374). -/
def emcyQueue (e : Emcy) (s : State) : State :=
  let s1 := if coeActive s then
      (if s.coeEmcy.length < 32 then mailPump { s with coeEmcy := s.coeEmcy ++ [e] } else s.bump 0x2010 8) else s
  if canActive s1 then
    (if s1.canEmcy.length < 32 then { s1 with canEmcy := s1.canEmcy ++ [e] } else s1.bump 0x2010 8) else s1

/-- A code put at the head of the pre-defined error field 0x1003, which keeps the 16 newest (R375). -/
def errorFieldPush (code alarm : Nat) (s : State) : State :=
  let old := (List.range 15).map (fun i => s.obj 0x1003 (i + 1))
  let s1 := (List.range 15).foldl (fun st i => st.setObj 0x1003 (i + 2) (old.getD i 0)) s
  let s2 := s1.setObj 0x1003 1 (code + 2 ^ 16 * alarm)
  s2.setObj 0x1003 0 (min 16 (s.obj 0x1003 0 + 1))

/-- The message of a latch going from clear to set (R373), with the MP's interrupt source 1 (Table 8.7). -/
def emcySend (a t : Nat) (c : Category) (s : State) : State :=
  let s1 := s.setObj 0x1001 0 (errorRegister s.alarms)
  emcyQueue { code := c.code, reg := s1.obj 0x1001 0, alarm := a, stamp := stampOf t } (errorFieldPush c.code a (s1.interrupt 68 1))

/-- An event reaches alarm latch a (R435, R438): SET, COUNT, LAST, and FIRST if SET was clear;
then ALARM_N, the EMCY message and the ALARM sampler record follow. -/
def alarmLatch (a t : Nat) (s : State) : State × List Ev :=
  match alarmCategory a with
  | none => (s, [])
  | some c =>
    let l := mget {} s.alarms a
    let l' : AlarmLatch := { set := true, count := if l.count < 65535 then l.count + 1 else 65535,
                             first := if l.set then l.first else t, last := t }
    let s1 : State := { s with alarms := mset {} s.alarms a l' }
    if l.set then (s1, [])
    else
      let s2 := alarmNUpdate (if a < 64 then s1.setObjBit 0x5100 1 a true else s1.setObjBit 0x5100 2 (a - 64) true)
      (emcySend a t c s2,
        [.record 1 t (leBytes a 1 ++ leBytes (c.code / 256) 1 ++ leBytes 0 2 ++ leBytes l'.count 4)])

/-- First and last sequence numbers and used bytes as 0x5000:01 to :03 show them (R443). -/
def samplerShow (s : State) : State :=
  let n := s.sampler.nextSeq
  let first := match s.sampler.recs with | [] => n | r :: _ => r.seq
  let last := match s.sampler.recs with | [] => (n + (2 ^ 32 - 1)) % 2 ^ 32 | _ => (n + (2 ^ 32 - 1)) % 2 ^ 32
  ((s.setObj 0x5000 1 first).setObj 0x5000 2 last).setObj 0x5000 3 (recsSize s.sampler.recs)

/-- A record with the head fields of the present instant (Table 11.3). -/
def samplerRec (s : State) (typ t seq : Nat) (payload : List Byte) : SamplerRec :=
  { typ := typ, seq := seq, opTime := s.obj 0x5000 0x0A, cycle := s.obj 0x5000 0x0B % 2 ^ 16, t := t, payload := payload }

/-- Room for a record of `n` bytes so that at least 36 bytes stay free after it (R442). -/
def samplerRoom (s : State) (n : Nat) : Bool := recsSize s.sampler.recs + n + 36 ≤ 262144

/-- A record stored under the next sequence number (R440). -/
def samplerStore (s : State) (typ t : Nat) (payload : List Byte) : State :=
  let r := samplerRec s typ t s.sampler.nextSeq payload
  samplerShow { s with sampler := { s.sampler with recs := s.sampler.recs ++ [r], nextSeq := (s.sampler.nextSeq + 1) % 2 ^ 32 } }

/-- A sampler record as the journal carries it (R446). -/
def samplerJournal (r : SamplerRec) : JRec := { typ := 3, t := r.t, k := r.t, payload := r.bytes }

/-- A record offered to the sampler (R442, R446): stored while RECORDING with room, otherwise lost and counted;
the first loss stops the sampler and latches SAMPLER_FULL. Stored or lost, the journal gets it. -/
def samplerOffer (typ t : Nat) (payload : List Byte) (s : State) : State × List Ev :=
  if s.obj 0x5000 4 = 0 ∧ samplerRoom s (28 + payload.length) then
    (samplerStore s typ t payload, [.journal (samplerJournal (samplerRec s typ t s.sampler.nextSeq payload))])
  else
    let (f, s0) := s.fresh
    let fst := s0.obj 0x5000 5 = 0
    let sm : Sampler := { s0.sampler with lossFirstT := if fst then t else s0.sampler.lossFirstT, lossLast := stampOf t }
    let s1 : State := { s0 with sampler := sm }
    let s2 := ((s1.bump 0x5000 5).bump 0x5000 6).setObj 0x5000 4 1
    let j := samplerJournal (samplerRec s typ t (Config.freeWord f).toNat payload)
    if s.obj 0x5000 4 = 0 then ({ s2 with conds := withBit s2.conds 33 true }, [.journal j, .alarm 33 t])
    else (s2, [.journal j])

/-- Insert by order key K; equal keys keep the order of arrival (R457). -/
def stageInsert (r : JRec) : List JRec → List JRec
  | [] => [r]
  | x :: xs => if r.k < x.k then r :: x :: xs else x :: stageInsert r xs

/-- A record put into the stage; a GAP record at its head stays ahead of all others (R459). -/
def stagePut (r : JRec) : List JRec → List JRec
  | [] => [r]
  | x :: xs => if x.typ = 5 then x :: stageInsert r xs else stageInsert r (x :: xs)

/-- A record counted as dropped, to be covered by a GAP record (R459, R463). -/
def journalDropped (r : JRec) (s : State) : State :=
  let j := s.journal
  let j' : Journal := { j with dropped := j.dropped + 1, dropFirstK := if j.dropped = 0 then r.k else j.dropFirstK, dropLastK := r.k }
  let s1 : State := { s with journal := j' }
  s1.bump 0x5300 0x0A

/-- Bytes of records an open block can hold: its content area is bytes 32 to 4,091 (Table 11.7). -/
def blockRoom : Nat := 4060

/-- A record put into the open journal block, which is closed first when the record does not fit, and is full when not even a record of 32 bytes fits after
it (R456, R460). SEQ is given here (R457). -/
def journalAppend (r : JRec) (s : State) : State :=
  let j := s.journal
  let r' := { r with seq := j.nextSeq }
  let fits := stageSize j.openRecs + r'.size ≤ blockRoom
  let j1 : Journal := if fits then j else { j with full := j.full ++ [j.openRecs], openRecs := [] }
  let j2 : Journal := { j1 with openRecs := j1.openRecs ++ [r'], nextSeq := j1.nextSeq + 1, openSince := if j1.openRecs.isEmpty then s.time.clk else j1.openSince }
  { s with journal := if blockRoom < stageSize j2.openRecs + 32 then { j2 with full := j2.full ++ [j2.openRecs], openRecs := [] } else j2 }

/-- The GAP record that covers the records dropped (Table 11.8): count, first and last K. -/
def gapOf (j : Journal) : JRec :=
  { typ := 5, t := j.dropFirstK, k := j.dropFirstK, payload := leBytes j.dropped 4 ++ leBytes 0 4 ++ leBytes j.dropFirstK 8 ++ leBytes j.dropLastK 8 }

/-- When room is available again the GAP record enters the stage ahead of all others (R459). -/
def journalGap (s : State) : State :=
  let j := s.journal
  if j.dropped ≠ 0 ∧ stageSize j.stage + (gapOf j).size ≤ 1048576 then { s with journal := { j with stage := gapOf j :: j.stage, dropped := 0 } } else s

/-- What a record must leave of the stage beside itself (R459): a 36-byte place, and the GAP record where one waits for room. -/
def gapRoom (j : Journal) : Nat := 36 + (if j.dropped ≠ 0 then (gapOf j).size else 0)

/-- The engine takes records: RUNNING, and not being stopped by ENABLE (R463, Table 11.13). -/
def journalTakes (s : State) : Bool := s.obj 0x5300 1 == 2 && s.obj 0x5300 5 == 1

/-- A record reaches the journal engine (R457 to R459, R463): held in order of K; written at once with LATE set when a later K has
left; dropped when the stage or the rate is exceeded, or while the journal does not run. -/
def journalEnter (r : JRec) (s : State) : State × List Ev :=
  if !journalTakes s then (journalDropped r s, [])
  else
    let sec := s.t / 1000000000
    let cnt := if s.journal.rateSec = sec then s.journal.rateCount else 0
    if 1000000 ≤ cnt ∨ 1048576 < stageSize s.journal.stage + r.size + gapRoom s.journal then
      (journalDropped r s, [.alarm 35 s.t])
    else
      let s1 := journalGap { s with journal := { s.journal with rateSec := sec, rateCount := cnt + 1 } }
      if (match s1.journal.lastLeft with | none => false | some k => decide (r.k < k)) then
        ((journalAppend { r with late := true } s1).bump 0x5300 0x0B, [])
      else
        let st := stagePut r s1.journal.stage
        (({ s1 with journal := { s1.journal with stage := st } } : State).peak 0x5300 9 (stageSize st), [])

/-- One event handled. -/
def handleEv (s : State) : Ev → State × List Ev
  | .alarm a t => alarmLatch a t s
  | .record typ t p => samplerOffer typ t p s
  | .journal r => journalEnter r s

/-- Events handled in order, with those they cause after them. A chain ends by itself: a latch already set causes nothing. -/
def runEvs : Nat → List Ev → State → State
  | 0, _, s => s
  | _ + 1, [], s => s
  | n + 1, e :: es, s =>
    let (s1, more) := handleEv s e
    runEvs n (es ++ more) s1

/-- One event and everything it causes. -/
def emit (e : Ev) (s : State) : State := runEvs 16 [e] s

/-- Alarm a latched by an event at T. -/
def raise (a : Nat) (s : State) : State := emit (.alarm a s.t) s

/-- The condition of a C alarm begins or ends (R436): its latch is set when the condition begins. -/
def setCond (a : Nat) (holds : Bool) (s : State) : State :=
  if holds && !bit s.conds a then raise a { s with conds := withBit s.conds a true }
  else if !holds && bit s.conds a then { s with conds := withBit s.conds a false }
  else s

/-- A sampler record offered at T. -/
def sample (typ : Nat) (payload : List Byte) (s : State) : State := emit (.record typ s.t payload) s

/-- Alarm of a DEGRADED reason bit of Table 5.7 (Table 11.2). -/
def degradedAlarm : Nat → Nat
  | 0 => 5 | 1 => 7 | 2 => 12 | 3 => 11 | 4 => 13 | 5 => 14 | 6 => 15 | _ => 19

/-- READY or DEGRADED as 0x3700:01 says, once S12 has passed (Table 12.4). -/
def deviceShow (s : State) : State :=
  if s.obj 0x2001 0 = 1 ∨ s.obj 0x2001 0 = 2 then s.setObj 0x2001 0 (if s.obj 0x3700 1 = 0 then 1 else 2) else s

/-- A DEGRADED reason of 0x3700:01 set or cleared, with its condition alarm (R202, Table 5.7). -/
def setDegraded (b : Nat) (v : Bool) (s : State) : State :=
  setCond (degradedAlarm b) v (deviceShow (s.setObjBit 0x3700 1 b v))

/-- The motif is in use: a plane of it holds a context. -/
def Motif.used (x : Motif) : Bool := x.slots.any (fun e => bit e.2.ctx.toNat 127)

/-- DEGRADED bit 0 (R202): a motif in use has no free spare. -/
def sparesShow (s : State) : State :=
  setDegraded 0 (s.motifs.any (fun e => e.2.used && s.obj (0x3200 + e.1) 0x23 == 0)) s

/-- The motif has no free spare left: 0x3700:07, and DEGRADED bit 0 where it is in use (R202). -/
def noteSpares (m : Nat) (s : State) : State :=
  if s.obj (0x3200 + m) 0x23 = 0 then sparesShow (s.setObjBit 0x3700 7 m true) else s

/-! ## Trace -/

/-- A gap record (R450): records lost, first and last lost stamp, tier. -/
def gapRecord (lost : Nat) (first last : Stamp) (tier : Nat) : Nat :=
  lost % 2 ^ 32 + 2 ^ 32 * first.toNat + 2 ^ 64 * last.toNat + 2 ^ 96 * tier

/-- Entries a source buffers (R450): 8 of a motif, 32 of the selvedge controller; the journal engine's own records (R448) go to the block directly. -/
def traceCap (source : Nat) : Nat := if source < 64 then 8 else 32

/-- A trace record of a source: buffered, or dropped and counted when only the place kept for a gap record is free (R450). -/
def traceEmit (e : TraceEntry) (s : State) : State :=
  if s.obj 0x5200 1 = 0 ∨ s.obj 0x5200 9 = 0 then s
  else
    let b := mget {} s.trace.bufs e.source
    if traceCap e.source < b.entries.length + 2 then
      let b' : TraceBuf := { b with drops := b.drops + 1, firstLost := if b.drops = 0 then e.stamp else b.firstLost, lastLost := e.stamp }
      ({ s with trace := { s.trace with bufs := mset {} s.trace.bufs e.source b' } } : State).bump 0x5200 6
    else
      let gap : List TraceEntry := if b.drops = 0 then []
        else [{ kind := 3, source := e.source, record := gapRecord b.drops b.firstLost b.lastLost 1, stamp := e.stamp }]
      let b' : TraceBuf := { entries := b.entries ++ gap ++ [e] }
      let s1 : State := { s with trace := { s.trace with bufs := mset {} s.trace.bufs e.source b' } }
      if b.drops = 0 then s1 else s1.bump 0x5200 8

/-- Address of a ring block (R450). -/
def ringAddr (s : State) (slot : Nat) : Nat := s.obj 0x5200 5 + 4096 * slot

/-- The next place of the ring that no block holds, counted on from the last one taken (R450). -/
def ringSlot (s : State) : Nat :=
  let n := s.obj 0x5200 9
  let free := fun i => !s.trace.ring.any (fun b => b.slot == (s.trace.next + i) % n)
  (s.trace.next + ((List.range (s.trace.ring.length + 1)).find? free).getD 0) % n

/-- Tag of request k of a ring block: kind 0 writes it, 1 and 2 read it for the trace area and for export, 3 writes one that no consumer takes. -/
def ringTag (kind slot k : Nat) : Nat := 2 ^ 22 + 2 ^ 20 * kind + 16 * (slot % 2 ^ 16) + k

/-- Request k of a ring block: 256 bytes, from the journal engine with URGENCY 2 (R224, R230, R450). -/
def ringRequest (kind slot k : Nat) (bs : List Byte) (s : State) : State :=
  let a := ringAddr s slot + 256 * k
  let p : Packet := { tstamp := BitVec.ofNat 32 a, aux := a / 2 ^ 32, urgency := 2, timer := ringTag kind slot k }
  s.submit 66 (if kind = 0 ∨ kind = 3 then { p with typ := 3, len := 16, words := 3, data := leWords bs } else { p with typ := 2, words := 15 })

/-- The 16 WRITE packets of a block. -/
def ringWrite (kind slot : Nat) (bs : List Byte) (s : State) : State :=
  (List.range 16).foldl (fun st k => ringRequest kind slot k ((bs.drop (256 * k)).take 256) st) s

/-- The 16 READ packets of a block for a consumer. -/
def ringRead (kind slot : Nat) (s : State) : State := (List.range 16).foldl (fun st k => ringRequest kind slot k [] st) s

/-- The open block closes (R449, R450): an empty one is not written; one that finds the ring full is discarded and counted, and the
next block begins with a gap record; otherwise the journal engine writes it to the DRAM ring for the consumers of 0x5200:02. -/
def traceClose (s : State) : State :=
  let es := s.trace.openEntries
  if es.isEmpty then s
  else
    let blocks := s.obj 0x5200 9
    let slot := ringSlot s
    let s1 := s.bump 0x5200 0x0A
    if blocks ≤ s1.trace.ring.length then
      let first := (es.head?.map (·.stamp)).getD 0#32
      let last := (es.getLast?.map (·.stamp)).getD 0#32
      let gap : TraceEntry := { kind := 3, source := 66, record := gapRecord es.length first last 2, stamp := last }
      ((({ s1 with trace := { s1.trace with openEntries := [gap] } } : State).bump 0x5200 7).bump 0x5200 8)
    else
      let dest := s1.obj 0x5200 2
      let b : TraceBlock := { slot := slot, entries := es, epoch := s.t / 2 ^ 20, needNvme := bit dest 0, needExport := bit dest 1, left := 16 }
      let keep := b.needNvme || b.needExport
      ringWrite (if keep then 0 else 3) slot (b.bytes 0 0 (s1.obj 0x5300 0x0C))
        { s1 with trace := { s1.trace with openEntries := [], next := (slot + 1) % blocks, ring := if keep then s1.trace.ring ++ [b] else s1.trace.ring } }

/-- A ring block replaced. -/
def ringSet (b : TraceBlock) (s : State) : State :=
  { s with trace := { s.trace with ring := s.trace.ring.map (fun x => if x.slot = b.slot then b else x) } }

/-- The ring block that a tag names. -/
def ringBlock (tag : Nat) (s : State) : Option TraceBlock := s.trace.ring.find? (fun b => b.slot == tag / 16 % 2 ^ 16)

/-- A WRITE of a ring block is acknowledged (R450): with the last one the block is there for its consumers, and MP source 8 becomes pending. -/
def ringAck (tag : Nat) (s : State) : State :=
  match (if tag / 2 ^ 20 % 4 = 0 then ringBlock tag s else none) with
  | none => s
  | some b =>
    let s1 := ringSet { b with left := b.left - 1 } s
    if b.left ≠ 1 then s1
    else
      let s2 := if b.needExport then s1.interrupt 68 8 else s1
      if b.needNvme then ringRead 1 b.slot s2 else s2

/-- The answer to a READ of a ring block (R450, R451): its bytes are kept, and the last one hands the block to its consumer. One that brought no bytes is
asked for again. -/
def ringData (p : Packet) (s : State) : State :=
  let kind := p.timer / 2 ^ 20 % 4
  match ringBlock p.timer s with
  | none => s
  | some b =>
    let bs := wordBytes p.data
    if p.aux ≠ 0 then ringRequest kind b.slot (p.timer % 16) [] s
    else if kind = 1 then
      (let b1 : TraceBlock := { b with forNvme := mput b.forNvme (p.timer % 16) bs }
       let s1 := ringSet b1 s
       if b.forNvme.length < 16 ∧ b1.forNvme.length = 16 then traceWrite b1 s1 else s1)
    else
      let b1 : TraceBlock := { b with forExport := mput b.forExport (p.timer % 16) bs }
      let s1 := ringSet b1 s
      if b1.forExport.length = 16 then { s1 with trace := { s1.trace with ready := some b1 } } else s1

/-- One entry put into the open block, which closes at 203 entries (R449). -/
def traceBlockPut (e : TraceEntry) (s : State) : State :=
  let s1 : State := { s with trace := { s.trace with openEntries := s.trace.openEntries ++ [e] } }
  if 203 ≤ s1.trace.openEntries.length then traceClose s1 else s1

/-- The buffered records of a source cross to the journal engine and enter the open block. -/
def traceDrain (source : Nat) (s : State) : State :=
  let b := mget {} s.trace.bufs source
  let s1 : State := { s with trace := { s.trace with bufs := mset {} s.trace.bufs source { b with entries := [] } } }
  b.entries.foldl (fun st e => traceBlockPut e st) s1

end Sys2Proof.Machine
end

