-- ==== Sys2Proof/Machine/Plane.lean ====
section
/-! DEFINITION. Planes and classes (R281, R282), the changeover state as every family sees it (R285, R288), the entry of a token into
the fabric (R27, R393), and stale ageing of held tokens (R26). -/

namespace Sys2Proof.Machine
open Sys2Proof

/-- The active plane is B (0x3600:0B). -/
def State.activeB (s : State) : Bool := s.obj 0x3600 0x0B = 1

/-- The motif's part of a plane holds a context. -/
def Motif.holdsPlane (b : Bool) (x : Motif) : Bool := x.slots.any (fun e => bit e.2.ctx.toNat 127 && decide (8 ≤ e.1 % 16) == b)

/-- The motifs whose part of a plane holds a context. -/
def planeMotifs (b : Bool) (s : State) : List Nat := (s.motifs.filter (fun e => e.2.holdsPlane b)).map (·.1)

/-- PERSONALITY_IDLE (0x3600:11) is 0 once the idle plane is empty (R292). -/
def idleShow (s : State) : State := if planeMotifs (!s.activeB) s = [] then s.setObj 0x3600 0x11 0 else s

/-- The declaration of class `c` in a plane's class table (R282). -/
def State.cls (s : State) (planeB : Bool) (c : Nat) : ClassDecl := mget {} s.classes (64 * b2n planeB + c)

/-- The state with a class declaration replaced. -/
def State.setCls (s : State) (planeB : Bool) (c : Nat) (d : ClassDecl) : State :=
  { s with classes := mset {} s.classes (64 * b2n planeB + c) d }

/-- Class states of 0x3400 + c:01: 0 UNUSED, 1 ACTIVE, 2 SUSPENDED, 3 OFFLINE. -/
def State.classState (s : State) (c : Nat) : Nat := s.obj (0x3400 + c) 1

/-- The plane a free token of stamp `st` belongs to (R281); `none` once its plane has been retired (R283). -/
def planeOf (s : State) (st : Stamp) : Option Bool :=
  let a := s.activeB
  let tc := stampOf (s.obj 0x3600 3)
  if s.obj 0x3600 1 = 4 then some (if 0 ≤ diff st tc then !a else a)
  else if s.obj 0x3600 1 = 5 then some (if 0 ≤ diff st tc then a else !a)
  else if s.obj 0x3600 0x13 ≠ 0 ∧ extendStamp s.t st < s.obj 0x3600 0x13 then none
  else some a

/-- PERSONALITY_ID of the plane a changeover record is about. -/
def coPersonality (s : State) (new : Nat) : Nat := if new = 5 then s.obj 0x3600 0x10 else s.obj 0x3600 0x11

/-- 0x3600:01 changes: a CHANGEOVER sampler record is written (Table 11.4), and the MP's interrupt source 3 becomes pending;
every UP bride link sends a VOTE frame (R425). -/
def coState (new : Nat) (s : State) : State :=
  let p := coPersonality s new
  let s1 := (s.setObj 0x3600 1 new).interrupt 68 3
  sendVotes (sample 9 (leBytes (s1.obj 0x3600 2) 2 ++ leBytes new 1 ++ leBytes (s1.obj 0x3600 0x0A) 1 ++ leBytes p 4) s1)

/-- The changeover becomes ABANDONED with a reason of 0x3600:0A. -/
def coAbandon (reason : Nat) (s : State) : State := coState 6 (s.setObj 0x3600 0x0A reason)

/-- A MAINDEVICE unit that leaves LOCKED while ARMED becomes ABANDONED with reason NOT_LOCKED (R288). -/
def notLockedAbandon (s : State) : State :=
  if s.obj 0x3600 1 = 3 ∧ s.obj 0x3600 6 = 0 then coAbandon 2 s else s

/-- The ingress record of a source in a plane (R392 kind 0x81): its stream if VALID (R393). -/
def ingressStream (s : State) (planeB : Bool) (index : Nat) : Option Nat :=
  let w := mget 0 s.ingress (256 * b2n planeB + index)
  if bit w 31 then some (w % 1024) else none

/-- A token packet as a source router queues it (R213, R214): the stream is looked up at injection. -/
def tokenPacket (stream : Nat) (t : Token) : Packet :=
  { typ := 0, tid := t.tid, exec := t.exec, planeB := t.planeB && t.tid != 0, words := t.words.length,
    len := (t.words.length + 3) / 4, fend := t.fend, tstamp := t.stamp, data := t.words, old := t.old,
    stream := some stream }

/-- The entry check of R27: more than 2³⁰ ns in the future is discarded and counted; at least 2³⁰ ns old enters marked. At a difference of exactly
0x8000_0000 the order of R25 says which of the two the stamp is. -/
def entryCheck (s : State) (t : Token) : Option Token :=
  if t.stamp - s.now = 0x80000000#32 then (if later t.stamp s.now then none else some { t with old := true })
  else if (2 ^ 30 : Int) < diff t.stamp s.now then none
  else some { t with old := decide ((2 ^ 30 : Int) ≤ diff s.now t.stamp) }

/-- A free token enters the fabric at an edge initiator on a stream (R27). -/
def enterStream (initiator stream : Nat) (t : Token) (s : State) : State :=
  match entryCheck s t with
  | none => s.bump 0x2101 1
  | some t' => s.submit initiator (tokenPacket stream t')

/-- A token from an ingress source (Table 10.1) enters the fabric: on the stream its plane's ingress record names (R281, R393), or
counted when there is none; a token of a retired plane is discarded and counted (R283). -/
def enterFabric (initiator index : Nat) (t : Token) (s : State) : State :=
  match planeOf s t.stamp with
  | none => s.bump 0x3600 0x0E
  | some p =>
    match ingressStream s p index with
    | none => s.bump 0x3010 3
    | some stream => enterStream initiator stream t s

/-- A token of an ingress source is sent: a plane of its stamp runs and has an ingress record for the source (R283, R393). -/
def entersFabric (s : State) (index : Nat) (t : Token) : Bool :=
  match planeOf s t.stamp with
  | none => false
  | some p => (ingressStream s p index).isSome

/-- A free token enters the fabric on a stream that its source names itself (R379, R421); one of a retired plane is discarded and counted (R283). -/
def enterFree (initiator stream : Nat) (t : Token) (s : State) : State :=
  match planeOf s t.stamp with
  | none => s.bump 0x3600 0x0E
  | some _ => enterStream initiator stream t s

/-- The age of a held token's stamp at T, an exact integer (R22, R26): unsigned when it is marked old (R536). -/
def tokenAge (now st : Stamp) (old : Bool) : Int := if old then ((now - st).toNat : Int) else diff now st

/-- What a sweep does with a held token (R26): discarded if already marked, marked if at least 2³⁰ ns old, kept otherwise. -/
inductive Ageing where
  | keep | mark | discard
  deriving DecidableEq, Repr

/-- The stale sweep's verdict on a token (R26). -/
def sweepAge (now st : Stamp) (old : Bool) : Ageing :=
  if old then .discard else if (2 ^ 30 : Int) ≤ diff now st then .mark else .keep

/-- The re-ageing verdict at a step of `delta` ns (R22): new age = age before the step + step size. -/
def stepAge (before st : Stamp) (old : Bool) (delta : Int) : Ageing :=
  let a := tokenAge before st old + delta
  if (2 ^ 31 : Int) ≤ a ∨ a < -(2 ^ 30 : Int) then .discard
  else if (2 ^ 30 : Int) ≤ a then .mark else .keep

end Sys2Proof.Machine
end

