-- ==== Sys2Proof/Machine/BQueue.lean ====
section
/-! DEFINITION. Boundary queues (R427 to R433): packets, occupancy, flags and FC pins. BQ_WRITE and READ_BQ frames stand in Host.lean. -/

namespace Sys2Proof.Machine
open Sys2Proof

/-- The packets of queue q, oldest first. -/
def State.bq (s : State) (q : Nat) : List BqPacket := mget [] s.ports.bqs q

/-- Entries in use (R427). -/
def bqUsed (ps : List BqPacket) : Nat := (ps.map (fun p => p.words.length)).foldl (· + ·) 0

/-- Complete packets of each priority as 0x4500:07 shows them (R431). -/
def bqPackets (ps : List BqPacket) : Nat :=
  (List.range 4).foldl (fun n p => n + (ps.filter (fun x => x.prio == p)).length * 2 ^ (16 * p)) 0

/-- FCn is active: the flag of a queue that byte n of FC_MAP selects is set, and the fabric has left reset (R433). -/
def fcActive (s : State) (n : Nat) : Bool :=
  s.fabric && (List.range 8).any (fun q => bit (s.obj 0x4500 0x10) (8 * n + q) && s.obji q 0x4500 8 == 1)

/-- The level of pin FCn (R433). -/
def fcPin (s : State) (n : Nat) : Bool := fcActive s n != bit (s.obj 0x4500 0x11) n

/-- FC_STATE follows the flags. -/
def fcUpdate (s : State) : State :=
  s.setObj 0x4500 0x12 ((List.range 4).foldl (fun v n => v + b2n (fcActive s n) * 2 ^ n) 0)

/-- The flag after an occupancy (R432): set at HIGH, cleared at LOW, never set while HIGH is 0. -/
def bqFlag (s : State) (q used : Nat) : Nat :=
  let hi := s.obji q 0x4500 2
  if hi ≠ 0 ∧ hi ≤ used then 1 else if used ≤ s.obji q 0x4500 3 then 0 else s.obji q 0x4500 8

/-- The state with queue q holding `ps`: occupancy, packets, peak, flag and FC pins follow. -/
def State.setBq (s : State) (q : Nat) (ps : List BqPacket) : State :=
  let s1 : State := { s with ports := { s.ports with bqs := mset [] s.ports.bqs q ps } }
  let n := bqUsed ps
  let s2 := ((s1.setObji q 0x4500 6 n).setObji q 0x4500 7 (bqPackets ps)).setObji q 0x4500 8 (bqFlag s1 q n)
  fcUpdate (if s2.obji q 0x4500 0x0A < n then s2.setObji q 0x4500 0x0A n else s2)

/-- A packet written to queue q, or discarded whole and counted when the free entries do not hold it (R428, R430); an output queue that
overflows latches BQ_OVERFLOW. -/
def bqWrite (q prio : Nat) (ws : List Word) (s : State) : State :=
  if bqUsed (s.bq q) + ws.length ≤ 2048 then s.setBq q (s.bq q ++ [{ prio := prio % 4, words := ws, stamp := s.now }])
  else if 4 ≤ q then raise 32 (s.bumpi q 0x4500 9)
  else s.bumpi q 0x4500 9

/-- The packet the read side takes next: the oldest of the highest priority that has one (R427). -/
def bqTake (ps : List BqPacket) : Option (BqPacket × List BqPacket) :=
  match [3, 2, 1, 0].find? (fun p => ps.any (fun x => x.prio == p)) with
  | none => none
  | some p => takeFirst (fun x => x.prio == p) ps

/-- Tokens of 15 words with FEND = 0 on all but the last (R429). -/
def bqTokens (stamp : Stamp) : Nat → List Word → List Token
  | 0, _ => []
  | f + 1, ws =>
    if ws.length ≤ 15 then [{ stamp := stamp, words := ws }]
    else { stamp := stamp, words := ws.take 15, fend := false } :: bqTokens stamp f (ws.drop 15)

/-- BQ_PACKET_READOUT (R429): the port block takes the next packet of BQ0–BQ3 and sends it as free tokens. -/
def execBqPacketReadout (q : Nat) (s : State) : Host.Outcome State Fault Refusal :=
  let q := q % 4
  match bqTake (s.bq q) with
  | none => done s
  | some (p, rest) =>
    let s1 := s.setBq q rest
    if s.obji q 0x4500 4 = 1 then
      (if p.words.length ≤ 1 then done (s1.bumpi q 0x4500 9)
      else done ((bqTokens (p.words.headD 0#32) 2048 (p.words.drop 1)).foldl (fun st t => enterFabric 70 (36 + q) t st) s1))
    else done ((bqTokens p.stamp 2048 p.words).foldl (fun st t => enterFabric 70 (36 + q) t st) s1)

end Sys2Proof.Machine
end

