-- ==== Sys2Proof/Machine/FlashOps.lean ====
section
/-! DEFINITION. The boot flash and its manager (R354, R356, R473, R478 to R483): erase intents, jobs, what an erase makes invalid, what a program makes
valid, and the records that the device keeps up to date by itself. -/

namespace Sys2Proof.Machine
open Sys2Proof

/-- The state with the flash replaced. -/
def State.setFlash (s : State) (f : Flash) : State := { s with flash := f }

/-- What a map lists at a key, if anything. -/
def mfind {α : Type} (m : SMap α) (k : Nat) : Option α := (m.find? (fun e => e.1 == k)).map (·.2)

/-- The copy to write next of two: a missing one, else the one with the lower sequence number (R354). -/
def olderCopy {α : Type} (seqOf : α → Nat) (m : SMap α) : Nat :=
  match mfind m 0, mfind m 1 with
  | none, _ => 0
  | some _, none => 1
  | some a, some b => if seqOf a ≤ seqOf b then 0 else 1

/-- The valid copy with the higher sequence number (R355). -/
def newerCopy {α : Type} (seqOf : α → Nat) (m : SMap α) : Option (Nat × α) :=
  match mfind m 0, mfind m 1 with
  | none, none => none
  | some a, none => some (0, a)
  | none, some b => some (1, b)
  | some a, some b => if seqOf a ≤ seqOf b then some (1, b) else some (0, a)

/-- The sequence number of the next copy. -/
def nextCopySeq {α : Type} (seqOf : α → Nat) (m : SMap α) : Nat :=
  match newerCopy seqOf m with
  | none => 1
  | some (_, a) => seqOf a + 1

/-! ## Layout (Table 12.5) -/

/-- Sector of copy 0 or 1 of the saved values. -/
def savedAddr (c : Nat) : Nat := 0x60000 + 0x10000 * c
/-- Sector of copy 0 or 1 of the persistent records. -/
def persistAddr (c : Nat) : Nat := 0x80000 + 0x10000 * c
/-- Sector of copy 0 or 1 of the start-record mirror. -/
def mirrorAddr (c : Nat) : Nat := 0xA0000 + 0x10000 * c
/-- First sector of the sampler copy. -/
def sampAddr : Nat := 0xC0000
/-- First sector of the firmware slot. -/
def fwAddr : Nat := 0x200000
/-- First sector of recipe slot n. -/
def recipeAddr (n : Nat) : Nat := 0x400000 + 0x400000 * n

/-- Recipe slots of the flash fitted (R478). -/
def recipeSlots (s : State) : Nat := min 32 ((s.flash.mib - 4) / 4)

/-! ## Intents (R480, R481) -/

/-- Intent entries a journal sector holds after its header. -/
def intentRoom : Nat := 0x10000 / 32 - 1

/-- An entry appended to the active journal sector; a full sector makes the other one active, with the unfinished entries. -/
def intentAppend (addr purpose : Nat) (f : Flash) : Flash :=
  let f1 : Flash := if f.intents.length < intentRoom then f
    else { f with active := 1 - f.active, sectorSeq := f.sectorSeq + 1, intents := f.intents.filter (fun i => !i.done) }
  { f1 with intents := f1.intents ++ [{ seq := f1.nextSeq, addr := addr, purpose := purpose }], nextSeq := f1.nextSeq + 1 }

/-- An intent entry as it is programmed (Table 12.6). -/
def Intent.bytes (i : Intent) : List Byte :=
  let head := leBytes 0x31544E49 4 ++ leBytes i.seq 4 ++ leBytes i.addr 4 ++ leBytes i.purpose 4
  head ++ leBytes (crc32c head) 4 ++ leBytes (if i.done then 0 else 0xFFFFFFFF) 4 ++ leBytes (2 ^ 64 - 1) 8

/-- DONE programmed in every entry of a sector. -/
def intentDone (addr : Nat) (f : Flash) : Flash :=
  { f with intents := f.intents.map (fun i => if i.addr = addr then { i with done := true } else i) }

/-- What the sector held is invalid once its erase has begun (Table 12.7). -/
def invalidateSector (addr purpose : Nat) (s : State) : State :=
  let f := s.flash
  if purpose = 1 then
    (if addr = fwAddr then s.setFlash { f with fwHead := [], fwBlocks := [], fwMark := false }
    else s.setFlash { f with fwBlocks := f.fwBlocks.filter (fun b => (b.1 + 1) / 16 != (addr - fwAddr) / 0x10000) })
  else if purpose = 2 then s.setFlash { f with recipes := mdel f.recipes ((addr - 0x400000) / 0x400000) }
  else if purpose = 3 then s.setFlash { f with saved := mdel f.saved ((addr - 0x60000) / 0x10000) }
  else if purpose = 4 then s.setFlash { f with persist := mdel f.persist ((addr - 0x80000) / 0x10000) }
  else if purpose = 5 then s.setFlash { f with mirror := mdel f.mirror ((addr - 0xA0000) / 0x10000) }
  else (s.setFlash { f with samp := none }).setObj 0x5000 0x0C 0

/-! ## Jobs -/

/-- The first job begins if none runs: an erase first writes its intent (R480). -/
def flashStart (s : State) : State :=
  if s.flash.running then s
  else match s.flash.jobs with
    | [] => s
    | j :: _ =>
      let s1 := s.setFlash { s.flash with running := true }
      if j.erase then invalidateSector j.addr j.purpose (s1.setFlash (intentAppend j.addr j.purpose s1.flash)) else s1

/-- Jobs appended. -/
def flashQueue (js : List FlashJob) (s : State) : State := flashStart (s.setFlash { s.flash with jobs := s.flash.jobs ++ js })

/-- Erases of the sectors that `n` bytes from `addr` take. -/
def eraseJobs (addr n purpose : Nat) : List FlashJob :=
  (List.range ((n + 0xFFFF) / 0x10000)).map (fun i => { erase := true, addr := addr + 0x10000 * i, purpose := purpose })

/-- Programs of the 4 KiB pages that `n` bytes from `addr` take; the last one makes `effect` valid. -/
def programJobs (addr n purpose : Nat) (effect : FlashDone) : List FlashJob :=
  let k := (n + 0xFFF) / 0x1000
  (List.range k).map (fun i => { addr := addr + 0x1000 * i, purpose := purpose, effect := if i + 1 = k then effect else .none })

/-- A job of a purpose that waits behind the running one. -/
def jobWaits (s : State) (purpose : Nat) : Bool :=
  (if s.flash.running then s.flash.jobs.drop 1 else s.flash.jobs).any (fun j => j.erase && j.purpose == purpose)

/-- A job of a purpose runs or waits. -/
def jobOf (s : State) (purpose : Nat) : Bool := s.flash.jobs.any (fun j => j.purpose == purpose)

/-- The copy a task that runs now is writing, if it is of this purpose. -/
def copyRunning (s : State) (purpose base : Nat) : Option Nat :=
  match s.flash.jobs with
  | [] => none
  | j :: _ => if j.purpose = purpose then some ((j.addr - base) / 0x10000) else none

/-- The persistent records have changed: one of their copies is written anew (R356). -/
def persistTouch (s : State) : State :=
  if jobWaits s 4 then s
  else
    let c := match copyRunning s 4 0x80000 with | some c => 1 - c | none => olderCopy PersistCopy.seq s.flash.persist
    flashQueue [{ erase := true, addr := persistAddr c, purpose := 4 }, { addr := persistAddr c, purpose := 4, effect := .persist c }] s

/-- The mirror of the start record is written anew (R473). -/
def mirrorTouch (s : State) : State :=
  if jobWaits s 5 then s
  else
    let c := match copyRunning s 5 0xA0000 with | some c => 1 - c | none => olderCopy MirrorCopy.seq s.flash.mirror
    flashQueue [{ erase := true, addr := mirrorAddr c, purpose := 5 }, { addr := mirrorAddr c, purpose := 5, effect := .mirror c }] s

/-- The start record has changed: at the end of S6 and after it its mirror is written, before S6 never (R473). -/
def recordChanged (s : State) : State := if 6 ≤ s.start.step then mirrorTouch s else s

/-- The persistent records as they stand. -/
def persistNow (s : State) : PersistCopy :=
  { seq := nextCopySeq PersistCopy.seq s.flash.persist, marks := s.marks, retired := s.dram.retired, locked := s.obj 0x2012 1 == 1,
    lockedAt := s.obj 0x2012 3, sii := s.ecat.sii, opTime := s.obj 0x5000 0x0A }

/-- The start record as it stands. -/
def mirrorNow (s : State) : MirrorCopy :=
  { seq := nextCopySeq MirrorCopy.seq s.flash.mirror, entries := s.start.record, cycles := s.obj 0x5000 0x0B }

/-- What a completed program makes valid. -/
def flashEffect (e : FlashDone) (s : State) : State :=
  let f := s.flash
  match e with
  | .none => s
  | .erased _ => s
  | .recipe n img => s.setFlash { f with recipes := mput f.recipes n img }
  | .saved c v => s.setFlash { f with saved := mput f.saved c v }
  | .persist c => s.setFlash { f with persist := mput f.persist c (persistNow s) }
  | .mirror c => s.setFlash { f with mirror := mput f.mirror c (mirrorNow s) }
  | .sampler c => (s.setFlash { f with samp := some c }).setObj 0x5000 0x0C c.t
  | .fwHead h => s.setFlash { f with fwHead := h }
  | .fwBlock n b => s.setFlash { f with fwBlocks := mput f.fwBlocks n b }
  | .fwMark => s.setFlash { f with fwMark := true }

/-- The running job is done and the next one begins. -/
def flashNext (s : State) : State := flashStart (s.setFlash { s.flash with running := false, orphan := false, jobs := s.flash.jobs.drop 1 })

/-- FLASH_ERASE_COMPLETE (R480, R483): the running erase completes, and DONE of its entry is programmed; an erase from before an MP restart leaves
its entry unfinished. -/
def execFlashEraseComplete (s : State) : Host.Outcome State Fault Refusal :=
  match s.flash.running, s.flash.jobs with
  | true, j :: _ =>
    if j.erase then done (flashNext (if s.flash.orphan then s else s.setFlash (intentDone j.addr s.flash)))
    else done s
  | _, _ => done s

end Sys2Proof.Machine
end

