-- ==== Sys2Proof/Machine/Float.lean ====
section
/-! DEFINITION. FP32 arithmetic under R68 (cells) and R314 (Fizhaig): binary32, round to nearest even,
subnormal inputs read as zero, results below 2⁻¹²⁶ after rounding delivered as zero, one NaN 0x7FC0_0000. -/

namespace Sys2Proof.Machine

/-- A value FP32 arithmetic works on: subnormals have already been read as zero. -/
inductive FVal where
  | nan
  | inf (neg : Bool)
  | fin (neg : Bool) (m : Nat) (e : Int)
  deriving DecidableEq, Repr

/-- A result word with the events of R76 the beat shows. -/
structure FRes where
  val : Word
  invalid : Bool := false
  overflow : Bool := false
  flushed : Bool := false
  convSat : Bool := false
  intSat : Bool := false
  deriving DecidableEq, Repr

/-- The one NaN (R68). -/
def fNaN : Word := 0x7FC00000#32

/-- Sign bit. -/
def fSign (w : Word) : Bool := w.getLsbD 31

/-- Exponent field. -/
def fExp (w : Word) : Nat := w.toNat / 2 ^ 23 % 256

/-- Fraction field. -/
def fFrac (w : Word) : Nat := w.toNat % 2 ^ 23

/-- The word is a NaN. -/
def fIsNaN (w : Word) : Bool := fExp w == 255 && fFrac w != 0

/-- The word is a subnormal number. -/
def fIsSub (w : Word) : Bool := fExp w == 0 && fFrac w != 0

/-- The value a word stands for; a subnormal reads as zero of its sign (R68). -/
def fUnpack (w : Word) : FVal :=
  if fExp w = 255 then (if fFrac w = 0 then .inf (fSign w) else .nan)
  else if fExp w = 0 then .fin (fSign w) 0 0
  else .fin (fSign w) (2 ^ 23 + fFrac w) ((fExp w : Int) - 150)

/-- A signed zero. -/
def fZero (neg : Bool) : Word := if neg then 0x80000000#32 else 0#32

/-- A signed infinity. -/
def fInf (neg : Bool) : Word := if neg then 0xFF800000#32 else 0x7F800000#32

/-- n / 2^k rounded to nearest, ties to even. -/
def rneShift (n k : Nat) : Nat :=
  let q := n / 2 ^ k
  let r := n % 2 ^ k
  if k = 0 then n
  else if r < 2 ^ (k - 1) then q
  else if 2 ^ (k - 1) < r then q + 1
  else q + q % 2

/-- (−1)^neg × m × 2^e rounded to a 24-bit significand with unbounded exponent and delivered under R68. -/
def fRound (neg : Bool) (m : Nat) (e : Int) : FRes :=
  if m = 0 then { val := fZero neg }
  else
    let n := m.log2 + 1
    let q0 := if n ≤ 24 then m * 2 ^ (24 - n) else rneShift m (n - 24)
    let e0 : Int := e + n - 24
    let q := if q0 = 2 ^ 24 then 2 ^ 23 else q0
    let e1 := if q0 = 2 ^ 24 then e0 + 1 else e0
    let x := e1 + 23
    if 127 < x then { val := fInf neg, overflow := true }
    else if x < -126 then { val := fZero neg, flushed := true }
    else { val := BitVec.ofNat 32 (2 ^ 31 * (b2n' neg) + 2 ^ 23 * ((x + 127).toNat) + (q - 2 ^ 23)) }
where
  b2n' (b : Bool) : Nat := if b then 1 else 0

/-- Marks the input events of R76 on a result: a NaN input counts as invalid, a subnormal input as flushed. -/
def fMark (ins : List Word) (r : FRes) : FRes :=
  { r with invalid := r.invalid || ins.any fIsNaN, flushed := r.flushed || ins.any fIsSub }

/-- A NaN result of an invalid combination. -/
def fInvalid : FRes := { val := fNaN, invalid := true }

/-- Exact signed sum of two finite values, rounded once; an exact zero keeps a common sign and is +0 otherwise. -/
def fSumFin (n1 : Bool) (m1 : Nat) (e1 : Int) (n2 : Bool) (m2 : Nat) (e2 : Int) : FRes :=
  let e := if e1 < e2 then e1 else e2
  let a : Int := (m1 * 2 ^ (e1 - e).toNat : Nat)
  let b : Int := (m2 * 2 ^ (e2 - e).toNat : Nat)
  let s := (if n1 then -a else a) + (if n2 then -b else b)
  if s = 0 then { val := fZero (m1 == 0 && m2 == 0 && n1 && n2) }
  else fRound (decide (s < 0)) s.natAbs e

/-- The sum of two values. -/
def fAddV : FVal → FVal → FRes
  | .nan, _ => { val := fNaN }
  | _, .nan => { val := fNaN }
  | .inf a, .inf b => if a = b then { val := fInf a } else fInvalid
  | .inf a, .fin _ _ _ => { val := fInf a }
  | .fin _ _ _, .inf b => { val := fInf b }
  | .fin n1 m1 e1, .fin n2 m2 e2 => fSumFin n1 m1 e1 n2 m2 e2

/-- The value with its sign inverted. -/
def FVal.neg : FVal → FVal
  | .nan => .nan
  | .inf n => .inf (!n)
  | .fin n m e => .fin (!n) m e

/-- The exact product of two values, before rounding; `none` for an invalid combination. -/
def fMulV : FVal → FVal → Option FVal
  | .nan, _ => some .nan
  | _, .nan => some .nan
  | .inf a, .inf b => some (.inf (a != b))
  | .inf a, .fin b m _ => if m = 0 then none else some (.inf (a != b))
  | .fin a m _, .inf b => if m = 0 then none else some (.inf (a != b))
  | .fin a m e, .fin b m' e' => some (.fin (a != b) (m * m') (e + e'))

/-- A value rounded and delivered. -/
def fPack : FVal → FRes
  | .nan => { val := fNaN }
  | .inf n => { val := fInf n }
  | .fin n m e => fRound n m e

/-- FADD. -/
def fAdd (a b : Word) : FRes := fMark [a, b] (fAddV (fUnpack a) (fUnpack b))

/-- FSUB. -/
def fSub (a b : Word) : FRes := fMark [a, b] (fAddV (fUnpack a) (fUnpack b).neg)

/-- FMUL. -/
def fMul (a b : Word) : FRes :=
  fMark [a, b] (match fMulV (fUnpack a) (fUnpack b) with
    | none => fInvalid
    | some v => fPack v)

/-- ±(a × b) ± c rounded once: FMA, FMS, FNMA. -/
def fFused (negProd negC : Bool) (a b c : Word) : FRes :=
  let vc := if negC then (fUnpack c).neg else fUnpack c
  fMark [a, b, c] (match fMulV (fUnpack a) (fUnpack b) with
    | none => fInvalid
    | some v => fAddV (if negProd then v.neg else v) vc)

/-- FMA: A × B + C. -/
def fMa (a b c : Word) : FRes := fFused false false a b c

/-- FMS: A × B − C. -/
def fMs (a b c : Word) : FRes := fFused false true a b c

/-- FNMA: −(A × B) + C. -/
def fNma (a b c : Word) : FRes := fFused true false a b c

/-- FDIV (R314). A finite quotient carries a sticky bit below 27 quotient bits, so it rounds once. -/
def fDiv (a b : Word) : FRes :=
  fMark [a, b] (match fUnpack a, fUnpack b with
    | .nan, _ => { val := fNaN }
    | _, .nan => { val := fNaN }
    | .inf _, .inf _ => fInvalid
    | .inf n, .fin n' _ _ => { val := fInf (n != n') }
    | .fin n _ _, .inf n' => { val := fZero (n != n') }
    | .fin n m e, .fin n' m' e' =>
      if m' = 0 then (if m = 0 then fInvalid else { val := fInf (n != n') })
      else if m = 0 then { val := fZero (n != n') }
      else
        let q := 2 ^ 28 * m / m'
        let r := 2 ^ 28 * m % m'
        fRound (n != n') (2 * q + (if r = 0 then 0 else 1)) (e - e' - 29))

/-- Integer square root by bisection on `k` bits. -/
def isqrtAux : Nat → Nat → Nat → Nat
  | 0, _, r => r
  | k + 1, n, r => isqrtAux k n (if (r + 2 ^ k) * (r + 2 ^ k) ≤ n then r + 2 ^ k else r)

/-- FSQRT (R314). The square root of a negative value other than −0 is invalid. -/
def fSqrt (a : Word) : FRes :=
  fMark [a] (match fUnpack a with
    | .nan => { val := fNaN }
    | .inf n => if n then fInvalid else { val := fInf false }
    | .fin n m e =>
      if m = 0 then { val := fZero n }
      else if n then fInvalid
      else
        let odd := e % 2 != 0
        let m' := 2 ^ 30 * (if odd then 2 * m else m)
        let e' := (if odd then e - 1 else e) - 30
        let r := isqrtAux 30 m' 0
        fRound false (2 * r + (if r * r = m' then 0 else 1)) (e' / 2 - 1))

/-- A strictly below B among values that are not NaN, with −0 equal to +0. -/
def fLtV : FVal → FVal → Bool
  | .nan, _ => false
  | _, .nan => false
  | .inf a, .inf b => a && !b
  | .inf a, .fin _ _ _ => a
  | .fin _ _ _, .inf b => !b
  | .fin n m e, .fin n' m' e' =>
    let k := if e < e' then e else e'
    let x : Int := (m * 2 ^ (e - k).toNat : Nat)
    let y : Int := (m' * 2 ^ (e' - k).toNat : Nat)
    decide ((if n then -x else x) < (if n' then -y else y))

/-- Either operand is a NaN. -/
def fAnyNaN (a b : Word) : Bool := fIsNaN a || fIsNaN b

/-- FCMPLT: 1 if A < B, 0 if either is a NaN. -/
def fCmpLt (a b : Word) : FRes :=
  fMark [a, b] { val := if !fAnyNaN a b && fLtV (fUnpack a) (fUnpack b) then 1#32 else 0#32 }

/-- FCMPLE. -/
def fCmpLe (a b : Word) : FRes :=
  fMark [a, b] { val := if !fAnyNaN a b && !fLtV (fUnpack b) (fUnpack a) then 1#32 else 0#32 }

/-- FCMPEQ. -/
def fCmpEq (a b : Word) : FRes :=
  fMark [a, b] { val := if !fAnyNaN a b && !fLtV (fUnpack b) (fUnpack a) && !fLtV (fUnpack a) (fUnpack b) then 1#32 else 0#32 }

/-- An operand as FMIN and FMAX return it: a subnormal has been read as zero of its sign. -/
def fFlushIn (a : Word) : Word := if fIsSub a then fZero (fSign a) else a

/-- FMIN (takeMax = false) or FMAX: one NaN gives the other operand, two the NaN; −0 is less than +0. -/
def fMinMax (takeMax : Bool) (a b : Word) : FRes :=
  fMark [a, b] (
    if fIsNaN a && fIsNaN b then { val := fNaN }
    else if fIsNaN a then { val := fFlushIn b }
    else if fIsNaN b then { val := fFlushIn a }
    else
      let lt := fLtV (fUnpack a) (fUnpack b) ||
        (!fLtV (fUnpack b) (fUnpack a) && fSign a && !fSign b)
      { val := fFlushIn (if lt != takeMax then a else b) })

/-- An integer as a saturated signed 32-bit result; `true` if it was clamped. -/
def sat32 (i : Int) : Word × Bool :=
  if i < -(2 ^ 31 : Int) then (0x80000000#32, true)
  else if (2 ^ 31 : Int) - 1 < i then (0x7FFFFFFF#32, true)
  else (BitVec.ofInt 32 i, false)

/-- FTOI (nearest = false, toward zero) or FTOIR (nearest even). -/
def fToI (nearest : Bool) (a : Word) : FRes :=
  fMark [a] (match fUnpack a with
    | .nan => { val := 0#32 }
    | .inf n => { val := if n then 0x80000000#32 else 0x7FFFFFFF#32, convSat := true }
    | .fin n m e =>
      let mag := if 0 ≤ e then m * 2 ^ e.toNat
        else if nearest then rneShift m (-e).toNat else m / 2 ^ (-e).toNat
      let r := sat32 (if n then -(mag : Int) else mag)
      { val := r.1, convSat := r.2 })

/-- ITOF: signed integer to FP32, nearest even. -/
def iToF (a : Word) : FRes := fRound (decide (a.toInt < 0)) a.toInt.natAbs 0

/-- FABS: bit 31 cleared, bits [30:0] unchanged, no event counted. -/
def fAbs (a : Word) : FRes := { val := a &&& 0x7FFFFFFF#32 }

/-- FNEG: bit 31 inverted, bits [30:0] unchanged, no event counted. -/
def fNeg (a : Word) : FRes := { val := a ^^^ 0x80000000#32 }

/-- FCLASS: the class mask of A; a subnormal is classed as zero. -/
def fClass (a : Word) : FRes :=
  fMark [a] { val := match fUnpack a with
    | .nan => 0x40#32
    | .inf n => if n then 0x01#32 else 0x20#32
    | .fin n m _ => if m = 0 then (if n then 0x04#32 else 0x08#32) else (if n then 0x02#32 else 0x10#32) }

end Sys2Proof.Machine
end

