-- ==== Sys2Proof/Machine/Alu.lean ====
section
/-! DEFINITION. The integer, fixed-point, MAC, lookup and stamp operations of a cell (R65 to R67, R69, R70), each once,
as pure functions of the words read through SRC_A, SRC_B and SRC_C. The Fizhaig core shares the plain ones (R333). -/

namespace Sys2Proof.Machine

/-- A result without an event. -/
def plain (w : Word) : FRes := { val := w }

/-- A comparison result: 1 or 0. -/
def truth (b : Bool) : Word := if b then 1#32 else 0#32

/-- Signed less than. -/
def slt (a b : Word) : Bool := decide (a.toInt < b.toInt)

/-- Signed less than or equal. -/
def sle (a b : Word) : Bool := decide (a.toInt ≤ b.toInt)

/-- Unsigned less than. -/
def ult (a b : Word) : Bool := decide (a.toNat < b.toNat)

/-- Unsigned less than or equal. -/
def ule (a b : Word) : Bool := decide (a.toNat ≤ b.toNat)

/-- The shift distance B[4:0] (R65). -/
def shAmt (b : Word) : Nat := b.toNat % 32

/-- ABS; 0x8000_0000 gives 0x7FFF_FFFF and counts as a saturation (R65). -/
def aluAbs (a : Word) : FRes :=
  if a = 0x80000000#32 then { val := 0x7FFFFFFF#32, intSat := true }
  else plain (if a.getLsbD 31 then 0#32 - a else a)

/-- Rotate left. -/
def rotl (a : Word) (n : Nat) : Word := (a <<< n) ||| (a >>> ((32 - n) % 32))

/-- Rotate right. -/
def rotr (a : Word) (n : Nat) : Word := (a >>> n) ||| (a <<< ((32 - n) % 32))

/-- Arithmetic shift right. -/
def sar (a : Word) (n : Nat) : Word := a.sshiftRight n

/-- Count of leading zeros, 0–32. -/
def clz (a : Word) : Word := BitVec.ofNat 32 (if a = 0#32 then 32 else 31 - a.toNat.log2)

/-- A signed result clamped to 32 bits; the clamp counts as a saturation (R66, R76). -/
def satS (i : Int) : FRes := { val := (sat32 i).1, intSat := (sat32 i).2 }

/-- An unsigned result clamped to 0 … 0xFFFF_FFFF (R66). -/
def satU (i : Int) : FRes :=
  if i < 0 then { val := 0#32, intSat := true }
  else if (2 ^ 32 : Int) - 1 < i then { val := 0xFFFFFFFF#32, intSat := true }
  else plain (BitVec.ofInt 32 i)

/-- A clamped to lo … hi (SATS, SATU). -/
def clampTo (lo hi : Int) (a : Word) : FRes :=
  if a.toInt < lo then { val := BitVec.ofInt 32 lo, intSat := true }
  else if hi < a.toInt then { val := BitVec.ofInt 32 hi, intSat := true }
  else plain a

/-- SATS: A clamped to the signed range of n = IMM[4:0] + 1 bits. -/
def aluSats (a imm : Word) : FRes :=
  let n := shAmt imm
  clampTo (-(2 ^ n : Nat)) ((2 ^ n : Nat) - 1) a

/-- SATU: A (signed) clamped to 0 … 2ⁿ − 1, n = IMM[4:0] + 1. -/
def aluSatu (a imm : Word) : FRes := clampTo 0 ((2 ^ (shAmt imm + 1) : Nat) - 1) a

/-- The signed 64-bit product, shifted right arithmetically by `n`. -/
def sprod (a b : Word) : Int := a.toInt * b.toInt

/-- MULH: high 32 bits of the signed product. -/
def mulh (a b : Word) : Word := BitVec.ofInt 32 (sprod a b / 2 ^ 32)

/-- MULHU: high 32 bits of the unsigned product. -/
def mulhu (a b : Word) : Word := BitVec.ofNat 32 (a.toNat * b.toNat / 2 ^ 32)

/-- QMUL31: sat32((P + 2³⁰) >> 31) (R66). -/
def qmul31 (a b : Word) : FRes := satS ((sprod a b + 2 ^ 30) / 2 ^ 31)

/-- QMUL16: sat32((P + 2¹⁵) >> 16) (R66). -/
def qmul16 (a b : Word) : FRes := satS ((sprod a b + 2 ^ 15) / 2 ^ 16)

/-- A 16-bit half of a word as an integer: the low half, or the high one. -/
def half (hi signed : Bool) (w : Word) : Int :=
  let n := if hi then w.toNat / 2 ^ 16 else w.toNat % 2 ^ 16
  if signed then fromTwos 16 n else (n : Int)

/-- One accumulation of the MAC2 family (R67): a ± half(A) × half(B), modulo 2⁴⁸. -/
def macStep (hi signed sub : Bool) (a : Acc) (x y : Word) : Acc :=
  let p := half hi signed x * half hi signed y
  BitVec.ofInt 48 (a.toInt + (if sub then -p else p))

/-- rnd of R67: 2^(s − 1) for s > 0, 0 for s = 0. -/
def macRnd (s : Nat) : Int := if s = 0 then 0 else (2 ^ (s - 1) : Nat)

/-- The sum read out of the accumulators: signed, clamped to signed 32 bits, or unsigned, clamped to unsigned (R67). -/
def macRead (signed : Bool) (sum : Int) (s : Nat) : FRes :=
  let v := (sum + macRnd s) / (2 ^ s : Nat)
  if signed then satS v else satU v

/-- An accumulator as an integer. -/
def accInt (signed : Bool) (a : Acc) : Int := if signed then a.toInt else (a.toNat : Int)

/-- The result word of the MAC2 family (R67): s = IMM[4:0], the sum formed in 49 bits without loss. -/
def macResult (signed : Bool) (a0 a1 : Acc) (imm : Word) : FRes :=
  macRead signed (accInt signed a0 + accInt signed a1) (shAmt imm)

/-- RDACC (R67): IMM[0] selects the accumulator, s = IMM[5:1], IMM[6] selects unsigned reading. -/
def aluRdacc (a0 a1 : Acc) (imm : Word) : FRes :=
  let signed := !imm.getLsbD 6
  macRead signed (accInt signed (if imm.getLsbD 0 then a1 else a0)) (imm.toNat / 2 % 32)

/-- An accumulator read as a source, saturated to signed 32 bits (R55). -/
def accSource (a : Acc) : Word := (sat32 a.toInt).1

/-- A result written to an accumulator, sign-extended to 48 bits (R55). -/
def accWrite (w : Word) : Acc := w.signExtend 48

/-- Byte `i` of a word. -/
def byteOf (a : Word) (i : Nat) : Nat := a.toNat / 2 ^ (8 * i) % 256

/-- LUT: table[byte IMM[1:0] of A], zero-extended (R69). -/
def aluLut (tab : Nat → Byte) (a imm : Word) : Word := (tab (byteOf a (imm.toNat % 4))).setWidth 32

/-- LUT4: each byte of A replaced by table[byte] (R69). -/
def aluLut4 (tab : Nat → Byte) (a : Word) : Word :=
  BitVec.ofNat 32 (leNat [tab (byteOf a 0), tab (byteOf a 1), tab (byteOf a 2), tab (byteOf a 3)])

/-- SLE: A earlier than or equal to B (R25). -/
def stampLe (a b : Word) : Bool := a = b || earlier a b

end Sys2Proof.Machine
end

