-- ==== Sys2Proof/Machine/MotifOps.lean ====
section
/-! DEFINITION. Shared operations on a motif: context word fields (Table 2.3), dispatch trace records (R107), the removal of a TID's
tokens and instances (R106, R141), admission to STATEFUL contexts (R146, R147), pricking-log records (R177), and the ageing of every held token (R22, R26). -/

namespace Sys2Proof.Machine
open Sys2Proof

/-! ## Context word fields (Table 2.3) -/

/-- OP. -/
def ctxOp (c : BitVec 128) : Nat := field c.toNat 7 0
/-- SRC_A. -/
def ctxSrcA (c : BitVec 128) : Nat := field c.toNat 11 8
/-- SRC_B. -/
def ctxSrcB (c : BitVec 128) : Nat := field c.toNat 15 12
/-- SRC_C. -/
def ctxSrcC (c : BitVec 128) : Nat := field c.toNat 19 16
/-- DST0. -/
def ctxDst0 (c : BitVec 128) : Nat := field c.toNat 25 20
/-- DST1. -/
def ctxDst1 (c : BitVec 128) : Nat := field c.toNat 31 26
/-- IMM. -/
def ctxImm (c : BitVec 128) : Word := BitVec.ofNat 32 (field c.toNat 63 32)
/-- FIRE: bit 0 N, 1 E, 2 S, 3 W. -/
def ctxFire (c : BitVec 128) : Nat := field c.toNat 67 64
/-- PRIO. -/
def ctxPrio (c : BitVec 128) : Nat := field c.toNat 69 68
/-- ORDERED. -/
def ctxOrdered (c : BitVec 128) : Bool := bit c.toNat 70
/-- STATEFUL. -/
def ctxStateful (c : BitVec 128) : Bool := bit c.toNat 71
/-- NEXT. -/
def ctxNext (c : BitVec 128) : Nat := field c.toNat 75 72
/-- TXB: 0 NONE, 1 OPEN, 2 CONTINUE, 3 CLOSE, 4 FORWARD. -/
def ctxTxb (c : BitVec 128) : Nat := field c.toNat 79 76
/-- TCLASS. -/
def ctxTclass (c : BitVec 128) : Nat := field c.toNat 87 80
/-- MEM.BANK. -/
def ctxBank (c : BitVec 128) : Nat := field c.toNat 90 88
/-- MEM.MODE. -/
def ctxMode (c : BitVec 128) : Nat := field c.toNat 92 91
/-- MEM.GFILL. -/
def ctxGfill (c : BitVec 128) : Bool := bit c.toNat 93
/-- MEM.SPAN. -/
def ctxSpan (c : BitVec 128) : Bool := bit c.toNat 94
/-- SWSEL. -/
def ctxSwsel (c : BitVec 128) : Nat := field c.toNat 111 96
/-- Bits [126:112], reserved. -/
def ctxReserved (c : BitVec 128) : Nat := field c.toNat 126 112
/-- VALID. -/
def ctxValid (c : BitVec 128) : Bool := bit c.toNat 127

/-- Inputs named in FIRE, in the order N, E, S, W. -/
def fireInputs (c : BitVec 128) : List Nat := (List.range 4).filter (bit (ctxFire c) ·)

/-- The slot lies in plane B (R49). -/
def slotPlaneB (k : Nat) : Bool := 8 ≤ k

/-! ## Pattern tables (R86 to R88) -/

/-- Route entry of tag `tag` of pattern `pat` of a plane (Table 3.3). -/
def Motif.route (x : Motif) (planeB : Bool) (pat tag : Nat) : Nat :=
  mget 0 (if planeB then x.patB else x.patA) (16 * pat + tag)

/-- KIND of a route entry: 0 unused, 1 one input, 2 two inputs, 3 egress. -/
def routeKind (r : Nat) : Nat := field r 1 0

/-- The slot a delivery lands on (R87): CTX[2:0] + 8 × plane, or CTX as written in a full-store image. -/
def routeSlot (full planeB : Bool) (ctx : Nat) : Nat := if full then ctx else ctx % 8 + 8 * b2n planeB

/-- The (position, input, slot) destinations of a KIND 1 or 2 route entry. -/
def routeDests (full planeB : Bool) (r : Nat) : List (Nat × Nat × Nat) :=
  let d0 := (field r 5 2, field r 7 6, routeSlot full planeB (field r 11 8))
  let d1 := (field r 15 12, field r 17 16, routeSlot full planeB (field r 21 18))
  if routeKind r = 1 then [d0] else if routeKind r = 2 then [d0, d1] else []

/-! ## Dispatch trace (R107) -/

/-- Hoop of motif m (R9). -/
def hoopOf (m : Nat) : Nat := 2 * (m / 8 / 4) + m % 8 / 4

/-- Cycles hoop h has counted since reset: its clock runs at the frequency 0x3100 + h:01, whatever is done to T (R40, R107). -/
def hoopCount (s : State) (h : Nat) : Nat :=
  let x := s.hoop h
  x.cyc + s.obj (0x3100 + h) 1 * (s.time.clk - x.cycAt) / 1000000000

/-- The clock of hoop h set to `f` Hz: the cycles counted so far stand. -/
def setHoopClock (h f : Nat) (s : State) : State :=
  (s.setHoop h { s.hoop h with cyc := hoopCount s h, cycAt := s.time.clk }).setObj (0x3100 + h) 1 f

/-- The hoop cycle count of a motif's hoop, low 32 bits (R107). Its phase is open. -/
def hoopCycle (s : State) (m : Nat) : Nat := (Config.hoopPhase (hoopOf m) + hoopCount s (hoopOf m)) % 2 ^ 32

/-- Hoop cycles of motif m as nanoseconds, at the frequency 0x3100 + h:01. -/
def cyclesNs (s : State) (m n : Nat) : Nat := 1000000000 * n / s.obj (0x3100 + hoopOf m) 1

/-- The 128-bit dispatch trace record (Table 3.5). -/
def dispatchRecord (s : State) (m pos slot key outcome prio : Nat) (stamp : Stamp) : Nat :=
  hoopCycle s m + 2 ^ 32 * s.now.toNat + 2 ^ 64 * pos + 2 ^ 68 * slot + 2 ^ 72 * key + 2 ^ 84 * outcome +
    2 ^ 87 * prio + 2 ^ 89 * m + 2 ^ 96 * stamp.toNat

/-- A dispatch outcome of Table 3.6 is traced if the motif, the slot and the outcome are selected (R107). -/
def traceDispatch (m pos slot key outcome : Nat) (stamp : Stamp) (s : State) : State :=
  let ix := 0x3200 + m
  if s.obj ix 0x0E = 1 ∧ bit (s.obj ix 0x0F) slot ∧ bit (s.obj ix 0x10) outcome then
    let r := dispatchRecord s m pos slot key outcome (ctxPrio ((s.motif m).slot pos slot).ctx) stamp
    traceEmit { kind := 0, source := m, stamp := stamp, record := r } s
  else s

/-- KEY of an instance's trace record: its TID, 0 at an OPEN slot (Table 3.5). -/
def traceKey (s : State) (m pos : Nat) (i : Inst) : Nat := if ctxTxb ((s.motif m).slot pos i.slot).ctx = 1 then 0 else i.tid

/-- One trace record per instance. -/
def traceInsts (m pos outcome : Nat) (is : List Inst) (s : State) : State :=
  is.foldl (fun st i => traceDispatch m pos i.slot (traceKey st m pos i) outcome i.stamp st) s

/-! ## Pricking log (R177) -/

/-- Log records of the given ids freed. -/
def logFree (ids : List Nat) (x : Motif) : Motif := { x with log := x.log.filter (fun r => !ids.contains r.id) }

/-- Log records of a TID freed. -/
def logFreeTid (t : Nat) (x : Motif) : Motif := { x with log := x.log.filter (fun r => !(r.bound && r.tid == t)) }

/-- Log records of the given ids bound to a TID. -/
def logBind (ids : List Nat) (t : Nat) (x : Motif) : Motif :=
  { x with log := x.log.map (fun r => if ids.contains r.id then { r with bound := true, tid := t } else r) }

/-- Bytes a log record takes: a descriptor and ⌈LENGTH / 2⌉ words of 8 bytes (R176). -/
def LogRec.size (r : LogRec) : Nat := 8 * (1 + (r.words.length + 1) / 2)

/-- Bytes of the log in use. -/
def logUsed (x : Motif) : Nat := x.log.foldl (fun n r => n + r.size) 0

/-- The descriptor word of a log record (Table 5.3). -/
def LogRec.descriptor (r : LogRec) : Nat :=
  (if r.bound then r.tid else 0) + 2 ^ 12 * r.endpoint + 2 ^ 17 * r.words.length + 2 ^ 21 * b2n r.bound +
    2 ^ 22 * b2n r.planeB + 2 ^ 23 * b2n r.provisional + 2 ^ 32 * r.stamp.toNat

/-- Log record ids of the tokens an instance consumed. -/
def instLogs (i : Inst) : List Nat := (i.toks.map (·.2.logId)).filter (· != 0)

/-! ## The stitch switch (R83 to R90) -/

/-- Words a buffered token takes: its head and data words; a cancel word is one word (R79). -/
def OutTok.size (o : OutTok) : Nat := if o.tok.cancel then 1 else 1 + o.tok.words.length

/-- Words in a source's output buffer. -/
def outUsed (x : Motif) (k : Nat) : Nat := ((x.out k).map OutTok.size).foldl (· + ·) 0

/-- The destinations of a buffered token inside the motif: (position, input, slot). -/
def outDests (x : Motif) (o : OutTok) : List (Nat × Nat × Nat) := routeDests x.fullStore o.tok.planeB o.route

/-- The switch destinations a head waits for (R84): inputs of positions 0–15, the router as 16, the shuttle as 17. -/
def switchDests (x : Motif) (o : OutTok) : List (Nat × Nat) :=
  if routeKind o.route = 3 then [(if bit o.route 12 then 17 else 16, 0)] else (outDests x o).map (fun d => (d.1, d.2.1))

/-- A waiting head at source `k` goes before the one at source `j` (R84): higher P, then longer waiting, then the lower source. -/
def switchBefore (a : OutTok) (k : Nat) (b : OutTok) (j : Nat) : Bool :=
  if a.tok.prio ≠ b.tok.prio then decide (b.tok.prio < a.tok.prio)
  else if a.since ≠ b.since then decide (a.since < b.since) else decide (k < j)

/-- Two heads want one destination of the switch. -/
def sharesInput (x : Motif) (a b : OutTok) : Bool := (switchDests x a).any (switchDests x b).contains

/-- The head of source `k` is granted every destination it needs (R84, R85). -/
def granted (x : Motif) (k : Nat) (o : OutTok) : Bool :=
  x.outs.all (fun e => match e.2.head? with
    | some b => e.1 == k || !sharesInput x o b || switchBefore o k b e.1
    | none => true)

/-- The log streamer's records, put into source 18's output buffer as far as they fit (R85, R179); the others wait in the log. -/
def feedStream (clk : Nat) : List OutTok → Motif → Motif
  | [], x => { x with streaming := [] }
  | o :: os, x => if 16 < outUsed x 18 + o.size then { x with streaming := o :: os } else feedStream clk os (x.pushOut clk 18 o)

/-- The head of source `k` leaves; the next word of the source begins to wait at elapsed time `clk` (R84). Source 18 is filled up from the log. -/
def popOut (clk k : Nat) (x : Motif) : Motif :=
  let y := match x.out k with
    | _ :: o :: r => x.setOut k ({ o with since := clk } :: r)
    | _ => x.setOut k []
  if k = 18 then feedStream clk y.streaming y else y

/-- The head of source `k` replaced. -/
def setHead (k : Nat) (o : OutTok) (x : Motif) : Motif := x.setOut k (o :: (x.out k).drop 1)

/-- A destination position is being remapped: tokens bound for it wait in their sources (R184). -/
def remapping (x : Motif) (ds : List (Nat × Nat × Nat)) : Bool :=
  x.remaps.any (fun r => ds.any (fun d => d.1 == r.pos))

/-! ## Formation, readiness and the lists (R92, R93, R95 to R97) -/

/-- A cell with no remap under way at its position counts its matching store entries: tokens held, and tokens of instances that have not
ended (R91, R94). -/
def storeUsed (c : Cell) : Nat :=
  let insts := c.formed ++ c.ready ++ c.winner.toList ++ c.runs.map (·.inst)
  c.store.length + (insts.map (fun i => i.toks.length)).foldl (· + ·) 0

/-- Some destination of a token has no free matching store entry (R94). -/
def noEntry (x : Motif) (ds : List (Nat × Nat × Nat)) : Bool :=
  ds.any (fun d => decide (32 < storeUsed (x.cell d.1) + (ds.filter (fun e => e.1 == d.1)).length))

/-- The oldest token at an input of a slot. -/
def oldestAt (st : List MEntry) (k i : Nat) : Option MEntry := st.find? (fun e => e.slot == k && e.input == i)

/-- One entry removed, the oldest at its slot and input. -/
def dropOldest (k i : Nat) : List MEntry → List MEntry
  | [] => []
  | e :: es => if e.slot = k ∧ e.input = i then es else e :: dropOldest k i es

/-- The oldest tokens of every input named in FIRE, if all are there with one key (R92). -/
def matched (ctx : BitVec 128) (k : Nat) (st : List MEntry) : Option (List MEntry) :=
  let es := (fireInputs ctx).map (oldestAt st k)
  match es with
  | some e :: _ => if es.all (fun o => match o with | some x => x.key == e.key | none => false) then some (es.filterMap id) else none
  | _ => none

/-- The instance that tokens form at a slot (R56, R92, R181). -/
def makeInst (ctx : BitVec 128) (k : Nat) (es : List MEntry) : Inst :=
  let lead := (es.head?.map (·.tok)).getD {}
  let key := (es.head?.map (·.key)).getD 0
  let isOpen := ctxTxb ctx == 1
  { slot := k, key := key, tid := if isOpen && !lead.replay then 0 else lead.tid, stamp := lead.stamp, old := lead.old,
    exec := if isOpen && !lead.replay then 0 else lead.exec, planeB := slotPlaneB k, toks := es.map (fun e => (e.input, e.tok)),
    parent := if isOpen && !lead.replay then lead.tid else 0, replay := lead.replay }

/-- Instances formed at one slot, oldest tokens first. -/
def formSlot : Nat → BitVec 128 → Nat → List MEntry → List MEntry × List Inst
  | 0, _, _, st => (st, [])
  | f + 1, ctx, k, st =>
    if ctxValid ctx then
      match matched ctx k st with
      | none => (st, [])
      | some es =>
        let (st1, is) := formSlot f ctx k ((fireInputs ctx).foldl (fun l i => dropOldest k i l) st)
        (st1, makeInst ctx k es :: is)
    else (st, [])

/-- Every instance that the tokens held at a position form (R92). -/
def formCell (x : Motif) (pos : Nat) (c : Cell) : Cell :=
  (List.range 16).foldl (fun c k =>
    let (st, is) := formSlot 32 (x.slot pos k).ctx k c.store
    { c with store := st, formed := c.formed ++ is }) c

/-- Stamps of the tokens for slot `k` in the cell's matching store (R91, R95): those that wait, and those of every instance that has not ended, but
for the tokens of `skip` itself. -/
def heldKeys (now : Stamp) (c : Cell) (k : Nat) (skip : Inst) : List Int :=
  ((c.store.filter (fun e => e.slot == k)).map (fun e => stampKey now e.tok.stamp e.tok.old)) ++
  ((c.formed ++ c.ready ++ c.winner.toList ++ c.runs.map (·.inst)).filter (fun i => i.slot == k && i != skip)).flatMap
    (fun i => i.toks.map (fun e => stampKey now e.2.stamp e.2.old))

/-- Stamps of the tokens at the slot's locked inputs (R84, R95): heads that the switch has granted their inputs and that find an entry. A head
that waits in its source is not at the input yet. -/
def lockedKeys (now : Stamp) (x : Motif) (pos k : Nat) : List Int :=
  x.outs.filterMap (fun e => match e.2.head? with
    | none => none
    | some o =>
      let ds := outDests x o
      if !o.tok.cancel && ds.any (fun d => d.1 == pos && d.2.2 == k) && granted x e.1 o && !noEntry x ds && !remapping x ds
      then some (stampKey now o.tok.stamp o.tok.old) else none)

/-- An instance of an ORDERED slot is eligible (R95): nothing earlier is held for the slot and the time replica has reached s + W. -/
def orderOk (s : State) (m pos : Nat) (c : Cell) (i : Inst) : Bool :=
  let w := s.obj (0x3200 + m) 6
  let key := stampKey s.now i.stamp i.old
  (heldKeys s.now c i.slot i ++ lockedKeys s.now (s.motif m) pos i.slot).all (fun k => decide (key ≤ k)) &&
    (w == 0 || i.old || decide (0 ≤ diff s.now (i.stamp + BitVec.ofNat 32 w)))

/-- List order (R96): readiness cycle, then stamp, slot, matching key. -/
def listBefore (now : Stamp) (a b : Inst) : Bool :=
  if a.readyAt ≠ b.readyAt then decide (a.readyAt < b.readyAt)
  else
    let ka := stampKey now a.stamp a.old
    let kb := stampKey now b.stamp b.old
    if ka ≠ kb then decide (ka < kb) else if a.slot ≠ b.slot then decide (a.slot < b.slot) else decide (a.key < b.key)

/-- Insertion into a list in its order; equals stay in order of arrival. -/
def listInsert (now : Stamp) (i : Inst) : List Inst → List Inst
  | [] => [i]
  | x :: xs => if listBefore now i x then i :: x :: xs else x :: listInsert now i xs

/-- PRIO of an instance's context. -/
def instPrio (x : Motif) (pos : Nat) (i : Inst) : Nat := ctxPrio (x.slot pos i.slot).ctx

/-- A formed instance that waits for order becomes ready when it may (R93, R95), and is marked late under R100. -/
def readyStep (s : State) (m pos : Nat) (c : Cell) (i : Inst) : Inst :=
  let ctx := ((s.motif m).slot pos i.slot).ctx
  if i.readyAt ≠ 0 then i
  else if ctxOrdered ctx && !orderOk s m pos c i then i
  else { i with readyAt := s.time.clk + 1,
                late := match c.lastSel with | some (t, p) => t == s.time.clk && decide (p < ctxPrio ctx) | none => false }

/-- Ready instances enter the list of their level, which holds eight, in readiness order; one that finds it full counts once (R96, R97). -/
def listStep (s : State) (m pos : Nat) (c : Cell) : List Inst → Cell × Nat
  | [] => (c, 0)
  | i :: is =>
    let p := instPrio (s.motif m) pos i
    if ((c.ready.filter (fun j => instPrio (s.motif m) pos j == p)).length) < 8 then
      listStep s m pos { c with ready := listInsert s.now i c.ready } is
    else
      let (c1, n) := listStep s m pos { c with formed := c.formed ++ [{ i with counted := withBit i.counted 0 true }] } is
      (c1, n + b2n (!bit i.counted 0))

/-- A cell after anything that can form instances, make them ready or free list places. -/
def settleCell (m pos : Nat) (s : State) : State :=
  let x := s.motif m
  let c1 := formCell x pos (x.cell pos)
  let marked := c1.formed.map (readyStep s m pos c1)
  let wait := marked.filter (fun i => i.readyAt == 0)
  let now := (marked.filter (fun i => i.readyAt != 0)).foldl (fun l i => listInsert s.now i l) []
  let (c2, n) := listStep s m pos { c1 with formed := wait } now
  (s.setMotif m (x.setCell pos c2)).addObj (0x3200 + m) 3 n

/-- Every cell of a motif settled. -/
def settleMotif (m : Nat) (s : State) : State :=
  ((s.motif m).cells.map (·.1)).foldl (fun st pos => settleCell m pos st) s

/-! ## Abort at a motif (R106, R141, R169) -/

/-- The instance is of TID `t`, or (at an OPEN slot) consumes a token of `t` (R106, R153). -/
def instOf (t : Nat) (i : Inst) : Bool := i.tid == t || i.toks.any (fun e => e.2.tid == t)

/-- The bank a run reads and writes: its own copy when STATEFUL = 0 (R53) or once it is stopped (R141), the shadow bank under a TID (R147), the live
bank under TID 0. -/
def runBank (x : Motif) (pos : Nat) (r : Run) : Bank :=
  let sl := x.slot pos r.inst.slot
  if r.stopped || !ctxStateful sl.ctx then r.bank else if r.inst.tid = 0 then sl.live else sl.shadow

/-- An instance in progress stopped (R141): it completes its beats on a bank of its own, and its results are suppressed. -/
def Run.stop (x : Motif) (pos : Nat) (r : Run) : Run := { r with stopped := true, bank := runBank x pos r }

/-- The TID's tokens, instances, admissions, shadow banks, uncommitted stores, gathers and close reports leave the motif; its
instances in progress are stopped; executions up to `n` count as ended. The log records of removed tokens that opened nothing are freed
(R177). At an OPEN slot an instance that loses its token of the TID goes whole, the tokens of TID 0 on its other inputs with it
(DESIGN CHOICE, log entry 119). -/
def Motif.abortTid (x : Motif) (t n : Nat) : Motif :=
  let cells := x.cells.map (fun e => (e.1, ({ e.2 with
    store := e.2.store.filter (fun en => en.tok.tid != t)
    formed := e.2.formed.filter (fun i => !instOf t i)
    ready := e.2.ready.filter (fun i => !instOf t i)
    winner := e.2.winner.filter (fun i => !instOf t i)
    runs := e.2.runs.map (fun r => if r.inst.tid == t then r.stop x e.1 else r) } : Cell)))
  let slots := x.slots.map (fun e => (e.1, if e.2.admitted = some t then { e.2 with admitted := none } else e.2))
  let p := x.part t
  let gone := x.cells.flatMap (fun e => (e.2.store.filter (fun en => en.tok.tid == t)).map (·.tok.logId) ++
    ((e.2.formed ++ e.2.ready ++ e.2.winner.toList).filter (instOf t)).flatMap instLogs)
  { x with
    cells := cells
    log := x.log.filter (fun r => r.bound || !gone.contains r.id)
    slots := slots
    sb := x.sb.filter (fun e => e.tid != t || e.committed)
    gathers := x.gathers.filter (fun g => g.tid != t)
    bankWaits := x.bankWaits.filter (fun e => !(x.cells.any (fun c => e.1 == 128 + c.1 && c.2.runs.any (fun r => r.inst.tid == t)) ||
      (e.1 == 96 && (x.gathers.head?.map (fun g => g.tid == t)).getD false)))
    closes := x.closes.filter (fun c => c.tid != t)
    parts := mset {} x.parts t { p with ended := max p.ended (n + 1), closed := false, sent := 0 } }

/-- The instances of a TID that have not dispatched, by position (R106). -/
def Motif.pendingOf (x : Motif) (t : Nat) : List (Nat × Inst) :=
  x.cells.flatMap (fun e => ((e.2.formed ++ e.2.ready ++ e.2.winner.toList).filter (instOf t)).map (fun i => (e.1, i)))

/-- A TID aborts at motif m as execution n: every instance removed is traced ABORTED_PENDING (R106). -/
def abortAtMotif (m t n : Nat) (s : State) : State :=
  let x := s.motif m
  let s1 := (x.pendingOf t).foldl (fun st e => traceDispatch m e.1 e.2.slot (traceKey st m e.1 e.2) 6 e.2.stamp st) s
  settleMotif m (s1.setMotif m ((s1.motif m).abortTid t n))

/-- A notice packet to the selvedge controller's notice endpoint (3, 0), endpoint 48 (Table 6.5). -/
def noticeToSelvedge (kind t exec : Nat) (stamp : Stamp) (data : List Word) : Packet :=
  { typ := 1, dx := 3, dy := 0, edge := true, endpoint := 48, urgency := 14, len := (data.length + 3) / 4, tid := t,
    exec := exec, aux := kind, tstamp := stamp, data := data }

/-- A notice packet to motif m (delivered on its LOCAL port). -/
def noticeToMotif (kind m t exec : Nat) (stamp : Stamp) : Packet :=
  { typ := 1, dx := m % 8, dy := m / 8, edge := false, endpoint := 0, urgency := 14, tid := t, exec := exec, aux := kind, tstamp := stamp }

/-! ## Ageing of every held token (R22, R26) -/

/-- A list of matching store entries aged: kept or marked entries, and the discarded ones. -/
def ageStore (f : Stamp → Bool → Ageing) : List MEntry → List MEntry × List MEntry
  | [] => ([], [])
  | e :: es =>
    let (k, d) := ageStore f es
    match f e.tok.stamp e.tok.old with
    | .keep => ({ e with tok := { e.tok with old := false } } :: k, d)
    | .mark => ({ e with tok := { e.tok with old := true } } :: k, d)
    | .discard => (k, e :: d)

/-- The matching store entries of the tokens an instance holds. -/
def instEntries (i : Inst) : List MEntry := i.toks.map (fun e => { slot := i.slot, input := e.1, key := i.key, tok := e.2 })

/-- A list of instances aged token by token: the instances that keep every token, the other tokens of an instance that loses one, which wait
again in the matching store, and the discarded tokens. -/
def ageInsts (f : Stamp → Bool → Ageing) : List Inst → List Inst × List MEntry × List MEntry
  | [] => ([], [], [])
  | i :: is =>
    let (k, r, d) := ageInsts f is
    let (ke, de) := ageStore f (instEntries i)
    if de.isEmpty then
      ({ i with toks := ke.map (fun e => (e.input, e.tok)), old := (ke.head?.map (·.tok.old)).getD i.old } :: k, r, d)
    else (k, ke ++ r, de ++ d)

/-- Entries of a selvedge queue aged. -/
def ageEntries (f : Stamp → Bool → Ageing) : List Entry → List Entry × Nat
  | [] => ([], 0)
  | t :: ts =>
    let (k, d) := ageEntries f ts
    match f t.stamp t.old with
    | .keep => ({ t with old := false } :: k, d)
    | .mark => ({ t with old := true } :: k, d)
    | .discard => (k, d + 1)

/-- One cell aged: the cell after, and the discarded tokens. -/
def ageCell (f : Stamp → Bool → Ageing) (c : Cell) : Cell × List MEntry :=
  let (st, d1) := ageStore f c.store
  let (fo, r2, d2) := ageInsts f c.formed
  let (re, r3, d3) := ageInsts f c.ready
  ({ c with store := r3 ++ r2 ++ st, formed := fo, ready := re }, d1 ++ d2 ++ d3)

/-- One motif aged: discards are counted in 0x2101:01 and traced DISCARDED_STALE, and their log records are freed. -/
def ageMotif (f : Stamp → Bool → Ageing) (m : Nat) (s : State) : State :=
  (s.motif m).cells.foldl (fun st e =>
    let (c, ds) := ageCell f e.2
    let x := (st.motif m).setCell e.1 c
    let st1 := st.setMotif m (logFree (ds.map (·.tok.logId)) x)
    let st2 := ds.foldl (fun q d => traceDispatch m e.1 d.slot (if ctxTxb (x.slot e.1 d.slot).ctx = 1 then 0 else d.tok.tid) 4 d.tok.stamp q) st1
    (settleCell m e.1 st2).addObj 0x2101 1 ds.length) s

/-- Every selvedge queue aged. -/
def ageSelvedge (f : Stamp → Bool → Ageing) (s : State) : State :=
  s.selvedge.queues.foldl (fun st e =>
    let (k, d) := ageEntries f e.2
    (st.setQueue e.1 k).addObj 0x2101 1 d) s

/-- The token without its stale mark. -/
def Token.unmarked (t : Token) : Token := { t with old := false }

/-- The packet without its stale mark. -/
def Packet.unmarked (p : Packet) : Packet := { p with old := false }

/-- The instance without stale marks. -/
def Inst.unmarked (i : Inst) : Inst := { i with old := false, toks := i.toks.map (fun e => (e.1, e.2.unmarked)) }

/-- A motif's tokens outside its matching stores and ready lists without stale marks. -/
def Motif.unmarked (x : Motif) : Motif :=
  { x with
    cells := x.cells.map (fun e => (e.1, ({ e.2 with winner := e.2.winner.map Inst.unmarked, runs := e.2.runs.map (fun r => { r with inst := r.inst.unmarked }) } : Cell)))
    outs := x.outs.map (fun e => (e.1, e.2.map (fun o => ({ o with tok := o.tok.unmarked } : OutTok))))
    shuttleIn := x.shuttleIn.map Token.unmarked }

/-- All stale marks cleared at a step (R22), but for those of the places named in R26, whose tokens get a new age. -/
def clearMarks (s : State) : State :=
  { s with
    motifs := s.motifs.map (fun e => (e.1, e.2.unmarked))
    selvedge := { s.selvedge with inject := s.selvedge.inject.map (fun e => { e with old := false }) }
    dram := { s.dram with rows := s.dram.rows.map Packet.unmarked }
    net := { s.net with
      flying := s.net.flying.map Packet.unmarked
      inbox := s.net.inbox.map Packet.unmarked
      crossing := s.net.crossing.map (fun e => (e.1, e.2.map Packet.unmarked))
      sources := s.net.sources.map (fun e => (e.1, { e.2 with queue := e.2.queue.map Packet.unmarked })) } }

end Sys2Proof.Machine
end

