-- ==== Sys2Proof/Machine/Scratch.lean ====
section
/-! DEFINITION. Scratchpad accesses (R71, R108, R110, R111, R113 to R115, R195) and the counters every memory error feeds (R192, R204, R205). -/

namespace Sys2Proof.Machine
open Sys2Proof

/-- Bank of a linear scratchpad byte address (bank × 32 KiB + offset). -/
def spBank (a : Nat) : Nat := a / 32768

/-- Power state of a scratchpad bank (0x3200 + m:08): 0 ON, 1 RETENTION, 2 OFF. -/
def spPower (s : State) (m b : Nat) : Nat := field (s.obj (0x3200 + m) 8) (2 * b + 1) (2 * b)

/-- The bank is ON and not in transition (R113). -/
def spOn (s : State) (m b : Nat) : Bool :=
  spPower s m b == 0 && (s.motif m).bankTr.all (fun t => t.bank != b)

/-- The mirror pair (its number and the partner) whose primary is `b` (0x3200 + m:09). -/
def mirrorOf (s : State) (m b : Nat) : Option (Nat × Nat) :=
  ((List.range 4).map (fun n => (n, field (s.obj (0x3200 + m) 9) (8 * n + 7) (8 * n)))).findSome?
    (fun e => if bit e.2 7 && field e.2 2 0 == b then some (e.1, field e.2 5 3) else none)

/-- The bank is the partner of a mirror pair: nothing addresses it (R112, Table 6.10). -/
def isPartner (s : State) (m b : Nat) : Bool :=
  (List.range 4).any (fun n => let e := field (s.obj (0x3200 + m) 9) (8 * n + 7) (8 * n); bit e 7 && field e 5 3 == b)

/-- State of a mirror pair in 0x3200 + m:2D: 0 intact, 1 primary lost, 2 partner lost, 3 unused. -/
def mirrorState (s : State) (m n : Nat) : Nat := field (s.obj (0x3200 + m) 0x2D) (2 * n + 1) (2 * n)

/-- A corrected error in a motif's SRAM counted (0x3200 + m:2B, 0x3701:01). -/
def sramCorrected (m : Nat) (s : State) : State := (s.bump (0x3200 + m) 0x2B).bump 0x3701 1

/-- An uncorrectable error in a motif's SRAM counted (0x3200 + m:2C, 0x3701:02). -/
def sramUncorrectable (m : Nat) (s : State) : State := (s.bump (0x3200 + m) 0x2C).bump 0x3701 2

/-- The ECC state a read of the 64-bit word at linear address `a` meets: a word known to be bad stays bad. -/
def spEcc (s : State) (m a ecc : Nat) : Nat := if mget 0 (s.motif m).ecc (a / 8) = 2 then 2 else ecc

/-- A bank of pair `n` that fails again at the same address within 1,024 epochs is lost, with MIRROR_LOST and DEGRADED bit 1 (R195). -/
def mirrorFail (m n a : Nat) (primary : Bool) (s : State) : State :=
  let x := s.motif m
  let again := x.bankErrs.any (fun e => e.1 == a / 8 && decide (s.t < e.2 + 1024 * 2 ^ 20))
  let s1 := s.setMotif m { x with bankErrs := (a / 8, s.t) :: x.bankErrs.filter (fun e => e.1 != a / 8) }
  if again then
    setDegraded 1 true (s1.setObj (0x3200 + m) 0x2D
      (withField (s1.obj (0x3200 + m) 0x2D) (2 * n + 1) (2 * n) (if primary then 1 else 2)))
  else s1

/-- The address of a word's copy in the partner bank, with the pair's number, while the pair whose primary holds the word is intact. -/
def intactPair (s : State) (m a : Nat) : Option (Nat × Nat) :=
  match mirrorOf s m (spBank a) with
  | none => none
  | some (n, q) => if mirrorState s m n = 0 then some (n, 32768 * q + a % 32768) else none

/-- The address that serves a word: the partner's once the primary is lost (R195). -/
def spServe (s : State) (m a : Nat) : Nat :=
  match mirrorOf s m (spBank a) with
  | none => a
  | some (n, q) => if mirrorState s m n = 1 then 32768 * q + a % 32768 else a

/-- The 64-bit word at `src` copied over the one at `dst`, which then has valid ECC (R111). -/
def spCopy (src dst : Nat) (x : Motif) : Motif :=
  { x with scratch := memWrite x.scratch (dst / 8 * 8) (memRead x.scratch (src / 8 * 8) 8), ecc := mset 0 x.ecc (dst / 8) 0 }

/-- An uncorrectable word that no mirror serves: counted, and known to be bad from now on. -/
def spBad (m a : Nat) (s : State) : State :=
  sramUncorrectable m (s.setMotif m { s.motif m with ecc := mset 0 (s.motif m).ecc (a / 8) 2 })

/-- An access to the 64-bit word at `a` with ECC outcome `ecc` (R108, R111, R192, R195): the word is readable after it, the state holds it corrected,
and the address says where; or it is uncorrectable and no mirror serves it. An intact pair rewrites a bad primary word from its partner. -/
def spAccess (m a ecc : Nat) (s : State) : Option Nat × State :=
  let au := spServe s m a
  let e := spEcc s m au ecc
  if e ≠ 2 then (some au, if e = 1 then sramCorrected m s else s)
  else match intactPair s m a with
    | some (n, ap) =>
      if mget 0 (s.motif m).ecc (ap / 8) ≠ 2 then
        (some a, mirrorFail m n a true (sramUncorrectable m (s.setMotif m (spCopy ap a (s.motif m)))))
      else (none, spBad m a s)
    | none => (none, spBad m au s)

/-- What a read of a scratchpad word gives: the word, or `none` for an uncorrectable error that no mirror serves. -/
def spRead (m a ecc : Nat) (s : State) : Option Word × State :=
  match spAccess m a ecc s with
  | (none, s1) => (none, s1)
  | (some b, s1) => (some (memWord (s1.motif m).scratch b), s1)

/-- A read-modify-write of a 32-bit word (R108, R111, R195): `false` when an uncorrectable error that no mirror serves keeps it from being performed;
then 0x3200 + m:2C counts and SRAM_UNCORRECTABLE is latched. Both banks of an intact mirror pair get the whole 64-bit word. -/
def spModify (m a : Nat) (f : Word → Word) (ecc : Nat) (s : State) : Bool × State :=
  match spAccess m a ecc s with
  | (none, s1) => (false, raise 8 s1)
  | (some b, s1) =>
    let x := s1.motif m
    let x1 : Motif := { x with scratch := memSetWord x.scratch b (f (memWord x.scratch b)) }
    (true, s1.setMotif m (match intactPair s m a with | some (_, ap) => spCopy b ap x1 | none => x1))

/-- A 32-bit write. -/
def spWrite (m a : Nat) (w : Word) (ecc : Nat) (s : State) : Bool × State := spModify m a (fun _ => w) ecc s

/-- A write without error reporting by the caller (a store under TID 0, a store-buffer drain: Table 5.2). -/
def spStore (m a : Nat) (w : Word) (ecc : Nat) (s : State) : State := (spWrite m a w ecc s).2

/-- The linear address an LD or ST addresses (R71): bank BANK with SPAN = 0; bank address[4:2], word address[17:5] with SPAN = 1. -/
def spLinear (bank : Nat) (span : Bool) (addr : Nat) : Nat :=
  if span then 32768 * field addr 4 2 + field addr 17 5 * 4 else 32768 * bank + addr

/-- The program fault an LD or ST address raises (Tables 2.8, 3.13), or 0. -/
def spFault (s : State) (m bank : Nat) (span : Bool) (addr : Nat) : Nat :=
  if addr % 4 ≠ 0 then 0x02
  else if (if span then 262140 else 32764) < addr then 0x03
  else if !spOn s m (spBank (spLinear bank span addr)) then 0x05
  else 0

/-- The store-buffer entry an LD of TID `t` sees at an address (R110, R148): the newest entry of its own TID, else the newest committed one. -/
def sbEntryFor (x : Motif) (t a : Nat) : Option SbEntry :=
  match (x.sb.reverse.find? (fun e => e.tid == t && t != 0 && e.addr == a)) with
  | some e => some e
  | none => x.sb.reverse.find? (fun e => e.committed && e.addr == a)

/-- The store-buffer word an LD of TID `t` sees at an address. -/
def sbForward (x : Motif) (t a : Nat) : Option Word := (sbEntryFor x t a).map (·.data)

/-- A store-buffer entry read with an uncorrectable error (R192, R194, Table 5.2): counted, and latched for a committed one. -/
def sbBad (m : Nat) (e : SbEntry) (s : State) : State :=
  if e.committed then raise 8 (sramUncorrectable m s) else sramUncorrectable m s

/-! ## Bank power transitions (R113) -/

/-- Nanoseconds of a bank transition (Tables 3.8, 6.13): `fill` is the time of the zero fill. -/
def bankTime (old new fill : Nat) : Nat :=
  if old = 2 then (if new = 0 then 400 + fill else 500 + fill)
  else if new = 2 then 50 else if new = 1 then 100 else 200

/-- A bank filled with zero words with valid ECC. -/
def zeroBank (bank : Nat) (x : Motif) : Motif :=
  let lo := 32768 * bank
  { x with scratch := memZero x.scratch lo (lo + 32768), ecc := x.ecc.filter (fun e => decide (e.1 < lo / 8) || decide ((lo + 32768) / 8 ≤ e.1)) }

/-- BANK_POWER set to `v` (R113, R114): a transition starts for each bank whose state changes. A bank that leaves OFF holds zero words when it is done. A
write that reaches a bank in transition ends that transition and times the new one from its target state (DESIGN CHOICE, log 147). -/
def startBanks (m v : Nat) (s : State) : State :=
  let trs := (List.range 8).filterMap (fun b =>
    let o := spPower s m b
    let n := field v (2 * b + 1) (2 * b)
    if o = n then none
    else some ({ bank := b, target := n, zeroFill := o == 2, due := s.time.clk + bankTime o n (cyclesNs s m 4096) } : BankTr))
  let x := s.motif m
  let x1 := trs.foldl (fun y t => if t.zeroFill then zeroBank t.bank y else y) x
  (s.setMotif m { x1 with bankTr := x.bankTr.filter (fun t => trs.all (fun u => u.bank != t.bank)) ++ trs }).setObj (0x3200 + m) 8 v

end Sys2Proof.Machine
end

