-- ==== Sys2Proof/Machine/AddressMap.lean ====
section
/-! DEFINITION. The address map of Table 6.10 (R228, R240, R244, R245). -/

namespace Sys2Proof.Machine
open Sys2Proof

/-- What an address names. -/
inductive Region where
  | hoop (h o : Nat)
  | scratch (m a : Nat)
  | mp
  | dram (o : Nat)
  | unmapped
  deriving DecidableEq, Repr

/-- Usable DRAM bytes (0x3012:02, MiB). -/
def dramUsable (s : State) : Nat := 1048576 * s.obj 0x3012 2

/-- A DRAM offset, if it lies in usable DRAM. -/
def dramRegion (s : State) (o : Nat) : Region := if o < dramUsable s then .dram o else .unmapped

/-- The region of a 36-bit byte address (Table 6.10, R240, R245). -/
def regionOf (s : State) (a : Nat) : Region :=
  if a < 0x01000000 then
    let o := a % 0x400000
    if 0x400000 - 16384 ≤ o then .unmapped else .hoop (a / 0x400000) o
  else if a < 0x02000000 then
    let m := (a - 0x01000000) / 0x40000
    let o := (a - 0x01000000) % 0x40000
    if isPartner s m (spBank o) then .unmapped else .scratch m o
  else if a < 0x02100000 then .mp
  else if 0x80000000 ≤ a ∧ a < 0x100000000 then dramRegion s (1048576 * s.obj 0x3012 5 + (a - 0x80000000))
  else if 0x100000000 ≤ a then dramRegion s (a - 0x100000000)
  else .unmapped

end Sys2Proof.Machine
end

