-- ==== Sys2Proof/Machine/TxnOps.lean ====
section
/-! DEFINITION. Transactions: records, opening, faults and aborts at a motif, the replay decision, aborts and commits at the selvedge controller
(R130 to R153, R164, R169 to R174), with their trace records (R447). -/

namespace Sys2Proof.Machine
open Sys2Proof

/-- Value of a state in Table 4.3. -/
def TxState.val : TxState → Nat
  | .opened => 1 | .executing => 2 | .checked => 3 | .committed => 4 | .aborted => 5 | .released => 6

/-- CODE of the transaction trace record (Table 11.5). -/
def Cause.traceCode : Cause → Nat
  | .none => 0 | .mismatch => 0xF0 | .device => 0xF1 | .program c => c | .cascade => 0xF2 | .deadline => 0xF3

/-- Word in which an abort notice carries its cause: 0 mismatch, 1 device fault, 2 cascade, 3 deadline, 0x100 + code for a program fault. -/
def Cause.word : Cause → Nat
  | .none => 0 | .mismatch => 0 | .device => 1 | .cascade => 2 | .deadline => 3 | .program c => 0x100 + c

/-- The cause an abort notice's word stands for. -/
def causeOfWord (n : Nat) : Cause :=
  if n = 0 then .mismatch else if n = 1 then .device else if n = 2 then .cascade else if n = 3 then .deadline else .program (n - 0x100)

/-- The cause is one after which the opening motif may decide a replay: program faults, cascades and deadline aborts are never replayed (R141). -/
def Cause.replayable : Cause → Bool
  | .mismatch => true | .device => true | _ => false

/-- The deadline instant D = s + d − 24 ns (R134). -/
def Txn.deadline (x : Txn) : Stamp := x.release - 24#32

/-- A transaction trace record (Table 11.5): emitted for classes selected in 0x5200:03. `st` 7 is a deadline action. -/
def traceTxn (tid st info : Nat) (x : Txn) (s : State) : State :=
  if bit (s.obj 0x5200 3) x.cls then
    let code := if st = 5 then x.cause.traceCode else 0
    let r := s.now.toNat + 2 ^ 32 * x.stamp.toNat + 2 ^ 64 * tid + 2 ^ 76 * x.cls + 2 ^ 82 * st + 2 ^ 85 * x.exec +
      2 ^ 87 * b2n x.planeB + 2 ^ 88 * code + 2 ^ 96 * (info % 2 ^ 32)
    traceEmit { kind := 1, source := 71, stamp := x.stamp, record := r } s
  else s

/-- A record moves to a state of Table 4.3. -/
def txnMove (tid : Nat) (st : TxState) (info : Nat) (x : Txn) (s : State) : State :=
  let x1 : Txn := { x with state := st }
  traceTxn tid st.val info x1 (s.setTxn tid x1)

/-- TIDs allocated: granted to a pool or not yet returned. -/
def tidTaken (s : State) (t : Nat) : Bool :=
  (s.txn? t).isSome || s.motifs.any (fun e => e.2.pool.contains t)

/-- TIDS_IN_USE (0x3500:01) and its peak. -/
def tidsShow (s : State) : State :=
  let n := s.selvedge.txns.length
  (s.setObj 0x3500 1 n).peak 0x3500 2 n

/-- IN_FLIGHT of a class advanced or reduced (0x3400 + c:14). -/
def inFlight (c : Nat) (up : Bool) (s : State) : State :=
  let n := s.obj (0x3400 + c) 0x14
  s.setObj (0x3400 + c) 0x14 (if up then min 65535 (n + 1) else n - 1)

/-- Entries in all queues (0x3500:04). -/
def entriesShow (s : State) : State :=
  s.setObj 0x3500 4 ((s.selvedge.queues.map (fun e => e.2.length)).foldl (· + ·) 0)

/-! ## Opening (R134) -/

/-- The record of a transaction opened by an instance: class c, stamp s, release s + d, plane, parent, execution 0. -/
def openRecord (s : State) (m : Nat) (planeB : Bool) (c : Nat) (stamp : Stamp) (parent : Nat) : Txn :=
  let d := s.cls planeB c
  { state := .opened, cls := c, stamp := stamp, release := stamp + BitVec.ofNat 32 d.offset, planeB := planeB, parent := parent,
    opener := m, members := d.members, part := 2 ^ m }

/-- Depth of a transaction: 0 without an uncommitted ancestor, else one more than its parent's (R153). -/
def txnDepth : Nat → Nat → State → Nat
  | 0, _, _ => 4
  | f + 1, t, s =>
    match s.txn? t with
    | none => 0
    | some x =>
      if x.parent = 0 then 0
      else match s.txn? x.parent with
        | none => 0
        | some p => if p.state = .committed ∨ p.state = .released then 0 else 1 + txnDepth f x.parent s

/-- A TID is provisional: its transaction is OPEN, EXECUTING or CHECKED (R151). -/
def provisional (s : State) (t : Nat) : Bool :=
  match s.txn? t with
  | none => false
  | some x => x.state == .opened || x.state == .executing || x.state == .checked

/-- The opening's effect: TID, record, opening notice, counters (R134). -/
def openTxn (m t : Nat) (planeB : Bool) (c : Nat) (stamp : Stamp) (parent : Nat) (s : State) : State :=
  let x := openRecord s m planeB c stamp parent
  let mo := s.motif m
  let mo1 : Motif := { mo with pool := mo.pool.erase t, parts := mset {} mo.parts t { opener := true, cls := c } }
  let s1 := (s.setMotif m mo1).setTxn t x
  let s2 := s1.submit m (noticeToSelvedge 0 t 0 stamp [])
  tidsShow (inFlight c true ((traceTxn t 1 0 x s2).bump (0x3400 + c) 0x0A))

/-! ## The replay decision (R173) -/

/-- Switch words the streamer emits for a TID: head and data words of each record (R179). -/
def streamWords (x : Motif) (t : Nat) : Nat :=
  (x.log.filter (fun r => r.bound && r.tid == t)).foldl (fun n r => n + 1 + r.words.length) 0

/-- A cell of the motif has been marked suspect for this TID and a spare is taken for it: the replay starts when its remap has ended (R184). -/
def remapWanted (s : State) (m t : Nat) : Bool := (s.motif m).suspectTid.any (fun e => e.1 == t)

/-- Hoop cycles that a remap in progress still takes (R184). -/
def remapLeft (s : State) (m : Nat) (r : Remap) : Nat := 64 - s.obj (0x3100 + hoopOf m) 1 * (s.time.clk - r.since) / 1000000000

/-- Hoop cycles from the request of TID `t`'s replay until its remaps have ended (R184): each takes 64 of its own, beside the others and beside the
streamer, and those that have not begun start with the request. -/
def remapCycles (s : State) (m t : Nat) : Nat :=
  let x := s.motif m
  ((x.suspectTid.filter (fun e => e.1 == t)).map (fun e =>
    match x.remaps.find? (fun r => r.pos == e.2) with | some r => remapLeft s m r | none => 64)).foldl max 0

/-- The hoop cycle from now in which the streamer can start to read after every replay requested or decided so far (R180): the records being emitted
leave one word per cycle; each further replay starts after them, after its own request, which the replay service writes within 6 cycles of the one
before it, and after its own remaps; its head word leaves 3 cycles later. Beside it stands the cycle of the last request. -/
def streamerFree (s : State) (m : Nat) : Nat × Nat :=
  let x := s.motif m
  let emitting := (((x.out 18 ++ x.streaming).filter (fun o => o.tok.replay)).map OutTok.size).foldl (· + ·) 0
  let after := fun (start u : Nat) => start + 3 + streamWords x u
  let asked := x.replays.foldl (fun f u => after (max f (remapCycles s m u)) u) (if emitting = 0 then 0 else emitting + 1)
  (x.serving ++ x.decided).foldl (fun (e : Nat × Nat) u => (e.1 + 6, after (max e.2 (e.1 + 7 + remapCycles s m u)) u)) (0, asked)

/-- Hoop cycles from the decision of a replay to its first head word (R180, Table 5.4): 10 with the streamer idle, 74 with a remap. -/
def replayLead (s : State) (m t : Nat) : Nat :=
  let (asked, free) := streamerFree s m
  max free (asked + 7 + remapCycles s m t) + 3

/-- The three conditions of R173 at the opening motif m for the abort of execution `n`: budget; log; time. While the motif's shuttle is
halted its classes have no replay budget (R328). -/
def replayBudget (s : State) (m t n : Nat) : Bool :=
  match s.txn? t with
  | none => false
  | some x => decide (n < (s.cls x.planeB x.cls).budget) && !bit (s.obj 0x3038 1) m

/-- Second condition: the log records of the TID are present (R178) and read without an uncorrectable error; `bad` holds the TIDs of which a
record does not. A TID without any record has nothing to replay. -/
def replayLogged (s : State) (m t : Nat) (bad : TidList) : Bool :=
  !((s.motif m).part t).unlogged && !bad.contains t && (s.motif m).log.any (fun r => r.bound && r.tid == t)

/-- Third condition: the first replayed head word leaves at or before D − EXEC_BOUND. -/
def replayInTime (s : State) (m t : Nat) : Bool :=
  match s.txn? t with
  | none => false
  | some x =>
    let leave := s.t + cyclesNs s m (replayLead s m t)
    let lim := extendStamp s.t (x.deadline) - (s.cls x.planeB x.cls).execBound
    decide (leave ≤ lim)

/-- The opening motif decides and sends its replay or no-replay notice (R173, R174). A record that the replay needs and that is uncorrectable is counted
and latched (Tables 5.2, 5.8). -/
def replayDecide (m t n : Nat) (bad : TidList) (s : State) : State :=
  match s.txn? t with
  | none => s
  | some x =>
    if replayBudget s m t n && replayLogged s m t bad && replayInTime s m t then
      let mo := s.motif m
      let p := mo.part t
      let mo1 : Motif := { mo with decided := mo.decided ++ [t], parts := mset {} mo.parts t { p with exec := n + 1 } }
      (s.setMotif m mo1).submit m (noticeToSelvedge 3 t (n + 1) x.stamp [])
    else
      let s1 := if replayBudget s m t n && replayLogged s m t bad && !replayInTime s m t then
        (s.bump (0x3740 + x.cls) 3).bump 0x3700 9 else s
      let s2 := if replayBudget s m t n && bad.contains t && !((s.motif m).part t).unlogged && (s.motif m).log.any (fun r => r.bound && r.tid == t) then
        raise 8 (sramUncorrectable m s1) else s1
      s2.submit m (noticeToSelvedge 4 t n x.stamp [])

/-- Motif m aborts execution n of TID t for a cause: its own part of the abort, its abort notice, and, when it opened the TID and the
cause can be replayed, its replay decision (R169, R171, R173), `bad` being the TIDs of which a log record is uncorrectable. An execution already ended is ignored (R172). -/
def motifAbort (m t n : Nat) (c : Cause) (bad : TidList) (s : State) : State :=
  if n < ((s.motif m).part t).ended then s
  else
    let stamp := match s.txn? t with | some x => x.stamp | none => 0#32
    let s1 := abortAtMotif m t n s
    let s2 := s1.submit m (noticeToSelvedge 2 t n stamp [BitVec.ofNat 32 c.word, BitVec.ofNat 32 m])
    if ((s2.motif m).part t).opener && c.replayable then replayDecide m t n bad s2 else s2

/-- A program fault detected in motif m under a TID (R164); under TID 0 there is no transaction to abort. -/
def programFault (m t n code : Nat) (s : State) : State :=
  if t = 0 then s else motifAbort m t n (.program code) [] s

/-! ## The selvedge controller's side -/

/-- Entries of a TID removed from every queue (R141). -/
def dropEntries (t : Nat) (s : State) : State :=
  let q := s.selvedge.queues.map (fun e => (e.1, e.2.filter (fun x => x.tid != t || x.committed)))
  entriesShow { s with selvedge := { s.selvedge with queues := q.filter (fun e => !e.2.isEmpty) } }

/-- Abort notices to the members of a mask but one (R171). -/
def notifyAbort (members skip t n : Nat) (stamp : Stamp) (s : State) : State :=
  (bitsOf members 64).foldl (fun st m => if m = skip then st else st.submit 71 (noticeToMotif 2 m t n stamp)) s

/-- The record can still be aborted. -/
def Txn.live (x : Txn) : Bool := x.state == .opened || x.state == .executing || x.state == .checked

/-- An aborted record gets no replay, for cause `c`: one that is in progress or pending is stopped by abort notices for its execution (R142, R143, R152). -/
def endReplay (t : Nat) (c : Cause) (x : Txn) (s : State) : State :=
  let s1 := s.setTxn t { x with cause := c, noReplay := true }
  if x.noReplay then s1 else notifyAbort x.members 64 t (x.exec + 1) x.stamp s1

/-- The selvedge controller aborts TID t (R141): record ABORTED, entries removed, notices forwarded to the members other than `skip`, and each
child aborted as a cascade (R152), one that has aborted already and was not given up at its D too. Without a replay the record waits for its deadline
action. -/
def selvAbort : Nat → Nat → Cause → Nat → State → State
  | 0, _, _, _, s => s
  | f + 1, t, c, skip, s =>
    match s.txn? t with
    | none => s
    | some x =>
      if !x.live then (if x.state == .aborted && c == .cascade && x.cause != .deadline then endReplay t c x s else s)
      else
        let x1 : Txn := { x with cause := c, noReplay := !c.replayable, part := 2 ^ x.opener, closed := 0 }
        let info := match c with | .mismatch => skip % 64 | _ => 0
        let s1 := txnMove t .aborted info x1 s
        let s2 := match c with | .program k => s1.setObj (0x3400 + x.cls) 0x12 k | _ => s1
        let s3 := notifyAbort x.members skip t x.exec x.stamp (dropEntries t s2)
        (s3.selvedge.txns.filter (fun e => e.2.parent == t)).foldl (fun st e => selvAbort f e.1 .cascade 64 st) s3

/-- Smallest D minus commit instant (0x3400 + c:11, INTEGER32). -/
def slackUpdate (x : Txn) (s : State) : State :=
  let v := diff x.deadline s.now
  if v < fromTwos 32 (s.obj (0x3400 + x.cls) 0x11) then s.setObj (0x3400 + x.cls) 0x11 (toTwos 32 v) else s

/-- Entries of a committed TID marked for release; REENTRY entries leave their queue to be injected in the next cycle (R140, R156). -/
def commitEntries (t : Nat) (s : State) : State :=
  let re := (s.queue 42).filter (fun e => e.tid == t)
  let s1 := s.setQueue 42 ((s.queue 42).filter (fun e => e.tid != t))
  let q := s1.selvedge.queues.map (fun e => (e.1, e.2.map (fun x => if x.tid == t then { x with committed := true } else x)))
  entriesShow { s1 with selvedge := { s1.selvedge with queues := q, inject := s1.selvedge.inject ++ re } }

/-- The commit (R140): record COMMITTED, entries marked, commit notices to the participation set, children re-examined next. -/
def commitTxn (t : Nat) (x : Txn) (s : State) : State :=
  let slack := toTwos 32 (diff x.deadline s.now)
  let s1 := commitEntries t (txnMove t .committed slack x s)
  let s2 := slackUpdate x (s1.bump (0x3400 + x.cls) 0x0B)
  let s3 := (bitsOf x.part 64).foldl (fun st m => st.submit 71 (noticeToMotif 5 m t x.exec x.stamp)) s2
  let kids := (s3.selvedge.txns.filter (fun e => e.2.parent == t && e.2.state == .checked)).map (·.1)
  { s3 with selvedge := { s3.selvedge with recheck := s3.selvedge.recheck ++ kids } }

/-- The parent allows a commit: there is none, or it is COMMITTED or RELEASED (R140). -/
def parentDone (s : State) (x : Txn) : Bool :=
  if x.parent = 0 then true
  else match s.txn? x.parent with
    | none => true
    | some p => p.state == .committed || p.state == .released

/-- Every motif of the participation set has closed. -/
def partClosed (x : Txn) : Bool := (bitsOf x.part 64).all (bit x.closed ·)

/-- No motif of the participation set has a mismatch of the execution pending, nor a store buffer that overflowed in it (Table 4.3), nor has its router
discarded a token of it for want of a valid route entry: such a TID cannot close (R234). -/
def partSound (s : State) (t : Nat) (x : Txn) : Bool :=
  (bitsOf x.part 64).all (fun m =>
    (s.motif m).mism.all (fun d => d.tid != t || d.exec != x.exec) && ((s.motif m).part t).overEx != x.exec + 1 &&
      ((s.motif m).part t).lostEx != x.exec + 1)

/-- A notice of a kind for a TID that waits at the selvedge controller (R213, Table 6.3). -/
def atSelvedge (kind t : Nat) (p : Packet) : Bool :=
  p.typ == 1 && p.edge && p.dx == 3 && p.dy == 0 && p.endpoint == 48 && p.aux == kind && p.tid == t

/-- An abort notice of the execution has come to the selvedge controller: it wins over the close of its cycle (R142). -/
def abortWaits (s : State) (t : Nat) (x : Txn) : Bool := s.net.inbox.any (fun p => atSelvedge 2 t p && decide (x.exec ≤ p.exec))

/-- A commit decided now is in time, at or before D, and no abort notice stands against it (R142). -/
def commitInTime (s : State) (t : Nat) (x : Txn) : Bool := decide (diff x.deadline s.now ≥ 0) && !abortWaits s t x

/-- EXECUTING → CHECKED when the participation set has closed with no mismatch pending and no overflow, and → COMMITTED in the same cycle without an
uncommitted parent (Table 4.3), in time and with no abort notice against it (R142). -/
def tryCommit (t : Nat) (s : State) : State :=
  match s.txn? t with
  | none => s
  | some x =>
    if !commitInTime s t x then s
    else if x.state = .executing ∧ partClosed x ∧ partSound s t x then
      let s1 := txnMove t .checked 0 x s
      if parentDone s1 x then commitTxn t { x with state := .checked } s1 else s1
    else if x.state = .checked ∧ parentDone s x then commitTxn t x s
    else s

/-! ## The deadline instant (R142, R143, R161) -/

/-- The record is to be aborted or finally given up by the deadline check at T: its D has come, it has not committed, and no
no-replay outcome stands already. -/
def deadlineDue (now : Stamp) (x : Txn) : Bool :=
  decide (0 ≤ diff now x.deadline) && (x.live || (x.state == .aborted && !x.noReplay))

/-- One record at its deadline instant: aborted with cause deadline, or, where a replay was pending, given up. -/
def deadlineAt (t : Nat) (s : State) : State :=
  match s.txn? t with
  | none => s
  | some x =>
    if !deadlineDue s.now x then s
    else if x.live then selvAbort 8 t .deadline 64 s
    else if x.silent then s
    else endReplay t .deadline x s

/-- The deadline instant of a record went by before the event at hand: its check has been made first (R142, R143). -/
def deadlineGone (t : Nat) (s : State) : State :=
  match s.txn? t with
  | none => s
  | some x => if 0 < diff s.now x.deadline then deadlineAt t s else s

/-- The record with the closes that wait at the selvedge controller taken in. -/
def withCloses (s : State) (t : Nat) (x : Txn) : Txn :=
  (s.net.inbox.filter (fun p => atSelvedge 1 t p && decide (x.exec ≤ p.exec))).foldl
    (fun y p => { y with part := y.part ||| leNat (wordBytes p.data) ||| 2 ^ p.src, closed := y.closed ||| 2 ^ p.src }) x

/-- At D itself a commit that this same cycle decides is in time (R142): one that the waiting closes decide, or that of a CHECKED child whose
re-examination is due (R140). The check leaves the record to it. -/
def commitsNow (s : State) (t : Nat) (x : Txn) : Bool :=
  let y := withCloses s t x
  diff s.now x.deadline == 0 && parentDone s y && !abortWaits s t x &&
    ((y != x && x.state == .executing && partClosed y && partSound s t y) || (x.state == .checked && s.selvedge.recheck.contains t))

/-- One record at the deadline check. -/
def deadlineCheck (t : Nat) (s : State) : State :=
  match s.txn? t with
  | none => s
  | some x => if commitsNow s t x then s else deadlineAt t s

/-- A deadline miss without a transaction (R537): alarm, sampler record of cause 5, 0x3400 + c:0E and :13. -/
def lateOpening (c : Nat) (stamp : Stamp) (s : State) : State :=
  let s1 := sample 2 (leBytes 0 2 ++ leBytes c 1 ++ leBytes 0 1 ++ leBytes stamp.toNat 4 ++ leBytes 5 1 ++ leBytes 0 1 ++ leBytes 0 2) (raise 2 s)
  (s1.bump (0x3400 + c) 0x0E).setObj (0x3400 + c) 0x13 stamp.toNat

end Sys2Proof.Machine
end

