-- ==== Sys2Proof/Machine/Operands.lean ====
section
/-! DEFINITION. Operand sources and destinations of a cell (Tables 2.1, 2.2), the bank an instance works on (R52 to R55, R147),
and what the end of an instance sends (R58, R59, R72, R133, R137). -/

namespace Sys2Proof.Machine
open Sys2Proof

/-- The bank register of a source or destination code 4–7. -/
def Bank.k (b : Bank) (i : Nat) : Word := if i = 0 then b.k0 else if i = 1 then b.k1 else if i = 2 then b.k2 else b.k3

/-- The bank with register k_i written. -/
def Bank.setK (b : Bank) (i : Nat) (w : Word) : Bank :=
  if i = 0 then { b with k0 := w } else if i = 1 then { b with k1 := w } else if i = 2 then { b with k2 := w } else { b with k3 := w }

/-- The motif and run after the run's bank is replaced. -/
def setRunBank (x : Motif) (pos : Nat) (r : Run) (b : Bank) : Motif × Run :=
  let sl := x.slot pos r.inst.slot
  if r.stopped || !ctxStateful sl.ctx then (x, { r with bank := b })
  else if r.inst.tid = 0 then (x.setSlot pos r.inst.slot { sl with live := b }, r)
  else (x.setSlot pos r.inst.slot { sl with shadow := b }, r)

/-- Data word of the current beat from input `i`: a one-word token supplies its word to every beat (R56). -/
def inputWord (r : Run) (i : Nat) : Word :=
  match r.inst.toks.find? (fun e => e.1 == i) with
  | none => 0#32
  | some (_, t) => if t.words.length = 1 then t.words.headD 0#32 else t.words.getD r.beat 0#32

/-- The value a source code reads (Table 2.1); `mc` is the motif constant of the instance's plane (R279). -/
def sourceValue (ctx : BitVec 128) (b : Bank) (r : Run) (mc : Word) (code : Nat) : Word :=
  if code ≤ 3 then inputWord r code
  else if code ≤ 7 then b.k (code - 4)
  else if code = 8 then accSource b.a0
  else if code = 9 then accSource b.a1
  else if code = 10 then ctxImm ctx
  else if code = 11 then 0#32
  else if code = 12 then r.inst.stamp
  else if code = 13 then BitVec.ofNat 32 r.inst.tid
  else if code = 14 then mc
  else if r.beat = 0 then 0#32 else r.prev

/-- A bank after a result word is written to a destination code (Table 2.2): k0–k3, a0 and a1 sign-extended; no other code is a register. -/
def writeDest (b : Bank) (code : Nat) (w : Word) : Bank :=
  if 4 ≤ code ∧ code ≤ 7 then b.setK (code - 4) w
  else if code = 8 then { b with a0 := accWrite w }
  else if code = 9 then { b with a1 := accWrite w }
  else b

/-- A destination code is a route 0–15. -/
def isRoute (code : Nat) : Bool := 0x10 ≤ code && code ≤ 0x1F

/-- What one beat reads: A, B, C, IMM, the slot's table and accumulators. -/
structure BeatIn where
  a : Word
  b : Word
  c : Word
  imm : Word
  lut : List (Nat × Byte)
  acc : Bank
  deriving DecidableEq, Repr

/-- The operands of the current beat of a run at position `pos` of motif `m`. -/
def beatIn (s : State) (m pos : Nat) (r : Run) : BeatIn :=
  let x := s.motif m
  let sl := x.slot pos r.inst.slot
  let b := runBank x pos r
  let mc := if r.inst.planeB then x.constB else x.constA
  let v := sourceValue sl.ctx b r mc
  { a := v (ctxSrcA sl.ctx), b := v (ctxSrcB sl.ctx), c := v (ctxSrcC sl.ctx), imm := ctxImm sl.ctx, lut := sl.lut, acc := b }

/-- The result token of an instance (R59, R81): its stamp and TID, the PRIO of its context, its execution and the plane of its slot. -/
def resultToken (x : Motif) (pos : Nat) (r : Run) (ws : List Word) : Token :=
  { tid := r.inst.tid, stamp := r.inst.stamp, words := ws, prio := ctxPrio (x.slot pos r.inst.slot).ctx, exec := r.inst.exec,
    planeB := slotPlaneB r.inst.slot }

/-- A token sent at elapsed time `clk` from switch source `src` to the route of destination code `dst` (R58, R86); a code that is no route sends nothing. -/
def sendRoute (clk : Nat) (ctx : BitVec 128) (slot src dst : Nat) (t : Token) (x : Motif) : Motif :=
  if isRoute dst then
    x.pushOut clk src { route := x.route (slotPlaneB slot) (ctxSwsel ctx) (dst - 0x10), tok := t, forward := ctxTxb ctx == 4 }
  else x

/-- The instance leaves the cell: admission of a STATEFUL context under TID 0 ends (R146), and the first CLOSE instance of a TID forms
the motif's close (R137). -/
def retireRun (m pos : Nat) (r : Run) (s : State) : State :=
  let x := s.motif m
  let sl := x.slot pos r.inst.slot
  let x1 := if ctxStateful sl.ctx ∧ sl.admitted = some 0 ∧ r.inst.tid = 0 then x.setSlot pos r.inst.slot { sl with admitted := none } else x
  let p := x1.part r.inst.tid
  let close := ctxTxb sl.ctx = 3 ∧ r.inst.tid ≠ 0 ∧ !r.stopped ∧ !p.closed ∧ x1.closes.all (fun c => c.tid != r.inst.tid)
  s.setMotif m (if close then { x1 with closes := x1.closes ++ [{ tid := r.inst.tid, exec := r.inst.exec }] } else x1)

/-- The place in the engine's queue that an instance of GATHER took when it dispatched (R124). -/
def gatherPlace (pos : Nat) (r : Run) (g : Gather) : Bool :=
  !g.ready && g.pos == pos && g.slot == r.inst.slot && g.tid == r.inst.tid && g.exec == r.inst.exec && g.stamp == r.inst.stamp

/-- The first place that fits replaced, or given up. -/
def setPlace (p : Gather → Bool) (f : Gather → Option Gather) : List Gather → List Gather
  | [] => []
  | g :: gs => if p g then (f g).toList ++ gs else g :: setPlace p f gs

/-- An instance under TID 0 that is stopped leaves its cell (R185): its STATEFUL context admits the next, and a GATHER gives up its place. -/
def dropRun (m pos : Nat) (r : Run) (s : State) : State :=
  let x := s.motif m
  retireRun m pos { r with stopped := true } (s.setMotif m { x with gathers := setPlace (gatherPlace pos r) (fun _ => none) x.gathers })

end Sys2Proof.Machine
end

