-- ==== Sys2Proof/Machine/Banks.lean ====
section
/-! DEFINITION. The issue slot of a cell (R60, R98) and the arbitration of the scratchpad banks (R109, Table 3.7). A request that another goes before
waits: its command then stands for one lost cycle (DESIGN CHOICE, log entry 122). -/

namespace Sys2Proof.Machine
open Sys2Proof

/-! ## The issue slot (R60, R98) -/

/-- Latency of an operation in cycles (Table 2.6). -/
def opLatency (op : Nat) : Nat :=
  if (0x30 ≤ op ∧ op ≤ 0x34) ∨ (0x38 ≤ op ∧ op ≤ 0x3C) ∨ (0x48 ≤ op ∧ op ≤ 0x4A) then 2
  else if (0x40 ≤ op ∧ op ≤ 0x47) ∨ (0x4B ≤ op ∧ op ≤ 0x4D) ∨ op = 0x70 then 4
  else 1

/-- A beat of the context reads the previous result or a register that an earlier beat of the instance writes (R60): every beat of the MAC2 family writes
both accumulators, and only their own update chains. -/
def chained (ctx : BitVec 128) : Bool :=
  [ctxSrcA ctx, ctxSrcB ctx, ctxSrcC ctx].any (fun c => c == 15 || (decide (4 ≤ c) && decide (c ≤ 9) && (c == ctxDst0 ctx || c == ctxDst1 ctx))) ||
    (decide (0x38 ≤ ctxOp ctx) && decide (ctxOp ctx ≤ 0x3B) && [ctxSrcA ctx, ctxSrcB ctx, ctxSrcC ctx].any (fun c => c == 8 || c == 9)) ||
    (ctxOp ctx == 0x3C && [ctxDst0 ctx, ctxDst1 ctx].contains (8 + b2n (bit (ctxImm ctx).toNat 0)))

/-- The key of a bank requester in `Motif.bankWaits`: its class of Table 3.7 and, for a cell, its position. -/
def askKey (cls pos : Nat) : Nat := 32 * cls + pos

/-- Cycles a requester's request has waited. -/
def askWaited (x : Motif) (cls pos : Nat) : Nat := mget 0 x.bankWaits (askKey cls pos)

/-- The next beat of a run needs a result of latency above 1 that may not be written yet (R60). Whether it is, the command that comes says. -/
def chainWaits (x : Motif) (pos : Nat) (r : Run) : Bool :=
  let ctx := (x.slot pos r.inst.slot).ctx
  r.beat != 0 && chained ctx && decide (1 < opLatency (ctxOp ctx))

/-- The next beat of a run may leave the issue slot to another: it waits for a result, or its memory request waits for its bank. -/
def mayWait (x : Motif) (pos : Nat) (r : Run) : Bool :=
  let op := ctxOp (x.slot pos r.inst.slot).ctx
  chainWaits x pos r || ((op == 0x70 || op == 0x71) && askWaited x 4 pos != 0)

/-- The instance in progress whose next beat takes the issue slot under operation `op` (R98), with the others: the oldest of that operation, unless
the next beat of an older one may issue. -/
def takeRun (x : Motif) (pos op : Nat) : Option (Run × List Run) :=
  let isOp := fun (r : Run) => ctxOp (x.slot pos r.inst.slot).ctx == op
  if ((x.cell pos).runs.takeWhile (fun r => !isOp r)).all (mayWait x pos) then takeFirst isOp (x.cell pos).runs else none

/-- A run put back in its place (the oldest of its operation). -/
def replaceRun (x : Motif) (pos op : Nat) (r : Run) : Motif :=
  let c := x.cell pos
  let rec go : List Run → List Run
    | [] => []
    | y :: ys => if ctxOp (x.slot pos y.inst.slot).ctx == op then r :: ys else y :: go ys
  x.setCell pos { c with runs := go c.runs }

/-- The run that `takeRun` gives removed from the cell. -/
def removeRun (x : Motif) (pos op : Nat) : Motif :=
  match takeRun x pos op with
  | none => x
  | some (_, rest) => x.setCell pos { x.cell pos with runs := rest }

/-- The issue slot after this cycle is free for an instance that dispatches (R98, R99): no run has a beat that may issue in it. The first beat of a
run issues in its dispatch cycle. -/
def slotFree (x : Motif) (pos : Nat) (c : Cell) : Bool := c.runs.all (fun r => decide (r.beats ≤ max r.beat 1) || mayWait x pos r)

/-! ## Requests for a bank (R109) -/

/-- One request for a scratchpad bank: its class of Table 3.7, the PRIO of its context, its position, the cycles it has waited, and the number of
cycles after which it goes before the classes 3 to 6. -/
structure BankAsk where
  cls : Nat := 0
  prio : Nat := 0
  pos : Nat := 0
  waited : Nat := 0
  limit : Nat := 32
  deriving DecidableEq, Repr

/-- 0 for the classes 1 and 2, 1 for a request that has waited its limit, 2 for every other. -/
def BankAsk.tier (a : BankAsk) : Nat := if a.cls ≤ 2 then 0 else if a.limit ≤ a.waited then 1 else 2

/-- Request `a` is served before request `b` (R109). -/
def BankAsk.before (a b : BankAsk) : Bool :=
  if a.tier ≠ b.tier then decide (a.tier < b.tier)
  else if a.cls ≠ b.cls then decide (a.cls < b.cls)
  else if a.prio ≠ b.prio then decide (b.prio < a.prio)
  else decide (a.pos < b.pos)

/-- The byte address A + IMM modulo 2³² of an LD or ST (R71). -/
def memAddr (i : BeatIn) : Nat := (i.a + i.imm).toNat

/-- The check an element fails first (Table 3.9), or 0. -/
def gatherCheck (s : State) (m : Nat) (ctx : BitVec 128) (g : Gather) (index : Nat) : Nat :=
  let w := (ctxImm ctx).toNat % 65536
  let window := if w = 0 then 65536 else w
  let a := g.base + 4 * index
  if window ≤ index then 1
  else if 32764 < a then 2
  else if g.base % 4 ≠ 0 then 3
  else if !spOn s m (ctxBank ctx) then 4
  else 0

/-- The engine's output buffer has room for the word of the next element (R85): words of the token it belongs to wait there with its head, until
the token is whole. The mask word follows element 15. -/
def gatherFits (x : Motif) (ctx : BitVec 128) (g : Gather) : Bool :=
  !isRoute (if g.k < 8 then ctxDst0 ctx else ctxDst1 ctx) ||
    decide (outUsed x 17 + g.out.length + (if g.k = 15 ∧ ctxGfill ctx then 3 else 2) ≤ 16)

/-- The gather engine's request for bank `b`: its next element passes its checks and its word has room. -/
def gatherAsk (s : State) (m b : Nat) : List BankAsk :=
  let x := s.motif m
  match x.gathers with
  | [] => []
  | g :: _ =>
    let ctx := (x.slot g.pos g.slot).ctx
    if g.started && gatherFits x ctx g && ctxBank ctx == b && gatherCheck s m ctx g (g.indices.getD g.k 0) == 0 then
      [{ cls := 3, waited := askWaited x 3 0 }] else []

/-- The request of the cell at `pos` for bank `b` (class 4): the next beat that takes its issue slot is an LD that no store-buffer entry answers or an
ST under TID 0, with an address of that bank. -/
def cellAsk (s : State) (m b : Nat) (e : Nat × Cell) : List BankAsk :=
  let x := s.motif m
  match e.2.runs.find? (fun r => !chainWaits x e.1 r) with
  | none => []
  | some r =>
    let ctx := (x.slot e.1 r.inst.slot).ctx
    let a := memAddr (beatIn s m e.1 r)
    let lin := spLinear (ctxBank ctx) (ctxSpan ctx) a
    if !r.stopped && spBank lin == b && spFault s m (ctxBank ctx) (ctxSpan ctx) a == 0 &&
        ((ctxOp ctx == 0x70 && (sbForward x r.inst.tid lin).isNone) || (ctxOp ctx == 0x71 && r.inst.tid == 0)) then
      [{ cls := 4, prio := ctxPrio ctx, pos := e.1, waited := askWaited x 4 e.1 }] else []

/-- The router still holds a request for the motif's scratchpad. -/
def routerAsks (s : State) (m : Nat) : Bool :=
  s.net.inbox.any (fun p => (p.typ == 2 || p.typ == 3) && p.dx == m % 8 && p.dy == m / 8 && !p.edge)

/-- The requests for bank `b` that stand in the state (R109): committed store-buffer entries to be drained, the gather engine, the cells, and the
request of the shuttle or of the router that has waited. -/
def bankAsks (s : State) (m b : Nat) : List BankAsk :=
  let x := s.motif m
  (if x.sb.any (fun e => e.committed && spBank e.addr == b) then [{ cls := 2 }] else []) ++ gatherAsk s m b ++ x.cells.flatMap (cellAsk s m b) ++
    (if askWaited x 5 b ≠ 0 ∧ (s.core m).state = 0 then [{ cls := 5, pos := b, waited := askWaited x 5 b }] else []) ++
    (if askWaited x 6 b ≠ 0 ∧ routerAsks s m then [{ cls := 6, pos := b, waited := askWaited x 6 b }] else [])

/-- The bank serves this request in this cycle: no other goes before it. -/
def bankTurn (s : State) (m b : Nat) (a : BankAsk) : Bool :=
  (bankAsks s m b).all (fun o => (o.cls == a.cls && o.pos == a.pos) || !o.before a)

/-- A request that another goes before waits a cycle, counted in 0x3200 + m:0A. -/
def loseTurn (m : Nat) (a : BankAsk) (s : State) : State :=
  let x := s.motif m
  (s.setMotif m { x with bankWaits := mset 0 x.bankWaits (askKey a.cls a.pos) (a.waited + 1) }).bump (0x3200 + m) 0x0A

/-- A request that is served no longer waits. -/
def takeTurn (m : Nat) (a : BankAsk) (s : State) : State :=
  let x := s.motif m
  s.setMotif m { x with bankWaits := mset 0 x.bankWaits (askKey a.cls a.pos) 0 }

/-- An access to bank `b` under its arbitration: `f` when the request is served, else the wait. -/
def atBank (m b : Nat) (a : BankAsk) (f : State → State) (s : State) : State :=
  if bankTurn s m b a then f (takeTurn m a s) else loseTurn m a s

end Sys2Proof.Machine
end

