-- ==== Sys2Proof/Machine/Flags.lean ====
section
/-! DEFINITION. The events a beat counts (R76, Table 2.12) and the lane comparison (R73, R169, R170). The block has no flag register:
the cell arithmetic counters of 0x3020 are what an operation leaves behind besides its result. -/

namespace Sys2Proof.Machine
open Sys2Proof

/-- One event counter advanced if its event occurred. -/
def bumpIf (c : Bool) (sub : Nat) (s : State) : State := if c then s.bump 0x3020 sub else s

/-- The counters of 0x3020 after a beat with result `r` (R76): one beat adds at most 1 to each. -/
def countEvents (r : FRes) (s : State) : State :=
  bumpIf r.intSat 5 (bumpIf r.convSat 4 (bumpIf r.flushed 3 (bumpIf r.overflow 2 (bumpIf r.invalid 1 s))))

/-- A comparison that fails in this beat waits for its report (R73, R169). -/
def noteMismatch (m pos : Nat) (r : Run) (mem : Bool) (s : State) : State :=
  let x := s.motif m
  let d : Mism := { pos := pos, slot := r.inst.slot, tid := r.inst.tid, exec := r.inst.exec, stamp := r.inst.stamp, mem := mem }
  s.setMotif m { x with mism := x.mism ++ [d] }

/-- The lanes of this beat disagree. -/
def lanesDiffer (b : CellBeat) : Bool := b.mismatch.isSome

/-- The result word that leaves (R73): the computed one, or the word the mismatching lanes put out. -/
def resultWord (b : CellBeat) (r : FRes) : Word := b.mismatch.getD r.val

end Sys2Proof.Machine
end

