-- ==== Sys2Proof/Machine/Motif.lean ====
section
/-! DEFINITION. Motifs (R78 to R128): token delivery and matching, selection and dispatch, cancellation, scratchpad bank power, the gather engine,
the scrub engines and context repair. -/

namespace Sys2Proof.Machine
open Sys2Proof

/-! ## The stitch switch (R83 to R90) -/

/-- A token whose execution has ended here, whose TID is not allocated, or whose TID has received its commit notice here (R144, R169). -/
def straggler (s : State) (m : Nat) (t : Token) : Bool :=
  let p := (s.motif m).part t.tid
  t.tid != 0 && (decide (t.exec < p.ended) || (s.txn? t.tid).isNone || p.committed)

/-- The packet of a token or cancel word that leaves a motif by the router (R90, R133, R214): a FORWARD result goes to port 42. -/
def egressPacket (o : OutTok) : Packet :=
  let stream := field o.route 11 2
  let p := tokenPacket stream o.tok
  if o.forward ∧ !o.tok.cancel then { p with stream := none, dx := 3, dy := 0, edge := true, endpoint := 42, reStream := stream } else p

/-- Switch words a crossing queue between a motif and its router holds (Table 1.7). -/
def crossUsed (s : State) (q : Nat) : Nat := ((mget [] s.net.crossing q).map (fun p => 1 + p.words)).foldl (· + ·) 0

/-- A packet put into a dual-clock queue (R42). -/
def cross (q : Nat) (p : Packet) (s : State) : State :=
  { s with net := { s.net with crossing := mset [] s.net.crossing q (mget [] s.net.crossing q ++ [p]) } }

/-! ## Matching (R91 to R94, R136, R175) -/

/-- The log record of a token that came by the router to an OPEN slot (R175 to R178): the motif and the token with its record's number. -/
def logToken (s : State) (m endpoint : Nat) (t : Token) : Token × State :=
  let x := s.motif m
  let r : LogRec := { id := x.logNext, endpoint := endpoint, planeB := t.planeB, provisional := t.tid != 0 && provisional s t.tid,
                      stamp := t.stamp, words := t.words }
  if logUsed x + r.size ≤ 8192 then
    let x1 : Motif := { x with log := x.log ++ [r], logNext := x.logNext + 1 }
    ({ t with logId := r.id }, (s.setMotif m x1).peak (0x3200 + m) 0x29 (logUsed x1))
  else ({ t with unlogged := true }, raise 16 (s.bump (0x3200 + m) 0x2A))

/-- The matching key of a token at a slot (R91). -/
def matchKey (ctx : BitVec 128) (t : Token) : Nat := if ctxTxb ctx = 1 then t.stamp.toNat else t.tid

/-- The motif takes part in the token's TID at a slot that is not OPEN (R136); an older execution it still holds ends at once (R171).
`false` when the motif is no member: the TID aborts. -/
def participate (m : Nat) (t : Token) (s : State) : Bool × State :=
  match s.txn? t.tid with
  | none => (true, s)
  | some x =>
    if !bit x.members m then (false, programFault m t.tid t.exec 0x21 s)
    else
      let s1 := if ((s.motif m).part t.tid).exec < t.exec then abortAtMotif m t.tid (t.exec - 1) s else s
      let mo := s1.motif m
      let p := mo.part t.tid
      (true, s1.setMotif m (mo.setPart t.tid { p with exec := max p.exec t.exec, cls := x.cls }))

/-- A token stored in a matching store entry of the cell at `pos` (R91), with MATCH_PEAK. -/
def storeToken (m pos slot input : Nat) (t : Token) (s : State) : State :=
  let x := s.motif m
  let c := x.cell pos
  let c1 : Cell := { c with store := c.store ++ [{ slot := slot, input := input, key := matchKey (x.slot pos slot).ctx t, tok := t }] }
  (s.setMotif m (x.setCell pos c1)).peak (0x3200 + m) 1 (storeUsed c1)

/-- A token delivered to one input of one slot: participation at a slot that is not OPEN, then the store and what it forms. -/
def deliverTo (m : Nat) (d : Nat × Nat × Nat) (t : Token) (s : State) : State :=
  let (pos, input, slot) := d
  let ctx := ((s.motif m).slot pos slot).ctx
  if ctxTxb ctx ≠ 1 ∧ t.tid ≠ 0 then
    let (ok, s1) := participate m t s
    if ok then settleCell m pos (storeToken m pos slot input t s1) else s1
  else settleCell m pos (storeToken m pos slot input t s)

/-- TOKEN_DELIVERY (R83 to R94): the token at the head of source `src` moves to the destinations it is granted, the router's through a crossing queue
of 32 switch words (R42, R43). A token that finds no matching store entry waits and counts once; one whose execution has ended is discarded (R144).
A cancel word at the shuttle input is dropped (DESIGN CHOICE, log entry 116); a token whose route entry is unused, which only the shuttle can
send, stays at the head of its source (DESIGN CHOICE, log entry 117). -/
def execTokenDelivery (m src : Nat) (s : State) : Host.Outcome State Fault Refusal :=
  let x := s.motif m
  match x.out src with
  | [] => done s
  | o :: _ =>
    let ds := outDests x o
    let s1 := s.setMotif m (popOut s.time.clk src x)
    if routeKind o.route = 3 then
      if !granted x src o then done s
      else if bit o.route 12 then
        done (if o.tok.cancel then s1 else
          s1.setMotif m { s1.motif m with shuttleIn := (s1.motif m).shuttleIn ++ [o.tok] })
      else if 32 < crossUsed s m + o.size then done s
      else done (cross m (egressPacket o) s1)
    else if o.tok.cancel ∨ ds.isEmpty then done s
    else if straggler s m o.tok then done (s1.bump 0x3500 0x0C)
    else if remapping x ds ∨ !granted x src o then done s
    else if noEntry x ds then
      if o.waitT = 0 then done ((s.setMotif m (setHead src { o with waitT := s.time.clk + 1 } x)).bump (0x3200 + m) 2) else done s
    else
      let toOpen := ds.any (fun d => ctxTxb (x.slot d.1 d.2.2).ctx == 1)
      let (t, s2) := if src = 16 ∧ toOpen then logToken s1 m o.endpoint o.tok else (o.tok, s1)
      done (ds.foldl (fun st d => deliverTo m d t st) s2)

/-- MATCH_ENTRY_WAIT_TIMEOUT (R94): a head word that has waited 4,096 cycles aborts its TID as MATCH_OVERFLOW, or is discarded. -/
def execMatchEntryWaitTimeout (m src : Nat) (s : State) : Host.Outcome State Fault Refusal :=
  let x := s.motif m
  match x.out src with
  | [] => done s
  | o :: _ =>
    if o.waitT ≠ 0 ∧ o.waitT - 1 + cyclesNs s m 4096 ≤ s.time.clk then
      let s1 := s.setMotif m (popOut s.time.clk src x)
      if o.tok.tid = 0 then done (s1.bump (0x3200 + m) 5) else done (programFault m o.tok.tid o.tok.exec 0x04 s1)
    else done s

/-- ORDER_WINDOW_REACHED (R93, R95): instances of ORDERED slots at a position that have become eligible enter their lists. -/
def execOrderWindowReached (m pos : Nat) (s : State) : Host.Outcome State Fault Refusal := done (settleCell m pos s)

/-! ## Selection (R99, R100) -/

/-- Result words one instance puts into its cell's output buffer (R59, R85). -/
def resultSize (ctx : BitVec 128) (n : Nat) : Nat :=
  let op := ctxOp ctx
  let routes := b2n (isRoute (ctxDst0 ctx)) + b2n (isRoute (ctxDst1 ctx))
  if op = 0x71 ∨ op = 0x74 ∨ op = 0x81 then 0
  else if op = 0x82 then (if isRoute (ctxDst0 ctx) then n else 0)
  else if op = 0x80 then (if routes = 0 then 0 else 1 + n)
  else if 0x38 ≤ op ∧ op ≤ 0x3B then routes * 2
  else routes * (1 + n)

/-- Words of the lead token of an instance: its beats (R56). -/
def instBeats (i : Inst) : Nat := (i.toks.head?.map (fun t => t.2.words.length)).getD 1

/-- Words a run still puts into its cell's output buffer: a CANCEL sends one with each beat, every other operation all at its end. -/
def runWords (x : Motif) (pos : Nat) (r : Run) : Nat :=
  let ctx := (x.slot pos r.inst.slot).ctx
  if r.stopped then 0 else resultSize ctx (if ctxOp ctx = 0x82 then r.beats - r.beat else r.beats)

/-- Results of the instance, with those of the instances in progress, fit the output buffer (R85). -/
def fitsOut (x : Motif) (pos : Nat) (c : Cell) (i : Inst) : Bool :=
  let coming := (c.runs.map (runWords x pos)).foldl (· + ·) 0
  decide (outUsed x pos + coming + resultSize (x.slot pos i.slot).ctx (instBeats i) ≤ 16)

/-- Winners of the motif's cells that wait to dispatch and whose context satisfies a test. -/
def winnersWith (x : Motif) (p : BitVec 128 → Inst → Bool) : Nat :=
  (x.cells.filter (fun e => match e.2.winner with | some i => p (x.slot e.1 i.slot).ctx i | none => false)).length

/-- The last words of a gather that has been served still wait in the engine's output buffer: its place is not free yet (R124). -/
def gatherTail (x : Motif) : Bool := !(x.out 17).isEmpty && !(match x.gathers with | g :: _ => g.started | [] => false)

/-- A GATHER finds a place in the engine's queue of four (R124): places are taken at dispatch, and a winner will take one. -/
def gatherRoom (x : Motif) (ctx : BitVec 128) : Bool :=
  ctxOp ctx != 0x74 || decide (x.gathers.length + b2n (gatherTail x) + winnersWith x (fun c _ => ctxOp c == 0x74) < 4)

/-- The instance opens a transaction when it dispatches (R134, R181). -/
def opens (ctx : BitVec 128) (i : Inst) : Bool := ctxTxb ctx == 1 && !i.replay

/-- An OPEN instance needs a TID of the pool (R132): one beside those that winners will take in their dispatch cycle. -/
def tidReady (x : Motif) (ctx : BitVec 128) (i : Inst) : Bool := !opens ctx i || decide (winnersWith x opens < x.pool.length)

/-- The instances of a slot that wait for admission, all TIDs (R146). -/
def waitersOf (c : Cell) (k : Nat) : List Inst := (c.formed ++ c.ready).filter (fun i => i.slot == k && i.readyAt != 0)

/-- An instance of a STATEFUL context waits while one of its slot is in progress (R54). -/
def slotFreeOf (x : Motif) (pos : Nat) (c : Cell) (i : Inst) : Bool :=
  !ctxStateful (x.slot pos i.slot).ctx || !c.runs.any (fun r => r.inst.slot == i.slot)

/-- A STATEFUL context admits the instance: its TID is admitted, or none is and it is the earliest waiting (R146). -/
def admits (s : State) (x : Motif) (pos : Nat) (c : Cell) (i : Inst) : Bool :=
  let sl := x.slot pos i.slot
  if !ctxStateful sl.ctx then true
  else match sl.admitted with
    | some t => t != 0 && t == i.tid && !opens sl.ctx i
    | none => (waitersOf c i.slot).all (fun j => (i.tid != 0 && j.tid == i.tid) || decide (stampKey s.now i.stamp i.old ≤ stampKey s.now j.stamp j.old))

/-- The new transaction's depth is at most 3 (R153). -/
def depthOk (s : State) (ctx : BitVec 128) (i : Inst) : Bool :=
  !opens ctx i || i.parent == 0 || !provisional s i.parent || decide (1 + txnDepth 4 i.parent s ≤ 3)

/-- Waits an instance passed over in this cycle newly counts: 1 TID_STARVED, 2 STATEFUL_WAITS, 3 CHAIN_WAITS. -/
def waitsOf (s : State) (x : Motif) (pos : Nat) (c : Cell) (i : Inst) : List Nat :=
  let ctx := (x.slot pos i.slot).ctx
  (if tidReady x ctx i then [] else [1]) ++ (if admits s x pos c i then [] else [2]) ++ (if depthOk s ctx i then [] else [3])

/-- A candidate is not passed over (R99). Whether its words would meet scheduled words on the port (R59) is a matter of cycles (log entry 123). -/
def eligible (s : State) (x : Motif) (pos : Nat) (c : Cell) (i : Inst) : Bool :=
  let ctx := (x.slot pos i.slot).ctx
  fitsOut x pos c i && gatherRoom x ctx && tidReady x ctx i && slotFreeOf x pos c i && admits s x pos c i && depthOk s ctx i

/-- Candidates in their order (R99): those listed before this cycle from level 3 down, then the bypass, those that became ready in it, whether or
not they found a place in their list. The bypass too goes from level 3 down (DESIGN CHOICE, log entry 118). -/
def candidates (s : State) (x : Motif) (pos : Nat) (c : Cell) : List Inst :=
  let listed := c.ready.filter (fun i => decide (i.readyAt ≤ s.time.clk))
  let fresh := (c.ready ++ c.formed).filter (fun i => decide (s.time.clk < i.readyAt))
  let lvl := fun (l : List Inst) (p : Nat) => l.filter (fun i => instPrio x pos i == p)
  lvl listed 3 ++ lvl listed 2 ++ lvl listed 1 ++ lvl listed 0 ++ lvl fresh 3 ++ lvl fresh 2 ++ lvl fresh 1 ++ lvl fresh 0

/-- The 0x3500 counter of a wait of `waitsOf`. -/
def waitSub (w : Nat) : Nat := if w = 1 then 3 else if w = 2 then 0x0F else 0x0E

/-- Each wait of each listed instance counted once (R132, R146, R153). -/
def countWaits (m pos : Nat) (is : List Inst) (s : State) : State :=
  is.foldl (fun st i =>
    let x := st.motif m
    let c := x.cell pos
    let ws := (waitsOf st x pos c i).filter (fun w => !bit i.counted w)
    let i1 : Inst := { i with counted := ws.foldl (fun n w => withBit n w true) i.counted }
    let put := fun (j : Inst) => if j = i then i1 else j
    let st1 := st.setMotif m (x.setCell pos { c with ready := c.ready.map put, formed := c.formed.map put })
    ws.foldl (fun q w => q.bump 0x3500 (waitSub w)) st1) s

/-- WINNER_SELECTION (R99, R100): with fewer than four instances in progress, the next issue slot free and no winner waiting, the first candidate
that is not passed over becomes the winner. The command follows the beat of its cycle. An instance that became ready in the same cycle with a
higher priority than a winner taken from the lists is late. No cell that is being remapped selects (R184). -/
def execWinnerSelection (m pos : Nat) (s : State) : Host.Outcome State Fault Refusal :=
  let x := s.motif m
  let c := x.cell pos
  if c.winner.isSome ∨ 4 ≤ c.runs.length ∨ !slotFree x pos c ∨ remapping x [(pos, 0, 0)] then done s
  else
    match (candidates s x pos c).find? (eligible s x pos c) with
    | none => done (countWaits m pos (candidates s x pos c) s)
    | some w =>
      let passed := (candidates s x pos c).takeWhile (fun i => decide (i ≠ w))
      let stay := fun (l : List Inst) => l.filter (fun i => decide (i ≠ w))
      let p := instPrio x pos w
      let fromList := decide (w.readyAt ≤ s.time.clk)
      let mark := fun (i : Inst) =>
        if fromList && decide (s.time.clk < i.readyAt) && decide (p < instPrio x pos i) then { i with late := true } else i
      let s1 := countWaits m pos passed s
      let c1 := (s1.motif m).cell pos
      let c2 : Cell := { c1 with ready := (stay c1.ready).map mark, formed := (stay c1.formed).map mark, winner := some w, lastSel := if fromList then some (s.time.clk, p) else c1.lastSel }
      done (settleCell m pos (s1.setMotif m ((s1.motif m).setCell pos c2)))

/-! ## Dispatch (R99 to R101, R133 to R137, R146, R164) -/

/-- Every input's length is 1 or the lead token's; a GATHER's lead has exactly 8 words (R56, R117). -/
def lengthOk (ctx : BitVec 128) (i : Inst) : Bool :=
  let n := instBeats i
  i.toks.all (fun t => t.2.words.length == 1 || t.2.words.length == n) && (ctxOp ctx != 0x74 || n == 8)

/-- The outcomes of Table 3.6 that a dispatch has: late (1), of a replayed TID (5), both, or neither (0). -/
def dispatchOutcomes (i : Inst) : List Nat :=
  if i.late ∨ i.exec ≠ 0 then (if i.late then [1] else []) ++ (if i.exec ≠ 0 then [5] else []) else [0]

/-- The winner's outcomes traced, one record each (R107), and DISPATCH_LATE counted. -/
def noteDispatch (m pos : Nat) (ctx : BitVec 128) (i : Inst) (s : State) : State :=
  let s1 := (dispatchOutcomes i).foldl (fun st o => traceDispatch m pos i.slot (if ctxTxb ctx = 1 then 0 else i.tid) o i.stamp st) s
  if i.late then s1.bump (0x3200 + m) 4 else s1

/-- NEXT_MISSES (R101): a dispatch from idle on a slot other than the held one; the new NEXT slot is held. A NEXT that names a slot without a
context holds none (R48). -/
def noteNext (m pos : Nat) (ctx : BitVec 128) (i : Inst) (s : State) : State :=
  let x := s.motif m
  let c := x.cell pos
  let s1 := s.setMotif m (x.setCell pos { c with next := if ctxValid (x.slot pos (ctxNext ctx)).ctx then ctxNext ctx + 1 else 0 })
  if c.runs.isEmpty ∧ c.next ≠ 0 ∧ c.next ≠ i.slot + 1 then s1.bump (0x3200 + m) 7 else s1

/-- The instance takes its STATEFUL context (R146) and goes into progress with its bank (R53); a GATHER takes its place in the engine's queue (R124). -/
def startRun (m pos : Nat) (i : Inst) (s : State) : State :=
  let x := s.motif m
  let sl := x.slot pos i.slot
  let x1 := if ctxStateful sl.ctx ∧ sl.admitted ≠ some i.tid then
      x.setSlot pos i.slot { sl with admitted := some i.tid, shadow := sl.live } else x
  let c := x1.cell pos
  let r : Run := { inst := i, beats := instBeats i, bank := sl.init }
  let g : Gather := { pos := pos, slot := i.slot, tid := i.tid, exec := i.exec, planeB := slotPlaneB i.slot, stamp := i.stamp, prio := ctxPrio sl.ctx }
  let x2 : Motif := if ctxOp sl.ctx = 0x74 then { x1 with gathers := x1.gathers ++ [g] } else x1
  s.setMotif m (x2.setCell pos { c with runs := c.runs ++ [r] })

/-- A dispatched instance runs, or a length mismatch is its program fault (R56, R117); under TID 0 it then ends with no result (DESIGN CHOICE, log 145). A
GATHER ended so counts in 0x3200:0B, as one ended by a fault (DESIGN CHOICE, log 161). -/
def runOrFault (m pos : Nat) (ctx : BitVec 128) (i : Inst) (s : State) : State :=
  if lengthOk ctx i then startRun m pos i s
  else programFault m i.tid i.exec 0x01 (if ctxOp ctx = 0x74 then s.bump (0x3200 + m) 0x0B else s)

/-- Every other input of an OPEN instance carries TID 0 or the same parent (R151). -/
def oneParent (s : State) (i : Inst) : Bool :=
  (i.toks.drop 1).all (fun t => t.2.tid == 0 || t.2.tid == i.parent || (!provisional s i.parent && !provisional s t.2.tid))

/-- The log records of an instance's tokens freed: they open nothing (R177). -/
def freeLogs (m : Nat) (i : Inst) (s : State) : State := s.setMotif m (logFree (instLogs i) (s.motif m))

/-- An OPEN instance dispatches (R134, R135, R151, R537). -/
def openInst (m pos : Nat) (ctx : BitVec 128) (i : Inst) (s : State) : State :=
  let c := ctxTclass ctx
  let d := s.cls (slotPlaneB i.slot) c
  let deadline := i.stamp + BitVec.ofNat 32 d.offset - 24#32
  if s.classState c = 2 ∨ s.classState c = 3 then (freeLogs m i s).bump (0x3400 + c) 0x10
  else if i.old ∨ diff deadline s.now ≤ 0 then lateOpening c i.stamp (freeLogs m i s)
  else match (s.motif m).pool with
    | [] => s
    | t :: _ =>
      let parent := if provisional s i.parent then i.parent else 0
      let s1 := openTxn m t (slotPlaneB i.slot) c i.stamp parent s
      let x := logBind (instLogs i) t (s1.motif m)
      let p := x.part t
      let s2 := s1.setMotif m (x.setPart t { p with unlogged := i.toks.any (fun e => e.2.unlogged) })
      if !bit d.members m then programFault m t 0 0x21 s2
      else if !oneParent s i then programFault m t 0 0x23 s2
      else runOrFault m pos ctx { i with tid := t } s2

/-- The matching store gives token number `tok` of the winner with an uncorrectable error (R194): the TID that owns the token aborts as a device fault.
A token of TID 0 has no TID to abort: the instance goes with its tokens, and SRAM_UNCORRECTABLE is latched (DESIGN CHOICE, log entry 126). -/
def lostToken (m pos : Nat) (i : Inst) (tok : Nat) (bad : TidList) (s : State) : State :=
  let t := (i.toks[tok]?.map (·.2)).getD {}
  let s1 := sramUncorrectable m s
  if t.tid ≠ 0 then motifAbort m t.tid t.exec .device bad s1
  else
    let x := s1.motif m
    settleCell m pos (raise 8 (s1.setMotif m (logFree (instLogs i) (x.setCell pos { x.cell pos with winner := none }))))

/-- INSTANCE_DISPATCH (R99): the winner of the previous cycle dispatches; `ecc` is what the matching store words of its token number `tok` show (R192).
While its cell is being remapped no instance dispatches there (R184), and one
that opens a transaction waits while the pool has no TID (R132). -/
def execInstanceDispatch (m pos ecc tok : Nat) (bad : TidList) (s : State) : Host.Outcome State Fault Refusal :=
  let x := s.motif m
  let c := x.cell pos
  match c.winner with
  | none => done s
  | some i =>
    let ctx := (x.slot pos i.slot).ctx
    let s1 := (if ecc = 1 then sramCorrected m s else s).setMotif m (x.setCell pos { c with winner := none })
    let txb := ctxTxb ctx
    if remapping x [(pos, 0, 0)] || (opens ctx i && x.pool.isEmpty) then done s
    else if ecc = 2 then done (lostToken m pos i tok bad s)
    else if i.tid = 0 ∧ (txb = 2 ∨ txb = 3 ∨ txb = 4) then done (settleCell m pos (s1.bump 0x3500 0x0D))
    else
      let s2 := noteDispatch m pos ctx i (noteNext m pos ctx i s1)
      if opens ctx i then done (settleCell m pos (openInst m pos ctx i s2))
      else if i.tid ≠ 0 ∧ ((s2.motif m).part i.tid).closed then done (programFault m i.tid i.exec 0x22 s2)
      else done (settleCell m pos (runOrFault m pos ctx i s2))

/-! ## Cancellation (R102 to R104) -/

/-- A cancel word for TID `t` acts on slot `k` of a cell: the cell without its tokens and instances there, what was removed. -/
def cancelCell (t k : Nat) (c : Cell) : Cell × List MEntry × List Inst :=
  let hit := fun (i : Inst) => i.slot == k && i.tid == t
  ({ c with
     store := c.store.filter (fun e => !(e.slot == k && e.tok.tid == t))
     formed := c.formed.filter (fun i => !hit i)
     ready := c.ready.filter (fun i => !hit i)
     winner := c.winner.filter (fun i => !hit i) },
   c.store.filter (fun e => e.slot == k && e.tok.tid == t), (c.formed ++ c.ready ++ c.winner.toList).filter hit)

/-- A cancel word arrives at one destination; at an OPEN slot it is only counted (R104). A record of tokens freed without an instance carries the
cancel word's stamp (DESIGN CHOICE, log entry 120). -/
def cancelAt (m : Nat) (d : Nat × Nat × Nat) (tok : Token) (s : State) : State :=
  let (pos, _, slot) := d
  let x := s.motif m
  if ctxTxb (x.slot pos slot).ctx = 1 then s.bump (0x3200 + m) 0x14
  else
    let (c, toks, is) := cancelCell tok.tid slot (x.cell pos)
    let x1 := logFree (toks.map (·.tok.logId) ++ is.flatMap instLogs) (x.setCell pos c)
    let s1 := traceInsts m pos 2 is (s.setMotif m x1)
    let s2 := if is.isEmpty ∧ !toks.isEmpty then traceDispatch m pos slot tok.tid 3 tok.stamp s1 else s1
    settleCell m pos s2

/-- CANCEL_WORD_ARRIVAL (R102 to R104): the cancel word at the head of source `src` acts at its destinations. -/
def execCancelWordArrival (m src : Nat) (s : State) : Host.Outcome State Fault Refusal :=
  let x := s.motif m
  match x.out src with
  | [] => done s
  | o :: _ =>
    if o.tok.cancel ∧ granted x src o ∧ (routeKind o.route = 1 ∨ routeKind o.route = 2) then
      done ((outDests x o).foldl (fun st d => cancelAt m d o.tok st) (s.setMotif m (popOut s.time.clk src x)))
    else done s

/-! ## Scratchpad bank power (R113, R114) -/

/-- Motif m is idle (R344): every class with m in MEMBERS is SUSPENDED, OFFLINE or UNUSED and has nothing in flight. -/
def motifIdle (s : State) (m : Nat) : Bool :=
  (List.range 64).all (fun c =>
    !bit (s.cls s.activeB c).members m || (s.classState c != 1 && s.obj (0x3400 + c) 0x14 == 0))

/-- The state fields of a mirror pair differ in `v`. -/
def mirrorSplit (s : State) (m v : Nat) : Bool :=
  (List.range 8).any (fun b => match mirrorOf s m b with
    | some (_, q) => field v (2 * b + 1) (2 * b) != field v (2 * q + 1) (2 * q)
    | none => false)

/-- The effect of a write of BANK_POWER (R114): transitions start for the banks whose state changes. -/
def writeBankPower (m v : Nat) (s : State) : Reply :=
  if !motifIdle s m then .refuse s abortState
  else if (List.range 8).any (fun b => field v (2 * b + 1) (2 * b) == 3) then .refuse s abortValue
  else if mirrorSplit s m v then .refuse s abortValue
  else .ok (startBanks m v s)

/-- BANK_POWER_WRITE (R114). -/
def execBankPowerWrite (path m v : Nat) (s : State) : Host.Outcome State Fault Refusal :=
  done (sdoWrite path (0x3200 + m % 64) 8 2 v (writeBankPower (m % 64) (v % 65536)) s)

/-- BANK_POWER_TRANSITION_DONE (R113): contents are lost in OFF. A bank that leaves OFF was filled with zero words on its way. -/
def execBankPowerTransitionDone (m bank : Nat) (s : State) : Host.Outcome State Fault Refusal :=
  let x := s.motif m
  match takeFirst (fun (t : BankTr) => t.bank == bank && decide (t.due ≤ s.time.clk)) x.bankTr with
  | none => done s
  | some (t, rest) =>
    let x1 : Motif := { x with bankTr := rest }
    done (s.setMotif m (if t.target = 2 then zeroBank bank x1 else x1))

/-! ## The gather engine (R117 to R124) -/

/-- GATHER_START (R124): the oldest queued gather is served once the last word of the one before it has entered the switch and its index words have
come. -/
def execGatherStart (m : Nat) (s : State) : Host.Outcome State Fault Refusal :=
  let x := s.motif m
  match x.gathers with
  | [] => done s
  | g :: gs => if g.ready && !gatherTail x then done (s.setMotif m { x with gathers := { g with started := true } :: gs }) else done s

/-- A fault word (R119). -/
def gatherFaultWord (code k a : Nat) : Word := BitVec.ofNat 32 (2 ^ 28 * code + 2 ^ 24 * k + a % 2 ^ 18)

/-- A gather's token on one of its destinations, from source 17 (R120); NONE discards it. -/
def gatherSend (m : Nat) (g : Gather) (dst : Nat) (ws : List Word) (s : State) : State :=
  let x := s.motif m
  let ctx := (x.slot g.pos g.slot).ctx
  let t : Token := { tid := g.tid, stamp := g.stamp, words := ws, prio := g.prio, exec := g.exec, planeB := g.planeB }
  s.setMotif m (sendRoute s.time.clk ctx g.slot 17 dst t x)

/-- The gather at the head of the queue replaced, or removed. -/
def setGather (m : Nat) (g : Option Gather) (s : State) : State :=
  let x := s.motif m
  s.setMotif m { x with gathers := g.toList ++ x.gathers.drop 1 }

/-- A gather ends in the engine (R124): counted in 0x3200:0B. -/
def gatherEnd (m : Nat) (s : State) : State := (setGather m none s).bump (0x3200 + m) 0x0B

/-- A word appended to the gather's result: the DST0 token leaves after element 7, the DST1 token after element 15 with, in FILL mode,
the mask word. -/
def gatherWord (m : Nat) (g : Gather) (w : Word) (filled : Bool) (s : State) : State :=
  let ctx := ((s.motif m).slot g.pos g.slot).ctx
  let out := g.out ++ [w]
  let mask := if filled then g.mask + 2 ^ g.k else g.mask
  if g.k = 7 then setGather m (some { g with k := 8, out := [], mask := mask }) (gatherSend m g (ctxDst0 ctx) out s)
  else if g.k = 15 then
    gatherEnd m (gatherSend m g (ctxDst1 ctx) (out ++ (if ctxGfill ctx then [BitVec.ofNat 32 mask] else [])) s)
  else setGather m (some { g with k := g.k + 1, out := out, mask := mask }) s

/-- A fault ends the gather (R122): the fault word is the token's last word. -/
def gatherFault (m : Nat) (g : Gather) (code a : Nat) (bad : TidList) (s : State) : State :=
  let ctx := ((s.motif m).slot g.pos g.slot).ctx
  let dst := if g.k ≤ 7 then ctxDst0 ctx else ctxDst1 ctx
  let s1 := gatherEnd m (gatherSend m g dst (g.out ++ [gatherFaultWord code g.k a]) s)
  if code = 5 then (if g.tid = 0 then raise 8 s1 else motifAbort m g.tid g.exec .device bad (raise 8 s1))
  else programFault m g.tid g.exec (0x10 + code) (s1.bump (0x3200 + m) 0x0C)

/-- GATHER_ELEMENT_READ (R118 to R123): the next element is checked, read under the bank's arbitration and emitted. The engine waits while its output
buffer has no room (R85). -/
def execGatherElementRead (m ecc : Nat) (bad : TidList) (s : State) : Host.Outcome State Fault Refusal :=
  match (s.motif m).gathers with
  | [] => done s
  | g :: _ =>
    if !g.started || !gatherFits (s.motif m) ((s.motif m).slot g.pos g.slot).ctx g then done s
    else
      let ctx := ((s.motif m).slot g.pos g.slot).ctx
      let index := g.indices.getD g.k 0
      let a := g.base + 4 * index
      let code := gatherCheck s m ctx g index
      if code ≠ 0 then
        if ctxGfill ctx then done (gatherWord m g g.fill true (s.bump (0x3200 + m) 0x0D)) else done (gatherFault m g code a bad s)
      else
        done (atBank m (ctxBank ctx) { cls := 3, waited := askWaited (s.motif m) 3 0 } (fun st =>
          match spRead m (32768 * ctxBank ctx + a) ecc st with
          | (some w, s1) => gatherWord m g w false s1
          | (none, s1) => gatherFault m g 5 a bad s1) s)

/-! ## Scrub and repair (R193, R195, R275) -/

/-- The mirror pair (its number and its primary) whose partner is bank `b`. -/
def primaryOf (s : State) (m b : Nat) : Option (Nat × Nat) :=
  (List.range 8).findSome? (fun p => match mirrorOf s m p with | some (n, q) => if q = b then some (n, p) else none | none => none)

/-- A scrub read that no mirror serves: an error of a bank in use latches SRAM_UNCORRECTABLE. -/
def scrubAlone (m a ecc : Nat) (used : Bool) (s : State) : State :=
  if spEcc s m a ecc = 2 then (if used then raise 8 (spBad m a s) else spBad m a s)
  else if ecc = 1 then sramCorrected m s else s

/-- A scrub read of a word in an ON bank (R192, R193, R195): a single-bit error is corrected and counted; an uncorrectable word of an intact mirror pair
is rewritten from the other bank; elsewhere it is counted, and SRAM_UNCORRECTABLE latched unless its bank is the lost one of a pair. -/
def scrubWord (m a ecc : Nat) (s : State) : State :=
  match primaryOf s m (spBank a) with
  | some (n, p) =>
    let prim := 32768 * p + a % 32768
    if mirrorState s m n = 0 ∧ spEcc s m a ecc = 2 ∧ mget 0 (s.motif m).ecc (prim / 8) ≠ 2 then
      mirrorFail m n a false (sramUncorrectable m (s.setMotif m (spCopy prim a (s.motif m))))
    else scrubAlone m a ecc (mirrorState s m n != 2) s
  | none =>
    if spServe s m a ≠ a then scrubAlone m a ecc false s
    else match spAccess m a ecc s with
      | (some _, s1) => s1
      | (none, s1) => raise 8 s1

/-- The scrub's request for a bank (R193): it takes idle cycles, or goes before the classes 3 to 6 once it has waited 1,024. -/
def scrubScratch (m a ecc : Nat) (s : State) : State :=
  let b := spBank a
  if !spOn s m b then s
  else atBank m b { cls := 7, pos := b, waited := askWaited (s.motif m) 7 b, limit := 1024 } (scrubWord m a ecc) s

/-- A word of a motif's configuration rewritten from the mirror (R275): `kind` 0 the context word of a slot, 1 its lookup table, 2 and 3 a route entry of
pattern table A or B, entry `slot` of pattern `pos`. -/
def Motif.repair (x : Motif) (kind pos slot : Nat) : Motif :=
  let k := 16 * pos + slot
  let sl := x.slot pos slot
  if kind = 0 then x.setSlot pos slot { sl with ctx := mget 0#128 x.mirror.ctx k }
  else if kind = 1 then x.setSlot pos slot { sl with lut := mget [] x.mirror.lut k }
  else if kind = 2 then { x with patA := mset 0 x.patA k (mget 0 x.mirror.patA k) }
  else { x with patB := mset 0 x.patB k (mget 0 x.mirror.patB k) }

/-- CONTEXT_REPAIR (R275): a word that differed from its mirror is rewritten from it, counted and latched. `ecc` is what the mirror's word shows
(R192): one that is uncorrectable gives nothing to rewrite from; it is counted and latched as an error of the SRAM. -/
def execContextRepair (m kind pos slot ecc : Nat) (s : State) : Host.Outcome State Fault Refusal :=
  if ecc = 2 then done (raise 8 (sramUncorrectable m s))
  else
    let s1 := raise 20 ((s.setMotif m ((s.motif m).repair kind pos slot)).bump 0x3601 0x0A)
    done (if ecc = 1 then sramCorrected m s1 else s1)

end Sys2Proof.Machine
end

