-- ==== Sys2Proof/Machine/PortFormat.lean ====
section
/-! DEFINITION. The payload formats of selvedge entries (Table 4.6) and of serial channels' frame bodies (R406, R409, R412). -/

namespace Sys2Proof.Machine
open Sys2Proof

/-- Word `i` of a list. -/
def wordAt (ws : List Word) (i : Nat) : Nat := (ws.getD i 0#32).toNat

/-- A setting of channel ch: subindex 02 to 07 of 0x4100. -/
def serCfg (s : State) (ch sub : Nat) : Nat := s.obji ch 0x4100 sub

/-- MODE: 0 off, 1 UART, 2 SSI, 3 drive. -/
def serMode (s : State) (ch : Nat) : Nat := serCfg s ch 2

/-- The data words of an entry fit the channel's mode (R406, R409, R412). -/
def serFormat (s : State) (ch : Nat) (ws : List Word) : Bool :=
  let fmt := serCfg s ch 4
  let n := wordAt ws 0
  if serMode s ch = 1 then decide (1 ≤ n) && decide (n ≤ 56) && ws.length == 1 + (n + 3) / 4
  else if serMode s ch = 2 then ws.length == 1 && n == 0
  else if serMode s ch = 3 then
    (if bit fmt 8 then n / 128 == 0 && decide (1 ≤ n / 16) && decide (n / 16 ≤ 5) && decide (ws.length ≤ 15) else decide (1 ≤ field fmt 6 4) && decide (field fmt 6 4 ≤ 5) && decide (ws.length ≤ 14))
  else true

/-- The pairs of an ECAT_PD entry are well formed (Table 4.6). -/
def ecatPairsOk : List Word → Bool
  | [] => true
  | [_] => false
  | a :: _ :: r =>
    let n := a.toNat
    let size := 2 ^ field n 11 10
    field n 11 10 != 3 && n / 4096 == 0 && field n 9 0 % size == 0 && ecatPairsOk r

/-- The data words of an entry fit its port's format (Table 4.6, R155, and for SER channels R406, R409, R412). -/
def portFormat (s : State) (port : Nat) (ws : List Word) : Bool :=
  let n := ws.length
  let w0 := wordAt ws 0
  if port < 24 then n == 1 && w0 / 4 == 0
  else if port < 32 then 1 ≤ n && n ≤ 15 && serFormat s (port - 24) ws
  else if port = 32 then 2 ≤ n && n ≤ 14 && ecatPairsOk ws
  else if port = 33 then
    let len := wordAt ws 1
    2 ≤ n && len / 128 == 0 && len ≤ (if bit w0 30 then 64 else 8) && n == 2 + (len + 3) / 4
  else if port = 34 then 2 ≤ n && n ≤ 15 && w0 % 4 == 0 && (match regionOf s w0 with | .unmapped => false | _ => true)
  else if port < 40 then 1 ≤ n && n ≤ 15
  else if port < 42 then 2 ≤ n && n ≤ 15 && w0 / 1024 == 0
  else 1 ≤ n && n ≤ 15

end Sys2Proof.Machine
end

