-- ==== Sys2Proof/Machine/Txn.lean ====
section
/-! DEFINITION. Timed transactions (R130 to R166, R169 to R174): grants, notices at the selvedge controller and at the motifs, closes, commits, the
store-buffer drain, entries of the selvedge queues, the deadline check and the return of TIDs. Releases stand in Release.lean. -/

namespace Sys2Proof.Machine
open Sys2Proof

/-! ## Notices (R213, Table 6.3): AUX 0 OPENING, 1 CLOSE, 2 ABORT, 3 REPLAY, 4 NO_REPLAY, 5 COMMIT, 6 TID_GRANT -/

/-- A notice of a kind for a TID that waits at motif m. -/
def atMotif (kind m t : Nat) (p : Packet) : Bool :=
  p.typ == 1 && !p.edge && p.dx == m % 8 && p.dy == m / 8 && p.aux == kind && p.tid == t

/-- A packet for the selvedge controller: a token for a port or a notice. -/
def forSelvedge (p : Packet) : Bool := decide (p.typ < 2) && p.edge && p.dx == 3 && p.dy == 0

/-- A token is held at the selvedge controller's input by its full queue (R158). -/
def heldToken (s : State) (p : Packet) : Bool :=
  forSelvedge p && p.typ == 0 && p.waited != 0 && decide (256 ≤ (s.queue p.endpoint).length)

/-- The packet waits at the selvedge controller: a full queue back-pressures its whole input, notices included (R158), and what one source sent
is taken in the order in which it came (R138). -/
def behindHeld (s : State) (p : Packet) : Bool :=
  forSelvedge p && (s.net.inbox.takeWhile (fun q => q != p)).any (fun q => heldToken s q || (forSelvedge q && q.src == p.src))

/-- The first delivered packet that satisfies a test, taken out of the delivered packets, unless another goes before it. -/
def takePacket (f : Packet → Bool) (s : State) : Option (Packet × State) :=
  match takeFirst f s.net.inbox with
  | none => none
  | some (p, rest) => if behindHeld s p then none else some (p, { s with net := { s.net with inbox := rest } })

/-- The motif holds a context with TXB = OPEN. -/
def holdsOpen (x : Motif) : Bool := x.slots.any (fun e => ctxValid e.2.ctx && ctxTxb e.2.ctx == 1)

/-- The TIDs of a list that the selvedge controller can grant: 1 to 4,095, each once, none of them taken (R131). -/
def freeTids (s : State) (tids : TidList) : List Nat :=
  (tids.filter (fun t => decide (1 ≤ t) && decide (t ≤ 4095) && !tidTaken s t)).eraseDups

/-- TID_GRANT_NOTICE (R131, R132): the pool of a motif that holds an OPEN context, fallen to 8, is refilled with 16 free TIDs. Which ones is the
controller's choice, the command's operand; fewer than 16 are no refill. -/
def execTidGrantNotice (m : Nat) (tids : TidList) (s : State) : Host.Outcome State Fault Refusal :=
  let x := s.motif m
  if holdsOpen x && decide (x.pool.length ≤ 8) && decide (16 ≤ (freeTids s tids).length) then
    done (s.setMotif m { x with pool := x.pool ++ (freeTids s tids).take 16 })
  else done s

/-- The effect of a write of SUSPEND (R135, R165). -/
def writeSuspend (c : Nat) (v : Bool) (s : State) : Reply :=
  let st := s.classState c
  if st = 0 then .refuse s abortState
  else if s.obj (0x3400 + c) 2 = b2n v then .ok s
  else
    let s1 := s.setObj (0x3400 + c) 2 (b2n v)
    if v ∧ st = 1 then .ok (s1.setObj (0x3400 + c) 1 2)
    else if !v ∧ st = 2 then .ok (s1.setObj (0x3400 + c) 1 1)
    else .ok s1

/-- SUSPEND_WRITE (R135). -/
def execSuspendWrite (path c : Nat) (v : Bool) (s : State) : Host.Outcome State Fault Refusal :=
  done (sdoWrite path (0x3400 + c % 64) 2 1 (b2n v) (writeSuspend (c % 64) v) s)

/-- OPENING_NOTICE (R139): the notice registered at the selvedge controller takes the record from OPEN to EXECUTING. -/
def execOpeningNotice (tid : Nat) (s : State) : Host.Outcome State Fault Refusal :=
  match takePacket (atSelvedge 0 tid) s with
  | none => done s
  | some (_, s0) =>
    let s1 := deadlineGone tid s0
    match s1.txn? tid with
    | none => done s1
    | some x => if x.state = .opened then done (txnMove tid .executing 0 x s1) else done s1

/-! ## Closes (R137 to R139) -/

/-- CLOSE_REPORT (R137): the close is formed one cycle after the last comparison; a pending mismatch of the TID sends an abort instead. -/
def execCloseReport (m tid : Nat) (s : State) : Host.Outcome State Fault Refusal :=
  let x := s.motif m
  match takeFirst (fun (c : CloseRep) => c.tid == tid && !c.formed) x.closes with
  | none => done s
  | some (c, rest) =>
    if x.mism.any (fun d => d.tid == tid) then done (s.setMotif m { x with closes := rest })
    else
      let x1 := x.setPart tid { x.part tid with closed := true }
      done (s.setMotif m { x1 with closes := rest ++ [{ c with formed := true }] })

/-- Switch words of a TID bound for the router still wait in the motif or in its queue to CD5 (R138). -/
def wordsWaiting (s : State) (m t : Nat) : Bool :=
  (s.motif m).outs.any (fun e => e.2.any (fun o => o.tok.tid == t && routeKind o.route == 3 && !bit o.route 12)) ||
    (mget [] s.net.crossing m).any (fun p => p.tid == t)

/-- CLOSE_HANDOVER (R138): the formed report goes to the router once every such word has crossed. Its mask is completed there. -/
def execCloseHandover (m tid : Nat) (s : State) : Host.Outcome State Fault Refusal :=
  let x := s.motif m
  match takeFirst (fun (c : CloseRep) => c.tid == tid && c.formed) x.closes with
  | none => done s
  | some (c, rest) =>
    if wordsWaiting s m tid then done s
    else
      let stamp := match s.txn? tid with | some r => r.stamp | none => 0#32
      done ((s.setMotif m { x with closes := rest }).submit m (noticeToSelvedge 1 tid c.exec stamp [0#32, 0#32]))

/-- The record was given up at its deadline instant: it stands aborted, or its deadline action is released, and D has come (R143). -/
def pastDeadline (now : Stamp) (x : Txn) : Bool := !x.live && x.state != .committed && decide (0 ≤ diff now x.deadline)

/-- What a read of TID `t`'s uncommitted selvedge entries shows (R192, R194): a corrected error is counted, an uncorrectable one aborts the TID as a
device fault. -/
def entryEcc (t ecc : Nat) (s : State) : State :=
  if s.selvedge.queues.any (fun q => q.2.any (fun e => e.tid == t && !e.committed)) then
    (if ecc = 2 then selvAbort 8 t .device 64 (s.bump 0x3701 2) else if ecc = 1 then s.bump 0x3701 1 else s)
  else s

/-- CLOSE_NOTICE (R139, R142 to R144): a close at the selvedge controller. One that comes after the deadline instant is counted as late; one of
an execution that has ended, or of no transaction, has no effect. `ecc` is what the TID's queued entries show before they commit (R194). -/
def execCloseNotice (tid ecc : Nat) (s : State) : Host.Outcome State Fault Refusal :=
  match takePacket (atSelvedge 1 tid) s with
  | none => done s
  | some (p, s0) =>
    let s1 := deadlineGone tid s0
    match s1.txn? tid with
    | none => done s1
    | some x =>
      if pastDeadline s.now x then done (s1.bump 0x3500 0x0B)
      else if p.exec < x.exec ∨ !x.live then done s1
      else
        let mask := leNat (wordBytes p.data)
        let x1 : Txn := { x with part := x.part ||| mask ||| 2 ^ p.src, closed := x.closed ||| 2 ^ p.src }
        done (tryCommit tid (entryEcc tid ecc (s1.setTxn tid x1)))

/-! ## At the motif: the commit (R140, R147, R150) -/

/-- What the commit of TID `t` does to a motif: shadow banks live, admissions over, stores committed in commit order, log records freed. -/
def Motif.commitTid (x : Motif) (t : Nat) : Motif :=
  let slots := x.slots.map (fun e => (e.1, if e.2.admitted = some t then { e.2 with live := e.2.shadow, admitted := none } else e.2))
  let old := x.sb.filter (fun e => e.committed)
  let mine := (x.sb.filter (fun e => !e.committed && e.tid == t)).map (fun e => ({ e with committed := true } : SbEntry))
  let rest := x.sb.filter (fun e => !e.committed && e.tid != t)
  let x1 := logFreeTid t { x with slots := slots, sb := old ++ mine ++ rest }
  x1.setPart t { x1.part t with committed := true }

/-- COMMIT_NOTICE (R140): a commit notice arrives at motif m. -/
def execCommitNotice (m tid : Nat) (s : State) : Host.Outcome State Fault Refusal :=
  match takePacket (atMotif 5 m tid) s with
  | none => done s
  | some (_, s1) => done (s1.setMotif m ((s1.motif m).commitTid tid))

/-- CHILD_RECHECK (R140): in the cycle after a commit its CHECKED children are re-examined; `ecc` is what the child's queued entries show (R194). -/
def execChildRecheck (tid ecc : Nat) (s : State) : Host.Outcome State Fault Refusal :=
  if s.selvedge.recheck.contains tid then
    done (tryCommit tid (entryEcc tid ecc <| deadlineGone tid { s with selvedge := { s.selvedge with recheck := s.selvedge.recheck.erase tid } }))
  else done s

/-- STORE_BUFFER_DRAIN (R150): the first committed entry whose bank is ON is written into it and freed; `ecc` is the state of the bank's word, `entry`
that of the store-buffer word. An entry that is uncorrectable is not written, and its word keeps its old content (Table 5.2). -/
def execStoreBufferDrain (m ecc entry : Nat) (s : State) : Host.Outcome State Fault Refusal :=
  let x := s.motif m
  match takeFirst (fun (e : SbEntry) => e.committed && spOn s m (spBank e.addr)) x.sb with
  | none => done s
  | some (e, rest) =>
    let s1 := s.setMotif m { x with sb := rest }
    if entry = 2 then done (sbBad m e s1)
    else done (spStore m e.addr e.data ecc (if entry = 1 then sramCorrected m s1 else s1))

/-- REENTRY_INJECT (R156, R281): in the cycle after the commit an entry enters the fabric as a free token with its own head stamp. -/
def execReentryInject (s : State) : Host.Outcome State Fault Refusal :=
  match s.selvedge.inject with
  | [] => done s
  | e :: rest =>
    let s1 : State := { s with selvedge := { s.selvedge with inject := rest } }
    done (enterFree 71 e.stream { stamp := e.stamp, words := e.words, prio := e.prio } s1)

/-! ## Entries (R154 to R158) -/

/-- Insert by release instant; equal instants keep the order of arrival (R158, R536). -/
def queueInsert (now : Stamp) (e : Entry) : List Entry → List Entry
  | [] => [e]
  | x :: xs => if stampKey now e.release e.old < stampKey now x.release x.old then e :: x :: xs else x :: queueInsert now e xs

/-- An entry joins a port's queue, with its peak (R158). -/
def queueAdd (port : Nat) (e : Entry) (s : State) : State :=
  let q := queueInsert s.now e (s.queue port)
  (entriesShow (s.setQueue port q)).peak 0x3500 (0x40 + port) q.length

/-- The entry a token makes (R154): TID, class, release s + d of its transaction; on BL and REENTRY ports its own head stamp (Table 4.6, R156), on
the others the transaction's stamp. -/
def entryOf (p : Packet) (x : Txn) : Entry :=
  { tid := p.tid, cls := x.cls, stamp := if 40 ≤ p.endpoint then p.tstamp else x.stamp, release := x.release, words := p.data.take p.words,
    prio := p.urgency / 4, planeB := p.planeB, old := false, stream := p.reStream }

/-- A token waits at a selvedge port. -/
def atPort (port : Nat) (p : Packet) : Bool := p.typ == 0 && p.edge && p.dx == 3 && p.dy == 0 && p.endpoint == port

/-- SELVEDGE_ENTRY_ARRIVAL (R143, R144, R155, R157, R158): a token for a selvedge port is queued, discarded or aborts its TID; a full queue makes
it wait, counted once. A token of an aborted execution is a straggler before D and late from D on. -/
def execSelvedgeEntryArrival (port : Nat) (s : State) : Host.Outcome State Fault Refusal :=
  match takePacket (atPort port) s with
  | none => done s
  | some (p, s0) =>
    let s1 := deadlineGone p.tid s0
    if p.tid = 0 then done (s1.bump 0x3500 0x0A)
    else match s1.txn? p.tid with
      | none => done (s1.bump 0x3500 0x0C)
      | some x =>
        if p.exec < x.exec then done (s1.bump 0x3500 0x0C)
        else if x.state = .committed ∨ x.state = .released ∨ pastDeadline s.now x then done (s1.bump 0x3500 0x0B)
        else if x.state = .aborted then done (s1.bump 0x3500 0x0C)
        else if !bit (s.cls x.planeB x.cls).ports port then done (selvAbort 8 p.tid (.program 0x24) 64 s1)
        else if !portFormat s port (p.data.take p.words) then done (selvAbort 8 p.tid (.program 0x25) 64 s1)
        else if 256 ≤ (s1.queue port).length then
          (if p.waited = 0 then
            done (({ s with net := { s.net with inbox := s.net.inbox.map (fun q => if q = p then { q with waited := 1 } else q) } } : State).bump
              0x3500 5)
          else done s)
        else done (queueAdd port (entryOf p x) s1)

/-- DEADLINE_CHECK (R143): every record whose D has come and that is not COMMITTED. A commit decided in the same cycle is in time (R142). -/
def execDeadlineCheck (s : State) : Host.Outcome State Fault Refusal :=
  done ((s.selvedge.txns.map (·.1)).foldl (fun st t => deadlineCheck t st) s)

/-- TID_RETURN (R145): a released TID returns to the free pool 16,384 ns after its release instant. It is no transaction's parent any more: what
bears its number next is another one (R140, R152, R153). A cell that it left suspect is remapped all the same (R183, R184). -/
def execTidReturn (tid : Nat) (s : State) : Host.Outcome State Fault Refusal :=
  match s.txn? tid with
  | none => done s
  | some x =>
    if x.state = .released ∧ x.releasedAt + 16384 ≤ s.t then
      let ms := s.motifs.map (fun e => (e.1, { e.2 with
        parts := mdel e.2.parts tid
        suspectTid := e.2.suspectTid.map (fun q => (if q.1 = tid then 0 else q.1, q.2))
        remaps := e.2.remaps.map (fun r => if r.tid = tid then { r with tid := 0 } else r)
        mismBy := e.2.mismBy.filter (fun q => q.1 != tid) }))
      let kids := (mdel s.selvedge.txns tid).map (fun e => (e.1, if e.2.parent = tid then { e.2 with parent := 0 } else e.2))
      done (tidsShow { s with motifs := ms, selvedge := { s.selvedge with txns := kids } })
    else done s

/-! ## Aborts and replays (R141, R171 to R174) -/

/-- ABORT_NOTICE (R171, R172): at the selvedge controller (`m` ≥ 64) the record is aborted and the notice forwarded to every other member; at
a motif the TID aborts there, and the opening motif decides on a replay (R173). A notice for an execution that has ended is ignored. -/
def execAbortNotice (m tid : Nat) (bad : TidList) (s : State) : Host.Outcome State Fault Refusal :=
  if 64 ≤ m then
    match takePacket (atSelvedge 2 tid) s with
    | none => done s
    | some (p, s0) =>
      let s1 := deadlineGone tid s0
      match s1.txn? tid with
      | none => done s1
      | some x => if p.exec < x.exec then done s1 else done (selvAbort 8 tid (causeOfWord (wordAt p.data 0)) (wordAt p.data 1) s1)
  else
    match takePacket (atMotif 2 m tid) s with
    | none => done s
    | some (p, s1) =>
      let part := (s1.motif m).part tid
      if p.exec < part.ended then done s1
      else
        let s2 := abortAtMotif m tid p.exec s1
        let c := match s2.txn? tid with | some x => x.cause | none => .none
        done (if part.opener && c.replayable then replayDecide m tid p.exec bad s2 else s2)

/-- The descendants of a transaction whose replay follows are released silently (Table 4.4), each counted in its class's 0x3400 + c:0F. -/
def silenceKids : Nat → Nat → State → State
  | 0, _, s => s
  | f + 1, t, s =>
    (s.selvedge.txns.filter (fun e => e.2.parent == t && e.2.state == .aborted && e.2.cause == .cascade && !e.2.silent)).foldl
      (fun st e => silenceKids f e.1 ((st.setTxn e.1 { e.2 with silent := true }).bump (0x3400 + e.2.cls) 0x0F)) s

/-- REPLAY_NOTICE (R142, R174): the record goes from ABORTED to EXECUTING with the next execution number, unless its deadline instant has come. -/
def execReplayNotice (tid : Nat) (s : State) : Host.Outcome State Fault Refusal :=
  match takePacket (atSelvedge 3 tid) s with
  | none => done s
  | some (p, s0) =>
    let s1 := deadlineAt tid s0
    match s1.txn? tid with
    | none => done s1
    | some x =>
      if x.state = .aborted ∧ !x.noReplay then
        let s2 := silenceKids 8 tid s1
        done (txnMove tid .executing 0 { x with exec := p.exec, part := 2 ^ x.opener, closed := 0, cause := .none } s2)
      else done s1

/-- NO_REPLAY_NOTICE (R174): the record stays ABORTED and releases the class's deadline action. -/
def execNoReplayNotice (tid : Nat) (s : State) : Host.Outcome State Fault Refusal :=
  match takePacket (atSelvedge 4 tid) s with
  | none => done s
  | some (_, s0) =>
    let s1 := deadlineGone tid s0
    match s1.txn? tid with
    | none => done s1
    | some x => if x.state = .aborted then done (s1.setTxn tid { x with noReplay := true }) else done s1

end Sys2Proof.Machine
end

