-- ==== Sys2Proof/Machine/MemMap.lean ====
section
/-! DEFINITION. Hoop stores (R240 to R242), the DRAM's mapping, mirroring and page retirement
(R196, R197, R244 to R247). -/

namespace Sys2Proof.Machine
open Sys2Proof

/-- A word of a hoop store read with an ECC outcome: `false` when it is uncorrectable (R192, R205). -/
def hoopCheck (h a ecc : Nat) (s : State) : Bool × State :=
  let x := s.hoop h
  if ecc = 2 ∨ mget 0 x.ecc (a / 8) = 2 then
    (false, ((s.setHoop h { x with ecc := mset 0 x.ecc (a / 8) 2 }).bump 0x3701 2).bump (0x3100 + h) 0x25)
  else (true, if ecc = 1 then ((s.bump 0x3701 1).bump 0x3701 3).bump (0x3100 + h) 0x24 else s)

/-- The 64-bit words of a hoop store at these addresses read in order (R192), `ecc` the outcome of the first: `false` when one is uncorrectable. -/
def hoopChecks (h : Nat) : List Nat → Nat → State → Bool × State
  | [], _, s => (true, s)
  | a :: as, ecc, s =>
    match hoopCheck h a ecc s with
    | (false, s1) => (false, s1)
    | (true, s1) => hoopChecks h as 0 s1

/-- The 64-bit words that hold `n` bytes from `a`. -/
def wordsOf (a n : Nat) : List Nat := (List.range ((a + n + 7) / 8 - a / 8)).map (fun i => 8 * (a / 8 + i))

/-- The 64-bit words of `n` bytes from `a` that are written whole are no longer known to be bad. -/
def eccFresh (a n : Nat) (m : SMap Nat) : SMap Nat := m.filter (fun e => decide (8 * e.1 < a) || decide (a + n < 8 * e.1 + 8))

/-- Slice and bank of an offset in a hoop store as the bank number of 0x3100 + h:20 (R240): 8 × slice + bank. -/
def hoopBank (o : Nat) : Nat := 8 * field o 7 6 + field o 21 19

/-- A hoop-store bank is ON and not in transition (R113, R242). -/
def hoopOn (s : State) (h b : Nat) : Bool :=
  field (s.obj (0x3100 + h) 0x20) (2 * b + 1) (2 * b) == 0 && (s.hoop h).bankTr.all (fun t => t.bank != b)

/-- A hoop-store bank without content: it reads as zero words. -/
def zeroHoopBank (bank : Nat) (x : Hoop) : Hoop :=
  { x with mem := x.mem.filter (fun e => hoopBank e.1 != bank), ecc := x.ecc.filter (fun e => hoopBank (8 * e.1) != bank) }

/-- State of bank `b` in a word of the format of 0x3100 + h:20. -/
def bankField (v b : Nat) : Nat := field v (2 * b + 1) (2 * b)

/-- HS_BANK_POWER set to `v` (R113, R242, Table 6.13): a transition starts for each bank whose state changes. A bank that leaves OFF holds zero words when
it is done. Bank 7 of every slice stays as it is. A bank in transition is treated as in R113's case (DESIGN CHOICE, log 147). -/
def startHoopBanks (h v : Nat) (s : State) : State :=
  let old := s.obj (0x3100 + h) 0x20
  let trs := (List.range 32).filterMap (fun b =>
    if bankField old b = bankField v b ∨ b % 8 = 7 then none
    else some ({ bank := b, target := bankField v b, zeroFill := bankField old b == 2, due := s.time.clk + bankTime (bankField old b) (bankField v b) 6827 } : BankTr))
  let x := trs.foldl (fun y t => if t.zeroFill then zeroHoopBank t.bank y else y) (s.hoop h)
  let w := trs.foldl (fun n t => withField n (2 * t.bank + 1) (2 * t.bank) t.target) old
  (s.setHoop h { x with bankTr := x.bankTr.filter (fun t => trs.all (fun u => u.bank != t.bank)) ++ trs }).setObj (0x3100 + h) 0x20 w

/-- Router of slice `sl` of hoop h (R240). -/
def sliceRouter (h sl : Nat) : Nat × Nat := (4 * (h % 2) + 1 + sl % 2, 4 * (h / 2) + 1 + sl / 2)

/-! ## DRAM (R196, R197, R244 to R247) -/

/-- Channel of a DRAM offset: offset bit 8 (R245). -/
def dramChannel (o : Nat) : Nat := field o 8 8

/-- The 4 KiB page of a channel that holds an offset: 2 × page + channel. -/
def dramPage (o : Nat) : Nat := 2 * ((o / 512 * 256 + o % 256) / 4096) + dramChannel o

/-- The offset lies in a mirrored region (R246). -/
def dramMirrored (s : State) (o : Nat) : Bool := s.dram.regions.any (fun r => decide (r.1 ≤ o) && decide (o < r.1 + r.2))

/-- A page is being copied to the spare pool (R196). -/
def pageCopying (s : State) (o : Nat) : Bool := s.dram.copying.any (fun c => c.1 == dramPage o)

/-- Free spare pages of a channel (0x3701:07). -/
def poolFree (s : State) (ch : Nat) : Nat := field (s.obj 0x3701 7) (16 * ch + 15) (16 * ch)

/-- Spare pages of a channel that retired pages take. -/
def poolUsed (s : State) (ch : Nat) : Nat := ((s.dram.retired.filter (fun e => e.1 % 2 == ch)).map (·.2)).foldl (· + ·) 0

/-- The spare pool of `spare` pages that an image reserves on each channel, less what retired pages take (R196, 0x3701:07); a pool that retired pages have
emptied, or one without a page, is DRAM_POOL_EXHAUSTED (R202). -/
def poolShow (spare : Nat) (s : State) : State :=
  let left := fun (ch : Nat) => spare - poolUsed s ch
  setDegraded 3 (s.dram.rawMiB != 0 && [0, 1].any (fun ch => left ch == 0)) (s.setObj 0x3701 7 (left 0 + 65536 * left 1))

/-- A page of a channel retired to the spare pool, or, with the pool empty, `false` (R196, R197). -/
def retirePage (o : Nat) (s : State) : Bool × State :=
  let ch := dramChannel o
  let n := poolFree s ch
  if n = 0 then (false, setDegraded 3 true s)
  else
    let pg := dramPage o
    let d : Dram := { s.dram with retired := mput s.dram.retired pg (mget 0 s.dram.retired pg + 1),
                                  copying := s.dram.copying ++ [(pg, s.time.clk + 4000)],
                                  pageErrs := s.dram.pageErrs.filter (fun e => e.1 != pg) }
    let s1 := (persistTouch { s with dram := d }).setObj 0x3701 7 (withField (s.obj 0x3701 7) (16 * ch + 15) (16 * ch) (n - 1))
    let s2 := raise 9 (s1.setObj 0x3701 6 (satAdd 16 (s1.obj 0x3701 6) 1))
    (true, if n = 1 then setDegraded 3 true s2 else s2)

/-- A corrected error in a page (R196): the page is retired when it gives more than the threshold within 1,024 epochs. -/
def dramCorrected (o : Nat) (s : State) : State :=
  let pg := dramPage o
  let recent := (pg, s.t) :: s.dram.pageErrs.filter (fun e => decide (s.t < e.2 + 1024 * 2 ^ 20))
  let s1 := ({ s with dram := { s.dram with pageErrs := recent } } : State).bump 0x3701 4
  if s1.obj 0x3701 9 < (recent.filter (fun e => e.1 == pg)).length then (retirePage o s1).2 else s1

/-- A mirrored page is served from the other channel alone (R197). -/
def mirrorGone (o : Nat) (s : State) : State :=
  let ch := dramChannel o
  let old := s.obj 0x3701 8
  let d : Dram := { s.dram with mirrorLost := mput s.dram.mirrorLost (dramPage o) 1 }
  setDegraded 2 true (({ s with dram := d } : State).setObj 0x3701 8 (old ||| (if ch = 0 then 1 else 2)))

/-- Words of a 64-byte block marked lost (R197). -/
def loseBlock (o : Nat) (s : State) : State :=
  let lost := (List.range 16).foldl (fun m i => mput m (o / 64 * 16 + i) 1) s.dram.lost
  { s with dram := { s.dram with lost := lost } }

/-- An uncorrectable DRAM read (R197): `true` when the mirror serves it. -/
def dramUncorrectable (o : Nat) (s : State) : Bool × State :=
  let s1 := s.bump 0x3701 5
  if dramMirrored s o then
    if mget 0 s.dram.mirrorLost (dramPage o) = 1 then (false, raise 10 (loseBlock o s1))
    else
      let (ok, s2) := retirePage o s1
      (true, if ok then s2 else mirrorGone o s2)
  else (false, raise 10 (loseBlock o (retirePage o s1).2))

/-- A read of `n` words at an offset met an ECC outcome: `false` when the data is lost. -/
def dramCheck (o n ecc : Nat) (s : State) : Bool × State :=
  if (List.range n).any (fun i => mget 0 s.dram.lost (o / 4 + i) == 1) then (false, s)
  else if ecc = 2 then dramUncorrectable o s
  else (true, if ecc = 1 then dramCorrected o s else s)

/-- Bytes written to DRAM; the words rewritten are no longer lost (R197). -/
def dramWrite (o : Nat) (ws : List Word) (s : State) : State :=
  let lost := s.dram.lost.filter (fun e => decide (e.1 < o / 4) || decide (o / 4 + ws.length ≤ e.1))
  { s with dram := { s.dram with mem := memWrite s.dram.mem o (wordBytes ws), lost := lost } }

/-- Words read from a byte memory. -/
def memWords (m : Mem) (a n : Nat) : List Word := (List.range n).map (fun i => memWord m (a + 4 * i))

end Sys2Proof.Machine
end

