-- ==== Sys2Proof/Machine/FaultMask.lean ====
section
/-! DEFINITION. Fault masking (R167 to R206): mismatch reports and suspect marking, the log streamer, remaps, the scrub engines, page copies, the
patrol scrub, link errors and the journal mirror. -/

namespace Sys2Proof.Machine
open Sys2Proof

/-- The physical cell that realises a position (0x3200 + m:24, :25). -/
def physOf (s : State) (m pos : Nat) : Nat :=
  field (s.obj (0x3200 + m) (if pos < 8 then 0x24 else 0x25)) (8 * (pos % 8) + 7) (8 * (pos % 8))

/-- The position map with a position pointed at a physical cell. -/
def setPhys (m pos p : Nat) (s : State) : State :=
  let sub := if pos < 8 then 0x24 else 0x25
  s.setObj (0x3200 + m) sub (withField (s.obj (0x3200 + m) sub) (8 * (pos % 8) + 7) (8 * (pos % 8)) p)

/-- The last mismatch as 0x3200 + m:27 shows it (Table 5.9). -/
def mismWord (phys : Nat) (d : Mism) : Nat :=
  phys + d.pos * 2 ^ 5 + d.slot * 2 ^ 9 + 2 ^ 13 * d.tid + 2 ^ 25 * d.exec + 2 ^ 27 * b2n d.mem

/-- A mismatch counted (R183, R204, R205): MISMATCHES, the last mismatch, and MISMATCH_RATE above the limit within 1,024 epochs. -/
def countMism (m : Nat) (d : Mism) (s : State) : State :=
  let phys := physOf s m d.pos
  let s1 := ((s.bump (0x3200 + m) 0x20).bump 0x3700 2).setObj (0x3200 + m) 0x27 (mismWord phys d)
  let s2 := s1.setObj (0x3200 + m) 0x28 d.stamp.toNat
  let x := s2.motif m
  let at' := (phys, s.t) :: x.mismAt.filter (fun e => decide (s.t < e.2 + 1024 * 2 ^ 20))
  let s3 := s2.setMotif m { x with mismAt := at' }
  if s3.obj 0x3700 0x0A < (at'.filter (fun e => e.1 == phys)).length then raise 6 s3 else s3

/-- A physical cell becomes suspect on the second mismatch of one transaction (R183); the mark is kept over resets (R189). Without a free
spare the position stays (R188): every position marked before it that is not remapped yet takes one. -/
def suspectMark (m : Nat) (d : Mism) (s : State) : State :=
  let phys := physOf s m d.pos
  let x := s.motif m
  if x.mismBy.contains (d.tid, phys) then
    if bit (s.obj (0x3200 + m) 0x26) phys then s
    else
      let s1 := s.setObjBit (0x3200 + m) 0x26 phys true
      let s2 := persistTouch { s1 with marks := mset 0 s1.marks m (withBit (mget 0 s1.marks m) phys true) }
      if s.obj (0x3200 + m) 0x23 ≤ x.suspectTid.length then raise 36 s2
      else s2.setMotif m { s2.motif m with suspectTid := (s2.motif m).suspectTid ++ [(d.tid, d.pos)] }
  else s.setMotif m { x with mismBy := (d.tid, phys) :: x.mismBy }

/-- LANE_MISMATCH_REPORT (R169 to R172, R183): the oldest mismatch is reported; its TID aborts, or, under TID 0, UNPROTECTED_MISMATCH is
latched. -/
def execLaneMismatchReport (m : Nat) (bad : TidList) (s : State) : Host.Outcome State Fault Refusal :=
  let x := s.motif m
  match x.mism with
  | [] => done s
  | d :: rest =>
    let s1 := countMism m d (s.setMotif m { x with mism := rest })
    if d.tid = 0 then done (raise 18 s1)
    else done (motifAbort m d.tid d.exec .mismatch bad (suspectMark m d s1))

/-! ## The log streamer (R179 to R181) -/

/-- One log record as the streamer emits it (R179). -/
def replayToken (x : Motif) (n : Nat) (r : LogRec) : OutTok :=
  { route := x.route r.planeB 0 r.endpoint, endpoint := r.endpoint,
    tok := { tid := r.tid, stamp := r.stamp, words := r.words, prio := 3, exec := n, planeB := r.planeB, replay := true } }

/-- The counters of a replay that starts (Tables 4.13, 5.9, 5.10, 5.14). -/
def countReplay (m cls n : Nat) (s : State) : State :=
  let s1 := ((s.bump (0x3200 + m) 0x21).bump (0x3400 + cls) 0x0C).bump 0x3700 3
  if n = 2 then (s1.bump 0x3700 4).bump (0x3740 + cls) 4 else s1

/-- A log record that its replay needs reads with an uncorrectable error at the stream's start (Tables 5.2, 5.8, R194): it is counted and latched, and
the TID has no complete log from now on. -/
def lostRecord (m t : Nat) (s : State) : State :=
  let s1 := raise 8 (sramUncorrectable m s)
  let x := s1.motif m
  s1.setMotif m (x.setPart t { x.part t with unlogged := true })

/-- REPLAY_STREAM_START (R179, R180, R184): the streamer, when it is idle and the remaps of the next requested TID have ended, emits its records, as its
16-word output buffer takes them (R85). `ecc` is what its reads of them show (R192): a record that is uncorrectable now gives no replay (Table 5.2):
nothing is emitted, the execution ends as a device fault, and no other one is decided. -/
def execReplayStreamStart (m ecc : Nat) (bad : TidList) (s : State) : Host.Outcome State Fault Refusal :=
  let x := s.motif m
  match x.replays with
  | [] => done s
  | t :: rest =>
    let p := x.part t
    if (x.out 18).any (fun o => o.tok.replay) ∨ !x.streaming.isEmpty ∨ remapWanted s m t then done s
    else if p.exec < p.ended then done (s.setMotif m { x with replays := rest })
    else
      let recs := x.log.filter (fun r => r.bound && r.tid == t)
      if ecc = 2 then done (motifAbort m t p.exec .device bad (lostRecord m t (s.setMotif m { x with replays := rest }))) else
      let x1 := feedStream s.time.clk (recs.map (replayToken x p.exec)) { x with replays := rest }
      let s1 := countReplay m p.cls p.exec (s.setMotif m x1)
      done (if ecc = 1 then sramCorrected m s1 else s1)

/-! ## Remap (R184 to R188) -/

/-- A free physical cell: it realises no position, is not suspect, and no remap in progress takes it. -/
def freeSpare (s : State) (m : Nat) : Option Nat :=
  (List.range 18).find? (fun p => !bit (s.obj (0x3200 + m) 0x26) p && (List.range 16).all (fun k => physOf s m k != p) &&
    (s.motif m).remaps.all (fun r => r.spare != p))

/-- Instances of other TIDs in progress on the suspect cell are stopped: their TIDs abort as if they had mismatched (R185). Work under TID 0 ends with
UNPROTECTED_MISMATCH, as a mismatch ends it (R170), and its STATEFUL context admits the next instance (R146). -/
def collateral (m pos t : Nat) (bad : TidList) (s : State) : State :=
  let c := (s.motif m).cell pos
  let own := fun (r : Run) => t != 0 && r.inst.tid == t
  let others := c.runs.filter (fun r => !own r)
  let s1 := s.setMotif m ((s.motif m).setCell pos { c with runs := c.runs.filter own })
  others.foldl (fun st r =>
    let i := r.inst
    if i.tid = 0 then (if r.stopped then dropRun m pos r st else raise 18 (dropRun m pos r st))
    else if r.stopped ∨ i.exec < ((st.motif m).part i.tid).ended then st
    else motifAbort m i.tid i.exec .mismatch bad ((st.bump (0x3200 + m) 0x2F).bump 0x3700 0x0D)) s1

/-- The opening motif of the TID whose second mismatch made a cell of motif m suspect has ended that execution, and its replay, if it decided one, has
been requested (R184). With the TID's record gone nothing is waited for. -/
def remapDue (s : State) (m t : Nat) : Bool :=
  match s.txn? t with
  | none => true
  | some x =>
    let o := s.motif x.opener
    decide (((s.motif m).part t).ended ≤ (o.part t).ended) && !(o.decided ++ o.serving).contains t

/-- The suspect position whose remap begins next, with the TID that marked it: its replay has been requested and no remap of it is in progress. -/
def nextRemap (s : State) (m : Nat) : Option (Nat × Nat) :=
  let x := s.motif m
  x.suspectTid.find? (fun e => remapDue s m e.1 && x.remaps.all (fun r => r.pos != e.2))

/-- REMAP_START (R184, R185): in the cycle after the replay request the remap of a suspect position begins, beside those in progress. Where no replay is
requested, it begins once that is decided (DESIGN CHOICE, log entry 125). -/
def execRemapStart (m : Nat) (bad : TidList) (s : State) : Host.Outcome State Fault Refusal :=
  match nextRemap s m, freeSpare s m with
  | some (t, pos), some sp =>
    let x := s.motif m
    done (collateral m pos t bad (s.setMotif m { x with remaps := x.remaps ++ [{ pos := pos, spare := sp, tid := t, since := s.time.clk }] }))
  | _, _ => done s

/-- A slot whose bank has an unrecoverable word is reset to its initial values (R187). -/
def loseSlot (m pos k : Nat) (s : State) : State :=
  let x := s.motif m
  let sl := x.slot pos k
  let s1 := s.setMotif m (x.setSlot pos k { sl with live := sl.init })
  (sample 4 (leBytes m 1 ++ leBytes pos 1 ++ leBytes k 1 ++ leBytes 0 1) (raise 17 s1)).bump 0x3700 0x0C

/-- Word `k` of a bank: K0 to K3, A0, A1. -/
def bankWord (b : Bank) (k : Nat) : Nat :=
  if k = 0 then b.k0.toNat else if k = 1 then b.k1.toNat else if k = 2 then b.k2.toNat else if k = 3 then b.k3.toNat
  else if k = 4 then b.a0.toNat else b.a1.toNat

/-- Word `k` of a bank replaced. -/
def setBankWord (b : Bank) (k v : Nat) : Bank :=
  if k = 0 then { b with k0 := BitVec.ofNat 32 v } else if k = 1 then { b with k1 := BitVec.ofNat 32 v }
  else if k = 2 then { b with k2 := BitVec.ofNat 32 v } else if k = 3 then { b with k3 := BitVec.ofNat 32 v }
  else if k = 4 then { b with a0 := BitVec.ofNat 48 v } else { b with a1 := BitVec.ofNat 48 v }

/-- The value a live bank word moves with (R186): the one value both lanes' copies correct to, or the clean one of a clean and an uncorrectable copy;
`none` when the word is unrecoverable. The copies differ from the word the state holds by their flips. -/
def movedWord (v : Nat) (w : LaneWord) : Option Nat :=
  let a := v ^^^ w.flipA
  let b := v ^^^ w.flipB
  if w.eccA = 2 then (if w.eccB = 2 then none else some b)
  else if w.eccB = 2 then some a
  else if a = b then some a else none

/-- One live bank word moved to the spare. -/
def moveWord (m pos : Nat) (s : State) (w : LaneWord) : State :=
  let x := s.motif m
  let sl := x.slot pos w.slot
  match movedWord (bankWord sl.live w.word) w with
  | some v => s.setMotif m (x.setSlot pos w.slot { sl with live := setBankWord sl.live w.word v })
  | none => s

/-- The slots of which one of these bank words is unrecoverable (R186, R187), each once. -/
def lostSlots (x : Motif) (pos : Nat) (words : List LaneWord) : List Nat :=
  (List.range 16).filter (fun k => words.any (fun w => w.slot == k && (movedWord (bankWord (x.slot pos k).live w.word) w).isNone))

/-- The live banks moved to the spare (R186, R187): word by word, but a slot with an unrecoverable word is reset whole. -/
def moveBanks (m pos : Nat) (words : List LaneWord) (s : State) : State :=
  let lost := lostSlots (s.motif m) pos words
  lost.foldl (fun st k => loseSlot m pos k st) ((words.filter (fun w => !lost.contains w.slot)).foldl (moveWord m pos) s)

/-- The 16 slots of a position as the configuration mirror holds them (R184): the spare's context store. -/
def fillSpare (pos : Nat) (x : Motif) : Motif :=
  (List.range 16).foldl (fun y k =>
    y.setSlot pos k { y.slot pos k with ctx := mget 0#128 y.mirror.ctx (16 * pos + k), lut := mget [] y.mirror.lut (16 * pos + k) }) x

/-- REMAP_COMPLETE (R184, R186, R187): the position map points at the spare of the oldest remap, filled from the configuration mirror; `words` are the
live bank words whose two copies do not both correct to the value the state holds. Words that no element names move as they are. -/
def execRemapComplete (m : Nat) (words : List LaneWord) (s : State) : Host.Outcome State Fault Refusal :=
  let x := s.motif m
  match x.remaps with
  | [] => done s
  | r :: rest =>
    let s1 := s.setMotif m (fillSpare r.pos { x with remaps := rest, suspectTid := x.suspectTid.filter (fun e => e.2 != r.pos) })
    let s2 := setPhys m r.pos r.spare s1
    let s3 := (s2.setObj (0x3200 + m) 0x22 (satAdd 8 (s2.obj (0x3200 + m) 0x22) 1)).setObj (0x3200 + m) 0x23 (s2.obj (0x3200 + m) 0x23 - 1)
    let s4 := (s3.setObj 0x3700 5 (satAdd 16 (s3.obj 0x3700 5) 1)).setObj 0x3700 6 (s3.obj 0x3700 6 - 1)
    done (noteSpares m (raise 4 (moveBanks m r.pos words s4)))

/-- The effect of a write of CLEAR_SUSPECT (R189): the stored marks of the motif are cleared from the next start on. -/
def writeClearSuspect (v : Nat) (s : State) : Reply :=
  if 63 < v then .refuse s abortValue else .ok (persistTouch { s with marks := mset 0 s.marks v 0 })

/-- CLEAR_SUSPECT_WRITE (R189). -/
def execClearSuspectWrite (path v : Nat) (s : State) : Host.Outcome State Fault Refusal :=
  done (sdoWrite path 0x3700 0x0B 1 v (writeClearSuspect v) s)

/-! ## Memories (R193, R196, R197) -/

/-- SCRUB_READ (R193). -/
def execScrubRead (w : ScrubWord) (s : State) : Host.Outcome State Fault Refusal :=
  if w.hoop then
    match hoopCheck (w.unit % 4) (w.addr % 0x400000) w.ecc s with
    | (true, s1) => done s1
    | (false, s1) => done (raise 8 s1)
  else done (scrubScratch (w.unit % 64) (w.addr % 262144) w.ecc s)

/-- PAGE_COPY_COMPLETE (R196): accesses to the page go on, on its new page. -/
def execPageCopyComplete (page : Nat) (s : State) : Host.Outcome State Fault Refusal :=
  done { s with dram := { s.dram with copying := s.dram.copying.filter (fun c => c.1 != page) } }

/-- DRAM_PATROL_SCRUB (R197): the patrol reads the word at a DRAM offset. -/
def execDramPatrolScrub (addr ecc : Nat) (s : State) : Host.Outcome State Fault Refusal := done (dramCheck addr 1 ecc s).2

/-! ## Network links (R198 to R200): ports 1 EDGE, 2 +X, 3 −X, 4 +Y, 5 −Y -/

/-- Bit of 0x3702:04 or :05 of the link a port leads to: an X link is named by the router it leaves toward x + 1. -/
def linkBit (x y port : Nat) : Nat :=
  if port = 2 ∨ port = 4 then 8 * y + x
  else if port = 3 then 8 * y + (x + 7) % 8
  else 8 * ((y + 7) % 8) + x

/-- The link of a port of router (x, y) has failed. -/
def linkFailed (s : State) (x y port : Nat) : Bool :=
  if port = 2 ∨ port = 3 then bit (s.obj 0x3702 4) (linkBit x y port)
  else if port = 4 ∨ port = 5 then bit (s.obj 0x3702 5) (linkBit x y port)
  else mget 0 s.net.edgeFailed (8 * y + x) = 1

/-- Failed links of a ring: row `r` of X links, or column `r` of Y links. -/
def ringFails (s : State) (isX : Bool) (r : Nat) : Nat :=
  if isX then popCount (field (s.obj 0x3702 4) (8 * r + 7) (8 * r)) 8
  else ((List.range 8).filter (fun y => bit (s.obj 0x3702 5) (8 * y + r))).length

/-- A link is declared failed (R198 to R200): counted and marked; a second failed link breaks its ring, a failed edge link too. -/
def failLink (x y port : Nat) (s : State) : State :=
  if linkFailed s x y port then s
  else
    let s1 := s.setObj 0x3702 3 (satAdd 16 (s.obj 0x3702 3) 1)
    if port = 2 ∨ port = 3 then
      let s2 := setDegraded 4 true (s1.setObjBit 0x3702 4 (linkBit x y port) true)
      if 2 ≤ ringFails s2 true y then setDegraded 5 true (s2.setObjBit 0x3702 6 y true) else s2
    else if port = 4 ∨ port = 5 then
      let s2 := setDegraded 4 true (s1.setObjBit 0x3702 5 (linkBit x y port) true)
      if 2 ≤ ringFails s2 false x then setDegraded 5 true (s2.setObjBit 0x3702 6 (8 + x) true) else s2
    else setDegraded 5 true (setDegraded 4 true { s1 with net := { s1.net with edgeFailed := mput s1.net.edgeFailed (8 * y + x) 1 } })

/-- Key of the failed transmissions of a flit: its direction on the link. -/
def linkKey (x y port : Nat) : Nat := 64 * port + 8 * y + x

/-- Key of a link (R207): its two directions are one link, named as in 0x3702:04 and :05. -/
def linkOf (x y port : Nat) : Nat :=
  if port = 2 ∨ port = 3 then 128 + linkBit x y port else if port = 4 ∨ port = 5 then 256 + linkBit x y port else 64 + 8 * y + x

/-- FLIT_CRC_ERROR (R198): a flit sent by router (x, y) on a port, or by the edge node of (x, y) to it (port 6), is refused and resent; `again` says that
it is the flit this direction refused last. After three failed retransmissions of one flit, or 16 errors within one epoch, the link has failed. -/
def execFlitCrcError (x y port : Nat) (again : Bool) (s : State) : Host.Outcome State Fault Refusal :=
  if port % 7 = 0 then done s else
  let d := linkKey (x % 8) (y % 8) (port % 7)
  let k := linkOf (x % 8) (y % 8) (port % 7)
  let run := if again then mget 0 s.net.retries d + 1 else 1
  let errs := mget 0 s.net.epochErrs k + 1
  let s1 : State := { s with net := { s.net with retries := mset 0 s.net.retries d run, epochErrs := mset 0 s.net.epochErrs k errs } }
  let s2 := s1.bump 0x3702 1
  if 4 ≤ run ∨ 16 ≤ errs then done (failLink (x % 8) (y % 8) (port % 7) s2) else done (s2.bump 0x3702 2)

end Sys2Proof.Machine
end

