-- ==== Sys2Proof/Machine/StreamQueue.lean ====
section
/-! DEFINITION. Stream queues (R239): a queue's descriptor, its slots in a hoop store or in DRAM, and the ageing of every place that holds stamped
tokens (R26, R22). -/

namespace Sys2Proof.Machine
open Sys2Proof

/-- Stream queue q of hoop h. -/
def State.squeue (s : State) (h q : Nat) : StreamQ := mget {} s.net.queues (16 * h + q)

/-- The state with a stream queue replaced. -/
def State.setSqueue (s : State) (h q : Nat) (x : StreamQ) : State :=
  { s with net := { s.net with queues := mset {} s.net.queues (16 * h + q) x } }

/-- Address of the slot that stands `i` places after HEAD. -/
def slotAt (q : StreamQ) (i : Nat) : Nat := q.base + 72 * ((q.head + i) % q.slots)

/-- The 18 words of a slot: stamp, WORDS with PLANE and the old mark, 15 data words, and 4 bytes that carry nothing. -/
def slotWords (t : Token) : List Word :=
  [t.stamp, BitVec.ofNat 32 (t.words.length + b2n t.planeB * 16 + b2n t.old * 32)] ++ t.words ++
    List.replicate (16 - t.words.length) 0#32

/-- The 18 words that stand at a slot's address. -/
def slotPeek (s : State) (a : Nat) : List Word :=
  match regionOf s a with
  | .hoop h o => memWords (s.hoop h).mem o 18
  | .dram o => memWords s.dram.mem o 18
  | _ => []

/-- Words stored at an address of a hoop store or of DRAM. -/
def storeWords (a : Nat) (ws : List Word) (s : State) : State :=
  match regionOf s a with
  | .hoop h o =>
    let x := s.hoop h
    s.setHoop h { x with mem := memWrite x.mem o (wordBytes ws), ecc := eccFresh o (4 * ws.length) x.ecc }
  | .dram o => dramWrite o ws s
  | _ => s

/-- The status a PULL gets at a slot whose memory cannot be used (Table 6.4): 2 unmapped, 4 a bank that is not ON, else 0. -/
def slotStatus (s : State) (a : Nat) : Nat :=
  match regionOf s a with
  | .hoop h o => if (wordsOf o 72).all (fun w => hoopOn s h (hoopBank w)) then 0 else 4
  | .dram _ => 0
  | _ => 2

/-- The slot's memory does not answer now: a DRAM page that is being copied (R196), or DRAM while PD11 is OFF (R516). -/
def slotWaits (s : State) (a : Nat) : Bool :=
  match regionOf s a with
  | .dram o => pageCopying s o || pageCopying s (o + 71) || !bit s.power.on 11
  | _ => false

/-- A slot read with an ECC outcome: `false` when a word is uncorrectable. -/
def slotCheck (a ecc : Nat) (s : State) : Bool × State :=
  match regionOf s a with
  | .hoop h o => hoopChecks h (wordsOf o 72) ecc s
  | .dram o => dramCheck o 18 ecc s
  | _ => (true, s)

/-- A slot whose token can be read: its memory answers and none of its words is known to be lost. -/
def slotReadable (s : State) (a : Nat) : Bool :=
  slotStatus s a == 0 && !slotWaits s a &&
    (match regionOf s a with
     | .hoop h o => (wordsOf o 72).all (fun w => mget 0 (s.hoop h).ecc (w / 8) != 2)
     | .dram o => (List.range 18).all (fun i => mget 0 s.dram.lost (o / 4 + i) != 1)
     | _ => false)

/-- Slots at HEAD whose token is gone are passed over. -/
def StreamQ.trimHead : Nat → StreamQ → StreamQ
  | 0, q => q
  | n + 1, q =>
    if q.count ≠ 0 ∧ q.gone.contains q.head then
      StreamQ.trimHead n { q with head := (q.head + 1) % q.slots, count := q.count - 1, gone := q.gone.erase q.head }
    else q

/-- Slots at the other end whose token is gone are free again. -/
def StreamQ.trimTail : Nat → StreamQ → StreamQ
  | 0, q => q
  | n + 1, q =>
    let i := (q.head + q.count - 1) % q.slots
    if q.count ≠ 0 ∧ q.gone.contains i then StreamQ.trimTail n { q with count := q.count - 1, gone := q.gone.erase i } else q

/-- A queue without gone slots at its ends. -/
def StreamQ.trim (q : StreamQ) : StreamQ := StreamQ.trimTail q.count (StreamQ.trimHead q.count q)

/-- The queue after a PULL of its oldest token. -/
def StreamQ.pulled (q : StreamQ) : StreamQ := { q with count := q.count - 1, head := (q.head + 1) % q.slots }.trim

/-- COUNT as 0x3800:0A shows it: the tokens held. -/
def StreamQ.held (q : StreamQ) : Nat := q.count - q.gone.length

/-- Slot i places after HEAD of queue k aged (R26): an old mark set or cleared, or its token discarded where it stands (DESIGN CHOICE, log 130). A slot
that cannot be read is left as it stands. -/
def ageSlot (f : Stamp → Bool → Ageing) (k i : Nat) (s : State) : State :=
  let q : StreamQ := mget {} s.net.queues k
  let j := (q.head + i) % q.slots
  let a := slotAt q i
  if q.gone.contains j || !slotReadable s a then s
  else
    let ws := slotPeek s a
    let w := ws.getD 1 0#32
    match f (ws.getD 0 0#32) (w.getLsbD 5) with
    | .keep => storeWords a (ws.set 1 (w &&& 0xFFFFFFDF#32)) s
    | .mark => storeWords a (ws.set 1 (w ||| 0x20#32)) s
    | .discard => ({ s with net := { s.net with queues := mset {} s.net.queues k { q with gone := q.gone ++ [j] } } } : State).bump 0x2101 1

/-- One stream queue aged. -/
def ageQueue (f : Stamp → Bool → Ageing) (k : Nat) (s : State) : State :=
  let s1 := (List.range (mget {} s.net.queues k : StreamQ).count).foldl (fun st i => ageSlot f k i st) s
  { s1 with net := { s1.net with queues := mset {} s1.net.queues k (mget {} s1.net.queues k : StreamQ).trim } }

/-- Every stream queue aged (R239). -/
def ageQueues (f : Stamp → Bool → Ageing) (s : State) : State := (s.net.queues.map (·.1)).foldl (fun st k => ageQueue f k st) s

/-- Every place that holds stamped tokens aged: matching stores, ready lists, selvedge queues, stream queues (R26). -/
def ageAll (f : Stamp → Bool → Ageing) (s : State) : State :=
  ageQueues f (ageSelvedge f ((s.motifs.map (·.1)).foldl (fun st m => ageMotif f m st) s))

end Sys2Proof.Machine
end

