-- ==== Sys2Proof/Machine/Time.lean ====
section
/-! DEFINITION. Device time (R11 to R23), token timers (R33 to R36) and the housekeeping of epochs (R37, R38). -/

namespace Sys2Proof.Machine
open Sys2Proof

/-! ## Time base states (Table 1.3): 0 FREE, 1 ACQUIRING, 2 LOCKED, 3 HOLDOVER, 4 STEP_PENDING -/

/-- The time base state, 0x2100:02. -/
def State.tbState (s : State) : Nat := s.obj 0x2100 2

/-- The time base enters a state: leaving LOCKED counts in 0x2101:02 and can abandon an ARMED changeover (R288); entering LOCKED restarts
0x2101:04; alarm TIME_STEP_PENDING stands for STEP_PENDING (R21). -/
def tbEnter (new : Nat) (s : State) : State :=
  let s1 := if s.tbState = 2 ∧ new ≠ 2 then notLockedAbandon (s.bump 0x2101 2) else s
  let s2 := if new = 2 ∧ s.tbState ≠ 2 then s1.setObj 0x2101 4 0 else s1
  let tb : TimeBase := { s2.time with good := 0, bad := 0, everLocked := s2.time.everLocked || new == 2 }
  setCond 1 (new = 4) (({ s2 with time := tb } : State).setObj 0x2100 2 new)

/-- FREQ_CORR (0x2100:04) set, within ±200,000 (Table 1.8). -/
def setFreqCorr (v : Int) (s : State) : State := s.setObj 0x2100 4 (toTwos 32 (clampInt (-200000) 200000 v))

/-- The reference shows a sign of itself now. -/
def touchRef (s : State) : State := { s with time := { s.time with lastRef := s.time.clk, refSeen := true } }

/-- ACQUIRING entered because SOURCE selects a reference: the loss time counts from here and HOLDOVER would keep PLL0 nominal until the reference
has been present (R14), PPS edges have no predecessor (R16). FREQ_CORR keeps its value until the next measurement (DESIGN CHOICE, log 106). -/
def startAcquiring (s : State) : State :=
  let s1 := tbEnter 1 s
  { s1 with time := { s1.time with lastRef := s1.time.clk, refSeen := false, ppsPrev := none, freqEst := 0, measured := none } }

/-- At the end of S1 the time base acts on SOURCE as it stands (R14). -/
def tbBegin (s : State) : State := if s.tbState = 0 ∧ s.obj 0x2100 1 ≠ 0 then startAcquiring s else s

/-- The effect of a write of SOURCE (R14, Table 1.3). -/
def writeSource (v : Nat) (s : State) : Reply :=
  if 2 < v then .refuse s abortValue
  else if v = s.obj 0x2100 1 then .ok s
  else if v = 0 then .ok (setFreqCorr 0 (tbEnter 0 (s.setObj 0x2100 1 0)))
  else .ok (startAcquiring (s.setObj 0x2100 1 v))

/-- TIME_SOURCE_WRITE: a write of SOURCE (0x2100:01), answered on its path. -/
def execTimeSourceWrite (path v : Nat) (s : State) : Host.Outcome State Fault Refusal :=
  done (sdoWrite path 0x2100 1 1 v (writeSource v) s)

/-- Every allocated transaction record is RELEASED, every selvedge queue is empty and no token-timer firing waits (R21). -/
def stepQuiet (s : State) : Bool :=
  s.selvedge.txns.all (fun e => e.2.state == .released) && s.selvedge.queues.all (fun e => e.2.isEmpty) &&
    (s.source 70).queue.all (fun p => p.timer == 0)

/-- The time base may step at this instant (R21, R284). Before the fabric first leaves reset every instant qualifies. -/
def stepAllowed (s : State) : Bool :=
  (!s.fabric || stepQuiet s) && s.obj 0x3600 1 != 3 && s.obj 0x3600 1 != 4 && s.obj 0x3600 1 != 5

/-- The phase-steering term for an offset T − reference (R17): it slews T towards the reference, at most 200 ns per ms, and is 0 once the offset has been
removed; its size is open. -/
def phaseTerm (f : Nat) (off : Int) : Int :=
  let n : Int := min 200000 (1 + Config.loopPhase f)
  if off = 0 then 0 else if 0 < off then -n else n

/-- The discipline loop's correction from a measured offset (R17): frequency estimate, whose filter is open, plus phase steering. HOLDOVER keeps its
setting, and the loop has no estimate before the reference has been present (R14). -/
def loopUpdate (off : Int) (s : State) : State :=
  if s.tbState = 3 ∨ !s.time.refSeen then s
  else
    let (f, s1) := s.fresh
    let est := clampInt (-200000) 200000 (Config.loopEstimate f)
    setFreqCorr (est + phaseTerm f off) { s1 with time := { s1.time with freqEst := est } }

/-- OFFSET, and once LOCKED has been entered MAX_ABS_OFFSET, after a measurement (Tables 1.8, 1.9). -/
def noteOffset (off : Int) (s : State) : State :=
  let m : Int := 2 ^ 31 - 1
  let s1 := s.setObj 0x2100 3 (toTwos 32 (clampInt (-m) m off))
  if s.time.everLocked then s1.peak 0x2101 4 (min off.natAbs (2 ^ 32 - 1)) else s1

/-- |offset| exceeds the step threshold of 0x2100:08 (R20). -/
def stepRequired (s : State) (off : Int) : Bool := decide (s.obj 0x2100 8 < off.natAbs)

/-- The state changes a measurement causes (Table 1.3): `need` consecutive offsets within the lock threshold lock;
four consecutive offsets above four times the threshold unlock; a step required but not permitted is pending. The measurement that ends
STEP_PENDING is the first that counts. -/
def judgeOffset (need : Nat) (off : Int) (allowed : Bool) (s : State) : State :=
  let lock := s.obj 0x2100 7
  if s.tbState = 1 then
    if stepRequired s off ∧ !allowed then tbEnter 4 s
    else
      let g := if off.natAbs ≤ lock then s.time.good + 1 else 0
      if need ≤ g then tbEnter 2 s else { s with time := { s.time with good := g } }
  else if s.tbState = 2 then
    let b := if 4 * lock < off.natAbs then s.time.bad + 1 else 0
    if 4 ≤ b then tbEnter 1 s else { s with time := { s.time with bad := b } }
  else if s.tbState = 4 ∧ !stepRequired s off then
    (let s1 := tbEnter 1 s
     { s1 with time := { s1.time with good := if off.natAbs ≤ lock then 1 else 0 } })
  else s

/-- The epoch number T[63:20] (R37). -/
def epochOf (s : State) : Nat := s.t / 2 ^ 20

/-- DC_OFFSET_MEASUREMENT (R15): T minus DC system time `dc` at this CD0 instant, once per epoch in DC mode, in every state. -/
def execDcOffsetMeasurement (dc : Nat) (s : State) : Host.Outcome State Fault Refusal :=
  if s.obj 0x2100 1 = 1 ∧ s.tbState ≠ 0 ∧ s.time.measured ≠ some (epochOf s) then
    let off : Int := (s.t : Int) - dc
    let s1 : State := { s with time := { s.time with measured := some (epochOf s) } }
    done (judgeOffset 64 off (stepAllowed s1) (loopUpdate off (noteOffset off s1)))
  else done s

/-- DC_SYSTEM_TIME_UPDATE (R15): the MainDevice updates the DC system time; the reference is present (HOLDOVER → ACQUIRING). -/
def execDcSystemTimeUpdate (_dc : Nat) (s : State) : Host.Outcome State Fault Refusal :=
  if s.obj 0x2100 1 = 1 ∧ s.tbState ≠ 0 then
    done (touchRef (if s.tbState = 3 then tbEnter 1 s else s))
  else done s

/-- HOLDOVER entered (R17): PLL0 keeps the last frequency estimate without phase steering. -/
def holdover (s : State) : State := setFreqCorr s.time.freqEst (tbEnter 3 s)

/-- The reference counts as lost after `ns` without a sign of it. -/
def refLost (ns : Nat) (s : State) : Bool :=
  (s.tbState = 1 || s.tbState = 2 || s.tbState = 4) && decide (s.time.lastRef + ns ≤ s.time.clk)

/-- DC_REFERENCE_LOSS (R15): no update of the DC system time for LOSS_TIMEOUT (0x2100:09, ms). -/
def execDcReferenceLoss (s : State) : Host.Outcome State Fault Refusal :=
  if s.obj 0x2100 1 = 1 ∧ refLost (1000000 * s.obj 0x2100 9) s then done (holdover s) else done s

/-- PPS_REFERENCE_LOSS (R16): no edge within 1,100 ms of the last; the next edge is aligned afresh. -/
def execPpsReferenceLoss (s : State) : Host.Outcome State Fault Refusal :=
  if s.obj 0x2100 1 = 2 ∧ refLost 1100000000 s then
    let s1 := holdover s
    done { s1 with time := { s1.time with ppsPrev := none } }
  else done s

/-- The whole second nearest to t, the higher one when t lies exactly halfway (R16). -/
def nearestSecond (t : Nat) : Nat := 1000000000 * ((t + 500000000) / 1000000000)

/-- The meaning of a PPS edge (R16). -/
def ppsMeaning (s : State) : Nat :=
  if s.obj 0x2100 6 ≠ 0 then s.obj 0x2100 6
  else match s.time.ppsPrev with
    | some p => p + 1000000000
    | none => nearestSecond s.t

/-! ## Token timers -/

/-- The timer `n` of a plane. -/
def State.timer (s : State) (planeB : Bool) (n : Nat) : Timer := mget {} (if planeB then s.timersB else s.timersA) n

/-- The state with timer `n` of a plane replaced. -/
def State.setTimer (s : State) (planeB : Bool) (n : Nat) (x : Timer) : State :=
  if planeB then { s with timersB := mset {} s.timersB n x } else { s with timersA := mset {} s.timersA n x }

/-- The timer with its first firing at or after `from` (R33): the smallest t_n = START + n × PERIOD ≥ from. -/
def timerArm (fromT : Nat) (x : Timer) : Timer :=
  if x.period = 0 then { x with nextN := 0, active := decide (fromT ≤ x.start) }
  else { x with nextN := if fromT ≤ x.start then 0 else (fromT - x.start + x.period - 1) / x.period, active := true }

/-- The instant t_n of the timer's next firing. -/
def timerNext (x : Timer) : Nat := x.start + x.nextN * x.period

/-- Every enabled timer of a plane takes its first firing at or after an instant. -/
def armTimers (fromT : Nat) (m : SMap Timer) : SMap Timer :=
  m.map (fun e => (e.1, if e.2.enable then { timerArm fromT e.2 with preset := false } else e.2))

/-- Every timer that runs takes its next firing from an instant (R22). -/
def rearmTimers (fromT : Nat) (m : SMap Timer) : SMap Timer :=
  m.map (fun e => (e.1, if e.2.enable && !e.2.preset then timerArm fromT e.2 else e.2))

/-- The timers that an image preset before the fabric start are enabled now, at T (R33). -/
def armPresets (t : Nat) (m : SMap Timer) : SMap Timer :=
  m.map (fun e => (e.1, if e.2.enable && e.2.preset then { timerArm (t + 1000) e.2 with preset := false } else e.2))

/-- The effect of a write of ENABLE of timer `n` of the active plane (R33); a write equal to the current value has none (R350). -/
def writeTimerEnable (n : Nat) (v : Bool) (s : State) : Reply :=
  let x := s.timer s.activeB n
  if x.enable = v then .ok s
  else if v then .ok (s.setTimer s.activeB n (timerArm (s.t + 1000) { x with enable := true }))
  else .ok (s.setTimer s.activeB n { x with enable := false, active := false, preset := false })

/-- TIMER_ENABLE_WRITE (R33). -/
def execTimerEnableWrite (path n : Nat) (v : Bool) (s : State) : Host.Outcome State Fault Refusal :=
  done (sdoWrite path (0x2110 + n % 16) 1 1 (b2n v) (writeTimerEnable (n % 16) v) s)

/-- The firing instant `tn` of a timer of a plane is emitted (R36): the active plane's, and of a COMMITTED or SWITCHED changeover the old plane's firings
earlier than T_c and the new plane's from the switch on. -/
def timerMayFire (s : State) (planeB : Bool) (tn : Nat) : Bool :=
  let before := earlier (stampOf tn) (stampOf (s.obj 0x3600 3))
  if s.obj 0x3600 1 = 4 then planeB == s.activeB && before
  else if s.obj 0x3600 1 = 5 then planeB == s.activeB || before
  else planeB == s.activeB

/-- A firing of this timer waits for injection (R34). -/
def timerWaiting (s : State) (id : Nat) : Bool := (s.source 70).queue.any (fun p => p.timer == id)

/-- TOKEN_TIMER_FIRING (R34): at a firing instant the timer emits a token of stamp t_n with data word n on its stream, unless the previous
one still waits, which counts in 0x2101:06. A timer that is enabled before the fabric first leaves reset fires as well, and its token waits at its source
(DESIGN CHOICE, log 110). -/
def execTokenTimerFiring (planeB : Bool) (n : Nat) (s : State) : Host.Outcome State Fault Refusal :=
  let x := s.timer planeB (n % 16)
  let tn := timerNext x
  if x.enable ∧ x.active ∧ tn ≤ s.t ∧ timerMayFire s planeB tn then
    let id := 1 + n % 16 + 16 * b2n planeB
    let x1 : Timer := { x with nextN := x.nextN + 1, active := x.period != 0 }
    if timerWaiting s id then done ((s.setTimer planeB (n % 16) x1).bump 0x2101 6)
    else
      let s1 := s.setTimer planeB (n % 16) { x1 with count := x.nextN % 2 ^ 32 }
      let tok : Token := { stamp := stampOf tn, words := [BitVec.ofNat 32 x.nextN] }
      match entryCheck s1 tok with
      | none => done (s1.bump 0x2101 1)
      | some t' => done (s1.submit 70 { tokenPacket x.stream t' with timer := id })
  else done s

/-! ## Epoch housekeeping (R38) -/

/-- Action 2: the statistics snapshot, with the network records of R448. -/
def networkRecord (s : State) (i : Nat) : TraceEntry :=
  let pk := mget 0 s.net.epochPackets i
  let by' := mget 0 s.net.epochBytes i
  let lat := mget 0 s.net.owlMax i
  { kind := 2, source := 66, stamp := s.now, record := i + 2 ^ 32 * (pk % 2 ^ 32) + 2 ^ 64 * (by' % 2 ^ 32) + 2 ^ 96 * (lat % 2 ^ 32) }

/-- The banks of the MP that hold a context (Table 8.4): bank 1's of level 0, those bound to a level, those in which a CTX context is resident. -/
def mpContexts (x : Core) : List Nat :=
  ((List.range 15).map (· + 1)).filter (fun k => k == 1 || (x.bank k).resident || ((List.range 15).any (fun l => boundBank x.ibindL x.ibindH (l + 1) == k)))

/-- SAVE_HEADROOM (0x3030:07): the smallest SSL − SSP over the contexts resident on the MP. -/
def saveHeadroom (s : State) : State :=
  let x := s.core 68
  match ((mpContexts x).map x.bank).map (fun b => (b.ssl - b.ssp).toNat) with
  | [] => s
  | n :: ns => s.setObj 0x3030 7 (ns.foldl min n)

/-- Action 2 of R38: every counter captured at once; 0x2103:02 holds the new epoch number; network records are formed (R448); the MP's
interrupt source 9 becomes pending (Table 8.7). -/
def snapshot (s0 : State) : State :=
  let s := saveHeadroom (s0.interrupt 68 9)
  let recs := if s.obj 0x5200 1 = 1 ∧ s.obj 0x5200 9 ≠ 0 ∧ s.obj 0x5200 4 = 1 then (List.range 72).map (networkRecord s) else []
  let s1 := recs.foldl (fun st e => traceBlockPut e st) s
  let s2 : State := { s1 with snap := s1.od, net := { s1.net with owlMax := [], epochErrs := [], epochPackets := [], epochBytes := [] } }
  s2.setObj 0x2103 2 (s2.t / 2 ^ 20)

/-- Action 4: every router route cache is flushed, and with it every stale entry (0x3800:07); refills on their way are inserted after the flush (R238). -/
def flushCaches (s : State) : State :=
  ({ s with net := { s.net with sources := s.net.sources.map (fun e => (e.1, { e.2 with cache := [] })) } } : State).setObj 0x3800 7 0

/-- Actions 2 to 4 in their order. -/
def housekeeping (s : State) : State := flushCaches (traceClose (snapshot s))

/-- Action 1 at T[29:0] = 0: the stale sweep (R26). -/
def staleSweep (s : State) : State := if s.t % 2 ^ 30 = 0 then ageAll (sweepAge s.now) s else s

/-! ## Steps (R20 to R22) -/

/-- A step of T to `newT` with the effects of R22. The timers' next firings are the smallest t_n at or after the new T (DESIGN CHOICE, log 111). -/
def doStep (newT : Nat) (s : State) : State :=
  let oldT := s.t
  let delta : Int := (newT : Int) - oldT
  let s1 := ageAll (fun st old => stepAge (stampOf oldT) st old delta) (clearMarks s)
  let s2 := housekeeping { s1 with time := { s1.time with t := newT % 2 ^ 64, steps := (s1.time.clk, oldT) :: s1.time.steps } }
  let s3 : State := { s2 with timersA := rearmTimers s2.t s2.timersA, timersB := rearmTimers s2.t s2.timersB }
  let s4 := (s3.bump 0x2101 3).setObj 0x2101 5 s3.t
  let s5 := sample 3 (leBytes oldT 8 ++ leBytes s4.t 8) s4
  emit (.journal { typ := 4, t := s5.t, k := s5.t, payload := leBytes oldT 8 ++ leBytes s5.t 8 }) s5

/-- TIME_STEP (R20): in DC mode, in ACQUIRING or STEP_PENDING, when |offset| exceeds the threshold and R21 allows it, T becomes the DC
system time `dc` of this instant. -/
def execTimeStep (dc : Nat) (s : State) : Host.Outcome State Fault Refusal :=
  let off : Int := (s.t : Int) - dc
  if s.obj 0x2100 1 = 1 ∧ (s.tbState = 1 ∨ s.tbState = 4) ∧ stepRequired s off then
    if stepAllowed s then done (tbEnter 1 (doStep dc s)) else done (tbEnter 4 s)
  else done s

/-- PPS_EDGE (R16, R20): a rising edge on PPS_IN gets its meaning, ends HOLDOVER, the offset is measured, and a step that is required and permitted is
performed in this cycle. -/
def execPpsEdge (s : State) : Host.Outcome State Fault Refusal :=
  if s.obj 0x2100 1 = 2 ∧ s.tbState ≠ 0 then
    let v := ppsMeaning s
    let off : Int := (s.t : Int) - v
    let s1 := touchRef (s.setObj 0x2100 6 0)
    let s2 : State := { s1 with time := { s1.time with ppsPrev := some v } }
    let s3 := loopUpdate off (noteOffset off (if s2.tbState = 3 then tbEnter 1 s2 else s2))
    if (s3.tbState = 1 ∨ s3.tbState = 4) ∧ stepRequired s3 off ∧ stepAllowed s3 then done (tbEnter 1 (doStep v s3))
    else done (judgeOffset 8 off false s3)
  else done s

/-- The effect of a write of PPS_NEXT (R16): refused unless a multiple of 1,000,000,000. -/
def writePpsNext (v : Nat) (s : State) : Reply :=
  if v % 1000000000 ≠ 0 then .refuse s abortValue else .ok (s.setObj 0x2100 6 v)

/-- PPS_NEXT_WRITE (R16). -/
def execPpsNextWrite (path v : Nat) (s : State) : Host.Outcome State Fault Refusal :=
  done (sdoWrite path 0x2100 6 8 v (writePpsNext v) s)

/-- PPS_OUT_RISE (R23): T is a whole second and PPS_OUT_WIDTH is not 0. -/
def execPpsOutRise (s : State) : Host.Outcome State Fault Refusal :=
  if s.obj 0x2100 0x0B ≠ 0 ∧ s.t % 1000000000 = 0 then
    done { s with time := { s.time with ppsOut := true, ppsRose := s.time.clk } }
  else done s

/-- PPS_OUT_FALL (R23): PPS_OUT_WIDTH nanoseconds after the rise. -/
def execPpsOutFall (s : State) : Host.Outcome State Fault Refusal :=
  if s.time.ppsOut ∧ s.time.ppsRose + s.obj 0x2100 0x0B ≤ s.time.clk then
    done { s with time := { s.time with ppsOut := false } }
  else done s

/-- One CD0 cycle: T advances by exactly 1 (R12). -/
def tick (s : State) : State := { s with time := { s.time with t := (s.time.t + 1) % 2 ^ 64, clk := s.time.clk + 1 } }

end Sys2Proof.Machine
end

