-- ==== Sys2Proof/Machine/Noc.lean ====
section
/-! DEFINITION. The network (R207 to R239): injection, route caches, forwarding, ageing, delivery, memory requests and their answers, stream
queues, route entry writes, hoop-store bank power and the DRAM controller. Ports: 0 LOCAL, 1 EDGE, 2 +X, 3 −X, 4 +Y, 5 −Y. -/

namespace Sys2Proof.Machine
open Sys2Proof

/-! ## Initiators (Table 6.1) -/

/-- Router and port of an initiator: motif m on LOCAL, an edge node on EDGE. -/
def initiatorAt (i : Nat) : Nat × Nat × Bool :=
  if i < 64 then (i % 8, i / 8, false)
  else if i = 64 then (4, 0, true) else if i = 65 then (6, 0, true) else if i = 66 then (6, 7, true)
  else if i = 67 then (1, 7, true) else if i = 68 then (3, 7, true) else if i = 69 then (4, 7, true)
  else if i = 70 then (1, 0, true) else (3, 0, true)

/-- The initiator at a router's LOCAL or EDGE port. -/
def initiatorOf (x y : Nat) (edge : Bool) : Nat :=
  if edge then ((List.range 8).find? (fun k => initiatorAt (64 + k) == (x, y, true))).map (64 + ·) |>.getD 72 else 8 * y + x

/-- Router (x, y) has an edge node. -/
def hasEdge (x y : Nat) : Bool := initiatorOf x y true != 72

/-- Limit of outstanding requests (R209). -/
def outstandingLimit (i : Nat) : Nat :=
  if i < 64 then 8 else if i = 64 then 32 else if i = 65 then 0 else if i = 66 then 64 else if i = 67 then 16
  else if i = 68 then 32 else if i = 69 then 16 else if i = 70 then 16 else 32

/-- Number of the router cache that initiator `i` uses: its router's (R232). -/
def cacheOf (i : Nat) : Nat := let (x, y, _) := initiatorAt i; 8 * y + x

/-- The packet is a request that a target answers. -/
def Packet.isRequest (p : Packet) : Bool := p.typ == 2 || p.typ == 3 || p.typ == 4

/-- 36-bit address of a READ or WRITE (Table 6.2). -/
def Packet.addr (p : Packet) : Nat := 2 ^ 32 * (p.aux % 16) + p.tstamp.toNat

/-- Words a READ asks for, or a WRITE carries (Table 6.3). -/
def Packet.count (p : Packet) : Nat :=
  if p.typ = 2 then 4 * (p.words + 1) else 4 * (p.len - 1) + p.words % 4 + 1

/-- Bytes of a packet: header and data flits (R211). -/
def Packet.bytes (p : Packet) : Nat := 16 * (1 + p.len)

/-! ## Answers -/

/-- The answer to a request: type + 6, the request's TSTAMP and URGENCY, its injection time for the round-trip histogram (R212, R216, R224). -/
def answerOf (p : Packet) (status : Nat) (ws : List Word) : Packet :=
  let (x, y, e) := initiatorAt p.src
  { typ := p.typ + 6, resp := true, dx := x, dy := y, edge := e, urgency := p.urgency, len := if status = 0 then (ws.length + 3) / 4 else 0,
    aux := status, tstamp := p.tstamp, data := if status = 0 then ws else [], timer := p.timer, rtt := p.istamp.toNat, words := 0 }

/-- The answer leaves from the target's own source queue. -/
def answer (target : Nat) (p : Packet) (status : Nat) (ws : List Word) (s : State) : State := s.submit target (answerOf p status ws)

/-! ## Routes (R232 to R238) -/

/-- The master entry of a stream. -/
def masterEntry (s : State) (stream : Nat) : Nat := mget 0 s.net.master stream

/-- Cached entries that differ from their master (0x3800:07), and valid master entries (0x3800:05). -/
def routeShow (s : State) : State :=
  let stale := (s.net.sources.map (fun e => (e.2.cache.filter (fun c => c.2 != masterEntry s c.1)).length)).foldl (· + ·) 0
  let valid := (s.net.master.filter (fun e => bit e.2 31)).length
  (s.setObj 0x3800 7 stale).setObj 0x3800 5 valid

/-- An entry used: it becomes the most recent of its cache (R232). -/
def cacheTouch (i stream : Nat) (s : State) : State :=
  let src := s.source (cacheOf i)
  match takeFirst (fun (e : Nat × Nat) => e.1 == stream) src.cache with
  | none => s
  | some (e, rest) => s.setSource (cacheOf i) { src with cache := e :: rest }

/-- The cached entry of a stream. -/
def cached (s : State) (i stream : Nat) : Option Nat := ((s.source (cacheOf i)).cache.find? (fun e => e.1 == stream)).map (·.2)

/-- A refilled entry inserted; the least recently used of 16 leaves (R232, R234). -/
def cacheInsert (i stream entry : Nat) (s : State) : State :=
  let src := s.source (cacheOf i)
  s.setSource (cacheOf i) { src with cache := ((stream, entry) :: src.cache.filter (fun e => e.1 != stream)).take 16 }

/-- A token packet with the destination of a route entry (R233). -/
def withRoute (e : Nat) (p : Packet) : Packet :=
  if bit e 15 then
    let (x, y) := sliceRouter (field e 21 20) 0
    { p with stream := none, dx := x, dy := y, edge := false, endpoint := 48 + field e 19 16 }
  else { p with stream := none, dx := field e 2 0, dy := field e 5 3, edge := bit e 6, endpoint := field e 12 7 }

/-- Initial urgency of a token on a route entry (Table 6.6). -/
def routeUrgency (s : State) (e : Nat) (stamp : Word) : Nat :=
  let c := field e 14 13
  if c = 0 then 0 else if c = 1 then 4 else if c = 3 then 15
  else
    let slack := diff (stamp + BitVec.ofNat 32 (e / 2 ^ 32)) s.now
    if 1000000 ≤ slack then 4 else if 100000 ≤ slack then 6 else if 10000 ≤ slack then 8
    else if 1000 ≤ slack then 10 else if 250 ≤ slack then 12 else 14

/-! ## Ways through the network (R199, R200, R219, R220) -/

/-- The neighbour of router (x, y) on a port. -/
def neighbour (x y port : Nat) : Nat × Nat :=
  if port = 2 then ((x + 1) % 8, y) else if port = 3 then ((x + 7) % 8, y)
  else if port = 4 then (x, (y + 1) % 8) else if port = 5 then (x, (y + 7) % 8) else (x, y)

/-- The opposite direction of a ring port. -/
def opposite (port : Nat) : Nat := if port = 2 then 3 else if port = 3 then 2 else if port = 4 then 5 else 4

/-- The way from (x, y) along `port` reaches coordinate `goal` of the ring without a failed link. -/
def ringReach : Nat → State → Nat → Nat → Nat → Nat → Bool
  | 0, _, _, _, _, _ => false
  | f + 1, s, x, y, port, goal =>
    let c := if port = 2 ∨ port = 3 then x else y
    if c = goal then true
    else if linkFailed s x y port then false
    else let (x1, y1) := neighbour x y port; ringReach f s x1 y1 port goal

/-- The direction a packet keeps on its leg: the one it arrived by, else the shorter way (R219). -/
def legPort (inPort c goal plus minus : Nat) : Nat :=
  if inPort = minus then plus else if inPort = plus then minus
  else if (goal + 8 - c) % 8 ≤ 4 then plus else minus

/-- A ring port around a failed link (R199), or `none` when neither way reaches the goal (R200). -/
def aroundFailure (s : State) (x y port goal : Nat) : Option Nat :=
  if !linkFailed s x y port then some port
  else if ringReach 9 s x y (opposite port) goal then some (opposite port) else none

/-- The output port of a packet at its router; `none` when it can no longer reach its destination. -/
def nextPort (s : State) (p : Packet) : Option Nat :=
  if p.rx ≠ p.dx then aroundFailure s p.rx p.ry (legPort p.inPort p.rx p.dx 2 3) p.dx
  else if p.ry ≠ p.dy then aroundFailure s p.rx p.ry (legPort p.inPort p.ry p.dy 4 5) p.dy
  else if p.edge then (if linkFailed s p.rx p.ry 1 then none else some 1) else some 0

/-- The virtual-channel buffer of an input port of router (x, y), as a number (R220). -/
def bufKey (x y inPort : Nat) (resp : Bool) (vc : Nat) : Nat := 4 * (16 * (8 * y + x) + inPort) + 2 * b2n resp + vc

/-- The buffer in which a packet's header stands; at LOCAL and EDGE it goes on standing in the one it came by. -/
def Packet.buffer (p : Packet) : Nat := (p.worm.head?.map (·.1)).getD (bufKey p.rx p.ry p.inPort p.resp p.vc)

/-- Flits of the packets `fl` in a buffer. -/
def flitsIn (fl : List Packet) (k : Nat) : Nat := (fl.flatMap (fun q => (q.worm.filter (fun e => e.1 == k)).map (·.2))).foldl (· + ·) 0

/-- Flits of a packet that have passed into buffer `k` or beyond it: the first entries of its way, the front one first. -/
def flitsPast (k : Nat) : List (Nat × Nat) → Nat
  | [] => 0
  | e :: es => e.2 + (if e.1 = k then 0 else flitsPast k es)

/-- A packet stands in buffer `k` and flits of it are still behind: it holds that virtual channel (R223). -/
def vcHeld (s : State) (k : Nat) : Bool :=
  s.net.flying.any (fun q => q.worm.any (fun e => e.1 == k) && decide (flitsPast k q.worm < 1 + q.len))

/-- A header may enter the buffer (R220): it has a credit, and no other packet holds its virtual channel. -/
def bufferRoom (s : State) (x y inPort : Nat) (resp : Bool) (vc : Nat) : Bool :=
  let k := bufKey x y inPort resp vc
  decide (flitsIn s.net.flying k < 8) && !vcHeld s k

/-- `n` flits of a packet laid into buffers, the front one first, each as far as its 8 places go; what is left stays at the source. Flits of a packet move
up when its header moves (DESIGN CHOICE, log 131). -/
def layInto (free : Nat → Nat) : List Nat → Nat → List (Nat × Nat)
  | [], _ => []
  | k :: ks, n => if n = 0 then [] else (k, min n (free k)) :: layInto free ks (n - min n (free k))

/-- The flits of packet `p` laid into the buffers of its way (R220). -/
def layFlits (s : State) (way : List Nat) (p : Packet) : List (Nat × Nat) :=
  layInto (fun k => 8 - flitsIn (s.net.flying.erase p) k) way (1 + p.len)

/-- The packet with LOOKAHEAD naming its output port at the router it enters (R219). -/
def lookAhead (s : State) (p : Packet) : Packet := { p with look := (nextPort s p).getD 0 }

/-! ## Injection (R218, R224, R227, R234, R235) -/

/-- The status a request gets before it leaves its source (R216, R230; Table 6.10), or its target and endpoint. -/
def requestTarget (s : State) (i : Nat) (p : Packet) : Sum Nat (Nat × Nat × Bool × Nat) :=
  if p.typ = 4 then .inr (p.dx, p.dy, p.edge, p.endpoint)
  else
    let a := p.addr
    let n := 4 * p.count
    let aligned := if p.typ = 2 then a % 16 == 0 else a % 4 == 0
    match regionOf s a with
    | .unmapped => .inl 2
    | .mp => if i ≠ 64 then .inl 6 else if aligned then .inr (4, 0, true, 0) else .inl 7
    | .hoop h o =>
      if !aligned ∨ a / 64 ≠ (a + n - 1) / 64 then .inl 7
      else let (x, y) := sliceRouter h (field o 7 6); .inr (x, y, false, 32)
    | .scratch m _ => if !aligned ∨ a / 64 ≠ (a + n - 1) / 64 then .inl 7 else .inr (m % 8, m / 8, false, 17)
    | .dram o => if !aligned ∨ o / 256 ≠ (o + n - 1) / 256 then .inl 7 else .inr (6, 0, true, 0)

/-- Urgency after waiting in the source queue (R225), counted when it reaches 15 by ageing. -/
def agedUrgency (u w : Nat) (s : State) : Nat × State :=
  let v := min 15 (u + w)
  (v, if u < 15 ∧ v = 15 then s.bump 0x3010 2 else s)

/-- The close notice's mask completed by the router (R137). -/
def closeMask (s : State) (i : Nat) (p : Packet) : Packet :=
  if p.typ = 1 ∧ p.aux = 1 ∧ i < 64 then
    let m := ((s.motif i).part p.tid).sent
    { p with data := [BitVec.ofNat 32 m, BitVec.ofNat 32 (m / 2 ^ 32)], len := 1 }
  else p

/-- The motif notes the member motif it sent a token of a TID to (R137); a cancel word is no token (R79). -/
def noteSent (i : Nat) (p : Packet) (s : State) : State :=
  if p.typ = 0 ∧ p.tid ≠ 0 ∧ p.words ≠ 0 ∧ i < 64 ∧ !p.edge ∧ p.endpoint < 17 then
    let x := s.motif i
    let q := x.part p.tid
    let member := match s.txn? p.tid with | some t => bit t.members (8 * p.dy + p.dx) | none => false
    if member then s.setMotif i (x.setPart p.tid { q with sent := q.sent ||| 2 ^ (8 * p.dy + p.dx) }) else s
  else s

/-- The router of motif i discarded a token of a TID: that execution of it cannot close (R234). -/
def noteLost (i : Nat) (p : Packet) (s : State) : State :=
  if p.tid ≠ 0 ∧ p.words ≠ 0 ∧ i < 64 then
    let x := s.motif i
    s.setMotif i (x.setPart p.tid { x.part p.tid with lostEx := p.exec + 1 })
  else s

/-- A packet enters the network at its source router, with its counters (R227). The flits that its buffer has no room for stay at the source (R220). -/
def inject (i : Nat) (p : Packet) (s : State) : State :=
  let (x, y, e) := initiatorAt i
  let (u, s0) := agedUrgency p.urgency p.waited s
  let worm := layFlits s [bufKey x y (b2n e) p.resp 0] p
  let q : Packet := { closeMask s i p with urgency := u, waited := 0, src := i, rx := x, ry := y, inPort := b2n e, vc := 0, istamp := s.now, worm := worm }
  let s1 := noteSent i q s0
  let s2 : State := { s1 with net := { s1.net with
      flying := s1.net.flying ++ [lookAhead s q], epochPackets := mset 0 s1.net.epochPackets i (mget 0 s1.net.epochPackets i + 1),
      epochBytes := mset 0 s1.net.epochBytes i (mget 0 s1.net.epochBytes i + q.bytes) } }
  let s3 := ((s2.bump 0x3010 1).bump (0x3080 + i) 3).addObjW 64 (0x3080 + i) 1 q.bytes
  if p.isRequest then
    let src := s3.source i
    (s3.setSource i { src with outstanding := src.outstanding + 1 }).peak (0x3080 + i) 5 (src.outstanding + 1)
  else s3

/-- The head packet leaves a source queue. -/
def popSource (i : Nat) (s : State) : State := s.setSource i { s.source i with queue := (s.source i).queue.drop 1 }

/-- A token with its route entry leaves its source: discarded when the entry is not VALID (R234), otherwise injected; a frame holds its
entry until its last packet (R235). -/
def injectRouted (i st e : Nat) (p : Packet) (s : State) : State :=
  let src := s.source i
  let held := if !p.fend then some (st, e) else if src.frame.any (fun h => h.1 == st) then none else src.frame
  let s1 := popSource i (s.setSource i { src with frame := held })
  if bit e 31 then inject i { withRoute e p with urgency := routeUrgency s e p.tstamp } s1 else noteLost i p (s1.bump 0x3010 3)

/-- The link of an edge node to its router has failed (R200): the way of what it would send ends there. -/
def edgeCut (s : State) (i : Nat) : Bool := let (x, y, e) := initiatorAt i; e && linkFailed s x y 1

/-- A packet that an edge node with a failed link would send is discarded (R200); a request gets no answer and stays outstanding. -/
def cutOff (i : Nat) (p : Packet) (s : State) : State :=
  let src := s.source i
  let s1 := s.setSource i { src with queue := src.queue.drop 1, outstanding := src.outstanding + b2n p.isRequest }
  s1.bump 0x3702 7

/-- Initiator i's packet cannot enter its router now: the buffer of its class has no room (R220), or a request would exceed those outstanding, each of
which holds the space for its response (R209, R222). -/
def injectHeld (s : State) (i : Nat) (p : Packet) : Bool :=
  let (x, y, e) := initiatorAt i
  !bufferRoom s x y (b2n e) p.resp 0 || (p.isRequest && decide (outstandingLimit i ≤ (s.source i).outstanding))

/-- A request that fails at its source (R216, R230) gets its answer at once: it has been outstanding for no time (R227). -/
def sourceAnswer (i status : Nat) (p : Packet) (s : State) : State :=
  let r := { answerOf { p with src := i, istamp := s.now } status [] with src := i }
  let s1 := ((popSource i s).peak (0x3080 + i) 5 ((s.source i).outstanding + 1)).bump (0x3080 + i) 6
  { s1 with net := { s1.net with inbox := s1.net.inbox ++ [r] } }

/-- The packet at the head of source `i`, which nothing holds, is formed, gets its destination and is injected (R218). A cache miss starts a refill and
holds everything behind it (R234). The urgency of a FORWARD token's packet to port 42, which no route entry names, is a free value. -/
def injectHead (i : Nat) (p : Packet) (s : State) : State :=
  let src := s.source i
  if p.typ = 0 then
    match p.stream with
    | none =>
      let (f, s1) := s.fresh
      inject i { p with urgency := (Config.freeWord f).toNat % 16 } (popSource i s1)
    | some st =>
      match src.frame.filter (fun h => h.1 == st) with
      | some h => injectRouted i st h.2 p s
      | none =>
        match cached s i st with
        | some e => injectRouted i st e p (cacheTouch i st s)
        | none => (s.setSource i { src with refill := some st }).bump 0x3800 6
  else if p.isRequest then
    match requestTarget s i p with
    | .inl status => sourceAnswer i status p s
    | .inr (x, y, e, ep) => inject i { p with dx := x, dy := y, edge := e, endpoint := ep } (popSource i s)
  else if p.typ = 1 ∨ (8 ≤ p.typ ∧ p.typ ≤ 10) then inject i p (popSource i s)
  else (popSource i s).bump 0x3010 7

/-- PACKET_INJECTION (R218, R222): the packet at the head of source `i` enters the network; while its class has no room there, the first response of the
source goes instead. Nothing leaves while a refill is pending (R234). -/
def execPacketInjection (i : Nat) (s : State) : Host.Outcome State Fault Refusal :=
  let src := s.source i
  match src.queue with
  | [] => done s
  | p :: ps =>
    if src.refill.isSome then done s
    else if edgeCut s i then done (cutOff i p s)
    else if injectHeld s i p then
      match takeFirst (fun (q : Packet) => q.resp) ps with
      | some (r, rest) => done (if injectHeld s i r then s else inject i r (s.setSource i { src with queue := p :: rest }))
      | none => done s
    else done (injectHead i p s)

/-- ROUTE_CACHE_REFILL_DONE (R234, R238): the entry is read from the master copy and inserted; waiting packets proceed. -/
def execRouteCacheRefillDone (i : Nat) (s : State) : Host.Outcome State Fault Refusal :=
  let src := s.source i
  match src.refill with
  | none => done s
  | some st =>
    let s1 := cacheInsert i st (masterEntry s st) (s.setSource i { src with refill := none })
    done (routeShow (s1.bump (0x3100 + hoopOf (cacheOf i)) 0x26))

/-! ## Forwarding (R199, R200, R219, R220, R223) -/

/-- Virtual channel of a packet after a hop (R220): VC 0 at the start of a leg, VC 1 once it has crossed the ring's dateline. -/
def nextVc (p : Packet) (port : Nat) : Nat :=
  let c := if port = 2 ∨ port = 3 then p.rx else p.ry
  let newLeg := !(p.inPort == opposite port)
  let crosses := ((port = 2 ∨ port = 4) ∧ c = 7) ∨ ((port = 3 ∨ port = 5) ∧ c = 0)
  if crosses then 1 else if newLeg then 0 else p.vc

/-- The packet is at the front of its virtual channel at its router's input (R220): no header came there before it, and no packet that goes on from there
has flits in it. -/
def frontOf (fl : List Packet) (p : Packet) : Bool :=
  (fl.takeWhile (fun q => q != p)).all (fun q => q.buffer != p.buffer) &&
    fl.all (fun q => q == p || !((q.worm.drop 1).any (fun e => e.1 == p.buffer) || (decide (6 ≤ q.inPort) && q.buffer == p.buffer)))

/-- Packet `a` is granted before `b` at an output (R223). -/
def grantBefore (s : State) (a b : Packet) : Bool :=
  let last := fun (p : Packet) => mget 0 s.net.grants (64 * p.inPort + 8 * p.ry + p.rx)
  if a.urgency ≠ b.urgency then decide (b.urgency < a.urgency)
  else if a.resp ≠ b.resp then a.resp
  else decide (last a < last b)

/-- A packet taken out of the network (its first copy). -/
def dropFlying (p : Packet) (s : State) : State := { s with net := { s.net with flying := s.net.flying.erase p } }

/-- A packet as it stands after its router grants it an output port: at LOCAL or EDGE, or at the next router's input. -/
def hop (s : State) (p : Packet) (port : Nat) : Packet :=
  if port < 2 then { p with inPort := 8 + port }
  else
    let (x, y) := neighbour p.rx p.ry port
    let q : Packet := { p with rx := x, ry := y, inPort := opposite port, vc := nextVc p port }
    lookAhead s { q with worm := layFlits s (bufKey x y q.inPort q.resp q.vc :: p.worm.map (·.1)) p }

/-- A packet has a place behind an output port: a credit of the next router's buffer (R220), or, at LOCAL and EDGE, no packet of its class before it. -/
def hopRoom (s : State) (p : Packet) (port : Nat) : Bool :=
  let q := hop s p port
  if port < 2 then s.net.flying.all (fun o => o.rx != q.rx || o.ry != q.ry || o.inPort != q.inPort || o.resp != q.resp)
  else bufferRoom s q.rx q.ry q.inPort q.resp q.vc

/-- The packet an output port of a router grants next (R223), of those that have a place behind it. -/
def grantee (s : State) (x y port : Nat) : Option Packet :=
  let cs := s.net.flying.filter (fun p =>
    p.rx == x && p.ry == y && decide (p.inPort < 6) && frontOf s.net.flying p && nextPort s p == some port && hopRoom s p port)
  cs.foldl (fun b p => match b with | none => some p | some q => if grantBefore s p q then some p else some q) none

/-- A header with a word that its buffer's ECC cannot correct belongs to a TID: a token's, or one of the notices OPENING and CLOSE. -/
def Packet.ownsTid (p : Packet) : Bool := p.tid != 0 && (p.typ == 0 || (p.typ == 1 && decide (p.aux ≤ 1)))

/-- A packet whose buffer word is uncorrectable (R194): its TID is aborted as a device fault at the router's motif and the packet is lost; in a packet
without a TID of its own, whose case the spec leaves open, one word is a free value and the alarm is latched (log 126). -/
def badFlit (x y : Nat) (bad : TidList) (p : Packet) (s : State) : State × Option Packet :=
  let s1 := s.bump 0x3701 2
  if p.ownsTid then (motifAbort (8 * y + x) p.tid p.exec .device bad s1, none)
  else
    let (f, s2) := s1.fresh
    let w := Config.freeWord f
    (raise 8 s2, some (match p.data with | [] => { p with tstamp := w } | _ :: ds => { p with data := w :: ds }))

/-- The packet `p` leaves its router by an output port as `q` (R223). -/
def forward (x y port : Nat) (p q : Packet) (s : State) : State :=
  let s1 := dropFlying p s
  let n := s1.net
  let seq := n.grantSeq + 1
  { s1 with net := { n with flying := n.flying ++ [hop s q port], grantSeq := seq,
                            grants := mset 0 n.grants (64 * p.inPort + 8 * y + x) seq,
                            retries := mset 0 n.retries (linkKey x y port) 0 } }

/-- PACKET_FORWARD (R223): router (x, y) grants output `port` to a waiting packet, which moves to the next router, or arrives at LOCAL or EDGE.
A packet whose destination can no longer be reached is discarded (R200). `ecc` is what the buffer's words show (R192, R194); `bad` are the records that an
abort here finds bad. -/
def execPacketForward (x y port ecc : Nat) (bad : TidList) (s : State) : Host.Outcome State Fault Refusal :=
  match grantee s x y port with
  | some p =>
    if ecc = 2 then
      match badFlit x y bad p s with
      | (s1, none) => done (dropFlying p s1)
      | (s1, some q) => done (forward x y port p q s1)
    else done (forward x y port p p (if ecc = 1 then s.bump 0x3701 1 else s))
  | none =>
    match s.net.flying.find? (fun p => p.rx == x && p.ry == y && decide (p.inPort < 6) && (nextPort s p).isNone) with
    | some p => done ((dropFlying p s).bump 0x3702 7)
    | none => done s

/-- URGENCY_AGEING (R225): a header that waited 64 cycles rises by 1, in source queue `i` or as packet `i` in a router's buffers, one that waits for its
LOCAL or EDGE port too. -/
def execUrgencyAgeing (inSource : Bool) (i : Nat) (s : State) : Host.Outcome State Fault Refusal :=
  if inSource then
    let src := s.source i
    done (s.setSource i { src with queue := src.queue.map (fun p => { p with waited := p.waited + 1 }) })
  else
    match s.net.flying[i]? with
    | none => done s
    | some p =>
      if 15 ≤ p.urgency then done s
      else
        let s1 : State := { s with net := { s.net with flying := s.net.flying.set i { p with urgency := p.urgency + 1 } } }
        done (if p.urgency = 14 then s1.bump 0x3010 2 else s1)

/-! ## Delivery (R215, R217, R226, R227) -/

/-- Bin of a latency (Table 6.7). -/
def latencyBin (ns : Nat) : Nat :=
  if ns < 10 then 0 else if ns < 20 then 1 else if ns < 40 then 2 else if ns < 80 then 3 else if ns < 160 then 4
  else if ns < 320 then 5 else if ns < 640 then 6 else 7

/-- A response arrives at initiator i: its request is no longer outstanding, and its round trip is counted (R209, R227). -/
def noteRoundTrip (i : Nat) (p : Packet) (s : State) : State :=
  let src := s.source i
  (s.setSource i { src with outstanding := src.outstanding - 1 }).bump (0x3080 + i) (6 + latencyBin (s.now - BitVec.ofNat 32 p.rtt).toNat)

/-- Counters of the initiator that receives a packet (R227), with the epoch's highest one-way latency (R448). -/
def noteReceived (i : Nat) (p : Packet) (s0 : State) : State :=
  let s := if p.resp then noteRoundTrip i p s0 else s0
  let lat := (s.now - p.istamp).toNat
  let s1 := ((s.bump (0x3080 + i) 4).addObjW 64 (0x3080 + i) 2 p.bytes).bump (0x3080 + i) (0x0E + latencyBin lat)
  { s1 with net := { s1.net with owlMax := mset 0 s1.net.owlMax i (max lat (mget 0 s1.net.owlMax i)) } }

/-- The router is the one of slice 0 of a hoop; `none` otherwise. -/
def sliceZero (x y : Nat) : Option Nat := (List.range 4).find? (fun h => sliceRouter h 0 == (x, y))

/-- The router is a slice router. -/
def isSlice (x y : Nat) : Bool := (List.range 16).any (fun k => sliceRouter (k / 4) (k % 4) == (x, y))

/-- The destination accepts the packet (Table 6.5, R217). The notice endpoint 48 of the selvedge accepts no TOKEN: one that a route entry sends there is
discarded (DESIGN CHOICE, log 149). -/
def accepts (x y : Nat) (edge : Bool) (p : Packet) : Bool :=
  let e := p.endpoint
  if p.resp then true
  else if edge then
    if (x, y) = (3, 0) then (p.typ == 0 && decide (e ≤ 42)) || (p.typ == 1 && e == 48)
    else if (x, y) = (6, 0) then (p.typ == 2 || p.typ == 3) && e == 0
    else if (x, y) = (4, 0) then (p.typ == 0 || p.typ == 2 || p.typ == 3) && e == 0
    else false
  else if p.typ = 1 then true
  else if p.typ = 0 then decide (e ≤ 16) || (e == 33 && (sliceZero x y).isSome) || (decide (48 ≤ e) && (sliceZero x y).isSome)
  else if p.typ = 4 then decide (48 ≤ e) && (sliceZero x y).isSome
  else e == 17 || (e == 32 && isSlice x y)

/-- The packet is addressed to a router's LOCAL port, whose motif may be offline (R215). -/
def toLocal (p : Packet) : Bool := !p.edge && !p.resp

/-- The packet is a token for the motif itself, not for a hoop-store endpoint at its router (R208). -/
def forMotif (p : Packet) : Bool := toLocal p && p.typ == 0 && decide (p.endpoint ≤ 17)

/-- Flits of the packets that wait in the MP's input queue (Table 1.7). -/
def mpFlits (s : State) : Nat :=
  ((s.net.inbox.filter (fun p => p.edge && p.dx == 4 && p.dy == 0 && !p.resp)).map (fun p => 1 + p.len)).foldl (· + ·) 0

/-- Data flits that wait in the DRAM controller's queue. -/
def dramFlits (s : State) : Nat := (s.dram.rows.map (·.len)).foldl (· + ·) 0

/-- The endpoint back-pressures a packet that it accepts (R42, R222, R248, Table 1.7): no response is ever held. -/
def deliveryHeld (s : State) (x y : Nat) (p : Packet) : Bool :=
  if p.resp then false
  else if p.edge then
    if (x, y) = (6, 0) then decide (32 ≤ s.dram.rows.length) || decide (64 < dramFlits s + p.len)
    else (x, y) == (4, 0) && decide (16 < mpFlits s + 1 + p.len)
  else forMotif p && !(s.motif (8 * y + x)).offline && decide (32 < crossUsed s (64 + (8 * y + x)) + 1 + p.words)

/-- A packet that its endpoint accepts reaches it: a token for a motif crosses into it, a DRAM request joins the controller's queue, every other packet
waits at its endpoint. A token for the MP or a supervisor raises its interrupt source (Table 8.7). -/
def atEndpoint (x y : Nat) (edge : Bool) (p : Packet) (s : State) : State :=
  if forMotif p then cross (64 + (8 * y + x)) p s
  else if edge ∧ (x, y) = (6, 0) ∧ !p.resp then
    ({ s with dram := { s.dram with rows := s.dram.rows ++ [p] } } : State).peak 0x3012 0x0B (s.dram.rows.length + 1)
  else
    let s1 : State := { s with net := { s.net with inbox := s.net.inbox ++ [p] } }
    if p.typ = 0 ∧ edge ∧ (x, y) = (4, 0) then s1.interrupt 68 7
    else if p.typ = 0 ∧ !edge ∧ p.endpoint = 33 then s1.interrupt (64 + (sliceZero x y).getD 0) 2
    else s1

/-- PACKET_DELIVERY (R222, R226): the oldest packet that arrived at a LOCAL or EDGE port and is not held there reaches its endpoint, or is discarded or
answered for an offline motif (R215) or an endpoint that is not accepted (R217). -/
def execPacketDelivery (x y : Nat) (edge : Bool) (s : State) : Host.Outcome State Fault Refusal :=
  match s.net.flying.find? (fun p => p.rx == x && p.ry == y && p.inPort == 8 + b2n edge && !deliveryHeld s x y p) with
  | none => done s
  | some p =>
    let j := initiatorOf x y edge
    let s1 := noteReceived j p (dropFlying p s)
    let q : Packet := { p with waited := 0 }
    if toLocal p ∧ (s.motif (8 * y + x)).offline then
      done (if p.isRequest then answer j q 1 [] (s1.bump 0x3010 5) else s1.bump 0x3010 4)
    else if !accepts x y edge p then
      done (if p.isRequest then answer j q 2 [] (s1.bump 0x3010 7) else s1.bump 0x3010 7)
    else done (atEndpoint x y edge q s1)

/-! ## Crossing into a motif (R42, R85, R88, R144) -/

/-- The token a packet carries; its P is bits [3:2] of its urgency (R81). -/
def packetToken (p : Packet) : Token :=
  { tid := p.tid, stamp := p.tstamp, words := p.data.take p.words, prio := p.urgency / 4, exec := p.exec, planeB := p.planeB,
    old := p.old, cancel := p.words == 0, fend := p.fend }

/-- Motif m receives a token with a higher execution number than the one it holds: its own execution ends at once (R171). -/
def newerExecution (m : Nat) (t : Token) (s : State) : State :=
  if t.tid ≠ 0 ∧ !t.cancel ∧ ((s.motif m).part t.tid).exec < t.exec then
    let s1 := abortAtMotif m t.tid (t.exec - 1) s
    let x := s1.motif m
    s1.setMotif m (x.setPart t.tid { x.part t.tid with exec := t.exec })
  else s

/-- The route of a token for the shuttle input (endpoint 16): KIND 3 with the shuttle bit. -/
def shuttleRoute : Nat := 4099

/-- A token or cancel word enters motif m for an endpoint (R84, R85, R88, R144, R171, R281, R283): into source 16's buffer with its ingress route, or
discarded. -/
def enterMotif (m : Nat) (p : Packet) (s : State) : State :=
  let t := packetToken p
  let plane := if t.tid = 0 ∧ !t.cancel then planeOf s t.stamp else some t.planeB
  match plane with
  | none => s.bump 0x3600 0x0E
  | some b =>
    let t1 : Token := { t with planeB := b }
    if !t.cancel ∧ straggler s m t then s.bump 0x3500 0x0C
    else
      let s1 := newerExecution m t s
      let x := s1.motif m
      let r := if p.endpoint = 16 then shuttleRoute else x.route b 0 p.endpoint
      if routeKind r = 0 then s1.bump 0x3010 7
      else s1.setMotif m (x.pushOut s.time.clk 16 { route := r, tok := t1, endpoint := p.endpoint })

/-- DUAL_CLOCK_QUEUE_DELIVERY (R42): the oldest entry of a dual-clock queue crosses. Queue m: motif m to its router; 64 + m: router to motif m,
held while source 16's output buffer is full (R85), discarded while the motif is offline (R215, R276); 128 + b: TIO bank b to the port block, whose token enters the fabric (R400);
200 + n: trace source n to the journal engine (R450). -/
def execDualClockQueueDelivery (q : Nat) (s : State) : Host.Outcome State Fault Refusal :=
  if 200 ≤ q then done (traceDrain (q - 200) s)
  else if 128 ≤ q then
    match mget [] s.ports.tioBanks (q - 128) with
    | [] => done s
    | (pin, t) :: rest =>
      done (enterFabric 70 pin t { s with ports := { s.ports with tioBanks := mset [] s.ports.tioBanks (q - 128) rest } })
  else
    match mget [] s.net.crossing q with
    | [] => done s
    | p :: rest =>
      let s1 : State := { s with net := { s.net with crossing := mset [] s.net.crossing q rest } }
      if q < 64 then done (s1.submit q p)
      else if (s.motif (q - 64)).offline then done (s1.bump 0x3010 4)
      else if 16 < outUsed (s.motif (q - 64)) 16 + 1 + p.words then done s else done (enterMotif (q - 64) p s1)

/-! ## Requests at their targets (R215, R216, R229, R239) -/

/-- A request of a type waits at a port of a router. -/
def waitingAt (x y : Nat) (edge : Bool) (typ : Nat) (p : Packet) : Bool :=
  p.typ == typ && p.dx == x && p.dy == y && p.edge == edge

/-- Where the memory that an address names lies: DRAM by its offset, whichever window reaches it (R245). -/
def placeOf (s : State) (a : Nat) : Nat := match regionOf s a with | .dram o => 0x1000000000 + o | _ => a

/-- The bytes of two memory requests overlap. -/
def overlaps (s : State) (p q : Packet) : Bool :=
  let a := placeOf s p.addr
  let b := placeOf s q.addr
  decide (b < a + 4 * p.count) && decide (a < b + 4 * q.count)

/-- A READ and a WRITE of one initiator that overlap (R231). -/
def conflicts (s : State) (p q : Packet) : Bool := p.src == q.src && ((p.typ == 2 && q.typ == 3) || (p.typ == 3 && q.typ == 2)) && overlaps s p q

/-- An older request of its initiator, which a memory request must not pass, still waits (R231). -/
def memOrder (s : State) (p : Packet) : Bool := (s.net.inbox.takeWhile (fun q => q != p)).all (fun q => !conflicts s p q)

/-- The oldest READ or WRITE that may be performed at a port, taken. -/
def takeRequest (x y : Nat) (edge : Bool) (typ : Nat) (s : State) : Option (Packet × State) :=
  takePacket (fun p => waitingAt x y edge typ p && memOrder s p) s

/-- Words of a scratchpad read in order; the ECC outcome is that of the first word (R108). `none` when some word is uncorrectable. -/
def readScratch (m : Nat) : List Nat → Nat → State → Option (List Word) × State
  | [], _, s => (some [], s)
  | a :: as, ecc, s =>
    match spRead m a ecc s with
    | (none, s1) => (none, s1)
    | (some w, s1) =>
      match readScratch m as 0 s1 with
      | (none, s2) => (none, s2)
      | (some ws, s2) => (some (w :: ws), s2)

/-- Words of a scratchpad write in order: `true` when every one was written (R108, R216). -/
def writeScratch (m : Nat) : List (Nat × Word) → Nat → State → Bool × State
  | [], _, s => (true, s)
  | (a, w) :: r, ecc, s =>
    let (ok, s1) := spWrite m a w ecc s
    let (oks, s2) := writeScratch m r 0 s1
    (ok && oks, s2)

/-- The other requests of a hoop-store bank wait while one is served, counted in 0x3100 + h:23: a cycle for each (DESIGN CHOICE, log 132). -/
def hoopWaits (h o : Nat) (s : State) : State :=
  let n := (s.net.inbox.filter (fun q => (q.typ == 2 || q.typ == 3) && !q.edge && q.endpoint == 32 &&
    (match regionOf s q.addr with | .hoop h' o' => h' == h && hoopBank o' == hoopBank o | _ => false))).length
  s.addObj (0x3100 + h) 0x23 n

/-- A scratchpad access of the router under the bank's arbitration (R109, class 6 of Table 3.7): `p` is performed by `f` on the state without it, or waits. -/
def routerAtBank (m b : Nat) (f : State → State) (s taken : State) : State :=
  let q : BankAsk := { cls := 6, pos := b, waited := askWaited (s.motif m) 6 b }
  if bankTurn s m b q then f (takeTurn m q taken) else loseTurn m q s

/-- A READ performed at the memory its address names (R216, R229, R240). -/
def readTarget (j ecc : Nat) (p : Packet) (s taken : State) : State :=
  match regionOf s p.addr with
  | .scratch m a =>
    if !spOn s m (spBank a) then answer j p 4 [] taken
    else routerAtBank m (spBank a) (fun t =>
      match readScratch m ((List.range p.count).map (fun i => a + 4 * i)) ecc t with
      | (some ws, t1) => answer j p 0 ws t1
      | (none, t1) => answer j p 3 [] (raise 8 t1)) s taken
  | .hoop h o =>
    if !hoopOn s h (hoopBank o) then answer j p 4 [] taken
    else match hoopChecks h (wordsOf o (4 * p.count)) ecc (hoopWaits h o taken) with
      | (true, t) => answer j p 0 (memWords (t.hoop h).mem o p.count) (t.addObjW 64 (0x3100 + h) 0x21 (4 * p.count))
      | (false, t) => answer j p 3 [] (raise 8 t)
  | .mp =>
    let t := if ecc = 0 then taken else if ecc = 1 then taken.bump 0x3701 1 else raise 8 (taken.bump 0x3701 2)
    if ecc = 2 then answer j p 3 [] t else answer j p 0 (memWords (s.core 68).dmem (p.addr - 0x02000000) p.count) t
  | _ => answer j p 2 [] taken

/-- A WRITE performed at the memory its address names (R216, R229, R240); at a scratchpad, words at failing addresses are not written and the answer is
UNCORRECTABLE. -/
def writeTarget (j ecc : Nat) (p : Packet) (s taken : State) : State :=
  let ws := p.data.take p.count
  match regionOf s p.addr with
  | .scratch m a =>
    if !spOn s m (spBank a) then answer j p 4 [] taken
    else routerAtBank m (spBank a) (fun t =>
      let (ok, t1) := writeScratch m (((List.range p.count).map (fun i => a + 4 * i)).zip p.data) ecc t
      answer j p (if ok then 0 else 3) [] t1) s taken
  | .hoop h o =>
    if !hoopOn s h (hoopBank o) then answer j p 4 [] taken
    else
      let t := hoopWaits h o taken
      let x := t.hoop h
      let t1 := t.setHoop h { x with mem := memWrite x.mem o (wordBytes ws), ecc := x.ecc.filter (fun e => decide (e.1 < (o + 7) / 8) || decide ((o + 4 * ws.length) / 8 ≤ e.1)) }
      answer j p 0 [] (t1.addObjW 64 (0x3100 + h) 0x22 (4 * ws.length))
  | .mp =>
    let x := taken.core 68
    answer j p 0 [] (taken.setCore 68 { x with dmem := memWrite x.dmem (p.addr - 0x02000000) (wordBytes ws) })
  | _ => answer j p 2 [] taken

/-- READ_REQUEST (R216, R229, R231): the oldest READ at a scratchpad, a hoop-store slice or the MP that may be performed. -/
def execReadRequest (x y : Nat) (edge : Bool) (ecc : Nat) (s : State) : Host.Outcome State Fault Refusal :=
  match takeRequest x y edge 2 s with
  | none => done s
  | some (p, s1) => done (readTarget (initiatorOf x y edge) ecc p s s1)

/-- WRITE_REQUEST (R216, R229, R231): the oldest WRITE at a scratchpad, a hoop-store slice or the MP that may be performed. -/
def execWriteRequest (x y : Nat) (edge : Bool) (ecc : Nat) (s : State) : Host.Outcome State Fault Refusal :=
  match takeRequest x y edge 3 s with
  | none => done s
  | some (p, s1) => done (writeTarget (initiatorOf x y edge) ecc p s s1)

/-! ## Stream queues (R239) -/

/-- Bytes of a slot moved in or out of a hoop store (0x3100 + h:21 and :22) or DRAM (0x3012:09 and :0A). -/
def slotBytes (write : Bool) (a : Nat) (s : State) : State :=
  match regionOf s a with
  | .hoop h _ => s.addObjW 64 (0x3100 + h) (0x21 + b2n write) 72
  | .dram _ => s.addObjW 64 0x3012 (9 + b2n write) 72
  | _ => s

/-- STREAM_QUEUE_APPEND (R239): the oldest token waiting for a stream queue is appended as one slot; a token with a TID is discarded; a full queue makes it
wait, counted once. A slot whose memory is not ON or does not answer now makes it wait too (DESIGN CHOICE, log 130). A token for a queue that is not used,
or without data words, is discarded (DESIGN CHOICE, log 151). -/
def execStreamQueueAppend (hoop q : Nat) (s : State) : Host.Outcome State Fault Refusal :=
  let (x, y) := sliceRouter hoop 0
  match takeFirst (fun (p : Packet) => p.typ == 0 && !p.edge && p.dx == x && p.dy == y && p.endpoint == 48 + q) s.net.inbox with
  | none => done s
  | some (p, rest) =>
    let s1 : State := { s with net := { s.net with inbox := rest } }
    let sq := s.squeue hoop q
    let a := slotAt sq sq.count
    if p.tid ≠ 0 then done (s1.bump 0x3010 6)
    else if p.words = 0 ∨ sq.slots = 0 then done (s1.bump 0x3010 7)
    else if sq.slots ≤ sq.count then
      (if p.waited = 0 then
        done (({ s with net := { s.net with inbox := s.net.inbox.map (fun r => if r = p then { r with waited := 1 } else r) } } : State).bump 0x3010 8)
      else done s)
    else if slotStatus s a ≠ 0 ∨ slotWaits s a then done s
    else
      let s2 := slotBytes true a (storeWords a (slotWords (packetToken p)) s1)
      done (s2.setSqueue hoop q { sq with count := sq.count + 1, peak := max sq.peak (sq.held + 1) })

/-- PULL_REQUEST (R216, R239): the oldest slot of a stream queue in a PULL_RESP of 5 flits, QUEUE_EMPTY, BANK_OFF, or UNCORRECTABLE, which leaves the slot
where it is. A PULL of a slot whose memory does not answer now waits (R196, R516). -/
def execPullRequest (x y : Nat) (edge : Bool) (ecc : Nat) (s : State) : Host.Outcome State Fault Refusal :=
  match takePacket (waitingAt x y edge 4) s with
  | none => done s
  | some (p, s1) =>
    let j := initiatorOf x y edge
    match sliceZero x y with
    | none => done (answer j p 2 [] s1)
    | some h =>
      let q := p.endpoint - 48
      let sq := s1.squeue h q
      let a := slotAt sq 0
      if sq.count = 0 then done (answer j p 5 [] s1)
      else if slotStatus s a ≠ 0 then done (answer j p (slotStatus s a) [] s1)
      else if slotWaits s a then done s
      else match slotCheck a ecc s1 with
        | (true, s2) =>
          done (answer j p 0 (slotPeek s2 a ++ [0#32, 0#32])
            ((slotBytes false a s2).setSqueue h q sq.pulled))
        | (false, s2) => done (answer j p 3 [] (raise 8 s2))

/-- The oldest answer of a type that waits at initiator `i`, taken. -/
def takeAnswer (i typ : Nat) (s : State) : Option (Packet × State) :=
  let (x, y, e) := initiatorAt i
  takePacket (fun p => p.resp && waitingAt x y e typ p) s

/-! ## Route entry writes (R233, R236 to R238) -/

/-- The destination has the endpoint (Table 6.5, R217). -/
def endpointAt (x y : Nat) (edge : Bool) (ep : Nat) : Bool :=
  if edge then
    if (x, y) = (3, 0) then decide (ep ≤ 42) || ep == 48
    else if (x, y) = (4, 0) ∨ (x, y) = (6, 0) then ep == 0
    else false
  else decide (ep ≤ 17) || (ep == 32 && isSlice x y) || ((ep == 33 || decide (48 ≤ ep)) && (sliceZero x y).isSome)

/-- The entry sets no reserved bit and names a destination that exists (R233). -/
def entryOk (e : Nat) : Bool :=
  let x := field e 2 0
  let y := field e 5 3
  field e 30 22 == 0 && (!bit e 6 || hasEdge x y) && (bit e 15 || endpointAt x y (bit e 6) (field e 12 7))

/-- The master copies changed (R232), with 0x3800:05, :07 and :08. -/
def masterWrite (stream v : Nat) (s : State) : State :=
  routeShow (({ s with net := { s.net with master := mset 0 s.net.master stream v } } : State).setObj 0x3800 8 s.t)

/-- A stream leaves every cache (R237). -/
def invalidate (stream : Nat) (s : State) : State :=
  routeShow { s with net := { s.net with sources := s.net.sources.map (fun e => (e.1, { e.2 with cache := e.2.cache.filter (fun c => c.1 != stream) })) } }

/-- The effect of a write of ENTRY while INVALIDATE_ON_WRITE is FALSE (R236). -/
def writeEntryLazy (v : Nat) (s : State) : Reply :=
  if entryOk v then .ok (masterWrite (s.obj 0x3800 1) v s) else .refuse s abortValue

/-- ROUTE_ENTRY_WRITE_LAZY (R236): only the master copies change. -/
def execRouteEntryWriteLazy (path v : Nat) (s : State) : Host.Outcome State Fault Refusal :=
  if s.obj 0x3800 3 = 0 then done (sdoWrite path 0x3800 2 8 v (writeEntryLazy v) s) else done s

/-- A stream's entry changes in the masters and leaves every cache once the routers confirm (R237); `path` is answered then, 8 is no path. -/
def startInvalidate (path stream v : Nat) (s : State) : State :=
  let s1 : State := routeShow { s with net := { s.net with master := mset 0 s.net.master stream v } }
  { s1 with net := { s1.net with invalidating := s1.net.invalidating ++ [(stream, path)] } }

/-- The effect of a write of ENTRY while INVALIDATE_ON_WRITE is TRUE (R237): refused, or the write completes when every router has confirmed. -/
def writeEntryNow (path v : Nat) (s : State) : Sum Nat State :=
  if entryOk v then .inr (startInvalidate path (s.obj 0x3800 1) v s) else .inl abortValue

/-- ROUTE_ENTRY_WRITE_INVALIDATE (R237). -/
def execRouteEntryWriteInvalidate (path v : Nat) (s : State) : Host.Outcome State Fault Refusal :=
  if s.obj 0x3800 3 = 0 then done s else done (sdoAction path 0x3800 2 8 v (writeEntryNow path v) s)

/-- Every router has confirmed the oldest invalidation (R237): the stream leaves every cache, and the dictionary write completes. -/
def invalidationDone (s : State) : State :=
  match s.net.invalidating with
  | [] => s
  | (st, path) :: rest =>
    let s1 := (invalidate st { s with net := { s.net with invalidating := rest } }).setObj 0x3800 8 s.t
    if path < 8 then answered path (.ok s1) else s1

/-- The effect of a write of FLUSH_ALL (Table 6.17). -/
def writeFlushAll (v : Bool) (s : State) : Reply := .ok (if v then routeShow (flushCaches s) else s)

/-- FLUSH_ALL_WRITE (R237). -/
def execFlushAllWrite (path : Nat) (v : Bool) (s : State) : Host.Outcome State Fault Refusal := done (sdoWrite path 0x3800 4 1 (b2n v) (writeFlushAll v) s)

/-! ## Hoop-store bank power (R242) -/

/-- Hoop h is idle for 0x3100 + h:20 (R251): no ACTIVE class has a member motif in it. -/
def hoopIdle (s : State) (h : Nat) : Bool :=
  (List.range 64).all (fun c => s.classState c != 1 || (List.range 64).all (fun m => hoopOf m != h || !bit (s.cls s.activeB c).members m))

/-- The effect of a write of HS_BANK_POWER (R242). -/
def writeHoopPower (h v : Nat) (s : State) : Reply :=
  let old := s.obj (0x3100 + h) 0x20
  if !hoopIdle s h then .refuse s abortState
  else if (List.range 32).any (fun b => bankField v b == 3 || (b % 8 == 7 && bankField v b != bankField old b)) then .refuse s abortValue
  else .ok (startHoopBanks h v s)

/-- HOOP_BANK_POWER_WRITE (R242). -/
def execHoopBankPowerWrite (path h v : Nat) (s : State) : Host.Outcome State Fault Refusal :=
  done (sdoWrite path (0x3100 + h % 4) 0x20 8 v (writeHoopPower (h % 4) v) s)

/-- HOOP_BANK_TRANSITION_DONE (R113, R242): contents are lost in OFF. A bank that leaves OFF was filled with zero words on its way. -/
def execHoopBankTransitionDone (h bank : Nat) (s : State) : Host.Outcome State Fault Refusal :=
  let x := s.hoop h
  match takeFirst (fun (t : BankTr) => t.bank == bank && decide (t.due ≤ s.time.clk)) x.bankTr with
  | none => done s
  | some (t, rest) =>
    let x1 : Hoop := { x with bankTr := rest }
    done (s.setHoop h (if t.target = 2 then zeroHoopBank bank x1 else x1))

/-! ## DRAM (R243 to R248) -/

/-- A request whose page is being copied waits (R196). -/
def dramHeld (s : State) (p : Packet) : Bool := match regionOf s p.addr with | .dram o => pageCopying s o | _ => false

/-- The requests of the highest urgency, oldest first (R248). -/
def dramUrgent (s : State) : List Packet :=
  let rs := s.dram.rows.filter (fun p => !dramHeld s p)
  let u := (rs.map (·.urgency)).foldl max 0
  rs.filter (fun p => p.urgency == u)

/-- An older request that `p` must not pass: a read none that writes what it reads (R248), a write none of its initiator that reads what it writes
(R231). -/
def olderOverlap (s : State) (p : Packet) : Option Packet :=
  (s.dram.rows.takeWhile (fun q => q != p)).find? (fun q => if p.typ = 2 then q.typ == 3 && overlaps s p q else conflicts s p q)

/-- The request served in order that `p` can be served: the oldest of those that must go before it. It is served in the place of `p`, whatever its own
urgency (DESIGN CHOICE, log 150). -/
def dramFirst : Nat → State → Packet → Packet
  | 0, _, p => p
  | f + 1, s, p => match olderOverlap s p with | none => p | some q => dramFirst f s q

/-- The request the controller serves next: of those of the highest urgency number `pick`, as the open rows decide (R248). -/
def dramNext (s : State) (pick : Nat) : Option Packet :=
  let cs := dramUrgent s
  (cs[pick % cs.length]?).map (dramFirst s.dram.rows.length s)

/-- DRAM_REQUEST_SERVICE (R248): the next request is served. While PD11 is OFF the requests wait (R516). -/
def execDramRequestService (ecc pick : Nat) (s : State) : Host.Outcome State Fault Refusal :=
  match (if bit s.power.on 11 then dramNext s pick else none) with
  | none => done s
  | some p =>
    let s1 : State := { s with dram := { s.dram with rows := s.dram.rows.erase p } }
    match regionOf s p.addr with
    | .dram o =>
      if p.typ = 2 then
        match dramCheck o p.count ecc s1 with
        | (true, s2) => done (answer 65 p 0 (memWords s2.dram.mem o p.count) (s2.addObjW 64 0x3012 9 (4 * p.count)))
        | (false, s2) => done (answer 65 p 3 [] s2)
      else done (answer 65 p 0 [] ((dramWrite o (p.data.take p.count) s1).addObjW 64 0x3012 0x0A (4 * p.count)))
    | _ => done (answer 65 p 2 [] s1)

end Sys2Proof.Machine
end

