-- ==== Sys2Proof/Machine/Serial.lean ====
section
/-! DEFINITION. Serial channels (R404 to R413): UART, clocked encoder reading and Kyokel drive frames. -/

namespace Sys2Proof.Machine
open Sys2Proof

/-- Channel ch. -/
def State.serial (s : State) (ch : Nat) : Serial := mget {} s.ports.serial ch

/-- The state with channel ch replaced. -/
def State.setSerial (s : State) (ch : Nat) (x : Serial) : State :=
  { s with ports := { s.ports with serial := mset {} s.ports.serial ch x } }

/-- A counter of channel ch. -/
def serBump (ch sub : Nat) (s : State) : State := s.bumpi ch 0x4100 sub

/-- The channel is full duplex: UART FORMAT bit 3. -/
def serFull (s : State) (ch : Nat) : Bool := serMode s ch == 1 && bit (serCfg s ch 4) 3

/-- DE of a channel (R404): high from its rise to the end of the last bit sent in half duplex; always in full duplex and SSI mode. -/
def serDe (s : State) (ch : Nat) : Bool :=
  let x := s.serial ch
  serFull s ch || serMode s ch == 2 || x.lead.isSome || decide (s.time.clk < x.endAt)

/-- Duration of `n` bits at the channel's rate, in nanoseconds. -/
def bitsNs (s : State) (ch n : Nat) : Nat := 1000000000 * n / serCfg s ch 3

/-- Bits of one UART character: start, 8 data bits, parity, stop bits (Table 10.4). -/
def charBits (fmt : Nat) : Nat := 1 + 8 + (if fmt % 4 = 0 then 0 else 1) + (if bit fmt 2 then 2 else 1)

/-- A token of channel ch enters the fabric (ingress index 24 + ch) and is counted; a source without an ingress record sends nothing (R393). -/
def serToken (ch : Nat) (t : Token) (s : State) : State :=
  if entersFabric s (24 + ch) t then serBump ch 9 (enterFabric 70 (24 + ch) t s) else enterFabric 70 (24 + ch) t s

/-! ## Entries (R406, R409, R412) -/

/-- The bytes of an entry's words from index `i` on. -/
def entryBytes (ws : List Word) (i n : Nat) : List Byte := (wordBytes (ws.drop i)).take n

/-- Header byte 1 and payload words of a drive command (R412). -/
def driveHead (fmt : Nat) (ws : List Word) : Nat × List Word :=
  if bit fmt 8 then (wordAt ws 0 % 128, ws.drop 1) else (fmt % 128, ws)

/-- The bytes of a drive frame (Table 10.5, R411). -/
def driveFrame (head seq : Nat) (payload : List Word) : List Byte :=
  let body := leBytes head 1 ++ leBytes seq 1 ++ leBytes (4 * payload.length) 1 ++ wordBytes payload
  0xD4#8 :: body ++ leBytes (crc16 body) 2

/-- A release on the channel (R404): the frame starts; `false` in the result of mode off, which sends nothing. -/
def serSend (ch : Nat) (ws : List Word) (s : State) : State :=
  let x := s.serial ch
  let fmt := serCfg s ch 4
  let x0 : Serial := { x with lead := none, deAt := if x.lead.isSome then x.deAt else s.time.clk }
  if serMode s ch = 1 then
    let bs := entryBytes ws 1 (wordAt ws 0)
    serBump ch 8 (s.setSerial ch { x0 with tx := bs, seq := (x.seq + 1) % 256, endAt := s.time.clk + bitsNs s ch (bs.length * charBits fmt) })
  else if serMode s ch = 2 then
    serBump ch 8 (s.setSerial ch { x0 with reading := some (s.time.clk, s.now, false), shared := true })
  else if serMode s ch = 3 then
    let (head, pay) := driveHead fmt ws
    let bs := driveFrame head x.seq pay
    let endAt := s.time.clk + bitsNs s ch (bs.length * 10)
    serBump ch 8 (s.setSerial ch { x0 with tx := bs, seq := (x.seq + 1) % 256, endAt := endAt,
                                           cmd := if head % 16 = 15 then none else some (head, x.seq) })
  else s.setSerial ch x0

/-- The channel is still busy with the frame it sends (R405). -/
def serBusy (s : State) (ch : Nat) : Bool :=
  let x := s.serial ch
  x.cmd.isSome || x.reading.isSome || decide (s.time.clk < x.endAt)

/-! ## UART (R407) -/

/-- One token of a received frame (R407). -/
def uartToken (stamp : Stamp) (bs : List RxByte) (last : Bool) : Token :=
  let w := bs.length + 64 * b2n (bs.any (·.parity)) + 128 * b2n (bs.any (·.framing)) + 256 * b2n last
  { stamp := stamp, fend := last, words := BitVec.ofNat 32 w :: leWords (((bs.map (fun b => BitVec.ofNat 8 b.value)) ++ [0#8, 0#8, 0#8]).take ((bs.length + 3) / 4 * 4)) }

/-- The tokens of a received frame, at most 56 bytes each. -/
def uartTokens (stamp : Stamp) : Nat → List RxByte → List Token
  | 0, _ => []
  | f + 1, bs => if bs.length ≤ 56 then [uartToken stamp bs true] else uartToken stamp (bs.take 56) false :: uartTokens stamp f (bs.drop 56)

/-- RXD was ignored `ago` nanoseconds before now: DE was high in half duplex (R404). -/
def rxIgnored (s : State) (ch ago : Nat) : Bool :=
  let x := s.serial ch
  !serFull s ch && decide (x.deAt + ago ≤ s.time.clk) && (x.lead.isSome || decide (s.time.clk < x.endAt + ago))

/-- The bytes as the channel checks them: without a parity bit there is no parity error (Table 10.4). -/
def uartBytes (fmt : Nat) (bytes : List RxByte) : List RxByte :=
  if fmt % 4 = 0 then bytes.map (fun b => { b with parity := false }) else bytes

/-- UART_FRAME_END (R407): RXD stayed idle for the gap; the frame's start bit came `ago` nanoseconds before now, and no frame starts while RXD is ignored. -/
def execUartFrameEnd (ch ago : Nat) (received : List RxByte) (s : State) : Host.Outcome State Fault Refusal :=
  let ch := ch % 8
  let bytes := uartBytes (serCfg s ch 4) received
  if serMode s ch ≠ 1 ∨ bytes.isEmpty ∨ rxIgnored s ch ago ∨ ago < bitsNs s ch (serCfg s ch 6) then done s
  else
    let errs := (bytes.filter (·.parity)).length + (bytes.filter (·.framing)).length
    let s1 := s.setObji ch 0x4100 0x0A (satAdd 32 (s.obji ch 0x4100 0x0A) errs)
    done ((uartTokens (s.stampAgo ago) bytes.length bytes).foldl (fun st t => serToken ch t st) s1)

/-! ## Clocked encoder reading (R408 to R410) -/

/-- SSI_POLL (R409): at a whole multiple of POLL_PERIOD a free channel starts a read; a busy one skips the poll. A release at the same instant
makes one read with it. -/
def execSsiPoll (ch : Nat) (s : State) : Host.Outcome State Fault Refusal :=
  let ch := ch % 8
  let x := s.serial ch
  let per := serCfg s ch 7
  if serMode s ch ≠ 2 ∨ per = 0 ∨ s.t % per ≠ 0 then done s
  else match x.reading with
    | some (c, st, _) => if c = s.time.clk then done (s.setSerial ch { x with reading := some (c, st, true) }) else done (serBump ch 0x0C s)
    | none => done (serBump ch 8 (s.setSerial ch { x with reading := some (s.time.clk, s.now, true), shared := false }))

/-- Gray code of `w` bits decoded. -/
def grayDecode : Nat → Nat → Nat
  | 0, n => n
  | k + 1, n => let d := grayDecode k n; d ^^^ (n >>> (k + 1))

/-- Nanoseconds of a read: P + S + 1 periods and the monoflop time. -/
def ssiNs (s : State) (ch : Nat) : Nat :=
  let fmt := serCfg s ch 4
  bitsNs s ch (fmt % 64 + fmt / 64 % 16 + 1) + serCfg s ch 6

/-- SSI_READ_COMPLETE (R410): the read and its monoflop time have ended; `pos` and `st` are the bits received, `err` the line error. -/
def execSsiReadComplete (ch pos st : Nat) (err : Bool) (s : State) : Host.Outcome State Fault Refusal :=
  let ch := ch % 8
  let x := s.serial ch
  let fmt := serCfg s ch 4
  match x.reading with
  | none => done s
  | some (c, stamp, poll) =>
    if c + ssiNs s ch ≤ s.time.clk then
      let p := pos % 2 ^ (fmt % 64)
      let v := if bit fmt 10 then grayDecode 31 p else p
      let w1 := st % 2 ^ (fmt / 64 % 16) + 256 * b2n err + 512 * b2n poll
      let s1 := if err then serBump ch 0x0A s else s
      done (serToken ch { stamp := stamp, words := [BitVec.ofNat 32 v, BitVec.ofNat 32 w1] } (s1.setSerial ch { x with reading := none }))
    else done s

/-! ## Kyokel drive frames (R411 to R413) -/

/-- The response token of R413. -/
def driveToken (stamp : Stamp) (head seq len : Nat) (crcErr timeout mismatch : Bool) (ws : List Word) : Token :=
  { stamp := stamp, words := BitVec.ofNat 32 (head % 256 + 256 * (seq % 256) + 2 ^ 16 * (len % 256) + 2 ^ 24 * b2n crcErr + 2 ^ 25 * b2n timeout +
      2 ^ 26 * b2n mismatch) :: ws }

/-- The frame's LEN and CRC are right (R411, R412). -/
def driveFrameOk (bs : List Byte) : Bool :=
  let len := (bs.getD 3 0#8).toNat
  len % 4 == 0 && decide (len ≤ 56) && bs.length == len + 6 && (bs.getD 0 0#8) == 0xD4#8 &&
    leNat (bs.drop (4 + len)) == crc16 ((bs.drop 1).take (3 + len))

/-- DRIVE_RESPONSE_RECEIVED (R413): a response whose first start bit came `ago` nanoseconds before now, within the timeout of the command's end. -/
def execDriveResponseReceived (ch ago : Nat) (bytes : List RxByte) (s : State) : Host.Outcome State Fault Refusal :=
  let ch := ch % 8
  let x := s.serial ch
  match x.cmd with
  | none => done s
  | some (head, seq) =>
    if serMode s ch ≠ 3 ∨ x.endAt + serCfg s ch 6 + ago < s.time.clk ∨ s.time.clk < x.endAt + ago then done s
    else
      let bs := bytes.map (fun b => BitVec.ofNat 8 b.value)
      let h := (bs.getD 1 0#8).toNat
      let q := (bs.getD 2 0#8).toNat
      let len := (bs.getD 3 0#8).toNat
      let bad := bytes.any (·.framing) || !driveFrameOk bs
      let mism := h % 128 != head % 128 || q != seq || !bit h 7
      let ws := if bad then [] else leWords ((bs.drop 4).take len)
      let s1 := s.setSerial ch { x with cmd := none }
      let s2 := if bad then serBump ch 0x0A s1 else s1
      let s3 := if mism then serBump ch 0x0A s2 else s2
      done (serToken ch (driveToken (s.stampAgo ago) h q len bad false mism ws) s3)

/-- DRIVE_RESPONSE_TIMEOUT (R413): no response within the timeout. -/
def execDriveResponseTimeout (ch : Nat) (s : State) : Host.Outcome State Fault Refusal :=
  let ch := ch % 8
  let x := s.serial ch
  match x.cmd with
  | none => done s
  | some (head, seq) =>
    if x.endAt + serCfg s ch 6 ≤ s.time.clk then
      let s1 := raise 29 (serBump ch 0x0B (s.setSerial ch { x with cmd := none }))
      done (serToken ch (driveToken s.now (head % 128) seq 0 false true false []) s1)
    else done s

end Sys2Proof.Machine
end

