-- ==== Sys2Proof/Machine/Tio.lean ====
section
/-! DEFINITION. TIO pins (R396 to R403): deglitch, selection, merging, rate limiting, stuck detection, the bank queues, outputs and pulse trains.
Instants inside a pin are elapsed nanoseconds; a step of T leaves a pin as it is (R401). -/

namespace Sys2Proof.Machine
open Sys2Proof

/-- Pin p. -/
def State.pin (s : State) (p : Nat) : TioPin := mget {} s.ports.tio p

/-- The state with pin p replaced. -/
def State.setPin (s : State) (p : Nat) (x : TioPin) : State := { s with ports := { s.ports with tio := mset {} s.ports.tio p x } }

/-- A setting of pin p: subindex 02 to 0A of 0x4000. -/
def tioCfg (s : State) (p sub : Nat) : Nat := s.obji p 0x4000 sub

/-- The pin is an input, and the fabric has left reset. -/
def tioIn (s : State) (p : Nat) : Bool := s.fabric && tioCfg s p 2 == 1

/-- The pin is an output. -/
def tioOut (s : State) (p : Nat) : Bool := tioCfg s p 2 == 2 || tioCfg s p 2 == 3

/-! ## Tokens (R399, R400) -/

/-- A TIO token (Table 10.3). -/
def tioToken (stamp : Stamp) (level : Bool) (kind : Nat) (more : List Word) : Token :=
  { stamp := stamp, words := BitVec.ofNat 32 (b2n level + 2 * kind) :: more }

/-- Tokens in the port-block queue of a bank. -/
def bankQueue (s : State) (b : Nat) : List (Nat × Token) := mget [] s.ports.tioBanks b

/-- The token of pin p enters its bank's queue, or is held until there is room (R400); its instant starts the 64 ns of R396. -/
def tioSend (p : Nat) (t : Token) (s : State) : State :=
  let x : TioPin := { s.pin p with lastTok := some s.time.clk, folded := 0 }
  if (bankQueue s (p / 8)).length < 16 then
    let s1 := s.setPin p x
    { s1 with ports := { s1.ports with tioBanks := mset [] s1.ports.tioBanks (p / 8) (bankQueue s (p / 8) ++ [(p, t)]) } }
  else s.setPin p { x with held := some t }

/-! ## Stages (R396 to R398) -/

/-- The stuck mark of a pin cleared; the alarm's condition ends with the last one. -/
def tioUnstick (p : Nat) (s : State) : State :=
  let s1 := (s.setPin p { s.pin p with stuck := false }).setObjBit 0x4000 0x0F p false
  setCond 28 (s1.obj 0x4000 0x0F != 0) s1

/-- The level after the deglitch stage changes (R398): the active level begins or ends. -/
def tioLevel (p : Nat) (at' : Nat) (st : Stamp) (level : Bool) (s : State) : State :=
  let active := level == bit (tioCfg s p 3) 2
  let x : TioPin := { s.pin p with level := level, activeAt := if active then some (at', st) else none }
  let s1 := s.setPin p x
  if x.stuck ∧ !active then tioUnstick p s1 else s1

/-- An output pin driven to a level; an open-drain pin releases its ball for level 1, which then has the level seen on it (R403). -/
def tioDrive (p : Nat) (level : Bool) (s : State) : State :=
  (s.setPin p { s.pin p with out := level }).setObjBit 0x4000 0x0B p (if level ∧ tioCfg s p 2 = 3 then (s.pin p).raw else level)

/-- The device drives the ball of pin p: an output from the fabric start on, but not an open-drain one at level 1 (R401, R403). -/
def tioHolds (s : State) (p : Nat) : Bool := s.fabric && tioOut s p && !(tioCfg s p 2 == 3 && (s.pin p).out)

/-- A written MODE comes into force at the pin's next event (R394): what the pin did in its old mode ends, a pin that becomes an output drives INIT_LEVEL, and
one that becomes an input starts at its level (DESIGN CHOICE, log entry 101). -/
def tioSettle (p : Nat) (s : State) : State :=
  let x := s.pin p
  let m := tioCfg s p 2
  if !s.fabric || x.mode == m then s
  else if tioOut s p && (x.mode == 2 || x.mode == 3) then tioDrive p x.out (s.setPin p { x with mode := m })
  else
    let s1 := s.setPin p { x with mode := m, edge := none, activeAt := none, pulse := none, stuckTok := none, level := x.raw }
    let s2 := if x.stuck then tioUnstick p s1 else s1
    if tioOut s p then tioDrive p (bit (tioCfg s p 7) 0) s2
    else
      let s3 := s2.setObjBit 0x4000 0x0B p x.raw
      if m = 1 then tioLevel p s.time.clk s.now x.raw s3 else s3

/-- A selected edge reaches the rate stage (R396): folded while a token is held or the last one is less than 64 ns old, or when it merged. -/
def tioRate (p : Nat) (st : Stamp) (merged : Bool) (s : State) : State :=
  let x := s.pin p
  let close := match x.lastTok with | some c => decide (s.time.clk < c + 64) | none => false
  if close || x.held.isSome || merged then
    let y : TioPin := { x with folded := x.folded + 1, foldFirst := if x.folded = 0 then st else x.foldFirst, foldLast := st }
    (s.setPin p y).bump 0x4000 0x0E
  else tioSend p (tioToken st x.level 0 []) s

/-- The burst summary of pin p, where it is due: 64 ns after the pin's last token, edges folded since and no token held (R397, R400). -/
def tioSummary (p : Nat) (s : State) : State :=
  let x := s.pin p
  let due : Bool := match x.lastTok with | some c => decide (c + 64 ≤ s.time.clk) | none => true
  if x.folded ≠ 0 ∧ due ∧ x.held.isNone then
    tioSend p (tioToken x.foldFirst x.level 2 [BitVec.ofNat 32 x.folded, x.foldLast]) s
  else s

/-- An edge that passed the deglitch stage (R396): a summary due before it, then stuck detection, selection, merging, rate. -/
def tioPass (p at' : Nat) (st : Stamp) (level : Bool) (s : State) : State :=
  let s1 := tioLevel p at' st level (tioSummary p s)
  if !bit (tioCfg s p 3) (if level then 0 else 1) then s1
  else
    let x := s1.pin p
    match x.lastSel with
    | some (c, st0) =>
      if at' < c + 8 then tioRate p st0 true ((s1.setPin p { x with lastSel := some (at', st0) }).bump 0x4000 0x0D)
      else tioRate p st false (s1.setPin p { x with lastSel := some (at', st) })
    | none => tioRate p st false (s1.setPin p { x with lastSel := some (at', st) })

/-- The edge in the deglitch stage has held for DEGLITCH nanoseconds: it passes. -/
def tioDue (p : Nat) (s : State) : State :=
  let x := s.pin p
  match x.edge with
  | none => s
  | some (c, st) =>
    if c + tioCfg s p 4 ≤ s.time.clk then tioPass p c st x.raw (s.setPin p { x with edge := none }) else s

/-- TIO_INPUT_EDGE (R29, R396): pin p, whose ball the device does not hold, crosses its threshold to `level` and is stamped. An edge before it that had not held for DEGLITCH is
ignored with it, and both are counted. -/
def execTioInputEdge (p : Nat) (level : Bool) (s0 : State) : Host.Outcome State Fault Refusal :=
  let p := p % 24
  let s := tioSettle p s0
  if (s.pin p).raw = level ∨ tioHolds s p then done s
  else
    let s1 := (tioDue p s).setObjBit 0x4000 0x0B p level
    let x := s1.pin p
    if !tioIn s p then done (s1.setPin p { x with raw := level })
    else match x.edge with
      | some _ => done ((s1.setPin p { x with raw := level, edge := none }).addObj 0x4000 0x0C 2)
      | none =>
        let s2 := s1.setPin p { x with raw := level, edge := some (s1.time.clk, s1.now) }
        done (if tioCfg s p 4 = 0 then tioDue p s2 else s2)

/-- TIO_DEGLITCH_PASS (R396). -/
def execTioDeglitchPass (p : Nat) (s : State) : Host.Outcome State Fault Refusal :=
  let s1 := tioSettle (p % 24) s
  if tioIn s1 (p % 24) then done (tioDue (p % 24) s1) else done s1

/-- TIO_BURST_SUMMARY (R397): 64 ns after the pin's last token the edges folded since are sent as one token. -/
def execTioBurstSummary (p : Nat) (s : State) : Host.Outcome State Fault Refusal :=
  let s1 := tioSettle (p % 24) s
  if tioIn s1 (p % 24) then done (tioSummary (p % 24) s1) else done s1

/-- TIO_STUCK_TIMEOUT (R398): the active level has been held for STUCK_TIMEOUT. The alarm and the pin's bit come at once; a pin that holds a token sends
the stuck token after it (DESIGN CHOICE, log entry 139). -/
def execTioStuckTimeout (p : Nat) (s0 : State) : Host.Outcome State Fault Refusal :=
  let p := p % 24
  let s1 := tioSettle p s0
  let s := if tioIn s1 p then tioSummary p s1 else s1
  let x := s.pin p
  let lim := 1000 * tioCfg s p 6
  match x.activeAt with
  | none => done s
  | some (c, st) =>
    if tioIn s p ∧ lim ≠ 0 ∧ c + lim ≤ s.time.clk ∧ !x.stuck then
      let first := s.obj 0x4000 0x0F = 0
      let t := tioToken (st + BitVec.ofNat 32 lim) x.level 1 [st]
      let s1 := (s.setPin p { x with stuck := true, stuckTok := if x.held.isSome then some t else none }).setObjBit 0x4000 0x0F p true
      let s2 := if first then setCond 28 true s1 else raise 28 s1
      done (if x.held.isSome then s2 else tioSend p t s2)
    else done s

/-- TIO_TOKEN_QUEUE_ENTRY (R400): a held token enters its bank's queue once there is room. -/
def execTioTokenQueueEntry (p : Nat) (s : State) : Host.Outcome State Fault Refusal :=
  let p := p % 24
  let x := s.pin p
  match x.held with
  | none => done s
  | some t =>
    if (bankQueue s (p / 8)).length < 16 then
      let s1 := s.setPin p { x with held := x.stuckTok, stuckTok := none, lastTok := if x.stuckTok.isSome then some s.time.clk else x.lastTok }
      done { s1 with ports := { s1.ports with tioBanks := mset [] s1.ports.tioBanks (p / 8) (bankQueue s (p / 8) ++ [(p, t)]) } }
    else done s

/-! ## Outputs (R401 to R403) -/

/-- The pulse level of a pin. -/
def pulseLevel (s : State) (p : Nat) : Bool := bit (tioCfg s p 0x0A) 16

/-- Offset of edge n of a pulse train from its start (R402). -/
def pulseEdgeAt (s : State) (p n : Nat) : Nat := n / 2 * tioCfg s p 9 + (if n % 2 = 1 then tioCfg s p 8 else 0)

/-- A pulse train starts, or starts again, with k = 0 (R402, R403). -/
def tioPulse (p : Nat) (s : State) : State :=
  tioDrive p (pulseLevel s p) (s.setPin p { s.pin p with pulse := some { start := s.time.clk, next := 1 } })

/-- The entries of one release instant on an output pin (R160, R403): the last LEVEL sets the pin and ends a train, any PULSE starts the train. -/
def tioRelease (p : Nat) (ws : List Word) (s0 : State) : State :=
  let s := tioSettle p s0
  if tioOut s p ∧ s.fabric then
    let levels := ws.filter (fun w => !w.getLsbD 1)
    let s1 := match levels.getLast? with
      | some w => tioDrive p (w.getLsbD 0) (s.setPin p { s.pin p with pulse := none })
      | none => s
    if ws.any (fun w => w.getLsbD 1) then tioPulse p s1 else s1
  else s

/-- PULSE_TRAIN_EDGE (R402): the train's next edge has come; the train ends after edge 2 COUNT − 1. -/
def execPulseTrainEdge (p : Nat) (s0 : State) : Host.Outcome State Fault Refusal :=
  let p := p % 24
  let s := tioSettle p s0
  let x := s.pin p
  match x.pulse with
  | none => done s
  | some t =>
    if t.start + pulseEdgeAt s p t.next ≤ s.time.clk then
      let n := t.next + 1
      let past := 2 * (tioCfg s p 0x0A % 65536) ≤ n
      let s1 := s.setPin p { x with pulse := if past then none else some { t with next := n } }
      done (tioDrive p (if t.next % 2 = 0 then pulseLevel s p else !pulseLevel s p) s1)
    else done s

/-- The pins at the instant the fabric first leaves reset (R401): outputs drive INIT_LEVEL, and an input at its active level has held it from now. -/
def tioStart (s : State) : State :=
  (List.range 24).foldl (fun st0 p =>
    let st := st0.setPin p { st0.pin p with mode := tioCfg st0 p 2 }
    if tioOut st p then tioDrive p (bit (tioCfg st p 7) 0) st
    else if tioCfg st p 2 = 1 then tioLevel p st.time.clk st.now (st.pin p).raw (st.setPin p { st.pin p with edge := none })
    else st) s

end Sys2Proof.Machine
end

