-- ==== Sys2Proof/Machine/Release.lean ====
section
/-! DEFINITION. Releases (R159 to R163): what leaves on each selvedge port at a release instant, the deadline actions of Table 4.7, and ports that are
still busy (R160). -/

namespace Sys2Proof.Machine
open Sys2Proof

/-! ## One entry on a port (R159, R160) -/

/-- WRITE packets of urgency `u` for consecutive words from address `a`, each inside one 64-byte block (R224, R229, R230). -/
def writePackets (u : Nat) : Nat → Nat → List Word → List Packet
  | 0, _, _ => []
  | _ + 1, _, [] => []
  | f + 1, a, ws =>
    let n := min ws.length (16 - a % 64 / 4)
    { typ := 3, urgency := u, len := (n + 3) / 4, words := (n + 3) % 4, tstamp := BitVec.ofNat 32 a, aux := a / 2 ^ 32, data := ws.take n } ::
      writePackets u f (a + 4 * n) (ws.drop n)

/-- The pairs of an ECAT_PD entry applied to the process data image (R155, Table 4.6). -/
def ecatApply : List Word → State → State
  | a :: v :: r, s =>
    let o := field a.toNat 9 0
    let n := 2 ^ field a.toNat 11 10
    let g := 0x6000 + o / 16
    let sub := o % 16 / 4 + 1
    ecatApply r (s.setObj g sub (withField (s.obj g sub) (8 * (o % 4 + n) - 1) (8 * (o % 4)) (v.toNat % 2 ^ (8 * n))))
  | _, s => s

/-- The journal record of a release (Table 11.8): FABRIC of an entry, SAFE of a safe entry. -/
def releaseRecord (safe : Bool) (e : Entry) (s : State) : JRec :=
  { typ := if safe then 2 else 1, source := e.cls, planeB := e.planeB, t := extendStamp s.t e.stamp, k := s.t, payload := wordBytes e.words }

/-- The port has an earlier frame that has not ended, or entries that wait for one (R160); a serial channel whose DE has risen for a later
release is busy too, and once that release has come its entry goes first (R405). -/
def portBusy (s : State) (port : Nat) : Bool :=
  if port = 33 then !(s.line 33).waiting.isEmpty || (s.line 33).busy
  else match (s.serial (port - 24)).lead with
    | some r => serBusy s (port - 24) || decide (0 < diff r s.now)
    | none => !(s.line port).waiting.isEmpty || serBusy s (port - 24)

/-- A poll has started a read on the SSI channel of a port at this instant, and no release of it has joined the read: one makes one read with it (R409). -/
def pollsNow (s : State) (port : Nat) : Bool :=
  port != 33 && serMode s (port - 24) == 2 && (match (s.serial (port - 24)).reading with | some (c, _, p) => p && c == s.time.clk | none => false) &&
    !(s.serial (port - 24)).shared

/-- CANFD releases are sent (R379): NODE_ID is 0 or NMT is OPERATIONAL, and the controller is not bus-off. -/
def canSends (s : State) : Bool := (s.can.node == 0 || s.obj 0x4600 6 == 5) && s.obj 0x4600 7 != 2

/-- A frame starts on a SER channel or is handed to the CAN FD controller, which sends it or counts it as not sent (R379). -/
def portSend (port : Nat) (e : Entry) (s : State) : State :=
  if port = 33 ∧ !canSends s then s.bump 0x4600 0x0B
  else if port = 33 then
    let s1 : State := { s with can := { s.can with tx := s.can.tx ++ [e.words] } }
    s1.setLine 33 { s1.line 33 with busy := true }
  else serSend (port - 24) e.words s

/-- A released entry of a SER or CAN FD port: it starts, or waits and is counted in 0x3500:07 (R160); the first one of the instant of a poll makes one read
with it (R409), and one that CAN FD cannot send now is counted in 0x4600:0B (R379). -/
def portStart (port : Nat) (s : State) (e : Entry) : State :=
  if port = 33 ∧ !canSends s then s.bump 0x4600 0x0B
  else if pollsNow s port && (s.line port).waiting.isEmpty then s.setSerial (port - 24) { s.serial (port - 24) with shared := true }
  else if portBusy s port then
    let x := s.line port
    (s.setLine port { x with waiting := x.waiting ++ [e] }).bump 0x3500 7
  else portSend port e s

/-- The entry travels in one TOKEN frame with another: released in one instant for the same far stream (R421). -/
def sameFrame (e x : Entry) : Bool := x.release == e.release && wordAt x.words 0 == wordAt e.words 0

/-- A list without the first `n` elements that satisfy a test. -/
def dropSome (p : Entry → Bool) : Nat → List Entry → List Entry
  | _, [] => []
  | 0, es => es
  | n + 1, e :: es => if p e then dropSome p n es else e :: dropSome p (n + 1) es

/-- The TOKEN frame of the first of the entries that wait on a BL port, with those that share it, up to 4 (R421), and the entries left in their order. -/
def linkFrame (e : Entry) (es : List Entry) : LinkFrame × List Entry :=
  let mine := (e :: es).filter (sameFrame e)
  ({ kind := 0, stream := wordAt e.words 0, toks := (mine.take 4).map (fun x => { stamp := x.stamp, words := x.words.drop 1 }) },
   dropSome (sameFrame e) 4 (e :: es))

/-- The next frame of a BL port starts (R160, R421); with no entry left the port is free. -/
def linkStart (l : Nat) (s : State) : State :=
  match (s.line (40 + l)).waiting with
  | [] => s.setLine (40 + l) { busy := false, waiting := [] }
  | e :: es => linkSend l (linkFrame e es).1 (s.setLine (40 + l) { busy := true, waiting := (linkFrame e es).2 })

/-- Entries released on a BL port (R160, R424): the first frame goes at once on a free port, the others wait and are counted in 0x3500:07; a link that
is not UP loses them all. -/
def linkRelease (l : Nat) (es : List Entry) (s : State) : State :=
  if !linkUp s l then s.setObji l 0x4300 0x0B (satAdd 32 (s.obji l 0x4300 0x0B) es.length)
  else
    let x := s.line (40 + l)
    let s1 := s.setLine (40 + l) { x with waiting := x.waiting ++ es }
    if x.busy then s1.addObj 0x3500 7 es.length
    else
      let s2 := linkStart l s1
      s2.addObj 0x3500 7 (s2.line (40 + l)).waiting.length

/-- What all entries released on one port at one instant do (R160); `safe` marks the safe entries among them. -/
def portRelease (port : Nat) (es : List (Bool × Entry)) (s : State) : State :=
  let all := es.map (·.2)
  if all.isEmpty then s
  else if port < 24 then tioRelease port (all.map (fun e => e.words.headD 0#32)) (s.addObj 0x3500 8 (all.length - 1))
  else if port < 32 ∨ port = 33 then all.foldl (portStart port) s
  else if port = 32 then all.foldl (fun st e => ecatApply e.words st) s
  else if port = 34 then
    all.foldl (fun st e => (writePackets 12 16 (wordAt e.words 0) (e.words.drop 1)).foldl (fun st p => st.submit 71 p) st) s
  else if port = 35 then es.foldl (fun st e => emit (.journal (releaseRecord e.1 e.2 st)) st) s
  else if port < 40 then all.foldl (fun st e => bqWrite (port - 32) e.prio e.words st) (s.addObj 0x3500 7 (all.length - 1))
  else if port < 42 then linkRelease (port - 40) all s
  else s

/-! ## Deadline actions (R161 to R163) -/

/-- Key of a class's safe entry on a port in a plane. -/
def safeKey (planeB : Bool) (c port : Nat) : Nat := 4096 * b2n planeB + 64 * c + port

/-- The action of a transaction's class: 0 HOLD, 1 SAFE, 2 SKIP. -/
def actionOf (s : State) (x : Txn) : Nat := (s.cls x.planeB x.cls).action

/-- The entry that a deadline action puts on a port (Table 4.7), with whether it is a safe entry. -/
def actionEntry (s : State) (t port : Nat) (x : Txn) : Option (Bool × Entry) :=
  let e : Entry := { tid := t, cls := x.cls, stamp := x.stamp, release := x.release, planeB := x.planeB, committed := true }
  if port = 42 then none
  else if actionOf s x = 1 then
    (match mget [] s.selvedge.safe (safeKey x.planeB x.cls port) with | [] => none | w :: ws => some (true, { e with words := w :: ws }))
  else if actionOf s x = 0 ∧ 24 ≤ port ∧ port < 32 then
    (match mget [] s.selvedge.lastOut (64 * x.cls + port) with | [] => none | w :: ws => some (false, { e with words := w :: ws }))
  else none

/-- Cause code of a DEADLINE_ACTION sampler record (Table 11.4). -/
def Cause.sampleCode : Cause → Nat
  | .none => 1 | .deadline => 1 | .program _ => 2 | .mismatch => 3 | .device => 3 | .cascade => 4

/-- Code of Table 4.8 in the record. -/
def Cause.programCode : Cause → Nat
  | .program c => c
  | _ => 0

/-- What a deadline action records (R163): alarm, sampler record, counters, and s for a deadline miss. -/
def actionRecord (t : Nat) (x : Txn) (s : State) : State :=
  let prog := match x.cause with | .program _ => true | _ => false
  let dev := match x.cause with | .mismatch => true | .device => true | _ => false
  let s1 := sample 2 (leBytes t 2 ++ leBytes x.cls 1 ++ leBytes x.exec 1 ++ leBytes x.stamp.toNat 4 ++ leBytes x.cause.sampleCode 1 ++
    leBytes x.cause.programCode 1 ++ leBytes 0 2) (raise (if prog then 3 else 2) s)
  let ix := 0x3400 + x.cls
  let s2 := if prog then s1.bump ix 0x0D else (s1.bump ix 0x0E).setObj ix 0x13 x.stamp.toNat
  let s3 := s2.bump 0x3500 9
  traceTxn t 7 0 x (if dev then s3.bump 0x3700 8 else s3)

/-! ## DE ahead of a release (R404) -/

/-- The releases that will put a frame on SER channel ch: of its committed entries, and of the deadline actions of aborted transactions (R161). -/
def leadStamps (s : State) (ch : Nat) : List Stamp :=
  ((s.queue (24 + ch)).filter (·.committed)).map (·.release) ++
    s.selvedge.txns.filterMap (fun d =>
      if d.2.state == .aborted && !d.2.silent && bit (s.cls d.2.planeB d.2.cls).ports (24 + ch) && (actionEntry s d.1 (24 + ch) d.2).isSome then
        some d.2.release else none)

/-- DE_LEAD_START (R404): in half duplex DE rises DE_LEAD before a release of the channel, and the channel is busy from then. -/
def execDeLeadStart (ch : Nat) (s : State) : Host.Outcome State Fault Refusal :=
  let ch := ch % 8
  let x := s.serial ch
  match (leadStamps s ch).find? (fun r => decide (diff r s.now ≤ (serCfg s ch 5 : Int)) && decide (0 < diff r s.now)) with
  | none => done s
  | some r =>
    if (serMode s ch = 1 ∨ serMode s ch = 3) ∧ !serFull s ch ∧ x.lead.isNone ∧ !serBusy s ch then
      done (s.setSerial ch { x with lead := some r, deAt := s.time.clk })
    else done s

/-! ## The release instant -/

/-- The record is released at stamp r. -/
def dueAt (r : Stamp) (x : Txn) : Bool := x.release == r && x.state != .released

/-- The earliest release instant that has come, among records not yet released. -/
def earliestDue (s : State) : Option Stamp :=
  ((s.selvedge.txns.map (·.2)).filter (fun x => x.state != .released && decide (0 ≤ diff s.now x.release))).foldl
    (fun o x => match o with
      | none => some x.release
      | some r => if 0 < diff r x.release then some x.release else some r) none

/-- The committed entries of the due transactions on a port, in queue order, each with its number. -/
def dueEntries (s : State) (due : List (Nat × Txn)) (port : Nat) : List (Nat × Entry) :=
  let mine := (s.queue port).filter (fun e => e.committed && due.any (fun d => d.1 == e.tid && d.2.state == .committed))
  (List.range mine.length).zip mine

/-- What the read of entry number `i` on a port shows: 0 clean, 1 corrected, 2 uncorrectable (R192). -/
def entryRead (bad : List EntryError) (port i : Nat) : Nat := ((bad.find? (fun b => b.port == port && b.index == i)).map (·.ecc)).getD 0

/-- The entries of the due transactions that leave on a port: their committed entries in queue order, one that reads with an uncorrectable error
replaced by its class's action (Table 5.2), then the actions of aborted transactions in TID order. -/
def portEntries (s : State) (due : List (Nat × Txn)) (bad : List EntryError) (port : Nat) : List (Bool × Entry) :=
  let keep := (dueEntries s due port).filterMap (fun e =>
    if entryRead bad port e.1 = 2 then
      (match due.find? (fun d => d.1 == e.2.tid) with | some d => actionEntry s d.1 port d.2 | none => none)
    else some (false, e.2))
  keep ++ due.filterMap (fun d =>
    if d.2.state == .aborted && !d.2.silent && bit (s.cls d.2.planeB d.2.cls).ports port then actionEntry s d.1 port d.2 else none)

/-- The deadline action that replaces an entry of a transaction is traced (R447). -/
def replacedTrace (due : List (Nat × Txn)) (tid : Nat) (s : State) : State :=
  match due.find? (fun d => d.1 == tid) with
  | none => s
  | some d => traceTxn tid 7 0 d.2 s

/-- The memory errors of the entries released on a port: counted; each uncorrectable one latches DEADLINE_MISS and SRAM_UNCORRECTABLE (Tables 5.2, 5.8).
0x3700:08 does not count them (DESIGN CHOICE, log 148). -/
def noteEntries (due : List (Nat × Txn)) (bad : List EntryError) (port : Nat) (s : State) : State :=
  (dueEntries s due port).foldl (fun st e =>
    let k := entryRead bad port e.1
    if k = 2 then replacedTrace due e.2.tid (raise 8 (raise 2 (st.bump 0x3701 2))) else if k = 1 then st.bump 0x3701 1 else st) s

/-- One port at the release instant r: its due entries leave the queue and act; RELEASES counts them; a class's last SER entry is kept for HOLD. -/
def releasePort (r : Stamp) (bad : List EntryError) (due : List (Nat × Txn)) (s : State) (port : Nat) : State :=
  let es := portEntries s due bad port
  let s0 := noteEntries due bad port s
  let s1 := s0.setQueue port ((s.queue port).filter (fun e => !(e.committed && due.any (fun d => d.1 == e.tid))))
  let s2 := if 24 ≤ port ∧ port < 32 then
      (let y := s1.serial (port - 24)
       let s' := if y.lead = some r ∧ es.isEmpty then s1.setSerial (port - 24) { y with lead := none } else s1
       { s' with selvedge := { s'.selvedge with lastOut := es.foldl (fun m e => mset [] m (64 * e.2.cls + port) e.2.words) s'.selvedge.lastOut } })
    else s1
  portRelease port es (s2.addObj 0x3500 6 es.length)

/-- A due record becomes RELEASED; an aborted one that is not silent takes its deadline action, and its log records are freed (R177). -/
def releaseTxn (s : State) (d : Nat × Txn) : State :=
  let s1 := if d.2.state == .aborted && !d.2.silent then actionRecord d.1 d.2 s else s
  let s2 := if d.2.state == .aborted then s1.setMotif d.2.opener (logFreeTid d.1 (s1.motif d.2.opener)) else s1
  inFlight d.2.cls false (txnMove d.1 .released 0 { d.2 with releasedAt := s.t } s2)

/-- RELEASE_INSTANT (R159): every record past its deadline instant is checked first (R143), then everything of the earliest due release instant
leaves on every port; `bad` names the entries that read with an error (R192, Table 5.2). -/
def execReleaseInstant (bad : List EntryError) (s : State) : Host.Outcome State Fault Refusal :=
  let s1 := (s.selvedge.txns.map (·.1)).foldl (fun st t => deadlineAt t st) s
  match earliestDue s1 with
  | none => done s1
  | some r =>
    let due := s1.selvedge.txns.filter (fun e => dueAt r e.2)
    let s2 := (List.range 42).foldl (releasePort r bad due) s1
    let s3 := due.foldl releaseTxn s2
    done (entriesShow (s3.setObj 0x3500 0x10 s3.t))

/-- Entries that waited for the CAN FD controller are handed to it until one is being sent. -/
def canNext : List Entry → State → State
  | [], s => s.setLine 33 { s.line 33 with waiting := [] }
  | e :: rest, s =>
    let s1 := portSend 33 e s
    if (s1.line 33).busy then s1.setLine 33 { s1.line 33 with waiting := rest } else canNext rest s1

/-- PORT_BUSY_RELEASE (R160): the previous frame on a SER, CAN FD or BL port has ended, and the next entry that waits starts. -/
def execPortBusyRelease (port : Nat) (s : State) : Host.Outcome State Fault Refusal :=
  if port = 33 then
    (if (s.line 33).busy then
      let s1 : State := { s with can := { s.can with tx := s.can.tx.drop 1 } }
      done (canNext (s.line 33).waiting ((s1.setLine 33 { s.line 33 with busy := false }).bump 0x4600 9))
    else done s)
  else if 24 ≤ port ∧ port < 32 ∧ !serBusy s (port - 24) ∧ (s.serial (port - 24)).lead.isNone then
    match (s.line port).waiting with
    | [] => done s
    | e :: rest => done (portSend port e (s.setLine port { s.line port with waiting := rest }))
  else if (port = 40 ∨ port = 41) ∧ (s.line port).busy then done (linkStart (port - 40) s)
  else done s

end Sys2Proof.Machine
end

