-- ==== Sys2Proof/Machine/Camera.lean ====
section
/-! DEFINITION. Camera ports (R414 to R419): frames, lines and their windows, the line buffer, frame status, and sensor control by I2C. -/

namespace Sys2Proof.Machine
open Sys2Proof

/-- Camera c. -/
def State.cam (s : State) (c : Nat) : Camera := mget {} s.ports.cams c

/-- The state with camera c replaced. -/
def State.setCam (s : State) (c : Nat) (x : Camera) : State := { s with ports := { s.ports with cams := mset {} s.ports.cams c x } }

/-- A setting of camera c: subindex 02 to 0B of 0x4200. -/
def camCfg (s : State) (c sub : Nat) : Nat := s.obji c 0x4200 sub

/-- A packet of another virtual channel is discarded and counted (R414); a disabled port receives nothing. -/
def camMine (s : State) (c vc : Nat) : Bool := vc == field (camCfg s c 3) 9 8

/-- Bytes per pixel as written (R415). -/
def pixelBytes (dt : Nat) : Nat := if dt = 0x2A then 1 else 2

/-- The bytes of a line as written (R415). -/
def csiBytes (q : CsiLine) : List Byte :=
  if q.dt = 0x2B then q.pixels.flatMap (fun v => leBytes (v % 1024) 2)
  else if q.dt = 0x2C then q.pixels.flatMap (fun v => leBytes (v % 4096) 2)
  else q.pixels.map (BitVec.ofNat 8)

/-- The frame in progress. -/
def Camera.current (x : Camera) : Option CamFrame := x.frames.find? (fun f => !f.ended)

/-- A frame replaced by its `id`. -/
def Camera.setFrame (x : Camera) (f : CamFrame) : Camera :=
  { x with frames := x.frames.map (fun g => if g.id = f.id then f else g) }

/-- A camera token enters the fabric from the camera block. -/
def camToken (index : Nat) (stamp : Stamp) (ws : List Word) (s : State) : State := enterFabric 68 index { stamp := stamp, words := ws } s

/-- The frame token of a frame is sent (R417, R418), and the frame is done. -/
def frameToken (c : Nat) (f : CamFrame) (s : State) : State :=
  let x := s.cam c
  let s1 := s.setCam c { x with frames := x.frames.filter (fun g => g.id != f.id) }
  let s2 := camToken (34 + c) f.sf [BitVec.ofNat 32 (f.number % 65536 + 65536 * f.lines), BitVec.ofNat 32 f.status] s1
  let s3 := if entersFabric s1 (34 + c) { stamp := f.sf } then s2.bumpi c 0x4200 0x0E else s2
  if f.status = 0 then s3 else raise 30 (s3.bumpi c 0x4200 0x0F)

/-- Frames whose end was decoded and whose writes are all acknowledged send their tokens, oldest first. -/
def camFinish (c : Nat) (s : State) : State :=
  let x := s.cam c
  (x.frames.filter (fun f => f.ended && x.lines.all (fun l => l.frame != f.id))).foldl (fun st f => frameToken c f st) s

/-- CSI_FRAME_START (R417, R418): a frame in progress ends without its frame end, and a new frame starts with stamp Sf; `rate` is the lane rate
measured. -/
def execCsiFrameStart (cam vc number rate : Nat) (s : State) : Host.Outcome State Fault Refusal :=
  let c := cam % 2
  if camCfg s c 2 ≠ 1 then done s
  else if !camMine s c vc then done (s.bumpi c 0x4200 0x0F)
  else
    let s1 := match (s.cam c).current with
      | some f => frameToken c { f with status := f.status ||| 32 ||| 8 * b2n (f.lines != field (camCfg s c 4) 29 16) } s
      | none => s
    let x := s1.cam c
    let s2 := s1.setCam c { x with frames := x.frames ++ [{ id := x.nextId, number := number % 65536, sf := s1.now }], nextId := x.nextId + 1, line := none }
    let s3 := (s2.setObji c 0x4200 0x11 s2.now.toNat).setObji c 0x4200 0x12 (rate % 65536)
    done (camToken (32 + c) s3.now [BitVec.ofNat 32 (number % 65536)] s3)

/-- The line token of line i, when LINE_TOKENS asks for one (R417). -/
def lineToken (c i : Nat) (s : State) : State :=
  let n := camCfg s c 6
  if n ≠ 0 ∧ i % n = 0 then camToken (32 + c) s.now [BitVec.ofNat 32 (i % 16384 + 2 ^ 30)] s else s

/-- CSI_LINE_START (R417). -/
def execCsiLineStart (cam vc : Nat) (s : State) : Host.Outcome State Fault Refusal :=
  let c := cam % 2
  if camCfg s c 2 ≠ 1 then done s
  else if !camMine s c vc then done (s.bumpi c 0x4200 0x0F)
  else match (s.cam c).current with
    | none => done s
    | some f => done (lineToken c f.lines (s.setCam c { s.cam c with line := some s.now }))

/-- Where line i goes: the first window with FIRST ≤ i < FIRST + LINES (R415). -/
def lineAddress (s : State) (c i : Nat) : Option Nat :=
  match [7, 8, 9, 10].find? (fun w => decide (field (camCfg s c w) 49 36 ≤ i) && decide (i < field (camCfg s c w) 49 36 + field (camCfg s c w) 63 50)) with
  | none => none
  | some w => some (camCfg s c w % 2 ^ 36 + (i - field (camCfg s c w) 49 36) * camCfg s c 5)

/-- Tag of WRITE packet `seq` of camera c. -/
def camTag (c seq : Nat) : Nat := 2 ^ 19 + 2 ^ 16 * c + seq % 2 ^ 16

/-- The words of a line; the bytes that fill its last word are not stated and are free (log entry 6). -/
def lineWords (s : State) (bs : List Byte) : List Word :=
  leWords ((bs ++ leBytes (Config.freeWord s.free).toNat 3).take ((bs.length + 3) / 4 * 4))

/-- A line written to its address: one line of the buffer, its packets from initiator 68 (R415, R416). -/
def lineWrite (c fid a : Nat) (bs : List Byte) (s : State) : State :=
  let ps := writePackets 2 (bs.length + 1) a (lineWords s bs)
  let x := s.cam c
  let tags := (List.range ps.length).map (fun k => camTag c (x.seq + k))
  let s1 : State := { s with free := s.free + 1 }
  let s2 := s1.setCam c { x with lines := x.lines ++ [{ frame := fid, bytes := bs.length, tags := tags }], seq := x.seq + ps.length }
  (ps.zip tags).foldl (fun st e => st.submit 68 { e.1 with timer := e.2 }) s2

/-- CSI_LONG_PACKET (R415, R416, R418): the long packet of a line. -/
def execCsiLongPacket (cam : Nat) (q : CsiLine) (s : State) : Host.Outcome State Fault Refusal :=
  let c := cam % 2
  if camCfg s c 2 ≠ 1 then done s
  else match (s.cam c).current with
  | none => done (if q.headerError ∨ (camMine s c q.vc ∧ q.dt = field (camCfg s c 3) 21 16) then s else s.bumpi c 0x4200 0x0F)
  | some f =>
    if q.headerError then done (s.setCam c ((s.cam c).setFrame { f with status := f.status ||| 4 }))
    else if !camMine s c q.vc ∨ q.dt ≠ field (camCfg s c 3) 21 16 then done (s.bumpi c 0x4200 0x0F)
    else
      let s1 := if (s.cam c).line.isNone then lineToken c f.lines s else s
      let bs := csiBytes q
      let x := s1.cam c
      let full := 16384 < (x.lines.map (·.bytes)).foldl (· + ·) 0 + bs.length
      let target := if bs.isEmpty then none else lineAddress s c f.lines
      let lost := full && target.isSome
      let st := f.status ||| b2n lost ||| 2 * b2n q.crcError ||| 64 * b2n (bs.length != camCfg s c 4 % 2 ^ 14 * pixelBytes q.dt)
      let s2 := s1.setCam c ({ x with line := none }.setFrame { f with lines := f.lines + 1, status := st })
      if lost then done (s2.bumpi c 0x4200 0x10)
      else match target with
        | none => done s2
        | some a => done (lineWrite c f.id a bs s2)

/-- CSI_FRAME_END (R418): the frame ends; its token waits for the acknowledgements of its writes. -/
def execCsiFrameEnd (cam vc : Nat) (s : State) : Host.Outcome State Fault Refusal :=
  let c := cam % 2
  if camCfg s c 2 ≠ 1 then done s
  else if !camMine s c vc then done (s.bumpi c 0x4200 0x0F)
  else match (s.cam c).current with
    | none => done s
    | some f =>
      let st := f.status ||| 8 * b2n (f.lines != field (camCfg s c 4) 29 16)
      done (camFinish c (s.setCam c ((s.cam c).setFrame { f with status := st, ended := true })))

/-- A WRITE_ACK of a camera's packet: its line loses the tag, a status other than OK is noted in the frame (R418 bit 4), a line without
unacknowledged packets leaves the line buffer, and a frame that waited for it is finished. -/
def camAck (c tag status : Nat) (s : State) : State :=
  let x := s.cam c
  let hit := (x.lines.filter (fun l => l.tags.contains tag)).map (·.frame)
  let frames := x.frames.map (fun f => if hit.contains f.id ∧ status ≠ 0 then { f with status := f.status ||| 16 } else f)
  let lines := (x.lines.map (fun l => { l with tags := l.tags.erase tag })).filter (fun l => !l.tags.isEmpty)
  camFinish c (s.setCam c { x with frames := frames, lines := lines })

/-! ## Sensor control (R419) -/

/-- Abort code of a write of I2C_XFER; 0 when it starts a transfer. -/
def i2cCheck (s : State) (c : Nat) (bs : List Nat) : Nat :=
  let n := bs.getD 1 0
  if (s.cam c).i2c.isSome then abortState
  else if 35 < bs.length then abortLong
  else if bs.length < 3 then abortShort
  else if 127 < bs.getD 0 0 ∨ 32 < n ∨ 32 < bs.getD 2 0 ∨ bs.length ≠ 3 + n then abortValue
  else 0

/-- The transfer that a write of I2C_XFER starts: 7-bit address, the bytes to be written, the count to be read, at I2C_RATE. -/
def i2cTransfer (s : State) (c path : Nat) (bs : List Nat) : I2c :=
  { path := path, addr := bs.getD 0 0, tx := bs.drop 3, reads := bs.getD 2 0, rate := camCfg s c 0x0B, since := s.time.clk }

/-- The effect of a write of I2C_XFER for the selected camera: refused, or a transfer starts that is answered when it has ended. -/
def startI2c (path : Nat) (bs : List Nat) (s : State) : Sum Nat State :=
  let c := s.obj 0x4200 1
  if i2cCheck s c bs ≠ 0 then .inl (i2cCheck s c bs)
  else .inr (s.setCam c { s.cam c with i2c := some (i2cTransfer s c path bs) })

/-- The transfer of camera c ends with result `code` (0 OK, 1 address NACK, 2 data NACK, 3 bus held) and the bytes read; the SDO is answered. One that has
not ended after 10 ms ends with the bus held and nothing read (DEDUCED, log entry 158). -/
def i2cDone (c code : Nat) (bytes : List Nat) (s : State) : State :=
  let x := s.cam c
  match x.i2c with
  | none => s
  | some q =>
    let late := decide (q.since + 10000000 < s.time.clk)
    let bs := if late then [] else (bytes.take q.reads).map (BitVec.ofNat 8)
    let res := if late then 3 else code % 4
    answered q.path (.ok (s.setCam c { x with i2c := none, result := BitVec.ofNat 8 res :: BitVec.ofNat 8 bs.length :: bs }))

end Sys2Proof.Machine
end

