-- ==== Sys2Proof/Machine/Fiz.lean ====
section
/-! DEFINITION. Fizhaig cores (R294 to R301, R323 to R331): registers and STATUS, the memory map, loads and stores, requests into the network,
exceptions, the last-resort path, halts, starts. A command of this family is the instruction its core issues: its fields are the
instruction's, and it takes effect only while the core runs and its current bank does not wait. -/

namespace Sys2Proof.Machine
open Sys2Proof

/-! ## Registers (R299, Table 8.3) -/

/-- General register i; g0 reads as 0. -/
def FBank.g (b : FBank) (i : Nat) : Word := if i % 32 = 0 then 0#32 else mget 0#32 b.regs (i % 32)

/-- General register i written; a write of g0 is discarded. -/
def FBank.setG (b : FBank) (i : Nat) (w : Word) : FBank :=
  if i % 32 = 0 then b else { b with regs := mset 0#32 b.regs (i % 32) w }

/-- The core with bank k replaced. -/
def Core.setBank (x : Core) (k : Nat) (b : FBank) : Core := { x with banks := mset {} x.banks k b }

/-- The current bank. -/
def Core.here (x : Core) : FBank := x.bank x.cur

/-- The core with its current bank replaced. -/
def Core.setHere (x : Core) (b : FBank) : Core := x.setBank x.cur b

/-- Banks of a core, the recovery bank not counted. -/
def bankCount (c : Nat) : Nat := if isMp c then 16 else 8

/-- STATUS of a bank (Table 8.3). -/
def FBank.status (k : Nat) (b : FBank) : Word :=
  BitVec.ofNat 32 (b2n b.sys + 2 * b2n b.ie + 4 * (b.level % 16) + 64 * (k % 16) + 1024 * (b.prev % 16) + 2 ^ 14 * b2n b.planeB +
    2 ^ 15 * (b.dirty % 16) + 2 ^ 19 * b2n b.impPend)

/-- STATUS restored under R309: FPDIRTY, and SYS and IE when the executing context is in SYSTEM mode. -/
def FBank.restoreStatus (execSys : Bool) (w : Word) (b : FBank) : FBank :=
  let n := w.toNat
  let b1 : FBank := { b with dirty := field n 18 15 }
  if execSys then { b1 with sys := bit n 0, ie := bit n 1 } else b1

/-- A 16-bit immediate, sign-extended (R332). -/
def simm (imm : Nat) : Word := BitVec.ofInt 32 (fromTwos 16 imm)

/-- A displacement of `w` bits counted in words (R332). -/
def wordDisp (w d : Nat) : Word := BitVec.ofInt 32 (4 * fromTwos w d)

/-! ## The memory map (R296, R297, R301) -/

/-- What an address of a core names (Table 8.2). -/
inductive FPlace where
  | instr (o : Nat)
  | data (o : Nat)
  | priv (o : Nat)
  | rom (o : Nat)
  | scratch (a : Nat)
  | noc (a : Nat)
  | unmapped
  deriving DecidableEq, Repr

/-- The place of an address (Table 8.2); the NoC window reaches NOCBASE × 2³¹ + a[30:0] (R298). -/
def fzPlace (c : Nat) (x : Core) (a : Nat) : FPlace :=
  if 0x80000000 ≤ a then .noc (2 ^ 31 * (x.nocbase % 32) + a % 2 ^ 31)
  else if privBase ≤ a ∧ a < privBase + privSize c then .priv (a - privBase)
  else if romBase ≤ a ∧ a < romBase + romSize c then .rom (a - romBase)
  else if isMp c then (if a < 0x100000 then .data a else .unmapped)
  else if a < 2 * imemHalf c then .instr a
  else if 0x10000 ≤ a ∧ a < 0x10000 + 2 * dmemHalf c then .data (a - 0x10000)
  else if isShuttle c ∧ 0x01000000 ≤ a ∧ a < 0x01040000 then .scratch (a - 0x01000000)
  else .unmapped

/-- The address lies in the save region [SAVBASE, SAVLIM). -/
def inSaveRegion (x : Core) (a : Nat) : Bool := decide (x.savbase ≤ a) && decide (a < x.savlim)

/-- A bank may load from (or store to) an address (Table 8.2, R297, R301). -/
def fzAllowed (c : Nat) (x : Core) (b : FBank) (write : Bool) (a : Nat) : Bool :=
  (b.sys || !inSaveRegion x a) && (match fzPlace c x a with
    | .instr o => !write && b.sys && o / imemHalf c == b2n b.planeB
    | .data o => isMp c || o / dmemHalf c == b2n b.planeB
    | .priv _ => b.sys
    | .rom _ => !write
    | .scratch _ => true
    | .noc _ => true
    | .unmapped => false)

/-- The address can be fetched from by a bank (R296, R297). -/
def fzFetchable (c : Nat) (x : Core) (b : FBank) : Bool :=
  match fzPlace c x b.pc.toNat with
  | .instr o => o / imemHalf c == b2n b.planeB
  | .data _ => isMp c
  | .rom _ => true
  | _ => false

/-- The place is a RAM of the core itself. -/
def FPlace.isLocal : FPlace → Bool
  | .data _ => true
  | .priv _ => true
  | _ => false

/-- `n` bytes at a place of a core's own memories. -/
def fzPeek (c : Nat) (x : Core) (a n : Nat) : Nat :=
  match fzPlace c x a with
  | .instr o => leNat (memRead x.imem o n)
  | .data o => leNat (memRead x.dmem o n)
  | .priv o => leNat (memRead x.priv o n)
  | .rom o => leNat ((List.range n).map (fun i => Config.rom (65536 * c + o + i)))
  | _ => 0

/-- `n` bytes stored at a place of a core's own memories. -/
def fzPoke (c a n v : Nat) (x : Core) : Core :=
  match fzPlace c x a with
  | .data o => { x with dmem := memWrite x.dmem o (leBytes v n) }
  | .priv o => { x with priv := memWrite x.priv o (leBytes v n) }
  | _ => x

/-- A word of a core's own memories. -/
def fzWord (c : Nat) (x : Core) (a : Nat) : Word := BitVec.ofNat 32 (fzPeek c x a 4)

/-- Words stored from an address on. -/
def fzPokes (c a : Nat) : List Word → Core → Core
  | [], x => x
  | w :: ws, x => fzPokes c (a + 4) ws (fzPoke c a 4 w.toNat x)

/-! ## Outcome of an instruction -/

/-- An instruction completes, raises an exception (code, fault address, inside an overflow sequence or FP swap), or waits without effect. -/
inductive FzRes where
  | ok (s : State)
  | trap (code addr : Nat) (inSeq : Bool) (s : State)
  | stall (s : State)
  deriving DecidableEq, Repr

/-- The next step of an instruction, unless it raised an exception or waits. -/
def FzRes.andThen (r : FzRes) (f : State → FzRes) : FzRes :=
  match r with
  | .ok s => f s
  | .trap c a q s => .trap c a q s
  | .stall s => .stall s

/-- The current bank's pc moves to the next instruction. -/
def fzAdvance (c : Nat) (s : State) : State :=
  let x := s.core c
  let b := x.here
  s.setCore c (x.setHere { b with pc := b.pc + 4#32 })

/-- The current bank's register rd written, and its pc advanced. -/
def fzSetReg (c rd : Nat) (w : Word) (s : State) : State :=
  let x := s.core c
  let b := x.here.setG rd w
  s.setCore c (x.setHere { b with pc := b.pc + 4#32 })

/-- An ECC error in a core's own RAM (R192, R205, Table 5.8). -/
def fzEcc (ecc : Nat) (s : State) : State :=
  if ecc = 1 then s.bump 0x3701 1 else if ecc = 2 then raise 8 (s.bump 0x3701 2) else s

/-! ## Counters and objects of a core (R338) -/

/-- A counter of the core's object advanced: subindex on the MP, on a supervisor, on a shuttle. -/
def fzBump (c mp sup sh : Nat) (s : State) : State :=
  if isMp c then s.bump 0x3030 mp else if isShuttle c then s.bumpi c 0x3038 sh else s.bump (0x3031 + (c - 64)) sup

/-- LAST_CAUSE of the core. -/
def fzLastCause (c v : Nat) (s : State) : State :=
  if isMp c then s.setObj 0x3030 9 v else if isShuttle c then s.setObji c 0x3038 8 v else s.setObj (0x3031 + (c - 64)) 6 v

/-- STATE of the core as its object shows it (a supervisor's NO_PROGRAM is 2). -/
def fzShowState (c v : Nat) (s : State) : State :=
  if isMp c then s else if isShuttle c then s.setObji c 0x3038 3 v else s.setObj (0x3031 + (c - 64)) 1 (if v = 3 then 2 else v)

/-! ## Halts (R327 to R329) -/

/-- What an MP restart does to the flash manager (R483): a running erase becomes one whose entry stays unfinished, other jobs are dropped; a save and a
recipe write under way are lost; the exported trace block in MP memory goes back to the ring. -/
def mpDropJobs (s : State) : State :=
  let f := s.flash
  let keep := f.running && (f.jobs.head?.map (·.erase)).getD false
  let f1 : Flash := { f with jobs := if keep then f.jobs.take 1 else [], running := keep, orphan := keep }
  let s1 : State := { s with flash := f1, trace := { s.trace with ready := none } }
  let s2 := if f.jobs.any (fun j => j.purpose == 3) ∧ s.obj 0x2011 3 = 1 then s1.setObj 0x2011 3 3 else s1
  if s2.load.active ∧ s2.load.kind = 3 ∧ s2.load.whole then ({ s2 with load := { s2.load with active := false, buf := [], whole := false } } : State).setObj 0x3601 1 0 else s2

/-- The MP stops for a restart (R329): counted and shown; it issues nothing until its firmware runs again. -/
def mpStop (s : State) : State :=
  let s1 := ((s.setObj 0x3030 1 1).bump 0x3030 2).setObj 0x3030 3 s.t
  mpDropJobs (s1.setCore 68 { s1.core 68 with started := false })

/-- The MP alone restarts (R329; reason 0 watchdog, 1 halt), latched and recorded (Table 11.4). -/
def mpRestart (reason : Nat) (s : State) : State :=
  let s1 := mpStop s
  sample 8 (leBytes reason 4 ++ leBytes (s1.obj 0x3030 9) 4) (raise 23 s1)

/-- A core halts (R327): it keeps its memories, and the level above is notified. A halted shuttle's replay decisions leave no request (R328). -/
def fzHalt (c : Nat) (s : State) : State :=
  if isMp c then mpRestart 1 s
  else
    let s1 := fzShowState c 1 (s.setCore c { s.core c with state := 1 })
    if isShuttle c then
      let x := s1.motif c
      let s2 := (s1.setMotif c { x with decided := [], serving := [] }).setObjBit 0x3038 1 c true
      setCond 21 true (s2.interrupt (64 + hoopOf c) 0)
    else setCond 22 true ((s1.bump (0x3031 + (c - 64)) 4).interrupt 68 2)

/-! ## Exceptions (R323 to R326) -/

/-- VBASE of a plane half; the MP uses VBASE_A only. -/
def fzVbase (c : Nat) (x : Core) (planeB : Bool) : Nat := if planeB && !isMp c then x.vbaseB else x.vbaseA

/-- A word of the motif's scratchpad can be written: it is not known to be uncorrectable, or its mirror serves it (R108, R195). -/
def spWritable (s : State) (m a : Nat) : Bool := (spAccess m a 0 s).1.isSome

/-- Reason a push of the exception frame at `sp` is refused (R325), or 0. -/
def pushRefusal (c : Nat) (s : State) (x : Core) (planeB : Bool) (sp : Word) : Nat :=
  let a := (sp - 16#32).toNat
  if sp.toNat % 16 ≠ 0 then 1
  else if a < x.splo ∨ x.sphi ≤ a then 2
  else if !fzAllowed c x { sys := true, planeB := planeB } true a then 3
  else match fzPlace c x a with
    | .scratch o => if spOn s c (spBank o) && [o, o + 8].all (spWritable s c) then 0 else 3
    | .noc _ => 3
    | _ => 0

/-- The request of a shuttle for a bank of its motif's scratchpad (class 5 of Table 3.7). -/
def shuttleAsk (s : State) (c b : Nat) : BankAsk := { cls := 5, pos := b, waited := askWaited (s.motif c) 5 b }

/-- The sp under which the current bank's exception is pushed (R324). -/
def entrySp (x : Core) : Word := if x.cur = 0 then x.here.g 30 else BitVec.ofNat 32 x.sphi

/-- The push of an exception frame waits for its bank of the motif's scratchpad (R109): the state after the lost cycle. -/
def trapHeld (c : Nat) (s : State) : Option State :=
  let x := s.core c
  let sp := entrySp x
  match fzPlace c x (sp - 16#32).toNat with
  | .scratch o =>
    let q := shuttleAsk s c (spBank o)
    if x.double || pushRefusal c s x x.here.planeB sp != 0 || bankTurn s c (spBank o) q then none else some (loseTurn c q s)
  | _ => none

/-- The four words of an exception frame written to a core's own memory or to the motif's scratchpad. -/
def fzPush (c a : Nat) (ws : List Word) (s : State) : State :=
  match fzPlace c (s.core c) a with
  | .scratch o => (((List.range 4).zip ws).foldl (fun st e => spStore c (o + 4 * e.1) e.2 0 st) (takeTurn c (shuttleAsk s c (spBank o)) s))
  | _ => s.setCore c (fzPokes c a ws (s.core c))

/-- The last-resort path (R326, Table 8.11): the frame at the start of private RAM, DOUBLE set, the recovery bank entered at RVEC. -/
def lastResort (c : Nat) (planeB : Bool) (frame : List Word) (sp : Word) (reason : Nat) (s : State) : State :=
  let s1 := fzBump c 5 3 5 s
  let x := s1.core c
  let n := satAdd 32 x.lastResorts 1
  let ws := frame ++ [sp, BitVec.ofNat 32 reason, s.now, BitVec.ofNat 32 n] ++ List.replicate 8 0#32
  let x1 := fzPokes c privBase ws x
  let r : FBank := { x1.bank 16 with pc := BitVec.ofNat 32 x1.rvec, sys := true, ie := false, planeB := planeB, wait := .none }
  let x2 := x1.setBank 16 r
  s1.setCore c { x2 with double := true, lastResorts := n, cur := 16 }

/-- An exception is taken (R323, R324): counted, and, unless DOUBLE is set, bank 0 is entered with the four words pushed. -/
def fzTrap (c code addr : Nat) (pc : Word) (imprecise inSeq : Bool) (s : State) : State :=
  let x := s.core c
  let k := x.cur
  let b := x.here
  let cause := code + 2 ^ 8 * (k % 16) + 2 ^ 12 * b2n b.sys + 2 ^ 13 * b2n imprecise + 2 ^ 14 * b2n inSeq
  let s1 := fzLastCause c cause (fzBump c 4 2 4 (s.setCore c { x with exccount := satAdd 32 x.exccount 1 }))
  if x.double then fzHalt c s1
  else
    let sp := entrySp x
    let frame := [pc, b.status k, BitVec.ofNat 32 cause, BitVec.ofNat 32 addr]
    let x1 := (s1.core c).setHere { b with wait := .none }
    let b0 := (x1.bank 0).setG 30 sp
    let s2 := s1.setCore c (x1.setBank 0 b0)
    let reason := pushRefusal c s2 (s2.core c) b.planeB sp
    if reason = 0 then
      let s3 := fzPush c (sp - 16#32).toNat frame s2
      let x3 := s3.core c
      let e : FBank := { b0.setG 30 (sp - 16#32) with
        pc := BitVec.ofNat 32 (fzVbase c x3 b.planeB + 16 * code), sys := true, ie := false, planeB := b.planeB, wait := .none }
      s3.setCore c { x3.setBank 0 e with cur := 0 }
    else lastResort c b.planeB frame sp reason s2

/-- The pc an exception saves: the next instruction for SYS, the instruction otherwise (Table 8.10). -/
def trapPc (code : Nat) (b : FBank) : Word := if code = 0x0B then b.pc + 4#32 else b.pc

/-! ## Issue, halves and instruction boundaries (R298, R331) -/

/-- A bank waits. -/
def FBank.waits (b : FBank) : Bool := b.wait != .none

/-- The half that issues changes while both halves run (R331); bank 1 and the recovery bank keep the core. -/
def swapHalf (x : Core) : Core :=
  match x.other with
  | some o => if x.cur = 1 ∨ x.cur = 16 ∨ (x.bank o).waits then x else { x with cur := o, other := some x.cur }
  | none => x

/-- An exception that is due is taken, unless its push waits for the scratchpad (R109): then nothing else of it has happened. -/
def orHeld (c : Nat) (s taken : State) : State := (trapHeld c s).getD taken

/-- A boundary of the current bank: a load that was refused raises its BUS_ERROR there, a refused store at the next one (R298). -/
def fzBoundary (c : Nat) (s : State) : State :=
  let x := s.core c
  let b := x.here
  if x.state ≠ 0 ∨ !x.started ∨ b.waits then s
  else match b.busErr with
    | some a => orHeld c s (fzTrap c 5 a b.pc false false (s.setCore c (x.setHere { b with busErr := none })))
    | none =>
      if b.impPend then orHeld c s (fzTrap c 5 b.impAddr.toNat b.pc true false (s.setCore c (x.setHere { b with impPend := false }))) else s

/-- The current bank has an error of a load or store to raise before its next instruction. -/
def boundaryDue (x : Core) : Bool := x.started && x.state == 0 && (x.here.busErr.isSome || x.here.impPend)

/-- What follows a change of banks or the end of a wait: a waiting half gives way, and the boundary is seen to. -/
def fzSettle (c : Nat) (s : State) : State :=
  let x := s.core c
  fzBoundary c (if x.here.waits then s.setCore c (swapHalf x) else s)

/-- The replay service runs on a shuttle: its bank 1 is current (Table 8.4), and the shuttle is not halted (R328). -/
def inService (c : Nat) (x : Core) : Bool := isShuttle c && x.cur == 1 && x.state != 1

/-- The core issues: it is started and RUNNING, or serves replays, and its current bank does not wait. -/
def fzIssues (s : State) (c : Nat) : Bool :=
  let x := s.core c
  decide (c < 69) && ((x.started && x.state == 0) || inService c x) && !x.here.waits

/-- An instruction of core c: nothing while the core does not issue, ACCESS where its pc cannot be fetched from, else its effect. -/
def fzDo (c : Nat) (s : State) (f : State → FzRes) : Host.Outcome State Fault Refusal :=
  if fzIssues s c then
    let x := s.core c
    if boundaryDue x then done (fzBoundary c s)
    else if !fzFetchable c x x.here then done (orHeld c s (fzTrap c 4 x.here.pc.toNat x.here.pc false false s))
    else match f s with
      | .ok s1 => done (fzSettle c (s1.setCore c (swapHalf (s1.core c))))
      | .trap code a q s1 => done (orHeld c s (fzTrap c code a (trapPc code (s1.core c).here) false q s1))
      | .stall s1 => done s1
  else done s

/-- An instruction that writes rd with a value of the current bank's registers. -/
def fzAlu (c rd : Nat) (v : FBank → Word) (s : State) : Host.Outcome State Fault Refusal :=
  fzDo c s (fun s => .ok (fzSetReg c rd (v (s.core c).here) s))

/-- A SYSTEM-only instruction in TASK mode raises PRIVILEGED (Table 8.10). -/
def fzSystem (c : Nat) (s : State) (f : State → FzRes) : FzRes :=
  if (s.core c).here.sys then f s else .trap 2 0 false s

/-! ## Requests into the network (R298) -/

/-- Initiator of a core (Table 6.1). -/
def fzInitiator (c : Nat) : Nat :=
  if isShuttle c then c else if isMp c then 64 else let (x, y) := sliceRouter (c - 64) 0; 8 * y + x

/-- A further request finds a place: shuttles and supervisors hold at most 4 (R298). -/
def fzRoom (c : Nat) (x : Core) : Bool := isMp c || decide (x.held < 4)

/-- The tag of a core's next request. -/
def fzTag (c : Nat) (x : Core) : Nat := 2 ^ 20 + 1024 * c + x.seq % 1024

/-- A request submitted with the core's tag and urgency: 6 for a READ or WRITE of the MP (Table 6.6), else what its program set. -/
def fzSend (c : Nat) (p : Packet) (s : State) : State :=
  let x := s.core c
  let s1 := s.submit (fzInitiator c) { p with urgency := if isMp c && p.typ != 4 then 6 else x.nocurg % 16, timer := fzTag c x }
  s1.setCore c { x with seq := x.seq + 1, held := x.held + 1 }

/-- A one-flit READ of the 16 bytes that hold an address. -/
def readPacket (a : Nat) : Packet := { typ := 2, tstamp := BitVec.ofNat 32 (a / 16 * 16), aux := a / 2 ^ 32 }

/-- A one-word WRITE. -/
def writePacket (a : Nat) (w : Word) : Packet := { typ := 3, len := 1, tstamp := BitVec.ofNat 32 a, aux := a / 2 ^ 32, data := [w] }

/-! ## Loads and stores (R296 to R298, R333) -/

/-- A loaded value as its register takes it: kind 0 LW, 1 LH, 2 LHU, 3 LB, 4 LBU, 5 FLW. -/
def loadValue (kind v : Nat) : Word :=
  if kind = 1 then BitVec.ofInt 32 (fromTwos 16 v)
  else if kind = 2 then BitVec.ofNat 32 (v % 65536)
  else if kind = 3 then BitVec.ofInt 32 (fromTwos 8 v)
  else if kind = 4 then BitVec.ofNat 32 (v % 256)
  else BitVec.ofNat 32 v

/-- Bytes a load of a kind reads. -/
def loadSize (kind : Nat) : Nat := if kind = 1 ∨ kind = 2 then 2 else if kind = 3 ∨ kind = 4 then 1 else 4

/-- A loaded value lands: f register with its FPDIRTY bit (R312) for kind 5, else a general register of bank k; the pc advances. -/
def fzLand (c k kind rd : Nat) (w : Word) (s : State) : State :=
  let x := s.core c
  let b := x.bank k
  if kind = 5 then
    { s with cores := mset (Core.atReset c) s.cores c { x.setBank k { b with pc := b.pc + 4#32, wait := .none, dirty := b.dirty ||| 2 ^ (rd % 32 / 8) } with
        fregs := mset 0#32 x.fregs (rd % 32) w } }
  else s.setCore c (x.setBank k { b.setG rd w with pc := b.pc + 4#32, wait := .none })

/-- Bytes of a word of the scratchpad at a byte address. -/
def wordPart (w : Word) (a n : Nat) : Nat := w.toNat / 2 ^ (8 * (a % 4)) % 2 ^ (8 * n)

/-- A word with `n` bytes at a byte address replaced. -/
def wordWith (w : Word) (a n v : Nat) : Word := BitVec.ofNat 32 (withField w.toNat (8 * (a % 4 + n) - 1) (8 * (a % 4)) v)

/-- `n` bytes read from local memory or the scratchpad with an ECC outcome: `none` when uncorrectable. A bank that is not ON gives an open value. -/
def fzRead (c a n ecc : Nat) (s : State) : Option Nat × State :=
  match fzPlace c (s.core c) a with
  | .scratch o =>
    if !spOn s c (spBank o) then
      let (f, s1) := s.fresh
      (some (wordPart (Config.freeWord f) o n), s1)
    else match spRead c (o / 4 * 4) ecc s with
      | (some w, s1) => (some (wordPart w o n), s1)
      | (none, s1) => (none, raise 8 s1)
  | .rom _ => (some (fzPeek c (s.core c) a n), s)
  | _ => if ecc = 2 then (none, fzEcc 2 s) else (some (fzPeek c (s.core c) a n), fzEcc ecc s)

/-- `n` bytes written to local memory or the scratchpad: `false` when a read-modify-write of the scratchpad met an uncorrectable word (R108). -/
def fzWrite (c a n v ecc : Nat) (s : State) : Bool × State :=
  match fzPlace c (s.core c) a with
  | .scratch o =>
    if !spOn s c (spBank o) then (true, s)
    else spModify c (o / 4 * 4) (fun w => wordWith w o n v) ecc s
  | _ => (true, s.setCore c (fzPoke c a n v (s.core c)))

/-- An access of a shuttle to its motif's scratchpad takes part in the bank's arbitration (class 5 of Table 3.7) and waits when it loses; any other
local access is made at once. -/
def fzAtBank (c a : Nat) (f : State → FzRes) (s : State) : FzRes :=
  match fzPlace c (s.core c) a with
  | .scratch o =>
    let q := shuttleAsk s c (spBank o)
    if !spOn s c (spBank o) then f s
    else if bankTurn s c (spBank o) q then f (takeTurn c q s) else .stall (loseTurn c q s)
  | _ => f s

/-- A load of a kind at an address of the current bank. -/
def fzLoad (c kind rd : Nat) (a : Word) (ecc : Nat) (s : State) : FzRes :=
  let x := s.core c
  let n := loadSize kind
  let ad := a.toNat
  if ad % n ≠ 0 then .trap 3 ad false s
  else if !fzAllowed c x x.here false ad then .trap 4 ad false s
  else match fzPlace c x ad with
    | .noc na =>
      if !fzRoom c x then .stall s
      else
        let s1 := fzSend c (readPacket na) s
        let x1 := s1.core c
        .ok (s1.setCore c (x1.setHere { x1.here with wait := .load kind rd ad (fzTag c x) }))
    | .rom _ =>
      match fzRead c ad n ecc s with
      | (some v, s1) => .ok (if ecc = 2 then fzHalt c s1 else fzLand c x.cur kind rd (loadValue kind v) s1)
      | (none, s1) => .trap 6 ad false s1
    | _ => fzAtBank c ad (fun t =>
      match fzRead c ad n ecc t with
      | (some v, s1) => .ok (fzLand c x.cur kind rd (loadValue kind v) s1)
      | (none, s1) => .trap 6 ad false s1) s

/-- A store of `n` bytes at an address of the current bank. -/
def fzStore (c n : Nat) (a v : Word) (ecc : Nat) (s : State) : FzRes :=
  let x := s.core c
  let ad := a.toNat
  if ad % n ≠ 0 then .trap 3 ad false s
  else if !fzAllowed c x x.here true ad then .trap 4 ad false s
  else match fzPlace c x ad with
    | .noc na =>
      if n ≠ 4 then .trap 4 ad false s
      else if !fzRoom c x then .stall s
      else
        let s1 := fzSend c (writePacket na v) s
        let x1 := s1.core c
        .ok (fzAdvance c (s1.setCore c { x1 with writes := x1.writes ++ [(fzTag c x, ad)] }))
    | _ => fzAtBank c ad (fun t =>
      match fzWrite c ad n (v.toNat % 2 ^ (8 * n)) ecc t with
      | (true, s1) => .ok (fzAdvance c s1)
      | (false, s1) => .trap 6 ad false s1) s

/-! ## Answers (R298) -/

/-- The core a request's tag names. -/
def tagCore (t : Nat) : Nat := (t - 2 ^ 20) / 1024 % 69

/-- The answer to a READ: the waiting load completes, or is refused; an abandoned load's answer is discarded (R319). -/
def fzReadDone (p : Packet) (s : State) : State :=
  let c := tagCore p.timer
  let x0 := s.core c
  let x : Core := { x0 with held := x0.held - 1 }
  let s1 := s.setCore c x
  let hit := x.banks.find? (fun e => match e.2.wait with | .load _ _ _ t => t == p.timer | _ => false)
  match hit with
  | none => s1
  | some (k, b) =>
    match b.wait with
    | .load kind rd a _ =>
      if p.aux % 16 = 0 then
        let w := p.data.getD (a % 16 / 4) 0#32
        fzSettle c (fzLand c k kind rd (loadValue kind (wordPart w a (loadSize kind))) s1)
      else fzSettle c (s1.setCore c (x.setBank k { b with wait := .none, busErr := some a }))
    | _ => s1

/-- A bank that waits in a FENCE goes on once no write is outstanding. -/
def fenceDone (x : Core) : Core :=
  if x.writes.isEmpty then
    { x with banks := x.banks.map (fun e => (e.1, if e.2.wait = .fence then { e.2 with wait := .none, pc := e.2.pc + 4#32 } else e.2)) }
  else x

/-- The bank whose boundary is the core's next one: on a shuttle whose replay service runs, which raises no exception (R322), the one it returns to. -/
def nextBank (c : Nat) (x : Core) : Nat := if isShuttle c ∧ x.cur = 1 then (x.bank 1).prev else x.cur

/-- The answer to a WRITE: a STATUS other than OK is a store error, taken at the core's next instruction boundary (R298). -/
def fzWriteDone (p : Packet) (s : State) : State :=
  let c := tagCore p.timer
  let x0 := s.core c
  match x0.writes.find? (fun w => w.1 == p.timer) with
  | none => s.setCore c { x0 with held := x0.held - 1 }
  | some (_, a) =>
    let k := nextBank c x0
    let x : Core := { x0 with held := x0.held - 1, writes := x0.writes.filter (fun w => w.1 != p.timer) }
    let x1 := if p.aux % 16 = 0 then x else x.setBank k { x.bank k with impPend := true, impAddr := BitVec.ofNat 32 a }
    fzSettle c (s.setCore c (fenceDone x1))

/-- The answer to a PULL: PULLSTAT and PULLBUF (Table 8.14). -/
def fzPullDone (p : Packet) (s : State) : State :=
  let c := tagCore p.timer
  let x := s.core c
  let buf := if p.aux % 16 = 0 then (p.data ++ List.replicate 20 0#32).take 20 else x.pullBuf
  s.setCore c { x with held := x.held - 1, pullDone := true, pullStatus := p.aux % 16, pullBuf := buf }

/-! ## Starts (R328, R330, R331) -/

/-- The entry bank of a shuttle's half. -/
def entryBank (planeB : Bool) : Nat := if planeB then 5 else 2

/-- The entry context of a shuttle's half starts (R330): its entry CCB is marked resident, its stack registers come from the CCB. -/
def startShuttleHalf (c : Nat) (planeB : Bool) (s : State) : State :=
  let x := s.core c
  let ccb := 0x10000 + b2n planeB * dmemHalf c
  let k := entryBank planeB
  let x1 := fzPoke c (ccb + 8) 4 (1 + 2 * k + 32 * b2n planeB) x
  let b : FBank := { ({} : FBank).setG 30 (BitVec.ofNat 32 (ccb + dmemHalf c)) with
    pc := BitVec.ofNat 32 (b2n planeB * imemHalf c), planeB := planeB, ssb := BitVec.ofNat 32 (ccb + 16),
    ssp := fzWord c x1 ccb, ssl := fzWord c x1 (ccb + 12), resident := true, age := x.ageSeq }
  let x2 := { x1.setBank k b with ageSeq := x.ageSeq + 1 }
  s.setCore c (if x.started then { x2 with other := some k } else { x2 with started := true, cur := k })

/-- A supervisor's level 0 context starts in bank 1 with a half (R330). -/
def startSupervisor (c : Nat) (planeB : Bool) (s : State) : State :=
  let x := s.core c
  let b : FBank := { ({} : FBank).setG 30 (BitVec.ofNat 32 (0x10000 + (b2n planeB + 1) * dmemHalf c)) with
    pc := BitVec.ofNat 32 (b2n planeB * imemHalf c), planeB := planeB }
  s.setCore c { x.setBank 1 b with started := true, cur := 1 }

/-- Every bank and the FP state of a core cleared; its memories and image settings stay (R328). -/
def clearCore (x : Core) : Core :=
  { x with started := false, state := 0, cur := 0, other := none, banks := [(16, recoveryBank)], fregs := [], fcsr := 0, fpown := 1,
           double := false, writes := [], txWords := [], rxStarted := false, popped := 0 }

/-- The halves that run: the active plane's, and from T_c to T_r the other's too (R331). -/
def runningHalves (s : State) : List Bool := if s.obj 0x3600 1 = 5 then [s.activeB, !s.activeB] else [s.activeB]

/-- The core has a program in a half. -/
def hasProgram (x : Core) (planeB : Bool) : Bool := if planeB then x.entryB else x.entryA

/-- A core is started with the halves that run and hold a program; without one it shows NO_PROGRAM (R328, R330). -/
def startCore (c : Nat) (s : State) : State :=
  let s1 := s.setCore c (clearCore (s.core c))
  let hs := (runningHalves s).filter (hasProgram (s1.core c))
  if hs.isEmpty then fzShowState c 3 (s1.setCore c { s1.core c with state := 3 })
  else
    let s2 := fzShowState c 0 s1
    if isShuttle c then hs.foldl (fun st h => startShuttleHalf c h st) s2 else startSupervisor c (hs.headD false) s2

/-- A shuttle restarts (R328): its halt ends with it, and with the last halt in its hoop the supervisor's source 0 (R317). -/
def restartShuttle (m : Nat) (s : State) : State :=
  let s1 := startCore m (s.setObjBit 0x3038 1 m false)
  let s2 := if (List.range 64).all (fun k => hoopOf k != hoopOf m || !bit (s1.obj 0x3038 1) k) then s1.uninterrupt (64 + hoopOf m) 0 else s1
  setCond 21 (s2.obj 0x3038 1 != 0) s2

/-- A supervisor restarts (R330): with the last halt the MP's source 2 ends (R317). -/
def restartSupervisor (h : Nat) (s : State) : State :=
  let s1 := startCore (64 + h) s
  let halt := (List.range 4).any (fun j => s1.obj (0x3031 + j) 1 == 1)
  setCond 22 halt (if halt then s1 else s1.uninterrupt 68 2)

end Sys2Proof.Machine
end

