-- ==== Sys2Proof/Machine/Answers.lean ====
section
/-! DEFINITION. Answers at their initiators (R216, R227, R239): what an answer does depends on who asked, which its tag says. Tags from 2²² are
the journal engine's, tags from 2²⁰ Fizhaig cores', tags from 2¹⁹ the camera block's. -/

namespace Sys2Proof.Machine
open Sys2Proof

/-- READ_RESP (R216): a READ_RESP waiting at initiator i is taken. -/
def execReadResp (i : Nat) (s : State) : Host.Outcome State Fault Refusal :=
  match takeAnswer i 8 s with
  | none => done s
  | some (p, s1) => done (if 2 ^ 22 ≤ p.timer then ringData p s1 else if 2 ^ 20 ≤ p.timer then fzReadDone p s1 else s1)

/-- WRITE_ACK (R216): a WRITE_ACK waiting at initiator i is taken. -/
def execWriteAck (i : Nat) (s : State) : Host.Outcome State Fault Refusal :=
  match takeAnswer i 9 s with
  | none => done s
  | some (p, s1) =>
    done (if 2 ^ 22 ≤ p.timer then ringAck p.timer s1 else if 2 ^ 20 ≤ p.timer then fzWriteDone p s1
      else if 2 ^ 19 ≤ p.timer then camAck ((p.timer - 2 ^ 19) / 2 ^ 16) p.timer p.aux s1 else s1)

/-- PULL_RESP (R239): a PULL_RESP waiting at initiator i is taken. -/
def execPullResp (i : Nat) (s : State) : Host.Outcome State Fault Refusal :=
  match takeAnswer i 10 s with
  | none => done s
  | some (p, s1) => done (if 2 ^ 20 ≤ p.timer then fzPullDone p s1 else s1)

end Sys2Proof.Machine
end

