-- ==== Sys2Proof/Machine/Crypto.lean ====
section
/-! DEFINITION. SHA-256 and ECDSA over P-256, which R257, R484, R497 and R505 name. The algorithms and their constants are those of FIPS 180-4
and FIPS 186-4, not the spec's words: PRESUMED, log entry 30. Keys and signature halves are 32-byte strings, most significant byte first
(SEC 1). -/

namespace Sys2Proof.Machine
open Sys2Proof

/-! ## SHA-256 -/

/-- The round constants. -/
def shaK : List Word := [
  0x428A2F98#32, 0x71374491#32, 0xB5C0FBCF#32, 0xE9B5DBA5#32, 0x3956C25B#32, 0x59F111F1#32,
  0x923F82A4#32, 0xAB1C5ED5#32, 0xD807AA98#32, 0x12835B01#32, 0x243185BE#32, 0x550C7DC3#32,
  0x72BE5D74#32, 0x80DEB1FE#32, 0x9BDC06A7#32, 0xC19BF174#32, 0xE49B69C1#32, 0xEFBE4786#32,
  0x0FC19DC6#32, 0x240CA1CC#32, 0x2DE92C6F#32, 0x4A7484AA#32, 0x5CB0A9DC#32, 0x76F988DA#32,
  0x983E5152#32, 0xA831C66D#32, 0xB00327C8#32, 0xBF597FC7#32, 0xC6E00BF3#32, 0xD5A79147#32,
  0x06CA6351#32, 0x14292967#32, 0x27B70A85#32, 0x2E1B2138#32, 0x4D2C6DFC#32, 0x53380D13#32,
  0x650A7354#32, 0x766A0ABB#32, 0x81C2C92E#32, 0x92722C85#32, 0xA2BFE8A1#32, 0xA81A664B#32,
  0xC24B8B70#32, 0xC76C51A3#32, 0xD192E819#32, 0xD6990624#32, 0xF40E3585#32, 0x106AA070#32,
  0x19A4C116#32, 0x1E376C08#32, 0x2748774C#32, 0x34B0BCB5#32, 0x391C0CB3#32, 0x4ED8AA4A#32,
  0x5B9CCA4F#32, 0x682E6FF3#32, 0x748F82EE#32, 0x78A5636F#32, 0x84C87814#32, 0x8CC70208#32,
  0x90BEFFFA#32, 0xA4506CEB#32, 0xBEF9A3F7#32, 0xC67178F2#32 ]

/-- The initial hash value. -/
def shaInit : List Word := [
  0x6A09E667#32, 0xBB67AE85#32, 0x3C6EF372#32, 0xA54FF53A#32, 0x510E527F#32, 0x9B05688C#32,
  0x1F83D9AB#32, 0x5BE0CD19#32 ]

/-- A word of four bytes, most significant first. -/
def beWord : List Byte → Word
  | a :: b :: c :: d :: _ => BitVec.ofNat 32 (2 ^ 24 * a.toNat + 2 ^ 16 * b.toNat + c.toNat * 2 ^ 8 + d.toNat)
  | _ => 0#32

/-- The words of a block. -/
def beWords : Nat → List Byte → List Word
  | 0, _ => []
  | n + 1, bs => beWord bs :: beWords n (bs.drop 4)

/-- The `n` low bytes of a number, most significant first. -/
def beBytes (v n : Nat) : List Byte := (leBytes v n).reverse

/-- A number from bytes, most significant first. -/
def beNat (bs : List Byte) : Nat := leNat bs.reverse

/-- Words 16 to 63 of the schedule; the list is the last 16 words, newest first, then older ones. -/
def shaExtend : Nat → List Word → List Word
  | 0, w => w
  | n + 1, w =>
    let w2 := w.getD 1 0#32
    let w7 := w.getD 6 0#32
    let w15 := w.getD 14 0#32
    let w16 := w.getD 15 0#32
    let s0 := w15.rotateRight 7 ^^^ w15.rotateRight 18 ^^^ (w15 >>> 3)
    let s1 := w2.rotateRight 17 ^^^ w2.rotateRight 19 ^^^ (w2 >>> 10)
    shaExtend n ((w16 + s0 + w7 + s1) :: w)

/-- One round on the eight working words. -/
def shaRound (h : List Word) (kw : Word × Word) : List Word :=
  let g (i : Nat) := h.getD i 0#32
  let s1 := (g 4).rotateRight 6 ^^^ (g 4).rotateRight 11 ^^^ (g 4).rotateRight 25
  let ch := (g 4 &&& g 5) ^^^ (~~~ g 4 &&& g 6)
  let t1 := g 7 + s1 + ch + kw.1 + kw.2
  let s0 := (g 0).rotateRight 2 ^^^ (g 0).rotateRight 13 ^^^ (g 0).rotateRight 22
  let maj := (g 0 &&& g 1) ^^^ (g 0 &&& g 2) ^^^ (g 1 &&& g 2)
  [t1 + s0 + maj, g 0, g 1, g 2, g 3 + t1, g 4, g 5, g 6]

/-- One block of 64 bytes. -/
def shaBlock (h : List Word) (bs : List Byte) : List Word :=
  let w := (shaExtend 48 (beWords 16 bs).reverse).reverse
  List.zipWith (· + ·) h ((shaK.zip w).foldl shaRound h)

/-- The blocks of a padded message. -/
def shaRun : Nat → List Word → List Byte → List Word
  | 0, h, _ => h
  | n + 1, h, bs => shaRun n (shaBlock h (bs.take 64)) (bs.drop 64)

/-- SHA-256 of a byte string. -/
def sha256 (bs : List Byte) : List Byte :=
  let len := bs.length
  let blocks := (len + 8) / 64 + 1
  let msg := bs ++ [0x80#8] ++ List.replicate (64 * blocks - len - 9) 0#8 ++ beBytes (8 * len) 8
  (shaRun blocks shaInit msg).flatMap (fun w => beBytes w.toNat 4)

/-! ## ECDSA over P-256 -/

/-- The field prime. -/
def ecP : Nat := 0xFFFFFFFF00000001000000000000000000000000FFFFFFFFFFFFFFFFFFFFFFFF
/-- The order of the base point. -/
def ecN : Nat := 0xFFFFFFFF00000000FFFFFFFFFFFFFFFFBCE6FAADA7179E84F3B9CAC2FC632551
/-- The curve constant b. -/
def ecB : Nat := 0x5AC635D8AA3A93E7B3EBBD55769886BC651D06B0CC53B0F63BCE3C3E27D2604B
/-- The base point. -/
def ecG : Option (Nat × Nat) :=
  some (0x6B17D1F2E12C4247F8BCE6E563A440F277037D812DEB33A0F4A13945D898C296, 0x4FE342E2FE1A7F9B8EE7EB4A7C0F9E162BCE33576B315ECECBB6406837BF51F5)

/-- b to the power e modulo m, by squaring; `f` bounds the bits of e. -/
def powMod : Nat → Nat → Nat → Nat → Nat
  | 0, _, _, m => 1 % m
  | f + 1, b, e, m =>
    let h := powMod f (b * b % m) (e / 2) m
    if e % 2 = 1 then b * h % m else h

/-- The inverse modulo a prime. -/
def invMod (a m : Nat) : Nat := powMod 256 (a % m) (m - 2) m

/-- a − b modulo m. -/
def subMod (a b m : Nat) : Nat := (a + m - b % m) % m

/-- Sum of two points; `none` is the point at infinity. -/
def ecAdd : Option (Nat × Nat) → Option (Nat × Nat) → Option (Nat × Nat)
  | none, q => q
  | q, none => q
  | some (x1, y1), some (x2, y2) =>
    if x1 = x2 ∧ (y1 + y2) % ecP = 0 then none
    else
      let l := if x1 = x2 then subMod (3 * x1 * x1) 3 ecP * invMod (2 * y1) ecP % ecP else subMod y2 y1 ecP * invMod (subMod x2 x1 ecP) ecP % ecP
      let x3 := subMod (subMod (l * l) x1 ecP) x2 ecP
      some (x3, subMod (l * subMod x1 x3 ecP) y1 ecP)

/-- k times a point; `f` bounds the bits of k. -/
def ecMul : Nat → Nat → Option (Nat × Nat) → Option (Nat × Nat)
  | 0, _, _ => none
  | f + 1, k, q =>
    let h := ecMul f (k / 2) (ecAdd q q)
    if k % 2 = 1 then ecAdd q h else h

/-- The point lies on the curve. -/
def ecOn (x y : Nat) : Bool :=
  decide (x < ecP) && decide (y < ecP) && (y * y + 3 * x) % ecP == (x * x * x + ecB) % ecP

/-- A signature r, s over a digest is valid under a public key of 64 bytes, X then Y. -/
def ecdsaOk (key digest sig : List Byte) : Bool :=
  let x := beNat (key.take 32)
  let y := beNat (key.drop 32)
  let r := beNat (sig.take 32)
  let s := beNat (sig.drop 32)
  let z := beNat digest
  if key.length == 64 && sig.length == 64 && ecOn x y && decide (1 ≤ r) && decide (r < ecN) && decide (1 ≤ s) && decide (s < ecN) then
    let w := invMod s ecN
    match ecAdd (ecMul 256 (z * w % ecN) ecG) (ecMul 256 (r * w % ecN) (some (x, y))) with
    | none => false
    | some (px, _) => px % ecN == r
  else false

/-- The public keys under which r, s over a digest could be valid: the curve's points with abscissa r or r + n, each taken back to its key. -/
def ecKeys (digest sig : List Byte) : List (List Byte) :=
  let r := beNat (sig.take 32)
  let s := beNat (sig.drop 32)
  let z := beNat digest
  if sig.length == 64 && decide (1 ≤ r) && decide (r < ecN) && decide (1 ≤ s) && decide (s < ecN) then
    let w := invMod r ecN
    [r, r + ecN].flatMap (fun x =>
      let y := powMod 256 ((x * x * x + ecB + 3 * (ecP - x % ecP)) % ecP) ((ecP + 1) / 4) ecP
      if ecOn x y then
        [y, ecP - y].filterMap (fun v =>
          (ecAdd (ecMul 256 (s * w % ecN) (some (x, v))) (ecMul 256 ((ecN - z * w % ecN) % ecN) ecG)).map (fun q => beBytes q.1 32 ++ beBytes q.2 32))
      else [])
  else []

/-- The public key of a private key, X then Y. -/
def ecPublic (d : Nat) : List Byte :=
  match ecMul 256 (d % ecN) ecG with
  | none => List.replicate 64 0#8
  | some (x, y) => beBytes x 32 ++ beBytes y 32

/-- The signature of a digest by private key d with nonce k, r then s. -/
def ecSign (d k : Nat) (digest : List Byte) : List Byte :=
  let k1 := 1 + k % (ecN - 1)
  match ecMul 256 k1 ecG with
  | none => List.replicate 64 0#8
  | some (x, _) =>
    let r := x % ecN
    let s := invMod k1 ecN * (beNat digest + r * (d % ecN)) % ecN
    beBytes r 32 ++ beBytes s 32

end Sys2Proof.Machine
end

