-- ==== Sys2Proof/Machine/Image.lean ====
section
/-! DEFINITION. The personality image (R252 to R259): header, sections, records, and load checks 1 to 7 of Table 7.5. -/

namespace Sys2Proof.Machine
open Sys2Proof

/-! ## Bytes -/

/-- `n` bytes from an offset. -/
def slice (bs : List Byte) (o n : Nat) : List Byte := (bs.drop o).take n

/-- Little-endian number of `n` bytes at an offset. -/
def le (bs : List Byte) (o n : Nat) : Nat := leNat (slice bs o n)

/-- Records of `n` bytes each. -/
def records (n : Nat) (bs : List Byte) : List (List Byte) := (List.range (bs.length / n)).map (fun i => slice bs (n * i) n)

/-! ## Header (Table 7.2) -/

/-- The fields of an image header. -/
structure Header where
  magic : Nat := 0
  format : Nat := 0
  headerLen : Nat := 0
  deviceType : Nat := 0
  target : Nat := 0
  length : Nat := 0
  flags : Nat := 0
  motifs : Nat := 0
  personality : Nat := 0
  version : Nat := 0
  sections : Nat := 0
  reserved : Nat := 0
  sigOffset : Nat := 0
  imageCrc : Nat := 0
  headerCrc : Nat := 0
  deriving DecidableEq, Repr

/-- The header of an image (R252). -/
def headerOf (b : List Byte) : Header :=
  { magic := le b 0 4, format := le b 4 2, headerLen := le b 6 2, deviceType := le b 8 4, target := le b 12 4, length := le b 16 4,
    flags := le b 20 4, motifs := le b 24 8, personality := le b 32 4, version := le b 36 4, sections := le b 40 2, reserved := le b 42 2,
    sigOffset := le b 44 4, imageCrc := le b 56 4, headerCrc := le b 60 4 }

/-- FULL_STORE. -/
def Header.full (h : Header) : Bool := bit h.flags 0
/-- SIGNED. -/
def Header.signed (h : Header) : Bool := bit h.flags 1
/-- PARTIAL. -/
def Header.part (h : Header) : Bool := bit h.flags 2
/-- Where the sections end. -/
def Header.limit (h : Header) : Nat := if h.signed then h.sigOffset else h.length
/-- The image configures motif m. -/
def Header.has (h : Header) (m : Nat) : Bool := bit h.motifs m
/-- The motifs of MOTIF_MASK. -/
def Header.motifList (h : Header) : List Nat := bitsOf h.motifs 64
/-- Some motif of MOTIF_MASK lies in hoop `i`. -/
def Header.hasHoop (h : Header) (i : Nat) : Bool := h.motifList.any (fun m => hoopOf m == i)

/-- Why a load fails: code of Table 7.5 and RESULT_DETAIL (section number, motif index or 0xFF). -/
structure Refuse where
  code : Nat := 0
  detail : Nat := 0
  deriving DecidableEq, Repr

/-- A failure at a section and motif. -/
def failAt (code sec motif : Nat) : Option Refuse := some { code := code, detail := sec % 65536 + 65536 * motif }

/-- A failure that concerns the header (R259). -/
def failHead (code : Nat) : Option Refuse := failAt code 0 0xFF

/-- The first failure in order. -/
def firstFail (l : List (Option Refuse)) : Option Refuse := l.findSome? (fun x => x)

/-- Checks 1 to 3 and the size part of check 4, on the header as it arrives. -/
def checkHeader (unit : Nat) (b : List Byte) : Option Refuse :=
  let h := headerOf b
  if h.magic ≠ 0x49504644 ∨ h.format ≠ 1 ∨ h.headerLen ≠ 64 ∨ crc32c (b.take 60) ≠ h.headerCrc ∨ 256 ≤ h.target ∨ 8 ≤ h.flags ∨ h.reserved ≠ 0 ∨
      h.sections = 0 ∨ 1024 < h.sections ∨ (!h.signed ∧ h.sigOffset ≠ 0) ∨ (h.signed ∧ (h.sigOffset < 64 ∨ h.sigOffset + 144 ≠ h.length)) then failHead 1
  else if h.deviceType ≠ 0x0D4F0400 then failHead 2
  else if !bit h.target unit then failHead 3
  else if 4194304 < h.length then failHead 4
  else none

/-! ## Sections (Tables 7.3, 7.4) -/

/-- One section: its number in image order, TYPE, INDEX, PLANE and payload. -/
structure Sec where
  no : Nat := 0
  typ : Nat := 0
  index : Nat := 0
  planeB : Bool := false
  load : List Byte := []
  deriving DecidableEq, Repr

/-- Header words of Table 10.2's PORT records: (KIND, INDEX, words) until one does not fit. -/
def portRecords : Nat → List Word → Option (List (Nat × Nat × List Word))
  | _, [] => some []
  | 0, _ => none
  | n + 1, w :: ws =>
    let c := field w.toNat 31 16
    if ws.length < c then none
    else match portRecords n (ws.drop c) with
      | none => none
      | some rs => some ((field w.toNat 7 0, field w.toNat 15 8, ws.take c) :: rs)

/-- A TIO pin of a latch input, or none (Table 10.2). -/
def latchPinOk (p : Nat) : Bool := decide (p < 24) || p == 0xFF

/-- KIND, INDEX and COUNT of a PORT record are those of Table 10.2; an ingress index is one of Table 10.1. -/
def portRecordOk (r : Nat × Nat × List Word) : Bool :=
  let (k, i, ws) := r
  let n := ws.length
  if k = 1 then decide (i < 24) && n == 9
  else if k = 2 then decide (i < 8) && n == 6
  else if k = 3 then decide (i < 2) && n == 14
  else if k = 4 then decide (i < 2) && n == 2
  else if k = 5 then (decide (i < 8) && n == 3) || (i == 0xFF && n == 2)
  else if k = 6 then i == 0 && n == 1 && ws.all (fun w => field w.toNat 31 16 == 0 && latchPinOk (field w.toNat 7 0) && latchPinOk (field w.toNat 15 8))
  else if k = 0x81 then (decide (i < 42) || (decide (64 ≤ i) && decide (i < 128))) && n == 1 && ws.all (fun w => field w.toNat 30 10 == 0)
  else if k = 0x82 then decide (i < 16) && n == 5
  else false

/-- The PRELOAD records of a payload: address, data; `none` when one overruns or a reserved part is not 0. -/
def preloads : Nat → List Byte → Option (List (Nat × List Byte))
  | _, [] => some []
  | 0, _ => none
  | n + 1, bs =>
    let len := le bs 8 4
    if bs.length < 16 + len ∨ len % 4 ≠ 0 ∨ le bs 12 4 ≠ 0 ∨ 2 ^ 36 ≤ le bs 0 8 then none
    else match preloads n (bs.drop (16 + len)) with
      | none => none
      | some rs => some ((le bs 0 8, slice bs 16 len) :: rs)

/-- A PDO record names an index that Table 7.4 allows. -/
def pdoIndexOk (ix : Nat) : Bool :=
  (decide (0x1600 ≤ ix) && decide (ix ≤ 0x17FF)) || (decide (0x1A00 ≤ ix) && decide (ix ≤ 0x1BFF)) || ix == 0x1C12 || ix == 0x1C13

/-- A payload fits its type's format in Table 7.4. -/
def payloadOk (typ : Nat) (p : List Byte) : Bool :=
  let n := p.length
  if typ = 1 then n % 52 == 0 && (records 52 p).all (fun r => decide (le r 0 1 ≤ 15) && decide (le r 1 1 ≤ 15) && le r 2 2 == 0 &&
      toTwos 64 (fromTwos 48 (le r 36 8)) == le r 36 8 && toTwos 64 (fromTwos 48 (le r 44 8)) == le r 44 8)
  else if typ = 2 then n % 260 == 0 && (records 260 p).all (fun r => decide (le r 0 1 ≤ 15) && decide (le r 1 1 ≤ 15) && le r 2 2 == 0)
  else if typ = 3 then decide (4 ≤ n) && n == 4 + 64 * le p 0 2 && decide (le p 0 2 ≤ 256) && le p 2 2 == 0
  else if typ = 4 then n == 16 && le p 12 4 == 0
  else if typ = 5 ∨ typ = 6 then decide (8 ≤ n) && n == 8 + le p 0 4 + le p 4 4
  else if typ = 7 then n == 268 && le p 2 2 == 0 && (List.range 16).all (fun q => le p (12 + 16 * q + 6) 2 / 16 == 0 && le p (12 + 16 * q + 8) 8 == 0)
  else if typ = 8 then n % 32 == 0
  else if typ = 9 then n % 64 == 0 && (records 64 p).all (fun r => le r 3 1 == 0)
  else if typ = 10 then n % 12 == 0 && (records 12 p).all (fun r => decide (le r 0 2 < 1024) && le r 2 2 == 0 && field (le r 4 8) 30 22 == 0)
  else if typ = 11 then (match portRecords n (leWords p) with | none => false | some rs => rs.all portRecordOk)
  else if typ = 12 then n % 8 == 0 && (records 8 p).all (fun r => pdoIndexOk (le r 0 2) && le r 3 1 == 0)
  else if typ = 13 then n == 72 && decide (le p 6 2 ≤ 8)
  else if typ = 14 then (preloads n p).isSome
  else false

/-- INDEX and PLANE of a section suit its TYPE and the header. -/
def sectionIndexOk (h : Header) (typ index : Nat) (planeB : Bool) : Bool :=
  let idx := if typ ≤ 5 then decide (index < 64) && h.has index else if typ ≤ 7 then decide (index < 4) && h.hasHoop index else index == 0xFF
  idx && (!planeB || (h.full && [1, 2, 3, 5, 6].contains typ))

/-- The motif that RESULT_DETAIL names for a section. -/
def secMotif (typ index : Nat) : Nat := if 1 ≤ typ ∧ typ ≤ 5 ∧ index < 64 then index else 0xFF

/-- What scanning the sections gives: the sections complete so far, and a failure of check 5. -/
structure Scan where
  secs : List Sec := []
  fail : Option Refuse := none
  deriving DecidableEq, Repr

/-- Check 5 on each section as it arrives, from section number `no` at offset `o`. -/
def scanSections (h : Header) (bs : List Byte) : Nat → Nat → Nat → Scan
  | 0, _, _ => {}
  | n + 1, no, o =>
    if h.limit < o + 16 then { fail := failAt 5 no 0xFF }
    else if bs.length < o + 16 then {}
    else
      let typ := le bs o 2
      let ix := le bs (o + 2) 1
      let fl := le bs (o + 3) 1
      let len := le bs (o + 4) 4
      let mo := secMotif typ ix
      if typ = 0 ∨ 14 < typ ∨ 2 ≤ fl ∨ le bs (o + 12) 4 ≠ 0 ∨ len % 4 ≠ 0 ∨ h.limit < o + 16 + len ∨ !sectionIndexOk h typ ix (bit fl 0) then { fail := failAt 5 no mo }
      else if bs.length < o + 16 + len then {}
      else
        let p := slice bs (o + 16) len
        if crc32c p ≠ le bs (o + 8) 4 ∨ !payloadOk typ p then { fail := failAt 5 no mo }
        else
          let r := scanSections h bs n (no + 1) ((o + 16 + len + 15) / 16 * 16)
          { r with secs := { no := no, typ := typ, index := ix, planeB := bit fl 0, load := p } :: r.secs }

/-- The sections of an image, as far as its bytes have come. -/
def scanImage (bs : List Byte) : Scan := scanSections (headerOf bs) bs (headerOf bs).sections 1 64

/-- Checks 1 to 5 on what has come. -/
def checkArriving (unit : Nat) (bs : List Byte) : Option Refuse :=
  if bs.length < 64 then none else firstFail [checkHeader unit bs, (scanImage bs).fail]

/-- The signature block is valid (R257): the key's digest is one of the public-key hashes 1 to 3 (R484) the island holds, and the signature is over bytes 0 to
SIG_OFFSET − 1. -/
def signatureOk (s : State) (bs : List Byte) : Bool :=
  let o := (headerOf bs).sigOffset
  let key := slice bs o 64
  s.island.keys && s.island.lc != 3 && s.island.lc != 4 && (s.island.hashes.any (fun e => e.1 != 0 && e.2 == sha256 key)) && le bs (o + 128) 16 == 0 && ecdsaOk key (sha256 (bs.take o)) (slice bs (o + 64) 64)

/-- Check 7 (R257, R258). -/
def checkSignature (s : State) (bs : List Byte) : Option Refuse :=
  let h := headerOf bs
  if h.signed then (if signatureOk s bs then none else failHead 7) else if s.obj 0x3601 5 = 1 then failHead 7 else none

/-- Checks 1 to 7 on a whole image. -/
def checkStored (s : State) (bs : List Byte) : Option Refuse :=
  let h := headerOf bs
  if bs.length < 64 then failHead 1
  else firstFail [checkHeader (s.obj 0x3601 6) bs, if h.length = bs.length then none else failHead 4, (scanImage bs).fail,
    if crc32c (slice bs 64 (h.limit - 64)) = h.imageCrc then none else failHead 6, checkSignature s bs]

end Sys2Proof.Machine
end

