-- ==== Sys2Proof/Machine/ImageCheck.lean ====
section
/-! DEFINITION. Load checks 8 to 17 of Table 7.5 (R50, R51, R63, R87, R89, R112, R130, R156, R162, R189, R255, R256, R277 to R280). -/

namespace Sys2Proof.Machine
open Sys2Proof

/-! ## Records of an image -/

/-- One CONTEXT record: section, motif, position, slot, context word and bank. -/
structure CtxRec where
  sec : Nat := 0
  m : Nat := 0
  pos : Nat := 0
  slot : Nat := 0
  ctx : BitVec 128 := 0#128
  bank : Bank := {}
  deriving DecidableEq, Repr

/-- Sections of a TYPE. -/
def secsOf (secs : List Sec) (typ : Nat) : List Sec := secs.filter (fun x => x.typ == typ)

/-- Sections of a TYPE for one INDEX. -/
def secsAt (secs : List Sec) (typ index : Nat) : List Sec := secs.filter (fun x => x.typ == typ && x.index == index)

/-- A CONTEXT record (Table 7.4). -/
def ctxRec (x : Sec) (r : List Byte) : CtxRec :=
  { sec := x.no, m := x.index, pos := le r 0 1, slot := le r 1 1, ctx := BitVec.ofNat 128 (le r 4 16),
    bank := { k0 := BitVec.ofNat 32 (le r 20 4), k1 := BitVec.ofNat 32 (le r 24 4), k2 := BitVec.ofNat 32 (le r 28 4), k3 := BitVec.ofNat 32 (le r 32 4),
              a0 := BitVec.ofNat 48 (le r 36 8), a1 := BitVec.ofNat 48 (le r 44 8) } }

/-- Every CONTEXT record. -/
def ctxRecs (secs : List Sec) : List CtxRec := (secsOf secs 1).flatMap (fun x => (records 52 x.load).map (ctxRec x))

/-- Patterns of motif m in a plane's PATTERN section: 16 route entries each. -/
def patternWords (secs : List Sec) (m : Nat) (planeB : Bool) : List Nat :=
  (secs.filter (fun x => x.typ == 3 && x.index == m && x.planeB == planeB)).flatMap (fun x => (leWords (x.load.drop 4)).map (·.toNat))

/-- The records of every section of a TYPE, each with its section's number. -/
def tagged {α : Type} (secs : List Sec) (typ : Nat) (f : Sec → List α) : List (Nat × α) :=
  (secsOf secs typ).flatMap (fun x => (f x).map (fun r => (x.no, r)))

/-- The records of a CLASS section: class and declaration. -/
def secClasses (x : Sec) : List (Nat × ClassDecl) :=
  (records 32 x.load).map (fun r =>
    (le r 0 1, { declared := true, action := le r 1 1, budget := le r 2 1, proved := le r 3 1, offset := le r 4 4, minOffset := le r 8 4,
                 execBound := le r 12 4, members := le r 16 8, ports := le r 24 8 }))

/-- The records of a SAFE section: class, port, word count, words. -/
def secSafes (x : Sec) : List (Nat × Nat × Nat × List Word) :=
  (records 64 x.load).map (fun r => (le r 0 1, le r 1 1, le r 2 1, (leWords (r.drop 4)).take (le r 2 1)))

/-- The records of a ROUTE section: stream and entry. -/
def secRoutes (x : Sec) : List (Nat × Nat) := (records 12 x.load).map (fun r => (le r 0 2, le r 4 8))

/-- The records of a PORT section. -/
def secPorts (x : Sec) : List (Nat × Nat × List Word) := (portRecords x.load.length (leWords x.load)).getD []

/-- The records of a PDO section: index, subindex, value. -/
def secPdos (x : Sec) : List (Nat × Nat × Nat) := (records 8 x.load).map (fun r => (le r 0 2, le r 2 1, le r 4 4))

/-- The CLASS records of an image. -/
def classRecs (secs : List Sec) : List (Nat × ClassDecl) := (secsOf secs 8).flatMap secClasses

/-- The SAFE records of an image. -/
def safeRecs (secs : List Sec) : List (Nat × Nat × Nat × List Word) := (secsOf secs 9).flatMap secSafes

/-- The ROUTE records of an image. -/
def routeRecs (secs : List Sec) : List (Nat × Nat) := (secsOf secs 10).flatMap secRoutes

/-- The PORT records of an image. -/
def portRecs (secs : List Sec) : List (Nat × Nat × List Word) := (secsOf secs 11).flatMap secPorts

/-- The PDO records of an image. -/
def pdoRecs (secs : List Sec) : List (Nat × Nat × Nat) := (secsOf secs 12).flatMap secPdos

/-- The PRELOAD records: address and bytes. -/
def preloadRecs (secs : List Sec) : List (Nat × List Byte) := (secsOf secs 14).flatMap (fun x => (preloads x.load.length x.load).getD [])

/-- The number of the first section of a TYPE. -/
def secNo (secs : List Sec) (typ : Nat) : Nat := ((secsOf secs typ).head?.map (·.no)).getD 0

/-! ## Check 8: context words (R63) -/

/-- Sources an operation uses: bit 0 A, 1 B, 2 C (Table 2.6); `none` for a reserved opcode. A GATHER uses B and, in FILL mode, C: R117 lists its
operands, and A is none of them. -/
def opSources (op : Nat) (mem : Nat) (gfill : Bool) : Option Nat :=
  if [0x00, 0x03, 0x04, 0x0C, 0x25, 0x2C, 0x2D, 0x4B, 0x4C, 0x4D, 0x4E, 0x4F, 0x50, 0x58, 0x59, 0x70, 0x82].contains op then some 1
  else if [0x01, 0x02, 0x08, 0x09, 0x0A, 0x0B, 0x10, 0x11, 0x12, 0x13, 0x14, 0x18, 0x19, 0x1A, 0x1B, 0x1C, 0x1D, 0x21, 0x22, 0x23, 0x24, 0x28, 0x29, 0x2A,
      0x2B, 0x30, 0x31, 0x32, 0x33, 0x34, 0x38, 0x39, 0x3A, 0x3B, 0x40, 0x41, 0x42, 0x46, 0x47, 0x48, 0x49, 0x4A, 0x60, 0x61, 0x62, 0x63, 0x64, 0x65, 0x71].contains op then some 3
  else if op = 0x20 ∨ op = 0x43 ∨ op = 0x44 ∨ op = 0x45 then some 7
  else if op = 0x80 then some 5
  else if op = 0x3C ∨ op = 0x81 then some 0
  else if op = 0x74 then some (if mem = 2 && gfill then 6 else 2)
  else none

/-- The operation uses IMM bits (Table 2.6, R67, R117). -/
def opUsesImm (op : Nat) : Bool := [0x2C, 0x2D, 0x38, 0x39, 0x3A, 0x3B, 0x3C, 0x58, 0x70, 0x71, 0x74].contains op

/-- A destination code exists (Table 2.2). -/
def destOk (d : Nat) : Bool := d == 0 || (decide (4 ≤ d) && decide (d ≤ 9)) || (decide (0x10 ≤ d) && decide (d ≤ 0x1F))

/-- A destination code names a register. -/
def destReg (d : Nat) : Bool := decide (4 ≤ d) && decide (d ≤ 9)

/-- The plane whose pattern table a record's context selects from: the slot's plane in a full-store image. -/
def recPlane (h : Header) (r : CtxRec) : Bool := h.full && decide (8 ≤ r.slot)

/-- A context word breaks no check of R63; `full` says that the image is a full-store image, `slot` is the record's slot, `n` is the length of the plane's pattern table. -/
def contextOk (full : Bool) (slot n : Nat) (c : BitVec 128) : Bool :=
  if !ctxValid c then c == 0#128
  else
    let op := ctxOp c
    let a := ctxSrcA c
    let b := ctxSrcB c
    let sc := ctxSrcC c
    let d0 := ctxDst0 c
    let d1 := ctxDst1 c
    let imm := (ctxImm c).toNat
    match opSources op (ctxMode c) (ctxGfill c) with
    | none => false
    | some u =>
      (bit u 0 || a == 11) && (bit u 1 || b == 11) && (bit u 2 || sc == 11) &&
      ctxFire c != 0 && [a, b, sc].all (fun x => decide (4 ≤ x) || bit (ctxFire c) x) &&
      destOk d0 && destOk d1 && !(destReg d0 && d0 == d1) &&
      !(decide (0x38 ≤ op) && decide (op ≤ 0x3B) && [d0, d1].any (fun d => d == 8 || d == 9)) &&
      !((op == 0x71 || op == 0x81) && (d0 != 0 || d1 != 0)) && !(op == 0x82 && (!isRouteCode d0 || d1 != 0)) &&
      (imm == 0 || [a, b, sc].any (· == 10) || opUsesImm op) &&
      decide (ctxTxb c ≤ 4) && decide (ctxTclass c ≤ 63) && (ctxTclass c == 0 || ctxTxb c == 1) &&
      ctxMode c == (if op = 0x70 ∨ op = 0x71 then 1 else if op = 0x74 then 2 else 0) &&
      !(ctxSpan c && (ctxBank c != 0 || ctxMode c != 1)) && !(ctxGfill c && ctxMode c != 2) && !bit c.toNat 95 &&
      !(op == 0x74 && decide (2 ^ 16 ≤ imm)) && !(op == 0x3C && decide (2 ^ 7 ≤ imm)) && !(op == 0x74 && (destReg d0 || destReg d1)) &&
      (full || ctxNext c / 8 == slot / 8) && decide (ctxSwsel c < n) && ctxReserved c == 0
where
  /-- A destination code is a route. -/
  isRouteCode (d : Nat) : Bool := decide (0x10 ≤ d) && decide (d ≤ 0x1F)

/-- Check 8. -/
def checkContexts (h : Header) (secs : List Sec) (rs : List CtxRec) : Option Refuse :=
  firstFail (rs.map (fun r => if contextOk h.full r.slot ((patternWords secs r.m (recPlane h r)).length / 16) r.ctx then none else some { code := 0x10, detail := r.sec + 65536 * r.m }))

/-! ## Check 9: pattern tables (R87, R89) -/

/-- A slot of the image holds a valid context whose FIRE names the input. -/
def feeds (rs : List CtxRec) (m pos slot inp : Nat) : Bool :=
  rs.any (fun r => r.m == m && r.pos == pos && r.slot == slot && ctxValid r.ctx && bit (ctxFire r.ctx) inp)

/-- One route entry obeys R87 and R89. -/
def routeEntryOk (h : Header) (rs : List CtxRec) (m : Nat) (w : Nat) : Bool :=
  let k := routeKind w
  let ctxOk := fun (c : Nat) => h.full || decide (c < 8)
  field w 31 22 == 0 &&
    (if k = 1 then ctxOk (field w 11 8) && feeds rs m (field w 5 2) (field w 11 8) (field w 7 6)
     else if k = 2 then ctxOk (field w 11 8) && feeds rs m (field w 5 2) (field w 11 8) (field w 7 6) &&
       ctxOk (field w 21 18) && feeds rs m (field w 15 12) (field w 21 18) (field w 17 16)
     else if k = 3 then !bit w 12 || field w 11 2 == 0
     else true)

/-- The routes a context uses have entries of a KIND other than 0. -/
def tagsOk (h : Header) (secs : List Sec) (r : CtxRec) : Bool :=
  !ctxValid r.ctx || [ctxDst0 r.ctx, ctxDst1 r.ctx].all (fun d =>
    !(decide (0x10 ≤ d) && decide (d ≤ 0x1F)) || routeKind ((patternWords secs r.m (recPlane h r)).getD (16 * ctxSwsel r.ctx + (d - 0x10)) 0) != 0)

/-- The number of the PATTERN section of motif m and a plane. -/
def patternSec (secs : List Sec) (m : Nat) (planeB : Bool) : Nat :=
  ((secs.find? (fun x => x.typ == 3 && x.index == m && x.planeB == planeB)).map (·.no)).getD 0

/-- Check 9. -/
def checkPatterns (h : Header) (secs : List Sec) (rs : List CtxRec) : Option Refuse :=
  firstFail [firstFail ((secsOf secs 3).map (fun x =>
      if (leWords (x.load.drop 4)).all (fun w => routeEntryOk h rs x.index w.toNat) then none else some { code := 0x11, detail := x.no + 65536 * x.index })),
    firstFail (rs.map (fun r => if tagsOk h secs r then none else some { code := 0x11, detail := patternSec secs r.m (recPlane h r) + 65536 * r.m }))]

/-! ## Check 10: memory (R112, R244 to R247) -/

/-- The valid bytes of a MIRROR_PAIRS value: primary and partner (format of 0x3200:09). -/
def pairsOf (v : Nat) : List (Nat × Nat) :=
  ((List.range 4).map (fun i => field v (8 * i + 7) (8 * i))).filterMap (fun b => if bit b 7 then some (field b 2 0, field b 5 3) else none)

/-- A MIRROR_PAIRS value obeys R112. -/
def pairsOk (v : Nat) : Bool :=
  let ps := pairsOf v
  (List.range 4).all (fun i => !(bit v (8 * i + 7) && bit v (8 * i + 6))) && ps.all (fun p => decide (p.1 < p.2)) &&
    (ps.flatMap (fun p => [p.1, p.2])).Nodup

/-- MIRROR_PAIRS of motif m in the image. -/
def imagePairs (secs : List Sec) (m : Nat) : Nat := ((secsAt secs 4 m).head?.map (fun x => le x.load 8 4)).getD 0

/-- A context obeys R112. A context of MEM.MODE 0 uses no bank, so its BANK field names none (DESIGN CHOICE, log 146). -/
def bankOk (secs : List Sec) (r : CtxRec) : Bool :=
  let ps := pairsOf (imagePairs secs r.m)
  !ctxValid r.ctx || ctxMode r.ctx == 0 || ((!ctxSpan r.ctx || ps.isEmpty) && ps.all (fun p => p.2 != ctxBank r.ctx))

/-- A MEMORY section's fields: window base, spare pages, regions (base and size), all MiB but the pages. -/
structure MemSec where
  window : Nat := 0
  spare : Nat := 0
  regions : List (Nat × Nat) := []
  deriving DecidableEq, Repr

/-- The MEMORY section of an image. -/
def memSec (secs : List Sec) : Option MemSec :=
  (secsOf secs 13).head?.map (fun x =>
    { window := le x.load 0 4, spare := le x.load 4 2, regions := (List.range (le x.load 6 2)).map (fun i => (le x.load (8 + 8 * i) 4, le x.load (12 + 8 * i) 4)) })

/-- Usable DRAM in MiB with a MEMORY section in force (R244). -/
def usableWith (raw : Nat) (x : MemSec) : Nat :=
  (1048576 * raw * 7 / 8 - 2 * x.spare * 4096 - (x.regions.map (fun r => 1048576 * r.2)).foldl (· + ·) 0) / 1048576

/-- A MEMORY section fits the DRAM fitted (R245 to R247). -/
def memSecOk (raw : Nat) (x : MemSec) : Bool :=
  let u := usableWith raw x
  decide (x.spare ≤ 4096) && x.window % 1024 == 0 && decide (x.window ≤ u) && x.regions.all (fun r => decide (r.1 + r.2 ≤ u)) &&
    decide (2 * x.spare * 4096 + (x.regions.map (fun r => 1048576 * r.2)).foldl (· + ·) 0 ≤ 1048576 * raw * 7 / 8)

/-- The PRELOAD word at an address can be written: mapped under Table 6.10 with the image's mirror pairs, and not in MP memory. -/
def preloadOk (s : State) (h : Header) (secs : List Sec) (kind a : Nat) : Bool :=
  if 0x01000000 ≤ a ∧ a < 0x02000000 then
    let m := (a - 0x01000000) / 0x40000
    let pv := if h.has m then imagePairs secs m else s.obj (0x3200 + m) 9
    (pairsOf pv).all (fun p => p.2 != (a - 0x01000000) % 0x40000 / 0x8000)
  else match (if kind = 0 then memSec secs else none) with
    | none => (match regionOf s a with | .unmapped => false | .mp => false | _ => true)
    | some x =>
      let u := 1048576 * usableWith s.dram.rawMiB x
      if 0x80000000 ≤ a ∧ a < 0x100000000 then decide (1048576 * x.window + (a - 0x80000000) < u)
      else if 0x100000000 ≤ a then decide (a - 0x100000000 < u)
      else (match regionOf s a with | .unmapped => false | .mp => false | _ => true)

/-- Check 10. -/
def checkMemory (s : State) (h : Header) (secs : List Sec) (rs : List CtxRec) (kind : Nat) : Option Refuse :=
  firstFail [firstFail (rs.map (fun r => if bankOk secs r then none else some { code := 0x12, detail := r.sec + 65536 * r.m })),
    firstFail ((secsOf secs 4).map (fun x => if pairsOk (le x.load 8 4) then none else some { code := 0x12, detail := x.no + 65536 * x.index })),
    firstFail ((secsOf secs 14).map (fun x =>
      if ((preloads x.load.length x.load).getD []).all (fun r => (List.range (r.2.length / 4)).all (fun i => preloadOk s h secs kind (r.1 + 4 * i))) then none else failAt 0x12 x.no 0xFF)),
    match memSec secs with
    | none => none
    | some x => if memSecOk s.dram.rawMiB x then none else failAt 0x12 (secNo secs 13) 0xFF]

/-! ## Check 11: classes (R130, R156, R162) -/

/-- A class declaration lies in the ranges of Table 4.1. -/
def classOk (c : Nat) (d : ClassDecl) : Bool :=
  decide (c ≤ 63) && decide (d.action ≤ 2) && decide (d.proved ≤ 2) && decide (d.budget ≤ d.proved) && decide (120 ≤ d.minOffset) &&
    decide (d.minOffset ≤ d.offset) && decide (d.offset ≤ 100000000) && decide (d.ports < 2 ^ 43)

/-- A valid FORWARD context. -/
def isForward (c : BitVec 128) : Bool := ctxValid c && ctxTxb c == 4

/-- Motif m holds a valid FORWARD context in plane `p` once the image is loaded: one of the image's where it configures the motif, else one
that stands. -/
def forwardIn (s : State) (h : Header) (rs : List CtxRec) (p : Bool) (m : Nat) : Bool :=
  if h.has m then rs.any (fun r => r.m == m && isForward r.ctx && (!h.full || recPlane h r == p))
  else (s.motif m).slots.any (fun e => decide (8 ≤ e.1 % 16) == p && isForward e.2.ctx)

/-- The planes a load of a kind writes classes into: plane A, the active one or the idle one, and both for a full-store image (Table 7.1, R282). -/
def loadPlanes (s : State) (h : Header) (kind : Nat) : List Bool :=
  if h.full then [false, true] else [if kind = 0 then false else if kind = 1 then s.activeB else !s.activeB]

/-- Every class with a FORWARD context among its members, in one of the planes, declares port 42 (R156). -/
def forwardOk (s : State) (h : Header) (rs : List CtxRec) (kind : Nat) (d : ClassDecl) : Bool :=
  bit d.ports 42 || (loadPlanes s h kind).all (fun p => (List.range 64).all (fun m => !(bit d.members m && forwardIn s h rs p m)))

/-- A FORWARD context of a region image meets no standing class that lacks port 42 and that the image does not declare again (R156). -/
def standsOk (s : State) (h : Header) (cs : List (Nat × ClassDecl)) (kind : Nat) (r : CtxRec) : Bool :=
  kind != 1 || !isForward r.ctx || (loadPlanes s h kind).all (fun p =>
    (List.range 64).all (fun c => !(s.cls p c).declared || cs.any (fun e => e.1 == c) || !bit (s.cls p c).members r.m || bit (s.cls p c).ports 42))

/-- The safe entries a SAFE class needs are there (Table 4.1, R162). -/
def safeComplete (safes : List (Nat × Nat × Nat × List Word)) (c : Nat) (d : ClassDecl) : Bool :=
  d.action != 1 || ((bitsOf d.ports 43).filter (· != 42)).all (fun p => safes.any (fun e => e.1 == c && e.2.1 == p))

/-- One SAFE record (R162), with those before it: its class is declared, its port belongs to the class, it has 1 to 15 words, and it is the first
of its class and port and at most the 256th. -/
def safeOk (cs : List (Nat × ClassDecl)) (before : List (Nat × Nat × Nat × List Word)) (e : Nat × Nat × Nat × List Word) : Bool :=
  decide (before.length < 256) && before.all (fun q => (q.1, q.2.1) != (e.1, e.2.1)) && decide (1 ≤ e.2.2.1) && decide (e.2.2.1 ≤ 15) &&
    (match cs.reverse.find? (fun d => d.1 == e.1) with | none => false | some d => bit d.2.ports e.2.1)

/-- Check 11. A failure names the section of the record it concerns (R259). -/
def checkClasses (s : State) (h : Header) (secs : List Sec) (rs : List CtxRec) (kind : Nat) : Option Refuse :=
  let cs := classRecs secs
  let sf := safeRecs secs
  let tags := tagged secs 9 secSafes
  let decl := fun (c : Nat) => cs.reverse.find? (fun e => e.1 == c)
  firstFail [firstFail ((tagged secs 8 secClasses).map (fun e =>
      if classOk e.2.1 e.2.2 && forwardOk s h rs kind e.2.2 && safeComplete sf e.2.1 e.2.2 then none else failAt 0x13 e.1 0xFF)),
    firstFail (((List.range tags.length).zip tags).map (fun e => if safeOk cs (sf.take e.1) e.2.2 then none else failAt 0x13 e.2.1 0xFF)),
    firstFail (rs.map (fun r => if standsOk s h cs kind r then none else some { code := 0x13, detail := r.sec + 65536 * r.m })),
    firstFail (rs.map (fun r => if ctxValid r.ctx && ctxTxb r.ctx == 1 && (decl (ctxTclass r.ctx)).isNone then some { code := 0x13, detail := r.sec + 65536 * r.m } else none))]

/-! ## Checks 12 to 14 -/

/-- Check 12 (R189). -/
def checkAvailable (s : State) (h : Header) : Option Refuse :=
  firstFail (h.motifList.map (fun m => if (s.motif m).absent then some { code := 0x14, detail := 65536 * m } else none))

/-- Check 13: a hoop clock outside 16 steps to the grade's limit. -/
def checkClock (s : State) (secs : List Sec) : Option Refuse :=
  firstFail ((secsOf secs 7).map (fun x => if le x.load 0 2 < 16 ∨ (if s.start.board.gradeL then 64 else 80) < le x.load 0 2 then failAt 0x15 x.no 0xFF else none))

/-- The records of slots stand where R255 puts them. -/
def slotsOk (h : Header) (x : Sec) : Bool :=
  (records (if x.typ = 1 then 52 else 260) x.load).all (fun r => if h.full then decide (8 ≤ le r 1 1) == x.planeB else decide (le r 1 1 < 8))

/-- Check 14 (R51, R255). -/
def checkPlane (s : State) (h : Header) (secs : List Sec) (kind : Nat) : Option Refuse :=
  firstFail [if kind = 2 ∧ h.full then failHead 0x16 else none,
    if kind = 2 then firstFail (h.motifList.map (fun m => if (s.motif m).fullStore then some { code := 0x16, detail := 65536 * m } else none)) else none,
    firstFail ((secsOf secs 1 ++ secsOf secs 2).map (fun x => if slotsOk h x then none else some { code := 0x16, detail := x.no + 65536 * x.index }))]

/-! ## Checks 15 and 16: what is shared, and the region (R277 to R280) -/

/-- Clock of hoop i in steps of 12.5 MHz (0x3100 + i:01). -/
def clockSteps (s : State) (i : Nat) : Nat := s.obj (0x3100 + i) 1 / 12500000

/-- A HOOP section equals what stands. -/
def hoopSame (s : State) (x : Sec) : Bool :=
  le x.load 0 2 == clockSteps s x.index && le x.load 4 8 == s.obj (0x3100 + x.index) 0x20 &&
    (List.range 16).all (fun q => le x.load (12 + 16 * q) 8 == (mget {} s.net.queues (16 * x.index + q) : StreamQ).base + 2 ^ 36 * (mget {} s.net.queues (16 * x.index + q) : StreamQ).slots)

/-- A MOTIF section's shared fields equal what stands. -/
def motifSame (s : State) (x : Sec) : Bool :=
  le x.load 4 2 == s.obj (0x3200 + x.index) 6 && le x.load 6 2 == s.obj (0x3200 + x.index) 8 && le x.load 8 4 == s.obj (0x3200 + x.index) 9

/-- A MEMORY section equals what stands. -/
def memSame (s : State) (x : MemSec) : Bool :=
  x.window == s.obj 0x3012 5 && x.spare == s.obj 0x3012 8 && x.regions.map (fun r => (1048576 * r.1, 1048576 * r.2)) == s.dram.regions

/-- A PDO record equals what stands. -/
def pdoSame (s : State) (r : Nat × Nat × Nat) : Bool := s.obj r.1 r.2.1 == r.2.2

/-- A PDO section declares the process data exactly as it stands (R277, R279): every record equals, and nothing that stands is left out. -/
def pdoSecSame (s : State) (x : Sec) : Bool :=
  (secPdos x).all (pdoSame s) &&
    s.od.all (fun e => !pdoIndexOk (e.1 / 256) || e.2 == 0 || (secPdos x).any (fun r => odKey r.1 r.2.1 == e.1))

/-- The configuration subindices a PORT record of KIND 0x01 to 0x05 writes, with their sizes in words (Table 10.2): object and subindices. -/
def portObject (kind index : Nat) : Nat × List (Nat × Nat) :=
  let seq := fun (lo n : Nat) => (List.range n).map (fun i => (lo + i, 1))
  if kind = 1 then (0x4000, seq 2 9)
  else if kind = 2 then (0x4100, seq 2 6)
  else if kind = 3 then (0x4200, [(2, 1), (3, 1), (4, 1), (5, 1), (6, 1), (7, 2), (8, 2), (9, 2), (0x0A, 2), (0x0B, 1)])
  else if kind = 4 then (0x4300, seq 2 2)
  else (0x4500, if index = 0xFF then seq 0x10 2 else seq 2 3)

/-- The values a configuration record gives its subindices. -/
def portValues : List (Nat × Nat) → List Word → List (Nat × Nat)
  | [], _ => []
  | (sub, n) :: rest, ws => (sub, leNat (wordBytes (ws.take n))) :: portValues rest (ws.drop n)

/-- A configuration record equals what stands. -/
def portSame (s : State) (r : Nat × Nat × List Word) : Bool :=
  if 0x80 ≤ r.1 then true
  else if r.1 = 6 then (r.2.2.headD 0#32).toNat == s.ports.latchPins
  else
    let o := portObject r.1 r.2.1
    (portValues o.2 r.2.2).all (fun v => (if r.2.1 = 0xFF then s.obj o.1 v.1 else s.obji r.2.1 o.1 v.1) == v.2)

/-- Check 15 (R279, R280). -/
def checkShadow (s : State) (secs : List Sec) (kind : Nat) : Option Refuse :=
  if kind ≠ 2 then none
  else firstFail [firstFail ((secsOf secs 7).map (fun x => if hoopSame s x then none else failAt 0x17 x.no 0xFF)),
    firstFail ((secsOf secs 4).map (fun x => if motifSame s x then none else some { code := 0x17, detail := x.no + 65536 * x.index })),
    match memSec secs with | none => none | some x => if memSame s x then none else failAt 0x17 (secNo secs 13) 0xFF,
    firstFail ((secsOf secs 12).map (fun x => if pdoSecSame s x then none else failAt 0x17 x.no 0xFF)),
    firstFail ((tagged secs 11 secPorts).map (fun e => if portSame s e.2 then none else failAt 0x17 e.1 0xFF)),
    firstFail ((tagged secs 10 secRoutes).map (fun e =>
      if !bit (masterEntry s e.2.1) 31 || masterEntry s e.2.1 == e.2.2 then none else failAt 0x17 e.1 0xFF))]

/-- Check 16 (R276 to R278). -/
def checkRegion (s : State) (h : Header) (secs : List Sec) (kind : Nat) : Option Refuse :=
  if kind ≠ 1 then none
  else
    let reg := s.obj 0x3601 8
    let inside := fun (v : Nat) => (bitsOf v 64).all (bit reg ·)
    firstFail [if h.part && h.motifs == reg then none else failHead 0x18,
      firstFail ((tagged secs 8 secClasses).map (fun e =>
        if inside e.2.2.members && inside (s.cls s.activeB e.2.1).members then none else failAt 0x18 e.1 0xFF)),
      firstFail ((secsOf secs 12).map (fun x => if pdoSecSame s x then none else failAt 0x18 x.no 0xFF)),
      match memSec secs with | none => none | some x => if memSame s x then none else failAt 0x18 (secNo secs 13) 0xFF,
      firstFail ((secsOf secs 7).map (fun x =>
        if le x.load 0 2 = clockSteps s x.index ∨ (List.range 64).all (fun m => hoopOf m != x.index || bit reg m) then none else failAt 0x18 x.no 0xFF))]

/-! ## Check 17: resources (R255, R256, R392) -/

/-- A SHUTTLE or SUPERVISOR section fits its plane's half. -/
def halfOk (x : Sec) : Bool := if x.typ = 5 then decide (le x.load 0 4 ≤ 0x2000) && decide (le x.load 4 4 ≤ 0x1000) else decide (le x.load 0 4 ≤ 0x8000) && decide (le x.load 4 4 ≤ 0x8000)

/-- A section that is one too many: each plane has at most one section of a kind for each motif or hoop (R255). -/
def secondOfPlane (secs : List Sec) : Option Sec :=
  let own := secs.filter (fun x => [3, 4, 5, 6, 7].contains x.typ)
  own.find? (fun x => (own.takeWhile (fun y => y != x)).any (fun y => y.typ == x.typ && y.index == x.index && y.planeB == x.planeB))

/-- Exactly one section of a TYPE (R256): a missing one concerns the image, a second one is the one at fault. -/
def exactlyOne (secs : List Sec) (t : Nat) : Option Refuse :=
  match secsOf secs t with
  | [] => failAt 0x19 0 0xFF
  | [_] => none
  | _ :: x :: _ => failAt 0x19 x.no 0xFF

/-- A device load's PORT section holds every configuration record. -/
def portsComplete (rs : List (Nat × Nat × List Word)) : Bool :=
  let has := fun (k i : Nat) => rs.any (fun r => r.1 == k && r.2.1 == i)
  (List.range 24).all (has 1) && (List.range 8).all (has 2) && (List.range 2).all (has 3) && (List.range 2).all (has 4) && (List.range 8).all (has 5) && has 5 0xFF

/-- Check 17. -/
def checkResource (h : Header) (secs : List Sec) (kind : Nat) : Option Refuse :=
  firstFail [firstFail ((secsOf secs 5 ++ secsOf secs 6).map (fun x => if halfOk x then none else failAt 0x19 x.no (secMotif x.typ x.index))),
    match secondOfPlane secs with | none => none | some x => failAt 0x19 x.no (secMotif x.typ x.index),
    firstFail (h.motifList.map (fun m => if (secsAt secs 4 m).length = 1 ∧ (secsAt secs 1 m).isEmpty = false then none else some { code := 0x19, detail := 65536 * m })),
    if kind = 0 then firstFail [firstFail ([8, 10, 11, 12, 13].map (exactlyOne secs)),
      if (List.range 4).all (fun i => !h.hasHoop i || !(secsAt secs 7 i).isEmpty) then none else failAt 0x19 0 0xFF,
      if portsComplete (portRecs secs) then none else failAt 0x19 (secNo secs 11) 0xFF] else none,
    if kind = 2 then firstFail ([8, 10, 11].map (exactlyOne secs)) else none]

/-- Checks 8 to 17 in order (Table 7.5). -/
def checkLoaded (s : State) (kind : Nat) (bs : List Byte) : Option Refuse :=
  let h := headerOf bs
  let secs := (scanImage bs).secs
  let rs := ctxRecs secs
  firstFail [checkContexts h secs rs, checkPatterns h secs rs, checkMemory s h secs rs kind, checkClasses s h secs rs kind, checkAvailable s h, checkClock s secs,
    checkPlane s h secs kind, checkShadow s secs kind, checkRegion s h secs kind, checkResource h secs kind]

/-- Every check of Table 7.5 for a load of a kind. -/
def checkAll (s : State) (kind : Nat) (bs : List Byte) : Option Refuse := firstFail [checkStored s bs, checkLoaded s kind bs]

end Sys2Proof.Machine
end

