-- ==== Sys2Proof/Machine/ImageWrite.lean ====
section
/-! DEFINITION. Writing a checked image into the stores (R255, R256, R276 to R282, R392). -/

namespace Sys2Proof.Machine
open Sys2Proof

/-! ## Motifs -/

/-- The slots of a plane (position × 16 + slot) leave the store, and its pattern table is emptied. -/
def clearMotifPlane (planeB : Bool) (x : Motif) : Motif :=
  let x1 : Motif := { x with slots := x.slots.filter (fun e => decide (8 ≤ e.1 % 16) != planeB) }
  if planeB then { x1 with patB := [], lenB := 0 } else { x1 with patA := [], lenA := 0 }

/-- The slot a record's slot lands in: plane B of a one-plane image adds 8 (R255). -/
def landSlot (full planeB : Bool) (k : Nat) : Nat := if !full && planeB then k % 8 + 8 else k

/-- The context word as placed: NEXT moves with the slot (R255). -/
def landCtx (full planeB : Bool) (c : BitVec 128) : BitVec 128 :=
  if !full && planeB && ctxValid c then BitVec.ofNat 128 (withField c.toNat 75 72 (ctxNext c % 8 + 8)) else c

/-- A CONTEXT record written. -/
def putCtx (full planeB : Bool) (x : Motif) (r : CtxRec) : Motif :=
  let k := landSlot full planeB r.slot
  x.setSlot r.pos k { x.slot r.pos k with ctx := landCtx full planeB r.ctx, init := r.bank, live := r.bank, admitted := none }

/-- A LUT record written. -/
def putLut (full planeB : Bool) (x : Motif) (r : List Byte) : Motif :=
  let k := landSlot full planeB (le r 1 1)
  x.setSlot (le r 0 1) k { x.slot (le r 0 1) k with lut := memWrite [] 0 (r.drop 4) }

/-- A pattern table as the store holds it: 16 × pattern + tag ↦ route entry. -/
def patternStore (ws : List Nat) : SMap Nat := ((List.range ws.length).zip ws).foldl (fun m e => mset 0 m e.1 e.2) []

/-- The configuration mirror as a load writes it beside the stores (R259). -/
def Motif.mirrored (x : Motif) : Motif :=
  { x with mirror := { ctx := (x.slots.map (fun e => (e.1, e.2.ctx))).filter (fun e => e.2 != 0#128),
                       lut := (x.slots.map (fun e => (e.1, e.2.lut))).filter (fun e => !e.2.isEmpty), patA := x.patA, patB := x.patB } }

/-- The motif with the image's contexts, tables, patterns and constant in a plane (both planes for a full-store image), and with its configuration
mirror. -/
def putMotif (h : Header) (secs : List Sec) (planeB : Bool) (m : Nat) (x : Motif) : Motif :=
  let x1 := ((ctxRecs secs).filter (fun r => r.m == m)).foldl (putCtx h.full planeB) x
  let x2 := (secsAt secs 2 m).foldl (fun y z => (records 260 z.load).foldl (putLut h.full planeB) y) x1
  let c := BitVec.ofNat 32 (((secsAt secs 4 m).head?.map (fun z => le z.load 0 4)).getD 0)
  Motif.mirrored <| if h.full then
    { x2 with patA := patternStore (patternWords secs m false), patB := patternStore (patternWords secs m true), constA := c, constB := c, fullStore := true,
              lenA := (patternWords secs m false).length / 16, lenB := (patternWords secs m true).length / 16 }
  else if planeB then { x2 with patB := patternStore (patternWords secs m false), constB := c, fullStore := false, lenB := (patternWords secs m false).length / 16 }
  else { x2 with patA := patternStore (patternWords secs m false), constA := c, fullStore := false, lenA := (patternWords secs m false).length / 16 }

/-- MIRROR_STATE of a MIRROR_PAIRS value with every pair intact: 3 for an unused pair (0x3200:2D). -/
def mirrorFresh (v : Nat) : Nat := ((List.range 4).map (fun i => if bit v (8 * i + 7) then 0 else 3 * 4 ^ i)).foldl (· + ·) 0

/-- The shared fields of a MOTIF section: ORDER_WINDOW, BANK_POWER, MIRROR_PAIRS. -/
def putShared (s : State) (x : Sec) : State :=
  let ix := 0x3200 + x.index
  let bp := le x.load 6 2
  (((startBanks x.index bp s).setObj ix 6 (le x.load 4 2)).setObj ix 9 (le x.load 8 4)).setObj ix 0x2D (mirrorFresh (le x.load 8 4))

/-! ## Cores -/

/-- A plane's halves of a core's memories are cleared and hold no program. -/
def clearHalf (c : Nat) (planeB : Bool) (s : State) : State :=
  let x := s.core c
  let i := imemHalf c
  let d := dmemHalf c
  let p := b2n planeB
  let x1 : Core := { x with imem := memZero x.imem (p * i) ((p + 1) * i), dmem := memZero x.dmem (p * d) ((p + 1) * d) }
  s.setCore c (if planeB then { x1 with entryB := false } else { x1 with entryA := false })

/-- A SHUTTLE or SUPERVISOR section written into a plane's half. The first one on a core also sets what an image gives a core beside its memories. -/
def putProgram (c : Nat) (planeB : Bool) (p : List Byte) (s : State) : State :=
  let il := le p 0 4
  let s0 := clearHalf c planeB s
  let s1 := if (s0.core c).entryA || (s0.core c).entryB then s0 else imageRegs c s0
  let x := s1.core c
  let x1 : Core := { x with imem := memWrite x.imem (b2n planeB * imemHalf c) (slice p 8 il),
                            dmem := memWrite x.dmem (b2n planeB * dmemHalf c) (p.drop (8 + il)) }
  s1.setCore c (if planeB then { x1 with entryB := decide (0 < il) } else { x1 with entryA := decide (0 < il) })

/-- The plane a program section goes into. -/
def progPlane (h : Header) (planeB : Bool) (x : Sec) : Bool := if h.full then x.planeB else planeB

/-- Every SHUTTLE and SUPERVISOR section. -/
def putPrograms (h : Header) (secs : List Sec) (planeB : Bool) (s : State) : State :=
  let s1 := (secsOf secs 5).foldl (fun st x => putProgram x.index (progPlane h planeB x) x.load st) s
  (secsOf secs 6).foldl (fun st x => putProgram (64 + x.index) (progPlane h planeB x) x.load st) s1

/-! ## Hoops -/

/-- A HOOP section: clock, bank power (whose transitions are those of Table 6.13), stream queues. -/
def putHoop (s : State) (x : Sec) : State :=
  let h := x.index
  let ix := 0x3100 + h
  let s1 := startHoopBanks h (le x.load 4 8) (setHoopClock h (12500000 * le x.load 0 2) s)
  let ds := (List.range 16).map (fun q => le x.load (12 + 16 * q) 8)
  let s2 := ((List.range 16).zip ds).foldl (fun t e => t.setSqueue h e.1 { base := field e.2 35 0, slots := field e.2 51 36 }) s1
  (s2.setObj ix 0x27 (ds.filter (fun d => field d 51 36 != 0)).length).setObj ix 2 1

/-- 0x3100 + h:05: the motifs of each hoop that the active plane configures. -/
def motifsShow (s : State) : State :=
  (List.range 4).foldl (fun st h =>
    let bits := (List.range 64).map (fun m =>
      let x := s.motif m
      if hoopOf m = h ∧ x.slots.any (fun e => decide (8 ≤ e.1 % 16) == s.activeB && ctxValid e.2.ctx) then 2 ^ (4 * (m / 8 % 4) + m % 4) else 0)
    st.setObj (0x3100 + h) 5 (bits.foldl (· + ·) 0)) s

/-! ## Classes and safe entries -/

/-- The class table and safe entries of a plane are cleared. -/
def clearClasses (planeB : Bool) (s : State) : State :=
  { s with classes := s.classes.filter (fun e => decide (64 ≤ e.1) != planeB),
           selvedge := { s.selvedge with safe := s.selvedge.safe.filter (fun e => decide (4096 ≤ e.1) != planeB) } }

/-- The image's classes and safe entries in a plane's table; a class written again loses its old safe entries. -/
def putClasses (secs : List Sec) (planeB : Bool) (s : State) : State :=
  let cs := classRecs secs
  let base := 4096 * b2n planeB
  let gone := fun (k : Nat) => decide (4096 ≤ k) == planeB && cs.any (fun e => e.1 == k % 4096 / 64)
  let s1 : State := { s with selvedge := { s.selvedge with safe := s.selvedge.safe.filter (fun e => !gone e.1) } }
  let s2 := cs.foldl (fun st e => st.setCls planeB e.1 e.2) s1
  let safe := (safeRecs secs).foldl (fun m e => mset [] m (base + 64 * e.1 + e.2.1) e.2.2.2) s2.selvedge.safe
  { s2 with selvedge := { s2.selvedge with safe := safe } }

/-- A class in use: ACTIVE, or SUSPENDED where SUSPEND is TRUE (R135). -/
def classOn (c : Nat) (s : State) : State := s.setObj (0x3400 + c) 1 (if s.obj (0x3400 + c) 2 = 1 then 2 else 1)

/-! ## Routes, ports, process data, memory -/

/-- The planes recorded as declaring a stream's entry (R280); a changed entry is declared by the planes of the load alone. -/
def declare (planes stream : Nat) (changed : Bool) (s : State) : State :=
  { s with net := { s.net with declared := mset 0 s.net.declared stream (if changed then planes else mget 0 s.net.declared stream ||| planes) } }

/-- The ROUTE records: a running fabric replaces a changed entry under R237, otherwise the master copies are written. -/
def putRoutes (secs : List Sec) (planes : Nat) (running : Bool) (s : State) : State :=
  (routeRecs secs).foldl (fun st r =>
    let st1 := declare planes r.1 (masterEntry st r.1 != r.2) st
    if masterEntry st1 r.1 = r.2 then st1 else if running then startInvalidate 8 r.1 r.2 st1 else masterWrite r.1 r.2 st1) s

/-- A bride link's ENABLE takes effect (R424). -/
def linkEnable (l v : Nat) (s : State) : State :=
  let s1 := s.setObji l 0x4300 2 v
  let s2 := if s.obji l 0x4300 2 = v then s1 else if v = 1 then linkTrain l s1 else linkFall l s1
  setCond 31 ([0, 1].any (fun k => s2.obji k 0x4300 2 == 1 && s2.obji k 0x4300 4 != 2)) s2

/-- One configuration record of the PORT section (kinds 0x01 to 0x06). While the fabric runs, a link's ENABLE and the FC pins follow (R424, R433). -/
def putPort (s : State) (r : Nat × Nat × List Word) : State :=
  if r.1 = 6 then { s with ports := { s.ports with latchPins := (r.2.2.headD 0#32).toNat } }
  else if 0x80 ≤ r.1 then s
  else
    let o := portObject r.1 r.2.1
    let s1 := if r.1 = 4 ∧ s.fabric then linkEnable r.2.1 ((r.2.2.headD 0#32).toNat % 2) s else s
    let s2 := (portValues o.2 r.2.2).foldl (fun st v => if r.2.1 = 0xFF then st.setObj o.1 v.1 v.2 else st.setObji r.2.1 o.1 v.1 v.2) s1
    if r.1 = 5 ∧ s.fabric then fcUpdate s2 else s2

/-- One ingress record (kind 0x81) or timer preset (kind 0x82) of a plane; a timer of the running active plane is enabled at once (R33, R36). -/
def putIngress (planeB : Bool) (s : State) (r : Nat × Nat × List Word) : State :=
  let w := fun (i : Nat) => (r.2.2.getD i 0#32).toNat
  if r.1 = 0x81 then { s with ingress := mset 0 s.ingress (256 * b2n planeB + r.2.1) (w 0) }
  else if r.1 = 0x82 then
    let y := s.timer planeB r.2.1
    let x : Timer := { y with enable := w 0 % 2 == 1, start := w 1 + 2 ^ 32 * w 2, period := w 3, stream := w 4 % 1024, active := false, preset := !s.fabric }
    s.setTimer planeB r.2.1 (if x.enable && s.fabric && planeB == s.activeB then timerArm (s.t + 1000) x else x)
  else s

/-- A plane's ingress streams and timers are removed. -/
def clearIngress (planeB : Bool) (s : State) : State :=
  let s1 : State := { s with ingress := s.ingress.filter (fun e => decide (256 ≤ e.1) != planeB) }
  if planeB then { s1 with timersB := [] } else { s1 with timersA := [] }

/-- The MEMORY section (R244 to R247). -/
def putMemory (x : MemSec) (s : State) : State :=
  let total := (x.regions.map (fun r => r.2)).foldl (· + ·) 0
  let s1 : State := { s with dram := { s.dram with regions := x.regions.map (fun r => (1048576 * r.1, 1048576 * r.2)) } }
  let s2 := ((s1.setObj 0x3012 5 x.window).setObj 0x3012 6 x.regions.length).setObj 0x3012 7 total
  poolShow x.spare ((s2.setObj 0x3012 8 x.spare).setObj 0x3012 2 (usableWith s.dram.rawMiB x))

/-- PRELOAD bytes written from an address on, up to the end of its bank; both banks of a mirror pair get them (R111). -/
def putBytes (a : Nat) (bs : List Byte) (s : State) : State :=
  match regionOf s a with
  | .hoop h o => let x := s.hoop h; s.setHoop h { x with mem := memWrite x.mem o bs, ecc := eccFresh o bs.length x.ecc }
  | .scratch m b =>
    let x := s.motif m
    let mem := memWrite x.scratch b bs
    let ecc := eccFresh b bs.length x.ecc
    s.setMotif m (match mirrorOf s m (spBank b) with
      | none => { x with scratch := mem, ecc := ecc }
      | some (_, q) => let bq := 32768 * q + b % 32768; { x with scratch := memWrite mem bq bs, ecc := eccFresh bq bs.length ecc })
  | .dram o =>
    let lost := s.dram.lost.filter (fun e => decide (4 * e.1 < o) || decide (o + bs.length < 4 * e.1 + 4))
    { s with dram := { s.dram with mem := memWrite s.dram.mem o bs, lost := lost } }
  | _ => s

/-- A PRELOAD record written to the memories its addresses name, 32 KiB block by block. -/
def putPreloads : Nat → Nat → List Byte → State → State
  | 0, _, _, s => s
  | _ + 1, _, [], s => s
  | f + 1, a, bs, s =>
    let n := 32768 - a % 32768
    putPreloads f (a + n) (bs.drop n) (putBytes a (bs.take n) s)

/-- A PRELOAD record written. -/
def putPreload (s : State) (r : Nat × List Byte) : State := putPreloads (r.2.length + 1) r.1 r.2 s

/-! ## The three kinds of load (Table 7.1) -/

/-- The planes of a load: 1 A, 2 B, 3 both. -/
def planeBits (full planeB : Bool) : Nat := if full then 3 else if planeB then 2 else 1

/-- The planes as Booleans. -/
def planesOf (full planeB : Bool) : List Bool := if full then [false, true] else [planeB]

/-- Device load (Table 7.1): plane A of every motif (both for a full-store image) and all global sections. -/
def writeDevice (bs : List Byte) (s : State) : State :=
  let h := headerOf bs
  let secs := (scanImage bs).secs
  let s1 := (List.range 4).foldl (fun st i => setHoopClock i 200000000 st) s
  let s2 := (secsOf secs 7).foldl putHoop s1
  let s3 := (secsOf secs 4).foldl putShared (match memSec secs with | none => s2 | some x => putMemory x s2)
  let s4 := h.motifList.foldl (fun st m => st.setMotif m (putMotif h secs false m (clearMotifPlane false (clearMotifPlane true (st.motif m))))) s3
  let s5 := putPrograms h secs false s4
  let s6 := (planesOf h.full false).foldl (fun st p => putClasses secs p (clearClasses p st)) s5
  let s7 := (classRecs secs).foldl (fun st e => classOn e.1 st) s6
  let s8 := putRoutes secs (planeBits h.full false) false s7
  let s9 := (portRecs secs).foldl putPort s8
  let s10 := (planesOf h.full false).foldl (fun st p => (portRecs secs).foldl (putIngress p) (clearIngress p st)) s9
  let s11 := (pdoRecs secs).foldl (fun st r => st.setObj r.1 r.2.1 r.2.2) s10
  let s12 := (preloadRecs secs).foldl putPreload s11
  sparesShow (motifsShow ((s12.setObj 0x3600 0x10 h.personality).setObj 0x3600 0x11 (if h.full then h.personality else 0)))

/-- Shadow-plane load (Table 7.1): the idle plane of every motif of the image, and the plane's own global parts. -/
def writeShadow (bs : List Byte) (s : State) : State :=
  let h := headerOf bs
  let secs := (scanImage bs).secs
  let p := !s.activeB
  let s1 := h.motifList.foldl (fun st m => clearHalf m p (st.setMotif m (putMotif h secs p m (clearMotifPlane p (st.motif m))))) s
  let s2 := putPrograms h secs p s1
  let s3 := putClasses secs p (clearClasses p s2)
  let s4 := putRoutes secs (planeBits false p) true s3
  let s5 := (portRecs secs).foldl (putIngress p) (clearIngress p s4)
  sparesShow (((preloadRecs secs).foldl putPreload s5).setObj 0x3600 0x11 h.personality)

/-- A motif as a region's reset leaves it: its matching stores, ready lists, store buffer, pricking log and everything in flight are gone; scratchpad,
stores, fault counts and spare assignment stay (R276 step 3). -/
def resetMotif (x : Motif) : Motif :=
  { x with cells := [], outs := [], sb := [], log := [], gathers := [], parts := [], mism := [], closes := [], shuttleIn := [], replays := [], decided := [], serving := [],
           bankWaits := [], remaps := [], streaming := [], sbOver := false, offline := true }

/-- PERSONALITY_ACTIVE and PERSONALITY_IDLE after motifs have been written (R292): a plane that holds no context shows 0 if it is the idle one, a plane
whose contexts all stand in the motifs written, by an image that fills it, shows the image's PERSONALITY_ID, and any other plane keeps what it shows
(DESIGN CHOICE, log 157). -/
def planeIds (ms : List Nat) (full : Bool) (id : Nat) (s : State) : State :=
  let whole := fun (b : Bool) => let u := planeMotifs b s; !u.isEmpty && u.all (fun m => ms.contains m)
  let s1 := if whole s.activeB then s.setObj 0x3600 0x10 id else s
  idleShow (if full ∧ whole (!s.activeB) then s1.setObj 0x3600 0x11 id else s1)

/-- Region reload, steps 3 and 4 (R276): the region in reset, and the image in its motifs. -/
def writeRegion (bs : List Byte) (s : State) : State :=
  let h := headerOf bs
  let secs := (scanImage bs).secs
  let p := s.activeB
  let s1 := h.motifList.foldl (fun st m => (st.setMotif m (resetMotif (st.motif m))).setCore m { st.core m with started := false }) s
  let s2 := (secsOf secs 7).foldl putHoop s1
  let s3 := (secsOf secs 4).foldl putShared s2
  let s4 := h.motifList.foldl (fun st m =>
    clearHalf m true (clearHalf m false (st.setMotif m (putMotif h secs p m (clearMotifPlane false (clearMotifPlane true (st.motif m))))))) s3
  let s5 := putPrograms h secs p s4
  let s6 := (planesOf h.full p).foldl (fun st q => putClasses secs q st) s5
  let s7 := putRoutes secs (planeBits h.full p) true s6
  let s8 := (portRecs secs).foldl putPort s7
  let s9 := (planesOf h.full p).foldl (fun st q => (portRecs secs).foldl (putIngress q) st) s8
  planeIds h.motifList h.full h.personality (sparesShow (motifsShow ((preloadRecs secs).foldl putPreload s9)))

end Sys2Proof.Machine
end

