-- ==== Sys2Proof/Machine/LoadOps.lean ====
section
/-! DEFINITION. Image transfers (R259, R262, R268, R270), region reloads (R276) and the changeover (R283 to R291). -/

namespace Sys2Proof.Machine
open Sys2Proof

/-! ## Transfers -/

/-- The transfer record replaced. -/
def State.setLoad (s : State) (l : Load) : State := { s with load := l }

/-- A transfer of a kind begins (R262): RECEIVING, nothing received. -/
def beginLoad (kind slot source total : Nat) (s : State) : State :=
  let s1 := s.setLoad { s.load with active := true, kind := kind, slot := slot, source := source, total := total, buf := [], whole := false }
  (((s1.setObj 0x3601 1 1).setObj 0x3601 2 0).setObj 0x3601 3 0).setObj 0x3601 4 0

/-- The device may begin a transfer of this kind from this source now (R268, R270, R276, R285): a device load while S11 waits for one, a region
reload while the changeover is IDLE, a shadow-plane load while it is LOADING from this source, a recipe store into a slot there
is, not while an update is SCHEDULED (R494). -/
def mayBegin (s : State) (kind slot source : Nat) : Bool :=
  !s.load.active && s.load.region.isNone && s.load.locking.isNone &&
    (if kind = 0 then s.start.waitLoad && source == 0
     else if kind = 1 then s.fabric && s.obj 0x3600 1 == 0
     else if kind = 2 then s.obj 0x3600 1 == 1 && s.obj 0x3600 4 == source
     else decide (slot < recipeSlots s) && s.obj 0x5800 1 != 5)

/-- Image bytes arrive in order; checks 1 to 5 run on what has come, and the first failure shows at once (R259). -/
def loadBytes (bs : List Byte) (s : State) : State :=
  let l := s.load
  let buf := l.buf ++ bs
  let s1 := (s.setLoad { l with buf := buf }).setObj 0x3601 4 buf.length
  if s1.obj 0x3601 2 ≠ 0 then s1
  else match checkArriving (s.obj 0x3601 6) buf with
    | none => s1
    | some r => (s1.setObj 0x3601 2 r.code).setObj 0x3601 3 r.detail

/-- The last byte has come: checks 6 onward run (R259). -/
def loadWhole (s : State) : State := (s.setLoad { s.load with whole := true }).setObj 0x3601 1 2

/-- The transfer is discarded, state NONE (Table 7.6). -/
def abortLoad (s : State) : State := (s.setLoad { s.load with active := false, buf := [], whole := false }).setObj 0x3601 1 0

/-- A load from a recipe slot: the image is read whole (R270). -/
def loadRecipe (kind slot : Nat) (s : State) : State :=
  let img := (mfind s.flash.recipes slot).getD []
  loadWhole (loadBytes img (beginLoad kind slot 1 img.length s))

/-- A load sampler record (Table 11.4) for kinds 0 to 2. -/
def loadRecord (code kind personality : Nat) (s : State) : State :=
  if 2 < kind then s else sample 0x0A (leBytes code 1 ++ leBytes kind 1 ++ leBytes 0 2 ++ leBytes personality 4) s

/-- The transfer ends with a result: DONE, or REFUSED with its code (R259). -/
def endLoad (r : Option Refuse) (s : State) : State :=
  let kind := s.load.kind
  let id := if s.load.buf.length < 64 then 0 else (headerOf s.load.buf).personality
  let s1 := s.setLoad { s.load with active := false, buf := [], whole := false }
  match r with
  | none => loadRecord 0 kind id (((s1.setObj 0x3601 1 3).setObj 0x3601 2 0).bump 0x3601 0x0B)
  | some f => loadRecord f.code kind id (((s1.setObj 0x3601 1 4).setObj 0x3601 2 f.code).setObj 0x3601 3 f.detail)

/-- A recipe write's jobs (R270): the slot's old content is erased, then the image programmed. -/
def storeRecipe (slot : Nat) (img : List Byte) (s : State) : State :=
  let old := ((mfind s.flash.recipes slot).getD []).length
  flashQueue (eraseJobs (recipeAddr slot) (max img.length old) 2 ++ programJobs (recipeAddr slot) img.length 2 (.recipe slot img)) s

/-! ## Region reload (R276) -/

/-- The classes of the active plane whose MEMBERS intersect a motif mask. -/
def regionClasses (s : State) (mask : Nat) : List Nat := (List.range 64).filter (fun c => (s.cls s.activeB c).members &&& mask != 0)

/-- Step 1: those classes become OFFLINE. -/
def regionOffline (img : List Byte) (s : State) : State :=
  let s1 := (regionClasses s (s.obj 0x3601 8)).foldl (fun st c => st.setObj (0x3400 + c) 1 3) s
  s1.setLoad { s1.load with region := some img }

/-- REGION_DRAINED (R276 steps 2 to 4): no transaction of those classes is in flight; the region is held in reset and written. -/
def execRegionDrained (s : State) : Host.Outcome State Fault Refusal :=
  match s.load.region with
  | none => done s
  | some img =>
    if (regionClasses s (headerOf img).motifs).all (fun c => s.obj (0x3400 + c) 0x14 == 0) then
      done ((writeRegion img s).setLoad { s.load with region := none, locking := some img })
    else done s

/-- REGION_LEAVE_RESET (R276 step 5): the motifs leave reset, their shuttles start, and the image's classes leave OFFLINE (R135). -/
def execRegionLeaveReset (s : State) : Host.Outcome State Fault Refusal :=
  match s.load.locking with
  | none => done s
  | some img =>
    let h := headerOf img
    let s1 := h.motifList.foldl (fun st m => startCore m (st.setMotif m { st.motif m with offline := false })) s
    let s2 := (classRecs (scanImage img).secs).foldl (fun st e => classOn e.1 st) s1
    let s3 := s2.setLoad { s2.load with locking := none, active := true, kind := 1, buf := img }
    done (endLoad none s3)

/-! ## Changeover (R283 to R291) -/

/-- T_c (0x3600:03). -/
def tC (s : State) : Nat := s.obj 0x3600 3

/-- The effect of a write of CONTROL (Table 7.10): 1 START_LOAD from IDLE, of a recipe only while no other transfer runs (R268), 2
acknowledge from ABANDONED or REFUSED. -/
def writeControl (v : Nat) (s : State) : Reply :=
  let st := s.obj 0x3600 1
  if v = 1 then
    if st ≠ 0 ∨ s.obj 0x5800 1 = 5 ∨ (s.obj 0x3600 4 = 1 ∧ (s.load.active ∨ s.load.region.isSome ∨ s.load.locking.isSome)) then .refuse s abortState
    else
      let s1 := coState 1 (s.setObj 0x3600 0x0A 0)
      .ok (if s1.obj 0x3600 4 = 1 then loadRecipe 2 (s1.obj 0x3600 5) s1 else s1)
  else if v = 2 then (if st = 6 ∨ st = 7 then .ok (coState 0 (s.setObj 0x3600 0x0A 0)) else .refuse s abortState)
  else .refuse s abortValue

/-- CONTROL_START_LOAD (R285). -/
def execControlStartLoad (path : Nat) (s : State) : Host.Outcome State Fault Refusal := done (sdoWrite path 0x3600 9 1 1 (writeControl 1) s)

/-- CONTROL_ACKNOWLEDGE (R285). -/
def execControlAcknowledge (path : Nat) (s : State) : Host.Outcome State Fault Refusal := done (sdoWrite path 0x3600 9 1 2 (writeControl 2) s)

/-- CO_ID and T_c are locked from ARMED onward: ARMED, COMMITTED, SWITCHED, and ABANDONED, which only those lead to (R285, R286). -/
def coLocked (s : State) : Bool := decide (3 ≤ s.obj 0x3600 1) && decide (s.obj 0x3600 1 ≤ 6)

/-- The effect of a write of CO_ID (R286). -/
def writeCoId (v : Nat) (s : State) : Reply := if coLocked s then .refuse s abortState else .ok (s.setObj 0x3600 2 v)

/-- The effect of a write of T_c (R286). -/
def writeTc (v : Nat) (s : State) : Reply :=
  if coLocked s then .refuse s abortState else if v < s.t + 2000000 then .refuse s abortValue else .ok (s.setObj 0x3600 3 v)

/-- CO_ID_WRITE (R286). -/
def execCoIdWrite (path v : Nat) (s : State) : Host.Outcome State Fault Refusal := done (sdoWrite path 0x3600 2 2 v (writeCoId v) s)

/-- T_C_WRITE (R286). -/
def execTCWrite (path v : Nat) (s : State) : Host.Outcome State Fault Refusal := done (sdoWrite path 0x3600 3 8 v (writeTc v) s)

/-- CHANGEOVER_ARM (R286): a unit in LOADED whose conditions hold becomes ARMED. -/
def execChangeoverArm (s : State) : Host.Outcome State Fault Refusal :=
  if s.obj 0x3600 1 = 2 ∧ s.obj 0x3600 2 ≠ 0 ∧ s.t + 2000000 ≤ tC s ∧ (s.obj 0x2100 2 = 2 ∨ s.obj 0x3600 6 = 1) then done (coState 3 s) else done s

/-- A COMMIT by this path counts (R287): EtherCAT paths always, the others in LOCAL mode. -/
def commitCounts (s : State) (path : Nat) : Bool := path == 0 || (decide (path < 3) && s.obj 0x3600 6 == 1)

/-- The partner is known to be ABANDONED for this CO_ID, at or before T_c − 100,000 ns (R290). -/
def partnerGone (s : State) : Bool := s.ports.partner == some (s.obj 0x3600 2, 6) && decide (s.t + 100000 ≤ tC s)

/-- COMMITTED entered (R287); a partner known as ABANDONED takes the unit to ABANDONED at once (R290). -/
def coCommit (s : State) : State :=
  let s1 := coState 4 s
  if partnerGone s1 then coAbandon 4 s1 else s1

/-- The effect of a write of COMMIT by a path (R287): a value that differs from CO_ID is ignored. -/
def writeCommit (path v : Nat) (s : State) : Reply :=
  let s1 := s.setObj 0x3600 7 v
  if s.obj 0x3600 1 = 3 ∧ v = s.obj 0x3600 2 ∧ s.t + 1000000 ≤ tC s ∧ commitCounts s path then .ok (coCommit s1) else .ok s1

/-- COMMIT_WRITE (R287). -/
def execCommitWrite (path v : Nat) (s : State) : Host.Outcome State Fault Refusal := done (sdoWrite path 0x3600 7 2 v (writeCommit path v) s)

/-- The effect of a write of CANCEL (R289): a write of CO_ID after T_c − 100,000 ns is refused. -/
def writeCancel (v : Nat) (s : State) : Reply :=
  if (s.obj 0x3600 1 = 4 ∨ s.obj 0x3600 1 = 5) ∧ v = s.obj 0x3600 2 then
    if s.obj 0x3600 1 = 4 ∧ s.t + 100000 ≤ tC s then .ok (coAbandon 3 (s.setObj 0x3600 8 v)) else .refuse s abortState
  else .ok (s.setObj 0x3600 8 v)

/-- CANCEL_WRITE (R289). -/
def execCancelWrite (path v : Nat) (s : State) : Host.Outcome State Fault Refusal := done (sdoWrite path 0x3600 8 2 v (writeCancel v) s)

/-- PREPARE_DEADLINE (R288): still ARMED after T_c − 1,000,000 ns. -/
def execPrepareDeadline (s : State) : Host.Outcome State Fault Refusal :=
  if s.obj 0x3600 1 = 3 ∧ tC s < s.t + 1000000 then done (coAbandon 1 s) else done s

/-- An OFFLINE class whose motifs the new plane's load has configured (R516): none of its members is offline, and no region reload drains it (R276). -/
def classBack (s : State) (c : Nat) : Bool :=
  s.classState c == 3 && s.load.region.isNone &&
    (List.range 64).all (fun m => !bit (s.cls s.activeB c).members m || !(s.motif m).offline)

/-- The states of the classes as the new plane has them (R135, R165): one it does not declare is UNUSED, one it declares comes into use, out of OFFLINE too
once its motifs are configured (R516). -/
def classesOn (s : State) : State :=
  (List.range 64).foldl (fun st c =>
    if !(st.cls st.activeB c).declared then st.setObj (0x3400 + c) 1 0
    else if st.classState c = 0 ∨ classBack st c then classOn c st else st) s

/-- A shuttle that had no program runs from now on (R331, Table 8.17). -/
def wakeShuttle (m : Nat) (s : State) : State := if (s.core m).state = 3 then fzShowState m 0 (s.setCore m { s.core m with state := 0 }) else s

/-- CHANGEOVER_INSTANT (R281 to R283, R331): at T_c the planes change roles, the new plane's timers and shuttle halves start, and the supervisors see their
interrupt source 1. T_r is fixed here: a later write of RETIRE_DELAY does not move it (DESIGN CHOICE, log 153). -/
def execChangeoverInstant (s : State) : Host.Outcome State Fault Refusal :=
  if s.obj 0x3600 1 = 4 ∧ tC s ≤ s.t then
    let b := !s.activeB
    let s1 := (s.setObj 0x3600 0x0B (b2n b)).setObj 0x3600 0x0D (tC s + s.obj 0x3600 0x0C)
    let s2 := (s1.setObj 0x3600 0x10 (s.obj 0x3600 0x11)).setObj 0x3600 0x11 (s.obj 0x3600 0x10)
    let s3 : State := if b then { s2 with timersB := armTimers (tC s) s2.timersB } else { s2 with timersA := armTimers (tC s) s2.timersA }
    let s4 := (List.range 64).foldl (fun st m => if hasProgram (st.core m) b then startShuttleHalf m b (wakeShuttle m st) else st) s3
    let s5 := (List.range 4).foldl (fun st h => st.interrupt (64 + h) 1) s4
    done (motifsShow (classesOn (coState 5 s5)))
  else done s

/-- A bank whose context has ended with its half (R331): it waits, and an interrupt may leave it. -/
def endedBank (planeB : Bool) : FBank := { planeB := planeB, ie := true, wait := .ended }

/-- A shuttle's half of the retired plane ends (R331): its banks are empty, and the other half issues alone. A replay service that runs goes on, and
returns to the half that is left; so does the recovery bank. -/
def retireHalf (c : Nat) (oldB : Bool) (s : State) : State :=
  let x := s.core c
  let gone := fun (k : Nat) => (x.bank k).planeB == oldB && k != 16 && k != 1
  let left := fun (k : Nat) => if gone k then x.other.getD k else k
  let x0 := x.setBank 1 { x.bank 1 with prev := left (x.bank 1).prev }
  let banks := x0.banks.map (fun e => (e.1, if gone e.1 then endedBank (!oldB) else e.2))
  let x1 : Core := { x0 with cur := left x.cur, other := if x.cur = 16 then x.other.filter (fun k => !gone k) else none, banks := banks }
  if hasProgram x oldB && x.started then
    (if hasProgram x (!oldB) then s.setCore c x1 else fzShowState c 3 (s.setCore c { x1 with started := false, state := 3 }))
  else s

/-- On a supervisor the old half's contexts end in the same way (R331); a supervisor left without a context waits for its next interrupt, which it may take
(DESIGN CHOICE, log 156). -/
def retireSupervisor (c : Nat) (oldB : Bool) (s : State) : State :=
  let x := s.core c
  s.setCore c { x with banks := x.banks.map (fun e => (e.1, if e.2.planeB == oldB && e.1 != 16 then endedBank (!oldB) else e.2)) }

/-- Route entries that only the retired plane declared become VALID = 0 under R237; the plane's marks go (R283). -/
def retireRoutes (oldB : Bool) (s : State) : State :=
  let mine := if oldB then 2 else 1
  let only := s.net.declared.filter (fun e => e.2 == mine)
  let s1 := only.foldl (fun st e => if bit (masterEntry st e.1) 31 then startInvalidate 8 e.1 0 st else st) s
  let kept := (s1.net.declared.filter (fun e => e.2 != mine)).map (fun e => (e.1, e.2 &&& (3 - mine)))
  { s1 with net := { s1.net with declared := kept } }

/-- OLD_PLANE_RETIRE (R283): at T_r the old plane becomes the idle plane; its contexts stay loaded, and 0x3600:11 goes on naming them. -/
def execOldPlaneRetire (s : State) : Host.Outcome State Fault Refusal :=
  if s.obj 0x3600 1 = 5 ∧ s.obj 0x3600 0x0D ≤ s.t then
    let oldB := !s.activeB
    let s1 := clearClasses oldB (retireRoutes oldB s)
    let s1' := (List.range 4).foldl (fun st h => retireSupervisor (64 + h) oldB st) s1
    let s2 := (List.range 64).foldl (fun st m => retireHalf m oldB st) s1'
    let s4 := (s2.bump 0x3600 0x0F).setObj 0x3600 0x13 (tC s)
    done (coState 0 s4)
  else done s

/-- The smallest RETIRE_DELAY: the largest OFFSET among the old plane's classes plus 1,000,000 ns (R283); the old plane is the active one before
T_c and the other one while SWITCHED. -/
def retireMin (s : State) : Nat :=
  let oldB := if s.obj 0x3600 1 = 5 then !s.activeB else s.activeB
  ((List.range 64).map (fun c => (s.cls oldB c).offset)).foldl max 0 + 1000000

/-- A vote arrives on a link (R290, R425): the partner's last state is shown; a partner ABANDONED for the same CO_ID takes a COMMITTED unit to
ABANDONED if that is learnt at or before T_c − 100,000 ns. -/
def voteArrives (coId state : Nat) (s : State) : State :=
  let s0 := s.setObj 0x3600 0x12 (state % 8)
  let s1 : State := { s0 with ports := { s0.ports with partner := some (coId, state) } }
  if s.obj 0x3600 1 = 4 ∧ partnerGone s1 then coAbandon 4 s1 else s1

end Sys2Proof.Machine
end

