-- ==== Sys2Proof/Machine/Island.lean ====
section
/-! DEFINITION. The secure island's keys and its security sampler (R249, R250, R499, R500, R505). -/

namespace Sys2Proof.Machine
open Sys2Proof

/-- The island replaced. -/
def State.setIsland (s : State) (x : Island) : State := { s with island := x }

/-- A wipe runs: every mailbox exchange ends as a refusal (R250). -/
def wiping (s : State) : Bool := s.island.wipeEnd.isSome

/-- Room for a record of `n` bytes in the security sampler, with 36 bytes kept (R442, R505). -/
def secRoom (x : Island) (n : Nat) : Bool := decide (recsSize x.recs + n + 36 ≤ Config.securityRoom)

/-- A record stored in the security sampler under its next sequence number. -/
def secStore (typ t : Nat) (payload : List Byte) (s : State) : State :=
  let x := s.island
  s.setIsland { x with recs := x.recs ++ [samplerRec s typ t x.nextSeq payload], nextSeq := (x.nextSeq + 1) % 2 ^ 32 }

/-- A record offered to the security sampler: stored, or lost and counted (R442, R505). -/
def secOffer (typ : Nat) (payload : List Byte) (s : State) : State :=
  let x := s.island
  if !x.stopped && secRoom x (28 + payload.length) then secStore typ s.t payload s
  else s.setIsland { x with stopped := true, lost := x.lost + 1, lossFirstT := if x.lost = 0 then s.t else x.lossFirstT, lossLast := s.now }

/-- First and last sequence numbers of the security sampler (R443). -/
def secFirst (x : Island) : Nat := match x.recs with | [] => x.nextSeq | r :: _ => r.seq

/-- The newest stored number, or FIRST_SEQ − 1. -/
def secLast (x : Island) : Nat := (x.nextSeq + (2 ^ 32 - 1)) % 2 ^ 32

/-- The effect of a write of the security sampler's RELEASE (R443, R505); `none` where it is refused. -/
def secRelease (n : Nat) (s : State) : Option State :=
  let x := s.island
  let off := (n + 1 + 2 ^ 32 - secFirst x) % 2 ^ 32
  if x.recs.length < off then none
  else
    let x1 : Island := { x with recs := x.recs.drop off }
    let s1 := s.setIsland x1
    if off ≠ 0 ∧ x1.stopped ∧ secRoom x1 36 then
      let s2 := secStore 5 x1.lossFirstT (leBytes x1.lost 4 ++ leBytes x1.lossLast.toNat 4) s1
      some (s2.setIsland { s2.island with stopped := false, lost := 0 })
    else some s1

/-- The island is overwritten with zero words (R250): all it holds goes, and the wipe ends within 500 µs. -/
def wipeIsland (s : State) : State := s.setIsland { tampered := s.island.tampered, wipeEnd := some (s.time.clk + 500000) }

/-- The island loaded from the fuses (R498, R499). -/
def loadIsland (s : State) : State :=
  s.setIsland { s.island with keys := true, seed := s.fuses.seed, hashes := s.fuses.hashes, lc := s.fuses.lc }

/-- The unit key's private number, from its seed (R497). -/
def unitKey (s : State) : Nat := s.island.seed

/-- The unit public key, X then Y. -/
def unitPublic (s : State) : List Byte := ecPublic (unitKey s)

end Sys2Proof.Machine
end

