-- ==== Sys2Proof/Machine/Recording.lean ====
section
/-! DEFINITION. Alarm, sampler, trace and journal commands (R435 to R465) and the drives (R201). -/

namespace Sys2Proof.Machine
open Sys2Proof

/-! ## Alarms (R435, R437) -/

/-- ALARM_EVENT (R435): an event reaches latch a. -/
def execAlarmEvent (a : Nat) (s : State) : Host.Outcome State Fault Refusal := done (raise (a % 128) s)

/-- A single-number write would clear latch a (R437). -/
def alarmClearable (s : State) (a : Nat) : Bool := !(alarmIsC a && bit s.conds a)

/-- Latch a cleared: SET, COUNT, FIRST and LAST become 0 (R437); 0x1001 and ALARM_N follow (R375, R438). -/
def clearLatch (a : Nat) (s : State) : State :=
  let s1 : State := { s with alarms := mset {} s.alarms a {} }
  let s2 := if a < 64 then s1.setObjBit 0x5100 1 a false else s1.setObjBit 0x5100 2 (a - 64) false
  alarmNUpdate (s2.setObj 0x1001 0 (errorRegister s2.alarms))

/-- When the last latch of all is cleared, an EMCY message with error code 0 follows (R373). -/
def allClear (before after : State) : State :=
  if before.alarms.any (fun e => e.2.set) && !after.alarms.any (fun e => e.2.set) then
    emcyQueue { code := 0, reg := after.obj 0x1001 0, alarm := 0, stamp := after.now } (errorFieldPush 0 0 after)
  else after

/-- The effect of a write of CLEAR (R437, Table 11.11). -/
def writeAlarmClear (v : Nat) (s : State) : Reply :=
  if v = 255 then .ok (allClear s ((List.range 128).foldl (fun st a => if alarmClearable s a then clearLatch a st else st) s))
  else if 127 < v then .refuse s abortValue
  else if alarmClearable s v then .ok (allClear s (clearLatch v s)) else .refuse s abortState

/-- ALARM_CLEAR_WRITE (R437). -/
def execAlarmClearWrite (path v : Nat) (s : State) : Host.Outcome State Fault Refusal := done (sdoWrite path 0x5100 9 1 v (writeAlarmClear v) s)

/-! ## Sampler (R442 to R446) -/

/-- SAMPLER_RECORD_OFFER (R439, R442): a record of Table 11.4 or 12.14 with the payload size of its type is offered. -/
def execSamplerRecordOffer (typ t : Nat) (payload : FrameData) (s : State) : Host.Outcome State Fault Refusal :=
  if samplerPayload typ = some payload.length then done (emit (.record typ t (payload.map (BitVec.ofNat 8 ·))) s) else done s

/-- The sampler stored a LOSS record, with the records lost since the last one: RECORDING again (R442). -/
def storeLoss (s : State) : State :=
  let pay := leBytes (s.obj 0x5000 5) 4 ++ leBytes s.sampler.lossLast.toNat 4
  let r := samplerRec s 5 s.sampler.lossFirstT s.sampler.nextSeq pay
  let s1 := ((samplerStore s 5 s.sampler.lossFirstT pay).setObj 0x5000 5 0).setObj 0x5000 4 0
  emit (.journal (samplerJournal r)) (setCond 33 false s1)

/-- The effect of a write of RELEASE (R442, R443, R445). -/
def writeRelease (n : Nat) (s : State) : Reply :=
  if s.obj 0x5000 0x0D = 1 then .refuse s abortState
  else
    let first := s.obj 0x5000 1
    let last := s.obj 0x5000 2
    let off := (n + 1 + 2 ^ 32 - first) % 2 ^ 32
    if (last + 1 + 2 ^ 32 - first) % 2 ^ 32 < off then .refuse s abortValue
    else if off = 0 ∨ s.sampler.recs.isEmpty then .ok s
    else
      let s1 := samplerShow { s with sampler := { s.sampler with recs := s.sampler.recs.drop off } }
      .ok (if s1.obj 0x5000 4 = 1 ∧ samplerRoom s1 36 then storeLoss s1 else s1)

/-- SAMPLER_RELEASE_WRITE (R443). -/
def execSamplerReleaseWrite (path n : Nat) (s : State) : Host.Outcome State Fault Refusal := done (sdoWrite path 0x5000 7 4 n (writeRelease n) s)

/-! ## Trace export (R450, R451) -/

/-- Ring blocks that no consumer still needs are freed (R450). -/
def ringFree (s : State) : State :=
  { s with trace := { s.trace with ring := s.trace.ring.filter (fun b => b.needNvme || b.needExport) } }

/-- TRACE_EXPORT_COPY (R451): the oldest ring block not exported is copied into MP memory, where it is ready when all of it has been read from the ring;
not while level 5 is shed (0x2010:03). -/
def execTraceExportCopy (s : State) : Host.Outcome State Fault Refusal :=
  if mpDown s || bit (s.obj 0x2010 3) 1 || s.trace.ring.any (·.exporting) then done s
  else match s.trace.ring.find? (fun b => b.needExport && b.left == 0) with
    | none => done s
    | some b => done (ringRead 2 b.slot (ringSet { b with exporting := true } s))

/-- What a read of EXPORT_BLOCK answers (R451): the copied block, marked taken, or no bytes. -/
def readExport (s : State) : Reply :=
  match s.trace.ready with
  | none => .ok s
  | some b =>
    let ring := s.trace.ring.map (fun x => if x.slot = b.slot then { x with needExport := false, exporting := false } else x)
    { data := partBytes b.forExport, state := ringFree { s with trace := { s.trace with ready := none, ring := ring } } }

/-- TRACE_EXPORT_READ (R451). -/
def execTraceExportRead (path : Nat) (s : State) : Host.Outcome State Fault Refusal :=
  done (sdoServe { path := path, kind := 0, ix := 0x5200, sub := 0x0C } readExport s)

/-! ## Journal (R453 to R463) -/

/-- STATE of 0x5300:01 changes, with alarm 34's condition and the MP's interrupt source 6. -/
def journalState (v : Nat) (s : State) : State :=
  setCond 34 (v == 3 && s.obj 0x5300 5 == 1) ((s.setObj 0x5300 1 v).interrupt 68 6)

/-- The head of the stage leaves: it takes its SEQ in the open block; a GAP record that had no place enters now (R457, R459). -/
def stageLeave (s : State) : State :=
  match s.journal.stage with
  | [] => s
  | r :: rest =>
    let s1 := journalAppend r s
    let k := match s.journal.lastLeft with | none => r.k | some l => max l r.k
    journalGap { s1 with journal := { s1.journal with stage := rest, lastLeft := some k } }

/-- JOURNAL_RECORD_LEAVE (R457): the time replica has reached K + 1,000,000 ns of the first record. -/
def execJournalRecordLeave (s : State) : Host.Outcome State Fault Refusal :=
  match s.journal.stage with
  | [] => done s
  | r :: _ => if r.k + 1000000 ≤ s.t then done (stageLeave s) else done s

/-- The blocks that are full, then the open one, are written. -/
def journalFlush (s : State) : State :=
  let s1 := s.journal.full.foldl (fun st rs => journalBlockWrite rs st) { s with journal := { s.journal with full := [] } }
  journalBlockWrite s1.journal.openRecs { s1 with journal := { s1.journal with openRecs := [] } }

/-- JOURNAL_BLOCK_WRITE (R460): a full block is written, else the open block 10 ms after its first record. -/
def execJournalBlockWrite (s : State) : Host.Outcome State Fault Refusal :=
  if s.obj 0x5300 1 ≠ 2 then done s
  else match s.journal.full with
    | rs :: rest => done (journalBlockWrite rs { s with journal := { s.journal with full := rest } })
    | [] =>
      if s.journal.openRecs.isEmpty = false ∧ s.journal.openSince + 10000000 ≤ s.time.clk then
        done (journalBlockWrite s.journal.openRecs { s with journal := { s.journal with openRecs := [] } })
      else done s

/-- The next SEQ after those the index knows. -/
def seqAfter (gs : List JSeg) : Nat := ((gs.filter (fun g => g.area == 1)).map (fun g => g.firstSeq + g.count)).foldl max 0

/-- The sum of the SEGSEQ of an index copy (R462). -/
def indexSum (v : DriveVol) : Nat := (v.index.map (fun e => e.2.segSeq)).foldl (· + ·) 0

/-- The MOUNT record (Table 11.8). -/
def mountRecord (n resumed t : Nat) : JRec := { typ := 6, t := t, k := t, payload := leBytes n 4 ++ leBytes resumed 8 }

/-- What a scan knows of a segment is newer than what is held of it: a later use of it, or as many records of the same (R462). -/
def JSeg.newer (g old : JSeg) : Bool := decide (old.segSeq < g.segSeq) || (g.segSeq == old.segSeq && decide (old.count ≤ g.count))

/-- What is found of a segment, kept where it is newer. -/
def segFound (m : SMap JSeg) (n : Nat) (g : JSeg) : SMap JSeg := if g.newer (mget {} m n) then mput m n g else m

/-- The volume is mounted (R462, R463): both superblocks carry the same VOLUME_ID, the better index and what the blocks after it show are taken, a new
segment is opened in each area, and the GAP of lost records and the MOUNT record are written. -/
def mount (s : State) : State :=
  let v0 := s.vol 0
  let v1 := s.vol 1
  if s.obji 0 0x4400 2 = 1 ∧ s.obji 1 0x4400 2 = 1 ∧ v0.valid ∧ v1.valid ∧ v0.id = v1.id then
    let best := if indexSum v1 ≤ indexSum v0 then v0 else v1
    let found := v0.found ++ v1.found
    let segs := found.foldl (fun m e => segFound m e.1 e.2) best.index
    let top := (segs.map (fun e => e.2.segSeq)).foldl max 0
    let n := dataSegs best.mode best.segs
    let j := s.journal
    let j1 : Journal := { j with stage := [], lastLeft := none, openRecs := [], full := [], segs := segs, jSeg := 0, trSeg := 0, segSeq := top, volSegs := n,
                                 traceSegs := best.traceSegs, waiting := [], flight := [], lost := [], nextSeq := seqAfter (segs.map (·.2)) }
    let s1 := (((s.setJournal j1).setObj 0x5300 2 best.mode).setObj 0x5300 4 n).setObj 0x5300 0x0C best.id
    let s2 := setDegraded 6 false ((s1.setObj 0x3703 1 (if best.mode = 1 then 4 else 0)).setObj 0x3703 2 100)
    let s3 := openSegment 1 (journalState 2 s2)
    let s4 := if best.traceSegs = 0 then s3 else openSegment 2 s3
    let s5 := journalGap s4
    let s6 := emit (.journal (mountRecord best.segs top s5.t)) s5
    (s6.trace.ring.filter (fun b => b.needNvme && b.forNvme.length == 16)).foldl (fun st b => traceWrite b st) s6
  else journalState 0 s

/-- Segments a drive offers: ⌊C / 64 MiB⌋ of at most 32 TB (R453). -/
def driveSegments (s : State) : Nat := min (min (s.obji 0 0x4400 5) (s.obji 1 0x4400 5)) 32000000000000 / 67108864

/-- A read of a block is issued to a drive (R461, priority 2). -/
def nvRead (path drive seg block : Nat) (s : State) : State :=
  let j := s.journal
  nvIssue (s.setJournal { j with cmdId := j.cmdId + 1, waiting := j.waiting ++ [{ id := j.cmdId, drive := drive, prio := 2, kind := 5, seg := seg, block := block, path := path }] })

/-- Other copies of a write are still to complete. -/
def copiesLeft (s : State) (id : Nat) : Bool := (s.journal.waiting ++ s.journal.flight).any (fun c => c.id == id)

/-- A block has completed on every drive of the mode (R460): journal records are durable; a trace block has been taken (R450). -/
def blockDone (c : NvCmd) (s : State) : State :=
  if c.kind = 0 then (s.addObjW 64 0x5300 8 c.records).peak 0x5300 0x0D c.durK
  else if c.kind = 1 then
    let ring := s.trace.ring.map (fun x => if x.slot = c.ring then { x with needNvme := false } else x)
    ringFree (({ s with trace := { s.trace with ring := ring } } : State).bump 0x5200 0x0B)
  else if c.kind = 4 then (if s.obj 0x5300 1 = 4 then (if s.obj 0x5300 5 = 1 then mount s else journalState 3 s) else s)
  else s

/-- What a completed write leaves on its drive. -/
def driveStore (c : NvCmd) (s : State) : State :=
  let v := s.vol c.drive
  let key := 16384 * driveSeg s c.seg + c.block
  let v1 : DriveVol :=
    if c.kind = 3 then { v with index := mput v.index c.seg c.info, found := mdel v.found c.seg }
    else if c.kind = 4 then { valid := true, id := c.info.firstSeq, mode := c.info.area, segs := c.info.number, traceSegs := c.info.count, formatT := c.info.firstK }
    else { v with found := segFound v.found c.seg c.info, blocks := mput v.blocks key c.bytes }
  (s.setVol c.drive v1).setObji c.drive 0x4400 0x0D (satAdd 64 (s.obji c.drive 0x4400 0x0D) 4096)

/-- 1,024 free words as 4,096 bytes: a block nothing has written. -/
def freeBlock (s : State) : List Byte × State :=
  ((List.range 1024).flatMap (fun i => leBytes (Config.freeWord (s.free + i)).toNat 4), { s with free := s.free + 1024 })

/-- A read of a block has completed: its bytes answer the path. -/
def readDone (c : NvCmd) (s : State) : State :=
  let key := 16384 * driveSeg s c.seg + c.block
  match ((s.vol c.drive).blocks.find? (fun e => e.1 == key)) with
  | some e => answered c.path { data := e.2, state := s }
  | none => let (bs, s1) := freeBlock s; answered c.path { data := bs, state := s1 }

/-- A read that failed is served from the other drive in mirrored mode (R201), else it is answered as a hardware error. -/
def readFailed (c : NvCmd) (s : State) : State :=
  if !striped s && !s.journal.lost.contains (1 - c.drive) && s.obji (1 - c.drive) 0x4400 2 == 1 && c.tries < 4 then
    let j := s.journal
    nvIssue ((s.setJournal { j with waiting := j.waiting ++ [{ c with drive := 1 - c.drive, tries := 4 }] }).bump 0x3703 3)
  else answered c.path (.refuse s abortHardware)

/-- A journal stopped by ENABLE has written everything. -/
def stopWhenFlushed (s : State) : State :=
  if s.obj 0x5300 1 = 2 ∧ s.obj 0x5300 5 = 0 ∧ (s.journal.waiting ++ s.journal.flight).all (fun c => c.prio != 1) then journalState 3 s else s

/-- A command that leaves a lost drive: its read goes to the other drive; its write needs this copy no longer in mirrored mode. -/
def orphanCmd (s : State) (c : NvCmd) : State :=
  if c.kind = 5 then readFailed c s
  else if !striped s && !copiesLeft s c.id && s.journal.lost.length < 2 then blockDone c s else s

/-- One command of each block that was to be written. -/
def blocksOf (cs : List NvCmd) : List NvCmd :=
  (cs.filter (fun c => c.kind == 0)).foldl (fun acc c => if acc.any (fun x => x.id == c.id) then acc else acc ++ [c]) []

/-- Records with keys from k0 to k1 lost, to be covered by a GAP record (R463). -/
def journalLostRange (n k0 k1 : Nat) (s : State) : State :=
  let j := s.journal
  s.setJournal { j with dropped := j.dropped + n, dropFirstK := if j.dropped = 0 then k0 else j.dropFirstK, dropLastK := k1 }

/-- A record that the engine holds is lost with the volume; a GAP record hands on what it covers, which is counted already. -/
def journalForget (r : JRec) (s : State) : State :=
  if r.typ = 5 then journalLostRange (leNat (r.payload.take 4)) r.k (leNat ((r.payload.drop 16).take 8)) s else journalDropped r s

/-- What the engine holds when the volume stops with a drive's loss: the blocks `cs` not yet on every drive and the records not yet in a block are lost, and
a GAP record will cover them (R463). -/
def journalLose (cs : List NvCmd) (s : State) : State :=
  let s1 := (blocksOf cs).foldl (fun st c => (journalLostRange c.records c.firstK c.durK st).addObj 0x5300 0x0A c.records) s
  let held := s1.journal.full.flatten ++ s1.journal.openRecs ++ s1.journal.stage
  held.foldl (fun st r => journalForget r st) (s1.setJournal { s1.journal with full := [], openRecs := [], stage := [] })

/-- The engine declares drive d lost (R201, R463). -/
def driveLost (d : Nat) (s : State) : State :=
  if s.journal.lost.contains d || s.obj 0x5300 1 == 0 then s
  else
    let j := s.journal
    let mine := (j.flight ++ j.waiting).filter (fun c => c.drive == d)
    let s1 := s.setJournal { j with lost := d :: j.lost, flight := j.flight.filter (fun c => c.drive != d), waiting := j.waiting.filter (fun c => c.drive != d) }
    let s2 := setDegraded 6 true (if striped s then s1 else s1.setObj 0x3703 1 (d + 1))
    let s3 := mine.foldl orphanCmd s2
    if striped s || 2 ≤ s3.journal.lost.length then
      let left := (if striped s then mine else []) ++ s3.journal.flight ++ s3.journal.waiting
      let s4 := journalState 3 (journalLose left (s3.setJournal { s3.journal with waiting := [], flight := [] }))
      (s3.journal.flight ++ s3.journal.waiting).foldl (fun st c => if c.kind = 5 then answered c.path (.refuse st abortHardware) else st) s4
    else nvIssue (stopWhenFlushed s3)

/-- The n-th command in flight on a drive. -/
def flightCmd (s : State) (drive n : Nat) : Option NvCmd := (s.journal.flight.filter (fun c => c.drive == drive))[n]?

/-- The command is no longer in flight. -/
def nvDrop (c : NvCmd) (s : State) : State := s.setJournal { s.journal with flight := s.journal.flight.erase c }

/-- The n-th command in flight on a drive completes; `failed` marks a media error (R460, R201). -/
def nvmeComplete (drive n : Nat) (failed : Bool) (s : State) : State :=
  match flightCmd s drive n with
  | none => s
  | some c =>
    let s1 := nvDrop c s
    if failed then
      let s2 := s1.setObji drive 0x4400 0x0A (satAdd 32 (s1.obji drive 0x4400 0x0A) 1)
      if c.kind = 5 then nvIssue (readFailed c s2)
      else driveLost drive (s2.setJournal { s2.journal with waiting := c :: s2.journal.waiting })
    else if c.kind = 5 then nvIssue (readDone c s1)
    else
      let s2 := driveStore c s1
      nvIssue (stopWhenFlushed (if copiesLeft s2 c.id then s2 else blockDone c s2))

/-- A command in flight for 2 s has timed out; the third time loses the drive (R452, R201). -/
def nvmeTimeout (drive n : Nat) (s : State) : State :=
  match flightCmd s drive n with
  | none => s
  | some c =>
    if s.time.clk < c.issued + 2000000000 then s
    else
      let s1 := (nvDrop c s).bumpi drive 0x4400 9
      let c1 := { c with tries := c.tries + 1, issued := s.time.clk }
      let s2 := s1.setJournal { s1.journal with flight := s1.journal.flight ++ [c1] }
      if c1.tries % 4 = 3 then driveLost drive s2 else s2

/-- The segment of the volume that READ_SEGSEQ names. -/
def readSegment (s : State) : Option JSeg := (s.journal.segs.map (·.2)).find? (fun g => g.segSeq == s.obj 0x5300 0x0E && g.segSeq != 0)

/-- A read of BLOCK_DATA starts (R461, Table 11.13): a segment that is not held is refused. -/
def startBlockRead (path : Nat) (s : State) : Sum Nat State :=
  match readSegment s with
  | none => .inl abortValue
  | some g =>
    match segDrives s g.number with
    | [] => .inl abortHardware
    | d :: _ => .inr (nvRead path d g.number (s.obj 0x5300 0x0F) s)

/-- JOURNAL_BLOCK_READ (R461). -/
def execJournalBlockRead (path : Nat) (s : State) : Host.Outcome State Fault Refusal :=
  done (sdoAct { path := path, kind := 0, ix := 0x5300, sub := 0x10 } (startBlockRead path) s)

/-- The effect of a write of FORMAT (R453, Table 11.13): refused while RUNNING and without two drives; a new VOLUME_ID; the superblocks are written, and
the volume is mounted when they are. -/
def writeFormat (v : Nat) (s : State) : Reply :=
  if s.obj 0x5300 1 = 2 ∨ s.obji 0 0x4400 2 = 0 ∨ s.obji 1 0x4400 2 = 0 then .refuse s abortState
  else if v ≠ 1 ∧ v ≠ 2 then .refuse s abortValue
  else
    let n := driveSegments s
    let id := Config.random s.free % 2 ^ 32
    let tr := min (s.obj 0x5200 0x0D) (n - 2)
    let info : JSeg := { number := n, area := v - 1, count := tr, firstSeq := id, firstK := s.t }
    let s1 : State := { s with free := s.free + 1 }
    let s2 := s1.setJournal { s1.journal with segs := [], waiting := [], flight := [], lost := [], jSeg := 0, trSeg := 0, segSeq := 0, nextSeq := 0 }
    let s3 := journalState 4 (s2.setObj 0x5300 2 (v - 1))
    .ok (nvWrite { prio := 1, kind := 4, info := info, bytes := superBytes (v - 1) n tr s.t id } s3)

/-- FORMAT_MIRRORED (R453). -/
def execFormatMirrored (path : Nat) (s : State) : Host.Outcome State Fault Refusal := done (sdoWrite path 0x5300 3 1 1 (writeFormat 1) s)

/-- FORMAT_STRIPED (R453). -/
def execFormatStriped (path : Nat) (s : State) : Host.Outcome State Fault Refusal := done (sdoWrite path 0x5300 3 1 2 (writeFormat 2) s)

/-- The effect of a write of FALSE to ENABLE (Table 11.13): flush, then STOPPED; FALSE over FALSE has none (R350). -/
def writeJournalEnableFalse (s : State) : Reply :=
  if s.obj 0x5300 5 = 0 then .ok s
  else
    let s1 := s.setObj 0x5300 5 0
    if s.obj 0x5300 1 = 2 then .ok (stopWhenFlushed (journalFlush ((List.range s1.journal.stage.length).foldl (fun st _ => stageLeave st) s1)))
    else .ok (setCond 34 false s1)

/-- A write of TRUE while the journal is STOPPED or has no volume mounts it, even where ENABLE is TRUE already, if both drives are present (R463; DESIGN
CHOICE, log 159). -/
def writeJournalEnableTrue (s : State) : Reply :=
  let s1 := s.setObj 0x5300 5 1
  if (s.obj 0x5300 1 = 3 ∨ s.obj 0x5300 1 = 0) ∧ s.obji 0 0x4400 2 = 1 ∧ s.obji 1 0x4400 2 = 1 then .ok (mount s1) else .ok (setCond 34 (s.obj 0x5300 1 == 3) s1)

/-- JOURNAL_ENABLE_TRUE (R463). -/
def execJournalEnableTrue (path : Nat) (s : State) : Host.Outcome State Fault Refusal := done (sdoWrite path 0x5300 5 1 1 writeJournalEnableTrue s)

/-- JOURNAL_ENABLE_FALSE (R465, Table 11.13). -/
def execJournalEnableFalse (path : Nat) (s : State) : Host.Outcome State Fault Refusal := done (sdoWrite path 0x5300 5 1 0 writeJournalEnableFalse s)

/-- What a drive holds of segment `g`: its index entry, what its blocks show without one, and the blocks. -/
def DriveVol.part (v : DriveVol) (g : Nat) : SMap JSeg × SMap JSeg × SMap (List Byte) :=
  (v.index.filter (fun e => e.1 == g), v.found.filter (fun e => e.1 == g), v.blocks.filter (fun e => e.1 / 16384 == g))

/-- The superblock's fields, which fill segment 0. -/
def DriveVol.super (v : DriveVol) : DriveVol := { v with index := [], found := [], blocks := [] }

/-- The segments that either drive holds something of; 0 is the superblock's. -/
def usedSegments (a b : DriveVol) : List Nat :=
  let keys := (a.index ++ a.found ++ b.index ++ b.found : List (Nat × JSeg)).map (·.1)
  let blocks := (a.blocks ++ b.blocks : List (Nat × List Byte)).map (fun e => e.1 / 16384)
  (0 :: keys ++ blocks).eraseDups

/-- A segment is not yet the same on both drives. -/
def segDiffers (a b : DriveVol) (g : Nat) : Bool := a.part g != b.part g || (g == 0 && a.super != b.super)

/-- Entries of a map put into another. -/
def putAll {α : Type} (old new : SMap α) : SMap α := new.foldl (fun m e => mput m e.1 e.2) old

/-- A segment of the drive `v` copied onto the drive `w`. -/
def copySegment (v w : DriveVol) (g : Nat) : DriveVol :=
  let w1 : DriveVol := if g = 0 then { v.super with index := w.index, found := w.found, blocks := w.blocks } else w
  { w1 with index := putAll (w.index.filter (fun e => e.1 != g)) (v.part g).1, found := putAll (w.found.filter (fun e => e.1 != g)) (v.part g).2.1,
            blocks := putAll (w.blocks.filter (fun e => e.1 / 16384 != g)) (v.part g).2.2 }

/-- DRIVE_RESYNC_COMPLETE (R201, R202): the next `n` segments that the replacement drive does not hold alike are copied to it; 0x3703:01 shows 3 and
0x3703:02 the share of the segments in use that are alike (DESIGN CHOICE, log entry 127). When all are, the copy is complete and mirroring resumes. No copy is
made while a command of priority 1 or 2 waits (R461). -/
def execDriveResyncComplete (drive n : Nat) (s : State) : Host.Outcome State Fault Refusal :=
  let d := drive % 2
  if s.obj 0x5300 1 = 2 ∧ !striped s ∧ s.journal.lost.contains d ∧ !s.journal.lost.contains (1 - d) ∧ !s.journal.waiting.any (fun c => decide (c.prio ≤ 2)) then
    let v := s.vol (1 - d)
    let used := usedSegments v (s.vol d)
    let w := ((used.filter (segDiffers v (s.vol d))).take n).foldl (copySegment v) (s.vol d)
    let left := (used.filter (segDiffers v w)).length
    let s1 := (s.setVol d w).setObji d 0x4400 2 1
    if left = 0 then
      let s2 := s1.setJournal { s.journal with lost := s.journal.lost.filter (fun x => x != d) }
      done (setDegraded 6 false ((s2.setObj 0x3703 1 0).setObj 0x3703 2 100))
    else done ((s1.setObj 0x3703 1 3).setObj 0x3703 2 (100 * (used.length - left) / used.length))
  else done s

end Sys2Proof.Machine
end

