-- ==== Sys2Proof/Machine/PowerOps.lean ====
section
/-! DEFINITION. Power domains (R514 to R519) and the supply and temperature measurements (R512, R526, R529, R531). -/

namespace Sys2Proof.Machine
open Sys2Proof

/-! ## Domains (Table 13.9) -/

/-- On time of a domain in nanoseconds. -/
def domainOnNs (d : Nat) : Nat :=
  1000 * (if d ≤ 8 then 60 else if d = 11 then 100 else if d = 12 ∨ d = 13 then 50 else if d = 15 then 40 else 30)

/-- Off time of a domain in nanoseconds. -/
def domainOffNs (d : Nat) : Nat := 1000 * (if d = 11 then 5 else 2)

/-- Host software may never switch the domain (Table 13.9). -/
def domainFixed (d : Nat) : Bool := d == 9 || d == 10 || d == 14 || decide (17 ≤ d) || d == 0

/-- PDd is ON (0x2200:0B). -/
def domainOn (s : State) (d : Nat) : Bool := bit s.power.on d

/-- The hoop half of a motif as its domain number (Tables 1.2, 13.9). -/
def halfOf (m : Nat) : Nat := 1 + 2 * hoopOf m + (if 2 ≤ m / 8 % 4 then 1 else 0)

/-- The motifs of domain d. -/
def halfMotifs (d : Nat) : List Nat := (List.range 64).filter (fun m => halfOf m == d)

/-- A domain bit of DOMAIN_STATE set or cleared. -/
def setDomain (d : Nat) (v : Bool) (s : State) : State := { s with power := { s.power with on := withBit s.power.on d v } }

/-- HALF_A or HALF_B (0x3100 + h:03, :04): 0 OFF, 1 ON, 2 SWITCHING. -/
def halfShow (s : State) (d : Nat) : Nat :=
  match s.power.switch with
  | some (e, _, _, _) => if e = d then 2 else b2n (domainOn s d)
  | none => b2n (domainOn s d)

/-- The domain's own condition of R515. -/
def domainMayStop (s : State) (d : Nat) : Bool :=
  if d ≤ 8 then (halfMotifs d).all (motifIdle s)
  else if d = 12 ∨ d = 13 then s.obj 0x5300 1 == 0 || s.obj 0x5300 1 == 3
  else if d = 15 then s.obji 0 0x4200 2 == 0 && s.obji 1 0x4200 2 == 0
  else if d = 16 then s.obji 0 0x4300 2 == 0 && s.obji 1 0x4300 2 == 0
  else d == 11 && s.obj 0x2001 0 == 5

/-- A hoop half reaches OFF (R516): what its motifs held is lost, they are offline, the classes with a member in it become OFFLINE, and an idle plane
that it empties shows no personality (R292). -/
def halfOff (d : Nat) (s : State) : State :=
  let ms := halfMotifs d
  let s1 := ms.foldl (fun st m =>
    let st1 := st.setMotif m { offline := true, absent := (st.motif m).absent }
    let st2 := fzShowState m 3 (st1.setCore m { Core.atReset m with state := 3 })
    { st2 with net := { st2.net with crossing := mdel (mdel st2.net.crossing m) (64 + m) } }) s
  let mask := (ms.map (2 ^ ·)).foldl (· + ·) 0
  let s2 := (List.range 64).foldl (fun st c => if (s.cls s.activeB c).members &&& mask != 0 then st.setObj (0x3400 + c) 1 3 else st) s1
  let h := (d - 1) / 2
  let both := !domainOn s2 (2 * h + 1) && !domainOn s2 (2 * h + 2)
  idleShow (motifsShow (if both then (s2.setObj (0x3100 + h) 2 0).setObj 0x2102 (h + 2) 0 else s2))

/-- A hoop half reaches ON (R516): zero-filled, no slot valid. -/
def halfOn (d : Nat) (s : State) : State :=
  let s1 := (halfMotifs d).foldl (fun st m => st.setMotif m { st.motif m with offline := false }) s
  s1.setObj (0x3100 + (d - 1) / 2) 2 1

/-- A drive that the engine can use (Table 11.6): Gen3 or Gen4, 1, 2 or 4 lanes, an LBA size of 512 or 4,096 bytes. -/
def driveUsable (x : DriveInfo) : Bool := (x.link == 3 || x.link == 4) && (x.width == 1 || x.width == 2 || x.width == 4) && (x.lba == 512 || x.lba == 4096)

/-- A drive's PCIe link as the board gives it (R201, R516). A drive that Table 11.6 does not support is not identified (R452; DESIGN CHOICE, log 160). -/
def driveLink (s : State) (d : Nat) : DriveInfo :=
  let x := s.start.board.drives.getD d {}
  if driveUsable x then x else {}

/-- A domain reaches its new state: what R516 says of it, and the count of completed switches (R518). -/
def domainReach (d : Nat) (on : Bool) (s : State) : State :=
  let s1 := (setDomain d on s).bump 0x2200 0x0F
  if d ≤ 8 then (if on then halfOn d s1 else halfOff d s1)
  else if d = 12 ∨ d = 13 then
    let dr := d - 12
    if on then (s1.setObji dr 0x4400 2 (b2n (driveLink s dr).present)).setObji dr 0x4400 3 (driveLink s dr).link
    else (s1.setObji dr 0x4400 2 0).setObji dr 0x4400 3 0
  else if d = 16 then [0, 1].foldl (fun st l => if on then linkTrain l st else linkFall l st) s1
  else s1

/-- The effect of a write of DOMAIN_CONTROL (R515, R518): a refusal, an answer at once (code 0), or a switch that runs. -/
def writeDomain (path v : Nat) (s : State) : Sum Nat State :=
  let d := s.obj 0x2200 0x0C
  if domainFixed d then .inl abortState
  else if v = 2 ∧ domainOn s d ∧ !(s.obj 0x3600 1 == 0 && s.obj 0x3601 1 != 1 && s.obj 0x3601 1 != 2 && domainMayStop s d) then .inl abortState
  else if v ≠ 1 ∧ v ≠ 2 then .inl abortValue
  else if domainOn s d = (v == 1) then .inl 0
  else .inr { s with power := { s.power with switch := some (d, v == 1, path, s.time.clk) } }

/-- DOMAIN_ON_WRITE (R518). -/
def execDomainOnWrite (path : Nat) (s : State) : Host.Outcome State Fault Refusal := done (sdoAction path 0x2200 0x0D 1 1 (writeDomain path 1) s)

/-- DOMAIN_OFF_WRITE (R515). -/
def execDomainOffWrite (path : Nat) (s : State) : Host.Outcome State Fault Refusal := done (sdoAction path 0x2200 0x0D 1 2 (writeDomain path 2) s)

/-! ## Measurements at an epoch boundary (R38, R45, R512, R529, R531) -/

/-- Set while `above`, kept until `below` (the alarms with a hysteresis of Table 13.16). -/
def hystCond (a : Nat) (above below : Bool) (s : State) : State := setCond a (above || (bit s.conds a && !below)) s

/-- Ranges of the supplies in mV (Tables 13.7 and 13.16), in the order of the measurements; a VDDIO supply's depends on its class (0x2200:07). -/
def supplyRange (s : State) (i : Nat) : Nat × Nat :=
  let io := fun (k : Nat) => if bit (s.obj 0x2200 7) k then (3135, 3465) else (1710, 1890)
  match i with
  | 0 => (720, 780) | 1 => (770, 830) | 2 => (760, 840)
  | 3 => io 0 | 4 => io 1 | 5 => io 2 | 6 => io 3
  | 7 => (480, 520) | 8 => (1020, 1080) | 9 => (825, 875) | 10 => (1710, 1890) | 11 => (1710, 1890) | 12 => (1140, 1260) | _ => (825, 875)

/-- Supply i is measured outside its range; one that was not measured is not. -/
def supplyBad (s : State) (q : Measures) (i : Nat) : Bool :=
  match q.supplies[i]? with
  | none => false
  | some v => decide (v < (supplyRange s i).1) || decide ((supplyRange s i).2 < v)

/-- The measured supplies and the alarms 64 to 68 and 70. CORE_CURRENT and POWER are estimates that the spec gives no rule for. -/
def measureSupplies (q : Measures) (s : State) : State :=
  let s1 := (List.range 3).foldl (fun st i => match q.supplies[i]? with | none => st | some v => st.setObj 0x2200 (4 + i) v) s
  let s2 := (List.range 3).foldl (fun st i => setCond (64 + i) (supplyBad s q i) st) s1
  let s3 := setCond 67 ([3, 4, 5, 6].any (supplyBad s q)) s2
  let s4 := setCond 68 ([7, 8, 9, 10, 11, 12, 13].any (supplyBad s q)) s3
  let (f, s5) := s4.fresh
  let (g, s6) := s5.fresh
  let s7 := (s6.setObj 0x2200 8 (Config.freeWord f).toNat).setObj 0x2200 0x0A (Config.freeWord g).toNat
  setCond 70 (decide (s7.obj 0x2200 9 < s7.obj 0x2200 8)) s7

/-- Sensor i differs from every other by more than 25 °C (alarm 75). -/
def disagrees (ts : List Int) (i : Nat) : Bool :=
  (List.range ts.length).all (fun j => j == i || decide (25 < (ts.getD i 0 - ts.getD j 0).natAbs))

/-- A temperature as an INTEGER16. -/
def celsius (v : Int) : Nat := toTwos 16 (clampInt (-32768) 32767 v)

/-- The eight sensors (R529): the values, the highest since reset, and the alarms 72 to 75. -/
def measureTemps (ts : List Int) (s : State) : State :=
  match ts with
  | [] => s
  | t0 :: rest =>
    let tj := rest.foldl max t0
    let now := tj :: (List.range 4).map (fun h => ts.getD h t0)
    let peaks := if s.power.peaks.isEmpty then now else (List.range 5).map (fun i => max (s.power.peaks.getD i 0) (now.getD i 0))
    let s1 : State := { s with power := { s.power with peaks := peaks } }
    let s2 := (s1.setObj 0x2200 1 (celsius tj)).setObj 0x2200 2 (celsius (peaks.getD 0 0))
    let s3 := (List.range 8).foldl (fun st i => match ts[i]? with | none => st | some v => st.setObj 0x2200 (0x10 + i) (celsius v)) s2
    let s4 := (List.range 4).foldl (fun st h =>
      (st.setObj (0x3100 + h) 6 (celsius (now.getD (h + 1) 0))).setObj (0x3100 + h) 7 (celsius (peaks.getD (h + 1) 0))) s3
    let high : Int := s4.obj 0x2200 3
    let s5 := hystCond 72 (decide (high ≤ tj)) (decide (tj ≤ high - 5)) s4
    let s6 := hystCond 73 (decide (105 ≤ tj)) (decide (tj < 100)) s5
    let s7 := setCond 74 (ts.any (fun v => decide (v < -40))) s6
    if 1 < ts.length ∧ (List.range ts.length).any (disagrees ts) then raise 75 s7 else s7

/-- The clock frequencies, measured against CD0 with 1 kHz resolution (0x2102); 0 for the clock of a hoop whose halves are both OFF (R516). CD37 is
averaged over the last 1,024 epochs. -/
def measureClocks (fs : List Nat) (s : State) : State :=
  let off := fun (i : Nat) => decide (1 ≤ i) && decide (i ≤ 4) && !domainOn s (2 * i - 1) && !domainOn s (2 * i)
  let s1 := (List.range 40).foldl (fun st i => match fs[i]? with | none => st | some f => st.setObj 0x2102 (i + 1) (if off i then 0 else 1000 * (f / 1000))) s
  match fs[37]? with
  | none => s1
  | some f =>
    let l := (1000 * (f / 1000) :: s1.time.aon).take 1024
    ({ s1 with time := { s1.time with aon := l } } : State).setObj 0x2102 38 (l.foldl (· + ·) 0 / l.length)

/-- The drives' SMART logs (Table 11.14) and alarm 77. -/
def measureDrives (ds : List DriveSmart) (s : State) : State :=
  let s1 := [0, 1].foldl (fun st d => match ds[d]? with
    | none => st
    | some x => if st.obji d 0x4400 2 = 1 then ((st.setObji d 0x4400 0x0A x.mediaErrors).setObji d 0x4400 0x0B (celsius x.temperature)).setObji d 0x4400 0x0C x.percentUsed
        else st) s
  setCond 77 ([0, 1].any (fun d => s1.obji d 0x4400 2 == 1 && decide ((driveLink s1 d).warnTemp ≤ fromTwos 16 (s1.obji d 0x4400 0x0B)))) s1

/-- Everything that is measured once per epoch. -/
def measure (q : Measures) (s : State) : State :=
  setCond 76 q.derated (measureDrives q.smart (measureTemps q.temps (measureSupplies q (measureClocks q.freqs s))))

/-- EPOCH_BOUNDARY (R37, R38): at T[19:0] = 0 the actions run in their order, and the epoch's measurements are taken. -/
def execEpochBoundary (q : Measures) (s : State) : Host.Outcome State Fault Refusal :=
  if s.t % 2 ^ 20 = 0 then done (measure q (housekeeping (staleSweep s))) else done s

/-- REFERENCE_CLOCK_STOP (R526): the PLLs hold their last frequency, and alarm REFERENCE_LOST is latched. -/
def execReferenceClockStop (s : State) : Host.Outcome State Fault Refusal := done (setCond 71 true s)

/-- The link of a journal drive is down, and the engine declares the drive lost (R201). -/
def pcieDown (d : Nat) (s : State) : State := driveLost d (s.setObji d 0x4400 3 0)

end Sys2Proof.Machine
end

