-- ==== Sys2Proof/Machine/Update.lean ====
section
/-! DEFINITION. Firmware update (R484 to R494): transfer, verdict, activation. -/

namespace Sys2Proof.Machine
open Sys2Proof

/-- 0x5800:01 (Table 12.9). -/
def fwState (s : State) : Nat := s.obj 0x5800 1

/-- The update record replaced. -/
def State.setUpdate (s : State) (u : Update) : State := { s with update := u }

/-- BLOCKS of a firmware header (Table 12.8). -/
def fwBlocksOf (h : List Byte) : Nat := le h 20 2

/-- VERSION of a firmware header. -/
def fwVersion (h : List Byte) : Nat := le h 16 4

/-- Alarm FIRMWARE_SLOT_INVALID's condition (R490). -/
def fwSlotAlarm (s : State) : State := setCond 85 (s.obj 0x5800 0x0A == 0 && (fwState s == 0 || fwState s == 4)) s

/-- STATE of the update changes. -/
def fwEnter (v : Nat) (s : State) : State := fwSlotAlarm (s.setObj 0x5800 1 v)

/-- An UPDATE sampler record (Table 12.14). -/
def fwRecord (event version : Nat) (s : State) : State := sample 0x0102 (leBytes event 4 ++ leBytes version 4) s

/-- The effect of BEGIN (R486, R487, R491): the slot's first sector is erased and the header page programmed. -/
def fwBegin (foe : Bool) (bs : List Byte) (s : State) : Reply :=
  if fwState s = 1 ∨ fwState s = 2 ∨ fwState s = 5 ∨ fwState s = 6 then .refuse s abortState
  else
    let n := fwBlocksOf bs
    if bs.length ≠ 64 + 4 * n ∨ n = 0 ∨ 192 < n ∨ crc32c (bs.take 60) ≠ le bs 60 4 ∨ crc32c (bs.drop 64) ≠ le bs 28 4 then .refuse s abortValue
    else
      let s1 := s.setUpdate { s.update with head := bs, half := none, got := 0, buffered := 0, sig := none, foe := foe }
      let s2 := s1.setFlash { s1.flash with fwMark := false }
      let s3 := fwEnter 1 (((s2.setObj 0x5800 5 0).setObj 0x5800 0x0A 0).setObj 0x5800 9 0)
      let jobs : List FlashJob := [{ erase := true, addr := fwAddr, purpose := 1 }, { addr := fwAddr, purpose := 1, effect := .fwHead bs }]
      .ok (fwRecord 1 (fwVersion bs) (flashQueue jobs s3))

/-- The jobs of block n: its sector is erased just before the sector's first block, then the block is programmed (R487). -/
def fwBlockJobs (n : Nat) (block : List Byte) : List FlashJob :=
  let a := fwAddr + 0x1000 * (n + 1)
  (if (n + 1) % 16 = 0 then [{ erase := true, addr := a, purpose := 1 }] else []) ++ [{ addr := a, purpose := 1, effect := .fwBlock n block }]

/-- A whole block: accepted if its CRC is the table's (R486), then buffered and programmed (R487). -/
def fwBlock (block : List Byte) (s : State) : Reply :=
  let u := s.update
  if crc32c block ≠ le u.head (64 + 4 * u.got) 4 then { abort := abortValue, state := s.setUpdate { u with half := none } }
  else
    let s1 := s.setUpdate { u with half := none, got := u.got + 1, buffered := u.buffered + 1 }
    .ok (flashQueue (fwBlockJobs u.got block) (s1.setObj 0x5800 5 (u.got + 1)))

/-- The effect of a half block (R486, R487). -/
def fwHalf (bs : List Byte) (s : State) : Reply :=
  let u := s.update
  if fwState s ≠ 1 ∨ fwBlocksOf u.head ≤ u.got ∨ 2 ≤ u.buffered then .refuse s abortState
  else match u.half with
    | none => .ok (s.setUpdate { u with half := some bs })
    | some a => fwBlock (a ++ bs) s

/-- The effect of END: the signature block arrives after the last block (R488, Table 12.17). -/
def fwEnd (bs : List Byte) (s : State) : Reply :=
  let u := s.update
  if fwState s ≠ 1 ∨ u.got ≠ fwBlocksOf u.head ∨ u.half.isSome then .refuse s abortState
  else .ok (fwEnter 2 (s.setUpdate { u with sig := some bs, sigAt := s.time.clk }))

/-- A transfer ends without an image: queued programs of the slot are dropped. -/
def fwDrop (s : State) : State :=
  let f := s.flash
  let jobs := (if f.running then f.jobs.take 1 else []) ++ (if f.running then f.jobs.drop 1 else f.jobs).filter (fun j => j.purpose != 1)
  (s.setFlash { f with jobs := jobs }).setUpdate { s.update with half := none, buffered := 0, sig := none }

/-- The effect of ABORT (R491, Table 12.17). -/
def fwAbort (v : Nat) (s : State) : Reply :=
  if fwState s ≠ 1 ∧ fwState s ≠ 4 then .refuse s abortState
  else if v ≠ 1 then .refuse s abortValue
  else .ok (fwRecord 6 (fwVersion s.update.head) (fwEnter 0 (fwDrop s)))

/-- The slot as read back: header page with table, then the blocks (R488). -/
def fwSlotBytes (s : State) : List Byte :=
  s.flash.fwHead ++ (List.range (fwBlocksOf s.flash.fwHead)).flatMap (fun n => mget [] s.flash.fwBlocks n)

/-- The reason bits of the verdict (0x5C03:04): header, device type, unit binding, signature, key not trusted, life cycle, island without keys. -/
def fwReasons (s : State) (sig : List Byte) : Nat :=
  let h := s.flash.fwHead
  let key := sig.take 64
  b2n (le h 0 4 != 0x57464644 || le h 4 2 != 1 || le h 6 2 != 64 || fwBlocksOf h != s.update.got) + 2 * b2n (le h 8 4 != 0x0D4F0400) +
    4 * b2n (le h 12 4 != 0 && le h 12 4 != s.fuses.serial) +
    8 * b2n (!ecdsaOk key (sha256 (fwSlotBytes s)) (slice sig 64 64) || le sig 128 16 != 0) +
    16 * b2n (mget [] s.island.hashes 0 != sha256 key) + 32 * b2n (s.island.lc == 4) + 64 * b2n (!s.island.keys || wiping s)

/-- The verdict (R488, R489). -/
def fwVerdict (sig : List Byte) (s : State) : State :=
  let why := fwReasons s sig
  let v := fwVersion s.flash.fwHead
  let s1 := (secOffer 0x0201 (leBytes why 4) s).setUpdate { s.update with sig := none }
  if why = 0 then
    fwRecord 2 v (fwEnter 3 (((s1.setFlash { s1.flash with fwMark := true }).setObj 0x5800 0x0A 1).setObj 0x5800 9 v))
  else fwRecord 3 v (raise 86 (fwEnter 4 (s1.bump 0x5800 0x0C)))

/-- The verdict is due (R488): 400 ms after the signature block and after the last program. -/
def fwVerdictDue (s : State) : Bool :=
  fwState s == 2 && !jobOf s 1 && decide (max s.update.sigAt s.update.progAt + 400000000 ≤ s.time.clk)

/-- The effect of a write of ACTIVATE_AT (R492, R494). -/
def writeActivateAt (v : Nat) (s : State) : Reply :=
  if (fwState s ≠ 3 ∧ fwState s ≠ 5) ∨ s.obj 0x3600 1 ≠ 0 then .refuse s abortState
  else if fwState s = 5 ∧ v = 0 then .ok (fwEnter 3 (s.setObj 0x5800 6 0))
  else if v < s.t + 100000000 then .refuse s abortValue
  else .ok (fwRecord 4 (s.obj 0x5800 9) (fwEnter 5 (s.setObj 0x5800 6 v)))

/-- ACTIVATE_AT_WRITE (R492). -/
def execActivateAtWrite (path v : Nat) (s : State) : Host.Outcome State Fault Refusal := done (sdoWrite path 0x5800 6 8 v (writeActivateAt v) s)

/-- ACTIVATION_INSTANT (R492): at T = ACTIVATE_AT the MP restarts with the new image; that T is the one LAST_ACTIVATION holds (R504). -/
def execActivationInstant (s : State) : Host.Outcome State Fault Refusal :=
  if fwState s = 5 ∧ s.obj 0x5800 6 ≤ s.t then done (mpStop ((fwEnter 6 s).setObj 0x5800 0x0B (s.obj 0x5800 6))) else done s

/-- FW_BEGIN (R486, R491). -/
def execFwBegin (path : Nat) (bs : FrameData) (s : State) : Host.Outcome State Fault Refusal :=
  let d := bs.map (BitVec.ofNat 8 ·)
  done (sdoServe { path := path, kind := 1, ix := 0x5800, sub := 2, data := d }
    (fun s => if 832 < d.length then .refuse s abortLong else fwBegin false d s) s)

/-- FW_BLOCK_HALF (R486, R487). -/
def execFwBlockHalf (path : Nat) (bs : FrameData) (s : State) : Host.Outcome State Fault Refusal :=
  let d := bs.map (BitVec.ofNat 8 ·)
  done (sdoServe { path := path, kind := 1, ix := 0x5800, sub := 3, data := d }
    (fun s => if d.length < 2048 then .refuse s abortShort else if 2048 < d.length then .refuse s abortLong else fwHalf d s) s)

/-- FW_END (R488, R491). -/
def execFwEnd (path : Nat) (bs : FrameData) (s : State) : Host.Outcome State Fault Refusal :=
  let d := bs.map (BitVec.ofNat 8 ·)
  done (sdoServe { path := path, kind := 1, ix := 0x5800, sub := 4, data := d }
    (fun s => if d.length < 144 then .refuse s abortShort else if 144 < d.length then .refuse s abortLong else fwEnd d s) s)

/-- FW_ABORT (R491). -/
def execFwAbort (path v : Nat) (s : State) : Host.Outcome State Fault Refusal := done (sdoWrite path 0x5800 7 1 v (fwAbort v) s)

end Sys2Proof.Machine
end

