-- ==== Sys2Proof/Machine/CommOps.lean ====
section
/-! DEFINITION. Persistence (R353 to R356), the configuration lock (R345), and the start record's commands: clear, restart, orderly stop (R472, R477, R503). -/

namespace Sys2Proof.Machine
open Sys2Proof

/-! ## Persistence -/

/-- Subindices that Table 9.6 and the later chapters leave out of the saved set. -/
def notSaved (ix sub : Nat) : Bool :=
  (ix == 0x2100 && sub == 6) || (decide (0x2110 ≤ ix) && decide (ix ≤ 0x211F)) ||
  (decide (0x3200 ≤ ix) && decide (ix ≤ 0x323F) && (sub == 6 || sub == 8)) || (decide (0x3400 ≤ ix) && decide (ix ≤ 0x343F) && sub == 2) ||
  (ix == 0x3600 && [2, 3, 7, 8].contains sub) || (ix == 0x3601 && sub == 8) || (ix == 0x3602 && sub == 2) || (ix == 0x3038 && sub == 2) ||
  (ix == 0x3800 && [1, 2, 9].contains sub) || ([0x4000, 0x4100, 0x4200, 0x4300, 0x4500, 0x4400].contains ix && sub == 1) ||
  (ix == 0x5000 && (sub == 8 || sub == 0x0D)) || (ix == 0x5100 && sub == 5) || (ix == 0x5300 && (sub == 0x0E || sub == 0x0F)) ||
  (ix == 0x2000 && sub == 3) || ix == 0x5800 || (ix == 0x2200 && sub == 0x0C)

/-- A subindex of the saved set (R353). -/
def inSavedSet (r : ObjRow) (ix sub : Nat) : Bool :=
  decide (0x2000 ≤ ix) && decide (ix < 0x5C00) && (r.acc == .rw || r.acc == .rwi || r.acc == .rwl) && !r.image && !r.computed && !notSaved ix sub

/-- The saved set, in order: index, subindex and size. -/
def savedSet : List (Nat × Nat × Nat) :=
  objRows.flatMap (fun r => (List.range r.n).flatMap (fun i => (List.range (r.hi + 1 - r.lo)).filterMap (fun k =>
    if inSavedSet r (r.ix + i) (r.lo + k) then some (r.ix + i, r.lo + k, r.size) else none)))

/-- The values of the saved set as they stand (R354). -/
def savedNow (s : State) : SMap Nat := savedSet.foldl (fun m e => mset 0 m (odKey e.1 e.2.1) (s.obj e.1 e.2.1)) []

/-- The CRC-32C of a saved copy, over its sequence number and its values in the order of the saved set (R354, R269). -/
def savedCrc (seq : Nat) (values : SMap Nat) : Nat :=
  crc32c (leBytes seq 8 ++ savedSet.flatMap (fun e => leBytes (mget 0 values (odKey e.1 e.2.1)) e.2.2))

/-- The copies whose CRC-32C is right. -/
def savedValid (m : SMap SavedCopy) : SMap SavedCopy := m.filter (fun e => e.2.crc == savedCrc e.2.seq e.2.values)

/-- A save runs: a write of SAVE or RESTORE_DEFAULTS is refused (R354). -/
def saving (s : State) : Bool := s.obj 0x2011 3 == 1

/-- A save is refused: an update is SCHEDULED and due within 2 s (R494). -/
def saveTooLate (s : State) : Bool := fwState s == 5 && decide (s.obj 0x5800 6 ≤ s.t + 2000000000)

/-- The effect of a write of SAVE (R354): the values of this instant go into the older copy. -/
def writeSave (v : Nat) (s : State) : Reply :=
  if saving s || saveTooLate s then .refuse s abortState
  else if v ≠ 0x65766173 then .refuse s abortValue
  else
    let c := olderCopy SavedCopy.seq (savedValid s.flash.saved)
    let seq := nextCopySeq SavedCopy.seq (savedValid s.flash.saved)
    let copy : SavedCopy := { seq := seq, values := savedNow s, crc := savedCrc seq (savedNow s) }
    .ok (flashQueue [{ erase := true, addr := savedAddr c, purpose := 3 }, { addr := savedAddr c, purpose := 3, effect := .saved c copy }] (s.setObj 0x2011 3 1))

/-- SAVE_WRITE (R354). -/
def execSaveWrite (path v : Nat) (s : State) : Host.Outcome State Fault Refusal := done (sdoWrite path 0x2011 1 4 v (writeSave v) s)

/-- SAVE_COMPLETE (R354): the copy is complete in flash. -/
def execSaveComplete (s : State) : Host.Outcome State Fault Refusal :=
  if saving s && !jobOf s 3 then done (((s.setObj 0x2011 3 2).setObj 0x2011 4 s.t).bump 0x2011 5) else done s

/-- The effect of a write of RESTORE_DEFAULTS (R355): both copies are invalid from now on. -/
def writeRestore (v : Nat) (s : State) : Reply :=
  if saving s then .refuse s abortState
  else if v ≠ 0x64616F6C then .refuse s abortValue
  else .ok ((s.setFlash { s.flash with saved := [] }).setObj 0x2011 3 4)

/-- RESTORE_DEFAULTS_WRITE (R355). -/
def execRestoreDefaultsWrite (path v : Nat) (s : State) : Host.Outcome State Fault Refusal := done (sdoWrite path 0x2011 2 4 v (writeRestore v) s)

/-- The effect of a write of LOCK (R345, R356). -/
def writeLock (v : Nat) (s : State) : Reply :=
  if s.obj 0x2012 1 = 1 then .refuse s abortState
  else if v ≠ 0x6B636F6C then .refuse s abortValue
  else .ok (persistTouch ((s.setObj 0x2012 1 1).setObj 0x2012 3 s.t))

/-- LOCK_WRITE (R345). -/
def execLockWrite (path v : Nat) (s : State) : Host.Outcome State Fault Refusal := done (sdoWrite path 0x2012 2 4 v (writeLock v) s)

/-! ## Start record and restart -/

/-- The effect of a write of CLEAR_RECORD (R472): every entry is primary with FAILS 0 from the next start on; what this start runs stays shown. -/
def writeClearRecord (v : Nat) (s : State) : Reply :=
  if v ≠ 0x64726372 then .refuse s abortValue
  else .ok (recordChanged { s with start := { s.start with record := s.start.record.map (fun e => (e.1, { e.2 with fails := 0, variant := 0 })) } })

/-- CLEAR_RECORD_WRITE (R472). -/
def execClearRecordWrite (path v : Nat) (s : State) : Host.Outcome State Fault Refusal := done (sdoWrite path 0x2000 7 4 v (writeClearRecord v) s)

/-- A reset with cause 4 is due 10 ms from now (Table 12.1). -/
def resetSoon (s : State) : State := { s with start := { s.start with resetAt := some (s.time.clk + 10000000) } }

/-- The effect of a write of RESTART (Table 12.15). -/
def writeRestart (v : Nat) (s : State) : Reply := if v ≠ 0x74657372 then .refuse s abortValue else .ok (resetSoon s)

/-- RESTART_WRITE (R503). -/
def execRestartWrite (path v : Nat) (s : State) : Host.Outcome State Fault Refusal := done (sdoWrite path 0x2000 8 4 v (writeRestart v) s)

/-! ## Orderly stop (R477) -/

/-- The device state 0x2001. -/
def devState (s : State) : Nat := s.obj 0x2001 0

/-- The largest OFFSET of the active plane's classes. -/
def maxOffset (s : State) : Nat := ((List.range 64).map (fun c => (s.cls s.activeB c).offset)).foldl max 0

/-- The start's bookkeeping of the stop replaced. -/
def setStop (phase limit : Nat) (s : State) : State := { s with start := { s.start with stopPhase := phase, stopAt := limit } }

/-- The effect of a write of STOP (R477, steps 1 and 2). -/
def writeStop (v : Nat) (s : State) : Reply :=
  if (devState s ≠ 1 ∧ devState s ≠ 2) ∨ s.obj 0x3600 1 ≠ 0 ∨ fwState s = 5 ∨ fwState s = 6 then .refuse s abortState
  else if v ≠ 0x706F7473 then .refuse s abortValue
  else
    let s1 := (List.range 64).foldl (fun st c => if st.classState c = 1 then st.setObj (0x3400 + c) 1 2 else st) s
    .ok (setStop 1 (s.time.clk + maxOffset s + 1000000) ((s1.setObj 0x2001 0 4).setObj 0x2000 0x0A 1))

/-- STOP_WRITE (R477). -/
def execStopWrite (path v : Nat) (s : State) : Host.Outcome State Fault Refusal := done (sdoWrite path 0x2000 9 4 v (writeStop v) s)

/-- Step 3 is over: nothing is in flight in any class. -/
def classesDrained (s : State) : Bool := (List.range 64).all (fun c => s.obj (0x3400 + c) 0x14 == 0)

/-- Step 4 is over: DURABLE_K covers the last record. -/
def journalDurable (s : State) : Bool :=
  s.obj 0x5300 1 != 2 || (s.journal.stage.isEmpty && s.journal.full.isEmpty && s.journal.openRecs.isEmpty &&
    (s.journal.waiting ++ s.journal.flight).all (fun c => c.kind != 0))

/-- Step 4 begins: the open journal block is written. -/
def stopFlush (s : State) : State := setStop 2 (s.time.clk + 1000000000) (if s.obj 0x5300 1 = 2 then journalFlush s else s)

/-- The jobs of the sampler copy (R445): its sectors are erased, then the records programmed; until the copy is complete 0x5000:0C reads 0, and SOURCE is live. -/
def samplerCopy (s : State) : State :=
  let c : SampCopy := { t := s.t, recs := s.sampler.recs }
  flashQueue (eraseJobs sampAddr 0x50000 6 ++ programJobs sampAddr (max 1 (recsSize s.sampler.recs)) 6 (.sampler c)) (((s.setFlash { s.flash with samp := none }).setObj 0x5000 0x0D 0).setObj 0x5000 0x0C 0)

/-- Steps 5 and 6 (R445): the ORDERLY_STOP record, the sampler copy, the persistent records. -/
def stopRecords (s : State) : State := setStop 3 0 (persistTouch (samplerCopy (sample 7 [] s)))

/-- Step 7: STOPPED, once the copies are written. -/
def stopDone (s : State) : State := if jobOf s 6 || jobOf s 4 then s else setStop 0 0 ((s.setObj 0x2001 0 5).setObj 0x2000 0x0A 2)

/-- STOP_DRAINED (R477): the step that the stop waits in is over, and the next one begins. -/
def execStopDrained (s : State) : Host.Outcome State Fault Refusal :=
  if s.start.stopPhase = 1 ∧ classesDrained s then done (stopFlush s)
  else if s.start.stopPhase = 2 ∧ journalDurable s then done (stopRecords s)
  else if s.start.stopPhase = 3 then done (stopDone s)
  else done s

/-- ORDERLY_STOP_WAIT_EXPIRY (R477): the wait of step 3 or 4 has reached its limit, and the stop goes on. -/
def execOrderlyStopWaitExpiry (s : State) : Host.Outcome State Fault Refusal :=
  if s.start.stopPhase = 1 ∧ s.start.stopAt ≤ s.time.clk then done (stopFlush s)
  else if s.start.stopPhase = 2 ∧ s.start.stopAt ≤ s.time.clk then done (stopRecords s)
  else done s

end Sys2Proof.Machine
end

