-- ==== Sys2Proof/Machine/FizInt.lean ====
section
/-! DEFINITION. Fizhaig integer instructions (R332, R333): arithmetic, shifts, comparisons, multiplication and division, immediates, loads and
stores, branches and jumps. -/

namespace Sys2Proof.Machine
open Sys2Proof

/-! ## Operations -/

/-- DIV: divide by 0 gives 0xFFFF_FFFF; 0x8000_0000 / −1 gives 0x8000_0000 (Table 8.13). -/
def fzDivS (a b : Word) : Word := if b = 0#32 then 0xFFFFFFFF#32 else BitVec.ofInt 32 (a.toInt.tdiv b.toInt)

/-- DIVU. -/
def fzDivU (a b : Word) : Word := if b = 0#32 then 0xFFFFFFFF#32 else BitVec.ofNat 32 (a.toNat / b.toNat)

/-- REM: divide by 0 gives ra; 0x8000_0000 / −1 gives 0. -/
def fzRemS (a b : Word) : Word := if b = 0#32 then a else BitVec.ofInt 32 (a.toInt.tmod b.toInt)

/-- REMU. -/
def fzRemU (a b : Word) : Word := if b = 0#32 then a else BitVec.ofNat 32 (a.toNat % b.toNat)

/-- A 16-bit immediate, zero-extended (R332). -/
def zimm (imm : Nat) : Word := BitVec.ofNat 32 (imm % 65536)

/-! ## Register operations -/

/-- ADD: rd ← ra + rb (Table 8.13). -/
def execFzAdd (c rd ra rb : Nat) (s : State) : Host.Outcome State Fault Refusal := fzAlu c rd (fun b => b.g ra + b.g rb) s

/-- SUB: rd ← ra − rb (Table 8.13). -/
def execFzSub (c rd ra rb : Nat) (s : State) : Host.Outcome State Fault Refusal := fzAlu c rd (fun b => b.g ra - b.g rb) s

/-- AND: rd ← ra & rb (Table 8.13). -/
def execFzAnd (c rd ra rb : Nat) (s : State) : Host.Outcome State Fault Refusal := fzAlu c rd (fun b => b.g ra &&& b.g rb) s

/-- OR: rd ← ra | rb (Table 8.13). -/
def execFzOr (c rd ra rb : Nat) (s : State) : Host.Outcome State Fault Refusal := fzAlu c rd (fun b => b.g ra ||| b.g rb) s

/-- XOR: rd ← ra ^ rb (Table 8.13). -/
def execFzXor (c rd ra rb : Nat) (s : State) : Host.Outcome State Fault Refusal := fzAlu c rd (fun b => b.g ra ^^^ b.g rb) s

/-- ANDN: rd ← ra & ~rb (Table 8.13). -/
def execFzAndn (c rd ra rb : Nat) (s : State) : Host.Outcome State Fault Refusal := fzAlu c rd (fun b => b.g ra &&& ~~~(b.g rb)) s

/-- SLL: rd ← ra shifted left by rb[4:0] (Table 8.13). -/
def execFzSll (c rd ra rb : Nat) (s : State) : Host.Outcome State Fault Refusal := fzAlu c rd (fun b => b.g ra <<< shAmt (b.g rb)) s

/-- SRL: rd ← ra shifted right logically by rb[4:0] (Table 8.13). -/
def execFzSrl (c rd ra rb : Nat) (s : State) : Host.Outcome State Fault Refusal := fzAlu c rd (fun b => b.g ra >>> shAmt (b.g rb)) s

/-- SRA: rd ← ra shifted right arithmetically by rb[4:0] (Table 8.13). -/
def execFzSra (c rd ra rb : Nat) (s : State) : Host.Outcome State Fault Refusal := fzAlu c rd (fun b => sar (b.g ra) (shAmt (b.g rb))) s

/-- ROR: rd ← ra rotated right by rb[4:0] (Table 8.13). -/
def execFzRor (c rd ra rb : Nat) (s : State) : Host.Outcome State Fault Refusal := fzAlu c rd (fun b => rotr (b.g ra) (shAmt (b.g rb))) s

/-- SLT: rd ← 1 if ra < rb signed (Table 8.13). -/
def execFzSlt (c rd ra rb : Nat) (s : State) : Host.Outcome State Fault Refusal := fzAlu c rd (fun b => truth (slt (b.g ra) (b.g rb))) s

/-- SLTU: rd ← 1 if ra < rb unsigned (Table 8.13). -/
def execFzSltu (c rd ra rb : Nat) (s : State) : Host.Outcome State Fault Refusal := fzAlu c rd (fun b => truth (ult (b.g ra) (b.g rb))) s

/-- MIN: rd ← the signed minimum (Table 8.13). -/
def execFzMin (c rd ra rb : Nat) (s : State) : Host.Outcome State Fault Refusal := fzAlu c rd (fun b => if slt (b.g ra) (b.g rb) then b.g ra else b.g rb) s

/-- MAX: rd ← the signed maximum (Table 8.13). -/
def execFzMax (c rd ra rb : Nat) (s : State) : Host.Outcome State Fault Refusal := fzAlu c rd (fun b => if slt (b.g ra) (b.g rb) then b.g rb else b.g ra) s

/-- CLZ: rd ← leading zeros of ra (Table 8.13). -/
def execFzClz (c rd ra : Nat) (s : State) : Host.Outcome State Fault Refusal := fzAlu c rd (fun b => clz (b.g ra)) s

/-- MUL: rd ← low word of ra × rb (Table 8.13). -/
def execFzMul (c rd ra rb : Nat) (s : State) : Host.Outcome State Fault Refusal := fzAlu c rd (fun b => b.g ra * b.g rb) s

/-- MULH: rd ← signed high word of ra × rb (Table 8.13). -/
def execFzMulh (c rd ra rb : Nat) (s : State) : Host.Outcome State Fault Refusal := fzAlu c rd (fun b => mulh (b.g ra) (b.g rb)) s

/-- MULHU: rd ← unsigned high word of ra × rb (Table 8.13). -/
def execFzMulhu (c rd ra rb : Nat) (s : State) : Host.Outcome State Fault Refusal := fzAlu c rd (fun b => mulhu (b.g ra) (b.g rb)) s

/-- DIV: rd ← signed quotient (Table 8.13). -/
def execFzDiv (c rd ra rb : Nat) (s : State) : Host.Outcome State Fault Refusal := fzAlu c rd (fun b => fzDivS (b.g ra) (b.g rb)) s

/-- DIVU: rd ← unsigned quotient (Table 8.13). -/
def execFzDivu (c rd ra rb : Nat) (s : State) : Host.Outcome State Fault Refusal := fzAlu c rd (fun b => fzDivU (b.g ra) (b.g rb)) s

/-- REM: rd ← signed remainder (Table 8.13). -/
def execFzRem (c rd ra rb : Nat) (s : State) : Host.Outcome State Fault Refusal := fzAlu c rd (fun b => fzRemS (b.g ra) (b.g rb)) s

/-- REMU: rd ← unsigned remainder (Table 8.13). -/
def execFzRemu (c rd ra rb : Nat) (s : State) : Host.Outcome State Fault Refusal := fzAlu c rd (fun b => fzRemU (b.g ra) (b.g rb)) s

/-! ## Immediates -/

/-- ADDI: rd ← ra + imm, sign-extended (Table 8.13). -/
def execFzAddi (c rd ra imm : Nat) (s : State) : Host.Outcome State Fault Refusal := fzAlu c rd (fun b => b.g ra + simm imm) s

/-- ANDI: rd ← ra & imm, zero-extended (Table 8.13). -/
def execFzAndi (c rd ra imm : Nat) (s : State) : Host.Outcome State Fault Refusal := fzAlu c rd (fun b => b.g ra &&& zimm imm) s

/-- ORI: rd ← ra | imm, zero-extended (Table 8.13). -/
def execFzOri (c rd ra imm : Nat) (s : State) : Host.Outcome State Fault Refusal := fzAlu c rd (fun b => b.g ra ||| zimm imm) s

/-- XORI: rd ← ra ^ imm, zero-extended (Table 8.13). -/
def execFzXori (c rd ra imm : Nat) (s : State) : Host.Outcome State Fault Refusal := fzAlu c rd (fun b => b.g ra ^^^ zimm imm) s

/-- SLTI: rd ← 1 if ra < imm signed (Table 8.13). -/
def execFzSlti (c rd ra imm : Nat) (s : State) : Host.Outcome State Fault Refusal := fzAlu c rd (fun b => truth (slt (b.g ra) (simm imm))) s

/-- SLTIU: rd ← 1 if ra < imm unsigned (Table 8.13). -/
def execFzSltiu (c rd ra imm : Nat) (s : State) : Host.Outcome State Fault Refusal := fzAlu c rd (fun b => truth (ult (b.g ra) (simm imm))) s

/-- SLLI: rd ← ra shifted left by imm[4:0] (Table 8.13). -/
def execFzSlli (c rd ra imm : Nat) (s : State) : Host.Outcome State Fault Refusal := fzAlu c rd (fun b => b.g ra <<< (imm % 32)) s

/-- SRLI: rd ← ra shifted right logically by imm[4:0] (Table 8.13). -/
def execFzSrli (c rd ra imm : Nat) (s : State) : Host.Outcome State Fault Refusal := fzAlu c rd (fun b => b.g ra >>> (imm % 32)) s

/-- SRAI: rd ← ra shifted right arithmetically by imm[4:0] (Table 8.13). -/
def execFzSrai (c rd ra imm : Nat) (s : State) : Host.Outcome State Fault Refusal := fzAlu c rd (fun b => sar (b.g ra) (imm % 32)) s

/-- LUI: rd ← imm16 × 65,536 (Table 8.13). -/
def execFzLui (c rd imm : Nat) (s : State) : Host.Outcome State Fault Refusal := fzAlu c rd (fun _ => BitVec.ofNat 32 (65536 * (imm % 65536))) s

/-! ## Loads and stores -/

/-- ra + imm of the current bank. -/
def fzEa (c ra imm : Nat) (s : State) : Word := (s.core c).here.g ra + simm imm

/-- LW: rd ← the word, at ra + imm (R298, R333). -/
def execFzLw (c rd ra imm ecc : Nat) (s : State) : Host.Outcome State Fault Refusal := fzDo c s (fun s => fzLoad c 0 rd (fzEa c ra imm s) ecc s)

/-- LH: rd ← the halfword, sign-extended, at ra + imm (R298, R333). -/
def execFzLh (c rd ra imm ecc : Nat) (s : State) : Host.Outcome State Fault Refusal := fzDo c s (fun s => fzLoad c 1 rd (fzEa c ra imm s) ecc s)

/-- LHU: rd ← the halfword, zero-extended, at ra + imm (R298, R333). -/
def execFzLhu (c rd ra imm ecc : Nat) (s : State) : Host.Outcome State Fault Refusal := fzDo c s (fun s => fzLoad c 2 rd (fzEa c ra imm s) ecc s)

/-- LB: rd ← the byte, sign-extended, at ra + imm (R298, R333). -/
def execFzLb (c rd ra imm ecc : Nat) (s : State) : Host.Outcome State Fault Refusal := fzDo c s (fun s => fzLoad c 3 rd (fzEa c ra imm s) ecc s)

/-- LBU: rd ← the byte, zero-extended, at ra + imm (R298, R333). -/
def execFzLbu (c rd ra imm ecc : Nat) (s : State) : Host.Outcome State Fault Refusal := fzDo c s (fun s => fzLoad c 4 rd (fzEa c ra imm s) ecc s)

/-- SW: the word of rs stored at ra + imm (R298, R333). -/
def execFzSw (c rs ra imm ecc : Nat) (s : State) : Host.Outcome State Fault Refusal :=
  fzDo c s (fun s => fzStore c 4 (fzEa c ra imm s) ((s.core c).here.g rs) ecc s)

/-- SH: the halfword of rs stored at ra + imm (R298, R333). -/
def execFzSh (c rs ra imm ecc : Nat) (s : State) : Host.Outcome State Fault Refusal :=
  fzDo c s (fun s => fzStore c 2 (fzEa c ra imm s) ((s.core c).here.g rs) ecc s)

/-- SB: the byte of rs stored at ra + imm (R298, R333). -/
def execFzSb (c rs ra imm ecc : Nat) (s : State) : Host.Outcome State Fault Refusal :=
  fzDo c s (fun s => fzStore c 1 (fzEa c ra imm s) ((s.core c).here.g rs) ecc s)

/-- SWAP: rd and the word at ra + imm exchanged; not in the NoC window (Table 8.13). -/
def fzSwap (c rd : Nat) (a : Word) (ecc : Nat) (s : State) : FzRes :=
  let x := s.core c
  let ad := a.toNat
  if ad % 4 ≠ 0 then .trap 3 ad false s
  else if !fzAllowed c x x.here true ad then .trap 4 ad false s
  else match fzPlace c x ad with
    | .noc _ => .trap 4 ad false s
    | _ => fzAtBank c ad (fun t =>
      match fzRead c ad 4 ecc t with
      | (none, s1) => .trap 6 ad false s1
      | (some v, s1) =>
        match fzWrite c ad 4 (x.here.g rd).toNat 0 s1 with
        | (true, s2) => .ok (fzSetReg c rd (BitVec.ofNat 32 v) s2)
        | (false, s2) => .trap 6 ad false s2) s

/-- SWAP (R333). -/
def execFzSwap (c rd ra imm ecc : Nat) (s : State) : Host.Outcome State Fault Refusal := fzDo c s (fun s => fzSwap c rd (fzEa c ra imm s) ecc s)

/-! ## Branches and jumps -/

/-- A transfer to a target that is a multiple of 4; any other raises ALIGN and performs nothing (R333). -/
def fzJump (c rd : Nat) (target : Word) (s : State) : FzRes :=
  if target.toNat % 4 ≠ 0 then .trap 3 target.toNat false s
  else
    let x := s.core c
    let b := x.here
    .ok (s.setCore c (x.setHere { b.setG rd (b.pc + 4#32) with pc := target }))

/-- A branch to pc + 4 × disp if the comparison holds. -/
def fzBranch (c : Nat) (test : FBank → Bool) (disp : Nat) (s : State) : Host.Outcome State Fault Refusal :=
  fzDo c s (fun s =>
    let b := (s.core c).here
    if test b then fzJump c 0 (b.pc + wordDisp 16 disp) s else .ok (fzAdvance c s))

/-- BEQ: branch to pc + 4 × disp if ra equals rb (Table 8.13). -/
def execFzBeq (c ra rb disp : Nat) (s : State) : Host.Outcome State Fault Refusal := fzBranch c (fun b => b.g ra == b.g rb) disp s

/-- BNE: branch to pc + 4 × disp if ra differs from rb (Table 8.13). -/
def execFzBne (c ra rb disp : Nat) (s : State) : Host.Outcome State Fault Refusal := fzBranch c (fun b => b.g ra != b.g rb) disp s

/-- BLT: branch to pc + 4 × disp if ra < rb signed (Table 8.13). -/
def execFzBlt (c ra rb disp : Nat) (s : State) : Host.Outcome State Fault Refusal := fzBranch c (fun b => slt (b.g ra) (b.g rb)) disp s

/-- BGE: branch to pc + 4 × disp if ra ≥ rb signed (Table 8.13). -/
def execFzBge (c ra rb disp : Nat) (s : State) : Host.Outcome State Fault Refusal := fzBranch c (fun b => !slt (b.g ra) (b.g rb)) disp s

/-- BLTU: branch to pc + 4 × disp if ra < rb unsigned (Table 8.13). -/
def execFzBltu (c ra rb disp : Nat) (s : State) : Host.Outcome State Fault Refusal := fzBranch c (fun b => ult (b.g ra) (b.g rb)) disp s

/-- BGEU: branch to pc + 4 × disp if ra ≥ rb unsigned (Table 8.13). -/
def execFzBgeu (c ra rb disp : Nat) (s : State) : Host.Outcome State Fault Refusal := fzBranch c (fun b => !ult (b.g ra) (b.g rb)) disp s

/-- J: pc ← pc + 4 × disp26 (Table 8.13). -/
def execFzJ (c disp : Nat) (s : State) : Host.Outcome State Fault Refusal :=
  fzDo c s (fun s => fzJump c 0 ((s.core c).here.pc + wordDisp 26 disp) s)

/-- JAL: as J, with pc + 4 in g31 (Table 8.13). -/
def execFzJal (c disp : Nat) (s : State) : Host.Outcome State Fault Refusal :=
  fzDo c s (fun s => fzJump c 31 ((s.core c).here.pc + wordDisp 26 disp) s)

/-- JALR: rd ← pc + 4, pc ← ra + imm (Table 8.13). -/
def execFzJalr (c rd ra imm : Nat) (s : State) : Host.Outcome State Fault Refusal := fzDo c s (fun s => fzJump c rd (fzEa c ra imm s) s)

end Sys2Proof.Machine
end

