-- ==== Sys2Proof/Machine/FizCtrl.lean ====
section
/-! DEFINITION. Fizhaig control space (R334 to R337): kinds of registers, narrow and wide accesses, reads with and without side effects, writes, and
the commands that stand for one access of a register. -/

namespace Sys2Proof.Machine
open Sys2Proof

/-! ## Kinds (R334, Table 8.14) -/

/-- Access kinds of R334; `lo` and `hi` are the words of an R65 pair. -/
inductive CKind where
  | rw | ro | rc | ws | lo | hi
  deriving DecidableEq, Repr

/-- The register at a control-space address of a core: its kind and whether it is marked SYSTEM; `none` where there is none. -/
def ctrlKind (c a : Nat) : Option (CKind × Bool) :=
  let sh := isShuttle c
  let mp := isMp c
  let sup := !sh && !mp
  if a = 0x00 then some (.rw, true)
  else if a = 0x04 then some (.ro, false)
  else if a = 0x08 then some (.rw, false)
  else if a = 0x0C ∨ a = 0x10 ∨ a = 0x14 ∨ a = 0x18 ∨ a = 0x1C ∨ a = 0x20 ∨ a = 0x24 ∨ a = 0x74 then some (.rw, true)
  else if a = 0x28 ∨ a = 0x2C then some (if mp then (.rw, true) else (.ro, false))
  else if a = 0x64 ∨ a = 0x68 then some (.rw, false)
  else if a = 0x6C then some (.rc, false)
  else if a = 0x80 then some (.lo, false)
  else if a = 0x84 then some (.hi, false)
  else if !sh ∧ (a = 0x30 ∨ a = 0x38 ∨ a = 0x3C ∨ (0x44 ≤ a ∧ a ≤ 0x60 ∧ a % 4 = 0)) then some (.rw, true)
  else if !sh ∧ a = 0x34 then some (.rw, false)
  else if !sh ∧ a = 0x40 then some (.ro, false)
  else if mp ∧ a = 0x78 then some (.lo, false)
  else if mp ∧ a = 0x7C then some (.hi, false)
  else if mp ∧ a = 0x88 then some (.ws, true)
  else if !mp ∧ (a = 0x70 ∨ a = 0x94 ∨ (0x100 ≤ a ∧ a ≤ 0x14C ∧ a % 4 = 0)) then some (.ro, false)
  else if !mp ∧ a = 0x90 then some (.ws, false)
  else if sh ∧ (a = 0x1000 ∨ a = 0x1004 ∨ a = 0x1050) then some (.rw, false)
  else if sh ∧ (a = 0x1008 ∨ a = 0x100C ∨ a = 0x1044 ∨ a = 0x1060) then some (.ws, false)
  else if sh ∧ (a = 0x1020 ∨ a = 0x1048 ∨ a = 0x104C) then some (.ro, false)
  else if sh ∧ (a = 0x1024 ∨ a = 0x1028 ∨ a = 0x1040) then some (.rc, false)
  else if sh ∧ a = 0x1054 then some (.lo, false)
  else if sh ∧ a = 0x1058 then some (.hi, false)
  else if sup ∧ 0x2000 ≤ a ∧ a ≤ 0x203C ∧ a % 4 = 0 then some (.ws, true)
  else none

/-! ## Reads -/

/-- 64-bit words of the pricking log in the order its records stand: descriptor, then data words in pairs (R176). -/
def logWords (x : Motif) : List Nat :=
  x.log.flatMap (fun r => r.descriptor :: (List.range ((r.words.length + 1) / 2)).map (fun i =>
    (r.words.getD (2 * i) 0#32).toNat + 2 ^ 32 * ((r.words.getD (2 * i + 1) 0#32).toNat)))

/-- The 64-bit word at LOGADDR. -/
def logWordAt (s : State) (c : Nat) : Nat := (logWords (s.motif c)).getD ((s.core c).logaddr / 8) 0

/-- MATCHOCC: the highest matching store occupancy and the number of ready instances of the motif, of which the register holds the low 6 bits
(DESIGN CHOICE, log entry 121). -/
def matchOcc (x : Motif) : Nat :=
  let occ := (x.cells.map (fun e => storeUsed e.2)).foldl max 0
  let rdy := (x.cells.map (fun e => e.2.ready.length)).foldl (· + ·) 0
  occ % 64 + 64 * (rdy % 64)

/-- REPLAYQ: the first decision with its execution number and the valid bit, 0 when there is none (R320). -/
def replayqWord (s : State) (c : Nat) : Nat :=
  let x := s.motif c
  match x.decided with
  | [] => 0
  | t :: _ => t + 2 ^ 12 * ((x.part t).exec % 4) + 2 ^ 31

/-- The head token at the shuttle input. -/
def rxHead (s : State) (c : Nat) : Option Token := (s.motif c).shuttleIn.head?

/-- CYCLE: the cycles of the core's clock since the device was reset (Table 8.14): its hoop's, or the 800 MHz of CD6 (Table 8.1). -/
def coreCycles (s : State) (c : Nat) : Nat :=
  if isMp c then 800000000 * (s.time.clk - s.time.resetAt) / 1000000000 else hoopCount s (if isShuttle c then hoopOf c else c - 64)

/-- The value of a register without any side effect; upper words show what was latched. -/
def ctrlVal (s : State) (c a : Nat) : Nat :=
  let x := s.core c
  let b := x.here
  if a = 0x00 then x.corecfg
  else if a = 0x04 then b2n x.double + 2 * (x.cur % 16)
  else if a = 0x08 then (b.status x.cur).toNat
  else if a = 0x0C then b.ssp.toNat
  else if a = 0x10 then x.vbaseA
  else if a = 0x14 then x.vbaseB
  else if a = 0x18 then x.rvec
  else if a = 0x1C then x.splo
  else if a = 0x20 then x.sphi
  else if a = 0x24 then b.ssl.toNat
  else if a = 0x28 then x.savbase
  else if a = 0x2C then x.savlim
  else if a = 0x30 then x.fpown
  else if a = 0x34 then x.fcsr
  else if a = 0x38 then x.ibindL
  else if a = 0x3C then x.ibindH
  else if a = 0x40 then x.ipend
  else if 0x44 ≤ a ∧ a ≤ 0x60 then field x.ilvl (32 * ((a - 0x44) / 4) + 31) (32 * ((a - 0x44) / 4))
  else if a = 0x64 then x.nocbase
  else if a = 0x68 then x.nocurg
  else if a = 0x6C then x.exccount
  else if a = 0x70 then s.now.toNat
  else if a = 0x74 then b.ssb.toNat
  else if a = 0x78 then s.t % 2 ^ 32
  else if a = 0x80 then coreCycles s c % 2 ^ 32
  else if a = 0x7C ∨ a = 0x84 ∨ a = 0x1058 then mget 0 x.latch a
  else if a = 0x94 then b2n x.pullDone + 2 * x.pullStatus
  else if 0x100 ≤ a ∧ a ≤ 0x14C then (x.pullBuf.getD ((a - 0x100) / 4) 0#32).toNat
  else if a = 0x1000 then x.txctl
  else if a = 0x1004 then x.txstamp
  else if a = 0x1020 then (match rxHead s c with | some t => t.words.length + 32 | none => 0)
  else if a = 0x1024 then (match rxHead s c with | some t => t.stamp.toNat | none => 0)
  else if a = 0x1028 then (match rxHead s c with | some t => (t.words.headD 0#32).toNat | none => 0)
  else if a = 0x1040 then replayqWord s c
  else if a = 0x1048 then matchOcc (s.motif c)
  else if a = 0x104C then (s.motif c).sb.length % 512 + 512 * b2n (s.motif c).sbOver
  else if a = 0x1050 then x.logaddr
  else if a = 0x1054 then logWordAt s c % 2 ^ 32
  else 0

/-- The upper word a full read of a lower word latches. -/
def ctrlUpper (s : State) (c a : Nat) : Nat :=
  if a = 0x78 then s.t / 2 ^ 32 else if a = 0x80 then coreCycles s c / 2 ^ 32 else if a = 0x1054 then logWordAt s c / 2 ^ 32 else 0

/-- One data word of the head token popped; after the last the token is freed (Table 8.14). -/
def rxPop (c : Nat) (s : State) : State :=
  let x := s.motif c
  match x.shuttleIn with
  | [] => s
  | t :: ts =>
    if t.words.length ≤ 1 then (s.setMotif c { x with shuttleIn := ts }).setCore c { s.core c with rxStarted := false }
    else s.setMotif c { x with shuttleIn := { t with words := t.words.drop 1 } :: ts }

/-- A full-width read of a register: its value, with the pop, clear or latch that belongs to it (R334 to R336). -/
def ctrlRead (c a : Nat) (s : State) : Nat × State :=
  let x := s.core c
  if a = 0x78 ∨ a = 0x80 ∨ a = 0x1054 then (ctrlVal s c a, s.setCore c { x with latch := mset 0 x.latch (a + 4) (ctrlUpper s c a) })
  else if a = 0x6C then (ctrlVal s c a, s.setCore c { x with exccount := 0 })
  else if a = 0x1024 then (ctrlVal s c a, if (rxHead s c).isSome then s.setCore c { x with rxStarted := true } else s)
  else if a = 0x1028 then (if x.rxStarted then (ctrlVal s c a, rxPop c s) else (0, s))
  else if a = 0x1040 then
    (ctrlVal s c a, s.setMotif c { s.motif c with decided := (s.motif c).decided.drop 1, serving := (s.motif c).serving ++ (s.motif c).decided.take 1 })
  else (ctrlVal s c a, s)

/-- A narrow read: the addressed bytes, without side effect (R335). -/
def ctrlNarrow (c a n : Nat) (s : State) : Nat × State :=
  (ctrlVal s c (a / 4 * 4) / 2 ^ (8 * (a % 4)) % 2 ^ (8 * n), s)

/-! ## Writes -/

/-- A pair of IBIND words is acceptable (R317): no bank 1, no bank the core lacks, no bank twice, and on the MP no bank that holds a CTX context. -/
def ibindOk (c lo hi : Nat) (x : Core) : Bool :=
  let bs := ((List.range 15).map (fun l => boundBank lo hi (l + 1))).filter (· != 0)
  bs.all (fun b => b != 1 && decide (b < bankCount c) && !(isMp c && (x.bank b).resident)) && decide bs.Nodup

/-- A write of IBIND_L or IBIND_H. -/
def writeIbind (c : Nat) (high : Bool) (w : Nat) (s : State) : FzRes :=
  let x := s.core c
  let lo := if high then x.ibindL else w
  let hi := if high then w else x.ibindH
  if ibindOk c lo hi x then .ok (s.setCore c { x with ibindL := lo, ibindH := hi })
  else .trap 5 (if high then 0x3C else 0x38) false s

/-- Sources a core has (Table 8.7). -/
def sourceCount (c : Nat) : Nat := if isMp c then 11 else 5

/-- A write of an ILVL word: fields of sources that do not exist read 0 and ignore it (R315). -/
def writeIlvl (c i w : Nat) (s : State) : State :=
  let x := s.core c
  let v := (List.range 8).foldl (fun n j =>
    if 8 * i + j < sourceCount c then n + (field w (4 * j + 3) (4 * j) % (if isMp c then 16 else 8)) * 2 ^ (4 * j) else n) 0
  s.setCore c { x with ilvl := withField x.ilvl (32 * i + 31) (32 * i) v }

/-- A data word appended to the token being formed; the 16th append raises BUS_ERROR. -/
def txAppend (c : Nat) (w : Word) (s : State) : FzRes :=
  let x := s.core c
  if 15 ≤ x.txWords.length then .trap 5 0x1008 false s else .ok (s.setCore c { x with txWords := x.txWords ++ [w] })

/-- The last word appended and the token sent from source 18 on the route TXCTL names; it waits while the output buffer is full. -/
def txLast (c : Nat) (w : Word) (s : State) : FzRes :=
  let x := s.core c
  let m := s.motif c
  let n := x.txctl
  if 15 ≤ x.txWords.length then .trap 5 0x100C false s
  else
    let ws := x.txWords ++ [w]
    if 16 < outUsed m 18 + 1 + ws.length then .stall s
    else
      let tid := field n 26 15
      let planeB := bit n 0
      let t : Token := { tid := tid, stamp := BitVec.ofNat 32 x.txstamp, words := ws, prio := field n 14 13,
                         exec := (m.part tid).exec, planeB := planeB }
      let m1 := m.pushOut s.time.clk 18 { route := m.route planeB (field n 8 1) (field n 12 9), tok := t }
      .ok ((s.setMotif c m1).setCore c { x with txWords := [] })

/-- A replay request (R321): the log streamer's next TID. SERVICE_PEAK takes the cycle of the request: an open value within its bound. -/
def replayRequest (c : Nat) (w : Nat) (s : State) : FzRes :=
  let x := s.core c
  if x.cur ≠ 1 then .trap 2 0 false s
  else if w % 4096 = 0 then .ok s
  else
    let m := s.motif c
    let (f, s0) := s.fresh
    let cyc := 6 + 3 * (x.popped % 4) + (Config.freeWord f).toNat % 3
    let s1 := (s0.setMotif c { m with replays := m.replays ++ [w % 4096], serving := m.serving.erase (w % 4096) }).setCore c { x with popped := x.popped + 1 }
    .ok (s1.setObji c 0x3038 7 (max (s1.obji c 0x3038 7) cyc))

/-- A PULL sent to a stream queue (Table 8.14); PULLSTAT is not done until its answer comes. -/
def pullRequest (c w : Nat) (s : State) : FzRes :=
  let x := s.core c
  if !fzRoom c x then .stall s
  else
    let (px, py) := sliceRouter (w / 16 % 4) 0
    let s1 := fzSend c { typ := 4, dx := px, dy := py, endpoint := 48 + w % 16 } s
    .ok (s1.setCore c { s1.core c with pullDone := false })

/-- The motif at a position of a supervisor's hoop (Table 8.14). -/
def hoopMotif (h n : Nat) : Nat := 8 * (4 * (h / 2) + n / 4) + 4 * (h % 2) + n % 4

/-- A write of SHCTLn: 1 stops the shuttle, 2 restarts it. -/
def shuttleControl (c n w : Nat) (s : State) : State :=
  let m := hoopMotif (c - 64) n
  let y := s.core m
  if w = 1 then (if y.state = 0 ∧ y.started then fzShowState m 2 (s.setCore m { y with state := 2 }) else s)
  else if w = 2 then restartShuttle m s
  else s

/-- A write of DOORBELL: the supervisor's doorbell source becomes pending with the written value. -/
def ringDoorbell (c w : Nat) (s : State) : State :=
  let k := 64 + hoopOf c
  (s.setCore k { s.core k with doorbell := w }).interrupt k 3

/-- A full-width write of a register that has passed the checks of R334 and R335. -/
def ctrlWrite (c a w : Nat) (s : State) : FzRes :=
  let x := s.core c
  let b := x.here
  let wd := BitVec.ofNat 32 w
  if a = 0x00 then .ok (s.setCore c { x with corecfg := if isShuttle c then 0 else w % 4 })
  else if a = 0x08 then .ok (if b.sys then s.setCore c (x.setHere { b with sys := bit w 0, ie := bit w 1 }) else s)
  else if a = 0x0C then .ok (s.setCore c (x.setHere { b with ssp := wd }))
  else if a = 0x10 then .ok (s.setCore c { x with vbaseA := w })
  else if a = 0x14 then .ok (s.setCore c { x with vbaseB := w })
  else if a = 0x18 then (if x.double then .trap 5 a false s else .ok (s.setCore c { x with rvec := w }))
  else if a = 0x1C then .ok (s.setCore c { x with splo := w })
  else if a = 0x20 then .ok (s.setCore c { x with sphi := w })
  else if a = 0x24 then .ok (s.setCore c (x.setHere { b with ssl := wd }))
  else if a = 0x28 then .ok (s.setCore c { x with savbase := w })
  else if a = 0x2C then .ok (s.setCore c { x with savlim := w })
  else if a = 0x30 then .ok (s.setCore c { x with fpown := w % 16 })
  else if a = 0x34 then .ok (s.setCore c { x with fcsr := w % 32 })
  else if a = 0x38 then writeIbind c false w s
  else if a = 0x3C then writeIbind c true w s
  else if 0x44 ≤ a ∧ a ≤ 0x60 then .ok (writeIlvl c ((a - 0x44) / 4) w s)
  else if a = 0x64 then .ok (s.setCore c { x with nocbase := w % 32 })
  else if a = 0x68 then .ok (s.setCore c { x with nocurg := w % 16 })
  else if a = 0x74 then .ok (s.setCore c (x.setHere { b with ssb := wd }))
  else if a = 0x88 then .ok (s.setCore c { x with wdog := s.time.clk, warned := false, ipend := withBit x.ipend 0 false })
  else if a = 0x90 then pullRequest c w s
  else if a = 0x1000 then .ok (s.setCore c { x with txctl := w % 2 ^ 27 })
  else if a = 0x1004 then .ok (s.setCore c { x with txstamp := w })
  else if a = 0x1008 then txAppend c wd s
  else if a = 0x100C then txLast c wd s
  else if a = 0x1044 then replayRequest c w s
  else if a = 0x1050 then .ok (s.setCore c { x with logaddr := w / 8 * 8 })
  else if a = 0x1060 then .ok (ringDoorbell c w s)
  else if 0x2000 ≤ a then .ok (shuttleControl c ((a - 0x2000) / 4) w s)
  else .ok s

/-! ## Accesses (R334 to R336) -/

/-- The checks of R334 on one register, before anything is accessed. -/
def ctrlCheck (c a : Nat) (s : State) (f : CKind → FzRes) : FzRes :=
  match ctrlKind c (a / 4 * 4) with
  | none => .trap 4 a false s
  | some (k, sys) => if sys && !(s.core c).here.sys then .trap 2 a false s else f k

/-- A load of `n` bytes from control space: a value and the state after it, or an exception. -/
def ctrlGet (c a n : Nat) (s : State) (f : Nat → State → FzRes) : FzRes :=
  if a % n ≠ 0 then .trap 3 a false s
  else if 0x10000 ≤ a then .trap 4 a false s
  else ctrlCheck c a s (fun _ => let (v, s1) := if n = 4 then ctrlRead c a s else ctrlNarrow c a n s; f v s1)

/-- A store of `n` bytes to control space (R335): narrow writes merge into RW registers and are refused at WS registers; RO, RC and R65
registers refuse every write. -/
def ctrlPut (c a n v : Nat) (s : State) : FzRes :=
  if a % n ≠ 0 then .trap 3 a false s
  else if 0x10000 ≤ a then .trap 4 a false s
  else ctrlCheck c a s (fun k => match k with
    | .rw => if n = 4 then ctrlWrite c a v s
        else ctrlWrite c (a / 4 * 4) (wordWith (BitVec.ofNat 32 (ctrlVal s c (a / 4 * 4))) a n v).toNat s
    | .ws => if n = 4 then ctrlWrite c a v s else .trap 5 a false s
    | _ => .trap 5 a false s)

/-- A control-space load of `n` bytes into rd. -/
def ctrlLoad (c n rd a : Nat) (s : State) : FzRes := ctrlGet c a n s (fun v s1 => .ok (fzSetReg c rd (BitVec.ofNat 32 v) s1))

/-- A control-space store of `n` bytes. -/
def ctrlStore (c n a : Nat) (v : Word) (s : State) : FzRes := (ctrlPut c a n (v.toNat % 2 ^ (8 * n)) s).andThen (fun s1 => .ok (fzAdvance c s1))

/-- CLW (R334 to R336): rd ← the control register at ra + imm, with its side effect. -/
def execFzClw (c rd ra imm : Nat) (s : State) : Host.Outcome State Fault Refusal :=
  fzDo c s (fun s => ctrlLoad c 4 rd (fzEa c ra imm s).toNat s)

/-- CLH (R335): rd ← a halfword of a control register, zero-extended, without side effect. -/
def execFzClh (c rd ra imm : Nat) (s : State) : Host.Outcome State Fault Refusal :=
  fzDo c s (fun s => ctrlLoad c 2 rd (fzEa c ra imm s).toNat s)

/-- CLB (R335): rd ← a byte of a control register, zero-extended, without side effect. -/
def execFzClb (c rd ra imm : Nat) (s : State) : Host.Outcome State Fault Refusal :=
  fzDo c s (fun s => ctrlLoad c 1 rd (fzEa c ra imm s).toNat s)

/-- The checks of R334 and, for a full-width write, of R335 on one register of a pair. -/
def pairWord (c : Nat) (write : Bool) (a : Nat) (s : State) (f : FzRes) : FzRes :=
  ctrlCheck c a s (fun k => if write && k != .rw && k != .ws then .trap 5 a false s else f)

/-- The checks of a pair, for both words, before either is accessed (R336). -/
def pairCheck (c rd a : Nat) (write : Bool) (s : State) (f : FzRes) : FzRes :=
  if rd % 2 ≠ 0 then .trap 1 0 false s
  else if a % 8 ≠ 0 then .trap 3 a false s
  else if 0x10000 ≤ a then .trap 4 a false s
  else pairWord c write a s (pairWord c write (a + 4) s f)

/-- CLD (R336): rd and rd + 1 ← the two control registers at ra + imm, the lower address first. -/
def execFzCld (c rd ra imm : Nat) (s : State) : Host.Outcome State Fault Refusal :=
  fzDo c s (fun s =>
    let a := (fzEa c ra imm s).toNat
    pairCheck c rd a false s (
      let (v, s1) := ctrlRead c a s
      let (w, s2) := ctrlRead c (a + 4) s1
      let x := s2.core c
      .ok (fzSetReg c (rd + 1) (BitVec.ofNat 32 w) (s2.setCore c (x.setHere (x.here.setG rd (BitVec.ofNat 32 v)))))))

/-- CSW (R334): rs to the control register at ra + imm. -/
def execFzCsw (c rs ra imm : Nat) (s : State) : Host.Outcome State Fault Refusal :=
  fzDo c s (fun s => ctrlStore c 4 (fzEa c ra imm s).toNat ((s.core c).here.g rs) s)

/-- CSH (R335). -/
def execFzCsh (c rs ra imm : Nat) (s : State) : Host.Outcome State Fault Refusal :=
  fzDo c s (fun s => ctrlStore c 2 (fzEa c ra imm s).toNat ((s.core c).here.g rs) s)

/-- CSB (R335). -/
def execFzCsb (c rs ra imm : Nat) (s : State) : Host.Outcome State Fault Refusal :=
  fzDo c s (fun s => ctrlStore c 1 (fzEa c ra imm s).toNat ((s.core c).here.g rs) s)

/-- A pair of writes that has passed its checks, the lower address first (R336). An exception of either leaves nothing changed, and a pair whose second
word must wait is made whole later. -/
def pairPut (c a v w : Nat) (s : State) : FzRes :=
  match ctrlWrite c a v s with
  | .ok s1 =>
    match ctrlWrite c (a + 4) w s1 with
    | .ok s2 => .ok (fzAdvance c s2)
    | .trap code ad q _ => .trap code ad q s
    | .stall _ => .stall s
  | .trap code ad q _ => .trap code ad q s
  | .stall s1 => .stall s1

/-- CSD (R336): rs and rs + 1 to the two control registers at ra + imm, the lower address first. -/
def execFzCsd (c rs ra imm : Nat) (s : State) : Host.Outcome State Fault Refusal :=
  fzDo c s (fun s =>
    let a := (fzEa c ra imm s).toNat
    let b := (s.core c).here
    pairCheck c rs a true s (pairPut c a (b.g rs).toNat (b.g (rs + 1)).toNat s))

/-! ## Commands that stand for one access -/

/-- A full-width control load of a fixed register. -/
def readReg (c rd a : Nat) (s : State) : Host.Outcome State Fault Refusal := fzDo c s (ctrlLoad c 4 rd a)

/-- A full-width control store of register rs to a fixed register. -/
def writeReg (c rs a : Nat) (s : State) : Host.Outcome State Fault Refusal := fzDo c s (fun s => ctrlStore c 4 a ((s.core c).here.g rs) s)

/-- REPLAYQ_POP (R320, R321): CLW of REPLAYQ. -/
def execReplayqPop (c rd : Nat) (s : State) : Host.Outcome State Fault Refusal := readReg c rd 0x1040 s

/-- REPLAY_REQUEST_WRITE (R321): CSW to REPLAY. -/
def execReplayRequestWrite (c rs : Nat) (s : State) : Host.Outcome State Fault Refusal := writeReg c rs 0x1044 s

/-- TXDATA_APPEND (Table 8.14). -/
def execTxdataAppend (c rs : Nat) (s : State) : Host.Outcome State Fault Refusal := writeReg c rs 0x1008 s

/-- TXLAST_SEND (Table 8.14). -/
def execTxlastSend (c rs : Nat) (s : State) : Host.Outcome State Fault Refusal := writeReg c rs 0x100C s

/-- RXHEAD_READ (Table 8.14). -/
def execRxheadRead (c rd : Nat) (s : State) : Host.Outcome State Fault Refusal := readReg c rd 0x1024 s

/-- RXDATA_POP (Table 8.14). -/
def execRxdataPop (c rd : Nat) (s : State) : Host.Outcome State Fault Refusal := readReg c rd 0x1028 s

/-- EXCOUNT_READ (Table 8.14). -/
def execExcountRead (c rd : Nat) (s : State) : Host.Outcome State Fault Refusal := readReg c rd 0x6C s

/-- LATCHED_PAIR_READ (R336): CLW of the lower word of an R65 register. -/
def execLatchedPairRead (c rd addr : Nat) (s : State) : Host.Outcome State Fault Refusal :=
  match ctrlKind c addr with
  | some (.lo, _) => readReg c rd addr s
  | _ => done s

/-- WDOG_WRITE (R329). -/
def execWdogWrite (c rs : Nat) (s : State) : Host.Outcome State Fault Refusal := writeReg c rs 0x88 s

/-- PULLREQ_WRITE (Table 8.14). -/
def execPullreqWrite (c rs : Nat) (s : State) : Host.Outcome State Fault Refusal := writeReg c rs 0x90 s

/-- DOORBELL_WRITE (Tables 8.7, 8.14). -/
def execDoorbellWrite (c rs : Nat) (s : State) : Host.Outcome State Fault Refusal := writeReg c rs 0x1060 s

/-- SHCTL_STOP (Table 8.14): a write of 1 to SHCTLn. -/
def execShctlStop (c n : Nat) (s : State) : Host.Outcome State Fault Refusal := fzDo c s (ctrlStore c 4 (0x2000 + 4 * (n % 16)) 1#32)

/-- SHCTL_RESTART (R328, Table 8.14): a write of 2 to SHCTLn. -/
def execShctlRestart (c n : Nat) (s : State) : Host.Outcome State Fault Refusal := fzDo c s (ctrlStore c 4 (0x2000 + 4 * (n % 16)) 2#32)

/-- IBIND_WRITE (R317). -/
def execIbindWrite (c : Nat) (high : Bool) (rs : Nat) (s : State) : Host.Outcome State Fault Refusal :=
  writeReg c rs (if high then 0x3C else 0x38) s

end Sys2Proof.Machine
end

