-- ==== Sys2Proof/Machine/FizSys.lean ====
section
/-! DEFINITION. Fizhaig system instructions and events: context switches (R302 to R306), save and restore (R307 to R309), returns, waits,
interrupts (R315 to R319), the replay service (R320 to R322), reserved encodings and fetch faults, watchdog, timers and restarts. -/

namespace Sys2Proof.Machine
open Sys2Proof

/-! ## Save and restore (R307 to R309) -/

/-- Local RAM holds `n` bytes from an address on, reachable by a bank of a plane. -/
def fzRam (c : Nat) (x : Core) (planeB : Bool) (a n : Nat) : Bool :=
  let ok := fun (q : Nat) => (fzPlace c x q).isLocal && fzAllowed c x { sys := true, planeB := planeB } true q
  ok a && ok (a + n - 1)

/-- FCSR as a frame holds it: 0 on shuttles (Table 8.6). -/
def frameFcsr (c : Nat) (x : Core) : Word := if isShuttle c then 0#32 else BitVec.ofNat 32 x.fcsr

/-- The 20 words of a save frame at address `a` (Table 8.6). -/
def saveFrame (c k : Nat) (high : Bool) (a : Word) (x : Core) : List Word :=
  let b := x.bank k
  let tag := BitVec.ofNat 32 (b2n high + 2 * (k % 16))
  if high then tag :: (List.range 16).map (fun i => b.g (16 + i)) ++ [b.status k, 0#32, a]
  else tag :: (List.range 15).map (fun i => b.g (1 + i)) ++ [b.pc, b.status k, frameFcsr c x, a]

/-- SAVL or SAVU of bank k: the exception code it raises, or the core after it (R308). -/
def saveBank (c k : Nat) (high : Bool) (x : Core) : Sum Nat Core :=
  let b := x.bank k
  let a := b.ssp.toNat
  if a % 16 ≠ 0 ∨ a < b.ssb.toNat ∨ !inSaveRegion x a then .inl 4
  else if b.ssl.toNat < a + 80 then .inl 8
  else if !fzRam c x b.planeB a 80 then .inl 4
  else .inr ((fzPokes c a (saveFrame c k high b.ssp x) x).setBank k { b with ssp := b.ssp + 80#32 })

/-- Registers of a frame at `a` put into bank k (R308, R309). -/
def loadFrame (c k : Nat) (high execSys : Bool) (a : Nat) (x : Core) : Core :=
  let b := x.bank k
  let w := fun (i : Nat) => fzWord c x (a + 4 * i)
  if high then
    x.setBank k (((List.range 16).foldl (fun q i => q.setG (16 + i) (w (1 + i))) b).restoreStatus execSys (w 17))
  else
    let b1 := (List.range 15).foldl (fun q i => q.setG (1 + i) (w (1 + i))) b
    let x1 := x.setBank k ({ b1 with pc := w 16 }.restoreStatus execSys (w 17))
    if isShuttle c then x1 else { x1 with fcsr := (w 18).toNat % 32 }

/-- RSTL or RSTU of bank k: the exception code it raises, or the core after it (R308). -/
def restoreBank (c k : Nat) (high execSys : Bool) (x : Core) : Sum Nat Core :=
  let b := x.bank k
  let a := b.ssp.toNat - 80
  if b.ssp.toNat < 80 + b.ssb.toNat then .inl 9
  else if !fzRam c x b.planeB a 80 then .inl 4
  else if fzWord c x (a + 76) ≠ BitVec.ofNat 32 a ∨ (fzWord c x a).getLsbD 0 ≠ high then .inl 9
  else
    let x1 := loadFrame c k high execSys a x
    .inr (x1.setBank k { x1.bank k with ssp := BitVec.ofNat 32 a })

/-- A save or restore of the current bank as an instruction. A restore of the low frame leaves the pc it restored. -/
def saveInstr (c : Nat) (r : Sum Nat Core) (advance : Bool) (s : State) : FzRes :=
  match r with
  | .inl code => .trap code (s.core c).here.ssp.toNat false s
  | .inr x => .ok (if advance then fzAdvance c (s.setCore c x) else s.setCore c x)

/-- A load of saved data that meets an uncorrectable error raises MEM_UNCORRECTABLE; a corrected one counts (R192). -/
def fzEccGate (ecc : Nat) (s : State) (f : State → FzRes) (inSeq : Bool := false) : FzRes :=
  if ecc = 2 then .trap 6 0 inSeq (fzEcc 2 s) else f (fzEcc ecc s)

/-- SAVL (R308). -/
def execFzSavl (c : Nat) (s : State) : Host.Outcome State Fault Refusal :=
  fzDo c s (fun s => saveInstr c (saveBank c (s.core c).cur false (s.core c)) true s)

/-- SAVU (R308). -/
def execFzSavu (c : Nat) (s : State) : Host.Outcome State Fault Refusal :=
  fzDo c s (fun s => saveInstr c (saveBank c (s.core c).cur true (s.core c)) true s)

/-- RSTL (R308, R309): the frame's pc is restored with its registers. -/
def execFzRstl (c ecc : Nat) (s : State) : Host.Outcome State Fault Refusal :=
  fzDo c s (fun s => fzEccGate ecc s (fun s => saveInstr c (restoreBank c (s.core c).cur false (s.core c).here.sys (s.core c)) false s))

/-- RSTU (R308, R309). -/
def execFzRstu (c ecc : Nat) (s : State) : Host.Outcome State Fault Refusal :=
  fzDo c s (fun s => fzEccGate ecc s (fun s => saveInstr c (restoreBank c (s.core c).cur true (s.core c).here.sys (s.core c)) true s))

/-! ## Context switches (R302 to R305) -/

/-- Banks of a plane half that CTX contexts may hold (Table 8.4). A supervisor has none: CTX there names the current context or raises CTX_INVALID (DESIGN
CHOICE, log 154). -/
def ctxBanks (c : Nat) (x : Core) (planeB : Bool) : List Nat :=
  if isShuttle c then (if planeB then [5, 6, 7] else [2, 3, 4])
  else if isMp c then
    ((List.range 14).map (· + 2)).filter (fun k => (List.range 15).all (fun l => boundBank x.ibindL x.ibindH (l + 1) != k))
  else []

/-- A bank is bound to an interrupt level. -/
def isBound (c : Nat) (x : Core) (k : Nat) : Bool :=
  !isShuttle c && (List.range 15).any (fun l => boundBank x.ibindL x.ibindH (l + 1) == k)

/-- The checks of step 1 of R303 on a CCB at address `a`. -/
def ccbOk (c : Nat) (x : Core) (a : Nat) : Bool :=
  let b := x.here
  let st := (fzWord c x a).toNat
  let info := (fzWord c x (a + 8)).toNat
  let lim := (fzWord c x (a + 12)).toNat
  inSaveRegion x a && decide (a + 16 ≤ x.savlim) && a % 16 == 0 && fzRam c x b.planeB a 16 && (bit info 5 == b.planeB) &&
    !(bit info 0 && isBound c x (field info 4 1)) && decide (x.savbase ≤ st) && decide (st ≤ x.savlim) && decide (x.savbase ≤ lim) &&
    decide (lim ≤ x.savlim) && decide (a + 16 ≤ st) && decide (st ≤ lim)

/-- The bank of a half whose context became resident earliest, the current bank excepted (R304). -/
def victim (x : Core) (ks : List Nat) : Option Nat :=
  (ks.filter (fun k => (x.bank k).resident && k != x.cur)).foldl
    (fun o k => match o with | none => some k | some j => if (x.bank k).age < (x.bank j).age then some k else some j) none

/-- The overflow sequence on a victim (R304): its two frames, STACK and RESIDENT of its CCB, and its bank free. -/
def evict (c v : Nat) (x : Core) : Sum Nat Core :=
  let b := x.bank v
  if b.ssl.toNat < b.ssp.toNat + 160 then .inl 8
  else match saveBank c v true x with
    | .inl e => .inl e
    | .inr x1 =>
      match saveBank c v false x1 with
      | .inl e => .inl e
      | .inr x2 =>
        let b2 := x2.bank v
        let ccb := b2.ssb.toNat - 16
        let x3 := fzPoke c ccb 4 b2.ssp.toNat x2
        let x4 := fzPoke c (ccb + 8) 4 (withBit (fzWord c x3 (ccb + 8)).toNat 0 false) x3
        .inr (x4.setBank v { x4.bank v with resident := false })

/-- Step 5 of R303: the target of the CCB at `a` restored into bank f, which becomes current. -/
def admitCtx (c f a : Nat) (x : Core) : Sum Nat Core :=
  let b := x.here
  let t : FBank := { x.bank f with ssb := BitVec.ofNat 32 (a + 16), ssp := fzWord c x a, ssl := fzWord c x (a + 12), planeB := b.planeB,
                                   resident := true, age := x.ageSeq, wait := .none, busErr := none }
  match restoreBank c f false b.sys (x.setBank f t) with
  | .inl e => .inl e
  | .inr x1 =>
    match restoreBank c f true b.sys x1 with
    | .inl e => .inl e
    | .inr x2 =>
      let x3 := fzPoke c (a + 8) 4 (1 + 2 * f + 32 * b2n b.planeB) x2
      .inr { x3 with cur := f, ageSeq := x.ageSeq + 1 }

/-- CTX to the CCB at address `a` needs the overflow sequence (R303, R304): its context is not resident, and no bank of the half is free. -/
def ctxOverflows (c a : Nat) (s : State) : Bool :=
  let x := s.core c
  let ks := ctxBanks c x x.here.planeB
  ccbOk c x a && !bit (fzWord c x (a + 8)).toNat 0 && !(x.here.resident && x.here.ssb.toNat == a + 16) &&
    ks.all (fun k => (x.bank k).resident || k == x.cur) && (victim x ks).isSome

/-- CTX to the CCB at address `a` (R303). A CCB that claims a bank in which no CTX context is ever resident (Table 8.4), the replay service's say, is
invalid (DESIGN CHOICE, log 155). -/
def ctxSwitch (c a : Nat) (s : State) : FzRes :=
  let x := s.core c
  let b := x.here
  let kept := x.setHere { b with pc := b.pc + 4#32 }
  if !ccbOk c x a then .trap 0x0A a false s
  else if b.resident ∧ b.ssb.toNat = a + 16 then .ok (fzAdvance c s)
  else
    let info := (fzWord c x (a + 8)).toNat
    let ks := ctxBanks c x b.planeB
    if bit info 0 then
      (if ks.contains (field info 4 1) then .ok (s.setCore c { kept with cur := field info 4 1 }) else .trap 0x0A a false s)
    else
      match ks.find? (fun k => !(x.bank k).resident && k != x.cur) with
      | some f =>
        match admitCtx c f a kept with
        | .inr y => .ok (s.setCore c y)
        | .inl e => .trap e a false s
      | none =>
        match victim x ks with
        | none => .trap 0x0A a false s
        | some v =>
          match evict c v kept with
          | .inl e => .trap e a true s
          | .inr x1 =>
            match admitCtx c v a x1 with
            | .inr y => .ok (fzBump c 6 6 6 (s.setCore c y))
            | .inl e => .trap e a true s

/-- CTX (R303, R324): an uncorrectable word that it meets in its overflow sequence is an exception of that sequence. -/
def execFzCtx (c ra ecc : Nat) (s : State) : Host.Outcome State Fault Refusal :=
  fzDo c s (fun s =>
    let a := ((s.core c).here.g ra).toNat
    fzEccGate ecc s (ctxSwitch c a) (ctxOverflows c a s))

/-! ## Returns (R324, R326, R316, R320) -/

/-- The excepting bank goes on at the saved pc with its STATUS restored (R309, R324). A frame that names a shuttle's bank 1 is none that the hardware
wrote, as the replay service raises no exception and no program writes that bank (R322): the bank is left alone, and the RFE only takes the frame (DESIGN
CHOICE, log 155). A bank whose half has been retired has no context: the other half issues (R331). -/
def returnTo (c : Nat) (pc st cause : Word) (x : Core) : Core :=
  let t := field cause.toNat 11 8 % bankCount c
  if isShuttle c ∧ t = 1 then x.setHere { x.here with pc := x.here.pc + 4#32 }
  else if (x.bank t).wait = .ended then { x with cur := x.other.getD t, other := none }
  else
    let b := ({ x.bank t with pc := pc }).restoreStatus true st
    { x.setBank t b with cur := t }

/-- The frame at `a` read word by word: pc, STATUS and cause word, or `none` when a word is uncorrectable and no mirror serves it (R111). `ecc` is what the
first one shows. -/
def frameRead (c a ecc : Nat) (s : State) : Option (Word × Word × Word) × State :=
  match fzRead c a 4 ecc s with
  | (none, s1) => (none, s1)
  | (some p, s1) =>
    match fzRead c (a + 4) 4 0 s1 with
    | (none, s2) => (none, s2)
    | (some st, s2) =>
      match fzRead c (a + 8) 4 0 s2 with
      | (none, s3) => (none, s3)
      | (some cs, s3) => (some (BitVec.ofNat 32 p, BitVec.ofNat 32 st, BitVec.ofNat 32 cs), s3)

/-- RFE: from the stack, which may lie in a bank of the scratchpad (R109, R111), or in the recovery bank from the last-resort frame, which clears DOUBLE
(R324, R326). -/
def rfe (c ecc : Nat) (s : State) : FzRes :=
  let x := s.core c
  let b := x.here
  if x.cur = 16 then
    fzEccGate ecc s (fun t =>
      .ok (t.setCore c { returnTo c (fzWord c x privBase) (fzWord c x (privBase + 4)) (fzWord c x (privBase + 8)) (t.core c) with double := false }))
  else
    let a := (b.g 30).toNat
    if a % 4 ≠ 0 then .trap 3 a false s
    else if !fzAllowed c x b false a ∨ !fzAllowed c x b false (a + 12) then .trap 4 a false s
    else match fzPlace c x a with
      | .noc _ => .trap 4 a false s
      | _ => fzAtBank c a (fun t =>
        match frameRead c a ecc t with
        | (some (p, st, cs), t1) => .ok (t1.setCore c (returnTo c p st cs ((t1.core c).setHere (b.setG 30 (b.g 30 + 16#32)))))
        | (none, t1) => .trap 6 a false t1) s

/-- RFE (R324). -/
def execFzRfe (c ecc : Nat) (s : State) : Host.Outcome State Fault Refusal := fzDo c s (fun s => fzSystem c s (rfe c ecc))

/-- The bank that RFI returns to: the one that was left, the recovery bank too, whose number 16 PREV's four bits in STATUS do not show (log 136). -/
def prevBank (c : Nat) (b : FBank) : Nat := if b.prev = 16 then 16 else b.prev % bankCount c

/-- RFI (R316, R320): the bank that was left is current again. -/
def execFzRfi (c : Nat) (s : State) : Host.Outcome State Fault Refusal :=
  fzDo c s (fun s => fzSystem c s (fun s =>
    let x := s.core c
    .ok (s.setCore c { x.setHere { x.here with pc := x.here.pc + 4#32 } with cur := prevBank c x.here })))

/-! ## Waits and plain system instructions -/

/-- The wake condition of WAIT: a token at the shuttle input, or a pending interrupt (Table 8.13). -/
def wakes (s : State) (c : Nat) : Bool := if isShuttle c then !(s.motif c).shuttleIn.isEmpty else (s.core c).ipend != 0

/-- WAIT (Table 8.13): the bank stops issuing until its wake condition holds. -/
def execFzWait (c : Nat) (s : State) : Host.Outcome State Fault Refusal :=
  fzDo c s (fun s =>
    let s1 := fzAdvance c s
    let x := s1.core c
    .ok (if wakes s c then s1 else s1.setCore c (x.setHere { x.here with wait := .event })))

/-- WAIT_WAKE: a waiting bank goes on when the wake condition of its core holds. -/
def execFzWaitWake (c : Nat) (s : State) : Host.Outcome State Fault Refusal :=
  if wakes s c then
    let x := s.core c
    let bs := x.banks.map (fun e => (e.1, if e.2.wait = .event then { e.2 with wait := .none } else e.2))
    done (fzSettle c (s.setCore c { x with banks := bs }))
  else done s

/-- SYS (R323): raises SYS; the saved pc is the next instruction. -/
def execFzSys (c : Nat) (s : State) : Host.Outcome State Fault Refusal := fzDo c s (fun s => .trap 0x0B 0 false s)

/-- BRK (R323). -/
def execFzBrk (c : Nat) (s : State) : Host.Outcome State Fault Refusal := fzDo c s (fun s => .trap 0x0C 0 false s)

/-- FENCE (R298): waits until every earlier WRITE of the core has its WRITE_ACK. -/
def execFzFence (c : Nat) (s : State) : Host.Outcome State Fault Refusal :=
  fzDo c s (fun s =>
    let x := s.core c
    if x.writes.isEmpty then .ok (fzAdvance c s) else .ok (s.setCore c (x.setHere { x.here with wait := .fence })))

/-- IE of the current bank set or cleared by a SYSTEM instruction. -/
def setIe (c : Nat) (v : Bool) (s : State) : Host.Outcome State Fault Refusal :=
  fzDo c s (fun s => fzSystem c s (fun s =>
    let x := s.core c
    .ok (fzAdvance c (s.setCore c (x.setHere { x.here with ie := v })))))

/-- EI (Table 8.13). -/
def execFzEi (c : Nat) (s : State) : Host.Outcome State Fault Refusal := setIe c true s

/-- DI (Table 8.13). -/
def execFzDi (c : Nat) (s : State) : Host.Outcome State Fault Refusal := setIe c false s

/-! ## Reserved encodings and fetches (R296, R322, R332, R333) -/

/-- A row of Table 8.13: OP, the FUNC bits with their width (0 for none), and the fields, as highest and lowest bit, that must be 0. -/
structure OpRow where
  op : Nat
  fbits : Nat
  func : Nat
  zeros : List (Nat × Nat)
  deriving DecidableEq, Repr

/-- Rows of one OP with a list of FUNC values. -/
def opRows (op fbits : Nat) (zeros : List (Nat × Nat)) (fs : List Nat) : List OpRow := fs.map (fun f => ⟨op, fbits, f, zeros⟩)

/-- The encodings of Table 8.13. -/
def opTable : List OpRow :=
  opRows 0x00 11 [] [0, 1, 2, 3, 4, 5, 8, 9, 0xA, 0xB, 0x10, 0x11, 0x12, 0x13] ++ opRows 0x00 11 [(15, 11)] [0x14] ++
  opRows 0x01 11 [] [0, 1, 2, 4, 5, 6, 7] ++
  ([0x04, 0x05, 0x06, 0x07, 0x08, 0x09].map (fun p => ⟨p, 0, 0, []⟩)) ++
  ([0x0A, 0x0B, 0x0C].map (fun p => ⟨p, 0, 0, [(15, 5)]⟩)) ++ [⟨0x0D, 0, 0, [(20, 16)]⟩] ++
  ([0x10, 0x11, 0x12, 0x13, 0x14, 0x15, 0x18, 0x19, 0x1A, 0x1C, 0x1D, 0x1E, 0x1F, 0x20, 0x21, 0x22, 0x23, 0x28, 0x29, 0x2A, 0x2B, 0x2C, 0x2D,
    0x30, 0x31, 0x32].map (fun p => ⟨p, 0, 0, []⟩)) ++
  opRows 0x38 11 [(25, 21), (15, 11)] [0x000] ++ opRows 0x38 11 [(25, 11)] [1, 2, 3, 4] ++
  opRows 0x38 11 [] [5, 6, 8, 9, 0xA, 0xB, 0xC, 0xD, 0xE, 0xF] ++
  opRows 0x3C 6 [] (List.range 0x14) ++ [⟨0x3D, 0, 0, []⟩, ⟨0x3E, 0, 0, []⟩]

/-- A word fits a row of Table 8.13. -/
def OpRow.fits (r : OpRow) (w : Nat) : Bool := field w 31 26 == r.op && w % 2 ^ r.fbits == r.func && r.zeros.all (fun z => field w z.1 z.2 == 0)

/-- The word is an instruction of Table 8.13. -/
def isOpcode (w : Nat) : Bool := opTable.any (fun r => r.fits w)

/-- RESERVED_ENCODING (R333): an instruction word with a reserved OP, FUNC or register field raises ILLEGAL. -/
def execReservedEncoding (c w : Nat) (s : State) : Host.Outcome State Fault Refusal :=
  if isOpcode (w % 2 ^ 32) then done s else fzDo c s (fun s => .trap 1 0 false s)

/-- INSTRUCTION_FETCH_FAULT (R296, R297, R322, R323): a fetch that is not allowed raises ACCESS; one that meets an uncorrectable error raises
MEM_UNCORRECTABLE, or halts the core when it lies in ROM. -/
def execInstructionFetchFault (c ecc : Nat) (s : State) : Host.Outcome State Fault Refusal :=
  if !fzIssues s c then done s
  else
    let x := s.core c
    let b := x.here
    if !fzFetchable c x b then done (orHeld c s (fzTrap c 4 b.pc.toNat b.pc false false s))
    else match fzPlace c x b.pc.toNat with
      | .rom _ => if ecc = 2 then done (fzHalt c s) else done s
      | _ => if ecc = 2 then done (orHeld c s (fzTrap c 6 b.pc.toNat b.pc false false (fzEcc 2 s))) else done (fzEcc ecc s)

/-! ## Interrupts (R315 to R319) -/

/-- Level of source n. -/
def sourceLevel (x : Core) (n : Nat) : Nat := field x.ilvl (4 * n + 3) (4 * n)

/-- Pending sources of a level above 0 that is bound, in order of source number. -/
def ready (c : Nat) (x : Core) : List Nat :=
  (List.range (sourceCount c)).filter (fun n => bit x.ipend n && sourceLevel x n != 0 && boundBank x.ibindL x.ibindH (sourceLevel x n) != 0)

/-- The source to be taken: highest level first, then the lowest number (R316). -/
def nextSource (c : Nat) (x : Core) : Option Nat :=
  (ready c x).foldl (fun o n => match o with | none => some n | some j => if sourceLevel x j < sourceLevel x n then some n else some j) none

/-- The current bank is at a boundary, or in an instruction that waits, without bound, for the NoC or an event: all of those are left, as Table 8.8 names 34
and 42 cycles as the longest that are not (R319). A load and a FENCE are executed again after RFI. -/
def interruptible (b : FBank) : Bool := match b.wait with | .none => true | .event => true | .load _ _ _ _ => true | .fence => true | .ended => true

/-- INTERRUPT_ENTRY (R316, R319): the source's bound bank becomes current at VBASE + 0x200 + 16 L; a load that waits is abandoned and executed
again after RFI. From T_c on a supervisor vectors through the new half's VBASE (R331). -/
def execInterruptEntry (c : Nat) (s : State) : Host.Outcome State Fault Refusal :=
  let x := s.core c
  let b := x.here
  if c ≥ 69 ∨ isShuttle c ∨ !x.started ∨ x.state ≠ 0 ∨ !b.ie ∨ !interruptible b then done s
  else match nextSource c x with
    | none => done s
    | some n =>
      let l := sourceLevel x n
      if l ≤ b.level then done s
      else
        let k := boundBank x.ibindL x.ibindH l
        let planeB := !isMp c && s.activeB
        let x1 := x.setHere { b with wait := .none }
        let e : FBank := { x1.bank k with prev := x.cur, level := l, ie := false, wait := .none, planeB := planeB,
                                          pc := BitVec.ofNat 32 (fzVbase c x planeB + 0x200 + 16 * l) }
        let s1 := s.setCore c { x1.setBank k e with cur := k, ipend := withBit x.ipend n false }
        let (f, s2) := s1.fresh
        let cyc := 4 + (Config.freeWord f).toNat % 35
        done (if isMp c then s2 else s2.peak (0x3031 + (c - 64)) 8 cyc)

/-! ## The replay service (R320, R321) -/

/-- Where the replay service begins: an instruction of the shuttle's ROM (R321). -/
def replayPc (c : Nat) : Word := BitVec.ofNat 32 (romBase + 4 * ((Config.replayEntry c).toNat % (romSize c / 4)))

/-- REPLAY_SERVICE_INSERT (R320, R328): in the cycle after a decision the shuttle of motif m inserts a CTX to bank 1, whatever it does, a stopped shuttle or
one without a program too. A halted one serves none: its decisions leave no request. -/
def execReplayServiceInsert (m : Nat) (s : State) : Host.Outcome State Fault Refusal :=
  let c := m % 64
  let x := s.core c
  if (s.motif c).decided.isEmpty then done s
  else if x.state = 1 then done (s.setMotif c { s.motif c with decided := [] })
  else if x.cur = 1 then done s
  else
    let b : FBank := { x.bank 1 with prev := x.cur, pc := replayPc c, sys := true, ie := false, wait := .none }
    done (s.setCore c { x.setBank 1 b with cur := 1, popped := 0 })

/-! ## Watchdog, timers, restarts (R328, R329) -/

/-- The watchdog period in nanoseconds (0x3030:0A). -/
def wdogNs (s : State) : Nat := 1000000 * s.obj 0x3030 0x0A

/-- WATCHDOG_WARNING (Table 8.7): at half the period the MP's source 0 becomes pending. -/
def execWatchdogWarning (s : State) : Host.Outcome State Fault Refusal :=
  let x := s.core 68
  if x.started ∧ !x.warned ∧ x.wdog + wdogNs s / 2 ≤ s.time.clk then done ((s.setCore 68 { x with warned := true }).interrupt 68 0) else done s

/-- WATCHDOG_EXPIRY (R329): the MP alone restarts. -/
def execWatchdogExpiry (s : State) : Host.Outcome State Fault Refusal :=
  let x := s.core 68
  if x.started ∧ x.wdog + wdogNs s ≤ s.time.clk then done (mpRestart 0 s) else done s

/-- The MP starts its firmware in bank 1 (R330, Table 8.4), with what the firmware's image gives it. -/
def startMp (entry : Nat) (s : State) : State :=
  let s1 := imageRegs 68 s
  let x := clearCore (s1.core 68)
  let b : FBank := { pc := BitVec.ofNat 32 entry }
  s1.setCore 68 { x.setBank 1 b with started := true, cur := 1, wdog := s.time.clk, warned := false }

/-- SUPERVISOR_TIMER_EXPIRY (Table 8.7): source 4 of supervisor h. -/
def execSupervisorTimerExpiry (h : Nat) (s : State) : Host.Outcome State Fault Refusal := done (s.interrupt (64 + h % 4) 4)

/-- MP_TIMER_EXPIRY (Table 8.7): source 10 of the MP. -/
def execMpTimerExpiry (s : State) : Host.Outcome State Fault Refusal := done (s.interrupt 68 10)

/-- The effect of a write of RESTART to 0x3031 + h (Table 8.16): TRUE restarts a halted supervisor; refused while it is not halted. -/
def writeSupervisorRestart (h : Nat) (v : Bool) (s : State) : Reply :=
  if !v then .ok s else if s.obj (0x3031 + h) 1 = 1 then .ok (restartSupervisor h s) else .refuse s abortState

/-- SUPERVISOR_RESTART_WRITE (Table 8.16). -/
def execSupervisorRestartWrite (path h : Nat) (v : Bool) (s : State) : Host.Outcome State Fault Refusal :=
  done (sdoWrite path (0x3031 + h % 4) 7 1 (b2n v) (writeSupervisorRestart (h % 4) v) s)

/-- The effect of a write of 0x3038:09 (Table 8.17): a halted or stopped shuttle restarts; another is refused. -/
def writeShuttleRestart (v : Nat) (s : State) : Reply :=
  if 63 < v then .refuse s abortValue
  else if (s.core v).state = 1 ∨ (s.core v).state = 2 then .ok (restartShuttle v s) else .refuse s abortState

/-- SHUTTLE_RESTART_WRITE (Table 8.17). -/
def execShuttleRestartWrite (path v : Nat) (s : State) : Host.Outcome State Fault Refusal :=
  done (sdoWrite path 0x3038 9 1 v (writeShuttleRestart v) s)

end Sys2Proof.Machine
end

