-- ==== Sys2Proof/Machine/Dict.lean ====
section
/-! DEFINITION. The object dictionary as a whole (R339 to R352): which subindices there are, what a read answers, what a write checks, in the
order of R347, and what it does. The secure range (R384) stands in Secure.lean. -/

namespace Sys2Proof.Machine
open Sys2Proof

/-! ## Rows -/

/-- The row covers a subindex. -/
def ObjRow.covers (r : ObjRow) (ix sub : Nat) : Bool := decide (r.ix ≤ ix) && decide (ix < r.ix + r.n) && decide (r.lo ≤ sub) && decide (sub ≤ r.hi)

/-- The row of a subindex, if the object tables list it (R340). -/
def rowOf (ix sub : Nat) : Option ObjRow := objRows.find? (fun r => r.covers ix sub)

/-- The object tables list the index. -/
def hasObject (ix : Nat) : Bool := objRows.any (fun r => decide (r.ix ≤ ix) && decide (ix < r.ix + r.n))

/-- Abort code of a subindex that is not there (R347 checks 2 and 3). -/
def absentCode (ix : Nat) : Nat := if hasObject ix then abortNoSub else abortNoObject

/-- The instance a subindex shows, behind its object's selector (0 where there is none). -/
def instSel (s : State) (ix sub : Nat) : Nat :=
  if ix = 0x4000 ∧ 2 ≤ sub ∧ sub ≤ 0x0A then s.obj 0x4000 1
  else if (ix = 0x4100 ∨ ix = 0x4200 ∨ ix = 0x4300 ∨ ix = 0x4400) ∧ 2 ≤ sub then s.obj ix 1
  else if ix = 0x4500 ∧ 2 ≤ sub ∧ sub ≤ 0x0A then s.obj 0x4500 1
  else if ix = 0x3038 ∧ 3 ≤ sub ∧ sub ≤ 8 then s.obj 0x3038 2
  else 0

/-! ## Reads -/

/-- Decimal digits of a number as characters, most significant first. -/
def digits : Nat → Nat → List Byte
  | 0, _ => []
  | f + 1, n => (if n < 10 then [] else digits f (n / 10)) ++ [BitVec.ofNat 8 (0x30 + n % 10)]

/-- 0x100A: "major.minor.build" (R484). -/
def versionText (v : Nat) : List Byte :=
  digits 3 (v / 2 ^ 24) ++ [0x2E#8] ++ digits 3 (v / 2 ^ 16 % 256) ++ [0x2E#8] ++ digits 5 (v % 2 ^ 16)

/-- The characters of a drive's string without trailing spaces beyond its limit. -/
def driveText (cs : List Nat) (n : Nat) : List Byte := (cs.take n).map (BitVec.ofNat 8)

/-- The sampler records a read shows: live, or the copy in boot flash (R445). -/
def shownRecs (s : State) : List SamplerRec := if s.obj 0x5000 0x0D = 1 then (s.flash.samp.map (·.recs)).getD [] else s.sampler.recs

/-- FIRST_SEQ and LAST_SEQ of the copy (R445). -/
def copySeq (s : State) (last : Bool) : Nat :=
  match shownRecs s with
  | [] => 0
  | r :: rs => if last then (rs.getLast?.getD r).seq else r.seq

/-- The record whose number is in READ_SEQ (R444). -/
def readRecord (s : State) : Option (List Byte) := ((shownRecs s).find? (fun r => r.seq == s.obj 0x5000 8)).map (·.bytes)

/-- STEP_ENTRY of a step (0x2000:04). -/
def StepEntry.word (e : StepEntry) : Nat :=
  e.attempts % 256 + e.fails % 256 * 2 ^ 8 + 2 ^ 16 * (e.result % 256) + 2 ^ 24 * (e.variant % 256) + 2 ^ 32 * (e.ms % 65536) + 2 ^ 48 * (e.code % 65536)

/-- The image of the selected recipe slot. -/
def slotImage (s : State) : List Byte := (mfind s.flash.recipes (s.obj 0x3602 2)).getD []

/-- The settings of a class in the active plane that 0x3400 + c shows. -/
def classField (d : ClassDecl) (sub : Nat) : Nat :=
  if sub = 3 then d.members else if sub = 4 then d.ports else if sub = 5 then d.offset else if sub = 6 then d.minOffset
  else if sub = 7 then d.budget else if sub = 8 then d.proved else d.action

/-- A token timer's value as 0x2110 + n shows it (Table 1.12). -/
def timerField (x : Timer) (sub : Nat) : Nat :=
  if sub = 1 then b2n x.enable else if sub = 2 then x.start else if sub = 3 then x.period else if sub = 4 then x.stream else x.count

/-- Subindices whose value the spec gives no rule for: estimates of power. -/
def openValue (ix sub : Nat) : Bool :=
  (decide (0x3100 ≤ ix) && decide (ix < 0x3104) && sub == 8) ||
  (ix == 0x2200 && sub == 0x0E)

/-- The value of a CONST subindex: its default (Table 9.3). -/
def constOf (ix sub : Nat) : Option Nat := (rowOf ix sub).bind (fun r => if r.acc = .const then some r.dflt else none)

/-- The value of a numeric subindex that is not CONST. Only 0x3080 to 0x30C7 show the snapshot (R227); the other counters show their live values (DESIGN
CHOICE, log 152). -/
def liveNat (s : State) (ix sub : Nat) : Nat :=
  if sub = 0 then s.obj ix 0
  else if ix = 0x2100 ∧ sub = 5 then s.t
  else if ix = 0x2103 ∧ sub = 1 then s.t / 2 ^ 20
  else if 0x2110 ≤ ix ∧ ix < 0x2120 then timerField (s.timer s.activeB (ix - 0x2110)) sub
  else if 0x3400 ≤ ix ∧ ix < 0x3440 ∧ 3 ≤ sub ∧ sub ≤ 9 then classField (s.cls s.activeB (ix - 0x3400)) sub
  else if 0x3740 ≤ ix ∧ ix < 0x3780 ∧ sub = 1 then (s.cls s.activeB (ix - 0x3740)).execBound
  else if 0x3740 ≤ ix ∧ ix < 0x3780 ∧ sub = 2 then b2n (popCount (s.cls s.activeB (ix - 0x3740)).members 64 == 1)
  else if 0x3200 ≤ ix ∧ ix < 0x3240 ∧ sub = 0x11 then (let x := s.motif (ix - 0x3200); if s.activeB then x.constB else x.constA).toNat
  else if 0x3200 ≤ ix ∧ ix < 0x3240 ∧ sub = 0x12 then (s.motif (ix - 0x3200)).lenA
  else if 0x3200 ≤ ix ∧ ix < 0x3240 ∧ sub = 0x13 then (s.motif (ix - 0x3200)).lenB
  else if 0x3080 ≤ ix ∧ ix < 0x30C8 then mget 0 s.snap (odKey ix sub)
  else if 0x3100 ≤ ix ∧ ix < 0x3104 ∧ (sub = 3 ∨ sub = 4) then halfShow s (2 * (ix - 0x3100) + sub - 2)
  else if ix = 0x1018 ∧ sub = 4 then s.fuses.serial
  else if ix = 0x2010 ∧ sub = 5 then s.upkeep.latency % 2 ^ 32
  else if ix = 0x2000 ∧ sub = 4 then (mget {} s.start.record (s.obj 0x2000 3)).word
  else if ix = 0x2200 ∧ sub = 0x0B then s.power.on
  else if ix = 0x3012 ∧ sub = 1 then s.dram.rawMiB
  else if ix = 0x3012 ∧ sub = 3 then s.dram.rate
  else if ix = 0x3012 ∧ sub = 4 then s.dram.ranks
  else if ix = 0x3602 ∧ sub = 1 then recipeSlots s
  else if ix = 0x3602 ∧ sub = 3 then (headerOf (slotImage s)).personality
  else if ix = 0x3602 ∧ sub = 4 then (headerOf (slotImage s)).version
  else if ix = 0x3602 ∧ sub = 5 then (slotImage s).length
  else if ix = 0x3602 ∧ sub = 6 then b2n !(slotImage s).isEmpty
  else if ix = 0x3800 ∧ sub = 2 then masterEntry s (s.obj 0x3800 1)
  else if ix = 0x3800 ∧ sub = 0x0A then (s.squeue (s.obj 0x3800 9 / 16) (s.obj 0x3800 9 % 16)).held
  else if ix = 0x3800 ∧ sub = 0x0B then (s.squeue (s.obj 0x3800 9 / 16) (s.obj 0x3800 9 % 16)).peak
  else if ix = 0x5000 ∧ s.obj 0x5000 0x0D = 1 ∧ (sub = 1 ∨ sub = 2) then copySeq s (sub == 2)
  else if ix = 0x5100 ∧ sub = 6 then (mget {} s.alarms (s.obj 0x5100 5)).count
  else if ix = 0x5100 ∧ sub = 7 then (mget {} s.alarms (s.obj 0x5100 5)).first
  else if ix = 0x5100 ∧ sub = 8 then (mget {} s.alarms (s.obj 0x5100 5)).last
  else if ix = 0x5100 ∧ sub = 0x0A then alarmKind (s.obj 0x5100 5)
  else s.obji (instSel s ix sub) ix sub

/-- The value of a numeric subindex. -/
def readNat (s : State) (ix sub : Nat) : Nat := (constOf ix sub).getD (liveNat s ix sub)

/-- The bytes of a string subindex, or the abort code that refuses the read. -/
def readText (s : State) (ix : Nat) (sub : Nat) : Sum Nat (List Byte) :=
  if ix = 0x1008 then .inr ([0x44, 0x46, 0x34, 0x2D, 0x31, 0x30, 0x32, 0x34].map (BitVec.ofNat 8))
  else if ix = 0x1009 then .inr ([0x73, 0x69, 0x6C, 0x69, 0x63, 0x6F, 0x6E, 0x20, 0x31, 0x2E, 0x30].map (BitVec.ofNat 8))
  else if ix = 0x100A then .inr (versionText (s.obj 0x5800 8))
  else if ix = 0x4200 then .inr (s.cam (s.obj 0x4200 1)).result
  else if ix = 0x4400 then
    (let d := driveLink s (s.obj 0x4400 1)
     if s.obji (s.obj 0x4400 1) 0x4400 2 = 0 then .inr [] else .inr (if sub = 7 then driveText d.model 40 else driveText d.serial 20))
  else match readRecord s with | some bs => .inr bs | none => .inl abortValue

/-- What a request leads to: an answer now, or an action that is answered when it ends. -/
inductive Act where
  | now (r : Reply)
  | later (s : State)

/-- A read of one subindex that is there and readable. -/
def readSub (path ix sub : Nat) (r : ObjRow) (s : State) : Act :=
  if ix = 0x5200 ∧ sub = 0x0C then .now (readExport s)
  else if ix = 0x5300 ∧ sub = 0x10 then (match startBlockRead path s with | .inl c => .now (.refuse s c) | .inr s1 => .later s1)
  else if r.size = 0 then (match readText s ix sub with | .inl c => .now (.refuse s c) | .inr bs => .now { data := bs, state := s })
  else if openValue ix sub then (let (f, s1) := s.fresh; .now { data := leBytes (Config.freeWord f).toNat r.size, state := s1 })
  else .now { data := leBytes (readNat s ix sub) r.size, state := s }

/-- A read request (R347 checks 2 to 4). -/
def dictRead (path ix sub : Nat) (s : State) : Act :=
  match rowOf ix sub with
  | none => .now (.refuse s (absentCode ix))
  | some r => if r.acc = .wo then .now (.refuse s abortWriteOnly) else readSub path ix sub r s

/-! ## Conditions of a write (R347 check 6) -/

/-- A selvedge port is idle (R394). -/
def portIdle (s : State) (p : Nat) : Bool :=
  (List.range 64).all (fun c => !bit (s.cls s.activeB c).ports p || (s.classState c != 1 && s.obj (0x3400 + c) 0x14 == 0))

/-- The DRAM is idle (R251). -/
def dramIdle (s : State) : Bool := (s.queue 34).isEmpty && (List.range 64).all (fun c => !bit (s.cls s.activeB c).ports 34 || s.classState c != 1)

/-- The region of an RWI subindex is not idle (R165, R251, R344, R394, Table 11.12). -/
def rwiBusy (s : State) (ix sub : Nat) : Bool :=
  if 0x3200 ≤ ix ∧ ix < 0x3240 then !motifIdle s (ix - 0x3200)
  else if 0x3400 ≤ ix ∧ ix < 0x3440 then s.obj ix 0x14 != 0
  else if 0x3100 ≤ ix ∧ ix < 0x3104 then !hoopIdle s (ix - 0x3100)
  else if ix = 0x3012 then !dramIdle s
  else if ix = 0x4000 then !portIdle s (s.obj 0x4000 1)
  else if ix = 0x4100 then !portIdle s (24 + s.obj 0x4100 1)
  else if ix = 0x4200 then s.obji (s.obj 0x4200 1) 0x4200 2 == 1
  else if ix = 0x4300 then !portIdle s (40 + s.obj 0x4300 1)
  else if ix = 0x4500 then decide (4 ≤ s.obj 0x4500 1) && !portIdle s (32 + s.obj 0x4500 1)
  else ix == 0x5200 && sub != 1 && s.obj 0x5200 1 == 1

/-- PDO mapping objects and assignments are written in PREOP only, entries while subindex 00 is 0 (R362, R363). -/
def mapBusy (s : State) (ix sub : Nat) : Bool :=
  ((decide (0x1600 ≤ ix) && decide (ix < 0x1640)) || (decide (0x1A00 ≤ ix) && decide (ix < 0x1A40))) &&
    (s.obj 0x2010 0x0A != 2 || (sub != 0 && s.obj ix 0 != 0)) || (ix == 0x1C12 || ix == 0x1C13) && s.obj 0x2010 0x0A != 2

/-- The conditions that an object's table refuses with 0x0800_0022 and that do not depend on the value. -/
def stateBusy (s : State) (ix sub : Nat) : Bool :=
  mapBusy s ix sub ||
  (decide (0x2110 ≤ ix) && decide (ix < 0x2120) && sub != 1 && (s.timer s.activeB (ix - 0x2110)).enable) ||
  (decide (0x3400 ≤ ix) && decide (ix < 0x3440) && s.classState (ix - 0x3400) == 0) ||
  (ix == 0x3602 && sub == 7 && fwState s == 5)

/-! ## Values of a write (R347 check 7) -/

/-- The value lies in lo … hi. -/
def inRange (v lo hi : Nat) : Bool := decide (lo ≤ v) && decide (v ≤ hi)

/-- GAP_TIME's range in the channel's mode (Table 10.12). -/
def gapOk (mode v : Nat) : Bool := if mode = 1 then inRange v 1 255 else if mode = 0 then true else inRange v 1000 1000000

/-- FORMAT's fields in the channel's mode (Table 10.4). -/
def formatOk (mode v : Nat) : Bool :=
  if mode = 1 then decide (v < 16) && field v 1 0 != 3
  else if mode = 2 then inRange (field v 5 0) 1 32 && decide (field v 9 6 ≤ 8) && decide (field v 20 12 ≤ 511) && field v 11 11 == 0 && decide (v < 2 ^ 21)
  else if mode = 3 then inRange (field v 6 4) 1 5 && field v 7 7 == 0 && decide (v < 2 ^ 9)
  else true

/-- LINK of a camera (Tables 10.8, 10.13). -/
def camLinkOk (v : Nat) : Bool :=
  [1, 2, 4].contains (field v 2 0) && field v 7 3 == 0 && field v 15 10 == 0 && field v 31 22 == 0 && [0x2A, 0x2B, 0x2C, 0x1E].contains (field v 21 16)

/-- GEOMETRY of a camera (Table 10.13). -/
def camGeomOk (v : Nat) : Bool := inRange (field v 13 0) 1 8192 && inRange (field v 29 16) 1 16383 && field v 15 14 == 0 && field v 31 30 == 0

/-- HIGH and LOW of a boundary queue agree (R432). -/
def bqLimits (high low : Nat) : Bool := (decide (low < high) && decide (high ≤ 2048)) || (high == 0 && low == 0)

/-- Every port of a class, REENTRY apart, has a safe entry in the active plane (R162). -/
def safeWhole (s : State) (c : Nat) : Bool :=
  (bitsOf (s.cls s.activeB c).ports 42).all (fun p => !(mget [] s.selvedge.safe (safeKey s.activeB c p)).isEmpty)

/-- A mapping entry's abort code, 0 where it may stand (R362). `tx` is a TxPDO. -/
def mapCode (tx : Bool) (v : Nat) : Nat :=
  let ix := v / 65536
  let sub := v / 256 % 256
  let len := v % 256
  if ix = 0 ∧ sub = 0 then (if len = 8 ∨ len = 16 ∨ len = 32 then 0 else abortParam)
  else match rowOf ix sub with
    | none => abortNoMap
    | some r => if !r.pdo || (!tx && r.acc != .rw) then abortNoMap else if len ≠ 8 * r.size then abortParam else 0

/-- Bytes of the first n entries of a mapping object. -/
def mapBytes (s : State) (ix n : Nat) : Nat := ((List.range n).map (fun i => s.obj ix (i + 1) % 256)).foldl (· + ·) 0 / 8

/-- Abort code of a value for a mapping or assignment object (R362, R363). -/
def mapValueCode (s : State) (ix sub v : Nat) : Nat :=
  if ix = 0x1C12 then (if sub = 0 then (if v ≤ 16 then 0 else abortValue) else if inRange v 0x1600 0x163F then 0 else abortValue)
  else if ix = 0x1C13 then (if sub = 0 then (if v ≤ 16 then 0 else abortValue) else if inRange v 0x1A00 0x1A3F then 0 else abortValue)
  else if sub = 0 then (if 32 < v then abortValue else if 1024 < mapBytes s ix v then abortMapLen else 0)
  else mapCode (decide (0x1A00 ≤ ix)) v

/-- A value in the range its object's table gives, 0x2000 to 0x3FFF. -/
def rangeLow (s : State) (ix sub v : Nat) : Bool :=
  if ix = 0x2000 then decide (v ≤ 13)
  else if ix = 0x2100 then (if sub = 7 then inRange v 5 1000 else if sub = 8 then inRange v 1000 1000000000 else if sub = 9 then inRange v 2 10000 else decide (v ≤ 999999999))
  else if 0x2110 ≤ ix ∧ ix < 0x2120 then (if sub = 3 then v == 0 || inRange v 1000 1000000000 else if sub = 4 then decide (v < 1024) else true)
  else if ix = 0x2200 then
    (if sub = 3 then inRange v 60 104 else if sub = 9 then inRange v 10000 60000 else if sub = 0x0C then inRange v 1 20 else (v &&& 0xFFFE7E01) == 0)
  else if ix = 0x3012 then v % 1024 == 0 && decide (v ≤ s.obj 0x3012 2)
  else if ix = 0x3030 then inRange v 10 10000
  else if ix = 0x3038 then decide (v < 64)
  else if 0x3400 ≤ ix ∧ ix < 0x3440 then
    (let d := s.cls s.activeB (ix - 0x3400)
     if sub = 5 then inRange v d.minOffset 100000000 else if sub = 7 then decide (v ≤ d.proved) else v == 0 || v == 2 || (v == 1 && safeWhole s (ix - 0x3400)))
  else if ix = 0x3600 then (if sub = 4 then decide (v ≤ 2) else if sub = 6 then decide (v ≤ 1) else if sub = 0x0C then inRange v (retireMin s) 1000000000 else true)
  else if ix = 0x3602 then decide (v < recipeSlots s) || (sub == 8 && v == 0xFF)
  else if ix = 0x3700 then decide (1 ≤ v)
  else if ix = 0x3701 then decide (1 ≤ v)
  else if ix = 0x3800 then (if sub = 1 then decide (v < 1024) else if sub = 9 then decide (v < 64) else true)
  else true

/-- A value in the range its object's table gives, 0x4000 to 0x5FFF. -/
def rangeHigh (s : State) (ix sub v : Nat) : Bool :=
  if ix = 0x4000 then
    (let p := s.obj 0x4000 1
     if sub = 1 then decide (v ≤ 23) else if sub = 2 then decide (v ≤ 3) else if sub = 3 then decide (v < 8) else if sub = 6 then decide (v ≤ 10000000)
     else if sub = 7 then decide (v ≤ 1) else if sub = 8 then inRange v 8 1000000000 else if sub = 9 then decide (s.obji p 0x4000 8 + 8 ≤ v)
     else if sub = 0x0A then decide (1 ≤ v % 65536) && decide (v < 2 ^ 17) else true)
  else if ix = 0x4100 then
    (let c := s.obj 0x4100 1
     let mode := s.obji c 0x4100 2
     if sub = 1 then decide (v ≤ 7) else if sub = 2 then decide (v ≤ 3) else if sub = 3 then inRange v 9600 25000000 else if sub = 4 then formatOk mode v
     else if sub = 5 then decide (v ≤ 10000) else if sub = 6 then gapOk mode v else v == 0 || (mode == 2 && inRange v 1000 1000000000))
  else if ix = 0x4200 then
    (let c := s.obj 0x4200 1
     if sub = 1 then decide (v ≤ 1) else if sub = 3 then camLinkOk v else if sub = 4 then camGeomOk v
     else if sub = 5 then v % 64 == 0 && decide (pixelBytes (field (s.obji c 0x4200 3) 21 16) * field (s.obji c 0x4200 4) 13 0 ≤ v)
     else if sub = 0x0B then v == 100 || v == 400 || v == 1000 else true)
  else if ix = 0x4300 then sub != 1 || decide (v ≤ 1)
  else if ix = 0x4400 then decide (v ≤ 1)
  else if ix = 0x4500 then
    (let q := s.obj 0x4500 1
     if sub = 1 then decide (v ≤ 7) else if sub = 2 then bqLimits v (s.obji q 0x4500 3) else if sub = 3 then bqLimits (s.obji q 0x4500 2) v
     else if sub = 0x11 then decide (v < 16) else true)
  else if ix = 0x4600 then
    (if sub = 1 then decide (v ≤ 127) else if sub = 2 then [125, 250, 500, 1000].contains v else if sub = 3 then [1000, 2000, 4000, 5000, 8000].contains v
     else if sub = 5 then v == 0 || decide (10 ≤ v) else if 0x10 ≤ sub then !bit v 31 && v / 2 ^ 42 == 0 else true)
  else if ix = 0x5000 then (if sub = 0x0D then decide (v ≤ 1) else true)
  else if ix = 0x5100 then (if sub = 5 then decide (v ≤ 127) else true)
  else if ix = 0x5200 then
    (if sub = 2 then decide (v < 4) else if sub = 5 then v % 4096 == 0 && decide (0x100000000 ≤ v) else if sub = 9 then v == 0 || inRange v 4 65536
     else if sub = 0x0D then driveSegments s == 0 || decide (v + 2 ≤ driveSegments s) else true)
  else if ix = 0x5300 then sub != 0x0F || decide (v < 16384)
  else true

/-- A value in the range its object's table gives. -/
def rangeOk (s : State) (ix sub v : Nat) : Bool := if ix < 0x4000 then rangeLow s ix sub v else rangeHigh s ix sub v

/-! ## What a write does -/

/-- A class with one of its settings replaced (0x3400 + c:05, :07, :09). -/
def withClassField (sub v : Nat) (d : ClassDecl) : ClassDecl :=
  if sub = 5 then { d with offset := v } else if sub = 7 then { d with budget := v } else { d with action := v }

/-- A full-store image runs in a class: one of its member motifs holds one, so that both planes' tables have the class from that image (R282). -/
def classFull (s : State) (c : Nat) : Bool :=
  (List.range 64).any (fun m => bit (s.cls s.activeB c).members m && (s.motif m).fullStore)

/-- A class setting replaced in the active plane, and in both planes while a full-store image runs (R282). -/
def setClassField (c sub v : Nat) (s : State) : State :=
  let s1 := s.setCls s.activeB c (withClassField sub v (s.cls s.activeB c))
  if classFull s c then s1.setCls (!s.activeB) c (withClassField sub v (s.cls (!s.activeB) c)) else s1

/-- A setting of a disabled token timer of the active plane replaced. -/
def setTimerField (n sub v : Nat) (s : State) : State :=
  let x := s.timer s.activeB n
  s.setTimer s.activeB n (if sub = 2 then { x with start := v } else if sub = 3 then { x with period := v } else { x with stream := v })

/-- The pre-defined error field is cleared (Table 9.15). -/
def clearErrorField (s : State) : State := (List.range 17).foldl (fun st i => st.setObj 0x1003 i 0) s

/-- A receive filter replaced: what it was stays known for the frames that have started (Table 9.22). -/
def setFilter (sub v : Nat) (s : State) : State :=
  let s1 : State := { s with can := { s.can with replaced := (s.time.clk, sub, s.obj 0x4600 sub) :: s.can.replaced } }
  s1.setObj 0x4600 sub v

/-- A checked value stored, with what follows at once. -/
def storeValue (ix sub v : Nat) (s : State) : State :=
  if 0x3400 ≤ ix ∧ ix < 0x3440 then setClassField (ix - 0x3400) sub v s
  else if 0x2110 ≤ ix ∧ ix < 0x2120 then setTimerField (ix - 0x2110) sub v s
  else if ix = 0x1003 then clearErrorField s
  else if ix = 0x4600 ∧ 0x10 ≤ sub then setFilter sub v s
  else if ix = 0x4300 ∧ sub = 2 then linkEnable (s.obj 0x4300 1) v s
  else
    let s1 := s.setObji (instSel s ix sub) ix sub v
    if ix = 0x5100 then alarmNUpdate s1 else if ix = 0x4500 ∧ 0x10 ≤ sub then fcUpdate s1 else s1

/-- The jobs of a recipe slot's erase (Table 7.12). -/
def eraseRecipe (n : Nat) (s : State) : State :=
  let len := ((mfind s.flash.recipes n).getD []).length
  flashQueue (eraseJobs (recipeAddr n) (max 1 len) 2) s

/-- A load reads the slot: a recipe load of it that has not ended (Table 7.12). -/
def recipeRead (s : State) (n : Nat) : Bool := s.load.active && s.load.source == 1 && s.load.slot == n

/-- The effect of a write of ERASE. -/
def writeErase (v : Nat) (s : State) : Reply :=
  if recipeRead s v then .refuse s abortState else if recipeSlots s ≤ v then .refuse s abortValue else .ok (eraseRecipe v s)

/-- A write that its subindex has a meaning of its own for; `none` where the value is checked and stored. -/
def ownWrite (path ix sub v : Nat) (bs : List Byte) (s : State) : Option Act :=
  let ok (r : Reply) : Option Act := some (.now r)
  let act (x : Sum Nat State) : Option Act := some (match x with | .inl c => .now (.refuse s c) | .inr s1 => .later s1)
  if ix = 0x2100 ∧ sub = 1 then ok (writeSource v s)
  else if ix = 0x2100 ∧ sub = 6 then ok (writePpsNext v s)
  else if 0x2110 ≤ ix ∧ ix < 0x2120 ∧ sub = 1 then ok (writeTimerEnable (ix - 0x2110) (v == 1) s)
  else if 0x3200 ≤ ix ∧ ix < 0x3240 ∧ sub = 8 then ok (writeBankPower (ix - 0x3200) v s)
  else if 0x3400 ≤ ix ∧ ix < 0x3440 ∧ sub = 2 then ok (writeSuspend (ix - 0x3400) (v == 1) s)
  else if ix = 0x3700 ∧ sub = 0x0B then ok (writeClearSuspect v s)
  else if ix = 0x3800 ∧ sub = 2 then (if s.obj 0x3800 3 = 0 then ok (writeEntryLazy v s) else act (writeEntryNow path v s))
  else if ix = 0x3800 ∧ sub = 4 then ok (writeFlushAll (v == 1) s)
  else if 0x3100 ≤ ix ∧ ix < 0x3104 then ok (writeHoopPower (ix - 0x3100) v s)
  else if ix = 0x3600 ∧ sub = 2 then ok (writeCoId v s)
  else if ix = 0x3600 ∧ sub = 3 then ok (writeTc v s)
  else if ix = 0x3600 ∧ sub = 7 then ok (writeCommit path v s)
  else if ix = 0x3600 ∧ sub = 8 then ok (writeCancel v s)
  else if ix = 0x3600 ∧ sub = 9 then ok (writeControl v s)
  else if ix = 0x3602 ∧ sub = 7 then ok (writeErase v s)
  else if 0x3031 ≤ ix ∧ ix < 0x3035 then ok (writeSupervisorRestart (ix - 0x3031) (v == 1) s)
  else if ix = 0x3038 ∧ sub = 9 then ok (writeShuttleRestart v s)
  else if ix = 0x2011 then ok (if sub = 1 then writeSave v s else writeRestore v s)
  else if ix = 0x2012 then ok (writeLock v s)
  else if ix = 0x2200 ∧ sub = 0x0D then act (writeDomain path v s)
  else if ix = 0x4200 ∧ sub = 0x0C then act (startI2c path (bs.map (·.toNat)) s)
  else if ix = 0x5000 ∧ sub = 7 then ok (writeRelease v s)
  else if ix = 0x5000 ∧ sub = 0x0D ∧ v = 1 ∧ s.obj 0x5000 0x0C = 0 then ok (.refuse s abortState)
  else if ix = 0x5100 ∧ sub = 9 then ok (writeAlarmClear v s)
  else if ix = 0x5300 ∧ sub = 3 then ok (writeFormat v s)
  else if ix = 0x5300 ∧ sub = 5 then ok (if v = 1 then writeJournalEnableTrue s else writeJournalEnableFalse s)
  else if ix = 0x2000 ∧ sub = 7 then ok (writeClearRecord v s)
  else if ix = 0x2000 ∧ sub = 8 then ok (writeRestart v s)
  else if ix = 0x2000 ∧ sub = 9 then ok (writeStop v s)
  else if ix = 0x5800 then
    (if sub = 2 then ok (fwBegin false bs s)
     else if sub = 3 then ok (if bs.length < 2048 then .refuse s abortShort else fwHalf bs s)
     else if sub = 4 then ok (if bs.length < 144 then .refuse s abortShort else fwEnd bs s)
     else if sub = 6 then ok (writeActivateAt v s) else ok (fwAbort v s))
  else none

/-- A refusal for the device's state. -/
def stateRefused : Option Act → Bool
  | some (.now r) => r.abort == abortState
  | _ => false

/-- The code of a value above 1 for a BOOLEAN: the state check comes first (R347), where both values would meet its refusal. -/
def boolCode (path ix sub : Nat) (s : State) : Nat :=
  if stateRefused (ownWrite path ix sub 0 [0#8] s) && stateRefused (ownWrite path ix sub 1 [1#8] s) then abortState else abortValue

/-- The state and value checks of a write that has the right direction and length, and its effect (R347 checks 6 and 7). -/
def writeSub (path ix sub : Nat) (r : ObjRow) (bs : List Byte) (s : State) : Act :=
  let v := leNat bs
  if (r.acc = .rwi ∧ rwiBusy s ix sub) ∨ stateBusy s ix sub then .now (.refuse s abortState)
  else if r.ty = 1 ∧ 1 < v then .now (.refuse s (boolCode path ix sub s))
  else if mapValueCode s ix sub v ≠ 0 ∧ ix < 0x2000 ∧ ix ≠ 0x1003 then .now (.refuse s (mapValueCode s ix sub v))
  else if ix = 0x1003 ∧ v ≠ 0 then .now (.refuse s abortValue)
  else match ownWrite path ix sub v bs s with
    | some a => a
    | none => if rangeOk s ix sub v then .now (.ok (storeValue ix sub v s)) else .now (.refuse s abortValue)

/-- The direction and length checks of a write (R347 checks 4 and 5, R348); 0 where both hold. -/
def writeCode (r : ObjRow) (n : Nat) (s : State) : Nat :=
  if r.acc = .const ∨ r.acc = .ro ∨ (r.acc = .rwl ∧ s.obj 0x2012 1 = 1) then abortReadOnly
  else if r.size = 0 then (if r.maxLen < n then abortLong else 0)
  else if r.size < n then abortLong else if n < r.size then abortShort else 0

/-- A write request (R347 checks 2 to 7). -/
def dictWrite (path ix sub : Nat) (bs : List Byte) (s : State) : Act :=
  match rowOf ix sub with
  | none => .now (.refuse s (absentCode ix))
  | some r => if writeCode r bs.length s ≠ 0 then .now (.refuse s (writeCode r bs.length s)) else writeSub path ix sub r bs s

/-! ## Complete access (R349) -/

/-- The subindices of an object from `lo` on, with their rows, in order. -/
def subsOf (ix lo : Nat) : List (Nat × ObjRow) :=
  (List.range 256).filterMap (fun k => if k < lo then none else (rowOf ix k).map (fun r => (k, r)))

/-- What a complete-access read gives for one subindex: a WO subindex reads as zeros. The 4,096 bytes of 0x5300:10, which an NVMe read brings, and another
subindex are more than a transfer carries (R348). -/
def caPart (path ix : Nat) (e : Nat × ObjRow) (s : State) : Reply :=
  if e.2.acc = .wo then { data := List.replicate e.2.size 0#8, state := s }
  else match readSub path ix e.1 e.2 s with
    | .now r => r
    | .later _ => .refuse s abortMemory

/-- The subindices of a complete-access read, one after the other; the first that is refused refuses them all. -/
def caParts (path ix : Nat) : List (Nat × ObjRow) → List Byte → State → Reply
  | [], bs, s => { data := bs, state := s }
  | e :: es, bs, s =>
    let r := caPart path ix e s
    if r.abort ≠ 0 then r else caParts path ix es (bs ++ r.data) r.state

/-- A complete-access read from subindex `lo` (0 or 1). -/
def caRead (path ix lo : Nat) (s : State) : Reply :=
  let subs := subsOf ix lo
  if !hasObject ix then .refuse s abortNoObject
  else if (subsOf ix 0).length ≤ 1 then .refuse s abortAccess
  else
    let r := caParts path ix subs [] s
    if r.abort ≠ 0 then .refuse s r.abort else if 4096 < r.data.length then .refuse s abortMemory else r

/-- The request's bytes cut at the subindices' sizes. -/
def caSplit : List (Nat × ObjRow) → List Byte → List (Nat × ObjRow × List Byte)
  | [], _ => []
  | e :: es, bs => (e.1, e.2, bs.take e.2.size) :: caSplit es (bs.drop e.2.size)

/-- Abort code of one subindex's value in a complete-access write, against the state before it. -/
def caCode (path ix : Nat) (s : State) (e : Nat × ObjRow × List Byte) : Nat :=
  if e.1 = 0 then (if leNat e.2.2 = readNat s ix 0 then 0 else abortValue)
  else match writeSub path ix e.1 e.2.1 e.2.2 s with | .now r => r.abort | .later _ => 0

/-- Subindices that a complete-access write cannot carry. -/
def caFixed (s : State) (e : Nat × ObjRow) : Bool := e.1 != 0 && (e.2.acc == .wo || writeCode e.2 e.2.size s == abortReadOnly)

/-- The first code that is not 0. -/
def firstCode : List Nat → Nat
  | [] => 0
  | c :: cs => if c ≠ 0 then c else firstCode cs

/-- A complete-access write from subindex `lo`: checked in full, in the order of R347, then all subindices are written. -/
def caWrite (path ix lo : Nat) (bs : List Byte) (s : State) : Reply :=
  let subs := subsOf ix lo
  let total := (subs.map (fun e => e.2.size)).foldl (· + ·) 0
  if !hasObject ix then .refuse s abortNoObject
  else if (subsOf ix 0).length ≤ 1 then .refuse s abortAccess
  else if subs.any (caFixed s) then .refuse s abortReadOnly
  else if total < bs.length then .refuse s abortLong
  else if bs.length < total then .refuse s abortShort
  else if subs.any (fun e => rxLocked s ix e.1 e.2.size) then .refuse s abortState
  else
    let parts := caSplit subs bs
    let codes := parts.map (caCode path ix s)
    let code := if codes.contains abortState then abortState else firstCode codes
    if code ≠ 0 then .refuse s code
    else .ok (parts.foldl (fun st e => if e.1 = 0 then st else match writeSub path ix e.1 e.2.1 e.2.2 st with | .now r => r.state | .later t => t) s)

/-! ## The checks before the length (R347 checks 2 to 4) -/

/-- The code of the checks of index, subindex and direction, which come before every check of a length; 0 where they hold. -/
def headCode (q : SdoReq) (s : State) : Nat :=
  if q.kind = 0 ∨ q.kind = 1 then
    match rowOf q.ix q.sub with
    | none => absentCode q.ix
    | some r => if q.kind = 0 then (if r.acc = .wo then abortWriteOnly else 0) else if writeCode r r.size s = abortReadOnly then abortReadOnly else 0
  else if !hasObject q.ix then abortNoObject
  else if (subsOf q.ix 0).length ≤ 1 then abortAccess
  else if q.kind = 3 ∧ (subsOf q.ix q.sub).any (caFixed s) then abortReadOnly
  else 0

/-- A request refused for a length: with that code, or with that of an earlier check. -/
def lengthRefused (q : SdoReq) (code : Nat) (s : State) : Reply := .refuse s (if headCode q s ≠ 0 then headCode q s else code)

end Sys2Proof.Machine
end

