-- ==== Sys2Proof/Machine/FileAccess.lean ====
section
/-! DEFINITION. File access over EtherCAT (R268, R271, R372, R485 to R489): each row is one FoE packet, a request where `req` is TRUE, otherwise a data packet
or, of a read, an acknowledgement. -/

namespace Sys2Proof.Machine
open Sys2Proof

/-- The FoE service replaced; what it answers is the message that a repeat request asks for (R371). -/
def State.setFoe (s : State) (x : Foe) : State := { s with ecat := { s.ecat with foe := x, lastMail := .foe x.error x.packet x.data } }

/-- The largest data packet: the SM0 size less 12 bytes (R372). -/
def foeMax (s : State) : Nat := smLen s 0 - 12

/-- Recipe transfers are accepted in PREOP, SAFEOP and OP (R271), by firmware that gives more than the service set. -/
def foeOpen (s : State) : Bool := coeActive s

/-- A request refused; the transfer that runs, if any, goes on. -/
def foeRefuse (e : FoeError) (s : State) : State := s.setFoe { s.ecat.foe with error := some e }

/-- A transfer that ends with an error. -/
def foeFail (e : FoeError) (s : State) : State := s.setFoe { error := some e }

/-- A write request for an image file; slot 100 stands for a name that is none of those of R271. -/
def foeBegin (file kind slot pw : Nat) (s : State) : State :=
  if !foeOpen s then s
  else if pw ≠ 0 ∨ (file = 0 ∧ recipeSlots s ≤ slot) then foeRefuse .notFound s
  else if serviceOnly s || !mayBegin s kind slot 2 then foeRefuse .refused s
  else beginLoad kind slot 2 0 (s.setFoe { active := true, file := file, slot := slot })

/-- A data packet of an image file; a packet shorter than the largest ends the file. -/
def foeImage (file : Nat) (bs : List Byte) (s : State) : State :=
  let x := s.ecat.foe
  if !foeOpen s || !x.active || x.reading || x.file != file || foeMax s < bs.length then s
  else if !s.load.active || s.load.source != 2 then foeFail .refused s
  else
    let s1 := loadBytes bs (s.setFoe { x with packet := x.packet + 1, error := none })
    if bs.length < foeMax s then loadWhole (s1.setFoe { s1.ecat.foe with active := false }) else s1

/-- The next data packet of a read is sent. -/
def foeSend (s : State) : State :=
  let x := s.ecat.foe
  let d := x.rest.take (foeMax s)
  s.setFoe { x with packet := x.packet + 1, data := d, rest := x.rest.drop (foeMax s), short := decide (d.length < foeMax s), error := none }

/-- A request to read a recipe slot, or the acknowledgement of the packet last sent (R271). Slot 100 stands for any other name, which is not found. -/
def foeReadRecipe (slot pw : Nat) (req : Bool) (s : State) : State :=
  let x := s.ecat.foe
  if !foeOpen s then s
  else if req then
    match mfind s.flash.recipes slot with
    | none => foeRefuse .notFound s
    | some img =>
      if pw ≠ 0 then foeRefuse .notFound s
      else if (x.active ∧ !x.reading) ∨ serviceOnly s then foeRefuse .refused s
      else foeSend (s.setFoe { active := true, reading := true, slot := slot, rest := img })
  else if x.active ∧ x.reading then (if x.short then s.setFoe { x with active := false, data := [] } else foeSend s)
  else s

/-! ## Firmware in BOOT (R485 to R489) -/

/-- The unit is in BOOT. -/
def inBoot (s : State) : Bool := s.obj 0x2010 0x0A == 3

/-- The firmware transfer ends with an error and the update returns to IDLE (R486). -/
def fwFoeFail (e : FoeError) (s : State) : State := foeFail e (if fwState s = 1 then fwEnter 0 (fwDrop s) else s)

/-- Bytes held back until they make the next part of the file: the header with its table, then blocks, then the signature block. -/
def fwFoeParts : Nat → State → State
  | 0, s => s
  | n + 1, s =>
    let x := s.ecat.foe
    let u := s.update
    if !x.active then s
    else if !u.foe || fwState s ≠ 1 then
      (let len := 64 + 4 * fwBlocksOf x.rest
       if x.rest.length < 64 ∨ x.rest.length < len then s
       else
         let r := fwBegin true (x.rest.take len) s
         if r.abort ≠ 0 then foeFail .illegal s else fwFoeParts n (r.state.setFoe { x with rest := x.rest.drop len }))
    else if u.got < fwBlocksOf u.head then
      (if x.rest.length < 4096 then s
       else
         let r := fwBlock (x.rest.take 4096) s
         if r.abort ≠ 0 then fwFoeFail .illegal r.state else fwFoeParts n (r.state.setFoe { x with rest := x.rest.drop 4096 }))
    else s

/-- The last packet: the signature block ends the file, and its acknowledgement is withheld until the verdict (R489). -/
def fwFoeEnd (s : State) : State :=
  let x := s.ecat.foe
  if !x.active then s
  else if x.rest.length = 144 ∧ s.update.foe ∧ fwState s = 1 ∧ s.update.got = fwBlocksOf s.update.head then
    (fwEnd x.rest (s.setFoe { x with active := false, rest := [], withheld := true })).state
  else fwFoeFail .illegal s

/-- A data packet of the firmware file. It is taken, and acknowledged, only while the loader has a buffer free (R487). -/
def fwFoePacket (bs : List Byte) (s : State) : State :=
  let x := s.ecat.foe
  if !x.active || x.file != 3 || foeMax s < bs.length || 2 ≤ s.update.buffered then s
  else
    let s1 := fwFoeParts 4 (s.setFoe { x with rest := x.rest ++ bs, packet := x.packet + 1, error := none })
    if bs.length < foeMax s then fwFoeEnd s1 else s1

/-- A packet of the firmware file (R485, R486): refused where BEGIN would be refused for the update's state, outside BOOT as a file that is not found. -/
def foeWriteFirmware (pw : Nat) (req : Bool) (bs : List Byte) (s : State) : State :=
  if inBoot s then
    (if !req then fwFoePacket bs s
     else if pw ≠ 0 then foeRefuse .notFound s
     else if s.ecat.foe.active ∨ [1, 2, 5, 6].contains (fwState s) then foeRefuse .refused s
     else ({ s with update := { s.update with foe := false } } : State).setFoe { active := true, file := 3 })
  else if foeOpen s ∧ req then foeRefuse .notFound s else s

/-- A request to read the firmware file is answered not found (R485). -/
def foeReadFirmware (s : State) : State := if inBoot s ∨ foeOpen s then foeRefuse .notFound s else s

/-! ## Packets (R380, R383) -/

/-- What a packet does when the MP takes it up. -/
def foeDo (p : FoePacket) (s : State) : State :=
  if p.read then (if p.file = 3 then foeReadFirmware s else foeReadRecipe p.slot p.pw p.req s)
  else if p.file = 3 then foeWriteFirmware p.pw p.req p.data s
  else if p.req then foeBegin p.file (if p.file = 0 then 3 else if p.file = 1 then 2 else 1) p.slot p.pw s
  else foeImage p.file p.data s

/-- A packet arrives: the MP takes it up at once, or it stays unread in the mailbox until its turn among the requests of level 3 (R380, R383). A mailbox that
holds one takes no other. -/
def foeArrives (p : FoePacket) (s : State) : State :=
  if mpFree s then foeDo p s
  else if !(foeOpen s || inBoot s) || s.ecat.foeWait.isSome then s
  else { s with ecat := { s.ecat with foeWait := some p }, sdoWait := s.sdoWait ++ [{ kind := 9 }] }

/-- The packet that stayed in the mailbox is taken up. -/
def foeResume (s : State) : State :=
  match s.ecat.foeWait with
  | none => s
  | some p => foeDo p { s with ecat := { s.ecat with foeWait := none } }

/-- FOE_WRITE_RECIPE (R270, R271). -/
def execFoeWriteRecipe (slot pw : Nat) (req : Bool) (bs : FrameData) (s : State) : Host.Outcome State Fault Refusal :=
  done (foeArrives { file := 0, slot := slot, pw := pw, req := req, data := bs.map (BitVec.ofNat 8) } s)

/-- FOE_WRITE_SHADOW (R271). -/
def execFoeWriteShadow (pw : Nat) (req : Bool) (bs : FrameData) (s : State) : Host.Outcome State Fault Refusal :=
  done (foeArrives { file := 1, pw := pw, req := req, data := bs.map (BitVec.ofNat 8) } s)

/-- FOE_WRITE_REGION (R271, R276): the region of 0x3601:08. -/
def execFoeWriteRegion (pw : Nat) (req : Bool) (bs : FrameData) (s : State) : Host.Outcome State Fault Refusal :=
  done (foeArrives { file := 2, pw := pw, req := req, data := bs.map (BitVec.ofNat 8) } s)

/-- FOE_READ_RECIPE (R271). -/
def execFoeReadRecipe (slot pw : Nat) (req : Bool) (s : State) : Host.Outcome State Fault Refusal :=
  done (foeArrives { file := 0, read := true, slot := slot, pw := pw, req := req } s)

/-- FOE_WRITE_FIRMWARE (R485, R486). -/
def execFoeWriteFirmware (pw : Nat) (req : Bool) (bs : FrameData) (s : State) : Host.Outcome State Fault Refusal :=
  done (foeArrives { file := 3, pw := pw, req := req, data := bs.map (BitVec.ofNat 8) } s)

/-- FOE_READ_FIRMWARE (R485). -/
def execFoeReadFirmware (pw : Nat) (s : State) : Host.Outcome State Fault Refusal :=
  done (foeArrives { file := 3, read := true, pw := pw, req := true } s)

/-! ## The verdict (R488, R489) -/

/-- The verdict reaches a firmware file written over FoE (R489): the withheld acknowledgement, or access denied. -/
def foeVerdict (s : State) : State :=
  let x := s.ecat.foe
  if x.withheld then s.setFoe { x with withheld := false, packet := x.packet, error := if fwState s = 3 then none else some .accessDenied } else s

/-- An update that reaches VERIFIED in loader mode: the device resets with cause 4 out of START_HOLD, else the MP restarts (R475). -/
def loaderVerified (s : State) : State :=
  if fwState s ≠ 3 ∨ s.obj 0x2000 0x0D ≠ 1 then s
  else if s.obj 0x2001 0 = 3 then { s with start := { s.start with resetAt := some s.time.clk } }
  else mpStop s

/-- UPDATE_VERDICT (R488, R489): 400 ms after the later of the signature block's arrival and the last program. -/
def execUpdateVerdict (s : State) : Host.Outcome State Fault Refusal :=
  match s.update.sig with
  | none => done s
  | some sig => if fwVerdictDue s then done (loaderVerified (foeVerdict (fwVerdict sig s))) else done s

end Sys2Proof.Machine
end

