-- ==== Sys2Proof/Machine/EtherCat.lean ====
section
/-! DEFINITION. The EtherCAT SubDevice (R357 to R370): states, process data, distributed clocks, SII. -/

namespace Sys2Proof.Machine
open Sys2Proof

/-! ## States (R358, R359, R362, R363, Table 9.9) -/

/-- The EtherCAT state (0x2010:0A). -/
def ecatState (s : State) : Nat := s.obj 0x2010 0x0A

/-- Sync manager k of a request; one that was not set is disabled. -/
def alSm (q : AlRequest) (k : Nat) : SyncMan := q.sms.getD k {}

/-- Sync manager k lies in process data memory and overlaps no other enabled one (R358). -/
def smPlaced (q : AlRequest) (k : Nat) : Bool :=
  let m := alSm q k
  decide (0x1000 ≤ m.start) && decide (m.start + m.len ≤ 0x3000) &&
    (List.range 4).all (fun j => j == k || !(alSm q j).enable || decide ((alSm q j).start + (alSm q j).len ≤ m.start) || decide (m.start + m.len ≤ (alSm q j).start))

/-- A mailbox sync manager obeys Table 9.8. -/
def mailboxOk (q : AlRequest) (k : Nat) : Bool :=
  (alSm q k).enable && (alSm q k).out == (k == 0) && (alSm q k).buffers == 1 && decide (128 ≤ (alSm q k).len) && decide ((alSm q k).len ≤ 1024) && smPlaced q k

/-- Bytes of the entries assigned to a direction. -/
def mapTotal (s : State) (assign : Nat) : Nat := ((mappedEntries s assign).map (fun e => e.2.2)).foldl (· + ·) 0 / 8

/-- An entry is padding. -/
def isPad (e : Nat × Nat × Nat) : Bool := e.1 == 0 && e.2.1 == 0

/-- A direction's mapping and assignment obey R362 and R363, and its sync manager has the total's size. -/
def mapOk (s : State) (q : AlRequest) (tx : Bool) : Bool :=
  let assign := if tx then 0x1C13 else 0x1C12
  let es := mappedEntries s assign
  let named := es.filter (fun e => !isPad e)
  es.all (fun e => mapCode tx (65536 * e.1 + e.2.1 * 256 + e.2.2) == 0) && decide (es.length ≤ 256) && decide (mapTotal s assign ≤ 1024) &&
    (tx || (named.map (fun e => (e.1, e.2.1))).Nodup) && (alSm q (if tx then 3 else 2)).len == mapTotal s assign

/-- A process data sync manager is placed as R358 asks; one without bytes may be disabled. -/
def processSmOk (q : AlRequest) (k : Nat) : Bool := (alSm q k).len == 0 || ((alSm q k).enable && (alSm q k).out == (k == 2) && (alSm q k).buffers == 3 && smPlaced q k)

/-- SYNC cycles are allowed (Table 9.9). -/
def syncOk (q : AlRequest) : Bool := q.syncMode != 2 || (decide (10000 ≤ q.sync0) && q.sync1 % q.sync0 == 0)

/-- The transition stands in the EtherCAT state machine (R359). -/
def alAllowed (old new : Nat) : Bool :=
  new == old || new == 1 && [2, 3, 4, 8].contains old || new == 2 && [1, 4, 8].contains old || new == 3 && old == 1 || new == 4 && [2, 8].contains old ||
    new == 8 && old == 4

/-- A transition upward, which the MP checks (R359). -/
def alUpward (old new : Nat) : Bool := old == 1 && (new == 2 || new == 3) || old == 2 && new == 4 || old == 4 && new == 8

/-- AL status code of a request; 0 where it is granted. A unit in START_HOLD gives no process data (R474). -/
def alCode (s : State) (q : AlRequest) : Nat :=
  let old := ecatState s
  if !alAllowed old q.state || (s.obj 0x2001 0 == 3 && (q.state == 4 || q.state == 8)) then 0x11
  else if old = 1 ∧ q.state = 2 then (if mailboxOk q 0 && mailboxOk q 1 then 0 else 0x16)
  else if old = 2 ∧ q.state = 4 then
    (if !(processSmOk q 2 && processSmOk q 3) then 0x17 else if !mapOk s q false then 0x1D else if !mapOk s q true then 0x1E
    else if !syncOk q then 0x30 else 0)
  else if old = 4 ∧ q.state = 8 then (if s.ecat.outSeen then 0 else 0x1B)
  else 0

/-- The mailbox closes in INIT: transfers on the path end, and an FoE file that is not whole is discarded. -/
def mailboxClose (s : State) : State :=
  let p := s.path 0
  let s1 := s.setPath 0 { p with active := false, buf := [] }
  let s2 : State := { s1 with ecat := { s1.ecat with mailbox := false, foe := {}, foeWait := none } }
  if s2.load.active ∧ s2.load.source = 2 ∧ !s2.load.whole then abortLoad s2 else s2

/-- The unit enters a state. Leaving BOOT in VERIFIED restarts the MP at once (R493). -/
def alEnter (new : Nat) (s : State) : State :=
  let old := ecatState s
  let s1 := (s.setObj 0x2010 0x0A new).setObj 0x2010 0x0B 0
  let s2 := if new = 1 then mailboxClose s1 else s1
  let s3 : State := if new = old ∨ (old = 4 ∧ new = 8) then s2 else { s2 with ecat := { s2.ecat with outSeen := false } }
  let s4 : State := if new = 8 ∧ old ≠ 8 then { s3 with ecat := { s3.ecat with outAt := s3.time.clk } } else s3
  mailPump (if old = 3 ∧ new ≠ 3 ∧ fwState s4 = 3 then mpStop s4 else s4)

/-- A request decided: granted with the settings it came with, or refused with its code. -/
def alDecide (q : AlRequest) (s : State) : State :=
  if alCode s q ≠ 0 then s.setObj 0x2010 0x0B (alCode s q)
  else alEnter q.state { s with ecat := { s.ecat with sms := q.sms, sync0 := q.sync0, sync1 := q.sync1, syncMode := q.syncMode, watchdog := q.watchdog } }

/-- The upward request that waited is given up: another has come. -/
def alDrop (s : State) : State := { s with ecat := { s.ecat with alWait := none }, sdoWait := s.sdoWait.filter (fun q => q.kind != 10) }

/-- A request (R359): an upward one waits its turn among the requests of level 3 (R380), and while the MP restarts (R383). -/
def alRequest (q : AlRequest) (s : State) : State :=
  let s0 := alDrop s
  if alUpward (ecatState s) q.state && !mpFree s then { s0 with ecat := { s0.ecat with alWait := some q }, sdoWait := s0.sdoWait ++ [{ kind := 10 }] }
  else alDecide q s0

/-- The request that waited for the MP. -/
def alResume (s : State) : State :=
  match s.ecat.alWait with
  | none => s
  | some q => alDecide q { s with ecat := { s.ecat with alWait := none } }

/-- AL_STATE_REQUEST (R359), which reaches the unit once its PHYs are calibrated (Table 12.3). -/
def execAlStateRequest (q : AlRequest) (s : State) : Host.Outcome State Fault Refusal := done (if holdEcat s then alRequest q s else s)

/-- SM_WATCHDOG_EXPIRY (R370): no output frame for the watchdog period in OP. -/
def execSmWatchdogExpiry (s : State) : Host.Outcome State Fault Refusal :=
  if ecatState s = 8 ∧ s.ecat.watchdog ≠ 0 ∧ s.ecat.outAt + s.ecat.watchdog ≤ s.time.clk then
    done (raise 26 ((alEnter 4 s).setObj 0x2010 0x0B 0x1B))
  else done s

/-! ## Process data (R364, R365, R367) -/

/-- One mapped entry of an output frame written as an SDO write would be; a refused value counts in 0x2010:09 (R365). -/
def rxApply (s : State) (e : (Nat × Nat × Nat) × List Byte) : State :=
  if isPad e.1 then s
  else match dictWrite 0 e.1.1 e.1.2.1 e.2 s with
    | .now r => if r.abort = 0 then r.state else s.bump 0x2010 9
    | .later t => t

/-- The bytes of a frame cut at the entries. -/
def rxSplit : List (Nat × Nat × Nat) → List Byte → List ((Nat × Nat × Nat) × List Byte)
  | [], _ => []
  | e :: es, bs => (e, bs.take (e.2.2 / 8)) :: rxSplit es (bs.drop (e.2.2 / 8))

/-- Output group i has a byte in the frame. -/
def groupWritten (s : State) (i : Nat) : Bool := (mappedEntries s 0x1C12).any (fun e => e.1 == 0x7000 + i)

/-- The token of output group i (R367). -/
def groupToken (stamp : Stamp) (s : State) (i : Nat) : State :=
  if groupWritten s i ∧ s.fabric ∧ [false, true].any (fun b => (ingressStream s b (64 + i)).isSome) then
    enterFabric 67 (64 + i) { stamp := stamp, words := (List.range 4).map (fun k => BitVec.ofNat 32 (s.obj (0x7000 + i) (k + 1))) } s
  else s

/-- The bytes of the TxPDO buffer as a passing frame carries them: the value of 0x2100:05 is T at its start-of-frame delimiter (R364, Table 1.8). -/
def insertNow (t : Nat) : List (Nat × Nat × Nat) → List Byte → List Byte
  | [], bs => bs
  | e :: es, bs => (if e.1 = 0x2100 ∧ e.2.1 = 5 then leBytes t (e.2.2 / 8) else bs.take (e.2.2 / 8)) ++ insertNow t es (bs.drop (e.2.2 / 8))

/-- RXPDO_BUFFER_SWITCH (R364, R365, R367): a frame whose start of frame was `ago` nanoseconds before the switch has written all of SM2, and carries the
last completed TxPDO buffer on. -/
def execRxpdoBufferSwitch (ago : Nat) (bs : FrameData) (s : State) : Host.Outcome State Fault Refusal :=
  let d := bs.map (BitVec.ofNat 8)
  if (ecatState s ≠ 4 ∧ ecatState s ≠ 8) ∨ d.length ≠ mapTotal s 0x1C12 then done s
  else
    let x := s.ecat
    let view := insertNow (s.tAgo ago) (mappedEntries s 0x1C13) x.inBuf
    let y : Ecat := { x with outBuf := d, outSeen := true, outAt := s.time.clk, captureDue := x.captureDue || x.syncMode == 1, passed := view }
    let s1 : State := { s with ecat := y }
    if ecatState s = 8 then
      let s2 := (rxSplit (mappedEntries s1 0x1C12) d).foldl rxApply s1
      done ((List.range 64).foldl (groupToken (s.stampAgo ago)) s2)
    else done s1

/-- The bytes of one mapped entry of the TxPDO buffer. -/
def txEntry (a : List Byte × State) (e : Nat × Nat × Nat) : List Byte × State :=
  if isPad e then (a.1 ++ List.replicate (e.2.2 / 8) 0#8, a.2)
  else match rowOf e.1 e.2.1 with
    | none => a
    | some r => match readSub 0 e.1 e.2.1 r a.2 with
      | .now p => (a.1 ++ p.data, p.state)
      | .later _ => a

/-- A capture is due (R364): asked for by SYNC0 or an SM2 switch, or 100 µs after the last one in free run. -/
def captureDue (s : State) : Bool := s.ecat.captureDue || (s.ecat.syncMode == 0 && decide (s.ecat.capturedAt + 100000 ≤ s.time.clk))

/-- TXPDO_CAPTURE (R364). -/
def execTxpdoCapture (s : State) : Host.Outcome State Fault Refusal :=
  if (ecatState s = 4 ∨ ecatState s = 8) ∧ captureDue s then
    let (bs, s1) := (mappedEntries s 0x1C13).foldl txEntry ([], s)
    done { s1 with ecat := { s1.ecat with inBuf := bs, captureDue := false, capturedAt := s1.time.clk } }
  else done s

/-- The port on which a frame received on a port goes on: the other one, or back where the other one is closed for want of a link (Table 9.7). -/
def forwardPort (s : State) (port : Nat) : Nat := if mget 0 s.ecat.links (1 - port % 2) = 1 then 1 - port % 2 else port % 2

/-- ETHERCAT_FRAME_ERROR (R360): the frame goes on with its FCS left invalid, and is counted in the receive error counter of the port, 8 bits wide. -/
def execEthercatFrameError (port : Nat) (s : State) : Host.Outcome State Fault Refusal :=
  done { s with ecat := { s.ecat with forwarded := some (forwardPort s port, false), rxErrors := mset 0 s.ecat.rxErrors (port % 2) (satAdd 8 (mget 0 s.ecat.rxErrors (port % 2)) 1) } }

/-- ETHERCAT_PORT_LINK_CHANGE (Table 9.7): a port without link is closed. -/
def execEthercatPortLinkChange (port : Nat) (up : Bool) (s : State) : Host.Outcome State Fault Refusal :=
  done { s with ecat := { s.ecat with links := mset 0 s.ecat.links (port % 2) (b2n up) } }

/-! ## Distributed clocks and SII (R361, R369) -/

/-- SYNC_EVENT (R369, R364): SYNC0 or SYNC1, where the MainDevice has programmed it, emits its token; in DC mode SYNC0 asks for a capture. -/
def execSyncEvent (n : Nat) (s : State) : Host.Outcome State Fault Refusal :=
  let k := n % 2
  let s1 : State := if k = 0 ∧ s.ecat.syncMode = 2 then { s with ecat := { s.ecat with captureDue := true } } else s
  if s.ecat.sync0 = 0 ∨ (k = 1 ∧ s.ecat.sync1 = 0) then done s
  else if s1.fabric ∧ [false, true].any (fun b => (ingressStream s1 b (40 + k)).isSome) then
    done (enterFabric 67 (40 + k) { stamp := s1.now, words := [0#32] } s1)
  else done s1

/-- LATCH_EVENT (R369): an edge on the pin of LATCH0 or LATCH1 at DC system time `dc`; register 2n holds rising edges, 2n + 1 falling ones. -/
def execLatchEvent (n : Nat) (falling : Bool) (dc : Nat) (s : State) : Host.Outcome State Fault Refusal :=
  let k := n % 2
  if s.ports.latchPins / 256 ^ k % 256 = 255 then done s
  else done { s with ecat := { s.ecat with latches := mset 0 s.ecat.latches (2 * k + b2n falling) (dc % 2 ^ 64) } }

/-- The byte that an SII read of an address gives (R361). -/
def siiRead (s : State) (a : Nat) : Byte := (memRead s.ecat.sii a 1).headD 0#8

/-- SII_WRITE (R361): the internal copy at once, boot flash within 100 ms. -/
def execSiiWrite (a : Nat) (bs : FrameData) (s : State) : Host.Outcome State Fault Refusal :=
  if 4096 < a + bs.length then done s
  else done (persistTouch { s with ecat := { s.ecat with sii := memWrite s.ecat.sii a (bs.map (BitVec.ofNat 8)) } })

end Sys2Proof.Machine
end

