-- ==== Sys2Proof/Machine/Names.lean ====
section
/-! DEFINITION. The names of the objects and subindices as the object tables of the spec give them (R371: the SDO information services). -/

namespace Sys2Proof.Machine
open Sys2Proof

/-- Objects: first index, number of indices, name. -/
def objectNames : List (Nat × Nat × String) :=
  [(0x1000, 1, "DEVICE_TYPE"),
   (0x1001, 1, "ERROR_REGISTER"),
   (0x1003, 1, "Pre-defined error field"),
   (0x1008, 1, "DEVICE_NAME"),
   (0x1009, 1, "HARDWARE_VERSION"),
   (0x100A, 1, "SOFTWARE_VERSION"),
   (0x1018, 1, "Identity"),
   (0x1600, 64, "RxPDO mapping"),
   (0x1A00, 64, "TxPDO mapping"),
   (0x1C12, 1, "SM2 assignment"),
   (0x1C13, 1, "SM3 assignment"),
   (0x2000, 1, "Start record"),
   (0x2001, 1, "Device state"),
   (0x2010, 1, "Service and network access"),
   (0x2011, 1, "Persistence"),
   (0x2012, 1, "Configuration lock"),
   (0x2100, 1, "Time base"),
   (0x2101, 1, "Time statistics"),
   (0x2102, 1, "Clock domain frequencies"),
   (0x2103, 1, "Epoch"),
   (0x2110, 16, "Token timer"),
   (0x2200, 1, "Power and thermal"),
   (0x3010, 1, "Network"),
   (0x3012, 1, "DRAM controller"),
   (0x3020, 1, "Cell arithmetic events"),
   (0x3030, 1, "Management processor"),
   (0x3031, 4, "Hoop supervisor"),
   (0x3038, 1, "Shuttles"),
   (0x3080, 72, "Initiator"),
   (0x3100, 4, "Hoop"),
   (0x3200, 64, "Motif"),
   (0x3400, 64, "Transaction class"),
   (0x3500, 1, "Selvedge"),
   (0x3600, 1, "Changeover"),
   (0x3601, 1, "Load"),
   (0x3602, 1, "Recipe store"),
   (0x3700, 1, "Fault masking summary"),
   (0x3701, 1, "Memory protection"),
   (0x3702, 1, "NoC links"),
   (0x3703, 1, "Journal mirror"),
   (0x3740, 64, "Class fault parameters"),
   (0x3800, 1, "Stream route tables"),
   (0x4000, 1, "TIO"),
   (0x4100, 1, "Serial channels"),
   (0x4200, 1, "Cameras"),
   (0x4300, 1, "Bride links"),
   (0x4400, 1, "Storage"),
   (0x4500, 1, "Boundary queues"),
   (0x4600, 1, "CAN FD and CANopen"),
   (0x5000, 1, "Sampler"),
   (0x5100, 1, "Alarms"),
   (0x5200, 1, "Trace"),
   (0x5300, 1, "Journal"),
   (0x5800, 1, "Update"),
   (0x6000, 64, "Input group"),
   (0x7000, 64, "Output group")]

/-- Subindex names, part 1: first index, number of indices, first and last subindex, name. -/
def subNames1 : List (Nat × Nat × Nat × Nat × String) :=
  [(0x2100, 1, 0x00, 0x00, "Highest subindex"),
   (0x2100, 1, 0x01, 0x01, "SOURCE"),
   (0x2100, 1, 0x02, 0x02, "STATUS"),
   (0x2100, 1, 0x03, 0x03, "OFFSET"),
   (0x2100, 1, 0x04, 0x04, "FREQ_CORR"),
   (0x2100, 1, 0x05, 0x05, "NOW"),
   (0x2100, 1, 0x06, 0x06, "PPS_NEXT"),
   (0x2100, 1, 0x07, 0x07, "LOCK_THRESH"),
   (0x2100, 1, 0x08, 0x08, "STEP_THRESH"),
   (0x2100, 1, 0x09, 0x09, "LOSS_TIMEOUT"),
   (0x2100, 1, 0x0A, 0x0A, "reserved"),
   (0x2100, 1, 0x0B, 0x0B, "PPS_OUT_WIDTH"),
   (0x2100, 1, 0x0C, 0x0C, "REFERENCE"),
   (0x2101, 1, 0x00, 0x00, "Highest subindex"),
   (0x2101, 1, 0x01, 0x01, "STALE_COUNT"),
   (0x2101, 1, 0x02, 0x02, "LOCK_LOSSES"),
   (0x2101, 1, 0x03, 0x03, "STEPS"),
   (0x2101, 1, 0x04, 0x04, "MAX_ABS_OFFSET"),
   (0x2101, 1, 0x05, 0x05, "LAST_STEP"),
   (0x2101, 1, 0x06, 0x06, "TIMER_MISSED"),
   (0x2102, 1, 0x00, 0x00, "Highest subindex"),
   (0x2102, 1, 0x01, 0x28, "FREQ_CDn"),
   (0x2103, 1, 0x00, 0x00, "Highest subindex"),
   (0x2103, 1, 0x01, 0x01, "EPOCH"),
   (0x2103, 1, 0x02, 0x02, "SNAPSHOT_EPOCH"),
   (0x2110, 16, 0x00, 0x00, "Highest subindex"),
   (0x2110, 16, 0x01, 0x01, "ENABLE"),
   (0x2110, 16, 0x02, 0x02, "START"),
   (0x2110, 16, 0x03, 0x03, "PERIOD"),
   (0x2110, 16, 0x04, 0x04, "STREAM"),
   (0x2110, 16, 0x05, 0x05, "COUNT"),
   (0x3020, 1, 0x00, 0x00, "Highest subindex"),
   (0x3020, 1, 0x01, 0x01, "FP_INVALID"),
   (0x3020, 1, 0x02, 0x02, "FP_OVERFLOW"),
   (0x3020, 1, 0x03, 0x03, "FP_FLUSHED"),
   (0x3020, 1, 0x04, 0x04, "CONV_SATURATED"),
   (0x3020, 1, 0x05, 0x05, "INT_SATURATED"),
   (0x3200, 64, 0x00, 0x00, "Highest subindex"),
   (0x3200, 64, 0x01, 0x01, "MATCH_PEAK"),
   (0x3200, 64, 0x02, 0x02, "MATCH_WAITS"),
   (0x3200, 64, 0x03, 0x03, "READY_FULL"),
   (0x3200, 64, 0x04, 0x04, "DISPATCH_LATE"),
   (0x3200, 64, 0x05, 0x05, "FREE_DISCARDS"),
   (0x3200, 64, 0x06, 0x06, "ORDER_WINDOW"),
   (0x3200, 64, 0x07, 0x07, "NEXT_MISSES"),
   (0x3200, 64, 0x08, 0x08, "BANK_POWER"),
   (0x3200, 64, 0x09, 0x09, "MIRROR_PAIRS"),
   (0x3200, 64, 0x0A, 0x0A, "BANK_WAIT_CYCLES"),
   (0x3200, 64, 0x0B, 0x0B, "GATHERS"),
   (0x3200, 64, 0x0C, 0x0C, "GATHER_FAULTS"),
   (0x3200, 64, 0x0D, 0x0D, "GATHER_FILLED"),
   (0x3200, 64, 0x0E, 0x0E, "TRACE_ENABLE"),
   (0x3200, 64, 0x0F, 0x0F, "TRACE_SLOTS"),
   (0x3200, 64, 0x10, 0x10, "TRACE_OUTCOMES"),
   (0x3200, 64, 0x11, 0x11, "MOTIF_CONSTANT"),
   (0x3200, 64, 0x12, 0x12, "PATTERNS_A"),
   (0x3200, 64, 0x13, 0x13, "PATTERNS_B"),
   (0x3200, 64, 0x14, 0x14, "CANCEL_IGNORED"),
   (0x3400, 64, 0x00, 0x00, "Highest subindex"),
   (0x3400, 64, 0x01, 0x01, "STATE")]

/-- Subindex names, part 2: first index, number of indices, first and last subindex, name. -/
def subNames2 : List (Nat × Nat × Nat × Nat × String) :=
  [(0x3400, 64, 0x02, 0x02, "SUSPEND"),
   (0x3400, 64, 0x03, 0x03, "MEMBERS"),
   (0x3400, 64, 0x04, 0x04, "PORTS"),
   (0x3400, 64, 0x05, 0x05, "OFFSET"),
   (0x3400, 64, 0x06, 0x06, "MIN_OFFSET"),
   (0x3400, 64, 0x07, 0x07, "REPLAY_BUDGET"),
   (0x3400, 64, 0x08, 0x08, "PROVED_BUDGET"),
   (0x3400, 64, 0x09, 0x09, "DEADLINE_ACTION"),
   (0x3400, 64, 0x0A, 0x0A, "OPENED"),
   (0x3400, 64, 0x0B, 0x0B, "COMMITTED"),
   (0x3400, 64, 0x0C, 0x0C, "REPLAYS"),
   (0x3400, 64, 0x0D, 0x0D, "PROGRAM_ABORTS"),
   (0x3400, 64, 0x0E, 0x0E, "DEADLINE_MISSES"),
   (0x3400, 64, 0x0F, 0x0F, "CASCADE_ABORTS"),
   (0x3400, 64, 0x10, 0x10, "SUSPENDED_DISCARDS"),
   (0x3400, 64, 0x11, 0x11, "MIN_SLACK"),
   (0x3400, 64, 0x12, 0x12, "LAST_FAULT"),
   (0x3400, 64, 0x13, 0x13, "LAST_MISS_STAMP"),
   (0x3400, 64, 0x14, 0x14, "IN_FLIGHT"),
   (0x3500, 1, 0x00, 0x00, "Highest subindex"),
   (0x3500, 1, 0x01, 0x01, "TIDS_IN_USE"),
   (0x3500, 1, 0x02, 0x02, "TID_PEAK"),
   (0x3500, 1, 0x03, 0x03, "TID_STARVED"),
   (0x3500, 1, 0x04, 0x04, "ENTRIES_IN_USE"),
   (0x3500, 1, 0x05, 0x05, "QUEUE_FULL_WAITS"),
   (0x3500, 1, 0x06, 0x06, "RELEASES"),
   (0x3500, 1, 0x07, 0x07, "PORT_BUSY_DELAYS"),
   (0x3500, 1, 0x08, 0x08, "TIO_MERGES"),
   (0x3500, 1, 0x09, 0x09, "DEADLINE_ACTIONS"),
   (0x3500, 1, 0x0A, 0x0A, "FREE_TOKEN_DISCARDS"),
   (0x3500, 1, 0x0B, 0x0B, "LATE_ENTRIES"),
   (0x3500, 1, 0x0C, 0x0C, "STRAGGLER_DISCARDS"),
   (0x3500, 1, 0x0D, 0x0D, "NO_TRANSACTION"),
   (0x3500, 1, 0x0E, 0x0E, "CHAIN_WAITS"),
   (0x3500, 1, 0x0F, 0x0F, "STATEFUL_WAITS"),
   (0x3500, 1, 0x10, 0x10, "LAST_RELEASE"),
   (0x3500, 1, 0x40, 0x6A, "QUEUE_PEAK_n"),
   (0x3200, 64, 0x20, 0x20, "MISMATCHES"),
   (0x3200, 64, 0x21, 0x21, "REPLAYS"),
   (0x3200, 64, 0x22, 0x22, "REMAPS"),
   (0x3200, 64, 0x23, 0x23, "SPARES_FREE"),
   (0x3200, 64, 0x24, 0x24, "MAP_LOW"),
   (0x3200, 64, 0x25, 0x25, "MAP_HIGH"),
   (0x3200, 64, 0x26, 0x26, "SUSPECT"),
   (0x3200, 64, 0x27, 0x27, "LAST_MISMATCH"),
   (0x3200, 64, 0x28, 0x28, "LAST_MISMATCH_STAMP"),
   (0x3200, 64, 0x29, 0x29, "LOG_PEAK"),
   (0x3200, 64, 0x2A, 0x2A, "LOG_FULL_EVENTS"),
   (0x3200, 64, 0x2B, 0x2B, "SRAM_CORRECTED"),
   (0x3200, 64, 0x2C, 0x2C, "SRAM_UNCORRECTABLE"),
   (0x3200, 64, 0x2D, 0x2D, "MIRROR_STATE"),
   (0x3200, 64, 0x2E, 0x2E, "BIST_LANES"),
   (0x3200, 64, 0x2F, 0x2F, "COLLATERAL_ABORTS"),
   (0x3700, 1, 0x00, 0x00, "Highest subindex"),
   (0x3700, 1, 0x01, 0x01, "DEGRADED_REASONS"),
   (0x3700, 1, 0x02, 0x02, "MISMATCHES"),
   (0x3700, 1, 0x03, 0x03, "REPLAYS"),
   (0x3700, 1, 0x04, 0x04, "SECOND_REPLAYS"),
   (0x3700, 1, 0x05, 0x05, "REMAPS"),
   (0x3700, 1, 0x06, 0x06, "SPARES_FREE")]

/-- Subindex names, part 3: first index, number of indices, first and last subindex, name. -/
def subNames3 : List (Nat × Nat × Nat × Nat × String) :=
  [(0x3700, 1, 0x07, 0x07, "MOTIFS_NO_SPARE"),
   (0x3700, 1, 0x08, 0x08, "BUDGET_EXCEEDED"),
   (0x3700, 1, 0x09, 0x09, "REPLAYS_REFUSED"),
   (0x3700, 1, 0x0A, 0x0A, "MISMATCH_RATE_LIMIT"),
   (0x3700, 1, 0x0B, 0x0B, "CLEAR_SUSPECT"),
   (0x3700, 1, 0x0C, 0x0C, "STATE_LOST"),
   (0x3700, 1, 0x0D, 0x0D, "COLLATERAL_ABORTS"),
   (0x3701, 1, 0x00, 0x00, "Highest subindex"),
   (0x3701, 1, 0x01, 0x01, "SRAM_CORRECTED"),
   (0x3701, 1, 0x02, 0x02, "SRAM_UNCORRECTABLE"),
   (0x3701, 1, 0x03, 0x03, "HOOP_STORE_CORRECTED"),
   (0x3701, 1, 0x04, 0x04, "DRAM_CORRECTED"),
   (0x3701, 1, 0x05, 0x05, "DRAM_UNCORRECTABLE"),
   (0x3701, 1, 0x06, 0x06, "DRAM_PAGES_RETIRED"),
   (0x3701, 1, 0x07, 0x07, "DRAM_POOL_FREE"),
   (0x3701, 1, 0x08, 0x08, "DRAM_MIRROR_STATE"),
   (0x3701, 1, 0x09, 0x09, "DRAM_RETIRE_THRESHOLD"),
   (0x3702, 1, 0x00, 0x00, "Highest subindex"),
   (0x3702, 1, 0x01, 0x01, "CRC_ERRORS"),
   (0x3702, 1, 0x02, 0x02, "RETRANSMISSIONS"),
   (0x3702, 1, 0x03, 0x03, "FAILED_LINKS"),
   (0x3702, 1, 0x04, 0x04, "FAILED_X"),
   (0x3702, 1, 0x05, 0x05, "FAILED_Y"),
   (0x3702, 1, 0x06, 0x06, "RINGS_BROKEN"),
   (0x3702, 1, 0x07, 0x07, "UNREACHABLE_DISCARDS"),
   (0x3703, 1, 0x00, 0x00, "Highest subindex"),
   (0x3703, 1, 0x01, 0x01, "STATE"),
   (0x3703, 1, 0x02, 0x02, "RESYNC_PROGRESS"),
   (0x3703, 1, 0x03, 0x03, "READS_FROM_OTHER"),
   (0x3740, 64, 0x00, 0x00, "Highest subindex"),
   (0x3740, 64, 0x01, 0x01, "EXEC_BOUND"),
   (0x3740, 64, 0x02, 0x02, "LOCAL_ONLY"),
   (0x3740, 64, 0x03, 0x03, "REPLAYS_REFUSED"),
   (0x3740, 64, 0x04, 0x04, "SECOND_REPLAYS"),
   (0x3010, 1, 0x00, 0x00, "Highest subindex"),
   (0x3010, 1, 0x01, 0x01, "PACKETS"),
   (0x3010, 1, 0x02, 0x02, "URGENCY_AGED_15"),
   (0x3010, 1, 0x03, 0x03, "ROUTE_DISCARDS"),
   (0x3010, 1, 0x04, 0x04, "OFFLINE_DISCARDS"),
   (0x3010, 1, 0x05, 0x05, "OFFLINE_RESPONSES"),
   (0x3010, 1, 0x06, 0x06, "QUEUE_TID_DISCARDS"),
   (0x3010, 1, 0x07, 0x07, "BAD_PACKET_DISCARDS"),
   (0x3010, 1, 0x08, 0x08, "QUEUE_FULL_WAITS"),
   (0x3080, 72, 0x00, 0x00, "Highest subindex"),
   (0x3080, 72, 0x01, 0x01, "BYTES_SENT"),
   (0x3080, 72, 0x02, 0x02, "BYTES_RECEIVED"),
   (0x3080, 72, 0x03, 0x03, "PACKETS_SENT"),
   (0x3080, 72, 0x04, 0x04, "PACKETS_RECEIVED"),
   (0x3080, 72, 0x05, 0x05, "OUTSTANDING_PEAK"),
   (0x3080, 72, 0x06, 0x0D, "RTT_BIN_n"),
   (0x3080, 72, 0x0E, 0x15, "OWL_BIN_n"),
   (0x3800, 1, 0x00, 0x00, "Highest subindex"),
   (0x3800, 1, 0x01, 0x01, "SELECT"),
   (0x3800, 1, 0x02, 0x02, "ENTRY"),
   (0x3800, 1, 0x03, 0x03, "INVALIDATE_ON_WRITE"),
   (0x3800, 1, 0x04, 0x04, "FLUSH_ALL"),
   (0x3800, 1, 0x05, 0x05, "VALID_ENTRIES"),
   (0x3800, 1, 0x06, 0x06, "CACHE_MISSES"),
   (0x3800, 1, 0x07, 0x07, "STALE_CACHED"),
   (0x3800, 1, 0x08, 0x08, "LAST_CHANGE")]

/-- Subindex names, part 4: first index, number of indices, first and last subindex, name. -/
def subNames4 : List (Nat × Nat × Nat × Nat × String) :=
  [(0x3800, 1, 0x09, 0x09, "QUEUE_SELECT"),
   (0x3800, 1, 0x0A, 0x0A, "QUEUE_COUNT"),
   (0x3800, 1, 0x0B, 0x0B, "QUEUE_PEAK"),
   (0x3100, 4, 0x20, 0x20, "HS_BANK_POWER"),
   (0x3100, 4, 0x21, 0x21, "HS_READ_BYTES"),
   (0x3100, 4, 0x22, 0x22, "HS_WRITE_BYTES"),
   (0x3100, 4, 0x23, 0x23, "HS_WAIT_CYCLES"),
   (0x3100, 4, 0x24, 0x24, "HS_CORRECTED"),
   (0x3100, 4, 0x25, 0x25, "HS_UNCORRECTABLE"),
   (0x3100, 4, 0x26, 0x26, "ROUTE_REFILLS"),
   (0x3100, 4, 0x27, 0x27, "QUEUES_DECLARED"),
   (0x3012, 1, 0x00, 0x00, "Highest subindex"),
   (0x3012, 1, 0x01, 0x01, "RAW_CAPACITY"),
   (0x3012, 1, 0x02, 0x02, "USABLE"),
   (0x3012, 1, 0x03, 0x03, "DATA_RATE"),
   (0x3012, 1, 0x04, 0x04, "RANKS"),
   (0x3012, 1, 0x05, 0x05, "WINDOW_BASE"),
   (0x3012, 1, 0x06, 0x06, "MIRROR_REGIONS"),
   (0x3012, 1, 0x07, 0x07, "MIRRORED_MIB"),
   (0x3012, 1, 0x08, 0x08, "SPARE_PAGES"),
   (0x3012, 1, 0x09, 0x09, "READ_BYTES"),
   (0x3012, 1, 0x0A, 0x0A, "WRITE_BYTES"),
   (0x3012, 1, 0x0B, 0x0B, "QUEUE_PEAK"),
   (0x3600, 1, 0x00, 0x00, "Highest subindex"),
   (0x3600, 1, 0x01, 0x01, "STATE"),
   (0x3600, 1, 0x02, 0x02, "CO_ID"),
   (0x3600, 1, 0x03, 0x03, "T_C"),
   (0x3600, 1, 0x04, 0x04, "SOURCE"),
   (0x3600, 1, 0x05, 0x05, "RECIPE"),
   (0x3600, 1, 0x06, 0x06, "COMMIT_MODE"),
   (0x3600, 1, 0x07, 0x07, "COMMIT"),
   (0x3600, 1, 0x08, 0x08, "CANCEL"),
   (0x3600, 1, 0x09, 0x09, "CONTROL"),
   (0x3600, 1, 0x0A, 0x0A, "REASON"),
   (0x3600, 1, 0x0B, 0x0B, "ACTIVE_PLANE"),
   (0x3600, 1, 0x0C, 0x0C, "RETIRE_DELAY"),
   (0x3600, 1, 0x0D, 0x0D, "RETIRE_AT"),
   (0x3600, 1, 0x0E, 0x0E, "LATE_OLD_DISCARDS"),
   (0x3600, 1, 0x0F, 0x0F, "CHANGEOVERS"),
   (0x3600, 1, 0x10, 0x10, "PERSONALITY_ACTIVE"),
   (0x3600, 1, 0x11, 0x11, "PERSONALITY_IDLE"),
   (0x3600, 1, 0x12, 0x12, "PARTNER_STATE"),
   (0x3600, 1, 0x13, 0x13, "LAST_SWITCH"),
   (0x3601, 1, 0x00, 0x00, "Highest subindex"),
   (0x3601, 1, 0x01, 0x01, "LOAD_STATE"),
   (0x3601, 1, 0x02, 0x02, "LOAD_RESULT"),
   (0x3601, 1, 0x03, 0x03, "RESULT_DETAIL"),
   (0x3601, 1, 0x04, 0x04, "RECEIVED"),
   (0x3601, 1, 0x05, 0x05, "REQUIRE_SIGNED"),
   (0x3601, 1, 0x06, 0x06, "UNIT_NUMBER"),
   (0x3601, 1, 0x07, 0x07, "CFG_PORT_MODE"),
   (0x3601, 1, 0x08, 0x08, "REGION"),
   (0x3601, 1, 0x09, 0x09, "FRAME_ERRORS"),
   (0x3601, 1, 0x0A, 0x0A, "CONTEXT_REPAIRS"),
   (0x3601, 1, 0x0B, 0x0B, "LOADS"),
   (0x3602, 1, 0x00, 0x00, "Highest subindex"),
   (0x3602, 1, 0x01, 0x01, "SLOTS"),
   (0x3602, 1, 0x02, 0x02, "SELECT"),
   (0x3602, 1, 0x03, 0x03, "PERSONALITY_ID"),
   (0x3602, 1, 0x04, 0x04, "IMAGE_VERSION")]

/-- Subindex names, part 5: first index, number of indices, first and last subindex, name. -/
def subNames5 : List (Nat × Nat × Nat × Nat × String) :=
  [(0x3602, 1, 0x05, 0x05, "LENGTH"),
   (0x3602, 1, 0x06, 0x06, "VALID"),
   (0x3602, 1, 0x07, 0x07, "ERASE"),
   (0x3602, 1, 0x08, 0x08, "START_RECIPE"),
   (0x3030, 1, 0x00, 0x00, "Highest subindex"),
   (0x3030, 1, 0x01, 0x01, "STATE"),
   (0x3030, 1, 0x02, 0x02, "RESTARTS"),
   (0x3030, 1, 0x03, 0x03, "LAST_RESTART"),
   (0x3030, 1, 0x04, 0x04, "EXCEPTIONS"),
   (0x3030, 1, 0x05, 0x05, "DOUBLE_ENTRIES"),
   (0x3030, 1, 0x06, 0x06, "OVERFLOW_TRAPS"),
   (0x3030, 1, 0x07, 0x07, "SAVE_HEADROOM"),
   (0x3030, 1, 0x08, 0x08, "FP_SWAPS"),
   (0x3030, 1, 0x09, 0x09, "LAST_CAUSE"),
   (0x3030, 1, 0x0A, 0x0A, "WATCHDOG_MS"),
   (0x3031, 4, 0x00, 0x00, "Highest subindex"),
   (0x3031, 4, 0x01, 0x01, "STATE"),
   (0x3031, 4, 0x02, 0x02, "EXCEPTIONS"),
   (0x3031, 4, 0x03, 0x03, "DOUBLE_ENTRIES"),
   (0x3031, 4, 0x04, 0x04, "HALTS"),
   (0x3031, 4, 0x05, 0x05, "FP_SWAPS"),
   (0x3031, 4, 0x06, 0x06, "LAST_CAUSE"),
   (0x3031, 4, 0x07, 0x07, "RESTART"),
   (0x3031, 4, 0x08, 0x08, "LATENCY_PEAK"),
   (0x3038, 1, 0x00, 0x00, "Highest subindex"),
   (0x3038, 1, 0x01, 0x01, "HALTED"),
   (0x3038, 1, 0x02, 0x02, "SELECT"),
   (0x3038, 1, 0x03, 0x03, "STATE"),
   (0x3038, 1, 0x04, 0x04, "EXCEPTIONS"),
   (0x3038, 1, 0x05, 0x05, "DOUBLE_ENTRIES"),
   (0x3038, 1, 0x06, 0x06, "OVERFLOW_TRAPS"),
   (0x3038, 1, 0x07, 0x07, "SERVICE_PEAK"),
   (0x3038, 1, 0x08, 0x08, "LAST_CAUSE"),
   (0x3038, 1, 0x09, 0x09, "RESTART"),
   (0x1000, 1, 0x00, 0x00, "DEVICE_TYPE"),
   (0x1001, 1, 0x00, 0x00, "ERROR_REGISTER"),
   (0x1008, 1, 0x00, 0x00, "DEVICE_NAME"),
   (0x1009, 1, 0x00, 0x00, "HARDWARE_VERSION"),
   (0x100A, 1, 0x00, 0x00, "SOFTWARE_VERSION"),
   (0x1003, 1, 0x00, 0x00, "ERRORS"),
   (0x1003, 1, 0x01, 0x10, "ERROR_n"),
   (0x1018, 1, 0x00, 0x00, "Highest subindex"),
   (0x1018, 1, 0x01, 0x01, "VENDOR_ID"),
   (0x1018, 1, 0x02, 0x02, "PRODUCT_CODE"),
   (0x1018, 1, 0x03, 0x03, "REVISION"),
   (0x1018, 1, 0x04, 0x04, "SERIAL_NUMBER"),
   (0x1600, 64, 0x00, 0x00, "ENTRIES"),
   (0x1600, 64, 0x01, 0x20, "ENTRY_n"),
   (0x1A00, 64, 0x00, 0x00, "ENTRIES"),
   (0x1A00, 64, 0x01, 0x20, "ENTRY_n"),
   (0x1C12, 1, 0x00, 0x00, "ASSIGNED"),
   (0x1C12, 1, 0x01, 0x10, "PDO_n"),
   (0x1C13, 1, 0x00, 0x00, "ASSIGNED"),
   (0x1C13, 1, 0x01, 0x10, "PDO_n"),
   (0x2010, 1, 0x00, 0x00, "Highest subindex"),
   (0x2010, 1, 0x01, 0x01, "LOAD"),
   (0x2010, 1, 0x02, 0x02, "LOAD_PEAK"),
   (0x2010, 1, 0x03, 0x03, "SHED"),
   (0x2010, 1, 0x04, 0x04, "SHED_EVENTS"),
   (0x2010, 1, 0x05, 0x05, "SDO_LATENCY_MAX")]

/-- Subindex names, part 6: first index, number of indices, first and last subindex, name. -/
def subNames6 : List (Nat × Nat × Nat × Nat × String) :=
  [(0x2010, 1, 0x06, 0x06, "SDO_SERVED"),
   (0x2010, 1, 0x07, 0x07, "SDO_ABORTS"),
   (0x2010, 1, 0x08, 0x08, "EMCY_DROPPED"),
   (0x2010, 1, 0x09, 0x09, "RXPDO_IGNORED"),
   (0x2010, 1, 0x0A, 0x0A, "ECAT_STATE"),
   (0x2010, 1, 0x0B, 0x0B, "AL_STATUS_CODE"),
   (0x2011, 1, 0x00, 0x00, "Highest subindex"),
   (0x2011, 1, 0x01, 0x01, "SAVE"),
   (0x2011, 1, 0x02, 0x02, "RESTORE_DEFAULTS"),
   (0x2011, 1, 0x03, 0x03, "STATE"),
   (0x2011, 1, 0x04, 0x04, "LAST_SAVE"),
   (0x2011, 1, 0x05, 0x05, "SAVES"),
   (0x2011, 1, 0x06, 0x06, "SKIPPED"),
   (0x2011, 1, 0x07, 0x07, "APPLIED_COPY"),
   (0x2012, 1, 0x00, 0x00, "Highest subindex"),
   (0x2012, 1, 0x01, 0x01, "LOCK_STATE"),
   (0x2012, 1, 0x02, 0x02, "LOCK"),
   (0x2012, 1, 0x03, 0x03, "LOCKED_AT"),
   (0x4600, 1, 0x00, 0x00, "Highest subindex"),
   (0x4600, 1, 0x01, 0x01, "NODE_ID"),
   (0x4600, 1, 0x02, 0x02, "NOMINAL_RATE"),
   (0x4600, 1, 0x03, 0x03, "DATA_RATE"),
   (0x4600, 1, 0x04, 0x04, "FD_ENABLE"),
   (0x4600, 1, 0x05, 0x05, "HEARTBEAT_MS"),
   (0x4600, 1, 0x06, 0x06, "NMT_STATE"),
   (0x4600, 1, 0x07, 0x07, "BUS_STATE"),
   (0x4600, 1, 0x08, 0x08, "RX_FRAMES"),
   (0x4600, 1, 0x09, 0x09, "TX_FRAMES"),
   (0x4600, 1, 0x0A, 0x0A, "BUS_OFF_COUNT"),
   (0x4600, 1, 0x0B, 0x0B, "TX_NOT_SENT"),
   (0x4600, 1, 0x10, 0x1F, "FILTER_n"),
   (0x6000, 64, 0x00, 0x00, "Highest subindex"),
   (0x6000, 64, 0x01, 0x04, "WORD_n"),
   (0x7000, 64, 0x00, 0x00, "Highest subindex"),
   (0x7000, 64, 0x01, 0x04, "WORD_n"),
   (0x4000, 1, 0x00, 0x00, "Highest subindex"),
   (0x4000, 1, 0x01, 0x01, "SELECT"),
   (0x4000, 1, 0x02, 0x02, "MODE"),
   (0x4000, 1, 0x03, 0x03, "INPUT_CFG"),
   (0x4000, 1, 0x04, 0x04, "DEGLITCH"),
   (0x4000, 1, 0x05, 0x05, "reserved"),
   (0x4000, 1, 0x06, 0x06, "STUCK_TIMEOUT"),
   (0x4000, 1, 0x07, 0x07, "INIT_LEVEL"),
   (0x4000, 1, 0x08, 0x08, "PULSE_HIGH"),
   (0x4000, 1, 0x09, 0x09, "PULSE_PERIOD"),
   (0x4000, 1, 0x0A, 0x0A, "PULSE_CFG"),
   (0x4000, 1, 0x0B, 0x0B, "LEVELS"),
   (0x4000, 1, 0x0C, 0x0C, "GLITCHES"),
   (0x4000, 1, 0x0D, 0x0D, "MERGED"),
   (0x4000, 1, 0x0E, 0x0E, "FOLDED"),
   (0x4000, 1, 0x0F, 0x0F, "STUCK_PINS"),
   (0x4100, 1, 0x00, 0x00, "Highest subindex"),
   (0x4100, 1, 0x01, 0x01, "SELECT"),
   (0x4100, 1, 0x02, 0x02, "MODE"),
   (0x4100, 1, 0x03, 0x03, "BIT_RATE"),
   (0x4100, 1, 0x04, 0x04, "FORMAT"),
   (0x4100, 1, 0x05, 0x05, "DE_LEAD"),
   (0x4100, 1, 0x06, 0x06, "GAP_TIME"),
   (0x4100, 1, 0x07, 0x07, "POLL_PERIOD"),
   (0x4100, 1, 0x08, 0x08, "FRAMES_SENT")]

/-- Subindex names, part 7: first index, number of indices, first and last subindex, name. -/
def subNames7 : List (Nat × Nat × Nat × Nat × String) :=
  [(0x4100, 1, 0x09, 0x09, "FRAMES_RECEIVED"),
   (0x4100, 1, 0x0A, 0x0A, "ERRORS"),
   (0x4100, 1, 0x0B, 0x0B, "TIMEOUTS"),
   (0x4100, 1, 0x0C, 0x0C, "POLLS_SKIPPED"),
   (0x4200, 1, 0x00, 0x00, "Highest subindex"),
   (0x4200, 1, 0x01, 0x01, "SELECT"),
   (0x4200, 1, 0x02, 0x02, "ENABLE"),
   (0x4200, 1, 0x03, 0x03, "LINK"),
   (0x4200, 1, 0x04, 0x04, "GEOMETRY"),
   (0x4200, 1, 0x05, 0x05, "STRIDE"),
   (0x4200, 1, 0x06, 0x06, "LINE_TOKENS"),
   (0x4200, 1, 0x07, 0x0A, "WINDOW_n"),
   (0x4200, 1, 0x0B, 0x0B, "I2C_RATE"),
   (0x4200, 1, 0x0C, 0x0C, "I2C_XFER"),
   (0x4200, 1, 0x0D, 0x0D, "I2C_RESULT"),
   (0x4200, 1, 0x0E, 0x0E, "FRAMES"),
   (0x4200, 1, 0x0F, 0x0F, "FRAME_ERRORS"),
   (0x4200, 1, 0x10, 0x10, "LINES_LOST"),
   (0x4200, 1, 0x11, 0x11, "LAST_FRAME_START"),
   (0x4200, 1, 0x12, 0x12, "LANE_RATE"),
   (0x4300, 1, 0x00, 0x00, "Highest subindex"),
   (0x4300, 1, 0x01, 0x01, "SELECT"),
   (0x4300, 1, 0x02, 0x02, "ENABLE"),
   (0x4300, 1, 0x03, 0x03, "RELAY"),
   (0x4300, 1, 0x04, 0x04, "STATE"),
   (0x4300, 1, 0x05, 0x05, "PARTNER_UNIT"),
   (0x4300, 1, 0x06, 0x06, "FRAMES_SENT"),
   (0x4300, 1, 0x07, 0x07, "FRAMES_RECEIVED"),
   (0x4300, 1, 0x08, 0x08, "CRC_ERRORS"),
   (0x4300, 1, 0x09, 0x09, "RESENDS"),
   (0x4300, 1, 0x0A, 0x0A, "LINK_DOWNS"),
   (0x4300, 1, 0x0B, 0x0B, "LOST_FRAMES"),
   (0x4500, 1, 0x00, 0x00, "Highest subindex"),
   (0x4500, 1, 0x01, 0x01, "SELECT"),
   (0x4500, 1, 0x02, 0x02, "HIGH"),
   (0x4500, 1, 0x03, 0x03, "LOW"),
   (0x4500, 1, 0x04, 0x04, "HOST_STAMP"),
   (0x4500, 1, 0x05, 0x05, "reserved"),
   (0x4500, 1, 0x06, 0x06, "OCCUPANCY"),
   (0x4500, 1, 0x07, 0x07, "PACKETS"),
   (0x4500, 1, 0x08, 0x08, "FLAG"),
   (0x4500, 1, 0x09, 0x09, "OVERFLOWS"),
   (0x4500, 1, 0x0A, 0x0A, "PEAK"),
   (0x4500, 1, 0x10, 0x10, "FC_MAP"),
   (0x4500, 1, 0x11, 0x11, "FC_ACTIVE_LOW"),
   (0x4500, 1, 0x12, 0x12, "FC_STATE"),
   (0x5000, 1, 0x00, 0x00, "Highest subindex"),
   (0x5000, 1, 0x01, 0x01, "FIRST_SEQ"),
   (0x5000, 1, 0x02, 0x02, "LAST_SEQ"),
   (0x5000, 1, 0x03, 0x03, "USED_BYTES"),
   (0x5000, 1, 0x04, 0x04, "STATE"),
   (0x5000, 1, 0x05, 0x05, "LOST_PENDING"),
   (0x5000, 1, 0x06, 0x06, "LOST_TOTAL"),
   (0x5000, 1, 0x07, 0x07, "RELEASE"),
   (0x5000, 1, 0x08, 0x08, "READ_SEQ"),
   (0x5000, 1, 0x09, 0x09, "RECORD"),
   (0x5000, 1, 0x0A, 0x0A, "OPERATING_TIME"),
   (0x5000, 1, 0x0B, 0x0B, "POWER_CYCLES"),
   (0x5000, 1, 0x0C, 0x0C, "FLASH_COPY_T"),
   (0x5000, 1, 0x0D, 0x0D, "SOURCE")]

/-- Subindex names, part 8: first index, number of indices, first and last subindex, name. -/
def subNames8 : List (Nat × Nat × Nat × Nat × String) :=
  [(0x5100, 1, 0x00, 0x00, "Highest subindex"),
   (0x5100, 1, 0x01, 0x01, "SET_LOW"),
   (0x5100, 1, 0x02, 0x02, "SET_HIGH"),
   (0x5100, 1, 0x03, 0x03, "MASK_LOW"),
   (0x5100, 1, 0x04, 0x04, "MASK_HIGH"),
   (0x5100, 1, 0x05, 0x05, "SELECT"),
   (0x5100, 1, 0x06, 0x06, "COUNT"),
   (0x5100, 1, 0x07, 0x07, "FIRST"),
   (0x5100, 1, 0x08, 0x08, "LAST"),
   (0x5100, 1, 0x09, 0x09, "CLEAR"),
   (0x5100, 1, 0x0A, 0x0A, "KIND"),
   (0x5100, 1, 0x0B, 0x0B, "ALARM_N"),
   (0x5200, 1, 0x00, 0x00, "Highest subindex"),
   (0x5200, 1, 0x01, 0x01, "ENABLE"),
   (0x5200, 1, 0x02, 0x02, "DEST"),
   (0x5200, 1, 0x03, 0x03, "CLASSES"),
   (0x5200, 1, 0x04, 0x04, "NOC_STATS"),
   (0x5200, 1, 0x05, 0x05, "RING_BASE"),
   (0x5200, 1, 0x06, 0x06, "SOURCE_DROPS"),
   (0x5200, 1, 0x07, 0x07, "RING_DROPS"),
   (0x5200, 1, 0x08, 0x08, "GAP_RECORDS"),
   (0x5200, 1, 0x09, 0x09, "RING_BLOCKS"),
   (0x5200, 1, 0x0A, 0x0A, "BLOCKS_CLOSED"),
   (0x5200, 1, 0x0B, 0x0B, "BLOCKS_TO_NVME"),
   (0x5200, 1, 0x0C, 0x0C, "EXPORT_BLOCK"),
   (0x5200, 1, 0x0D, 0x0D, "TRACE_SEGMENTS"),
   (0x5300, 1, 0x00, 0x00, "Highest subindex"),
   (0x5300, 1, 0x01, 0x01, "STATE"),
   (0x5300, 1, 0x02, 0x02, "MODE"),
   (0x5300, 1, 0x03, 0x03, "FORMAT"),
   (0x5300, 1, 0x04, 0x04, "SEGMENTS"),
   (0x5300, 1, 0x05, 0x05, "ENABLE"),
   (0x5300, 1, 0x06, 0x06, "SEGSEQ"),
   (0x5300, 1, 0x07, 0x07, "OLDEST_SEGSEQ"),
   (0x5300, 1, 0x08, 0x08, "RECORDS"),
   (0x5300, 1, 0x09, 0x09, "REORDER_PEAK"),
   (0x5300, 1, 0x0A, 0x0A, "DROPPED"),
   (0x5300, 1, 0x0B, 0x0B, "LATE"),
   (0x5300, 1, 0x0C, 0x0C, "VOLUME_ID"),
   (0x5300, 1, 0x0D, 0x0D, "DURABLE_K"),
   (0x5300, 1, 0x0E, 0x0E, "READ_SEGSEQ"),
   (0x5300, 1, 0x0F, 0x0F, "READ_BLOCK"),
   (0x5300, 1, 0x10, 0x10, "BLOCK_DATA"),
   (0x5300, 1, 0x11, 0x11, "FIRST_SEQ"),
   (0x4400, 1, 0x00, 0x00, "Highest subindex"),
   (0x4400, 1, 0x01, 0x01, "SELECT"),
   (0x4400, 1, 0x02, 0x02, "PRESENT"),
   (0x4400, 1, 0x03, 0x03, "LINK"),
   (0x4400, 1, 0x04, 0x04, "WIDTH"),
   (0x4400, 1, 0x05, 0x05, "CAPACITY"),
   (0x4400, 1, 0x06, 0x06, "LBA_SIZE"),
   (0x4400, 1, 0x07, 0x07, "MODEL"),
   (0x4400, 1, 0x08, 0x08, "SERIAL"),
   (0x4400, 1, 0x09, 0x09, "TIMEOUTS"),
   (0x4400, 1, 0x0A, 0x0A, "MEDIA_ERRORS"),
   (0x4400, 1, 0x0B, 0x0B, "TEMPERATURE"),
   (0x4400, 1, 0x0C, 0x0C, "PERCENT_USED"),
   (0x4400, 1, 0x0D, 0x0D, "WRITTEN"),
   (0x2000, 1, 0x00, 0x00, "Highest subindex"),
   (0x2000, 1, 0x01, 0x01, "RESET_CAUSE")]

/-- Subindex names, part 9: first index, number of indices, first and last subindex, name. -/
def subNames9 : List (Nat × Nat × Nat × Nat × String) :=
  [(0x2000, 1, 0x02, 0x02, "START_MS"),
   (0x2000, 1, 0x03, 0x03, "STEP_SELECT"),
   (0x2000, 1, 0x04, 0x04, "STEP_ENTRY"),
   (0x2000, 1, 0x05, 0x05, "FALLBACKS"),
   (0x2000, 1, 0x06, 0x06, "SKIPPED"),
   (0x2000, 1, 0x07, 0x07, "CLEAR_RECORD"),
   (0x2000, 1, 0x08, 0x08, "RESTART"),
   (0x2000, 1, 0x09, 0x09, "STOP"),
   (0x2000, 1, 0x0A, 0x0A, "STOP_STATE"),
   (0x2000, 1, 0x0B, 0x0B, "HOLD_STEP"),
   (0x2000, 1, 0x0C, 0x0C, "HOLD_CODE"),
   (0x2000, 1, 0x0D, 0x0D, "LOADER_MODE"),
   (0x2001, 1, 0x00, 0x00, "DEVICE_STATE"),
   (0x5800, 1, 0x00, 0x00, "Highest subindex"),
   (0x5800, 1, 0x01, 0x01, "STATE"),
   (0x5800, 1, 0x02, 0x02, "BEGIN"),
   (0x5800, 1, 0x03, 0x03, "BLOCK_HALF"),
   (0x5800, 1, 0x04, 0x04, "END"),
   (0x5800, 1, 0x05, 0x05, "NEXT_BLOCK"),
   (0x5800, 1, 0x06, 0x06, "ACTIVATE_AT"),
   (0x5800, 1, 0x07, 0x07, "ABORT"),
   (0x5800, 1, 0x08, 0x08, "RUNNING_VERSION"),
   (0x5800, 1, 0x09, 0x09, "SLOT_VERSION"),
   (0x5800, 1, 0x0A, 0x0A, "SLOT_VALID"),
   (0x5800, 1, 0x0B, 0x0B, "LAST_ACTIVATION"),
   (0x5800, 1, 0x0C, 0x0C, "REFUSALS"),
   (0x2200, 1, 0x00, 0x00, "Highest subindex"),
   (0x2200, 1, 0x01, 0x01, "TJ"),
   (0x2200, 1, 0x02, 0x02, "TJ_PEAK"),
   (0x2200, 1, 0x03, 0x03, "TJ_HIGH"),
   (0x2200, 1, 0x04, 0x04, "VDD_CORE"),
   (0x2200, 1, 0x05, 0x05, "VDD_SRAM"),
   (0x2200, 1, 0x06, 0x06, "VDD_AON"),
   (0x2200, 1, 0x07, 0x07, "VDDIO_CLASS"),
   (0x2200, 1, 0x08, 0x08, "CORE_CURRENT"),
   (0x2200, 1, 0x09, 0x09, "CORE_CURRENT_LIMIT"),
   (0x2200, 1, 0x0A, 0x0A, "POWER"),
   (0x2200, 1, 0x0B, 0x0B, "DOMAIN_STATE"),
   (0x2200, 1, 0x0C, 0x0C, "DOMAIN_SELECT"),
   (0x2200, 1, 0x0D, 0x0D, "DOMAIN_CONTROL"),
   (0x2200, 1, 0x0E, 0x0E, "DOMAIN_POWER"),
   (0x2200, 1, 0x0F, 0x0F, "DOMAIN_SWITCHES"),
   (0x2200, 1, 0x10, 0x17, "SENSOR_n"),
   (0x2200, 1, 0x18, 0x18, "START_OFF"),
   (0x3100, 4, 0x00, 0x00, "Highest subindex"),
   (0x3100, 4, 0x01, 0x01, "CLOCK"),
   (0x3100, 4, 0x02, 0x02, "DPLL_LOCKED"),
   (0x3100, 4, 0x03, 0x03, "HALF_A"),
   (0x3100, 4, 0x04, 0x04, "HALF_B"),
   (0x3100, 4, 0x05, 0x05, "MOTIFS_CONFIGURED"),
   (0x3100, 4, 0x06, 0x06, "TEMPERATURE"),
   (0x3100, 4, 0x07, 0x07, "TEMP_PEAK"),
   (0x3100, 4, 0x08, 0x08, "POWER")]

/-- Subindex names. -/
def subNames : List (Nat × Nat × Nat × Nat × String) :=
  subNames1 ++ subNames2 ++ subNames3 ++ subNames4 ++ subNames5 ++ subNames6 ++ subNames7 ++ subNames8 ++ subNames9

/-- A name's characters. -/
def nameBytes (t : String) : List Byte := t.toList.map (fun c => BitVec.ofNat 8 c.toNat)

/-- An object's name. -/
def objectName (ix : Nat) : List Byte :=
  match objectNames.find? (fun e => decide (e.1 ≤ ix) && decide (ix < e.1 + e.2.1)) with
  | some e => nameBytes e.2.2
  | none => []

/-- A subindex's name. -/
def subName (ix sub : Nat) : List Byte :=
  match subNames.find? (fun e => decide (e.1 ≤ ix) && decide (ix < e.1 + e.2.1) && decide (e.2.2.1 ≤ sub) && decide (sub ≤ e.2.2.2.1)) with
  | some e => nameBytes e.2.2.2.2
  | none => []

end Sys2Proof.Machine
end

