-- ==== Sys2Proof/Machine/Requests.lean ====
section
/-! DEFINITION. Requests of the three paths (R347 to R350, R371): the SDO information services, segmented transfers, and the order in which requests are
served. -/

namespace Sys2Proof.Machine
open Sys2Proof

/-! ## SDO information (R371, R386, Table 9.2) -/

/-- A number put into a rising list. -/
def insertNat (n : Nat) : List Nat → List Nat
  | [] => [n]
  | x :: xs => if n ≤ x then n :: x :: xs else x :: insertNat n xs

/-- The indices outside the secure range that the object tables list, in order (R386). -/
def allIndices : List Nat :=
  ((objRows.filter (fun r => decide (r.lo = 0))).flatMap (fun r => (List.range r.n).map (fun i => r.ix + i))).foldr insertNat []

/-- A subindex of the object can be mapped into an RxPDO or a TxPDO (R346). -/
def mappable (tx : Bool) (ix : Nat) : Bool := objRows.any (fun r => decide (r.ix ≤ ix) && decide (ix < r.ix + r.n) && r.pdo && (tx || r.acc == .rw))

/-- The object has a subindex of the saved set (R353). -/
def saveable (ix : Nat) : Bool :=
  objRows.any (fun r => decide (r.ix ≤ ix) && decide (ix < r.ix + r.n) && (List.range (r.hi + 1 - r.lo)).any (fun k => inSavedSet r ix (r.lo + k)))

/-- The object list of a type: 1 all, 2 mappable into RxPDOs, 3 into TxPDOs, 4 saved, 5 start-up parameters (none). -/
def infoList (typ : Nat) : List Nat :=
  if typ = 1 then allIndices else if typ = 2 then allIndices.filter (mappable false) else if typ = 3 then allIndices.filter (mappable true)
  else if typ = 4 then allIndices.filter saveable else []

/-- The answer to an object-list request: the type and the list; type 0 gives the five lists' lengths. -/
def infoListBytes (typ : Nat) : List Byte :=
  leBytes typ 2 ++
    (if typ = 0 then [1, 2, 3, 4, 5].flatMap (fun t => leBytes (infoList t).length 2) else (infoList typ).flatMap (fun ix => leBytes ix 2))

/-- The object has more than subindex 00. -/
def isRecord (ix : Nat) : Bool := objRows.any (fun r => decide (r.ix ≤ ix) && decide (ix < r.ix + r.n) && decide (0 < r.hi))

/-- The highest subindex an object's tables list. -/
def highestSub (ix : Nat) : Nat := (objRows.map (fun r => if r.ix ≤ ix ∧ ix < r.ix + r.n then r.hi else 0)).foldl max 0

/-- The answer to an object-description request: index, data type (of a single value), highest subindex, object code 7 VAR or 9 RECORD, name. -/
def infoObjectBytes (ix : Nat) : List Byte :=
  let ty := match rowOf ix 0 with | some r => r.ty | none => 0
  leBytes ix 2 ++ leBytes (if isRecord ix then 0 else ty) 2 ++ [BitVec.ofNat 8 (highestSub ix), if isRecord ix then 9#8 else 7#8] ++ objectName ix

/-- Object access of a subindex: [2:0] readable, [5:3] writable in PREOP, SAFEOP and OP, [6] RxPDO, [7] TxPDO, [8] saved. -/
def infoAccess (r : ObjRow) (ix sub : Nat) : Nat :=
  (if r.acc = .wo then 0 else 7) + (if r.acc = .const ∨ r.acc = .ro then 0 else 0x38) + (if r.pdo ∧ r.acc = .rw then 0x40 else 0) +
    (if r.pdo then 0x80 else 0) + (if inSavedSet r ix sub then 0x100 else 0)

/-- The answer to an entry-description request: index, subindex, value information 0, data type, bit length, object access, name. -/
def infoEntryBytes (r : ObjRow) (ix sub : Nat) : List Byte :=
  leBytes ix 2 ++ [BitVec.ofNat 8 sub, 0#8] ++ leBytes r.ty 2 ++ leBytes (8 * (if r.size = 0 then r.maxLen else r.size)) 2 ++ leBytes (infoAccess r ix sub) 2 ++
    subName ix sub

/-- An information request performed. -/
def infoReply (q : SdoReq) (s : State) : Reply :=
  if q.kind = 6 then (if 5 < q.sub then .refuse s abortValue else { data := infoListBytes q.sub, state := s })
  else if q.kind = 7 then (if hasObject q.ix then { data := infoObjectBytes q.ix, state := s } else .refuse s abortNoObject)
  else match rowOf q.ix q.sub with
    | none => .refuse s (absentCode q.ix)
    | some r => { data := infoEntryBytes r q.ix q.sub, state := s }

/-! ## Segmented transfers (R348, R371) -/

/-- The initiate of a segmented write: the bytes come in segments. -/
def beginSegments (q : SdoReq) (size : Nat) (s : State) : State :=
  answerSent q.path {} (s.setPath q.path
    { s.path q.path with
      busy := false, active := true, write := true, ix := q.ix, sub := q.sub, complete := q.kind == 3, declared := size, buf := q.data, toggle := false,
      lastT := s.time.clk, answer := {}, answered := true })

/-- A segment accepted: the answer it gets, the bytes that stay with the transfer, and whether the transfer goes on. -/
def segmentTaken (path : Nat) (a : List Byte) (buf : List Byte) (more : Bool) (s : State) : State :=
  let p := s.path path
  let s1 := s.setPath path { p with busy := false, active := more, buf := buf, toggle := !p.toggle, lastT := s.time.clk, answer := { data := a }, answered := true }
  answerSent path { data := a } { s1 with cfg := if path = 2 then { s1.cfg with sdoReady := true } else s1.cfg }

/-- What a segment asks for: a refusal, the next state of a transfer that goes on or was read to its end, or a write whose bytes are all there. -/
inductive SegAct where
  | refuse (code : Nat)
  | taken (s : State)
  | write (q : SdoReq)

/-- A segment (R348, Table 9.4): `sub` holds 2 × toggle + last. -/
def segment (q : SdoReq) (s : State) : SegAct :=
  let p := s.path q.path
  let last := q.sub % 2 == 1
  let buf := p.buf ++ q.data
  if !p.active then .refuse abortCommand
  else if (q.sub / 2 % 2 == 1) != p.toggle then .refuse abortToggle
  else if !p.write then
    (let n := segPart s q.path
     .taken (segmentTaken q.path (p.buf.take n) (p.buf.drop n) (decide (n < p.buf.length)) s))
  else if p.declared < buf.length || (last && buf.length != p.declared) then
    .refuse (lengthRefused { path := q.path, kind := if p.complete then 3 else 1, ix := p.ix, sub := p.sub } abortLength s).abort
  else if last then .write { path := q.path, kind := if p.complete then 3 else 1, ix := p.ix, sub := p.sub, data := buf }
  else .taken (segmentTaken q.path [] buf true s)

/-! ## Requests -/

/-- A dictionary request performed (R347, R349). -/
def perform (q : SdoReq) (s : State) : Act :=
  if 4096 < q.data.length then .now (lengthRefused q abortMemory s)
  else if q.kind = 0 then dictRead q.path q.ix q.sub s
  else if q.kind = 1 then dictWrite q.path q.ix q.sub q.data s
  else if q.kind = 2 then .now (caRead q.path q.ix q.sub s)
  else .now (caWrite q.path q.ix q.sub q.data s)

/-- The answer of a read whose stored words show ECC errors (R192, Table 9.4): corrected ones are counted, an uncorrectable one makes it an abort. -/
def readShown (q : SdoReq) (s : State) (r : Reply) : Reply :=
  if r.abort ≠ 0 ∨ (q.kind ≠ 0 ∧ q.kind ≠ 2) then r
  else if q.ecc = 2 then .refuse (raise 8 (s.bump 0x3701 2)) abortHardware
  else if q.ecc = 1 then { r with state := r.state.bump 0x3701 1 } else r

/-- A dictionary request answered, or running until its action ends. -/
def serveAct (q : SdoReq) (s : State) : State :=
  match perform q s with
  | .now r => answered q.path (readShown q s r)
  | .later s1 => sdoStart q.path s1

/-- A write whose initiate states another size than the bytes that came with it (R348). -/
def serveStated (q : SdoReq) (size : Nat) (s : State) : State :=
  if 4096 < size then answered q.path (lengthRefused q abortMemory s)
  else if size < q.data.length then answered q.path (lengthRefused q abortLength s)
  else beginSegments q size s

/-- A read that states a length (R348): refused where the object's size is another. -/
def serveSized (q : SdoReq) (n : Nat) (s : State) : State :=
  match perform q s with
  | .now r => if r.abort = 0 ∧ r.data.length ≠ n then answered q.path (.refuse s abortLength) else answered q.path (readShown q s r)
  | .later s1 => if n = 4096 then sdoStart q.path s1 else answered q.path (.refuse s abortLength)

/-- A request in execution: of the dictionary, an FoE packet (kind 9) or an upward state request (kind 10) that has waited (R380). -/
def serveNow (q : SdoReq) (s : State) : State :=
  let g := sdoGate s q
  if q.kind = 9 then foeResume s
  else if q.kind = 10 then alResume s
  else if g ≠ 0 then answered q.path (.refuse s g)
  else if q.kind = 4 then
    match segment q s with
    | .refuse c => answered q.path (.refuse s c)
    | .taken s1 => s1
    | .write w => if sdoGate s w ≠ 0 then answered q.path (.refuse s (sdoGate s w)) else serveAct w s
  else if q.kind = 5 then answered q.path (.refuse s abortCommand)
  else if 6 ≤ q.kind then (let r := infoReply q s; answeredPart q.path r.data.length r)
  else match q.stated with
    | some n => if q.kind = 1 ∨ q.kind = 3 then serveStated q n s else serveSized q n s
    | none => serveAct q s

/-- A request of the plain range arrives on a path: it waits its turn, or is served. -/
def sdoRequest (q : SdoReq) (s : State) : State :=
  if !pathServes s q.path || !pathFree s q.path then sdoTurned q.path s
  else if s.sdoRun.isSome || mpDown s then sdoQueue q (arrives q.path s)
  else serveNow q (arrives q.path s)

/-- Waiting requests are served in the order of arrival, until one runs on or none is left (R350). -/
def serveWaiting : Nat → State → State
  | 0, s => s
  | n + 1, s =>
    if s.sdoRun.isSome || mpDown s then s
    else match s.sdoWait with
      | [] => s
      | q :: rest => serveWaiting n (serveNow q { s with sdoWait := rest })

/-- The requests that waited are served: at most one a path (R350), an FoE packet and a state request (R380). -/
def serveNext (s : State) : State := serveWaiting 10 s

end Sys2Proof.Machine
end

