-- ==== Sys2Proof/Machine/Secure.lean ====
section
/-! DEFINITION. The secure range (R384 to R386, R505), its mailbox (R44), the life cycle (R495 to R499) and tamper events (R500). -/

namespace Sys2Proof.Machine
open Sys2Proof

/-! ## Life cycle -/

/-- An accepted life-cycle change to state `dest` (R498, steps 1 to 5); the reset follows 10 ms after the response at `due`. -/
def lifeChange (dest due : Nat) (s : State) : State :=
  let old := s.fuses.lc
  let (f, s0) := s.fresh
  let seed := if dest = 1 then 1 + Config.random f % (2 ^ 256 - 1) else if 3 ≤ dest then 0 else s.fuses.seed
  let s1 : State := { s0 with fuses := { s0.fuses with lc := dest, seed := seed, destroyed := s0.fuses.destroyed || decide (3 ≤ dest) } }
  let s2 := wipeIsland s1
  let s3 := persistTouch ((s2.setObj 0x2012 1 0).setObj 0x2012 3 0)
  let pay := leBytes old 1 ++ leBytes dest 1 ++ leBytes 0 2
  let s4 := raise 88 (sample 0x0103 pay (secOffer 0x0202 pay s3))
  { s4 with start := { s4.start with resetAt := some (due + 10000000) } }

/-- AUTH is a signature by the slot-0 key over the request's digest (Table 12.12). -/
def authOk (s : State) : Bool :=
  let digest := sha256 (leBytes 0x6E746572 4 ++ leBytes s.fuses.serial 4 ++ unitPublic s)
  (ecKeys digest s.island.auth).any (fun k => sha256 k == mget [] s.island.hashes 0 && ecdsaOk k digest s.island.auth)

/-- The state a request code leads to from the island's working copy, where it is accepted (Table 12.12). -/
def lifeAsked (code : Nat) (s : State) : Option Nat :=
  let lc := s.island.lc
  if code = 0x766F7270 then (if lc = 0 then some 1 else none)
  else if code = 0x6C656966 then (if lc = 1 then some 2 else none)
  else if code = 0x6E746572 then (if (lc = 1 ∨ lc = 2) ∧ authOk s then some 3 else none)
  else if code = 0x70726373 then (if lc = 4 then none else some 4)
  else none

/-- The state that a request code leads to: the fuses only ever advance (R495). -/
def lifeTarget (code : Nat) (s : State) : Option Nat := (lifeAsked code s).filter (fun d => decide (s.fuses.lc < d))

/-- The effect of a write of REQUEST: AUTH is used up by it (R497). -/
def lifeRequest (code due : Nat) (s : State) : Option State × State :=
  let used := s.setIsland { s.island with auth := [] }
  match lifeTarget code s with
  | none => (none, used)
  | some dest => (some (lifeChange dest due used), used)

/-! ## Objects 0x5C00 to 0x5C03 (Table 12.18) -/

/-- The hash in a slot as the island holds it: slots 1 to 3 count as empty in RETURN and SCRAPPED (Table 12.11). -/
def hashShown (s : State) (n : Nat) : List Byte :=
  let h := if n ≠ 0 ∧ 3 ≤ s.island.lc then [] else mget [] s.island.hashes n
  if h.isEmpty then List.replicate 32 0#8 else h

/-- The unit key is there: PROVISIONED or FIELD, and the island holds its keys. -/
def unitKeyThere (s : State) : Bool := s.island.keys && (s.island.lc == 1 || s.island.lc == 2)

/-- The security sampler's reads are accepted (R505). Like LIFE_CYCLE and JTAG they go by the fuses, which hold the state (R495), also while the island's
working copy is wiped (DESIGN CHOICE, log entry 128). -/
def secReadable (s : State) : Bool := s.fuses.lc == 1 || s.fuses.lc == 3

/-- What a read answers; `none` where it is refused. -/
def secureRead (ix sub : Nat) (s : State) : Option (List Byte) :=
  let x := s.island
  if ix = 0x5C00 then
    (if sub = 0 then some [4#8] else if sub = 1 then some (leBytes s.fuses.lc 1)
     else if sub = 4 then some [if s.fuses.lc = 2 ∨ s.fuses.lc = 4 then 1#8 else 2#8] else none)
  else if ix = 0x5C01 then (if sub = 0 then some [4#8] else if sub ≤ 4 then some (hashShown s (sub - 1)) else none)
  else if ix = 0x5C02 then
    (if sub = 0 then some [3#8] else if sub = 1 ∧ unitKeyThere s then some (unitPublic s) else if sub = 3 ∧ unitKeyThere s then some x.attest else none)
  else if ix = 0x5C03 ∧ secReadable s then
    (if sub = 0 then some [5#8] else if sub = 1 then some (leBytes (secFirst x) 4) else if sub = 2 then some (leBytes (secLast x) 4)
     else if sub = 3 then some (leBytes x.readSeq 4) else if sub = 4 then (x.recs.find? (fun r => r.seq == x.readSeq)).map (·.bytes) else none)
  else none

/-- The signature that a challenge gives (Table 12.18). -/
def attestation (challenge : List Byte) (nonce : Nat) (s : State) : List Byte :=
  ecSign (unitKey s) nonce (sha256 (challenge ++ leBytes s.fuses.serial 4 ++ leBytes s.island.lc 1 ++ leBytes (s.obj 0x5800 8) 4))

/-- A write of `n` bytes that the island would take, whatever the bytes are: a transfer of it is accepted at its initiate (R384). -/
def secureTakes (ix sub n : Nat) (s : State) : Bool :=
  let x := s.island
  if ix = 0x5C00 ∧ sub = 2 then decide (n = 4) && s.fuses.lc != 4 && x.keys
  else if ix = 0x5C00 ∧ sub = 3 then decide (n = 64) && s.fuses.lc != 4
  else if ix = 0x5C01 ∧ 2 ≤ sub ∧ sub ≤ 4 then decide (n = 32) && x.keys && x.lc == 1 && (mget [] x.hashes (sub - 1)).isEmpty
  else if ix = 0x5C02 ∧ sub = 2 then decide (n = 32) && unitKeyThere s
  else ix == 0x5C03 && (sub == 3 || sub == 5) && decide (n = 4)

/-- What a write does: the state after it, or none where it is refused; and the state a refusal leaves. -/
def secureWrite (ix sub due : Nat) (bs : List Byte) (s : State) : Option State × State :=
  let n := bs.length
  let x := s.island
  if ix = 0x5C00 ∧ sub = 2 ∧ n = 4 ∧ s.fuses.lc ≠ 4 then (if x.keys then lifeRequest (leNat bs) due s else (none, s.setIsland { x with auth := [] }))
  else if ix = 0x5C00 ∧ sub = 3 ∧ n = 64 ∧ s.fuses.lc ≠ 4 then (some (s.setIsland { x with auth := bs }), s)
  else if ix = 0x5C01 ∧ 2 ≤ sub ∧ sub ≤ 4 ∧ n = 32 ∧ x.keys ∧ x.lc = 1 ∧ (mget [] x.hashes (sub - 1)).isEmpty then
    (some { s with fuses := { s.fuses with hashes := mset [] s.fuses.hashes (sub - 1) bs }, island := { x with hashes := mset [] x.hashes (sub - 1) bs } }, s)
  else if ix = 0x5C02 ∧ sub = 2 ∧ n = 32 ∧ unitKeyThere s then
    (let (f, s1) := s.fresh
     (some (s1.setIsland { x with attest := attestation bs (Config.random f) s }), s))
  else if ix = 0x5C03 ∧ sub = 3 ∧ n = 4 then (some (s.setIsland { x with readSeq := leNat bs }), s)
  else if ix = 0x5C03 ∧ sub = 5 ∧ n = 4 then (secRelease (leNat bs) s, s)
  else (none, s)

/-- A refused access is recorded in the security sampler (Table 12.18); the reason code is the island's own. -/
def secureRefused (q : SdoReq) (s : State) : State :=
  let (f, s1) := s.fresh
  secOffer 0x0200 (leBytes q.ix 2 ++ leBytes q.sub 1 ++ leBytes (Config.freeWord f).toNat 1) s1

/-- The island's answer to a request, and what it does (R384, R496): the initiate of a write whose bytes come in segments is taken or refused as the write
would be. Complete access is refused. -/
def islandAnswer (q : SdoReq) (due : Nat) (s : State) : SdoAnswer × State :=
  if s.fuses.lc = 4 ∧ !(q.kind == 0 && q.ix == 0x5C00 && q.sub == 1) then ({ abort := abortSecure }, secureRefused q s)
  else if q.kind = 0 then
    match secureRead q.ix q.sub s with
    | some bs => if q.stated.getD bs.length = bs.length then ({ data := bs }, s) else ({ abort := abortSecure }, secureRefused q s)
    | none => ({ abort := abortSecure }, secureRefused q s)
  else if q.kind = 1 ∧ q.stated.isSome then
    (if q.data.length ≤ q.stated.getD 0 ∧ secureTakes q.ix q.sub (q.stated.getD 0) s then ({}, s) else ({ abort := abortSecure }, secureRefused q s))
  else if q.kind = 1 then
    match secureWrite q.ix q.sub due q.data s with
    | (some s1, _) => ({}, s1)
    | (none, s1) => ({ abort := abortSecure }, secureRefused q s1)
  else ({ abort := abortSecure }, secureRefused q s)

/-! ## Requests (R385) -/

/-- When the mailbox is free for another exchange: 1,000 ns after the last one began. -/
def mailboxFree (s : State) : Nat := (s.secure.map (fun d => d.at' + 1000)).foldl max s.time.clk

/-- A request of the secure range arrives: its answer is due in 500 µs. -/
def secureRequest (q : SdoReq) (s : State) : State :=
  if !pathServes s q.path || !pathFree s q.path then sdoTurned q.path s
  else
    let s1 := (arrives q.path s).setPath q.path { s.path q.path with busy := true, since := s.time.clk, answered := false }
    { s1 with secure := s1.secure ++ [{ req := q, due := s.time.clk + 500000, at' := mailboxFree s }] }

/-- The oldest request without the island's answer. -/
def exchangeNext (s : State) : Option SecureDue := s.secure.find? (fun d => d.answer.isNone)

/-- A request's answer kept until it is due. -/
def keepAnswer (d : SecureDue) (a : SdoAnswer) (s : State) : State :=
  { s with secure := s.secure.map (fun e => if e.req.path = d.req.path then { e with answer := some a } else e) }

/-- MAILBOX_EXCHANGE (R44, R250): the exchange of the oldest request completes 1,000 ns after it began; during a wipe it ends as a refusal.
`ecc` is what the island's words show (R192): with an uncorrectable one there is no result to hand over (DESIGN CHOICE, log entry 129). -/
def execMailboxExchange (ecc : Nat) (s : State) : Host.Outcome State Fault Refusal :=
  match exchangeNext s with
  | none => done s
  | some d =>
    if mpDown s || decide (s.time.clk < d.at' + 1000) || decide (d.due ≤ s.time.clk) then done s
    else if wiping s then done ((keepAnswer d { abort := abortSecure } s).interrupt 68 5)
    else if ecc = 2 then done ((keepAnswer d { abort := abortSecure } (raise 8 (s.bump 0x3701 2))).interrupt 68 5)
    else
      let (a, s1) := islandAnswer d.req d.due (if ecc = 1 then s.bump 0x3701 1 else s)
      done ((keepAnswer d a s1).interrupt 68 5)

/-- SECURE_RESPONSE_DUE (R385): 500 µs after the request the port answers with the result, or 0x0800_0000 where there is none. -/
def execSecureResponseDue (s : State) : Host.Outcome State Fault Refusal :=
  match s.secure with
  | [] => done s
  | d :: rest =>
    if s.time.clk < d.due then done s
    else
      let a := d.answer.getD { abort := abortSecure }
      let s1 : State := { s with secure := rest }
      if d.req.kind = 1 ∧ d.req.stated.isSome ∧ a.abort = 0 then done (beginSegments d.req (d.req.stated.getD 0) s1)
      else done (answered d.req.path { abort := a.abort, data := a.data, state := s1, timed := true })

/-- An index of the secure range. -/
def secureIndex (ix : Nat) : Bool := decide (0x5C00 ≤ ix) && decide (ix < 0x6000)

/-- A request of any index. -/
def anyRequest (q : SdoReq) (s : State) : State := if secureIndex q.ix then secureRequest q s else sdoRequest q s

/-- A segment of a write to the secure range: the last one makes the request, and one that breaks the transfer is refused as every access there (R384). -/
def secureSegment (q : SdoReq) (s : State) : State :=
  if !pathServes s q.path || !pathFree s q.path then sdoTurned q.path s
  else match segment q s with
    | .refuse _ => secureRequest q (s.setPath q.path { s.path q.path with active := false })
    | .taken s1 => s1
    | .write w => secureRequest w (s.setPath q.path { s.path q.path with active := false })

/-- A write request of the secure range. -/
def secureSend (path ix sub : Nat) (bs : List Byte) (s : State) : State := secureRequest { path := path, kind := 1, ix := ix, sub := sub, data := bs } s

/-- LC_REQUEST_PROV (R497). -/
def execLcRequestProv (path : Nat) (s : State) : Host.Outcome State Fault Refusal := done (secureSend path 0x5C00 2 (leBytes 0x766F7270 4) s)

/-- LC_REQUEST_FIEL (R497). -/
def execLcRequestFiel (path : Nat) (s : State) : Host.Outcome State Fault Refusal := done (secureSend path 0x5C00 2 (leBytes 0x6C656966 4) s)

/-- LC_REQUEST_RETN (R497). -/
def execLcRequestRetn (path : Nat) (s : State) : Host.Outcome State Fault Refusal := done (secureSend path 0x5C00 2 (leBytes 0x6E746572 4) s)

/-- LC_REQUEST_SCRP (R497). -/
def execLcRequestScrp (path : Nat) (s : State) : Host.Outcome State Fault Refusal := done (secureSend path 0x5C00 2 (leBytes 0x70726373 4) s)

/-- AUTH_WRITE (R497). -/
def execAuthWrite (path : Nat) (bs : FrameData) (s : State) : Host.Outcome State Fault Refusal := done (secureSend path 0x5C00 3 (bs.map (BitVec.ofNat 8)) s)

/-- CHALLENGE_WRITE (R505). -/
def execChallengeWrite (path : Nat) (bs : FrameData) (s : State) : Host.Outcome State Fault Refusal :=
  done (secureSend path 0x5C02 2 (bs.map (BitVec.ofNat 8)) s)

/-- IMAGE_KEY_HASH_WRITE (R505): slot n of 1 to 3. -/
def execImageKeyHashWrite (path n : Nat) (bs : FrameData) (s : State) : Host.Outcome State Fault Refusal :=
  done (secureSend path 0x5C01 (1 + n) (bs.map (BitVec.ofNat 8)) s)

/-- SECURITY_RELEASE_WRITE (R505). -/
def execSecurityReleaseWrite (path v : Nat) (s : State) : Host.Outcome State Fault Refusal := done (secureSend path 0x5C03 5 (leBytes v 4) s)

/-! ## Wipes and tamper events -/

/-- ISLAND_WIPE_COMPLETE (R250, R498): the island is empty; after a life-cycle change it is loaded from the fuses again. -/
def execIslandWipeComplete (s : State) : Host.Outcome State Fault Refusal :=
  let s1 := s.setIsland { s.island with wipeEnd := none }
  if wiping s then done (if s.island.tampered then s1 else loadIsland s1) else done s

/-- A check that runs fails at a tamper event (R500): an update that is being verified is refused for want of keys at its verdict. -/
def execTamperEvent (s : State) : Host.Outcome State Fault Refusal :=
  let s1 := wipeIsland s
  let s2 := s1.setIsland { s1.island with tampered := true }
  done (sample 0x0104 [] (setCond 89 true (secOffer 0x0203 [] s2)))

end Sys2Proof.Machine
end

