-- ==== Sys2Proof/Machine/Sdo.lean ====
section
/-! DEFINITION. The rows of the SDO services (R347 to R350, R371, R384, R386). Path 0 is EtherCAT CoE, 1 CANopen, 2 the config slave port. A CANopen path
has neither complete access nor information services. -/

namespace Sys2Proof.Machine
open Sys2Proof

/-- The bytes of a request. -/
def byteData (bs : FrameData) : List Byte := bs.map (BitVec.ofNat 8)

/-- A write request whose initiate states `size`; in the secure range it is accepted or refused at its initiate (R384). -/
def writeRequest (q : SdoReq) (size : Nat) (s : State) : State :=
  if size = q.data.length then anyRequest q s
  else if secureIndex q.ix then secureRequest { q with stated := some size } s
  else sdoRequest { q with stated := some size } s

/-- A core's own access goes through (R295): any of the MP's; a supervisor switches the banks of its hoop's scratchpads and of its hoop store, and reads the
counters of a shuttle of its hoop, which it selects by a write of its motif `v` to 0x3038:02. -/
def coreMay (s : State) (write : Bool) (path ix sub v : Nat) : Bool :=
  if path < 4 then true
  else if write then
    (ix == 0x3038 && sub == 2 && decide (v < 64) && hoopOf v == path - 4) || (decide (0x3200 ≤ ix) && decide (ix < 0x3240) && sub == 8 && hoopOf (ix - 0x3200) == path - 4) || (ix == 0x3100 + (path - 4) && sub == 0x20)
  else ix == 0x3038 && decide (3 ≤ sub) && decide (sub ≤ 8) && hoopOf (s.obj 0x3038 2) == path - 4

/-- OBJECT_WRITE (R347, R348): a write to a subindex; fewer bytes than the stated size begin a segmented transfer. A core's own write is one of path 3 to 7. -/
def execObjectWrite (path ix sub size : Nat) (bs : FrameData) (s : State) : Host.Outcome State Fault Refusal :=
  done (if !coreMay s true path ix sub (leNat (byteData bs)) then s else writeRequest { path := path, kind := 1, ix := ix, sub := sub, data := byteData bs } size s)

/-- SDO_UPLOAD (R347): a read of a subindex; `ecc` is what the stored words show (R192, Table 9.4). A core's own read is one of path 3 to 7. -/
def execSdoUpload (path ix sub ecc : Nat) (s : State) : Host.Outcome State Fault Refusal :=
  done (if !coreMay s false path ix sub 0 then s else anyRequest { path := path, kind := 0, ix := ix, sub := sub, ecc := ecc } s)

/-- SDO_COMPLETE_ACCESS_READ (R349), from subindex 00 or 01. -/
def execSdoCompleteAccessRead (path ix : Nat) (from1 : Bool) (ecc : Nat) (s : State) : Host.Outcome State Fault Refusal :=
  done (if path = 1 then s else anyRequest { path := path, kind := 2, ix := ix, sub := b2n from1, ecc := ecc } s)

/-- SDO_COMPLETE_ACCESS_WRITE (R349), from subindex 00 or 01. -/
def execSdoCompleteAccessWrite (path ix : Nat) (from1 : Bool) (size : Nat) (bs : FrameData) (s : State) : Host.Outcome State Fault Refusal :=
  done (if path = 1 then s else writeRequest { path := path, kind := 3, ix := ix, sub := b2n from1, data := byteData bs } size s)

/-- A segment on a path; one that ends a transfer of the secure range is a request of that range (R384). -/
def segmentRequest (path : Nat) (toggle last : Bool) (bs : List Byte) (s : State) : State :=
  let q : SdoReq := { path := path, kind := 4, ix := (s.path path).ix, sub := 2 * b2n toggle + b2n last, data := bs }
  if (s.path path).active && (s.path path).write && secureIndex q.ix then secureSegment q s else sdoRequest q s

/-- SDO_SEGMENT (R348, Table 9.4): a segment of the transfer in progress on the path, with its toggle bit and whether it is the last. -/
def execSdoSegment (path : Nat) (toggle last : Bool) (bs : FrameData) (s : State) : Host.Outcome State Fault Refusal :=
  done (segmentRequest path toggle last (byteData bs) s)

/-- SDO_SEGMENT_TIMEOUT (Table 9.4): no next segment within 1,000 ms. -/
def execSdoSegmentTimeout (path : Nat) (s : State) : Host.Outcome State Fault Refusal :=
  let p := s.path path
  if !p.active || p.busy || decide (s.time.clk < p.lastT + 1000000000) then done s
  else done (answered path (.refuse s abortTimeout))

/-- A request for a block transfer, or an unknown command: refused with 0x0504_0001, and in the secure range as every refusal there (R371, R384). -/
def blockRequest (path ix sub : Nat) (s : State) : State :=
  if secureIndex ix then secureRequest { path := path, kind := 5, ix := ix, sub := sub } s else sdoRequest { path := path, kind := 5, ix := 0x1018 } s

/-- SDO_BLOCK_REQUEST (R371). -/
def execSdoBlockRequest (path ix sub : Nat) (s : State) : Host.Outcome State Fault Refusal := done (blockRequest path ix sub s)

/-- The transfer in progress on a path ends without an answer. -/
def abortRequest (path : Nat) (s : State) : State :=
  let p := s.path path
  if p.active ∧ !p.busy then s.setPath path { p with active := false, buf := [], answered := false } else s

/-- SDO_ABORT_REQUEST (R371). -/
def execSdoAbortRequest (path : Nat) (s : State) : Host.Outcome State Fault Refusal := done (abortRequest path s)

/-- SDO_INFO_OBJECT_LIST (R371, R386): the list of a type, 0 to 5. -/
def execSdoInfoObjectList (typ : Nat) (s : State) : Host.Outcome State Fault Refusal :=
  done (sdoRequest { path := 0, kind := 6, ix := 0x1018, sub := typ } s)

/-- SDO_INFO_OBJECT_DESC (R371, R386). -/
def execSdoInfoObjectDesc (ix : Nat) (s : State) : Host.Outcome State Fault Refusal := done (anyRequest { path := 0, kind := 7, ix := ix } s)

/-- SDO_INFO_ENTRY_DESC (R371, R386). -/
def execSdoInfoEntryDesc (ix sub : Nat) (s : State) : Host.Outcome State Fault Refusal :=
  done (anyRequest { path := 0, kind := 8, ix := ix, sub := sub } s)

/-- MAILBOX_REPEAT_REQUEST (R371): the SM1 buffer holds the last message again. -/
def execMailboxRepeatRequest (s : State) : Host.Outcome State Fault Refusal :=
  done (if coeActive s ∧ !mpDown s ∧ s.ecat.lastMail ≠ .none then { s with ecat := { s.ecat with mailbox := true } } else s)

/-- EMCY_MAILBOX_READ (R374): the MainDevice reads the SM1 buffer, and the next queued message is written. -/
def execEmcyMailboxRead (s : State) : Host.Outcome State Fault Refusal := done (mailPump { s with ecat := { s.ecat with mailbox := false } })

end Sys2Proof.Machine
end

