-- ==== Sys2Proof/Machine/HostFrames.lean ====
section
/-! DEFINITION. Host frames on the config slave port (R260 to R266, R426, R428, R430). A frame error leaves the last accepted SEQ as it was. -/

namespace Sys2Proof.Machine
open Sys2Proof

/-- The header, payload and CRC of a frame (R262). -/
structure HostFrame where
  sync : Nat := 0
  kind : Nat := 0
  mask : Nat := 0
  len : Nat := 0
  seq : Nat := 0
  body : List Byte := []
  crc : Nat := 0
  deriving DecidableEq, Repr

/-- A frame's fields, as far as its bytes go. -/
def hostParse (bs : List Byte) : HostFrame :=
  let n := le bs 4 2
  { sync := le bs 0 2, kind := le bs 2 1, mask := le bs 3 1, len := n, seq := le bs 6 2, body := slice bs 8 n, crc := le bs (8 + n) 4 }

/-- SYNC, length and CRC are right (R262, R263). Beyond the frame there may be up to 7 bytes of padding, as a RELAY frame gives it. -/
def hostIntact (bs : List Byte) : Bool :=
  let f := hostParse bs
  f.sync == 0xD4A5 && f.len % 4 == 0 && decide (f.len ≤ 4096) && decide (12 + f.len ≤ bs.length) && decide (bs.length < 20 + f.len) &&
    crc32c (bs.take (8 + f.len)) == f.crc

/-- A response frame: its SEQ is that of the READ frame, its DEVMASK names the unit. -/
def hostResponse (kind seq : Nat) (body : List Byte) (s : State) : List Byte :=
  let h := leBytes 0xD4A5 2 ++ leBytes kind 1 ++ leBytes (2 ^ s.obj 0x3601 6) 1 ++ leBytes body.length 2 ++ leBytes seq 2 ++ body
  h ++ leBytes (crc32c h) 4

/-- The state with a response frame sent. -/
def hostSend (f : HostFrame) (kind : Nat) (body : List Byte) (s : State) : State :=
  { s with cfg := { s.cfg with out := hostResponse kind f.seq (body.take (4 * le f.body 2 2)) s } }

/-- The STATUS payload (Table 7.6). -/
def statusBody (s : State) : List Byte :=
  leBytes (s.cfg.lastSeq.getD 0) 2 ++ leBytes (min 65535 (s.obj 0x3601 9)) 2 ++ leBytes (s.obj 0x3601 1) 1 ++ leBytes (s.obj 0x3601 2) 1 ++ leBytes (s.obj 0x2001 0) 1 ++
    leBytes (b2n s.cfg.sdoReady) 1 ++ leBytes (s.obj 0x3601 4) 4 ++ [0, 1, 2, 3].flatMap (fun q => leBytes (2048 - bqUsed (s.bq q)) 2) ++
    [4, 5, 6, 7].flatMap (fun q => leBytes (s.bq q).length 2)

/-- Zeros to a multiple of 4. -/
def padWord (bs : List Byte) : List Byte := bs ++ List.replicate ((4 - bs.length % 4) % 4) 0#8

/-- IMAGE_BEGIN (R268): `none` is a frame error. -/
def hostBegin (f : HostFrame) (s : State) : Option State :=
  if f.len = 8 ∧ le f.body 0 1 ≤ 3 ∧ le f.body 2 2 = 0 ∧ mayBegin s (le f.body 0 1) (le f.body 1 1) 0 then
    some (beginLoad (le f.body 0 1) (le f.body 1 1) 0 (le f.body 4 4) s)
  else none

/-- A transfer that the port carries is under way and not all its bytes have come. -/
def hostReceiving (s : State) : Bool := s.load.active && s.load.source == 0 && !s.load.whole

/-- IMAGE_DATA: the next bytes; words beyond the announced length are padding. -/
def hostData (f : HostFrame) (s : State) : Option State :=
  if hostReceiving s ∧ 4 ≤ f.len ∧ le f.body 0 4 = s.load.buf.length then
    some (loadBytes ((f.body.drop 4).take (s.load.total - s.load.buf.length)) s)
  else none

/-- An SDO frame (R266): a request of path 2; an unknown command is answered 0x0504_0001. -/
def hostSdo (f : HostFrame) (s : State) : Option State :=
  let cmd := le f.body 0 1
  let n := le f.body 4 4
  let data := f.body.drop 8
  let q : SdoReq := { path := 2, kind := cmd, sub := le f.body 1 1, ix := le f.body 2 2 }
  if f.len < 8 ∨ !pathFree s 2 then none
  else if 3 < cmd then some (blockRequest 2 q.ix q.sub s)
  else if cmd = 0 ∨ cmd = 2 then some (anyRequest { q with stated := if n = 0 then none else some n } s)
  else if (n + 3) / 4 * 4 = data.length then some (anyRequest { q with data := data.take n } s)
  else if secureIndex q.ix then some (secureRequest { q with kind := 5 } s)
  else some (answered 2 (lengthRefused q (if 4096 < n then abortMemory else abortLength) (mailArrives s)))

/-- BQ_WRITE (R428). -/
def hostBqWrite (f : HostFrame) (s : State) : Option State :=
  if f.len < 8 ∨ 4 ≤ le f.body 0 4 then none else some (bqWrite (f.kind % 4) (le f.body 0 4) (leWords (f.body.drop 4)) s)

/-- READ (R264, R265): status, the SDO response, or a packet of BQ4 to BQ7. -/
def hostRead (f : HostFrame) (s : State) : Option State :=
  let what := le f.body 0 1
  let s0 : State := { s with cfg := { s.cfg with lastSeq := some f.seq } }
  if f.len ≠ 4 ∨ le f.body 1 1 ≠ 0 then none
  else if what = 0 then some (hostSend f 0x80 (statusBody s0) s)
  else if what = 1 then
    (if s.cfg.sdoReady then
      (let a := (s.path 2).answer
       let s1 := hostSend f 0x90 (leBytes a.abort 4 ++ leBytes a.data.length 4 ++ padWord a.data) s
       some { s1 with cfg := { s1.cfg with sdoReady := false } })
    else some { s with cfg := { s.cfg with out := [] } })
  else if 4 ≤ what ∧ what ≤ 7 then
    match bqTake (s.bq what) with
    | none => some (hostSend f (0xA0 + what) [] s)
    | some (p, rest) => some (s.setBq what rest |> hostSend f (0xA0 + what) (leBytes p.prio 4 ++ p.words.flatMap (fun w => leBytes w.toNat 4)))
  else none

/-- What an addressed device does on a frame; `none` is a frame error. -/
def hostAct (f : HostFrame) (s : State) : Option State :=
  if f.kind = 1 then hostBegin f s
  else if f.kind = 2 then hostData f s
  else if f.kind = 3 then (if hostReceiving s ∧ f.len = 0 then some (loadWhole s) else none)
  else if f.kind = 4 then (if f.len = 0 then some (if s.load.active ∧ s.load.source = 0 then abortLoad s else s) else none)
  else if f.kind = 0x10 then hostSdo f s
  else if 0x20 ≤ f.kind ∧ f.kind ≤ 0x23 then hostBqWrite f s
  else if f.kind = 0x30 then hostRead f s
  else none

/-- A READ addresses exactly one device (R264). -/
def hostMaskOk (f : HostFrame) : Bool := f.kind != 0x30 || popCount f.mask 8 == 1

/-- The RELAY frames of a host frame: up to 256 bytes each. -/
def relayFrames : Nat → List Byte → List LinkFrame
  | 0, _ => []
  | n + 1, bs => if bs.length ≤ 256 then [{ kind := 2, bytes := bs, last := true }] else { kind := 2, bytes := bs.take 256 } :: relayFrames n (bs.drop 256)

/-- An accepted frame goes on over every UP link with RELAY TRUE (R426); READ frames do not. -/
def hostRelay (bs : List Byte) (f : HostFrame) (s : State) : State :=
  if f.kind = 0x30 then s
  else [0, 1].foldl (fun st l =>
    if st.obji l 0x4300 3 = 1 ∧ linkUp st l then (relayFrames bs.length bs).foldl (fun u x => linkSend l x u) st else st) s

/-- A frame error is counted (0x3601:09). -/
def hostError (s : State) : State := s.bump 0x3601 9

/-- A host frame (R262 to R264, R426). -/
def hostFrame (bs : List Byte) (s : State) : State :=
  let f := hostParse bs
  if !hostIntact bs then hostError s
  else if s.cfg.lastSeq = some f.seq then s
  else if (match s.cfg.lastSeq with | none => false | some q => f.seq != (q + 1) % 65536) || !hostMaskOk f then hostError s
  else
    match (if bit f.mask (s.obj 0x3601 6) then hostAct f s else some s) with
    | none => hostError s
    | some s1 => hostRelay (bs.take (12 + f.len)) f { s1 with cfg := { s1.cfg with lastSeq := some f.seq } }

/-- Blocks of RELAY frames that wait at link l. -/
def relayWaiting (s : State) (l : Nat) : Nat :=
  (((s.link l).queued.filter (fun f => f.kind == 2)).map (fun f => 2 + (f.bytes.length + 7) / 8)).foldl (· + ·) 0

/-- CFG_RDY is not held low: the port is served, and no relay queue of 64 blocks is full (R261, R426, Table 12.2). -/
def cfgReady (s : State) : Bool := cfgServed s && [0, 1].all (fun l => s.obji l 0x4300 3 != 1 || decide (relayWaiting s l < 64))

/-- A frame on the pins of the config slave port, whose width is fixed and not disabled (R260). While CFG_RDY is low the host sends no word (R261). -/
def hostPort (bs : List Byte) (s : State) : State :=
  match s.cfg.width with
  | none => s
  | some w => if w = 3 ∨ !cfgReady s then s else hostFrame bs s

/-- A row for the frames of one kind, selected by the header and the payload's first byte; other frames are other rows'. -/
def hostRow (sel : Nat → Nat → Bool) (bs : FrameData) (s : State) : Host.Outcome State Fault Refusal :=
  let b := byteData bs
  done (if sel (le b 2 1) (le b 8 1) then hostPort b s else s)

/-- CFG_WIDTH_SAMPLE (R260): CFG_D[3:2] at the first falling edge of CFG_CS_N after reset. -/
def execCfgWidthSample (mode : Nat) (s : State) : Host.Outcome State Fault Refusal :=
  if s.cfg.width.isSome then done s else done (({ s with cfg := { s.cfg with width := some (mode % 4) } } : State).setObj 0x3601 7 (mode % 4))

/-- IMAGE_BEGIN_DEVICE_LOAD (R262). -/
def execImageBeginDeviceLoad (bs : FrameData) (s : State) : Host.Outcome State Fault Refusal := hostRow (fun k b => k == 1 && b == 0) bs s

/-- IMAGE_BEGIN_REGION_RELOAD (R262). -/
def execImageBeginRegionReload (bs : FrameData) (s : State) : Host.Outcome State Fault Refusal := hostRow (fun k b => k == 1 && b == 1) bs s

/-- IMAGE_BEGIN_SHADOW_LOAD (R262). -/
def execImageBeginShadowLoad (bs : FrameData) (s : State) : Host.Outcome State Fault Refusal := hostRow (fun k b => k == 1 && b == 2) bs s

/-- IMAGE_BEGIN_RECIPE_STORE (R262, R270); a TARGET above 3 is a frame error. -/
def execImageBeginRecipeStore (bs : FrameData) (s : State) : Host.Outcome State Fault Refusal := hostRow (fun k b => k == 1 && decide (3 ≤ b)) bs s

/-- IMAGE_DATA (R262, R259). -/
def execImageData (bs : FrameData) (s : State) : Host.Outcome State Fault Refusal := hostRow (fun k _ => k == 2) bs s

/-- IMAGE_END (R262). -/
def execImageEnd (bs : FrameData) (s : State) : Host.Outcome State Fault Refusal := hostRow (fun k _ => k == 3) bs s

/-- IMAGE_ABORT (R262). -/
def execImageAbort (bs : FrameData) (s : State) : Host.Outcome State Fault Refusal := hostRow (fun k _ => k == 4) bs s

/-- SDO_FRAME_READ (R266); an unknown command comes with it. -/
def execSdoFrameRead (bs : FrameData) (s : State) : Host.Outcome State Fault Refusal := hostRow (fun k b => k == 0x10 && (b == 0 || decide (4 ≤ b))) bs s

/-- SDO_FRAME_WRITE (R266). -/
def execSdoFrameWrite (bs : FrameData) (s : State) : Host.Outcome State Fault Refusal := hostRow (fun k b => k == 0x10 && b == 1) bs s

/-- SDO_FRAME_CA_READ (R266, R349). -/
def execSdoFrameCaRead (bs : FrameData) (s : State) : Host.Outcome State Fault Refusal := hostRow (fun k b => k == 0x10 && b == 2) bs s

/-- SDO_FRAME_CA_WRITE (R266, R349). -/
def execSdoFrameCaWrite (bs : FrameData) (s : State) : Host.Outcome State Fault Refusal := hostRow (fun k b => k == 0x10 && b == 3) bs s

/-- BQ_WRITE (R428). -/
def execBqWrite (bs : FrameData) (s : State) : Host.Outcome State Fault Refusal := hostRow (fun k _ => decide (0x20 ≤ k) && decide (k ≤ 0x23)) bs s

/-- A KIND that a host does not send (Table 7.6). -/
def kindUnknown (k : Nat) : Bool := !([1, 2, 3, 4, 0x10, 0x20, 0x21, 0x22, 0x23, 0x30].contains k)

/-- READ_STATUS (R262); a READ of something that is not there is a frame error, and so is a frame of no KIND of Table 7.6 that addresses the unit. A frame whose
SYNC or CRC is wrong counts whatever its KIND (R263). -/
def execReadStatus (bs : FrameData) (s : State) : Host.Outcome State Fault Refusal :=
  hostRow (fun k b => (k == 0x30 && !([1, 4, 5, 6, 7].contains b)) || kindUnknown k) bs s

/-- READ_SDO_RESPONSE (R262, R266). -/
def execReadSdoResponse (bs : FrameData) (s : State) : Host.Outcome State Fault Refusal := hostRow (fun k b => k == 0x30 && b == 1) bs s

/-- READ_BQ (R430). -/
def execReadBq (bs : FrameData) (s : State) : Host.Outcome State Fault Refusal := hostRow (fun k b => k == 0x30 && decide (4 ≤ b) && decide (b ≤ 7)) bs s

end Sys2Proof.Machine
end

