-- ==== Sys2Proof/Machine/Served.lean ====
section
/-! DEFINITION. Rows that complete an action a request waits for (R237, R419, R461, R518): the request is answered, and the requests that waited behind
it are served in the order of arrival (R350). -/

namespace Sys2Proof.Machine
open Sys2Proof

/-- ROUTE_INVALIDATION_COMPLETE (R237). -/
def execRouteInvalidationComplete (s : State) : Host.Outcome State Fault Refusal := done (serveNext (invalidationDone s))

/-- I2C_XFER_WRITE (R419): 7-bit address, write count, read count and the bytes written, for the selected camera. -/
def execI2cXferWrite (path : Nat) (bytes : FrameData) (s : State) : Host.Outcome State Fault Refusal :=
  done (sdoAct { path := path, kind := 1, ix := 0x4200, sub := 0x0C, data := bytes.map (BitVec.ofNat 8) } (startI2c path bytes) s)

/-- I2C_TRANSFER_END (R419). -/
def execI2cTransferEnd (cam code : Nat) (bytes : FrameData) (s : State) : Host.Outcome State Fault Refusal :=
  done (serveNext (i2cDone (cam % 2) code bytes s))

/-- NVME_COMMAND_COMPLETE (R460, R201). -/
def execNvmeCommandComplete (drive n : Nat) (failed : Bool) (s : State) : Host.Outcome State Fault Refusal :=
  done (serveNext (nvmeComplete drive n failed s))

/-- NVME_COMMAND_TIMEOUT (R452, R201). -/
def execNvmeCommandTimeout (drive n : Nat) (s : State) : Host.Outcome State Fault Refusal := done (serveNext (nvmeTimeout drive n s))

/-- PCIE_LINK_DOWN (R201). -/
def execPcieLinkDown (drive : Nat) (s : State) : Host.Outcome State Fault Refusal := done (serveNext (pcieDown (drive % 2) s))

/-- How long a domain takes to its new state (Table 13.6). -/
def switchNs (d : Nat) (on : Bool) : Nat := if on then domainOnNs d else domainOffNs d

/-- DOMAIN_SWITCH_DONE (R516, R518): the domain has reached its new state no earlier than its time and no later than twice its on time. -/
def execDomainSwitchDone (s : State) : Host.Outcome State Fault Refusal :=
  match s.power.switch with
  | none => done s
  | some (d, on, path, begun) =>
    if s.time.clk < begun + switchNs d on ∨ (on ∧ begun + 2 * domainOnNs d < s.time.clk) then done s
    else done (serveNext (answered path (.ok (domainReach d on { s with power := { s.power with switch := none } }))))

/-- DOMAIN_SWITCH_TIMEOUT (R518): a domain that is not ON within twice its on time is left OFF. -/
def execDomainSwitchTimeout (s : State) : Host.Outcome State Fault Refusal :=
  match s.power.switch with
  | none => done s
  | some (d, on, path, begun) =>
    if !on || decide (s.time.clk < begun + 2 * domainOnNs d) then done s
    else done (serveNext (answered path (.refuse (raise 69 { s with power := { s.power with switch := none } }) abortState)))

end Sys2Proof.Machine
end

