-- ==== Sys2Proof/Machine/StartOps.lean ====
section
/-! DEFINITION. What a start shares with other rows: the start record (R468, R471), the personality load at S11 with the saved values (R355, R519), the
firmware that the MP runs (R329, R475, R493), and the ends of image checks and flash programs (R259, R270, R487, R517). -/

namespace Sys2Proof.Machine
open Sys2Proof

/-! ## The start record -/

/-- The entry of step k (0–12, 13 for S9C). -/
def stepEntry (s : State) (k : Nat) : StepEntry := mget {} s.start.record k

/-- The entry of step k replaced. -/
def setEntry (k : Nat) (e : StepEntry) (s : State) : State := { s with start := { s.start with record := mset {} s.start.record k e } }

/-- FALLBACKS and SKIPPED (0x2000:05, :06) follow the record, and with them alarms START_FALLBACK and START_STEP_SKIPPED (R472, Table 12.13). -/
def recordShow (s : State) : State :=
  let bits := fun (v : Nat) => ((List.range 14).map (fun k => if (stepEntry s k).variant = v then 2 ^ k else 0)).foldl (· + ·) 0
  setCond 81 (bits 2 != 0) (setCond 80 (bits 1 != 0) ((s.setObj 0x2000 5 (bits 1)).setObj 0x2000 6 (bits 2)))

/-- Step k passes in `ms` milliseconds: FAILS is 0 (R471). -/
def stepPass (k ms : Nat) (s : State) : State :=
  let e := stepEntry s k
  setEntry k { e with attempts := min 255 (e.attempts + 1), fails := 0, result := 1, ms := min 65535 ms, code := 0 } s

/-- Step k fails with a code. -/
def stepFail (k code ms fails variant : Nat) (s : State) : State :=
  let e := stepEntry s k
  setEntry k { attempts := min 255 (e.attempts + 1), fails := fails, result := 2, variant := variant, ms := min 65535 ms, code := code } s

/-! ## S11 -/

/-- One saved value applied (R355): a value that its subindex would refuse is not applied, and is counted in 0x2011:06. -/
def applyValue (values : SMap Nat) (s : State) (e : Nat × Nat × Nat) : State :=
  let v := mget 0 values (odKey e.1 e.2.1)
  if v = s.obj e.1 e.2.1 then s
  else match rowOf e.1 e.2.1 with
    | none => s
    | some r => match writeSub 2 e.1 e.2.1 r (leBytes v e.2.2) s with
      | .now a => if a.abort = 0 then a.state else s.addObjW 16 0x2011 6 1
      | .later _ => s

/-- The valid copy with the higher sequence number applied (R355). -/
def applySaved (s : State) : State :=
  match newerCopy (·.seq) (savedValid s.flash.saved) with
  | none => raise 24 s
  | some (k, c) => (savedSet.foldl (applyValue c.values) s).setObj 0x2011 7 (k + 1)

/-- The condition under which S11 switches a domain off (R519). -/
def startMayStop (img : List Byte) (s : State) (d : Nat) : Bool :=
  if d ≤ 8 then (halfMotifs d).all (fun m => !(headerOf img).has m) else domainMayStop s d

/-- The domains of START_OFF (0x2200:18) are switched off at the end of S11 (R519). -/
def startOff (img : List Byte) (s : State) : State :=
  (List.range 17).foldl (fun st d => if bit (st.obj 0x2200 0x18) d && startMayStop img st d && domainOn st d then domainReach d false st else st) s

/-- Alarm BRIDE_LINK_DOWN's condition: a link with ENABLE TRUE is not UP. -/
def linkAlarm (s : State) : State := setCond 31 ([0, 1].any (fun k => s.obji k 0x4300 2 == 1 && s.obji k 0x4300 4 != 2)) s

/-- The links that the image enables begin their training (R424). -/
def linksTrain (s : State) : State := linkAlarm ([0, 1].foldl (fun st l => if st.obji l 0x4300 2 = 1 ∧ st.obji l 0x4300 4 = 0 then linkTrain l st else st) s)

/-- The image is written: saved values, START_OFF, and DONE is released (R272, R355, R519). -/
def s11Done (img : List Byte) (s : State) : State :=
  let s1 := startOff img (applySaved (linksTrain s))
  recordChanged (stepPass 11 ((s1.time.clk - s1.start.stepAt) / 1000000) { s1 with start := { s1.start with waitLoad := false, done := true, step := 12, stepAt := s1.time.clk } })

/-! ## Image checks (R259, R270, R276, R285, R517) -/

/-- A recipe write's jobs are under way. -/
def recipeWriting (s : State) : Bool := s.flash.jobs.any (fun j => match j.effect with | .recipe _ _ => true | _ => false)

/-- A load is refused; a shadow-plane load takes the changeover to REFUSED with reason LOAD_FAILED (R285). -/
def loadRefused (f : Refuse) (s : State) : State :=
  let k := s.load.kind
  let s1 := endLoad (some f) s
  if k = 2 then coState 7 (s1.setObj 0x3600 0x0A 5) else s1

/-- The hoop halves that an image needs and that are OFF. -/
def halvesNeeded (img : List Byte) (s : State) : List Nat :=
  (List.range 9).filter (fun d => d != 0 && !domainOn s d && (halfMotifs d).any (fun m => (headerOf img).has m))

/-- The image is written into the stores. -/
def loadAccepted (img : List Byte) (s : State) : State :=
  let l := s.load
  if l.kind = 0 then s11Done img (endLoad none (writeDevice img s))
  else if l.kind = 1 then regionOffline img (s.setLoad { l with active := false, whole := false, buf := [] })
  else coState 2 (endLoad none (writeShadow img s))

/-- LOAD_CHECK_COMPLETE (R259, R270, R517): bit d of `failed` says that the OFF hoop half PDd does not reach ON. -/
def execLoadCheckComplete (failed : Nat) (s : State) : Host.Outcome State Fault Refusal :=
  let l := s.load
  if !l.active || !l.whole || recipeWriting s || mpDown s then done s
  else if l.kind = 3 then
    match checkStored s l.buf with
    | some f => done (endLoad (some f) s)
    | none => done (storeRecipe l.slot l.buf s)
  else
    match checkAll s l.kind l.buf with
    | some f => done (loadRefused f s)
    | none =>
      match (halvesNeeded l.buf s).find? (fun d => bit failed d) with
      | some d =>
        let m := ((halfMotifs d).find? (fun m => (headerOf l.buf).has m)).getD 0xFF
        done (loadRefused { code := 0x14, detail := 65536 * m } (raise 69 s))
      | none => done (loadAccepted l.buf ((halvesNeeded l.buf s).foldl (fun st d => domainReach d true st) s))

/-- FLASH_PROGRAM_COMPLETE (R270, R487): the running page program is done; what it was the last page of is valid, and the next job begins. -/
def execFlashProgramComplete (s : State) : Host.Outcome State Fault Refusal :=
  match s.flash.running, s.flash.jobs with
  | true, j :: _ =>
    if j.erase then done s
    else
      let s1 := flashNext (flashEffect j.effect s)
      let s2 := if j.purpose = 1 then
          s1.setUpdate { s1.update with
            progAt := s1.time.clk, buffered := match j.effect with | .fwBlock _ _ => s1.update.buffered - 1 | _ => s1.update.buffered }
        else s1
      done (match j.effect with | .recipe _ _ => if s2.load.active ∧ s2.load.kind = 3 then endLoad none s2 else s2 | _ => s2)
  | _, _ => done s

/-! ## The firmware (R329, R330, R475, R493) -/

/-- The firmware slot holds a verified image. -/
def slotValid (s : State) : Bool := s.flash.fwMark

/-- The firmware is copied from the slot into MP memory and starts at its entry. -/
def runFirmware (s : State) : State :=
  let img := (List.range (fwBlocksOf s.flash.fwHead)).flatMap (fun n => mget [] s.flash.fwBlocks n)
  let s1 := s.setCore 68 { s.core 68 with dmem := memWrite [] 0 img }
  let s2 := (s1.setObj 0x5800 8 (fwVersion s.flash.fwHead)).setObj 0x2000 0x0D 0
  startMp (le s.flash.fwHead 24 4) s2

/-- An image with verdict VERIFIED has not run yet: any restart runs it (R493). -/
def imageNew (s : State) : Bool := fwState s == 3 || fwState s == 5 || fwState s == 6

/-- The new image runs: UPDATE_ACTIVATED and its record; a restart that was not a scheduled activation is the activation's instant (R492, R493, R504). -/
def activated (s : State) : State :=
  let s1 := if fwState s = 6 then s else s.setObj 0x5800 0x0B s.t
  fwRecord 5 (fwVersion s.flash.fwHead) (raise 87 ((fwEnter 0 s1).setObj 0x5800 6 0))

/-- MP_RESTART_DONE (R329, R475, R493): the firmware of a valid slot runs, otherwise the loader serves in loader mode; waiting requests are answered. -/
def execMpRestartDone (s : State) : Host.Outcome State Fault Refusal :=
  if s.obj 0x3030 1 = 0 then done s
  else
    let s1 := s.setObj 0x3030 1 0
    let s2 := if slotValid s1 then (let s2 := runFirmware s1; if imageNew s1 then activated s2 else s2)
      else (let s2 := s1.setObj 0x2000 0x0D 1; if fwState s2 = 1 then fwEnter 0 (fwDrop s2) else fwSlotAlarm s2)
    done (serveNext (mailPump s2))

end Sys2Proof.Machine
end

