-- ==== Sys2Proof/Machine/CanOpen.lean ====
section
/-! DEFINITION. CANopen and the CAN FD controller (R376 to R379), the MP's load (R381) and the operating time (R440). -/

namespace Sys2Proof.Machine
open Sys2Proof

/-! ## Service frames (R376, R378) -/

/-- The settings of 0x4600:01 to :04 take effect, and the node boots into PRE-OPERATIONAL; with NODE_ID 0 CANopen is off (R376, R377). -/
def canApply (s : State) : State :=
  let n := s.obj 0x4600 1
  let s1 : State := { s with can := { s.can with node := n, nominal := s.obj 0x4600 2, dataRate := s.obj 0x4600 3, fd := s.obj 0x4600 4 == 1 } }
  if n = 0 then s1.setObj 0x4600 6 0
  else
    let s2 := s1.setObj 0x4600 6 127
    if busOff s2 then s2 else serviceSend (0x700 + n) [0#8] s2

/-! ## NMT (R377) -/

/-- An NMT command reaches the bus: it is received, and `f` follows where it names this node or, with 0, all nodes. -/
def nmtCommand (target : Nat) (f : State → State) (s : State) : State :=
  if s.can.node = 0 ∨ busOff s then s
  else
    let s1 := s.bump 0x4600 8
    if target = 0 ∨ target = s.can.node then f s1 else s1

/-- NMT_START_REMOTE_NODE (R377). -/
def execNmtStartRemoteNode (target : Nat) (s : State) : Host.Outcome State Fault Refusal := done (nmtCommand target (fun st => st.setObj 0x4600 6 5) s)

/-- NMT_STOP_REMOTE_NODE (R377). -/
def execNmtStopRemoteNode (target : Nat) (s : State) : Host.Outcome State Fault Refusal := done (nmtCommand target (fun st => st.setObj 0x4600 6 4) s)

/-- NMT_ENTER_PRE_OPERATIONAL (R377). -/
def execNmtEnterPreOperational (target : Nat) (s : State) : Host.Outcome State Fault Refusal :=
  done (nmtCommand target (fun st => st.setObj 0x4600 6 127) s)

/-- NMT_RESET_NODE (R377): as reset communication; it restarts nothing else. -/
def execNmtResetNode (target : Nat) (s : State) : Host.Outcome State Fault Refusal := done (nmtCommand target canApply s)

/-- NMT_RESET_COMMUNICATION (R377). -/
def execNmtResetCommunication (target : Nat) (s : State) : Host.Outcome State Fault Refusal := done (nmtCommand target canApply s)

/-- HEARTBEAT_TIMER (Table 9.11): every HEARTBEAT_MS the NMT state is sent. -/
def execHeartbeatTimer (s : State) : Host.Outcome State Fault Refusal :=
  let ms := s.obj 0x4600 5
  if s.can.node = 0 ∨ ms = 0 ∨ s.time.clk < s.can.hbNext then done s
  else
    let s1 : State := { s with can := { s.can with hbNext := s.time.clk + 1000000 * ms } }
    done (if busOff s1 then s1 else serviceSend (0x700 + s1.can.node) [BitVec.ofNat 8 (s1.obj 0x4600 6)] s1)

/-- CAN_EMCY_FRAME_SENT (R374): the oldest message leaves its queue when its frame has been sent, at most one frame per ms; an MP that restarts
sends none (R383). -/
def execCanEmcyFrameSent (s : State) : Host.Outcome State Fault Refusal :=
  match s.canEmcy with
  | [] => done s
  | e :: rest =>
    if !canActive s || busOff s || mpDown s || decide (s.time.clk < s.can.emcyNext) then done s
    else done (serviceSend (0x080 + s.can.node) e.bytes { s with canEmcy := rest, can := { s.can with emcyNext := s.time.clk + 1000000 } })

/-! ## Received frames and bus-off (R378, R379) -/

/-- The identifier is one of Table 9.11 while CANopen is on. -/
def canReserved (s : State) (w0 : Nat) : Bool :=
  let id := w0 % 2 ^ 29
  let n := s.can.node
  n != 0 && !bit w0 29 && [0x000, 0x080 + n, 0x600 + n, 0x580 + n, 0x700 + n].contains id

/-- The value that subindex `sub` of the filters had for a frame whose start of frame came at elapsed time `sof`: a write applies to frames that start after
it (Table 9.22). -/
def filterAt (s : State) (sof sub : Nat) : Nat :=
  match (s.can.replaced.filter (fun e => e.2.1 == sub && decide (sof < e.1))).getLast? with
  | some e => e.2.2
  | none => s.obj 0x4600 sub

/-- The stream of the first VALID filter that the frame's identifier and format match. -/
def canFilter (s : State) (sof w0 : Nat) : Option Nat :=
  ((List.range 16).map (fun k => filterAt s sof (0x10 + k))).findSome? (fun f =>
    if bit f 30 && f % 2 ^ 30 == w0 % 2 ^ 30 then some (f / 2 ^ 32 % 1024) else none)

/-- The free tokens of a frame: up to 52 data bytes in the first (R379). -/
def canTokens (stamp : Stamp) (w0 : Nat) (bs : List Byte) : List Token :=
  let head : List Word := [BitVec.ofNat 32 w0, BitVec.ofNat 32 bs.length]
  if bs.length ≤ 52 then [{ stamp := stamp, words := head ++ leWords (padWord bs) }]
  else [{ stamp := stamp, words := head ++ leWords (bs.take 52), fend := false }, { stamp := stamp, words := leWords (padWord (bs.drop 52)) }]

/-- An SDO frame to this node (R376, R371): a request of path 1, whose answer goes out in a frame. A path that is busy takes none. -/
def canSdo (d : List Byte) (s : State) : State :=
  let b := le d 0 1
  let ix := le d 1 2
  let sub := le d 3 1
  let p := s.path 1
  let ask := fun (op i j : Nat) => ({ s with can := { s.can with asked := some { op := op, ix := i, sub := j, toggle := bit b 4 } } } : State)
  if !pathServes s 1 || !pathFree s 1 then s
  else if b / 32 = 0 then segmentRequest 1 (bit b 4) (bit b 0) ((d.drop 1).take (7 - b / 2 % 8)) (ask 2 p.ix p.sub)
  else if b / 32 = 1 then
    (if bit b 1 then (let n := if bit b 0 then 4 - b / 4 % 4 else 4
                      writeRequest { path := 1, kind := 1, ix := ix, sub := sub, data := (d.drop 4).take n } n (ask 1 ix sub))
     else writeRequest { path := 1, kind := 1, ix := ix, sub := sub } (if bit b 0 then le d 4 4 else 0) (ask 1 ix sub))
  else if b / 32 = 2 then anyRequest { path := 1, kind := 0, ix := ix, sub := sub } (ask 0 ix sub)
  else if b / 32 = 3 then segmentRequest 1 (bit b 4) false [] (ask 3 p.ix p.sub)
  else if b / 32 = 4 then abortRequest 1 s
  else blockRequest 1 ix sub (ask 0 ix sub)

/-- CAN_FRAME_RECEIVED (R379): `w0` is word 0 of the CANFD entry of Table 4.6; the start-of-frame bit came `ago` nanoseconds before the frame's end,
and the controller's error counters then stand at error passive or not (Table 9.22). A frame with identifier 0x600 + NODE_ID is an SDO request (R376). -/
def execCanFrameReceived (w0 ago : Nat) (passive : Bool) (bs : FrameData) (s : State) : Host.Outcome State Fault Refusal :=
  let d := bs.map (BitVec.ofNat 8)
  if busOff s ∨ 64 < d.length then done s
  else
    let s1 := (s.setObj 0x4600 7 (b2n passive)).bump 0x4600 8
    if s1.can.node ≠ 0 ∧ w0 % 2 ^ 30 = 0x600 + s1.can.node ∧ d.length = 8 then done (canSdo d s1)
    else if !(s1.can.node == 0 || s1.obj 0x4600 6 == 5) || canReserved s1 w0 || !s1.fabric then done s1
    else match canFilter s1 (s1.time.clk - ago) w0 with
      | none => done s1
      | some st => done ((canTokens (s.stampAgo ago) w0 d).foldl (fun u t => enterFree 70 st t u) s1)

/-- CAN_BUS_OFF (R378). -/
def execCanBusOff (s : State) : Host.Outcome State Fault Refusal :=
  if busOff s then done s else done (raise 27 ((s.setObj 0x4600 7 2).bump 0x4600 0x0A))

/-- CAN_BUS_OFF_RECOVERY (R378). -/
def execCanBusOffRecovery (s : State) : Host.Outcome State Fault Refusal := if busOff s then done (s.setObj 0x4600 7 0) else done s

/-! ## The MP's load and the operating time -/

/-- SHED after a window at `load` percent: level 6 (bit 0) sheds first, level 5 (bit 1) in the second consecutive window, and ten windows below 70 %
restore one level, level 5 first (R381). -/
def shedAfter (load shed : Nat) (high : Bool) (low : Nat) : Nat :=
  if 90 ≤ load then (if high then 3 else shed ||| 1)
  else if load < 70 ∧ low + 1 = 10 then (if bit shed 1 then shed % 2 else 0)
  else shed

/-- MP_LOAD_WINDOW (R381): a window of 100 ms ends. -/
def execMpLoadWindow (load : Nat) (s : State) : Host.Outcome State Fault Refusal :=
  if s.time.clk < s.upkeep.windowAt + 100000000 ∨ 100 < load then done s
  else
    let u := s.upkeep
    let old := s.obj 0x2010 3
    let new := shedAfter load old u.high u.low
    let s1 : State := { s with upkeep := { u with
      windowAt := s.time.clk, high := decide (90 ≤ load), low := if load < 70 then (if u.low + 1 = 10 then 0 else u.low + 1) else 0 } }
    let s2 := ((s1.setObj 0x2010 1 load).peak 0x2010 2 load).setObj 0x2010 3 new
    let s3 := if old < new then s2.bump 0x2010 4 else s2
    done (if old = 0 ∧ new ≠ 0 then raise 25 s3 else s3)

/-- OPERATING_TIME_SECOND (R440): each second the counter advances, and once per hour it is written to boot flash. -/
def execOperatingTimeSecond (s : State) : Host.Outcome State Fault Refusal :=
  if s.time.clk < s.upkeep.secondAt + 1000000000 then done s
  else
    let n := min (2 ^ 32 - 1) (s.obj 0x5000 0x0A + 1)
    let s1 := ({ s with upkeep := { s.upkeep with secondAt := s.upkeep.secondAt + 1000000000 } } : State).setObj 0x5000 0x0A n
    done (if n % 3600 = 0 then persistTouch s1 else s1)

end Sys2Proof.Machine
end

