-- ==== Sys2Proof/Machine/Cell.lean ====
section
/-! DEFINITION. The cell operations (R64 to R72, Table 2.6): one meaning per operation, each a beat of the oldest instance in progress at a
position whose context holds that operation. A beat with no such instance changes nothing. -/

namespace Sys2Proof.Machine
open Sys2Proof

/-! ## The beat -/

/-- The end of an instance (R58, R59): its result token on DST0, then on DST1, unless it was stopped or produced nothing. -/
def sendResults (m pos : Nat) (r : Run) (s : State) : State :=
  let x := s.motif m
  let ctx := (x.slot pos r.inst.slot).ctx
  if r.stopped ∨ r.out.isEmpty then s
  else
    let t := resultToken x pos r r.out
    s.setMotif m (sendRoute s.time.clk ctx r.inst.slot pos (ctxDst1 ctx) t (sendRoute s.time.clk ctx r.inst.slot pos (ctxDst0 ctx) t x))

/-- The end of a STEER instance (R72): the whole token on the side C of the first beat chose. -/
def sendSteer (m pos : Nat) (r : Run) (s : State) : State :=
  let x := s.motif m
  let ctx := (x.slot pos r.inst.slot).ctx
  if r.stopped ∨ r.out.isEmpty then s
  else s.setMotif m (sendRoute s.time.clk ctx r.inst.slot pos (if r.toDst1 then ctxDst1 ctx else ctxDst0 ctx) (resultToken x pos r r.out) x)

/-- The run after a beat goes back into its place, or, after its last beat, ends with `fin` and leaves the cell. -/
def endBeat (op m pos : Nat) (fin : Nat → Nat → Run → State → State) (r : Run) (s : State) : State :=
  if r.beat < r.beats then s.setMotif m (replaceRun (s.motif m) pos op r)
  else retireRun m pos r (fin m pos r (s.setMotif m (removeRun (s.motif m) pos op)))

/-- A result word delivered by a beat (R58): written to the register destinations, kept as previous result and as the token's next word.
A stopped instance completes its beats on its own bank, and sends nothing at its end (R141). -/
def deliver (op m pos : Nat) (dsts : List Nat) (fin : Nat → Nat → Run → State → State) (r : Run) (w : Word) (s : State) : State :=
  let b := dsts.foldl (fun b d => writeDest b d w) (runBank (s.motif m) pos r)
  let (x, r1) := setRunBank (s.motif m) pos r b
  endBeat op m pos fin { r1 with beat := r.beat + 1, prev := w, out := r.out ++ [w] } (s.setMotif m x)

/-- The destinations of an instance's context. -/
def runDsts (s : State) (m pos : Nat) (r : Run) : List Nat :=
  let ctx := ((s.motif m).slot pos r.inst.slot).ctx
  [ctxDst0 ctx, ctxDst1 ctx]

/-- A beat of an operation with one result word per beat. -/
def plainBeat (op : Nat) (f : BeatIn → FRes) (b : CellBeat) (s : State) : State :=
  match takeRun (s.motif b.m) b.pos op with
  | none => s
  | some (r, _) =>
    let res := f (beatIn s b.m b.pos r)
    let s1 := countEvents res s
    let s2 := if lanesDiffer b then noteMismatch b.m b.pos r false s1 else s1
    deliver op b.m b.pos (runDsts s b.m b.pos r) sendResults r (resultWord b res) s2

/-- The accumulators after one beat of the MAC2 family (R67); MAC2Z clears them before the first beat. -/
def macBank (signed sub clear : Bool) (i : BeatIn) (first : Bool) : Bank :=
  let a0 := if clear && first then 0#48 else i.acc.a0
  let a1 := if clear && first then 0#48 else i.acc.a1
  { i.acc with a0 := macStep false signed sub a0 i.a i.b, a1 := macStep true signed sub a1 i.a i.b }

/-- A beat of the MAC2 family (R67): the accumulators advance; after the last beat the single result word is delivered. A beat before the last
gives no result word, so source 15 goes on reading 0 (DESIGN CHOICE, log entry 115). -/
def macBeat (op : Nat) (signed sub clear : Bool) (b : CellBeat) (s : State) : State :=
  match takeRun (s.motif b.m) b.pos op with
  | none => s
  | some (r, _) =>
    let i := beatIn s b.m b.pos r
    let s1 := if lanesDiffer b then noteMismatch b.m b.pos r false s else s
    let bk := macBank signed sub clear i (r.beat == 0)
    let (x, r1) := setRunBank (s1.motif b.m) b.pos r bk
    let s2 := s1.setMotif b.m x
    if r.beat + 1 < r.beats then endBeat op b.m b.pos sendResults { r1 with beat := r.beat + 1 } s2
    else
      let res := macResult signed bk.a0 bk.a1 i.imm
      deliver op b.m b.pos (runDsts s b.m b.pos r) sendResults r1 (resultWord b res) (countEvents res s2)

/-- A beat whose memory request fails its comparison (R170): it is not issued. Under a TID the abort follows at the report; under TID 0
the instance ends at once, with the words it already has. -/
def failRequest (op : Nat) (b : CellBeat) (r : Run) (s : State) : State :=
  let s1 := noteMismatch b.m b.pos r true s
  if r.inst.tid = 0 then endBeat op b.m b.pos sendResults { r with beat := r.beats } s1
  else endBeat op b.m b.pos sendResults (Run.stop (s.motif b.m) b.pos { r with beat := r.beat + 1 }) s1

/-- A beat ended by a fault: under a TID the abort stops the instance; under TID 0 the instance ends with the words it already has (DESIGN CHOICE, log
145). -/
def faultBeat (op : Nat) (b : CellBeat) (r : Run) (c : Cause) (s : State) : State :=
  if r.inst.tid = 0 then endBeat op b.m b.pos sendResults { r with beat := r.beats } s
  else motifAbort b.m r.inst.tid r.inst.exec c b.badLog (endBeat op b.m b.pos sendResults (Run.stop (s.motif b.m) b.pos { r with beat := r.beat + 1 }) s)

/-- The request of a cell's LD or ST for its bank (class 4 of Table 3.7). -/
def cellRequest (s : State) (b : CellBeat) (ctx : BitVec 128) : BankAsk :=
  { cls := 4, prio := ctxPrio ctx, pos := b.pos, waited := askWaited (s.motif b.m) 4 b.pos }

/-- What the lanes of a beat of LD or ST show when the instance is stopped (R73, R141): its beats still complete, and a difference is still reported. -/
def stoppedLanes (b : CellBeat) (r : Run) (s : State) : State := if lanesDiffer b then noteMismatch b.m b.pos r (!b.inResult) s else s

/-- A beat of LD (R71, R110): the newest store-buffer entry of its TID, a committed entry, or the bank word under the bank's arbitration. Its lanes
may differ in the request, before it is issued, or only in the result word (R73). A word that reads with an uncorrectable error is a device fault, in a
store-buffer entry too (R194). -/
def loadBeat (b : CellBeat) (s : State) : State :=
  match takeRun (s.motif b.m) b.pos 0x70 with
  | none => s
  | some (r, _) =>
    let ctx := ((s.motif b.m).slot b.pos r.inst.slot).ctx
    let a := memAddr (beatIn s b.m b.pos r)
    let code := spFault s b.m (ctxBank ctx) (ctxSpan ctx) a
    let lin := spLinear (ctxBank ctx) (ctxSpan ctx) a
    let dsts := runDsts s b.m b.pos r
    let give := fun (w : Word) (st : State) =>
      deliver 0x70 b.m b.pos dsts sendResults r (b.mismatch.getD w) (if lanesDiffer b then noteMismatch b.m b.pos r false st else st)
    if r.stopped then endBeat 0x70 b.m b.pos sendResults { r with beat := r.beat + 1 } (stoppedLanes b r s)
    else if lanesDiffer b && !b.inResult then failRequest 0x70 b r s
    else if code ≠ 0 then faultBeat 0x70 b r (.program code) s
    else match sbEntryFor (s.motif b.m) r.inst.tid lin with
      | some e =>
        if b.ecc = 2 then faultBeat 0x70 b r .device (sbBad b.m e s)
        else give e.data (if b.ecc = 1 then sramCorrected b.m s else s)
      | none =>
        atBank b.m (spBank lin) (cellRequest s b ctx) (fun st =>
          match spRead b.m lin b.ecc st with
          | (some w, s1) => give w s1
          | (none, s1) => faultBeat 0x70 b r .device (raise 8 s1)) s

/-- A beat of ST (R71, R148, R149): into the store buffer under a TID, into the bank at once under TID 0. -/
def storeBeat (b : CellBeat) (s : State) : State :=
  match takeRun (s.motif b.m) b.pos 0x71 with
  | none => s
  | some (r, _) =>
    let ctx := ((s.motif b.m).slot b.pos r.inst.slot).ctx
    let i := beatIn s b.m b.pos r
    let code := spFault s b.m (ctxBank ctx) (ctxSpan ctx) (memAddr i)
    let lin := spLinear (ctxBank ctx) (ctxSpan ctx) (memAddr i)
    let next : Run := { r with beat := r.beat + 1 }
    if r.stopped then endBeat 0x71 b.m b.pos sendResults next (stoppedLanes b r s)
    else if lanesDiffer b then failRequest 0x71 b r s
    else if code ≠ 0 then faultBeat 0x71 b r (.program code) s
    else if r.inst.tid = 0 then
      atBank b.m (spBank lin) (cellRequest s b ctx) (fun st => endBeat 0x71 b.m b.pos sendResults next (spStore b.m lin i.b b.ecc st)) s
    else if 256 ≤ (s.motif b.m).sb.length then
      let x := s.motif b.m
      let p := x.part r.inst.tid
      faultBeat 0x71 b r (.program 0x20) (s.setMotif b.m { x.setPart r.inst.tid { p with overEx := r.inst.exec + 1 } with sbOver := true })
    else
      let x := s.motif b.m
      let e : SbEntry := { tid := r.inst.tid, addr := lin, data := i.b }
      endBeat 0x71 b.m b.pos sendResults next (s.setMotif b.m { x with sb := x.sb ++ [e] })

/-- The two 16-bit indices of an index word (R117). -/
def indexPair (w : Word) : List Nat := [w.toNat % 65536, w.toNat / 65536]

/-- The lead input of a context (R56): the first input named in FIRE. -/
def leadInput (ctx : BitVec 128) : Nat := (fireInputs ctx).headD 0

/-- The end of a GATHER instance: the operands of its first beat and its indices complete its place in the queue; a stopped one gives it up. -/
def sendGather (m pos : Nat) (q : Run) (s : State) : State :=
  let i := beatIn s m pos { q with beat := 0 }
  let x := s.motif m
  let fill := fun (g : Gather) => if q.stopped then none else
    some ({ g with ready := true, indices := q.out.flatMap indexPair, base := i.b.toNat, fill := i.c } : Gather)
  s.setMotif m { x with gathers := setPlace (gatherPlace pos q) fill x.gathers }

/-- A beat of GATHER (R117, R120): it passes an index word to the gather engine; the eighth completes the gather. A beat whose lanes differ passes nothing
(R170): under TID 0 the instance ends with it. -/
def gatherBeat (b : CellBeat) (s : State) : State :=
  match takeRun (s.motif b.m) b.pos 0x74 with
  | none => s
  | some (r, _) =>
    let ctx := ((s.motif b.m).slot b.pos r.inst.slot).ctx
    let w := inputWord r (leadInput ctx)
    let s1 := if lanesDiffer b then noteMismatch b.m b.pos r true s else s
    let r1 : Run := { r with beat := r.beat + 1, out := r.out ++ [w] }
    let r2 : Run := if lanesDiffer b then (if r.inst.tid = 0 then { r1 with beat := r.beats } else r1).stop (s.motif b.m) b.pos else r1
    endBeat 0x74 b.m b.pos sendGather r2 s1

/-- A beat of STEER (R72): A, to the destination that C of the first beat chose. -/
def steerBeat (b : CellBeat) (s : State) : State :=
  match takeRun (s.motif b.m) b.pos 0x80 with
  | none => s
  | some (r, _) =>
    let ctx := ((s.motif b.m).slot b.pos r.inst.slot).ctx
    let i := beatIn s b.m b.pos r
    let side := if r.beat = 0 then i.c == 0#32 else r.toDst1
    let s1 := if lanesDiffer b then noteMismatch b.m b.pos r false s else s
    deliver 0x80 b.m b.pos [if side then ctxDst1 ctx else ctxDst0 ctx] sendSteer { r with toDst1 := side } (resultWord b (plain i.a)) s1

/-- A beat of DROP (R72): its tokens are consumed and nothing is emitted. -/
def dropBeat (b : CellBeat) (s : State) : State :=
  match takeRun (s.motif b.m) b.pos 0x81 with
  | none => s
  | some (r, _) =>
    let s1 := if lanesDiffer b then noteMismatch b.m b.pos r false s else s
    endBeat 0x81 b.m b.pos sendResults { r with beat := r.beat + 1 } s1

/-- A beat of CANCEL (R79): a cancel word for TID A[11:0] on route DST0, with the instance stamp. -/
def cancelBeat (b : CellBeat) (s : State) : State :=
  match takeRun (s.motif b.m) b.pos 0x82 with
  | none => s
  | some (r, _) =>
    let x := s.motif b.m
    let ctx := (x.slot b.pos r.inst.slot).ctx
    let target := (resultWord b (plain (beatIn s b.m b.pos r).a)).toNat % 4096
    let t : Token := { resultToken x b.pos r [] with tid := target, cancel := true }
    let s1 := if r.stopped then s else s.setMotif b.m (sendRoute s.time.clk ctx r.inst.slot b.pos (ctxDst0 ctx) t x)
    let s2 := if lanesDiffer b then noteMismatch b.m b.pos r false s1 else s1
    endBeat 0x82 b.m b.pos sendResults { r with beat := r.beat + 1 } s2

/-- The slot's lookup table as a function of the byte (R69). -/
def lutAt (l : List (Nat × Byte)) (n : Nat) : Byte := mget 0#8 l n

/-! ## The operations of Table 2.6 -/

/-- The result of PASS. -/
def opPass (i : BeatIn) : FRes := plain i.a

/-- CELL_PASS (R64): A. -/
def execCellPass (b : CellBeat) (s : State) : Host.Outcome State Fault Refusal :=
  done (plainBeat 0x00 opPass b s)

/-- The result of ADD. -/
def opAdd (i : BeatIn) : FRes := plain (i.a + i.b)

/-- CELL_ADD (R65): A + B modulo 2³². -/
def execCellAdd (b : CellBeat) (s : State) : Host.Outcome State Fault Refusal :=
  done (plainBeat 0x01 opAdd b s)

/-- The result of SUB. -/
def opSub (i : BeatIn) : FRes := plain (i.a - i.b)

/-- CELL_SUB (R65): A − B modulo 2³². -/
def execCellSub (b : CellBeat) (s : State) : Host.Outcome State Fault Refusal :=
  done (plainBeat 0x02 opSub b s)

/-- The result of NEG. -/
def opNeg (i : BeatIn) : FRes := plain (0#32 - i.a)

/-- CELL_NEG (R65): 0 − A modulo 2³². -/
def execCellNeg (b : CellBeat) (s : State) : Host.Outcome State Fault Refusal :=
  done (plainBeat 0x03 opNeg b s)

/-- The result of ABS. -/
def opAbs (i : BeatIn) : FRes := aluAbs i.a

/-- CELL_ABS (R65): |A|, saturated. -/
def execCellAbs (b : CellBeat) (s : State) : Host.Outcome State Fault Refusal :=
  done (plainBeat 0x04 opAbs b s)

/-- The result of AND. -/
def opAnd (i : BeatIn) : FRes := plain (i.a &&& i.b)

/-- CELL_AND (R64): A & B. -/
def execCellAnd (b : CellBeat) (s : State) : Host.Outcome State Fault Refusal :=
  done (plainBeat 0x08 opAnd b s)

/-- The result of OR. -/
def opOr (i : BeatIn) : FRes := plain (i.a ||| i.b)

/-- CELL_OR (R64): A | B. -/
def execCellOr (b : CellBeat) (s : State) : Host.Outcome State Fault Refusal :=
  done (plainBeat 0x09 opOr b s)

/-- The result of XOR. -/
def opXor (i : BeatIn) : FRes := plain (i.a ^^^ i.b)

/-- CELL_XOR (R64): A ^ B. -/
def execCellXor (b : CellBeat) (s : State) : Host.Outcome State Fault Refusal :=
  done (plainBeat 0x0A opXor b s)

/-- The result of ANDN. -/
def opAndn (i : BeatIn) : FRes := plain (i.a &&& ~~~i.b)

/-- CELL_ANDN (R64): A & ~B. -/
def execCellAndn (b : CellBeat) (s : State) : Host.Outcome State Fault Refusal :=
  done (plainBeat 0x0B opAndn b s)

/-- The result of NOT. -/
def opNot (i : BeatIn) : FRes := plain (~~~i.a)

/-- CELL_NOT (R64): ~A. -/
def execCellNot (b : CellBeat) (s : State) : Host.Outcome State Fault Refusal :=
  done (plainBeat 0x0C opNot b s)

/-- The result of SHL. -/
def opShl (i : BeatIn) : FRes := plain (i.a <<< shAmt i.b)

/-- CELL_SHL (R65): A shifted left by B[4:0]. -/
def execCellShl (b : CellBeat) (s : State) : Host.Outcome State Fault Refusal :=
  done (plainBeat 0x10 opShl b s)

/-- The result of SHR. -/
def opShr (i : BeatIn) : FRes := plain (i.a >>> shAmt i.b)

/-- CELL_SHR (R65): A shifted right logically by B[4:0]. -/
def execCellShr (b : CellBeat) (s : State) : Host.Outcome State Fault Refusal :=
  done (plainBeat 0x11 opShr b s)

/-- The result of SAR. -/
def opSar (i : BeatIn) : FRes := plain (sar i.a (shAmt i.b))

/-- CELL_SAR (R65): A shifted right arithmetically by B[4:0]. -/
def execCellSar (b : CellBeat) (s : State) : Host.Outcome State Fault Refusal :=
  done (plainBeat 0x12 opSar b s)

/-- The result of ROL. -/
def opRol (i : BeatIn) : FRes := plain (rotl i.a (shAmt i.b))

/-- CELL_ROL (R65): A rotated left by B[4:0]. -/
def execCellRol (b : CellBeat) (s : State) : Host.Outcome State Fault Refusal :=
  done (plainBeat 0x13 opRol b s)

/-- The result of ROR. -/
def opRor (i : BeatIn) : FRes := plain (rotr i.a (shAmt i.b))

/-- CELL_ROR (R65): A rotated right by B[4:0]. -/
def execCellRor (b : CellBeat) (s : State) : Host.Outcome State Fault Refusal :=
  done (plainBeat 0x14 opRor b s)

/-- The result of CMPEQ. -/
def opCmpeq (i : BeatIn) : FRes := plain (truth (i.a == i.b))

/-- CELL_CMPEQ (R64): 1 if A = B. -/
def execCellCmpeq (b : CellBeat) (s : State) : Host.Outcome State Fault Refusal :=
  done (plainBeat 0x18 opCmpeq b s)

/-- The result of CMPNE. -/
def opCmpne (i : BeatIn) : FRes := plain (truth (i.a != i.b))

/-- CELL_CMPNE (R64): 1 if A ≠ B. -/
def execCellCmpne (b : CellBeat) (s : State) : Host.Outcome State Fault Refusal :=
  done (plainBeat 0x19 opCmpne b s)

/-- The result of CMPLT. -/
def opCmplt (i : BeatIn) : FRes := plain (truth (slt i.a i.b))

/-- CELL_CMPLT (R64): 1 if A < B signed. -/
def execCellCmplt (b : CellBeat) (s : State) : Host.Outcome State Fault Refusal :=
  done (plainBeat 0x1A opCmplt b s)

/-- The result of CMPLTU. -/
def opCmpltu (i : BeatIn) : FRes := plain (truth (ult i.a i.b))

/-- CELL_CMPLTU (R64): 1 if A < B unsigned. -/
def execCellCmpltu (b : CellBeat) (s : State) : Host.Outcome State Fault Refusal :=
  done (plainBeat 0x1B opCmpltu b s)

/-- The result of CMPLE. -/
def opCmple (i : BeatIn) : FRes := plain (truth (sle i.a i.b))

/-- CELL_CMPLE (R64): 1 if A ≤ B signed. -/
def execCellCmple (b : CellBeat) (s : State) : Host.Outcome State Fault Refusal :=
  done (plainBeat 0x1C opCmple b s)

/-- The result of CMPLEU. -/
def opCmpleu (i : BeatIn) : FRes := plain (truth (ule i.a i.b))

/-- CELL_CMPLEU (R64): 1 if A ≤ B unsigned. -/
def execCellCmpleu (b : CellBeat) (s : State) : Host.Outcome State Fault Refusal :=
  done (plainBeat 0x1D opCmpleu b s)

/-- The result of SEL. -/
def opSel (i : BeatIn) : FRes := plain (if i.c = 0#32 then i.b else i.a)

/-- CELL_SEL (R64): A if C ≠ 0, else B. -/
def execCellSel (b : CellBeat) (s : State) : Host.Outcome State Fault Refusal :=
  done (plainBeat 0x20 opSel b s)

/-- The result of MIN. -/
def opMin (i : BeatIn) : FRes := plain (if slt i.b i.a then i.b else i.a)

/-- CELL_MIN (R64): signed minimum. -/
def execCellMin (b : CellBeat) (s : State) : Host.Outcome State Fault Refusal :=
  done (plainBeat 0x21 opMin b s)

/-- The result of MAX. -/
def opMax (i : BeatIn) : FRes := plain (if slt i.a i.b then i.b else i.a)

/-- CELL_MAX (R64): signed maximum. -/
def execCellMax (b : CellBeat) (s : State) : Host.Outcome State Fault Refusal :=
  done (plainBeat 0x22 opMax b s)

/-- The result of MINU. -/
def opMinu (i : BeatIn) : FRes := plain (if ult i.b i.a then i.b else i.a)

/-- CELL_MINU (R64): unsigned minimum. -/
def execCellMinu (b : CellBeat) (s : State) : Host.Outcome State Fault Refusal :=
  done (plainBeat 0x23 opMinu b s)

/-- The result of MAXU. -/
def opMaxu (i : BeatIn) : FRes := plain (if ult i.a i.b then i.b else i.a)

/-- CELL_MAXU (R64): unsigned maximum. -/
def execCellMaxu (b : CellBeat) (s : State) : Host.Outcome State Fault Refusal :=
  done (plainBeat 0x24 opMaxu b s)

/-- The result of CLZ. -/
def opClz (i : BeatIn) : FRes := plain (clz i.a)

/-- CELL_CLZ (R64): count of leading zeros of A. -/
def execCellClz (b : CellBeat) (s : State) : Host.Outcome State Fault Refusal :=
  done (plainBeat 0x25 opClz b s)

/-- The result of ADDS. -/
def opAdds (i : BeatIn) : FRes := satS (i.a.toInt + i.b.toInt)

/-- CELL_ADDS (R66): A + B signed, saturated. -/
def execCellAdds (b : CellBeat) (s : State) : Host.Outcome State Fault Refusal :=
  done (plainBeat 0x28 opAdds b s)

/-- The result of SUBS. -/
def opSubs (i : BeatIn) : FRes := satS (i.a.toInt - i.b.toInt)

/-- CELL_SUBS (R66): A − B signed, saturated. -/
def execCellSubs (b : CellBeat) (s : State) : Host.Outcome State Fault Refusal :=
  done (plainBeat 0x29 opSubs b s)

/-- The result of ADDSU. -/
def opAddsu (i : BeatIn) : FRes := satU ((i.a.toNat : Int) + i.b.toNat)

/-- CELL_ADDSU (R66): A + B unsigned, saturated. -/
def execCellAddsu (b : CellBeat) (s : State) : Host.Outcome State Fault Refusal :=
  done (plainBeat 0x2A opAddsu b s)

/-- The result of SUBSU. -/
def opSubsu (i : BeatIn) : FRes := satU ((i.a.toNat : Int) - i.b.toNat)

/-- CELL_SUBSU (R66): A − B unsigned, saturated at 0. -/
def execCellSubsu (b : CellBeat) (s : State) : Host.Outcome State Fault Refusal :=
  done (plainBeat 0x2B opSubsu b s)

/-- The result of SATS. -/
def opSats (i : BeatIn) : FRes := aluSats i.a i.imm

/-- CELL_SATS (R64): A clamped to a signed range. -/
def execCellSats (b : CellBeat) (s : State) : Host.Outcome State Fault Refusal :=
  done (plainBeat 0x2C opSats b s)

/-- The result of SATU. -/
def opSatu (i : BeatIn) : FRes := aluSatu i.a i.imm

/-- CELL_SATU (R64): A clamped to an unsigned range. -/
def execCellSatu (b : CellBeat) (s : State) : Host.Outcome State Fault Refusal :=
  done (plainBeat 0x2D opSatu b s)

/-- The result of MUL. -/
def opMul (i : BeatIn) : FRes := plain (i.a * i.b)

/-- CELL_MUL (R64): low 32 bits of A × B. -/
def execCellMul (b : CellBeat) (s : State) : Host.Outcome State Fault Refusal :=
  done (plainBeat 0x30 opMul b s)

/-- The result of MULH. -/
def opMulh (i : BeatIn) : FRes := plain (mulh i.a i.b)

/-- CELL_MULH (R64): high 32 bits of signed A × B. -/
def execCellMulh (b : CellBeat) (s : State) : Host.Outcome State Fault Refusal :=
  done (plainBeat 0x31 opMulh b s)

/-- The result of MULHU. -/
def opMulhu (i : BeatIn) : FRes := plain (mulhu i.a i.b)

/-- CELL_MULHU (R64): high 32 bits of unsigned A × B. -/
def execCellMulhu (b : CellBeat) (s : State) : Host.Outcome State Fault Refusal :=
  done (plainBeat 0x32 opMulhu b s)

/-- The result of QMUL31. -/
def opQmul31 (i : BeatIn) : FRes := qmul31 i.a i.b

/-- CELL_QMUL31 (R66): Q1.31 product. -/
def execCellQmul31 (b : CellBeat) (s : State) : Host.Outcome State Fault Refusal :=
  done (plainBeat 0x33 opQmul31 b s)

/-- The result of QMUL16. -/
def opQmul16 (i : BeatIn) : FRes := qmul16 i.a i.b

/-- CELL_QMUL16 (R66): Q16.16 product. -/
def execCellQmul16 (b : CellBeat) (s : State) : Host.Outcome State Fault Refusal :=
  done (plainBeat 0x34 opQmul16 b s)

/-- CELL_MAC2 (R67): signed dual MAC. -/
def execCellMac2 (b : CellBeat) (s : State) : Host.Outcome State Fault Refusal :=
  done (macBeat 0x38 true false false b s)

/-- CELL_MAC2U (R67): unsigned dual MAC. -/
def execCellMac2u (b : CellBeat) (s : State) : Host.Outcome State Fault Refusal :=
  done (macBeat 0x39 false false false b s)

/-- CELL_MSU2 (R67): signed dual multiply-subtract. -/
def execCellMsu2 (b : CellBeat) (s : State) : Host.Outcome State Fault Refusal :=
  done (macBeat 0x3A true true false b s)

/-- CELL_MAC2Z (R67): MAC2 with accumulators cleared before the first beat. -/
def execCellMac2z (b : CellBeat) (s : State) : Host.Outcome State Fault Refusal :=
  done (macBeat 0x3B true false true b s)

/-- The result of RDACC. -/
def opRdacc (i : BeatIn) : FRes := aluRdacc i.acc.a0 i.acc.a1 i.imm

/-- CELL_RDACC (R67): accumulator read-out. -/
def execCellRdacc (b : CellBeat) (s : State) : Host.Outcome State Fault Refusal :=
  done (plainBeat 0x3C opRdacc b s)

/-- The result of FADD. -/
def opFadd (i : BeatIn) : FRes := fAdd i.a i.b

/-- CELL_FADD (R68): A + B. -/
def execCellFadd (b : CellBeat) (s : State) : Host.Outcome State Fault Refusal :=
  done (plainBeat 0x40 opFadd b s)

/-- The result of FSUB. -/
def opFsub (i : BeatIn) : FRes := fSub i.a i.b

/-- CELL_FSUB (R68): A − B. -/
def execCellFsub (b : CellBeat) (s : State) : Host.Outcome State Fault Refusal :=
  done (plainBeat 0x41 opFsub b s)

/-- The result of FMUL. -/
def opFmul (i : BeatIn) : FRes := fMul i.a i.b

/-- CELL_FMUL (R68): A × B. -/
def execCellFmul (b : CellBeat) (s : State) : Host.Outcome State Fault Refusal :=
  done (plainBeat 0x42 opFmul b s)

/-- The result of FMA. -/
def opFma (i : BeatIn) : FRes := fMa i.a i.b i.c

/-- CELL_FMA (R68): A × B + C, one rounding. -/
def execCellFma (b : CellBeat) (s : State) : Host.Outcome State Fault Refusal :=
  done (plainBeat 0x43 opFma b s)

/-- The result of FMS. -/
def opFms (i : BeatIn) : FRes := fMs i.a i.b i.c

/-- CELL_FMS (R68): A × B − C, one rounding. -/
def execCellFms (b : CellBeat) (s : State) : Host.Outcome State Fault Refusal :=
  done (plainBeat 0x44 opFms b s)

/-- The result of FNMA. -/
def opFnma (i : BeatIn) : FRes := fNma i.a i.b i.c

/-- CELL_FNMA (R68): −(A × B) + C, one rounding. -/
def execCellFnma (b : CellBeat) (s : State) : Host.Outcome State Fault Refusal :=
  done (plainBeat 0x45 opFnma b s)

/-- The result of FMIN. -/
def opFmin (i : BeatIn) : FRes := fMinMax false i.a i.b

/-- CELL_FMIN (R68): minimum. -/
def execCellFmin (b : CellBeat) (s : State) : Host.Outcome State Fault Refusal :=
  done (plainBeat 0x46 opFmin b s)

/-- The result of FMAX. -/
def opFmax (i : BeatIn) : FRes := fMinMax true i.a i.b

/-- CELL_FMAX (R68): maximum. -/
def execCellFmax (b : CellBeat) (s : State) : Host.Outcome State Fault Refusal :=
  done (plainBeat 0x47 opFmax b s)

/-- The result of FCMPLT. -/
def opFcmplt (i : BeatIn) : FRes := fCmpLt i.a i.b

/-- CELL_FCMPLT (R68): 1 if A < B. -/
def execCellFcmplt (b : CellBeat) (s : State) : Host.Outcome State Fault Refusal :=
  done (plainBeat 0x48 opFcmplt b s)

/-- The result of FCMPLE. -/
def opFcmple (i : BeatIn) : FRes := fCmpLe i.a i.b

/-- CELL_FCMPLE (R68): 1 if A ≤ B. -/
def execCellFcmple (b : CellBeat) (s : State) : Host.Outcome State Fault Refusal :=
  done (plainBeat 0x49 opFcmple b s)

/-- The result of FCMPEQ. -/
def opFcmpeq (i : BeatIn) : FRes := fCmpEq i.a i.b

/-- CELL_FCMPEQ (R68): 1 if A = B. -/
def execCellFcmpeq (b : CellBeat) (s : State) : Host.Outcome State Fault Refusal :=
  done (plainBeat 0x4A opFcmpeq b s)

/-- The result of FTOI. -/
def opFtoi (i : BeatIn) : FRes := fToI false i.a

/-- CELL_FTOI (R68): A to signed integer, toward zero. -/
def execCellFtoi (b : CellBeat) (s : State) : Host.Outcome State Fault Refusal :=
  done (plainBeat 0x4B opFtoi b s)

/-- The result of FTOIR. -/
def opFtoir (i : BeatIn) : FRes := fToI true i.a

/-- CELL_FTOIR (R68): A to signed integer, nearest even. -/
def execCellFtoir (b : CellBeat) (s : State) : Host.Outcome State Fault Refusal :=
  done (plainBeat 0x4C opFtoir b s)

/-- The result of ITOF. -/
def opItof (i : BeatIn) : FRes := iToF i.a

/-- CELL_ITOF (R68): signed integer A to FP32. -/
def execCellItof (b : CellBeat) (s : State) : Host.Outcome State Fault Refusal :=
  done (plainBeat 0x4D opItof b s)

/-- The result of FABS. -/
def opFabs (i : BeatIn) : FRes := fAbs i.a

/-- CELL_FABS (R68): A with sign bit cleared. -/
def execCellFabs (b : CellBeat) (s : State) : Host.Outcome State Fault Refusal :=
  done (plainBeat 0x4E opFabs b s)

/-- The result of FNEG. -/
def opFneg (i : BeatIn) : FRes := fNeg i.a

/-- CELL_FNEG (R68): A with sign bit inverted. -/
def execCellFneg (b : CellBeat) (s : State) : Host.Outcome State Fault Refusal :=
  done (plainBeat 0x4F opFneg b s)

/-- The result of FCLASS. -/
def opFclass (i : BeatIn) : FRes := fClass i.a

/-- CELL_FCLASS (R68): class mask of A. -/
def execCellFclass (b : CellBeat) (s : State) : Host.Outcome State Fault Refusal :=
  done (plainBeat 0x50 opFclass b s)

/-- The result of LUT. -/
def opLut (i : BeatIn) : FRes := plain (aluLut (lutAt i.lut) i.a i.imm)

/-- CELL_LUT (R69): table[byte IMM[1:0] of A]. -/
def execCellLut (b : CellBeat) (s : State) : Host.Outcome State Fault Refusal :=
  done (plainBeat 0x58 opLut b s)

/-- The result of LUT4. -/
def opLut4 (i : BeatIn) : FRes := plain (aluLut4 (lutAt i.lut) i.a)

/-- CELL_LUT4 (R69): each byte of A replaced by table[byte]. -/
def execCellLut4 (b : CellBeat) (s : State) : Host.Outcome State Fault Refusal :=
  done (plainBeat 0x59 opLut4 b s)

/-- The result of SDIFF. -/
def opSdiff (i : BeatIn) : FRes := plain (i.a - i.b)

/-- CELL_SDIFF (R70): diff(A, B) of R25. -/
def execCellSdiff (b : CellBeat) (s : State) : Host.Outcome State Fault Refusal :=
  done (plainBeat 0x60 opSdiff b s)

/-- The result of SLT. -/
def opSlt (i : BeatIn) : FRes := plain (truth (earlier i.a i.b))

/-- CELL_SLT (R70): 1 if A is earlier than B. -/
def execCellSlt (b : CellBeat) (s : State) : Host.Outcome State Fault Refusal :=
  done (plainBeat 0x61 opSlt b s)

/-- The result of SLE. -/
def opSle (i : BeatIn) : FRes := plain (truth (stampLe i.a i.b))

/-- CELL_SLE (R70): 1 if A is earlier than or equal to B. -/
def execCellSle (b : CellBeat) (s : State) : Host.Outcome State Fault Refusal :=
  done (plainBeat 0x62 opSle b s)

/-- The result of SADD. -/
def opSadd (i : BeatIn) : FRes := plain (i.a + i.b)

/-- CELL_SADD (R70): A + B modulo 2³². -/
def execCellSadd (b : CellBeat) (s : State) : Host.Outcome State Fault Refusal :=
  done (plainBeat 0x63 opSadd b s)

/-- The result of SLATER. -/
def opSlater (i : BeatIn) : FRes := plain (if later i.a i.b then i.a else i.b)

/-- CELL_SLATER (R70): the later of A and B. -/
def execCellSlater (b : CellBeat) (s : State) : Host.Outcome State Fault Refusal :=
  done (plainBeat 0x64 opSlater b s)

/-- The result of SEARLIER. -/
def opSearlier (i : BeatIn) : FRes := plain (if earlier i.a i.b then i.a else i.b)

/-- CELL_SEARLIER (R70): the earlier of A and B. -/
def execCellSearlier (b : CellBeat) (s : State) : Host.Outcome State Fault Refusal :=
  done (plainBeat 0x65 opSearlier b s)

/-- CELL_LD (R71): scratchpad word at A + IMM. -/
def execCellLd (b : CellBeat) (s : State) : Host.Outcome State Fault Refusal :=
  done (loadBeat b s)

/-- CELL_ST (R71): B written to the scratchpad at A + IMM. -/
def execCellSt (b : CellBeat) (s : State) : Host.Outcome State Fault Refusal :=
  done (storeBeat b s)

/-- CELL_GATHER (R117): index words to the gather engine. -/
def execCellGather (b : CellBeat) (s : State) : Host.Outcome State Fault Refusal :=
  done (gatherBeat b s)

/-- CELL_STEER (R72): A to DST0 if C ≠ 0, else to DST1. -/
def execCellSteer (b : CellBeat) (s : State) : Host.Outcome State Fault Refusal :=
  done (steerBeat b s)

/-- CELL_DROP (R72): tokens consumed. -/
def execCellDrop (b : CellBeat) (s : State) : Host.Outcome State Fault Refusal :=
  done (dropBeat b s)

/-- CELL_CANCEL (R72): cancel word for TID A[11:0] on DST0. -/
def execCellCancel (b : CellBeat) (s : State) : Host.Outcome State Fault Refusal :=
  done (cancelBeat b s)

end Sys2Proof.Machine
end

