-- ==== Sys2Proof/Machine/FizFp.lean ====
section
/-! DEFINITION. Fizhaig floating point (R310 to R314): the FP file shared among contexts, SAVF and RSTF, and the FP instructions. -/

namespace Sys2Proof.Machine
open Sys2Proof

/-! ## The shared file (R310 to R313) -/

/-- FPMODE; on a shuttle 0 (R310). -/
def fpMode (c : Nat) (x : Core) : Nat := if isShuttle c then 0 else x.corecfg % 4

/-- The FP save area of the context in bank k: word 1 of its CCB, which lies at SSB − 16; 0 without one. -/
def fpsaOf (c k : Nat) (x : Core) : Nat :=
  let b := x.bank k
  if b.ssb.toNat < 16 ∨ !fzRam c x b.planeB (b.ssb.toNat - 16) 16 then 0 else (fzWord c x (b.ssb.toNat - 12)).toNat

/-- f register i. -/
def Core.f (x : Core) (i : Nat) : Word := mget 0#32 x.fregs (i % 32)

/-- Groups of a mask stored with FCSR into the FP save area at `a`, and marked valid there (R313). -/
def saveGroups (c a mask : Nat) (x : Core) : Core :=
  let x1 := (List.range 4).foldl (fun y g =>
    if bit mask g then fzPokes c (a + 16 + 32 * g) ((List.range 8).map (fun i => x.f (8 * g + i))) y else y) x
  fzPokes c a [BitVec.ofNat 32 x.fcsr, BitVec.ofNat 32 ((fzWord c x (a + 4)).toNat % 16 ||| mask), 0#32, 0#32] x1

/-- Groups of a mask loaded with FCSR from the FP save area at `a`. -/
def loadGroups (c a mask : Nat) (x : Core) : Core :=
  let fr := (List.range 4).foldl (fun m g =>
    if bit mask g then (List.range 8).foldl (fun q i => mset 0#32 q (8 * g + i) (fzWord c x (a + 16 + 32 * g + 4 * i))) m else m) x.fregs
  { x with fregs := fr, fcsr := (fzWord c x a).toNat % 32 }

/-- FPDIRTY of bank k without the groups of a mask. -/
def cleanGroups (k mask : Nat) (x : Core) : Core := x.setBank k { x.bank k with dirty := (x.bank k).dirty &&& (15 ^^^ mask % 16) }

/-- An FP save area that the bank's plane can reach. -/
def fpAreaOk (c : Nat) (x : Core) (planeB : Bool) (a : Nat) : Bool := a % 16 == 0 && inSaveRegion x a && fzRam c x planeB a 144

/-- The swap of R312: the owner's dirty groups saved, the current context's valid groups restored, FPOWN moved. -/
def fpSwap (c : Nat) (x : Core) : Sum Nat Core :=
  let o := x.fpown
  let ao := fpsaOf c o x
  let ac := fpsaOf c x.cur x
  if ao ≠ 0 ∧ !fpAreaOk c x (x.bank o).planeB ao then .inl 4
  else if !fpAreaOk c x x.here.planeB ac then .inl 4
  else
    let dirty := (x.bank o).dirty
    let x1 := if ao = 0 then x else cleanGroups o dirty (saveGroups c ao dirty x)
    let valid := (fzWord c x1 (ac + 4)).toNat % 16
    let x2 := cleanGroups x.cur valid (loadGroups c ac valid x1)
    .inr { x2 with fpown := x.cur }

/-- FP_SWAPS of the core's object. -/
def countSwap (c : Nat) (s : State) : State := if isMp c then s.bump 0x3030 8 else s.bump (0x3031 + (c - 64)) 5

/-- An FP instruction (R310 to R313): ILLEGAL with FPMODE 0, CTX_INVALID without an FP save area, FP_UNAVAILABLE or the swap in a bank that does
not own the file, then its effect. -/
def fpGate (c ecc : Nat) (s : State) (f : State → FzRes) : FzRes :=
  let x := s.core c
  let mode := fpMode c x
  if mode = 0 ∨ mode = 3 then .trap 1 0 false s
  else if fpsaOf c x.cur x = 0 then .trap 0x0A 0 false s
  else if x.cur = x.fpown then f s
  else if mode = 1 then .trap 7 0 false (countSwap c s)
  else if ecc = 2 then .trap 6 (fpsaOf c x.cur x) true (fzEcc 2 s)
  else match fpSwap c x with
    | .inl e => .trap e (fpsaOf c x.cur x) true s
    | .inr y => f (countSwap c (fzEcc ecc (s.setCore c y)))

/-- An FP instruction of a core. -/
def fzFp (c ecc : Nat) (s : State) (f : State → FzRes) : Host.Outcome State Fault Refusal := fzDo c s (fun s => fpGate c ecc s f)

/-- SAVF and RSTF: FP instructions of SYSTEM mode on the current context's FP save area (R310 to R313). -/
def fzFpArea (c ecc : Nat) (s : State) (f : Nat → Core → Core) : Host.Outcome State Fault Refusal :=
  fzDo c s (fun s => fzSystem c s (fun s => fpGate c ecc s (fun s =>
    let x := s.core c
    let a := fpsaOf c x.cur x
    if !fpAreaOk c x x.here.planeB a then .trap 4 a false s
    else fzEccGate ecc s (fun s => .ok (fzAdvance c (s.setCore c (f a (s.core c))))))))

/-- SAVF (R311, R312): all four groups with FPMODE 1, the dirty ones with FPMODE 2, and FCSR. -/
def execFzSavf (c : Nat) (s : State) : Host.Outcome State Fault Refusal :=
  fzFpArea c 0 s (fun a x =>
    let mask := if fpMode c x = 1 then 15 else x.here.dirty
    cleanGroups x.cur mask (saveGroups c a mask x))

/-- RSTF (R311, R313): the groups marked valid, and FCSR. -/
def execFzRstf (c ecc : Nat) (s : State) : Host.Outcome State Fault Refusal :=
  fzFpArea c ecc s (fun a x =>
    let mask := (fzWord c x (a + 4)).toNat % 16
    cleanGroups x.cur mask (loadGroups c a mask x))

/-! ## Results -/

/-- Sticky flags an operation sets in FCSR (R314): invalid, divide by zero, overflow, flushed, conversion saturation. -/
def fpFlags (r : FRes) (divZero : Bool) : Nat :=
  b2n r.invalid + 2 * b2n divZero + 4 * b2n r.overflow + 8 * b2n r.flushed + 16 * b2n r.convSat

/-- An f register written, with its FPDIRTY bit and the sticky flags; the pc advances. -/
def fzSetF (c fd : Nat) (r : FRes) (divZero : Bool) (s : State) : State :=
  let x := s.core c
  let b := x.here
  let y := x.setHere { b with pc := b.pc + 4#32, dirty := b.dirty ||| 2 ^ (fd % 32 / 8) }
  s.setCore c { y with fregs := mset 0#32 x.fregs (fd % 32) r.val, fcsr := x.fcsr ||| fpFlags r divZero }

/-- A general register written by an FP instruction, with the sticky flags. -/
def fzSetGf (c rd : Nat) (r : FRes) (s : State) : State :=
  let s1 := fzSetReg c rd r.val s
  s1.setCore c { s1.core c with fcsr := (s.core c).fcsr ||| fpFlags r false }

/-- An FP operation on f registers into an f register. -/
def fzFop (c fd ecc : Nat) (v : Core → FRes) (s : State) : Host.Outcome State Fault Refusal :=
  fzFp c ecc s (fun s => .ok (fzSetF c fd (v (s.core c)) false s))

/-- An FP operation on f registers into a general register. -/
def fzFtoG (c rd ecc : Nat) (v : Core → FRes) (s : State) : Host.Outcome State Fault Refusal :=
  fzFp c ecc s (fun s => .ok (fzSetGf c rd (v (s.core c)) s))

/-- A finite number other than zero divided by zero. -/
def isDivZero (a b : Word) : Bool :=
  match fUnpack a, fUnpack b with
  | .fin _ m _, .fin _ m' _ => m != 0 && m' == 0
  | _, _ => false

/-! ## FP instructions (Table 8.13) -/

/-- FADD: fd ← result (R314, Table 8.13). -/
def execFzFadd (c fd fa fb ecc : Nat) (s : State) : Host.Outcome State Fault Refusal := fzFop c fd ecc (fun x => fAdd (x.f fa) (x.f fb)) s

/-- FSUB: fd ← result (R314, Table 8.13). -/
def execFzFsub (c fd fa fb ecc : Nat) (s : State) : Host.Outcome State Fault Refusal := fzFop c fd ecc (fun x => fSub (x.f fa) (x.f fb)) s

/-- FMUL: fd ← result (R314, Table 8.13). -/
def execFzFmul (c fd fa fb ecc : Nat) (s : State) : Host.Outcome State Fault Refusal := fzFop c fd ecc (fun x => fMul (x.f fa) (x.f fb)) s

/-- FDIV: fd ← fa / fb, with the divide-by-zero flag (R314, Table 8.13). -/
def execFzFdiv (c fd fa fb ecc : Nat) (s : State) : Host.Outcome State Fault Refusal :=
  fzFp c ecc s (fun s => let x := s.core c; .ok (fzSetF c fd (fDiv (x.f fa) (x.f fb)) (isDivZero (x.f fa) (x.f fb)) s))

/-- FSQRT: fd ← square root of fa (R314, Table 8.13). -/
def execFzFsqrt (c fd fa ecc : Nat) (s : State) : Host.Outcome State Fault Refusal := fzFop c fd ecc (fun x => fSqrt (x.f fa)) s

/-- FMA: fd ← fa × fb + fc, one rounding (R314, Table 8.13). -/
def execFzFma (c fd fa fb fc ecc : Nat) (s : State) : Host.Outcome State Fault Refusal := fzFop c fd ecc (fun x => fMa (x.f fa) (x.f fb) (x.f fc)) s

/-- FMS: fd ← fa × fb − fc, one rounding (R314, Table 8.13). -/
def execFzFms (c fd fa fb fc ecc : Nat) (s : State) : Host.Outcome State Fault Refusal := fzFop c fd ecc (fun x => fMs (x.f fa) (x.f fb) (x.f fc)) s

/-- FNMA: fd ← −(fa × fb) + fc, one rounding (R314, Table 8.13). -/
def execFzFnma (c fd fa fb fc ecc : Nat) (s : State) : Host.Outcome State Fault Refusal := fzFop c fd ecc (fun x => fNma (x.f fa) (x.f fb) (x.f fc)) s

/-- FMIN: fd ← minimum as R68 (R314, Table 8.13). -/
def execFzFmin (c fd fa fb ecc : Nat) (s : State) : Host.Outcome State Fault Refusal := fzFop c fd ecc (fun x => fMinMax false (x.f fa) (x.f fb)) s

/-- FMAX: fd ← maximum as R68 (R314, Table 8.13). -/
def execFzFmax (c fd fa fb ecc : Nat) (s : State) : Host.Outcome State Fault Refusal := fzFop c fd ecc (fun x => fMinMax true (x.f fa) (x.f fb)) s

/-- FCMPLT: rd ← 1 if fa < fb, as R68 (R314, Table 8.13). -/
def execFzFcmplt (c rd fa fb ecc : Nat) (s : State) : Host.Outcome State Fault Refusal := fzFtoG c rd ecc (fun x => fCmpLt (x.f fa) (x.f fb)) s

/-- FCMPLE: rd ← 1 if fa ≤ fb, as R68 (R314, Table 8.13). -/
def execFzFcmple (c rd fa fb ecc : Nat) (s : State) : Host.Outcome State Fault Refusal := fzFtoG c rd ecc (fun x => fCmpLe (x.f fa) (x.f fb)) s

/-- FCMPEQ: rd ← 1 if fa = fb, as R68 (R314, Table 8.13). -/
def execFzFcmpeq (c rd fa fb ecc : Nat) (s : State) : Host.Outcome State Fault Refusal := fzFtoG c rd ecc (fun x => fCmpEq (x.f fa) (x.f fb)) s

/-- FTOI: rd ← integer of fa, toward zero (R314, Table 8.13). -/
def execFzFtoi (c rd fa ecc : Nat) (s : State) : Host.Outcome State Fault Refusal := fzFtoG c rd ecc (fun x => fToI false (x.f fa)) s

/-- FTOIR: rd ← integer of fa, nearest even (R314, Table 8.13). -/
def execFzFtoir (c rd fa ecc : Nat) (s : State) : Host.Outcome State Fault Refusal := fzFtoG c rd ecc (fun x => fToI true (x.f fa)) s

/-- ITOF: fd ← FP32 of ra (R314, Table 8.13). -/
def execFzItof (c fd ra ecc : Nat) (s : State) : Host.Outcome State Fault Refusal := fzFop c fd ecc (fun x => iToF (x.here.g ra)) s

/-- FMVGF: fd ← bits of ra (R314, Table 8.13). -/
def execFzFmvgf (c fd ra ecc : Nat) (s : State) : Host.Outcome State Fault Refusal := fzFop c fd ecc (fun x => plain (x.here.g ra)) s

/-- FMVFG: rd ← bits of fa (R314, Table 8.13). -/
def execFzFmvfg (c rd fa ecc : Nat) (s : State) : Host.Outcome State Fault Refusal := fzFtoG c rd ecc (fun x => plain (x.f fa)) s

/-- FABS: fd ← fa with its sign cleared (R314, Table 8.13). -/
def execFzFabs (c fd fa ecc : Nat) (s : State) : Host.Outcome State Fault Refusal := fzFop c fd ecc (fun x => fAbs (x.f fa)) s

/-- FNEG: fd ← fa with its sign inverted (R314, Table 8.13). -/
def execFzFneg (c fd fa ecc : Nat) (s : State) : Host.Outcome State Fault Refusal := fzFop c fd ecc (fun x => fNeg (x.f fa)) s

/-- FLW: fd ← the word at ra + imm (Table 8.13). -/
def execFzFlw (c fd ra imm ecc : Nat) (s : State) : Host.Outcome State Fault Refusal :=
  fzFp c ecc s (fun s => fzLoad c 5 fd (fzEa c ra imm s) ecc s)

/-- FSW: fs stored at ra + imm (Table 8.13). -/
def execFzFsw (c fs ra imm ecc : Nat) (s : State) : Host.Outcome State Fault Refusal :=
  fzFp c ecc s (fun s => fzStore c 4 (fzEa c ra imm s) ((s.core c).f fs) ecc s)

end Sys2Proof.Machine
end

