-- ==== Sys2Proof/Machine/Link.lean ====
section
/-! DEFINITION. What bride links receive, resend and lose (R420 to R426). Frames come as their 64-bit blocks. -/

namespace Sys2Proof.Machine
open Sys2Proof

/-! ## Parsing (Table 10.10) -/

/-- Words of data blocks, `n` of them: even word in [31:0]. -/
def blockWords (n : Nat) (bs : List Nat) : List Word :=
  (bs.flatMap (fun b => [BitVec.ofNat 32 b, BitVec.ofNat 32 (b / 2 ^ 32)])).take n

/-- The tokens of a TOKEN frame; `none` where the blocks are not what the header says. -/
def linkToks : Nat → List Nat → Option (List LinkTok)
  | 0, [] => some []
  | 0, _ :: _ => none
  | _ + 1, [] => none
  | n + 1, h :: bs =>
    let w := h % 16
    let k := (w + 1) / 2
    if w = 0 ∨ w = 15 ∨ bs.length < k then none
    else match linkToks n (bs.drop k) with
      | none => none
      | some ts => some ({ stamp := BitVec.ofNat 32 (h / 2 ^ 32), words := blockWords w (bs.take k) } :: ts)

/-- The CRC of a frame is correct (R420). -/
def linkIntact (bs : List Nat) : Bool :=
  match bs.getLast? with
  | none => false
  | some t => decide (2 ≤ bs.length) && crc32c (bs.dropLast.flatMap (fun b => leBytes b 8)) == t % 2 ^ 32

/-! ## Received frames -/

/-- The tokens of a TOKEN frame enter at the bride block as free tokens; all but the last carry FEND = 0 (R421). -/
def linkTokens (stream : Nat) : List LinkTok → State → State
  | [], s => s
  | [t], s => enterFree 69 stream { stamp := t.stamp, words := t.words } s
  | t :: ts, s => linkTokens stream ts (enterFree 69 stream { stamp := t.stamp, words := t.words, fend := false } s)

/-- What an accepted frame of kinds 0 to 2 does: header, blocks between header and trailer. -/
def linkAccept (l h : Nat) (mid : List Nat) (s : State) : State :=
  if h % 16 = 0 then
    (match linkToks (h / 2 ^ 4 % 4 + 1) mid with
     | none => s
     | some ts => if s.fabric then linkTokens (h / 2 ^ 8 % 1024) ts s else s)
  else if h % 16 = 1 then voteArrives (h / 2 ^ 32 % 65536) (h / 2 ^ 48 % 8) s
  else
    let x := s.link l
    let got := x.relayIn ++ mid.flatMap (fun b => leBytes b 8)
    if bit h 4 then hostFrame got (s.setLink l { x with relayIn := [] }) else s.setLink l { x with relayIn := got }

/-- A frame arrives on an UP link (R422): a wrong CRC is counted; the ACK counts whatever the kind; a frame of kinds 0 to 2 is accepted only with the
SEQ expected next. -/
def linkReceive (l : Nat) (bs : List Nat) (s : State) : State :=
  let h := bs.headD 0
  let ack := bs.getLast?.getD 0 / 2 ^ 32 % 256
  if !linkUp s l then s
  else if !linkIntact bs then s.bumpi l 0x4300 8
  else
    let s1 := linkAcked l ack s
    if h % 16 = 3 then s1.setObji l 0x4300 5 (h / 2 ^ 8 % 256)
    else if 3 < h % 16 ∨ h / 2 ^ 24 % 256 ≠ (s1.link l).rxSeq then s1
    else
      let x := s1.link l
      linkAccept l h (bs.drop 1).dropLast ((s1.setLink l { x with rxSeq := (x.rxSeq + 1) % 256 }).bumpi l 0x4300 7)

/-- A row for the frames of one kind; other frames are other rows'. -/
def linkRow (kind l : Nat) (bs : FrameData) (s : State) : Host.Outcome State Fault Refusal :=
  done (if bs.headD 0 % 16 = kind then linkReceive (l % 2) bs s else s)

/-- LINK_TOKEN_FRAME (R421). -/
def execLinkTokenFrame (l : Nat) (bs : FrameData) (s : State) : Host.Outcome State Fault Refusal := linkRow 0 l bs s

/-- VOTE_FRAME (R290, R425). -/
def execVoteFrame (l : Nat) (bs : FrameData) (s : State) : Host.Outcome State Fault Refusal := linkRow 1 l bs s

/-- LINK_RELAY_FRAME (R426). -/
def execLinkRelayFrame (l : Nat) (bs : FrameData) (s : State) : Host.Outcome State Fault Refusal := linkRow 2 l bs s

/-- LINK_IDLE_FRAME (R422, Table 10.14). -/
def execLinkIdleFrame (l : Nat) (bs : FrameData) (s : State) : Host.Outcome State Fault Refusal := linkRow 3 l bs s

/-! ## Link states and timers -/

/-- An UP link becomes DOWN (R424): unacknowledged frames are lost and counted, the alarm is set, and training starts again. -/
def linkLoss (l : Nat) (s : State) : State :=
  let s1 := linkTrain l ((linkFall l s).bumpi l 0x4300 0x0A)
  if bit s.conds 31 then raise 31 s1 else linkAlarm s1

/-- LINK_LOSS_OF_LOCK (R424). -/
def execLinkLossOfLock (l : Nat) (s : State) : Host.Outcome State Fault Refusal := done (if linkUp s (l % 2) then linkLoss (l % 2) s else s)

/-- LINK_TRAINING_DONE (R424): both lanes are locked and aligned; both directions count from SEQ 0. -/
def execLinkTrainingDone (l : Nat) (s : State) : Host.Outcome State Fault Refusal :=
  let k := l % 2
  if s.obji k 0x4300 4 ≠ 1 then done s
  else done (linkAlarm ((s.setLink k { sentAt := s.time.clk, votedAt := s.time.clk }).setObji k 0x4300 4 2))

/-- A frame sent 2 µs ago or earlier. -/
def linkOverdue (s : State) (f : LinkFrame) : Bool := decide (f.sentAt + 2000 ≤ s.time.clk)

/-- LINK_RESEND_TIMEOUT (R422, R424): frames not acknowledged 2 µs after sending are resent, from the oldest on; the seventeenth round of one frame
takes the link DOWN instead. -/
def execLinkResendTimeout (l : Nat) (s : State) : Host.Outcome State Fault Refusal :=
  let k := l % 2
  let x := s.link k
  match x.unacked with
  | [] => done s
  | f :: _ =>
    if !linkUp s k || !linkOverdue s f then done s
    else if 16 ≤ f.rounds then done (linkLoss k s)
    else
      let n := (x.unacked.filter (linkOverdue s)).length
      let fs := x.unacked.map (fun g => if linkOverdue s g then { g with sentAt := s.time.clk, rounds := g.rounds + 1 } else g)
      done ((s.setLink k { x with unacked := fs, sentAt := s.time.clk }).setObji k 0x4300 9 (satAdd 32 (s.obji k 0x4300 9) n))

/-- LINK_IDLE_TIMER (R422): nothing was sent for 1 µs, and an IDLE frame goes. -/
def execLinkIdleTimer (l : Nat) (s : State) : Host.Outcome State Fault Refusal :=
  let k := l % 2
  if linkUp s k && decide ((s.link k).sentAt + 1000 ≤ s.time.clk) then done (s.setLink k { s.link k with sentAt := s.time.clk }) else done s

/-- VOTE_TIMER (R425): every 100 µs while the changeover is not IDLE. -/
def execVoteTimer (s : State) : Host.Outcome State Fault Refusal :=
  if s.obj 0x3600 1 = 0 then done s
  else done ([0, 1].foldl (fun st l =>
    if linkUp st l ∧ (st.link l).votedAt + 100000 ≤ st.time.clk then
      linkSend l (voteFrame st) (st.setLink l { st.link l with votedAt := st.time.clk })
    else st) s)

end Sys2Proof.Machine
end

