-- ==== Sys2Proof/Machine/Startup.lean ====
section
/-! DEFINITION. Resets, start steps S0 to S12, the start record and the fabric start (R466 to R477, R272, R273). -/

namespace Sys2Proof.Machine
open Sys2Proof

/-! ## Resets (R466, R467) -/

/-- What a reset leaves in boot flash: a running erase never completes, and its entry stays unfinished (R483). -/
def flashStopped (f : Flash) : Flash := { f with jobs := [], running := false, orphan := false }

/-- The state in reset with a cause of Table 12.1. Kept are boot flash, fuses, drives, the levels at the pins, the elapsed time and the used free values;
the classes of the VDDIO supplies (R511); and, unless VDD_AON was lost, what PD0 holds: start record, operating time, power cycles, unit number. -/
def resetState (cause : Nat) (aonLost : Bool) (s : State) : State :=
  let base : State :=
    { State.reset with
      pending := s.pending, free := s.free, time := { clk := s.time.clk, resetAt := s.time.clk },
      net := { hoops := (List.range 4).foldl (fun l h => mset {} l h { cycAt := s.time.clk }) [] }, flash := flashStopped s.flash, fuses := s.fuses, vols := s.vols,
      ports := { tio := s.ports.tio.map (fun e => (e.1, { raw := e.2.raw })) }, ecat := { links := s.ecat.links },
      start := { record := if aonLost then [] else s.start.record, retained := s.start.retained && !aonLost },
      upkeep := { windowAt := s.time.clk, secondAt := s.upkeep.secondAt } }
  let levels := ((List.range 24).map (fun p => if (s.pin p).raw then 2 ^ p else 0)).foldl (· + ·) 0
  let s1 := ((base.setObj 0x2000 1 cause).setObj 0x2200 7 (s.obj 0x2200 7)).setObj 0x4000 0x0B levels
  if aonLost then s1 else ((s1.setObj 0x5000 0x0A (s.obj 0x5000 0x0A)).setObj 0x5000 0x0B (s.obj 0x5000 0x0B)).setObj 0x3601 6 (s.obj 0x3601 6)

/-- PORST_N_RESET (R466): cause 1. A low pulse shorter than 100 ns is ignored (R512). -/
def execPorstNReset (width : Nat) (aonLost : Bool) (s : State) : Host.Outcome State Fault Refusal :=
  if width < 100 then done s else done (resetState 1 aonLost s)

/-- The falling threshold and the rising release of a supply monitor in mV (Table 13.8): rails 0 VDD_CORE, 1 VDD_SRAM, 2 VDD_AON, 3 to 5 VDDIO_T0 to T2,
6 VDDIO_C, the last four by their class. -/
def monitorLevels (s : State) (rail : Nat) : Nat × Nat :=
  match rail with
  | 0 => (680, 700) | 1 => (720, 740) | 2 => (700, 720)
  | _ => if bit (s.obj 0x2200 7) (rail - 3) then (2850, 2950) else (1550, 1600)

/-- SUPPLY_MONITOR_RESET (R467): cause 2, when a rail has stood at `mv` millivolts, below its falling threshold, for `width` nanoseconds; a dip of less
than 1 µs is ignored (R512). -/
def execSupplyMonitorReset (rail mv width : Nat) (aonLost : Bool) (s : State) : Host.Outcome State Fault Refusal :=
  if width < 1000 ∨ (monitorLevels s rail).1 ≤ mv then done s else done (resetState 2 aonLost s)

/-- RESET_N_RESET (R466): cause 3. A low pulse shorter than 100 ns is ignored (R512). -/
def execResetNReset (width : Nat) (s : State) : Host.Outcome State Fault Refusal := if width < 100 then done s else done (resetState 3 false s)

/-- REQUESTED_RESET (R466, R498, R503): cause 4, when the time of the request has come. -/
def execRequestedReset (s : State) : Host.Outcome State Fault Refusal :=
  match s.start.resetAt with
  | none => done s
  | some a => if s.time.clk < a then done s else done (resetState 4 false s)

/-! ## Pins (Table 12.2) -/

/-- READY is high: in READY and DEGRADED (R476). -/
def readyPin (s : State) : Bool := s.obj 0x2001 0 == 1 || s.obj 0x2001 0 == 2

/-- FAULT_N is high: from S0 on, but not in START_HOLD (R474). -/
def faultPin (s : State) : Bool := !s.start.held && s.obj 0x2001 0 != 3

/-- DONE is released by this unit: from the image's load on (R272). -/
def donePin (s : State) : Bool := s.start.done

/-! ## Steps (Table 12.3) -/

/-- The steps before S12 in their order; 13 is S9C. -/
def startSteps : List Nat := [0, 1, 2, 3, 4, 5, 6, 7, 8, 9, 13, 10, 11]

/-- Maximum of a step in ms. -/
def stepMax (k : Nat) : Nat :=
  match k with
  | 0 => 10 | 1 => 20 | 2 => 30 | 3 => 5 | 4 => 50 | 5 => 80 | 6 => 2500 | 7 => 250 | 8 => 1200 | 9 => 600 | 10 => 1000 | 11 => 250 | 13 => 600 | _ => 5

/-- The step has a fallback. -/
def hasFallback (k : Nat) : Bool := k == 1 || k == 2 || k == 8 || k == 9 || k == 11

/-- The step is optional. -/
def isOptional (k : Nat) : Bool := k == 10 || k == 13

/-- `ms` milliseconds pass; T counts from S1 on, when PLL0 is locked. -/
def elapse (k ms : Nat) (s : State) : State :=
  { s with time := { s.time with clk := s.time.clk + 1000000 * ms, t := if k ≤ 1 then s.time.t else (s.time.t + 1000000 * ms) % 2 ^ 64 } }

/-- Power domains on. -/
def domainsOn (ds : List Nat) (s : State) : State := ds.foldl (fun st d => setDomain d true st) s

/-- The domains that a step switches on (R514, Table 13.9). -/
def stepDomains (k : Nat) : List Nat :=
  match k with
  | 0 => [17] | 1 => [9] | 3 => [19] | 4 => [1, 2, 3, 4, 5, 6, 7, 8, 10, 18, 20] | 8 => [11] | 9 => [12, 13, 14, 15, 16] | _ => []

/-- The SII contents delivered with the device (R361): identity (Table 9.16) and the mailbox defaults of Table 9.8, with CoE and FoE, at the places of the
EtherCAT slave information description (PRESUMED, log entry 27). -/
def siiDelivered : Mem :=
  memWrite (memWrite [] 0x10 (leBytes 0x0A7E 4 ++ leBytes 0x0D4F0400 4 ++ leBytes 0x00010000 4)) 0x30
    (leBytes 0x1000 2 ++ leBytes 512 2 ++ leBytes 0x1200 2 ++ leBytes 512 2 ++ leBytes 0x000C 2)

/-- The persistent records of the valid copy take effect (R189, R196, R345, R356, R361). -/
def persistLoad (s : State) : State :=
  match newerCopy (·.seq) s.flash.persist with
  | none => { s with ecat := { s.ecat with sii := siiDelivered } }
  | some (_, c) =>
    let s1 : State := { s with marks := c.marks, dram := { s.dram with retired := c.retired }, ecat := { s.ecat with sii := c.sii } }
    let pages := (c.retired.map (·.2)).foldl (· + ·) 0
    ((s1.setObj 0x3701 6 (min 65535 pages)).setObj 0x2012 1 (b2n c.locked)).setObj 0x2012 3 c.lockedAt

/-- The middle of the delay steps that pass, the lower one of two (DESIGN CHOICE, log 112); none where no step passes. -/
def middleStep (mask : Nat) : Option Nat := let ps := bitsOf mask 8; ps[(ps.length - 1) / 2]?

/-- QSPI_CLK at a rate, with the sampling delay that the reads of the loader's first 16 bytes choose (R523); a rate at which no step passes is not used
(DESIGN CHOICE, log 112). -/
def qspiRate (mhz : Nat) (s : State) : State :=
  let mask := s.start.board.qspi.getD (if mhz = 100 then 2 else if mhz = 50 then 1 else 0) 0
  match middleStep mask with
  | none => s
  | some d => { s with start := { s.start with qspiMHz := mhz, qspiDelay := d } }

/-- S0: the record from retention, else from its flash mirror, else a fresh one (R473); operating time from flash where PD0 has lost it; the power-cycle
count advances (R440); the sampler copy that the boot flash holds shows in 0x5000:0C (R445). -/
def stepS0 (s : State) : State :=
  let s1 :=
    if s.start.retained then s
    else
      let op := (newerCopy (·.seq) s.flash.persist).map (fun e => e.2.opTime)
      let s0 := s.setObj 0x5000 0x0A (op.getD (s.obj 0x5000 0x0A))
      match newerCopy (·.seq) s.flash.mirror with
      | some (_, c) => ({ s0 with start := { s0.start with record := c.entries, retained := true } } : State).setObj 0x5000 0x0B c.cycles
      | none => { s0 with start := { s0.start with record := [], retained := true, lost := true } }
  let copyT := match s1.flash.samp with | some c => c.t | none => 0
  let s2 := (s1.setObj 0x5000 0x0B (min (2 ^ 32 - 1) (s1.obj 0x5000 0x0B + 1))).setObj 0x5000 0x0C copyT
  domainsOn (stepDomains 0) (qspiRate 25 (persistLoad (recordShow s2)))

/-- S1: the reference is TCLK_IN where it toggles and the step runs its primary variant, else the crystal (R40, Table 12.3); from the end of S1 the time
base acts on SOURCE (R14). -/
def stepS1 (s : State) : State :=
  tbBegin (domainsOn (stepDomains 1) (s.setObj 0x2100 0x0C (b2n (s.start.board.tclk && (stepEntry s 1).variant == 0))))

/-- S6 raises QSPI_CLK to the highest rate of 50 or 100 MHz that the flash's SFDP table allows (R523). -/
def qspiRaise (s : State) : State :=
  let top := s.start.board.sfdp
  let s1 := if 50 ≤ top then qspiRate 50 s else s
  if 100 ≤ top then qspiRate 100 s1 else s1

/-- S3: the island is wiped and loaded from the fuses, unless TAMPER_N is low (R499, R500). -/
def stepS3 (s : State) : State :=
  let low := s.start.board.tamperLow
  let s1 := s.setIsland { tampered := low }
  setCond 89 low (domainsOn (stepDomains 3) (if low then s1 else loadIsland s1))

/-- A motif becomes unavailable (R189). -/
def motifAbsent (m : Nat) (s : State) : State := setDegraded 7 true (s.setMotif m { s.motif m with absent := true })

/-- S4: motifs whose memories fail the check become unavailable, with the words that failed counted. -/
def stepS4 (s : State) : State :=
  s.start.board.badMotifs.foldl (fun st e => motifAbsent e.1 ((st.addObj (0x3200 + e.1) 0x2C e.2).addObj 0x3701 2 e.2)) (domainsOn (stepDomains 4) s)

/-- Physical cells of motif m that S5 excludes: failed lanes or suspect marks. -/
def excludedCells (s : State) (m lanes : Nat) : List Nat :=
  (List.range 18).filter (fun p => bit lanes (2 * p) || bit lanes (2 * p + 1) || bit (mget 0 s.marks m) p)

/-- S5 on one motif: the remaining cells realise positions 0 to 15 in order. -/
def laneTest (s : State) (m : Nat) : State :=
  let lanes := mget 0 s.start.board.lanes m
  let out := excludedCells s m lanes
  if lanes = 0 ∧ out = [] then s
  else
    let use := (List.range 18).filter (fun p => !out.contains p)
    let s1 := ((s.setObj (0x3200 + m) 0x2E lanes).setObj (0x3200 + m) 0x26 ((out.map (2 ^ ·)).foldl (· + ·) 0)).setObj (0x3200 + m) 0x23 (use.length - 16)
    let s2 := s1.setObj 0x3700 6 (s1.obj 0x3700 6 - (2 - (use.length - 16)))
    if use.length < 16 then motifAbsent m (noteSpares m s2)
    else noteSpares m ((List.range 16).foldl (fun st k => setPhys m k (use.getD k k) st) s2)

/-- S6: sectors of unfinished intent entries are erased again, each with alarm FLASH_ERASE_REDONE (R482); a RETURN unit's first S6 empties the recipe store and the saved values (R495);
the slot's version and validity show. -/
def stepS6 (s0 : State) : State :=
  let s := qspiRaise s0
  let open_ := s.flash.intents.filter (fun i => !i.done)
  let s1 := open_.foldl (fun st i => let u := invalidateSector i.addr i.purpose st; raise 84 (u.setFlash (intentDone i.addr u.flash))) s
  let s2 : State := { s1 with start := { s1.start with redone := open_ } }
  let s3 : State :=
    if s2.fuses.lc = 3 ∧ !s2.fuses.returned then
      { s2 with flash := { s2.flash with recipes := [], saved := [] }, fuses := { s2.fuses with returned := true } }
    else s2
  let v := slotValid s3
  (s3.setObj 0x5800 0x0A (b2n v)).setObj 0x5800 9 (if v then fwVersion s3.flash.fwHead else 0)

/-- The DRAM is one of those the controller supports (Table 6.14): 2 to 16 GiB as two channels of 8 to 64 Gbit, 1 or 2 ranks, at least 6,400 MT/s. -/
def dramSupported (b : Board) : Bool :=
  [2048, 4096, 8192, 16384].contains b.dramMiB && (b.dramRanks == 1 || b.dramRanks == 2) && decide (6400 ≤ b.dramRate)

/-- The highest rate of Table 6.14 that the DRAM reports. -/
def dramRateOf (b : Board) : Nat := if 8533 ≤ b.dramRate then 8533 else if 7500 ≤ b.dramRate then 7500 else 6400

/-- USABLE as R244 computes it from the DRAM fitted, the spare pools and the mirrored regions that stand. -/
def usableShow (s : State) : State :=
  s.setObj 0x3012 2 (usableWith s.dram.rawMiB { spare := s.obj 0x3012 8, regions := s.dram.regions.map (fun r => (r.1 / 1048576, r.2 / 1048576)) })

/-- S8: the DRAM as its training finds it; in the fallback it runs at 6,400 MT/s. One that Table 6.14 does not name is not used (DESIGN CHOICE, log 133). -/
def stepS8 (s : State) : State :=
  let b := s.start.board
  let s1 := domainsOn (stepDomains 8) s
  if dramSupported b then
    usableShow { s1 with dram := { s1.dram with rawMiB := b.dramMiB, rate := if (stepEntry s 8).variant = 1 then 6400 else dramRateOf b, ranks := b.dramRanks } }
  else usableShow { s1 with dram := { s1.dram with rawMiB := 0, rate := 0, ranks := 0 } }

/-- PE0_PERST_N and PE1_PERST_N are released: 100 ms after the ports' REFCLK has started (R527). -/
def perstReleased (s : State) : Bool := match s.start.peRef with | some t => decide (t + 100000000 ≤ s.time.clk) | none => false

/-- The EtherCAT part of S9: the block is on, with the SII contents in it (R361, R475). -/
def ecatStart (s : State) : State :=
  let s1 := setDomain 14 true s
  { s1 with ecat := { s1.ecat with sii := ((newerCopy (·.seq) s1.flash.persist).map (fun e => e.2.sii)).getD siiDelivered } }

/-- S9: PD12 to PD16; the links of the drives, at Gen3 in the fallback; SII contents into the EtherCAT block (R361); the training of the bride links that are
enabled begins (R424). -/
def stepS9 (s : State) : State :=
  let s1 := [0, 1].foldl (fun st d =>
    let x := driveLink st d
    let link := if (stepEntry s 9).variant = 1 then min 3 x.link else x.link
    ((st.setObji d 0x4400 2 (b2n x.present)).setObji d 0x4400 3 link).setObji d 0x4400 4 x.width) (domainsOn (stepDomains 9) s)
  linksTrain (ecatStart s1)

/-- S10 on one drive: capacity, LBA size and SMART values (Table 11.14); a drive without a valid superblock holds no volume. -/
def discover (s : State) (d : Nat) : State :=
  let x := driveLink s d
  if !x.present then s
  else
    let s1 := ((s.setObji d 0x4400 5 x.capacity).setObji d 0x4400 6 x.lba).setObji d 0x4400 0x0A x.mediaErrors
    let s2 := (s1.setObji d 0x4400 0x0B (celsius x.temperature)).setObji d 0x4400 0x0C x.percentUsed
    if x.blank then s2.setVol d {} else s2

/-- S10: discovery and journal mount (R462). -/
def stepS10 (s : State) : State := mount ([0, 1].foldl discover s)

/-- What a step that passes leaves. -/
def stepEffect (k : Nat) (s : State) : State :=
  if k = 0 then stepS0 s else if k = 1 then stepS1 s else if k = 3 then stepS3 s else if k = 4 then stepS4 s
  else if k = 5 then (List.range 64).foldl laneTest s else if k = 6 then stepS6 s else if k = 7 then runFirmware s else if k = 8 then stepS8 s
  else if k = 9 then stepS9 s else if k = 10 then stepS10 s else s

/-- The code with which a step ends at the present time: TIMEOUT past the maximum, else the outcome's, SCRAPPED at S3, SLOT_INVALID at S6. S5 never fails. -/
def stepCode (k : Nat) (o : StepOutcome) (s : State) : Nat :=
  if k = 5 then 0
  else if 1000000 * stepMax k < s.time.clk - s.start.stepAt then 1
  else if o.code ≠ 0 then o.code
  else if k = 3 ∧ s.fuses.lc = 4 then 5
  else if k = 6 ∧ !slotValid s then 6
  else 0

/-! ## Failures (R471, R474, R475) -/

/-- START_STEP records for the steps that did not pass or whose variant is not primary (R502). -/
def stepRecords (s : State) : State :=
  (List.range 14).foldl (fun st k =>
    let e := stepEntry st k
    if e.result = 1 ∧ e.variant = 0 then st
    else sample 0x0100 (leBytes k 1 ++ leBytes e.variant 1 ++ leBytes e.result 1 ++ leBytes 0 1 ++ leBytes e.code 2 ++ leBytes e.ms 2) st) s

/-- The device is left in START_HOLD (R474); code SLOT_INVALID holds it in loader mode, in which the loader completes the EtherCAT part of S9 (R475). -/
def startHold (k code : Nat) (s : State) : State :=
  let s1 := ((s.setObj 0x2001 0 3).setObj 0x2000 0x0B k).setObj 0x2000 0x0C code
  let s2 : State := { s1 with start := { s1.start with step := k } }
  let s3 := if k = 6 ∧ code = 6 then ecatStart (fwSlotAlarm (s2.setObj 0x2000 0x0D 1)) else if k = 9 ∧ code = 0x0A then ecatStart s2 else s2
  let s4 := recordShow s3
  recordChanged (if 4 < k then stepRecords s4 else s4)

/-- What the boot flash has been asked to do is done. -/
def flashSettle (s : State) : State :=
  s.flash.jobs.foldl (fun st j => flashNext (if j.erase then st.setFlash (intentDone j.addr st.flash) else flashEffect j.effect st)) s

/-- A mandatory step has failed: a restart with cause 5, once the mirror holds what changed after S6 (R473; DESIGN CHOICE, log entry 140), or
START_HOLD. -/
def stepFailed (k code ms : Nat) (s : State) : State :=
  let e := stepEntry s k
  let f := min 255 (e.fails + 1)
  let again := fun (fails variant : Nat) => resetState 5 false (flashSettle (recordChanged (stepFail k code ms fails variant s)))
  if code = 5 ∨ (k = 6 ∧ code = 6) then startHold k code (stepFail k code ms e.fails e.variant s)
  else if hasFallback k then
    (if e.variant = 1 then startHold k code (stepFail k code ms f 1 s) else if 2 ≤ f then again 0 1 else again f 0)
  else if 2 ≤ f then startHold k code (stepFail k code ms f 0 s)
  else again f 0

/-- An optional step has failed: the start goes on without it (after S10 without a volume), and after three failures it is skipped from the next start on. -/
def stepMissed (k code ms : Nat) (s : State) : State :=
  let f := min 255 ((stepEntry s k).fails + 1)
  let s1 := recordChanged (recordShow (stepFail k code ms f (if 3 ≤ f then 2 else 0) s))
  if k = 10 then journalState 0 s1 else s1

/-- What a step has done when it fails: its domains are on unless it has timed out, S3 has read the fuses of a unit that is SCRAPPED, and S6 has processed
the intent journal before it checks the slot (Table 12.3). -/
def stepReached (k code : Nat) (s : State) : State :=
  if code = 1 then s
  else if k = 6 ∨ (k = 3 ∧ code = 5) then stepEffect k s
  else domainsOn (stepDomains k) s

/-- START_RECIPE as S11 finds it (R270, R353): the value of the valid saved copy where it names a slot there is, else as it stands. The other saved values are
applied once the image is loaded (R355); this one says which image that is (DEDUCED, log 135). -/
def startRecipe (s : State) : State :=
  match newerCopy (·.seq) (savedValid s.flash.saved) with
  | none => s
  | some (_, c) =>
    let v := mget 0 c.values (odKey 0x3602 8)
    if v = 0xFF ∨ v < recipeSlots s then s.setObj 0x3602 8 v else s

/-- S11 waits for a device load on the config slave port (R469, R471). -/
def s11Waits (s : State) : Bool := s.obj 0x3602 8 == 0xFF || (stepEntry s 11).variant == 1

/-- S11 with the recipe slot of 0x3602:08: every check of Table 7.5 (R270). -/
def s11Load (ms : Nat) (s : State) : State :=
  let s1 := loadRecipe 0 (s.obj 0x3602 8) s
  let img := s1.load.buf
  match checkAll s1 0 img with
  | some f => stepFailed 11 0x0E ms (endLoad (some f) s1)
  | none => s11Done img (endLoad none (writeDevice img s1))

/-- A step in progress at the present time. S9C is part of S9 and shares its time (R468); from S9's beginning PE0_REFCLK and PE1_REFCLK are driven (R527). -/
def stepAtNow (k : Nat) (s : State) : State :=
  { s with start := { s.start with
      step := k, stepAt := if k = 13 then s.start.stepAt else s.time.clk, peRef := if k = 9 then some s.time.clk else s.start.peRef } }

/-- A step that is not skipped begins: from S10's beginning the journal is MOUNTING (Table 11.13). -/
def stepBegin (k : Nat) (s : State) : State := if k = 10 ∧ (stepEntry s k).variant ≠ 2 then journalState 1 (stepAtNow k s) else stepAtNow k s

/-- The steps run in order with the outcomes given; a step without one is still running. -/
def runSteps : List Nat → List StepOutcome → State → State
  | [], _, s => s
  | k :: ks, os, s =>
    let s0 := stepBegin k (if k = 11 then startRecipe s else s)
    if (stepEntry s k).variant = 2 then runSteps ks os (recordChanged (setEntry k { stepEntry s k with result := 3 } s0))
    else if k = 11 ∧ s11Waits s0 then { s0 with start := { s0.start with waitLoad := true } }
    else match os with
      | [] => s0
      | o :: rest =>
        let s1 := elapse k o.ms s0
        let code := stepCode k o s1
        if code = 0 then
          (if k = 11 then s11Load o.ms s1
          else
            runSteps ks rest (recordChanged (stepPass k o.ms (stepEffect k s1))))
        else
          let s2 := stepReached k code s1
          if isOptional k then runSteps ks rest (stepMissed k code o.ms s2) else stepFailed k code o.ms s2

/-- The classes of the VDDIO supplies when PORST_N rises: bit k is set for a supply above 2.5 V, which is of the 3.3 V class (R511). -/
def vddioClasses (b : Board) : Nat := ((List.range 4).map (fun k => if 2500 < b.vddio.getD k 0 then 2 ^ k else 0)).foldl (· + ·) 0

/-- RESET_RELEASE (R267, R467, R468): the device leaves reset with what the board shows, and the start steps run. -/
def execResetRelease (b : Board) (steps : List StepOutcome) (s : State) : Host.Outcome State Fault Refusal :=
  if !s.start.held then done s
  else
    let cause := if s.obj 0x2000 1 = 0 then 1 else s.obj 0x2000 1
    let s1 : State := { s with start := { s.start with held := false, relAt := s.time.clk, board := b }, flash := { s.flash with mib := b.flashMiB } }
    let s2 := (s1.setObj 0x2000 1 cause).setObj 0x2001 0 0
    let s3 := if cause ≤ 2 then s2.setObj 0x3601 6 (b.mode % 8) else s2
    let s4 := if cause = 1 then s3.setObj 0x2200 7 (vddioClasses b) else s3
    done (runSteps startSteps steps s4)

/-- What the running step has taken so far in nanoseconds; at S12 only from the fabric start on, since the wait for DONE does not count (R469). -/
def stepTaken (s : State) : Nat :=
  if s.start.step = 12 then (match s.start.fabricAt with | some a => s.t - a | none => 0) else s.time.clk - s.start.stepAt

/-- No step can exceed its maximum now: the device is held or its start is complete, S11 waits for a load, or S5 runs, which never fails. -/
def stepFree (s : State) : Bool := s.start.held || s.obj 0x2001 0 != 0 || s.start.waitLoad || s.start.step == 5

/-- START_STEP_TIMEOUT (R468, R469): the running step has exceeded its maximum; a wait for a device load or for DONE does not count. After an optional step
the start goes on with the outcomes given. -/
def execStartStepTimeout (steps : List StepOutcome) (s : State) : Host.Outcome State Fault Refusal :=
  let k := s.start.step
  if stepFree s || decide (stepTaken s < 1000000 * stepMax k) then done s
  else
    let ms := stepTaken s / 1000000
    if isOptional k then done (runSteps ((startSteps.dropWhile (· ≠ k)).drop 1) steps (stepMissed k 1 ms s)) else done (stepFailed k 1 ms s)

/-! ## DONE and the fabric start (R272, R273) -/

/-- DONE_HIGH_SEEN (R273): the fabric starts at the smallest whole multiple of 1,000 ns at or after T_d + 500 ns. -/
def execDoneHighSeen (s : State) : Host.Outcome State Fault Refusal :=
  if s.start.done ∧ !s.fabric ∧ s.start.fabricAt = none then
    done { s with start := { s.start with fabricAt := some (1000 * ((s.t + 500 + 999) / 1000)) } }
  else done s

/-- Alarms 82 and 83 and the records of a start that is complete (R473, R482, R501, R502, Table 11.4). -/
def startReport (s : State) : State :=
  let cause := s.obj 0x2000 1
  let s2 := if cause = 5 then raise 82 s else s
  let s3 := if s2.start.lost then raise 83 s2 else s2
  let s5 := s3.start.redone.foldl (fun st i => sample 0x0101 (leBytes i.addr 4 ++ leBytes i.purpose 1 ++ leBytes 0 3) st) s3
  let s6 := sample 6 (leBytes cause 1 ++ leBytes 0 3 ++ leBytes (s5.obj 0x5800 8 % 2 ^ 16) 4) (stepRecords s5)
  { s6 with start := { s6.start with lost := false, redone := [] } }

/-- The fabric leaves reset (R273, R330, R401, R433): pins, timers, shuttles and supervisors start. -/
def fabricStart (s : State) : State :=
  let s1 := tioStart { s with fabric := true, timersA := armPresets s.t s.timersA }
  canApply (fcUpdate ((List.range 68).foldl (fun st c => startCore c st) s1))

/-- FABRIC_START (R273, R468 S12): at the fixed instant the fabric starts, and the device is READY or DEGRADED. -/
def execFabricStart (s : State) : Host.Outcome State Fault Refusal :=
  match s.start.fabricAt with
  | none => done s
  | some a =>
    if s.fabric ∨ s.t < a then done s
    else
      let s1 := stepPass 12 ((s.time.clk - s.start.stepAt) / 1000000) (fabricStart s)
      let s2 := (s1.setObj 0x2000 2 ((s1.time.clk - s1.start.relAt) / 1000000)).setObj 0x2001 0 1
      done (mirrorTouch (startReport (deviceShow s2)))

end Sys2Proof.Machine
end

