-- ==== Sys2Proof/Machine/Dispatch.lean ====
section
/-! DEFINITION. The dispatch of the commands: one arm per constructor of Instr, each one direct call of its meaning. -/

namespace Sys2Proof.Machine
open Sys2Proof

/-- The effect of a command on everything but the queue of pending commands. -/
def exec (i : Instr) (s : State) : Host.Outcome State Fault Refusal :=
  match i with
  | .timeSourceWrite path v => Sys2Proof.Machine.execTimeSourceWrite path v s
  | .dcOffsetMeasurement dc => Sys2Proof.Machine.execDcOffsetMeasurement dc s
  | .dcReferenceLoss => Sys2Proof.Machine.execDcReferenceLoss s
  | .ppsEdge => Sys2Proof.Machine.execPpsEdge s
  | .ppsReferenceLoss => Sys2Proof.Machine.execPpsReferenceLoss s
  | .ppsNextWrite path v => Sys2Proof.Machine.execPpsNextWrite path v s
  | .timeStep dc => Sys2Proof.Machine.execTimeStep dc s
  | .ppsOutRise => Sys2Proof.Machine.execPpsOutRise s
  | .ppsOutFall => Sys2Proof.Machine.execPpsOutFall s
  | .epochBoundary q => Sys2Proof.Machine.execEpochBoundary q s
  | .tokenTimerFiring planeB n => Sys2Proof.Machine.execTokenTimerFiring planeB n s
  | .timerEnableWrite path n v => Sys2Proof.Machine.execTimerEnableWrite path n v s
  | .dualClockQueueDelivery q => Sys2Proof.Machine.execDualClockQueueDelivery q s
  | .mailboxExchange ecc => Sys2Proof.Machine.execMailboxExchange ecc s
  | .cellPass b => Sys2Proof.Machine.execCellPass b s
  | .cellAdd b => Sys2Proof.Machine.execCellAdd b s
  | .cellSub b => Sys2Proof.Machine.execCellSub b s
  | .cellNeg b => Sys2Proof.Machine.execCellNeg b s
  | .cellAbs b => Sys2Proof.Machine.execCellAbs b s
  | .cellAnd b => Sys2Proof.Machine.execCellAnd b s
  | .cellOr b => Sys2Proof.Machine.execCellOr b s
  | .cellXor b => Sys2Proof.Machine.execCellXor b s
  | .cellAndn b => Sys2Proof.Machine.execCellAndn b s
  | .cellNot b => Sys2Proof.Machine.execCellNot b s
  | .cellShl b => Sys2Proof.Machine.execCellShl b s
  | .cellShr b => Sys2Proof.Machine.execCellShr b s
  | .cellSar b => Sys2Proof.Machine.execCellSar b s
  | .cellRol b => Sys2Proof.Machine.execCellRol b s
  | .cellRor b => Sys2Proof.Machine.execCellRor b s
  | .cellCmpeq b => Sys2Proof.Machine.execCellCmpeq b s
  | .cellCmpne b => Sys2Proof.Machine.execCellCmpne b s
  | .cellCmplt b => Sys2Proof.Machine.execCellCmplt b s
  | .cellCmpltu b => Sys2Proof.Machine.execCellCmpltu b s
  | .cellCmple b => Sys2Proof.Machine.execCellCmple b s
  | .cellCmpleu b => Sys2Proof.Machine.execCellCmpleu b s
  | .cellSel b => Sys2Proof.Machine.execCellSel b s
  | .cellMin b => Sys2Proof.Machine.execCellMin b s
  | .cellMax b => Sys2Proof.Machine.execCellMax b s
  | .cellMinu b => Sys2Proof.Machine.execCellMinu b s
  | .cellMaxu b => Sys2Proof.Machine.execCellMaxu b s
  | .cellClz b => Sys2Proof.Machine.execCellClz b s
  | .cellAdds b => Sys2Proof.Machine.execCellAdds b s
  | .cellSubs b => Sys2Proof.Machine.execCellSubs b s
  | .cellAddsu b => Sys2Proof.Machine.execCellAddsu b s
  | .cellSubsu b => Sys2Proof.Machine.execCellSubsu b s
  | .cellSats b => Sys2Proof.Machine.execCellSats b s
  | .cellSatu b => Sys2Proof.Machine.execCellSatu b s
  | .cellMul b => Sys2Proof.Machine.execCellMul b s
  | .cellMulh b => Sys2Proof.Machine.execCellMulh b s
  | .cellMulhu b => Sys2Proof.Machine.execCellMulhu b s
  | .cellQmul31 b => Sys2Proof.Machine.execCellQmul31 b s
  | .cellQmul16 b => Sys2Proof.Machine.execCellQmul16 b s
  | .cellMac2 b => Sys2Proof.Machine.execCellMac2 b s
  | .cellMac2u b => Sys2Proof.Machine.execCellMac2u b s
  | .cellMsu2 b => Sys2Proof.Machine.execCellMsu2 b s
  | .cellMac2z b => Sys2Proof.Machine.execCellMac2z b s
  | .cellRdacc b => Sys2Proof.Machine.execCellRdacc b s
  | .cellFadd b => Sys2Proof.Machine.execCellFadd b s
  | .cellFsub b => Sys2Proof.Machine.execCellFsub b s
  | .cellFmul b => Sys2Proof.Machine.execCellFmul b s
  | .cellFma b => Sys2Proof.Machine.execCellFma b s
  | .cellFms b => Sys2Proof.Machine.execCellFms b s
  | .cellFnma b => Sys2Proof.Machine.execCellFnma b s
  | .cellFmin b => Sys2Proof.Machine.execCellFmin b s
  | .cellFmax b => Sys2Proof.Machine.execCellFmax b s
  | .cellFcmplt b => Sys2Proof.Machine.execCellFcmplt b s
  | .cellFcmple b => Sys2Proof.Machine.execCellFcmple b s
  | .cellFcmpeq b => Sys2Proof.Machine.execCellFcmpeq b s
  | .cellFtoi b => Sys2Proof.Machine.execCellFtoi b s
  | .cellFtoir b => Sys2Proof.Machine.execCellFtoir b s
  | .cellItof b => Sys2Proof.Machine.execCellItof b s
  | .cellFabs b => Sys2Proof.Machine.execCellFabs b s
  | .cellFneg b => Sys2Proof.Machine.execCellFneg b s
  | .cellFclass b => Sys2Proof.Machine.execCellFclass b s
  | .cellLut b => Sys2Proof.Machine.execCellLut b s
  | .cellLut4 b => Sys2Proof.Machine.execCellLut4 b s
  | .cellSdiff b => Sys2Proof.Machine.execCellSdiff b s
  | .cellSlt b => Sys2Proof.Machine.execCellSlt b s
  | .cellSle b => Sys2Proof.Machine.execCellSle b s
  | .cellSadd b => Sys2Proof.Machine.execCellSadd b s
  | .cellSlater b => Sys2Proof.Machine.execCellSlater b s
  | .cellSearlier b => Sys2Proof.Machine.execCellSearlier b s
  | .cellLd b => Sys2Proof.Machine.execCellLd b s
  | .cellSt b => Sys2Proof.Machine.execCellSt b s
  | .cellGather b => Sys2Proof.Machine.execCellGather b s
  | .cellSteer b => Sys2Proof.Machine.execCellSteer b s
  | .cellDrop b => Sys2Proof.Machine.execCellDrop b s
  | .cellCancel b => Sys2Proof.Machine.execCellCancel b s
  | .tokenDelivery m src => Sys2Proof.Machine.execTokenDelivery m src s
  | .matchEntryWaitTimeout m src => Sys2Proof.Machine.execMatchEntryWaitTimeout m src s
  | .orderWindowReached m pos => Sys2Proof.Machine.execOrderWindowReached m pos s
  | .winnerSelection m pos => Sys2Proof.Machine.execWinnerSelection m pos s
  | .instanceDispatch m pos ecc tok bad => Sys2Proof.Machine.execInstanceDispatch m pos ecc tok bad s
  | .cancelWordArrival m src => Sys2Proof.Machine.execCancelWordArrival m src s
  | .bankPowerWrite path m v => Sys2Proof.Machine.execBankPowerWrite path m v s
  | .bankPowerTransitionDone m bank => Sys2Proof.Machine.execBankPowerTransitionDone m bank s
  | .gatherStart m => Sys2Proof.Machine.execGatherStart m s
  | .gatherElementRead m ecc bad => Sys2Proof.Machine.execGatherElementRead m ecc bad s
  | .scrubRead w => Sys2Proof.Machine.execScrubRead w s
  | .contextRepair m kind pos slot ecc => Sys2Proof.Machine.execContextRepair m kind pos slot ecc s
  | .tidGrantNotice m tids => Sys2Proof.Machine.execTidGrantNotice m tids s
  | .suspendWrite path c v => Sys2Proof.Machine.execSuspendWrite path c v s
  | .openingNotice tid => Sys2Proof.Machine.execOpeningNotice tid s
  | .closeReport m tid => Sys2Proof.Machine.execCloseReport m tid s
  | .closeHandover m tid => Sys2Proof.Machine.execCloseHandover m tid s
  | .closeNotice tid ecc => Sys2Proof.Machine.execCloseNotice tid ecc s
  | .commitNotice m tid => Sys2Proof.Machine.execCommitNotice m tid s
  | .childRecheck tid ecc => Sys2Proof.Machine.execChildRecheck tid ecc s
  | .storeBufferDrain m ecc entry => Sys2Proof.Machine.execStoreBufferDrain m ecc entry s
  | .reentryInject => Sys2Proof.Machine.execReentryInject s
  | .selvedgeEntryArrival port => Sys2Proof.Machine.execSelvedgeEntryArrival port s
  | .deadlineCheck => Sys2Proof.Machine.execDeadlineCheck s
  | .releaseInstant bad => Sys2Proof.Machine.execReleaseInstant bad s
  | .portBusyRelease port => Sys2Proof.Machine.execPortBusyRelease port s
  | .tidReturn tid => Sys2Proof.Machine.execTidReturn tid s
  | .laneMismatchReport m bad => Sys2Proof.Machine.execLaneMismatchReport m bad s
  | .abortNotice m tid bad => Sys2Proof.Machine.execAbortNotice m tid bad s
  | .replayNotice tid => Sys2Proof.Machine.execReplayNotice tid s
  | .noReplayNotice tid => Sys2Proof.Machine.execNoReplayNotice tid s
  | .replayServiceInsert m => Sys2Proof.Machine.execReplayServiceInsert m s
  | .replayStreamStart m ecc bad => Sys2Proof.Machine.execReplayStreamStart m ecc bad s
  | .remapStart m bad => Sys2Proof.Machine.execRemapStart m bad s
  | .remapComplete m words => Sys2Proof.Machine.execRemapComplete m words s
  | .clearSuspectWrite path v => Sys2Proof.Machine.execClearSuspectWrite path v s
  | .pageCopyComplete page => Sys2Proof.Machine.execPageCopyComplete page s
  | .dramPatrolScrub addr ecc => Sys2Proof.Machine.execDramPatrolScrub addr ecc s
  | .flitCrcError x y port again => Sys2Proof.Machine.execFlitCrcError x y port again s
  | .driveResyncComplete drive n => Sys2Proof.Machine.execDriveResyncComplete drive n s
  | .packetInjection k => Sys2Proof.Machine.execPacketInjection k s
  | .routeCacheRefillDone k => Sys2Proof.Machine.execRouteCacheRefillDone k s
  | .packetForward x y port ecc bad => Sys2Proof.Machine.execPacketForward x y port ecc bad s
  | .urgencyAgeing inSource k => Sys2Proof.Machine.execUrgencyAgeing inSource k s
  | .packetDelivery x y edge => Sys2Proof.Machine.execPacketDelivery x y edge s
  | .readRequest x y edge ecc => Sys2Proof.Machine.execReadRequest x y edge ecc s
  | .writeRequest x y edge ecc => Sys2Proof.Machine.execWriteRequest x y edge ecc s
  | .pullRequest x y edge ecc => Sys2Proof.Machine.execPullRequest x y edge ecc s
  | .readResp k => Sys2Proof.Machine.execReadResp k s
  | .writeAck k => Sys2Proof.Machine.execWriteAck k s
  | .pullResp k => Sys2Proof.Machine.execPullResp k s
  | .streamQueueAppend hoop q => Sys2Proof.Machine.execStreamQueueAppend hoop q s
  | .routeEntryWriteLazy path v => Sys2Proof.Machine.execRouteEntryWriteLazy path v s
  | .routeEntryWriteInvalidate path v => Sys2Proof.Machine.execRouteEntryWriteInvalidate path v s
  | .routeInvalidationComplete => Sys2Proof.Machine.execRouteInvalidationComplete s
  | .flushAllWrite path v => Sys2Proof.Machine.execFlushAllWrite path v s
  | .hoopBankPowerWrite path h v => Sys2Proof.Machine.execHoopBankPowerWrite path h v s
  | .hoopBankTransitionDone h bank => Sys2Proof.Machine.execHoopBankTransitionDone h bank s
  | .dramRequestService ecc pick => Sys2Proof.Machine.execDramRequestService ecc pick s
  | .islandWipeComplete => Sys2Proof.Machine.execIslandWipeComplete s
  | .cfgWidthSample mode => Sys2Proof.Machine.execCfgWidthSample mode s
  | .imageBeginDeviceLoad bs => Sys2Proof.Machine.execImageBeginDeviceLoad bs s
  | .imageBeginRegionReload bs => Sys2Proof.Machine.execImageBeginRegionReload bs s
  | .imageBeginShadowLoad bs => Sys2Proof.Machine.execImageBeginShadowLoad bs s
  | .imageBeginRecipeStore bs => Sys2Proof.Machine.execImageBeginRecipeStore bs s
  | .imageData bs => Sys2Proof.Machine.execImageData bs s
  | .imageEnd bs => Sys2Proof.Machine.execImageEnd bs s
  | .imageAbort bs => Sys2Proof.Machine.execImageAbort bs s
  | .loadCheckComplete failed => Sys2Proof.Machine.execLoadCheckComplete failed s
  | .sdoFrameRead bs => Sys2Proof.Machine.execSdoFrameRead bs s
  | .sdoFrameWrite bs => Sys2Proof.Machine.execSdoFrameWrite bs s
  | .sdoFrameCaRead bs => Sys2Proof.Machine.execSdoFrameCaRead bs s
  | .sdoFrameCaWrite bs => Sys2Proof.Machine.execSdoFrameCaWrite bs s
  | .bqWrite bs => Sys2Proof.Machine.execBqWrite bs s
  | .readStatus bs => Sys2Proof.Machine.execReadStatus bs s
  | .readSdoResponse bs => Sys2Proof.Machine.execReadSdoResponse bs s
  | .readBq bs => Sys2Proof.Machine.execReadBq bs s
  | .foeWriteRecipe slot pw req bs => Sys2Proof.Machine.execFoeWriteRecipe slot pw req bs s
  | .foeWriteShadow pw req bs => Sys2Proof.Machine.execFoeWriteShadow pw req bs s
  | .foeWriteRegion pw req bs => Sys2Proof.Machine.execFoeWriteRegion pw req bs s
  | .foeReadRecipe slot pw req => Sys2Proof.Machine.execFoeReadRecipe slot pw req s
  | .foeWriteFirmware pw req bs => Sys2Proof.Machine.execFoeWriteFirmware pw req bs s
  | .foeReadFirmware pw => Sys2Proof.Machine.execFoeReadFirmware pw s
  | .doneHighSeen => Sys2Proof.Machine.execDoneHighSeen s
  | .fabricStart => Sys2Proof.Machine.execFabricStart s
  | .regionDrained => Sys2Proof.Machine.execRegionDrained s
  | .regionLeaveReset => Sys2Proof.Machine.execRegionLeaveReset s
  | .controlStartLoad path => Sys2Proof.Machine.execControlStartLoad path s
  | .controlAcknowledge path => Sys2Proof.Machine.execControlAcknowledge path s
  | .coIdWrite path v => Sys2Proof.Machine.execCoIdWrite path v s
  | .tCWrite path v => Sys2Proof.Machine.execTCWrite path v s
  | .changeoverArm => Sys2Proof.Machine.execChangeoverArm s
  | .commitWrite path v => Sys2Proof.Machine.execCommitWrite path v s
  | .cancelWrite path v => Sys2Proof.Machine.execCancelWrite path v s
  | .prepareDeadline => Sys2Proof.Machine.execPrepareDeadline s
  | .changeoverInstant => Sys2Proof.Machine.execChangeoverInstant s
  | .oldPlaneRetire => Sys2Proof.Machine.execOldPlaneRetire s
  | .voteFrame l bs => Sys2Proof.Machine.execVoteFrame l bs s
  | .fzAdd c rd ra rb => Sys2Proof.Machine.execFzAdd c rd ra rb s
  | .fzSub c rd ra rb => Sys2Proof.Machine.execFzSub c rd ra rb s
  | .fzAnd c rd ra rb => Sys2Proof.Machine.execFzAnd c rd ra rb s
  | .fzOr c rd ra rb => Sys2Proof.Machine.execFzOr c rd ra rb s
  | .fzXor c rd ra rb => Sys2Proof.Machine.execFzXor c rd ra rb s
  | .fzAndn c rd ra rb => Sys2Proof.Machine.execFzAndn c rd ra rb s
  | .fzSll c rd ra rb => Sys2Proof.Machine.execFzSll c rd ra rb s
  | .fzSrl c rd ra rb => Sys2Proof.Machine.execFzSrl c rd ra rb s
  | .fzSra c rd ra rb => Sys2Proof.Machine.execFzSra c rd ra rb s
  | .fzRor c rd ra rb => Sys2Proof.Machine.execFzRor c rd ra rb s
  | .fzSlt c rd ra rb => Sys2Proof.Machine.execFzSlt c rd ra rb s
  | .fzSltu c rd ra rb => Sys2Proof.Machine.execFzSltu c rd ra rb s
  | .fzMin c rd ra rb => Sys2Proof.Machine.execFzMin c rd ra rb s
  | .fzMax c rd ra rb => Sys2Proof.Machine.execFzMax c rd ra rb s
  | .fzClz c rd ra => Sys2Proof.Machine.execFzClz c rd ra s
  | .fzMul c rd ra rb => Sys2Proof.Machine.execFzMul c rd ra rb s
  | .fzMulh c rd ra rb => Sys2Proof.Machine.execFzMulh c rd ra rb s
  | .fzMulhu c rd ra rb => Sys2Proof.Machine.execFzMulhu c rd ra rb s
  | .fzDiv c rd ra rb => Sys2Proof.Machine.execFzDiv c rd ra rb s
  | .fzDivu c rd ra rb => Sys2Proof.Machine.execFzDivu c rd ra rb s
  | .fzRem c rd ra rb => Sys2Proof.Machine.execFzRem c rd ra rb s
  | .fzRemu c rd ra rb => Sys2Proof.Machine.execFzRemu c rd ra rb s
  | .fzAddi c rd ra imm => Sys2Proof.Machine.execFzAddi c rd ra imm s
  | .fzAndi c rd ra imm => Sys2Proof.Machine.execFzAndi c rd ra imm s
  | .fzOri c rd ra imm => Sys2Proof.Machine.execFzOri c rd ra imm s
  | .fzXori c rd ra imm => Sys2Proof.Machine.execFzXori c rd ra imm s
  | .fzSlti c rd ra imm => Sys2Proof.Machine.execFzSlti c rd ra imm s
  | .fzSltiu c rd ra imm => Sys2Proof.Machine.execFzSltiu c rd ra imm s
  | .fzSlli c rd ra imm => Sys2Proof.Machine.execFzSlli c rd ra imm s
  | .fzSrli c rd ra imm => Sys2Proof.Machine.execFzSrli c rd ra imm s
  | .fzSrai c rd ra imm => Sys2Proof.Machine.execFzSrai c rd ra imm s
  | .fzLui c rd imm => Sys2Proof.Machine.execFzLui c rd imm s
  | .fzLw c rd ra imm ecc => Sys2Proof.Machine.execFzLw c rd ra imm ecc s
  | .fzLh c rd ra imm ecc => Sys2Proof.Machine.execFzLh c rd ra imm ecc s
  | .fzLhu c rd ra imm ecc => Sys2Proof.Machine.execFzLhu c rd ra imm ecc s
  | .fzLb c rd ra imm ecc => Sys2Proof.Machine.execFzLb c rd ra imm ecc s
  | .fzLbu c rd ra imm ecc => Sys2Proof.Machine.execFzLbu c rd ra imm ecc s
  | .fzSwap c rd ra imm ecc => Sys2Proof.Machine.execFzSwap c rd ra imm ecc s
  | .fzSw c rs ra imm ecc => Sys2Proof.Machine.execFzSw c rs ra imm ecc s
  | .fzSh c rs ra imm ecc => Sys2Proof.Machine.execFzSh c rs ra imm ecc s
  | .fzSb c rs ra imm ecc => Sys2Proof.Machine.execFzSb c rs ra imm ecc s
  | .fzClw c rd ra imm => Sys2Proof.Machine.execFzClw c rd ra imm s
  | .fzClh c rd ra imm => Sys2Proof.Machine.execFzClh c rd ra imm s
  | .fzClb c rd ra imm => Sys2Proof.Machine.execFzClb c rd ra imm s
  | .fzCld c rd ra imm => Sys2Proof.Machine.execFzCld c rd ra imm s
  | .fzCsw c rs ra imm => Sys2Proof.Machine.execFzCsw c rs ra imm s
  | .fzCsh c rs ra imm => Sys2Proof.Machine.execFzCsh c rs ra imm s
  | .fzCsb c rs ra imm => Sys2Proof.Machine.execFzCsb c rs ra imm s
  | .fzCsd c rs ra imm => Sys2Proof.Machine.execFzCsd c rs ra imm s
  | .fzBeq c ra rb disp => Sys2Proof.Machine.execFzBeq c ra rb disp s
  | .fzBne c ra rb disp => Sys2Proof.Machine.execFzBne c ra rb disp s
  | .fzBlt c ra rb disp => Sys2Proof.Machine.execFzBlt c ra rb disp s
  | .fzBge c ra rb disp => Sys2Proof.Machine.execFzBge c ra rb disp s
  | .fzBltu c ra rb disp => Sys2Proof.Machine.execFzBltu c ra rb disp s
  | .fzBgeu c ra rb disp => Sys2Proof.Machine.execFzBgeu c ra rb disp s
  | .fzJ c disp => Sys2Proof.Machine.execFzJ c disp s
  | .fzJal c disp => Sys2Proof.Machine.execFzJal c disp s
  | .fzJalr c rd ra imm => Sys2Proof.Machine.execFzJalr c rd ra imm s
  | .fzCtx c ra ecc => Sys2Proof.Machine.execFzCtx c ra ecc s
  | .fzSavl c => Sys2Proof.Machine.execFzSavl c s
  | .fzSavu c => Sys2Proof.Machine.execFzSavu c s
  | .fzRstl c ecc => Sys2Proof.Machine.execFzRstl c ecc s
  | .fzRstu c ecc => Sys2Proof.Machine.execFzRstu c ecc s
  | .fzSavf c => Sys2Proof.Machine.execFzSavf c s
  | .fzRstf c ecc => Sys2Proof.Machine.execFzRstf c ecc s
  | .fzRfe c ecc => Sys2Proof.Machine.execFzRfe c ecc s
  | .fzRfi c => Sys2Proof.Machine.execFzRfi c s
  | .fzWait c => Sys2Proof.Machine.execFzWait c s
  | .fzWaitWake c => Sys2Proof.Machine.execFzWaitWake c s
  | .fzSys c => Sys2Proof.Machine.execFzSys c s
  | .fzBrk c => Sys2Proof.Machine.execFzBrk c s
  | .fzFence c => Sys2Proof.Machine.execFzFence c s
  | .fzEi c => Sys2Proof.Machine.execFzEi c s
  | .fzDi c => Sys2Proof.Machine.execFzDi c s
  | .fzFadd c fd fa fb ecc => Sys2Proof.Machine.execFzFadd c fd fa fb ecc s
  | .fzFsub c fd fa fb ecc => Sys2Proof.Machine.execFzFsub c fd fa fb ecc s
  | .fzFmul c fd fa fb ecc => Sys2Proof.Machine.execFzFmul c fd fa fb ecc s
  | .fzFdiv c fd fa fb ecc => Sys2Proof.Machine.execFzFdiv c fd fa fb ecc s
  | .fzFsqrt c fd fa ecc => Sys2Proof.Machine.execFzFsqrt c fd fa ecc s
  | .fzFma c fd fa fb fc ecc => Sys2Proof.Machine.execFzFma c fd fa fb fc ecc s
  | .fzFms c fd fa fb fc ecc => Sys2Proof.Machine.execFzFms c fd fa fb fc ecc s
  | .fzFnma c fd fa fb fc ecc => Sys2Proof.Machine.execFzFnma c fd fa fb fc ecc s
  | .fzFmin c fd fa fb ecc => Sys2Proof.Machine.execFzFmin c fd fa fb ecc s
  | .fzFmax c fd fa fb ecc => Sys2Proof.Machine.execFzFmax c fd fa fb ecc s
  | .fzFcmplt c rd fa fb ecc => Sys2Proof.Machine.execFzFcmplt c rd fa fb ecc s
  | .fzFcmple c rd fa fb ecc => Sys2Proof.Machine.execFzFcmple c rd fa fb ecc s
  | .fzFcmpeq c rd fa fb ecc => Sys2Proof.Machine.execFzFcmpeq c rd fa fb ecc s
  | .fzFtoi c rd fa ecc => Sys2Proof.Machine.execFzFtoi c rd fa ecc s
  | .fzFtoir c rd fa ecc => Sys2Proof.Machine.execFzFtoir c rd fa ecc s
  | .fzItof c fd ra ecc => Sys2Proof.Machine.execFzItof c fd ra ecc s
  | .fzFmvgf c fd ra ecc => Sys2Proof.Machine.execFzFmvgf c fd ra ecc s
  | .fzFmvfg c rd fa ecc => Sys2Proof.Machine.execFzFmvfg c rd fa ecc s
  | .fzFabs c fd fa ecc => Sys2Proof.Machine.execFzFabs c fd fa ecc s
  | .fzFneg c fd fa ecc => Sys2Proof.Machine.execFzFneg c fd fa ecc s
  | .fzFlw c fd ra imm ecc => Sys2Proof.Machine.execFzFlw c fd ra imm ecc s
  | .fzFsw c fs ra imm ecc => Sys2Proof.Machine.execFzFsw c fs ra imm ecc s
  | .interruptEntry c => Sys2Proof.Machine.execInterruptEntry c s
  | .replayqPop c rd => Sys2Proof.Machine.execReplayqPop c rd s
  | .replayRequestWrite c rs => Sys2Proof.Machine.execReplayRequestWrite c rs s
  | .txdataAppend c rs => Sys2Proof.Machine.execTxdataAppend c rs s
  | .txlastSend c rs => Sys2Proof.Machine.execTxlastSend c rs s
  | .rxheadRead c rd => Sys2Proof.Machine.execRxheadRead c rd s
  | .rxdataPop c rd => Sys2Proof.Machine.execRxdataPop c rd s
  | .excountRead c rd => Sys2Proof.Machine.execExcountRead c rd s
  | .latchedPairRead c rd addr => Sys2Proof.Machine.execLatchedPairRead c rd addr s
  | .wdogWrite c rs => Sys2Proof.Machine.execWdogWrite c rs s
  | .pullreqWrite c rs => Sys2Proof.Machine.execPullreqWrite c rs s
  | .doorbellWrite c rs => Sys2Proof.Machine.execDoorbellWrite c rs s
  | .shctlStop c n => Sys2Proof.Machine.execShctlStop c n s
  | .shctlRestart c n => Sys2Proof.Machine.execShctlRestart c n s
  | .ibindWrite c high rs => Sys2Proof.Machine.execIbindWrite c high rs s
  | .watchdogWarning => Sys2Proof.Machine.execWatchdogWarning s
  | .watchdogExpiry => Sys2Proof.Machine.execWatchdogExpiry s
  | .mpRestartDone => Sys2Proof.Machine.execMpRestartDone s
  | .supervisorTimerExpiry h => Sys2Proof.Machine.execSupervisorTimerExpiry h s
  | .mpTimerExpiry => Sys2Proof.Machine.execMpTimerExpiry s
  | .supervisorRestartWrite path h v => Sys2Proof.Machine.execSupervisorRestartWrite path h v s
  | .shuttleRestartWrite path v => Sys2Proof.Machine.execShuttleRestartWrite path v s
  | .objectWrite path ix sub size bs => Sys2Proof.Machine.execObjectWrite path ix sub size bs s
  | .sdoUpload path ix sub ecc => Sys2Proof.Machine.execSdoUpload path ix sub ecc s
  | .sdoCompleteAccessRead path ix from1 ecc => Sys2Proof.Machine.execSdoCompleteAccessRead path ix from1 ecc s
  | .sdoCompleteAccessWrite path ix from1 size bs => Sys2Proof.Machine.execSdoCompleteAccessWrite path ix from1 size bs s
  | .sdoSegment path toggle last bs => Sys2Proof.Machine.execSdoSegment path toggle last bs s
  | .sdoSegmentTimeout path => Sys2Proof.Machine.execSdoSegmentTimeout path s
  | .sdoBlockRequest path ix sub => Sys2Proof.Machine.execSdoBlockRequest path ix sub s
  | .sdoAbortRequest path => Sys2Proof.Machine.execSdoAbortRequest path s
  | .sdoInfoObjectList typ => Sys2Proof.Machine.execSdoInfoObjectList typ s
  | .sdoInfoObjectDesc ix => Sys2Proof.Machine.execSdoInfoObjectDesc ix s
  | .sdoInfoEntryDesc ix sub => Sys2Proof.Machine.execSdoInfoEntryDesc ix sub s
  | .mailboxRepeatRequest => Sys2Proof.Machine.execMailboxRepeatRequest s
  | .secureResponseDue => Sys2Proof.Machine.execSecureResponseDue s
  | .saveWrite path v => Sys2Proof.Machine.execSaveWrite path v s
  | .saveComplete => Sys2Proof.Machine.execSaveComplete s
  | .restoreDefaultsWrite path v => Sys2Proof.Machine.execRestoreDefaultsWrite path v s
  | .lockWrite path v => Sys2Proof.Machine.execLockWrite path v s
  | .alStateRequest q => Sys2Proof.Machine.execAlStateRequest q s
  | .smWatchdogExpiry => Sys2Proof.Machine.execSmWatchdogExpiry s
  | .rxpdoBufferSwitch ago bs => Sys2Proof.Machine.execRxpdoBufferSwitch ago bs s
  | .txpdoCapture => Sys2Proof.Machine.execTxpdoCapture s
  | .ethercatFrameError port => Sys2Proof.Machine.execEthercatFrameError port s
  | .syncEvent n => Sys2Proof.Machine.execSyncEvent n s
  | .latchEvent n falling dc => Sys2Proof.Machine.execLatchEvent n falling dc s
  | .siiWrite a bs => Sys2Proof.Machine.execSiiWrite a bs s
  | .emcyMailboxRead => Sys2Proof.Machine.execEmcyMailboxRead s
  | .canEmcyFrameSent => Sys2Proof.Machine.execCanEmcyFrameSent s
  | .nmtStartRemoteNode target => Sys2Proof.Machine.execNmtStartRemoteNode target s
  | .nmtStopRemoteNode target => Sys2Proof.Machine.execNmtStopRemoteNode target s
  | .nmtEnterPreOperational target => Sys2Proof.Machine.execNmtEnterPreOperational target s
  | .nmtResetNode target => Sys2Proof.Machine.execNmtResetNode target s
  | .nmtResetCommunication target => Sys2Proof.Machine.execNmtResetCommunication target s
  | .heartbeatTimer => Sys2Proof.Machine.execHeartbeatTimer s
  | .canFrameReceived w0 ago passive bs => Sys2Proof.Machine.execCanFrameReceived w0 ago passive bs s
  | .canBusOff => Sys2Proof.Machine.execCanBusOff s
  | .canBusOffRecovery => Sys2Proof.Machine.execCanBusOffRecovery s
  | .mpLoadWindow load => Sys2Proof.Machine.execMpLoadWindow load s
  | .tioInputEdge p level => Sys2Proof.Machine.execTioInputEdge p level s
  | .tioDeglitchPass p => Sys2Proof.Machine.execTioDeglitchPass p s
  | .tioBurstSummary p => Sys2Proof.Machine.execTioBurstSummary p s
  | .tioStuckTimeout p => Sys2Proof.Machine.execTioStuckTimeout p s
  | .tioTokenQueueEntry p => Sys2Proof.Machine.execTioTokenQueueEntry p s
  | .pulseTrainEdge p => Sys2Proof.Machine.execPulseTrainEdge p s
  | .deLeadStart ch => Sys2Proof.Machine.execDeLeadStart ch s
  | .uartFrameEnd ch ago bytes => Sys2Proof.Machine.execUartFrameEnd ch ago bytes s
  | .ssiPoll ch => Sys2Proof.Machine.execSsiPoll ch s
  | .ssiReadComplete ch pos st err => Sys2Proof.Machine.execSsiReadComplete ch pos st err s
  | .driveResponseReceived ch ago bytes => Sys2Proof.Machine.execDriveResponseReceived ch ago bytes s
  | .driveResponseTimeout ch => Sys2Proof.Machine.execDriveResponseTimeout ch s
  | .csiFrameStart cam vc number rate => Sys2Proof.Machine.execCsiFrameStart cam vc number rate s
  | .csiLineStart cam vc => Sys2Proof.Machine.execCsiLineStart cam vc s
  | .csiLongPacket cam q => Sys2Proof.Machine.execCsiLongPacket cam q s
  | .csiFrameEnd cam vc => Sys2Proof.Machine.execCsiFrameEnd cam vc s
  | .i2cXferWrite path bytes => Sys2Proof.Machine.execI2cXferWrite path bytes s
  | .i2cTransferEnd cam code bytes => Sys2Proof.Machine.execI2cTransferEnd cam code bytes s
  | .linkTokenFrame l bs => Sys2Proof.Machine.execLinkTokenFrame l bs s
  | .linkRelayFrame l bs => Sys2Proof.Machine.execLinkRelayFrame l bs s
  | .linkIdleFrame l bs => Sys2Proof.Machine.execLinkIdleFrame l bs s
  | .linkResendTimeout l => Sys2Proof.Machine.execLinkResendTimeout l s
  | .linkIdleTimer l => Sys2Proof.Machine.execLinkIdleTimer l s
  | .voteTimer => Sys2Proof.Machine.execVoteTimer s
  | .linkTrainingDone l => Sys2Proof.Machine.execLinkTrainingDone l s
  | .linkLossOfLock l => Sys2Proof.Machine.execLinkLossOfLock l s
  | .bqPacketReadout q => Sys2Proof.Machine.execBqPacketReadout q s
  | .alarmEvent a => Sys2Proof.Machine.execAlarmEvent a s
  | .alarmClearWrite path v => Sys2Proof.Machine.execAlarmClearWrite path v s
  | .samplerRecordOffer typ t payload => Sys2Proof.Machine.execSamplerRecordOffer typ t payload s
  | .samplerReleaseWrite path n => Sys2Proof.Machine.execSamplerReleaseWrite path n s
  | .traceExportRead path => Sys2Proof.Machine.execTraceExportRead path s
  | .traceExportCopy => Sys2Proof.Machine.execTraceExportCopy s
  | .journalRecordLeave => Sys2Proof.Machine.execJournalRecordLeave s
  | .journalBlockWrite => Sys2Proof.Machine.execJournalBlockWrite s
  | .nvmeCommandComplete drive n failed => Sys2Proof.Machine.execNvmeCommandComplete drive n failed s
  | .nvmeCommandTimeout drive n => Sys2Proof.Machine.execNvmeCommandTimeout drive n s
  | .journalBlockRead path => Sys2Proof.Machine.execJournalBlockRead path s
  | .formatMirrored path => Sys2Proof.Machine.execFormatMirrored path s
  | .formatStriped path => Sys2Proof.Machine.execFormatStriped path s
  | .journalEnableTrue path => Sys2Proof.Machine.execJournalEnableTrue path s
  | .journalEnableFalse path => Sys2Proof.Machine.execJournalEnableFalse path s
  | .porstNReset width aonLost => Sys2Proof.Machine.execPorstNReset width aonLost s
  | .supplyMonitorReset rail mv width aonLost => Sys2Proof.Machine.execSupplyMonitorReset rail mv width aonLost s
  | .resetNReset width => Sys2Proof.Machine.execResetNReset width s
  | .restartWrite path v => Sys2Proof.Machine.execRestartWrite path v s
  | .requestedReset => Sys2Proof.Machine.execRequestedReset s
  | .resetRelease b steps => Sys2Proof.Machine.execResetRelease b steps s
  | .startStepTimeout steps => Sys2Proof.Machine.execStartStepTimeout steps s
  | .clearRecordWrite path v => Sys2Proof.Machine.execClearRecordWrite path v s
  | .stopWrite path v => Sys2Proof.Machine.execStopWrite path v s
  | .stopDrained => Sys2Proof.Machine.execStopDrained s
  | .flashEraseComplete => Sys2Proof.Machine.execFlashEraseComplete s
  | .flashProgramComplete => Sys2Proof.Machine.execFlashProgramComplete s
  | .fwBegin path bs => Sys2Proof.Machine.execFwBegin path bs s
  | .fwBlockHalf path bs => Sys2Proof.Machine.execFwBlockHalf path bs s
  | .fwEnd path bs => Sys2Proof.Machine.execFwEnd path bs s
  | .fwAbort path v => Sys2Proof.Machine.execFwAbort path v s
  | .updateVerdict => Sys2Proof.Machine.execUpdateVerdict s
  | .activateAtWrite path v => Sys2Proof.Machine.execActivateAtWrite path v s
  | .activationInstant => Sys2Proof.Machine.execActivationInstant s
  | .lcRequestProv path => Sys2Proof.Machine.execLcRequestProv path s
  | .lcRequestFiel path => Sys2Proof.Machine.execLcRequestFiel path s
  | .lcRequestRetn path => Sys2Proof.Machine.execLcRequestRetn path s
  | .lcRequestScrp path => Sys2Proof.Machine.execLcRequestScrp path s
  | .authWrite path bs => Sys2Proof.Machine.execAuthWrite path bs s
  | .challengeWrite path bs => Sys2Proof.Machine.execChallengeWrite path bs s
  | .imageKeyHashWrite path n bs => Sys2Proof.Machine.execImageKeyHashWrite path n bs s
  | .securityReleaseWrite path v => Sys2Proof.Machine.execSecurityReleaseWrite path v s
  | .tamperEvent => Sys2Proof.Machine.execTamperEvent s
  | .domainOnWrite path => Sys2Proof.Machine.execDomainOnWrite path s
  | .domainOffWrite path => Sys2Proof.Machine.execDomainOffWrite path s
  | .domainSwitchDone => Sys2Proof.Machine.execDomainSwitchDone s
  | .domainSwitchTimeout => Sys2Proof.Machine.execDomainSwitchTimeout s
  | .referenceClockStop => Sys2Proof.Machine.execReferenceClockStop s
  | .dcSystemTimeUpdate dc => Sys2Proof.Machine.execDcSystemTimeUpdate dc s
  | .pcieLinkDown drive => Sys2Proof.Machine.execPcieLinkDown drive s
  | .ethercatPortLinkChange port up => Sys2Proof.Machine.execEthercatPortLinkChange port up s
  | .reservedEncoding c w => Sys2Proof.Machine.execReservedEncoding c w s
  | .instructionFetchFault c ecc => Sys2Proof.Machine.execInstructionFetchFault c ecc s
  | .orderlyStopWaitExpiry => Sys2Proof.Machine.execOrderlyStopWaitExpiry s
  | .operatingTimeSecond => Sys2Proof.Machine.execOperatingTimeSecond s

end Sys2Proof.Machine
end

