-- ==== Sys2Proof/Machine/Step.lean ====
section
/-! DEFINITION. One step of the block: the command at the front of the queue acts; on an empty queue one CD0 cycle passes. -/

namespace Sys2Proof.Machine
open Sys2Proof

/-- The next step: the oldest pending command acts on the state with the queue's rest; with no command pending, one cycle of CD0 passes
(R12). DESIGN CHOICE, log entry 1. -/
def step (s : State) : Host.Outcome State Fault Refusal :=
  match s.pending with
  | [] => .next (tick s)
  | c :: cs => exec c { s with pending := cs }

/-- The state with the command that a table word spells put at the front of its queue; unchanged where the word spells none. -/
def State.withFetchWord (s : State) (nbits w : Nat) : State :=
  match decodeTableWord nbits w with
  | none => s
  | some c => { s with pending := c :: s.pending }

end Sys2Proof.Machine
end

