-- ==== Sys2Proof/Safety.lean ====
section
/-! DEFINITION. What claims about runs are said in: the invariant of every state a step leaves, and what no step takes back. -/

namespace Sys2Proof
open Sys2Proof.Machine

/-- The invariant of the machine: the dictionary store is in canonical form, the time base T fits its 64 bits (R11), and the life-cycle state is one
of the five (R495). -/
structure Inv (s : State) : Prop where
  od : mwf 0 s.od = true
  time : s.time.t < 2 ^ 64
  lc : s.fuses.lc ≤ 4

/-- What no command takes back: the queue of pending commands is untouched, elapsed time and used free values never run backward, the life-cycle
state never falls back, and destroyed unit keys stay destroyed (R498). -/
structure Onward (s s' : State) : Prop where
  pending : s'.pending = s.pending
  clk : s.time.clk ≤ s'.time.clk
  free : s.free ≤ s'.free
  lc : s.fuses.lc ≤ s'.fuses.lc
  destroyed : s.fuses.destroyed = true → s'.fuses.destroyed = true

/-- A write of a value of `size` bytes that its path carries now, that no other request delays, and that no device-wide condition refuses
(R266, R347, R350, R366, R474). -/
structure Accepts (s : State) (path ix sub size v : Nat) : Prop where
  fits : v < 2 ^ (8 * size)
  serves : pathServes s path = true
  idle : pathFree s path = true
  free : s.sdoRun = none
  mp : mpDown s = false
  gate : sdoGate s { path := path, kind := 1, ix := ix, sub := sub, data := leBytes v size } = 0

/-- A request that its path carries now, that no other request delays, and that no device-wide condition refuses (R266, R347, R350). -/
structure Serves (s : State) (q : SdoReq) : Prop where
  serves : pathServes s q.path = true
  idle : pathFree s q.path = true
  free : s.sdoRun = none
  mp : mpDown s = false
  gate : sdoGate (arrives q.path s) q = 0

/-- A path that takes a request for the security island: it carries SDO and has none under way (R384). -/
structure Sends (s : State) (path : Nat) : Prop where
  serves : pathServes s path = true
  idle : pathFree s path = true

/-- The state after a secure request is taken (R384): its path waits, and the answer is due 500 µs later. -/
def secureTaken (q : SdoReq) (s : State) : State :=
  { (arrives q.path s).setPath q.path { s.path q.path with busy := true, answered := false, since := s.time.clk } with
    secure := (arrives q.path s).secure ++ [{ req := q, due := s.time.clk + 500000, at' := mailboxFree s }] }

/-! ## Frames on the config slave port -/

/-- A frame that the port takes as the next one (R261 to R263): the port has a width, CFG_RDY is high, the frame is intact, its SEQ follows and its target mask is legal. -/
structure HostTakes (s : State) (bs : List Byte) : Prop where
  width : s.cfg.width = some 0 ∨ s.cfg.width = some 1 ∨ s.cfg.width = some 2
  ready : cfgReady s = true
  intact : hostIntact bs = true
  fresh : s.cfg.lastSeq ≠ some (hostParse bs).seq
  next : ∀ q, s.cfg.lastSeq = some q → (hostParse bs).seq = (q + 1) % 65536
  mask : hostMaskOk (hostParse bs) = true

/-- A row of host frames: a taken frame of the row's kind that addresses the unit and whose effect is `u` is accepted, and relayed (R262, R426). -/
def HostRow (mk : FrameData → Instr) (kind : Nat → Nat → Bool) : Prop :=
  ∀ (data : FrameData) (bs : List Byte) (f : HostFrame) (s u : State), bs = data.map (BitVec.ofNat 8) → f = hostParse bs → HostTakes s bs →
    kind (le bs 2 1) (le bs 8 1) = true →
    (bit f.mask (s.obj 0x3601 6) = true → hostAct f s = some u →
      exec (mk data) s = .next (hostRelay (bs.take (12 + f.len)) f { u with cfg := { u.cfg with lastSeq := some f.seq } })) ∧
    (bit f.mask (s.obj 0x3601 6) = false →
      exec (mk data) s = .next (hostRelay (bs.take (12 + f.len)) f { s with cfg := { s.cfg with lastSeq := some f.seq } }))

/-! ## Fizhaig instructions -/

/-- Core c issues the instruction at a pc it can fetch from, and no error of an earlier load or store is to be raised first (R296 to R298). -/
structure FzRuns (c : Nat) (s : State) : Prop where
  issues : fzIssues s c = true
  quiet : boundaryDue (s.core c) = false
  fetch : fzFetchable c (s.core c) (s.core c).here = true

/-- What follows a completed instruction: the other half may issue next, and the first boundary of the bank that issues is seen to (R298, R331). -/
def fzNext (c : Nat) (s : State) : State := fzSettle c (s.setCore c (swapHalf (s.core c)))

/-- Instruction operands ra and rb into rd (Table 8.13). -/
def FzAluRow (mk : Nat → Nat → Nat → Nat → Instr) (f : Word → Word → Word) : Prop :=
  ∀ (c rd ra rb : Nat) (s : State), FzRuns c s →
    exec (mk c rd ra rb) s = .next (fzNext c (fzSetReg c rd (f ((s.core c).here.g ra) ((s.core c).here.g rb)) s))

/-- Instruction operands ra and a 16-bit immediate into rd (Table 8.13). -/
def FzImmRow (mk : Nat → Nat → Nat → Nat → Instr) (f : Word → Nat → Word) : Prop :=
  ∀ (c rd ra imm : Nat) (s : State), FzRuns c s → exec (mk c rd ra imm) s = .next (fzNext c (fzSetReg c rd (f ((s.core c).here.g ra) imm) s))

/-- A branch (Table 8.13): to pc + 4 × disp when the comparison holds, else to the next instruction. -/
def FzBranchRow (mk : Nat → Nat → Nat → Nat → Instr) (p : Word → Word → Bool) : Prop :=
  ∀ (c ra rb disp : Nat) (s : State) (b : FBank), FzRuns c s → b = (s.core c).here →
    (p (b.g ra) (b.g rb) = true → (b.pc + wordDisp 16 disp).toNat % 4 = 0 →
      exec (mk c ra rb disp) s = .next (fzNext c (s.setCore c ((s.core c).setHere { b with pc := b.pc + wordDisp 16 disp })))) ∧
    (p (b.g ra) (b.g rb) = true → (b.pc + wordDisp 16 disp).toNat % 4 ≠ 0 →
      exec (mk c ra rb disp) s = .next (orHeld c s (fzTrap c 3 (b.pc + wordDisp 16 disp).toNat b.pc false false s))) ∧
    (p (b.g ra) (b.g rb) = false → exec (mk c ra rb disp) s = .next (fzNext c (fzAdvance c s)))

/-- A load of a kind from the core's data memory (R296, R333): the bytes land in the register; misaligned and forbidden addresses trap. -/
def FzLoadRow (mk : Nat → Nat → Nat → Nat → Nat → Instr) (kind : Nat) : Prop :=
  ∀ (c rd ra imm ecc : Nat) (s : State) (a : Nat), FzRuns c s → a = (fzEa c ra imm s).toNat →
    (∀ o, a % loadSize kind = 0 → fzAllowed c (s.core c) (s.core c).here false a = true → fzPlace c (s.core c) a = .data o → ecc ≠ 2 →
      exec (mk c rd ra imm ecc) s = .next (fzNext c (fzLand c (s.core c).cur kind rd
        (loadValue kind (leNat (memRead (s.core c).dmem o (loadSize kind)))) (fzEcc ecc s)))) ∧
    (a % loadSize kind ≠ 0 → exec (mk c rd ra imm ecc) s = .next (orHeld c s (fzTrap c 3 a (s.core c).here.pc false false s))) ∧
    (a % loadSize kind = 0 → fzAllowed c (s.core c) (s.core c).here false a = false →
      exec (mk c rd ra imm ecc) s = .next (orHeld c s (fzTrap c 4 a (s.core c).here.pc false false s)))

/-- A store of `n` bytes to the core's data memory (R296, R333). -/
def FzStoreRow (mk : Nat → Nat → Nat → Nat → Nat → Instr) (n : Nat) : Prop :=
  ∀ (c rs ra imm ecc : Nat) (s : State) (a : Nat), FzRuns c s → a = (fzEa c ra imm s).toNat →
    (∀ o, a % n = 0 → fzAllowed c (s.core c) (s.core c).here true a = true → fzPlace c (s.core c) a = .data o →
      exec (mk c rs ra imm ecc) s = .next (fzNext c (fzAdvance c (s.setCore c { s.core c with
        dmem := memWrite (s.core c).dmem o (leBytes (((s.core c).here.g rs).toNat % 2 ^ (8 * n)) n) })))) ∧
    (a % n ≠ 0 → exec (mk c rs ra imm ecc) s = .next (orHeld c s (fzTrap c 3 a (s.core c).here.pc false false s))) ∧
    (a % n = 0 → fzAllowed c (s.core c) (s.core c).here true a = false →
      exec (mk c rs ra imm ecc) s = .next (orHeld c s (fzTrap c 4 a (s.core c).here.pc false false s)))

/-- A load of `n` bytes from control space (R334, R335). -/
def FzCtrlLoadRow (mk : Nat → Nat → Nat → Nat → Instr) (n : Nat) : Prop :=
  ∀ (c rd ra imm a : Nat) (s : State) (k : CKind × Bool), FzRuns c s → a = (fzEa c ra imm s).toNat → a % n = 0 → a < 0x10000 →
    ctrlKind c (a / 4 * 4) = some k → (k.2 = true → (s.core c).here.sys = true) →
    (n = 4 → exec (mk c rd ra imm) s = .next (fzNext c (fzSetReg c rd (BitVec.ofNat 32 (ctrlRead c a s).1) (ctrlRead c a s).2))) ∧
    (n ≠ 4 → exec (mk c rd ra imm) s = .next (fzNext c (fzSetReg c rd (BitVec.ofNat 32 (ctrlNarrow c a n s).1) (ctrlNarrow c a n s).2)))

/-- A store of `n` bytes to a register of control space (R334, R335): a read-write register takes the bytes; one that can only be read refuses them. -/
def FzCtrlStoreRow (mk : Nat → Nat → Nat → Nat → Instr) (n : Nat) : Prop :=
  ∀ (c rs ra imm a v : Nat) (s : State) (sys : Bool), FzRuns c s → a = (fzEa c ra imm s).toNat → v = ((s.core c).here.g rs).toNat % 2 ^ (8 * n) →
    a % n = 0 → a < 0x10000 → (sys = true → (s.core c).here.sys = true) →
    (∀ t, ctrlKind c (a / 4 * 4) = some (.rw, sys) →
      (if n = 4 then ctrlWrite c a v s
        else ctrlWrite c (a / 4 * 4) (wordWith (BitVec.ofNat 32 (ctrlVal s c (a / 4 * 4))) a n v).toNat s) = .ok t →
      exec (mk c rs ra imm) s = .next (fzNext c (fzAdvance c t))) ∧
    (ctrlKind c (a / 4 * 4) = some (.ro, sys) →
      exec (mk c rs ra imm) s = .next (orHeld c s (fzTrap c 5 a (s.core c).here.pc false false s)))

/-! ## Contexts of a Fizhaig core (R303 to R308) -/

/-- Bank k may save a frame: SSP is aligned, at or above SSB and in the save region, and 80 bytes below SSL are left in local RAM (R308). -/
structure SaveOk (c k : Nat) (x : Core) : Prop where
  aligned : (x.bank k).ssp.toNat % 16 = 0
  base : (x.bank k).ssb.toNat ≤ (x.bank k).ssp.toNat
  region : inSaveRegion x (x.bank k).ssp.toNat = true
  room : (x.bank k).ssp.toNat + 80 ≤ (x.bank k).ssl.toNat
  ram : fzRam c x (x.bank k).planeB (x.bank k).ssp.toNat 80 = true

/-- The core after bank k has saved its high or low half: the frame of Table 8.6 at SSP, and SSP 80 bytes up (R308). -/
def savedFrame (c k : Nat) (high : Bool) (x : Core) : Core :=
  (fzPokes c (x.bank k).ssp.toNat (saveFrame c k high (x.bank k).ssp x) x).setBank k { x.bank k with ssp := (x.bank k).ssp + 80#32 }

/-- The frame below bank k's SSP is one of the wanted half: above SSB, in local RAM, with its address in its last word and its kind in bit 0 (R308). -/
structure RestoreOk (c k : Nat) (high : Bool) (x : Core) : Prop where
  base : (x.bank k).ssb.toNat + 80 ≤ (x.bank k).ssp.toNat
  ram : fzRam c x (x.bank k).planeB ((x.bank k).ssp.toNat - 80) 80 = true
  place : fzWord c x ((x.bank k).ssp.toNat - 80 + 76) = BitVec.ofNat 32 ((x.bank k).ssp.toNat - 80)
  kind : (fzWord c x ((x.bank k).ssp.toNat - 80)).getLsbD 0 = high

/-- The core after bank k has restored that frame: its registers and STATUS (R309), and SSP 80 bytes down. -/
def restoredFrame (c k : Nat) (high execSys : Bool) (x : Core) : Core :=
  let a := (x.bank k).ssp.toNat - 80
  let y := loadFrame c k high execSys a x
  y.setBank k { y.bank k with ssp := BitVec.ofNat 32 a }

/-- Bank f as CTX gives it the save stack of the CCB at `a`: SSB, SSP and SSL from the CCB, resident, not waiting (R302, R303). -/
def ctxTarget (c f a : Nat) (x : Core) : Core :=
  x.setBank f { x.bank f with ssb := BitVec.ofNat 32 (a + 16), ssp := fzWord c x a, ssl := fzWord c x (a + 12), planeB := x.here.planeB,
                              resident := true, age := x.ageSeq, wait := .none, busErr := none }

/-- Both frames of the context of the CCB at `a` can be restored into bank f, the low one first. -/
structure CtxEnters (c f a : Nat) (x : Core) : Prop where
  low : RestoreOk c f false (ctxTarget c f a x)
  high : RestoreOk c f true (restoredFrame c f false x.here.sys (ctxTarget c f a x))

/-- The core after step 5 of R303: both frames restored into bank f, INFO of the CCB naming it, and bank f current. -/
def ctxEntered (c f a : Nat) (x : Core) : Core :=
  { fzPoke c (a + 8) 4 (1 + 2 * f + 32 * b2n x.here.planeB) (restoredFrame c f true x.here.sys (restoredFrame c f false x.here.sys (ctxTarget c f a x))) with
    cur := f, ageSeq := x.ageSeq + 1 }

/-- The victim of an overflow sequence can be saved: room for two frames, and each of them can be written (R304). -/
structure Evictable (c v : Nat) (x : Core) : Prop where
  room : (x.bank v).ssp.toNat + 160 ≤ (x.bank v).ssl.toNat
  high : SaveOk c v x
  low : SaveOk c v (savedFrame c v true x)

/-- The core after the overflow sequence (R304): both frames saved, SSP in STACK of the victim's CCB, RESIDENT clear there, and the bank free. -/
def evicted (c v : Nat) (x : Core) : Core :=
  let y := savedFrame c v false (savedFrame c v true x)
  let ccb := (y.bank v).ssb.toNat - 16
  let z := fzPoke c ccb 4 (y.bank v).ssp.toNat y
  let w := fzPoke c (ccb + 8) 4 (withBit (fzWord c z (ccb + 8)).toNat 0 false) z
  w.setBank v { w.bank v with resident := false }

/-- The current bank has left a CTX behind it: its pc is the next instruction. -/
def ctxLeft (x : Core) : Core := x.setHere { x.here with pc := x.here.pc + 4#32 }

/-- The FP file is on and belongs to the bank that issues (R310, R312). -/
structure FpRuns (c : Nat) (s : State) : Prop where
  runs : FzRuns c s
  mode : fpMode c (s.core c) = 1 ∨ fpMode c (s.core c) = 2
  area : fpsaOf c (s.core c).cur (s.core c) ≠ 0
  owns : (s.core c).cur = (s.core c).fpown

/-- An FP operation on two f registers into an f register (Table 8.13). -/
def FpRow (mk : Nat → Nat → Nat → Nat → Nat → Instr) (f : Word → Word → FRes) : Prop :=
  ∀ (c fd fa fb ecc : Nat) (s : State), FpRuns c s →
    exec (mk c fd fa fb ecc) s = .next (fzNext c (fzSetF c fd (f ((s.core c).f fa) ((s.core c).f fb)) false s))

/-- A fused FP operation on three f registers. -/
def FpRow3 (mk : Nat → Nat → Nat → Nat → Nat → Nat → Instr) (f : Word → Word → Word → FRes) : Prop :=
  ∀ (c fd fa fb fc ecc : Nat) (s : State), FpRuns c s →
    exec (mk c fd fa fb fc ecc) s = .next (fzNext c (fzSetF c fd (f ((s.core c).f fa) ((s.core c).f fb) ((s.core c).f fc)) false s))

/-- An FP operation on one f register into an f register. -/
def FpRow1 (mk : Nat → Nat → Nat → Nat → Instr) (f : Word → FRes) : Prop :=
  ∀ (c fd fa ecc : Nat) (s : State), FpRuns c s → exec (mk c fd fa ecc) s = .next (fzNext c (fzSetF c fd (f ((s.core c).f fa)) false s))

/-- An FP comparison into a general register. -/
def FpCmpRow (mk : Nat → Nat → Nat → Nat → Nat → Instr) (f : Word → Word → FRes) : Prop :=
  ∀ (c rd fa fb ecc : Nat) (s : State), FpRuns c s →
    exec (mk c rd fa fb ecc) s = .next (fzNext c (fzSetGf c rd (f ((s.core c).f fa) ((s.core c).f fb)) s))

/-- An FP conversion into a general register. -/
def FpToRow (mk : Nat → Nat → Nat → Nat → Instr) (f : Word → FRes) : Prop :=
  ∀ (c rd fa ecc : Nat) (s : State), FpRuns c s → exec (mk c rd fa ecc) s = .next (fzNext c (fzSetGf c rd (f ((s.core c).f fa)) s))

/-- An operation on a general register into an f register. -/
def FpFromRow (mk : Nat → Nat → Nat → Nat → Instr) (f : Word → FRes) : Prop :=
  ∀ (c fd ra ecc : Nat) (s : State), FpRuns c s → exec (mk c fd ra ecc) s = .next (fzNext c (fzSetF c fd (f ((s.core c).here.g ra)) false s))

/-! ## Beats -/

/-- A cell operation with one result word per beat and no event (R58, R73): a beat of an instance in progress delivers `f` of its operands,
or the word that disagreeing lanes put out, with the failed comparison noted. -/
def CellRow (mk : CellBeat → Instr) (op : Nat) (f : BeatIn → Word) : Prop :=
  ∀ (b : CellBeat) (s : State) (r : Run) (rest : List Run), takeRun (s.motif b.m) b.pos op = some (r, rest) →
    exec (mk b) s = .next (deliver op b.m b.pos (runDsts s b.m b.pos r) sendResults r (b.mismatch.getD (f (beatIn s b.m b.pos r)))
      (if b.mismatch.isSome then noteMismatch b.m b.pos r false s else s))

/-- A cell operation whose result may raise events (R76): they are counted, and the result word is delivered. -/
def CellEventRow (mk : CellBeat → Instr) (op : Nat) (f : BeatIn → FRes) : Prop :=
  ∀ (b : CellBeat) (s : State) (r : Run) (rest : List Run), takeRun (s.motif b.m) b.pos op = some (r, rest) →
    exec (mk b) s = .next (deliver op b.m b.pos (runDsts s b.m b.pos r) sendResults r (b.mismatch.getD (f (beatIn s b.m b.pos r)).val)
      (if b.mismatch.isSome then noteMismatch b.m b.pos r false (countEvents (f (beatIn s b.m b.pos r)) s)
        else countEvents (f (beatIn s b.m b.pos r)) s))

/-- The accumulators after a beat of the MAC2 family on operands `i` (R67). -/
def macAfter (signed sub clear first : Bool) (i : BeatIn) : Bank :=
  let z := clear && first
  { i.acc with a0 := macStep false signed sub (if z then 0#48 else i.acc.a0) i.a i.b,
               a1 := macStep true signed sub (if z then 0#48 else i.acc.a1) i.a i.b }

/-- An operation of the MAC2 family (R67): the beats before the last keep the accumulators; the last delivers their read-out, or the word that
disagreeing lanes put out; a failed comparison is noted at its beat (R73). -/
def MacRow (mk : CellBeat → Instr) (op : Nat) (signed sub clear : Bool) : Prop :=
  ∀ (b : CellBeat) (s w : State) (r : Run) (rest : List Run) (i : BeatIn) (k : Bank) (p : Motif × Run),
    takeRun (s.motif b.m) b.pos op = some (r, rest) → w = (if b.mismatch.isSome then noteMismatch b.m b.pos r false s else s) →
    i = beatIn s b.m b.pos r → k = macAfter signed sub clear (r.beat == 0) i → p = setRunBank (w.motif b.m) b.pos r k →
    (r.beat + 1 < r.beats →
      exec (mk b) s = .next (endBeat op b.m b.pos sendResults { p.2 with beat := r.beat + 1 } (w.setMotif b.m p.1))) ∧
    (r.beats ≤ r.beat + 1 →
      exec (mk b) s = .next (deliver op b.m b.pos (runDsts s b.m b.pos r) sendResults p.2 (b.mismatch.getD (macResult signed k.a0 k.a1 i.imm).val)
        (countEvents (macResult signed k.a0 k.a1 i.imm) (w.setMotif b.m p.1))))

end Sys2Proof
end

