-- ==== Sys2Proof/WellFormed.lean ====
section
/-! DEFINITION. Well-formed commands: every operand within the range its field, number or name has in the spec. A meaning does not rely on it:
an index out of range names nothing and is taken modulo its range or changes nothing. -/

namespace Sys2Proof

/-- Every byte of the data is a byte. -/
def bytesOk (bs : List Nat) : Bool := bs.all (fun b => decide (b < 256))

/-- Every block of a link frame has 64 bits (R420). -/
def blocksOk (bs : List Nat) : Bool := bs.all (fun b => decide (b < 2 ^ 64))

/-- A word's ECC state: 0 clean, 1 single-bit error, 2 uncorrectable (R108). -/
def eccOk (ecc : Nat) : Bool := decide (ecc < 3)

/-- A Fizhaig core: shuttles 0 to 63, supervisors 64 to 67, the MP 68. -/
def coreOk (c : Nat) : Bool := decide (c < 69)

/-- A 5-bit register number. -/
def regOk (r : Nat) : Bool := decide (r < 32)

/-- The TIDs of a grant. -/
def tidsOk (l : List Nat) : Bool := l.all (fun t => decide (t < 4096))
/-- The beat of a cell operation: motif, position and ECC state. -/
def beatOk (b : CellBeat) : Bool := decide (b.m < 64) && decide (b.pos < 16) && eccOk b.ecc && tidsOk b.badLog

/-- The word a scrub engine reads: a motif's scratchpad word, or a hoop store's. -/
def scrubOk (w : ScrubWord) : Bool :=
  eccOk w.ecc && (if w.hoop then decide (w.unit < 4) && decide (w.addr < 2 ^ 22) else decide (w.unit < 64) && decide (w.addr < 2 ^ 18))

/-- Live bank words: slots 0 to 15, words 0 to 5, ECC states. -/
def lanesOk (l : List LaneWord) : Bool := l.all (fun w => decide (w.slot < 16) && decide (w.word < 6) && eccOk w.eccA && eccOk w.eccB)

/-- 40 clock frequencies, 14 supplies and 2 drives at most. -/
def measuresOk (q : Measures) : Bool := decide (q.freqs.length ≤ 40) && decide (q.supplies.length ≤ 14) && decide (q.smart.length ≤ 2)

/-- Every received serial value is a byte. -/
def rxOk (bs : List RxByte) : Bool := bs.all (fun b => decide (b.value < 256))

/-- A CSI-2 long packet: virtual channel and data type within their header fields. -/
def lineOk (q : CsiLine) : Bool := decide (q.vc < 16) && decide (q.dt < 64)

/-- A state request: one of the five states, four sync managers at most. -/
def alOk (q : AlRequest) : Bool := [1, 2, 3, 4, 8].contains q.state && decide (q.sms.length ≤ 4) && decide (q.syncMode < 3)

/-- What a start finds: MODE pins, two drives at most. -/
def boardOk (b : Board) : Bool := decide (b.mode < 8) && decide (b.drives.length ≤ 2) && b.qspi.all (fun k => decide (k < 256)) && b.vddio.all (fun v => decide (v < 2 ^ 16))

/-- Every step outcome is 0 or a failure code of one byte. -/
def stepsOk (l : List StepOutcome) : Bool := l.all (fun o => decide (o.code < 256))


/-- The operands of a command are within their ranges. -/
def Instr.wf (i : Instr) : Bool :=
  match i with
  | .timeSourceWrite path v => decide (path < 3) && decide (v < 2 ^ 8)
  | .dcOffsetMeasurement dc => decide (dc < 2 ^ 64)
  | .dcReferenceLoss => true
  | .ppsEdge => true
  | .ppsReferenceLoss => true
  | .ppsNextWrite path v => decide (path < 3) && decide (v < 2 ^ 64)
  | .timeStep dc => decide (dc < 2 ^ 64)
  | .ppsOutRise => true
  | .ppsOutFall => true
  | .epochBoundary q => measuresOk q
  | .tokenTimerFiring _ n => decide (n < 16)
  | .timerEnableWrite path n _ => decide (path < 3) && decide (n < 16)
  | .dualClockQueueDelivery q => decide (q < 273)
  | .mailboxExchange ecc => decide (ecc < 3)
  | .cellPass b => beatOk b
  | .cellAdd b => beatOk b
  | .cellSub b => beatOk b
  | .cellNeg b => beatOk b
  | .cellAbs b => beatOk b
  | .cellAnd b => beatOk b
  | .cellOr b => beatOk b
  | .cellXor b => beatOk b
  | .cellAndn b => beatOk b
  | .cellNot b => beatOk b
  | .cellShl b => beatOk b
  | .cellShr b => beatOk b
  | .cellSar b => beatOk b
  | .cellRol b => beatOk b
  | .cellRor b => beatOk b
  | .cellCmpeq b => beatOk b
  | .cellCmpne b => beatOk b
  | .cellCmplt b => beatOk b
  | .cellCmpltu b => beatOk b
  | .cellCmple b => beatOk b
  | .cellCmpleu b => beatOk b
  | .cellSel b => beatOk b
  | .cellMin b => beatOk b
  | .cellMax b => beatOk b
  | .cellMinu b => beatOk b
  | .cellMaxu b => beatOk b
  | .cellClz b => beatOk b
  | .cellAdds b => beatOk b
  | .cellSubs b => beatOk b
  | .cellAddsu b => beatOk b
  | .cellSubsu b => beatOk b
  | .cellSats b => beatOk b
  | .cellSatu b => beatOk b
  | .cellMul b => beatOk b
  | .cellMulh b => beatOk b
  | .cellMulhu b => beatOk b
  | .cellQmul31 b => beatOk b
  | .cellQmul16 b => beatOk b
  | .cellMac2 b => beatOk b
  | .cellMac2u b => beatOk b
  | .cellMsu2 b => beatOk b
  | .cellMac2z b => beatOk b
  | .cellRdacc b => beatOk b
  | .cellFadd b => beatOk b
  | .cellFsub b => beatOk b
  | .cellFmul b => beatOk b
  | .cellFma b => beatOk b
  | .cellFms b => beatOk b
  | .cellFnma b => beatOk b
  | .cellFmin b => beatOk b
  | .cellFmax b => beatOk b
  | .cellFcmplt b => beatOk b
  | .cellFcmple b => beatOk b
  | .cellFcmpeq b => beatOk b
  | .cellFtoi b => beatOk b
  | .cellFtoir b => beatOk b
  | .cellItof b => beatOk b
  | .cellFabs b => beatOk b
  | .cellFneg b => beatOk b
  | .cellFclass b => beatOk b
  | .cellLut b => beatOk b
  | .cellLut4 b => beatOk b
  | .cellSdiff b => beatOk b
  | .cellSlt b => beatOk b
  | .cellSle b => beatOk b
  | .cellSadd b => beatOk b
  | .cellSlater b => beatOk b
  | .cellSearlier b => beatOk b
  | .cellLd b => beatOk b
  | .cellSt b => beatOk b
  | .cellGather b => beatOk b
  | .cellSteer b => beatOk b
  | .cellDrop b => beatOk b
  | .cellCancel b => beatOk b
  | .tokenDelivery m src => decide (m < 64) && decide (src < 19)
  | .matchEntryWaitTimeout m src => decide (m < 64) && decide (src < 19)
  | .orderWindowReached m pos => decide (m < 64) && decide (pos < 16)
  | .winnerSelection m pos => decide (m < 64) && decide (pos < 16)
  | .instanceDispatch m pos ecc tok bad => decide (m < 64) && decide (pos < 16) && decide (ecc < 3) && decide (tok < 4) && tidsOk bad
  | .cancelWordArrival m src => decide (m < 64) && decide (src < 19)
  | .bankPowerWrite path m v => decide (path < 3) && decide (m < 64) && decide (v < 2 ^ 16)
  | .bankPowerTransitionDone m bank => decide (m < 64) && decide (bank < 8)
  | .gatherStart m => decide (m < 64)
  | .gatherElementRead m ecc bad => decide (m < 64) && decide (ecc < 3) && tidsOk bad
  | .scrubRead w => scrubOk w
  | .contextRepair m kind pos slot ecc => decide (m < 64) && decide (kind < 4) && decide (pos < 16) && decide (slot < 16) && decide (ecc < 3)
  | .tidGrantNotice m tids => decide (m < 64) && tidsOk tids
  | .suspendWrite path c _ => decide (path < 3) && decide (c < 64)
  | .openingNotice tid => decide (tid < 4096)
  | .closeReport m tid => decide (m < 64) && decide (tid < 4096)
  | .closeHandover m tid => decide (m < 64) && decide (tid < 4096)
  | .closeNotice tid ecc => decide (tid < 4096) && decide (ecc < 3)
  | .commitNotice m tid => decide (m < 64) && decide (tid < 4096)
  | .childRecheck tid ecc => decide (tid < 4096) && decide (ecc < 3)
  | .storeBufferDrain m ecc entry => decide (m < 64) && decide (ecc < 3) && decide (entry < 3)
  | .reentryInject => true
  | .selvedgeEntryArrival port => decide (port < 43)
  | .deadlineCheck => true
  | .releaseInstant bad => bad.all (fun e => decide (e.port < 43) && eccOk e.ecc)
  | .portBusyRelease port => decide (port < 42)
  | .tidReturn tid => decide (tid < 4096)
  | .laneMismatchReport m bad => decide (m < 64) && tidsOk bad
  | .abortNotice m tid bad => decide (m < 64) && decide (tid < 4096) && tidsOk bad
  | .replayNotice tid => decide (tid < 4096)
  | .noReplayNotice tid => decide (tid < 4096)
  | .replayServiceInsert m => decide (m < 64)
  | .replayStreamStart m ecc bad => decide (m < 64) && decide (ecc < 3) && tidsOk bad
  | .remapStart m bad => decide (m < 64) && tidsOk bad
  | .remapComplete m words => decide (m < 64) && lanesOk words
  | .clearSuspectWrite path v => decide (path < 3) && decide (v < 2 ^ 8)
  | .pageCopyComplete page => decide (page < 4194304)
  | .dramPatrolScrub addr ecc => decide (addr < 2 ^ 34) && decide (ecc < 3)
  | .flitCrcError x y port _ => decide (x < 8) && decide (y < 8) && decide (1 ≤ port ∧ port < 7)
  | .driveResyncComplete drive n => decide (drive < 2) && decide (n < 2 ^ 32)
  | .packetInjection k => decide (k < 72)
  | .routeCacheRefillDone k => decide (k < 72)
  | .packetForward x y port ecc bad => decide (x < 8) && decide (y < 8) && decide (port < 6) && decide (ecc < 3) && tidsOk bad
  | .urgencyAgeing _ k => decide (k < 2 ^ 16)
  | .packetDelivery x y _ => decide (x < 8) && decide (y < 8)
  | .readRequest x y _ ecc => decide (x < 8) && decide (y < 8) && decide (ecc < 3)
  | .writeRequest x y _ ecc => decide (x < 8) && decide (y < 8) && decide (ecc < 3)
  | .pullRequest x y _ ecc => decide (x < 8) && decide (y < 8) && decide (ecc < 3)
  | .readResp k => decide (k < 72)
  | .writeAck k => decide (k < 72)
  | .pullResp k => decide (k < 72)
  | .streamQueueAppend hoop q => decide (hoop < 4) && decide (q < 16)
  | .routeEntryWriteLazy path v => decide (path < 3) && decide (v < 2 ^ 64)
  | .routeEntryWriteInvalidate path v => decide (path < 3) && decide (v < 2 ^ 64)
  | .routeInvalidationComplete => true
  | .flushAllWrite path _ => decide (path < 3)
  | .hoopBankPowerWrite path h v => decide (path < 3) && decide (h < 4) && decide (v < 2 ^ 64)
  | .hoopBankTransitionDone h bank => decide (h < 4) && decide (bank < 32)
  | .dramRequestService ecc pick => decide (ecc < 3) && decide (pick < 32)
  | .islandWipeComplete => true
  | .cfgWidthSample mode => decide (mode < 4)
  | .imageBeginDeviceLoad bs => bytesOk bs
  | .imageBeginRegionReload bs => bytesOk bs
  | .imageBeginShadowLoad bs => bytesOk bs
  | .imageBeginRecipeStore bs => bytesOk bs
  | .imageData bs => bytesOk bs
  | .imageEnd bs => bytesOk bs
  | .imageAbort bs => bytesOk bs
  | .loadCheckComplete failed => decide (failed < 2 ^ 16)
  | .sdoFrameRead bs => bytesOk bs
  | .sdoFrameWrite bs => bytesOk bs
  | .sdoFrameCaRead bs => bytesOk bs
  | .sdoFrameCaWrite bs => bytesOk bs
  | .bqWrite bs => bytesOk bs
  | .readStatus bs => bytesOk bs
  | .readSdoResponse bs => bytesOk bs
  | .readBq bs => bytesOk bs
  | .foeWriteRecipe slot pw _ bs => decide (slot < 101) && decide (pw < 2 ^ 32) && bytesOk bs
  | .foeWriteShadow pw _ bs => decide (pw < 2 ^ 32) && bytesOk bs
  | .foeWriteRegion pw _ bs => decide (pw < 2 ^ 32) && bytesOk bs
  | .foeReadRecipe slot pw _ => decide (slot < 101) && decide (pw < 2 ^ 32)
  | .foeWriteFirmware pw _ bs => decide (pw < 2 ^ 32) && bytesOk bs
  | .foeReadFirmware pw => decide (pw < 2 ^ 32)
  | .doneHighSeen => true
  | .fabricStart => true
  | .regionDrained => true
  | .regionLeaveReset => true
  | .controlStartLoad path => decide (path < 3)
  | .controlAcknowledge path => decide (path < 3)
  | .coIdWrite path v => decide (path < 3) && decide (v < 2 ^ 16)
  | .tCWrite path v => decide (path < 3) && decide (v < 2 ^ 64)
  | .changeoverArm => true
  | .commitWrite path v => decide (path < 3) && decide (v < 2 ^ 16)
  | .cancelWrite path v => decide (path < 3) && decide (v < 2 ^ 16)
  | .prepareDeadline => true
  | .changeoverInstant => true
  | .oldPlaneRetire => true
  | .voteFrame l bs => decide (l < 2) && blocksOk bs
  | .fzAdd c rd ra rb => coreOk c && regOk rd && regOk ra && regOk rb
  | .fzSub c rd ra rb => coreOk c && regOk rd && regOk ra && regOk rb
  | .fzAnd c rd ra rb => coreOk c && regOk rd && regOk ra && regOk rb
  | .fzOr c rd ra rb => coreOk c && regOk rd && regOk ra && regOk rb
  | .fzXor c rd ra rb => coreOk c && regOk rd && regOk ra && regOk rb
  | .fzAndn c rd ra rb => coreOk c && regOk rd && regOk ra && regOk rb
  | .fzSll c rd ra rb => coreOk c && regOk rd && regOk ra && regOk rb
  | .fzSrl c rd ra rb => coreOk c && regOk rd && regOk ra && regOk rb
  | .fzSra c rd ra rb => coreOk c && regOk rd && regOk ra && regOk rb
  | .fzRor c rd ra rb => coreOk c && regOk rd && regOk ra && regOk rb
  | .fzSlt c rd ra rb => coreOk c && regOk rd && regOk ra && regOk rb
  | .fzSltu c rd ra rb => coreOk c && regOk rd && regOk ra && regOk rb
  | .fzMin c rd ra rb => coreOk c && regOk rd && regOk ra && regOk rb
  | .fzMax c rd ra rb => coreOk c && regOk rd && regOk ra && regOk rb
  | .fzClz c rd ra => coreOk c && regOk rd && regOk ra
  | .fzMul c rd ra rb => coreOk c && regOk rd && regOk ra && regOk rb
  | .fzMulh c rd ra rb => coreOk c && regOk rd && regOk ra && regOk rb
  | .fzMulhu c rd ra rb => coreOk c && regOk rd && regOk ra && regOk rb
  | .fzDiv c rd ra rb => coreOk c && regOk rd && regOk ra && regOk rb
  | .fzDivu c rd ra rb => coreOk c && regOk rd && regOk ra && regOk rb
  | .fzRem c rd ra rb => coreOk c && regOk rd && regOk ra && regOk rb
  | .fzRemu c rd ra rb => coreOk c && regOk rd && regOk ra && regOk rb
  | .fzAddi c rd ra imm => coreOk c && regOk rd && regOk ra && decide (imm < 2 ^ 16)
  | .fzAndi c rd ra imm => coreOk c && regOk rd && regOk ra && decide (imm < 2 ^ 16)
  | .fzOri c rd ra imm => coreOk c && regOk rd && regOk ra && decide (imm < 2 ^ 16)
  | .fzXori c rd ra imm => coreOk c && regOk rd && regOk ra && decide (imm < 2 ^ 16)
  | .fzSlti c rd ra imm => coreOk c && regOk rd && regOk ra && decide (imm < 2 ^ 16)
  | .fzSltiu c rd ra imm => coreOk c && regOk rd && regOk ra && decide (imm < 2 ^ 16)
  | .fzSlli c rd ra imm => coreOk c && regOk rd && regOk ra && decide (imm < 32)
  | .fzSrli c rd ra imm => coreOk c && regOk rd && regOk ra && decide (imm < 32)
  | .fzSrai c rd ra imm => coreOk c && regOk rd && regOk ra && decide (imm < 32)
  | .fzLui c rd imm => coreOk c && regOk rd && decide (imm < 2 ^ 16)
  | .fzLw c rd ra imm ecc => coreOk c && regOk rd && regOk ra && decide (imm < 2 ^ 16) && decide (ecc < 3)
  | .fzLh c rd ra imm ecc => coreOk c && regOk rd && regOk ra && decide (imm < 2 ^ 16) && decide (ecc < 3)
  | .fzLhu c rd ra imm ecc => coreOk c && regOk rd && regOk ra && decide (imm < 2 ^ 16) && decide (ecc < 3)
  | .fzLb c rd ra imm ecc => coreOk c && regOk rd && regOk ra && decide (imm < 2 ^ 16) && decide (ecc < 3)
  | .fzLbu c rd ra imm ecc => coreOk c && regOk rd && regOk ra && decide (imm < 2 ^ 16) && decide (ecc < 3)
  | .fzSwap c rd ra imm ecc => coreOk c && regOk rd && regOk ra && decide (imm < 2 ^ 16) && decide (ecc < 3)
  | .fzSw c rs ra imm ecc => coreOk c && regOk rs && regOk ra && decide (imm < 2 ^ 16) && decide (ecc < 3)
  | .fzSh c rs ra imm ecc => coreOk c && regOk rs && regOk ra && decide (imm < 2 ^ 16) && decide (ecc < 3)
  | .fzSb c rs ra imm ecc => coreOk c && regOk rs && regOk ra && decide (imm < 2 ^ 16) && decide (ecc < 3)
  | .fzClw c rd ra imm => coreOk c && regOk rd && regOk ra && decide (imm < 2 ^ 16)
  | .fzClh c rd ra imm => coreOk c && regOk rd && regOk ra && decide (imm < 2 ^ 16)
  | .fzClb c rd ra imm => coreOk c && regOk rd && regOk ra && decide (imm < 2 ^ 16)
  | .fzCld c rd ra imm => coreOk c && regOk rd && regOk ra && decide (imm < 2 ^ 16)
  | .fzCsw c rs ra imm => coreOk c && regOk rs && regOk ra && decide (imm < 2 ^ 16)
  | .fzCsh c rs ra imm => coreOk c && regOk rs && regOk ra && decide (imm < 2 ^ 16)
  | .fzCsb c rs ra imm => coreOk c && regOk rs && regOk ra && decide (imm < 2 ^ 16)
  | .fzCsd c rs ra imm => coreOk c && regOk rs && regOk ra && decide (imm < 2 ^ 16)
  | .fzBeq c ra rb disp => coreOk c && regOk ra && regOk rb && decide (disp < 2 ^ 16)
  | .fzBne c ra rb disp => coreOk c && regOk ra && regOk rb && decide (disp < 2 ^ 16)
  | .fzBlt c ra rb disp => coreOk c && regOk ra && regOk rb && decide (disp < 2 ^ 16)
  | .fzBge c ra rb disp => coreOk c && regOk ra && regOk rb && decide (disp < 2 ^ 16)
  | .fzBltu c ra rb disp => coreOk c && regOk ra && regOk rb && decide (disp < 2 ^ 16)
  | .fzBgeu c ra rb disp => coreOk c && regOk ra && regOk rb && decide (disp < 2 ^ 16)
  | .fzJ c disp => coreOk c && decide (disp < 2 ^ 26)
  | .fzJal c disp => coreOk c && decide (disp < 2 ^ 26)
  | .fzJalr c rd ra imm => coreOk c && regOk rd && regOk ra && decide (imm < 2 ^ 16)
  | .fzCtx c ra ecc => coreOk c && regOk ra && decide (ecc < 3)
  | .fzSavl c => coreOk c
  | .fzSavu c => coreOk c
  | .fzRstl c ecc => coreOk c && decide (ecc < 3)
  | .fzRstu c ecc => coreOk c && decide (ecc < 3)
  | .fzSavf c => coreOk c
  | .fzRstf c ecc => coreOk c && decide (ecc < 3)
  | .fzRfe c ecc => coreOk c && decide (ecc < 3)
  | .fzRfi c => coreOk c
  | .fzWait c => coreOk c
  | .fzWaitWake c => coreOk c
  | .fzSys c => coreOk c
  | .fzBrk c => coreOk c
  | .fzFence c => coreOk c
  | .fzEi c => coreOk c
  | .fzDi c => coreOk c
  | .fzFadd c fd fa fb ecc => coreOk c && regOk fd && regOk fa && regOk fb && decide (ecc < 3)
  | .fzFsub c fd fa fb ecc => coreOk c && regOk fd && regOk fa && regOk fb && decide (ecc < 3)
  | .fzFmul c fd fa fb ecc => coreOk c && regOk fd && regOk fa && regOk fb && decide (ecc < 3)
  | .fzFdiv c fd fa fb ecc => coreOk c && regOk fd && regOk fa && regOk fb && decide (ecc < 3)
  | .fzFsqrt c fd fa ecc => coreOk c && regOk fd && regOk fa && decide (ecc < 3)
  | .fzFma c fd fa fb fc ecc => coreOk c && regOk fd && regOk fa && regOk fb && regOk fc && decide (ecc < 3)
  | .fzFms c fd fa fb fc ecc => coreOk c && regOk fd && regOk fa && regOk fb && regOk fc && decide (ecc < 3)
  | .fzFnma c fd fa fb fc ecc => coreOk c && regOk fd && regOk fa && regOk fb && regOk fc && decide (ecc < 3)
  | .fzFmin c fd fa fb ecc => coreOk c && regOk fd && regOk fa && regOk fb && decide (ecc < 3)
  | .fzFmax c fd fa fb ecc => coreOk c && regOk fd && regOk fa && regOk fb && decide (ecc < 3)
  | .fzFcmplt c rd fa fb ecc => coreOk c && regOk rd && regOk fa && regOk fb && decide (ecc < 3)
  | .fzFcmple c rd fa fb ecc => coreOk c && regOk rd && regOk fa && regOk fb && decide (ecc < 3)
  | .fzFcmpeq c rd fa fb ecc => coreOk c && regOk rd && regOk fa && regOk fb && decide (ecc < 3)
  | .fzFtoi c rd fa ecc => coreOk c && regOk rd && regOk fa && decide (ecc < 3)
  | .fzFtoir c rd fa ecc => coreOk c && regOk rd && regOk fa && decide (ecc < 3)
  | .fzItof c fd ra ecc => coreOk c && regOk fd && regOk ra && decide (ecc < 3)
  | .fzFmvgf c fd ra ecc => coreOk c && regOk fd && regOk ra && decide (ecc < 3)
  | .fzFmvfg c rd fa ecc => coreOk c && regOk rd && regOk fa && decide (ecc < 3)
  | .fzFabs c fd fa ecc => coreOk c && regOk fd && regOk fa && decide (ecc < 3)
  | .fzFneg c fd fa ecc => coreOk c && regOk fd && regOk fa && decide (ecc < 3)
  | .fzFlw c fd ra imm ecc => coreOk c && regOk fd && regOk ra && decide (imm < 2 ^ 16) && decide (ecc < 3)
  | .fzFsw c fs ra imm ecc => coreOk c && regOk fs && regOk ra && decide (imm < 2 ^ 16) && decide (ecc < 3)
  | .interruptEntry c => coreOk c
  | .replayqPop c rd => coreOk c && regOk rd
  | .replayRequestWrite c rs => coreOk c && regOk rs
  | .txdataAppend c rs => coreOk c && regOk rs
  | .txlastSend c rs => coreOk c && regOk rs
  | .rxheadRead c rd => coreOk c && regOk rd
  | .rxdataPop c rd => coreOk c && regOk rd
  | .excountRead c rd => coreOk c && regOk rd
  | .latchedPairRead c rd addr => coreOk c && regOk rd && decide (addr < 2 ^ 20)
  | .wdogWrite c rs => coreOk c && regOk rs
  | .pullreqWrite c rs => coreOk c && regOk rs
  | .doorbellWrite c rs => coreOk c && regOk rs
  | .shctlStop c n => coreOk c && decide (n < 16)
  | .shctlRestart c n => coreOk c && decide (n < 16)
  | .ibindWrite c _ rs => coreOk c && regOk rs
  | .watchdogWarning => true
  | .watchdogExpiry => true
  | .mpRestartDone => true
  | .supervisorTimerExpiry h => decide (h < 4)
  | .mpTimerExpiry => true
  | .supervisorRestartWrite path h _ => decide (path < 3) && decide (h < 4)
  | .shuttleRestartWrite path v => decide (path < 3) && decide (v < 2 ^ 8)
  | .objectWrite path ix sub size bs => decide (path < 8) && decide (ix < 2 ^ 16) && decide (sub < 256) && decide (size < 2 ^ 32) && bytesOk bs
  | .sdoUpload path ix sub ecc => decide (path < 8) && decide (ix < 2 ^ 16) && decide (sub < 256) && decide (ecc < 3)
  | .sdoCompleteAccessRead path ix _ ecc => decide (path < 3) && decide (ix < 2 ^ 16) && decide (ecc < 3)
  | .sdoCompleteAccessWrite path ix _ size bs => decide (path < 3) && decide (ix < 2 ^ 16) && decide (size < 2 ^ 32) && bytesOk bs
  | .sdoSegment path _ _ bs => decide (path < 3) && bytesOk bs
  | .sdoSegmentTimeout path => decide (path < 3)
  | .sdoBlockRequest path ix sub => decide (path < 3) && decide (ix < 2 ^ 16) && decide (sub < 256)
  | .sdoAbortRequest path => decide (path < 3)
  | .sdoInfoObjectList typ => decide (typ < 6)
  | .sdoInfoObjectDesc ix => decide (ix < 2 ^ 16)
  | .sdoInfoEntryDesc ix sub => decide (ix < 2 ^ 16) && decide (sub < 256)
  | .mailboxRepeatRequest => true
  | .secureResponseDue => true
  | .saveWrite path v => decide (path < 3) && decide (v < 2 ^ 32)
  | .saveComplete => true
  | .restoreDefaultsWrite path v => decide (path < 3) && decide (v < 2 ^ 32)
  | .lockWrite path v => decide (path < 3) && decide (v < 2 ^ 32)
  | .alStateRequest q => alOk q
  | .smWatchdogExpiry => true
  | .rxpdoBufferSwitch ago bs => decide (ago < 2 ^ 64) && bytesOk bs
  | .txpdoCapture => true
  | .ethercatFrameError port => decide (port < 2)
  | .syncEvent n => decide (n < 2)
  | .latchEvent n _ dc => decide (n < 2) && decide (dc < 2 ^ 64)
  | .siiWrite a bs => decide (a < 4096) && bytesOk bs
  | .emcyMailboxRead => true
  | .canEmcyFrameSent => true
  | .nmtStartRemoteNode target => decide (target < 128)
  | .nmtStopRemoteNode target => decide (target < 128)
  | .nmtEnterPreOperational target => decide (target < 128)
  | .nmtResetNode target => decide (target < 128)
  | .nmtResetCommunication target => decide (target < 128)
  | .heartbeatTimer => true
  | .canFrameReceived w0 ago _ bs => decide (w0 < 2 ^ 32) && decide (ago < 2 ^ 64) && bytesOk bs
  | .canBusOff => true
  | .canBusOffRecovery => true
  | .mpLoadWindow load => decide (load ≤ 100)
  | .tioInputEdge p _ => decide (p < 24)
  | .tioDeglitchPass p => decide (p < 24)
  | .tioBurstSummary p => decide (p < 24)
  | .tioStuckTimeout p => decide (p < 24)
  | .tioTokenQueueEntry p => decide (p < 24)
  | .pulseTrainEdge p => decide (p < 24)
  | .deLeadStart ch => decide (ch < 8)
  | .uartFrameEnd ch ago bytes => decide (ch < 8) && decide (ago < 2 ^ 64) && rxOk bytes
  | .ssiPoll ch => decide (ch < 8)
  | .ssiReadComplete ch pos st _ => decide (ch < 8) && decide (pos < 2 ^ 63) && decide (st < 256)
  | .driveResponseReceived ch ago bytes => decide (ch < 8) && decide (ago < 2 ^ 64) && rxOk bytes
  | .driveResponseTimeout ch => decide (ch < 8)
  | .csiFrameStart cam vc number rate => decide (cam < 2) && decide (vc < 16) && decide (number < 2 ^ 16) && decide (rate < 2 ^ 32)
  | .csiLineStart cam vc => decide (cam < 2) && decide (vc < 16)
  | .csiLongPacket cam q => decide (cam < 2) && lineOk q
  | .csiFrameEnd cam vc => decide (cam < 2) && decide (vc < 16)
  | .i2cXferWrite path bytes => decide (path < 3) && bytesOk bytes
  | .i2cTransferEnd cam code bytes => decide (cam < 2) && decide (code < 256) && bytesOk bytes
  | .linkTokenFrame l bs => decide (l < 2) && blocksOk bs
  | .linkRelayFrame l bs => decide (l < 2) && blocksOk bs
  | .linkIdleFrame l bs => decide (l < 2) && blocksOk bs
  | .linkResendTimeout l => decide (l < 2)
  | .linkIdleTimer l => decide (l < 2)
  | .voteTimer => true
  | .linkTrainingDone l => decide (l < 2)
  | .linkLossOfLock l => decide (l < 2)
  | .bqPacketReadout q => decide (q < 4)
  | .alarmEvent a => decide (a < 128)
  | .alarmClearWrite path v => decide (path < 3) && decide (v < 2 ^ 8)
  | .samplerRecordOffer typ t payload => decide (typ < 2 ^ 16) && decide (t < 2 ^ 64) && bytesOk payload && Machine.samplerPayload typ == some payload.length
  | .samplerReleaseWrite path n => decide (path < 3) && decide (n < 2 ^ 32)
  | .traceExportRead path => decide (path < 3)
  | .traceExportCopy => true
  | .journalRecordLeave => true
  | .journalBlockWrite => true
  | .nvmeCommandComplete drive n _ => decide (drive < 2) && decide (n < 64)
  | .nvmeCommandTimeout drive n => decide (drive < 2) && decide (n < 64)
  | .journalBlockRead path => decide (path < 3)
  | .formatMirrored path => decide (path < 3)
  | .formatStriped path => decide (path < 3)
  | .journalEnableTrue path => decide (path < 3)
  | .journalEnableFalse path => decide (path < 3)
  | .porstNReset width _ => decide (width < 2 ^ 64)
  | .supplyMonitorReset rail mv width _ => decide (rail < 7) && decide (mv < 2 ^ 16) && decide (width < 2 ^ 64)
  | .resetNReset width => decide (width < 2 ^ 64)
  | .restartWrite path v => decide (path < 3) && decide (v < 2 ^ 32)
  | .requestedReset => true
  | .resetRelease b steps => boardOk b && stepsOk steps
  | .startStepTimeout steps => stepsOk steps
  | .clearRecordWrite path v => decide (path < 3) && decide (v < 2 ^ 32)
  | .stopWrite path v => decide (path < 3) && decide (v < 2 ^ 32)
  | .stopDrained => true
  | .flashEraseComplete => true
  | .flashProgramComplete => true
  | .fwBegin path bs => decide (path < 3) && bytesOk bs
  | .fwBlockHalf path bs => decide (path < 3) && bytesOk bs
  | .fwEnd path bs => decide (path < 3) && bytesOk bs
  | .fwAbort path v => decide (path < 3) && decide (v < 2 ^ 8)
  | .updateVerdict => true
  | .activateAtWrite path v => decide (path < 3) && decide (v < 2 ^ 64)
  | .activationInstant => true
  | .lcRequestProv path => decide (path < 3)
  | .lcRequestFiel path => decide (path < 3)
  | .lcRequestRetn path => decide (path < 3)
  | .lcRequestScrp path => decide (path < 3)
  | .authWrite path bs => decide (path < 3) && bytesOk bs
  | .challengeWrite path bs => decide (path < 3) && bytesOk bs
  | .imageKeyHashWrite path n bs => decide (path < 3) && decide (1 ≤ n ∧ n ≤ 3) && bytesOk bs
  | .securityReleaseWrite path v => decide (path < 3) && decide (v < 2 ^ 32)
  | .tamperEvent => true
  | .domainOnWrite path => decide (path < 3)
  | .domainOffWrite path => decide (path < 3)
  | .domainSwitchDone => true
  | .domainSwitchTimeout => true
  | .referenceClockStop => true
  | .dcSystemTimeUpdate dc => decide (dc < 2 ^ 64)
  | .pcieLinkDown drive => decide (drive < 2)
  | .ethercatPortLinkChange port _ => decide (port < 2)
  | .reservedEncoding c w => coreOk c && decide (w < 2 ^ 32)
  | .instructionFetchFault c ecc => coreOk c && decide (ecc < 3)
  | .orderlyStopWaitExpiry => true
  | .operatingTimeSecond => true

end Sys2Proof
end

