-- ==== Sys2Proof/Certificates/Slice0/Obligations.lean ====
section
/-! DEFINITION. The statements for the provers: what each command does when it acts, what it leaves unchanged, and what no command breaks. -/

open Sys2Proof Sys2Proof.Machine


/-- What the time-base commands do when they act. -/
def Obligations.TimeBaseCommands : Prop :=
  (∀ (s : State) (path v : Nat), Accepts s path 0x2100 1 1 v → v ≤ 2 → v ≠ 0 → v ≠ s.obj 0x2100 1 →
    exec (.timeSourceWrite path v) s = .next (answered path (.ok (startAcquiring ((mailArrives s).setObj 0x2100 1 v))))) ∧
  (∀ (s u : State) (dc : Nat), s.obj 0x2100 1 = 1 → s.obj 0x2100 2 ≠ 0 → s.time.measured ≠ some (epochOf s) → u = { s with time := { s.time with measured := some (epochOf s) } } →
    exec (.dcOffsetMeasurement dc) s =
      .next (judgeOffset 64 ((s.time.t : Int) - dc) (stepAllowed u) (loopUpdate ((s.time.t : Int) - dc) (noteOffset ((s.time.t : Int) - dc) u)))) ∧
  (∀ (s : State) (dc : Nat), s.obj 0x2100 1 = 1 → s.obj 0x2100 2 = 2 →
    exec (.dcSystemTimeUpdate dc) s = .next { s with time := { s.time with lastRef := s.time.clk, refSeen := true } }) ∧
  (∀ s : State, s.obj 0x2100 1 = 1 → s.obj 0x2100 2 = 2 → s.time.lastRef + 1000000 * s.obj 0x2100 9 ≤ s.time.clk →
    exec .dcReferenceLoss s = .next (setFreqCorr s.time.freqEst (tbEnter 3 s))) ∧
  (∀ s u : State, s.obj 0x2100 1 = 2 → s.obj 0x2100 2 = 2 → s.time.lastRef + 1100000000 ≤ s.time.clk → u = setFreqCorr s.time.freqEst (tbEnter 3 s) →
    exec .ppsReferenceLoss s = .next { u with time := { u.time with ppsPrev := none } }) ∧
  (∀ (s u w : State) (off : Int), s.obj 0x2100 1 = 2 → s.obj 0x2100 2 = 3 → off = (s.time.t : Int) - ppsMeaning s →
    u = { s.setObj 0x2100 6 0 with time := { s.time with lastRef := s.time.clk, refSeen := true, ppsPrev := some (ppsMeaning s) } } → w = loopUpdate off (noteOffset off (tbEnter 1 u)) →
    stepRequired w off = false → exec .ppsEdge s = .next (judgeOffset 8 off false w)) ∧
  (∀ (s : State) (dc : Nat), s.obj 0x2100 1 = 1 → s.obj 0x2100 2 = 1 → s.obj 0x2100 8 < ((s.time.t : Int) - dc).natAbs → stepAllowed s = true →
    exec (.timeStep dc) s = .next (tbEnter 1 (doStep dc s))) ∧
  (∀ (s : State) (path v : Nat), Accepts s path 0x2100 6 8 v → v % 1000000000 = 0 →
    exec (.ppsNextWrite path v) s = .next (answered path (.ok ((mailArrives s).setObj 0x2100 6 v)))) ∧
  (∀ (s : State) (path n : Nat), n < 16 → Accepts s path (0x2110 + n) 1 1 1 → (s.timer s.activeB n).enable = false →
    exec (.timerEnableWrite path n true) s = .next (answered path (.ok ((mailArrives s).setTimer s.activeB n
      (timerArm (s.time.t + 1000) { s.timer s.activeB n with enable := true })))))

/-- PPS_OUT pulses, token timer firings, epoch boundaries and the reference clock alarm. -/
def Obligations.PpsOutAndTimers : Prop :=
  (∀ s : State, s.obj 0x2100 0x0B ≠ 0 → s.time.t % 1000000000 = 0 →
    exec .ppsOutRise s = .next { s with time := { s.time with ppsOut := true, ppsRose := s.time.clk } }) ∧
  (∀ s : State, s.time.ppsOut = true → s.time.ppsRose + s.obj 0x2100 0x0B ≤ s.time.clk →
    exec .ppsOutFall s = .next { s with time := { s.time with ppsOut := false } }) ∧
  (∀ (s : State) (b : Bool) (n : Nat) (x : Timer) (p : Packet), n < 16 → x = s.timer b n → x.enable = true → x.active = true → timerNext x ≤ s.time.t → timerMayFire s b (timerNext x) = true →
    timerWaiting s (1 + n + 16 * b2n b) = false → ∀ t', entryCheck (s.setTimer b n { x with nextN := x.nextN + 1, active := x.period != 0, count := x.nextN % 2 ^ 32 })
      { stamp := stampOf (timerNext x), words := [BitVec.ofNat 32 x.nextN] } = some t' → p = { tokenPacket x.stream t' with timer := 1 + n + 16 * b2n b } →
    exec (.tokenTimerFiring b n) s = .next ((s.setTimer b n { x with nextN := x.nextN + 1, active := x.period != 0, count := x.nextN % 2 ^ 32 }).submit 70 p)) ∧
  (∀ (s : State) (b : Bool) (n : Nat) (x : Timer), n < 16 → x = s.timer b n → x.enable = true → x.active = true → timerNext x ≤ s.time.t → timerMayFire s b (timerNext x) = true →
    timerWaiting s (1 + n + 16 * b2n b) = true →
    exec (.tokenTimerFiring b n) s = .next ((s.setTimer b n { x with nextN := x.nextN + 1, active := x.period != 0 }).bump 0x2101 6)) ∧
  (∀ (s : State) (q : Measures), s.time.t % 2 ^ 20 = 0 → exec (.epochBoundary q) s = .next (measure q (housekeeping (staleSweep s)))) ∧
  (∀ s : State, exec .referenceClockStop s = .next (setCond 71 true s))

/-- The result word of every plain integer, logic, shift, comparison and multiplication operation. -/
def Obligations.CellIntegerResults : Prop :=
  CellRow .cellPass 0x00 (fun i => i.a) ∧
  CellRow .cellAdd 0x01 (fun i => i.a + i.b) ∧
  CellRow .cellSub 0x02 (fun i => i.a - i.b) ∧
  CellRow .cellNeg 0x03 (fun i => 0#32 - i.a) ∧
  CellRow .cellAnd 0x08 (fun i => i.a &&& i.b) ∧
  CellRow .cellOr 0x09 (fun i => i.a ||| i.b) ∧
  CellRow .cellXor 0x0A (fun i => i.a ^^^ i.b) ∧
  CellRow .cellAndn 0x0B (fun i => i.a &&& ~~~i.b) ∧
  CellRow .cellNot 0x0C (fun i => ~~~i.a) ∧
  CellRow .cellShl 0x10 (fun i => i.a <<< (i.b.toNat % 32)) ∧
  CellRow .cellShr 0x11 (fun i => i.a >>> (i.b.toNat % 32)) ∧
  CellRow .cellSar 0x12 (fun i => i.a.sshiftRight (i.b.toNat % 32)) ∧
  CellRow .cellRol 0x13 (fun i => i.a.rotateLeft (i.b.toNat % 32)) ∧
  CellRow .cellRor 0x14 (fun i => i.a.rotateRight (i.b.toNat % 32)) ∧
  CellRow .cellCmpeq 0x18 (fun i => if i.a = i.b then 1#32 else 0#32) ∧
  CellRow .cellCmpne 0x19 (fun i => if i.a = i.b then 0#32 else 1#32) ∧
  CellRow .cellCmplt 0x1A (fun i => if i.a.toInt < i.b.toInt then 1#32 else 0#32) ∧
  CellRow .cellCmpltu 0x1B (fun i => if i.a.toNat < i.b.toNat then 1#32 else 0#32) ∧
  CellRow .cellCmple 0x1C (fun i => if i.a.toInt ≤ i.b.toInt then 1#32 else 0#32) ∧
  CellRow .cellCmpleu 0x1D (fun i => if i.a.toNat ≤ i.b.toNat then 1#32 else 0#32) ∧
  CellRow .cellSel 0x20 (fun i => if i.c = 0#32 then i.b else i.a) ∧
  CellRow .cellMin 0x21 (fun i => if i.b.toInt < i.a.toInt then i.b else i.a) ∧
  CellRow .cellMax 0x22 (fun i => if i.a.toInt < i.b.toInt then i.b else i.a) ∧
  CellRow .cellMinu 0x23 (fun i => if i.b.toNat < i.a.toNat then i.b else i.a) ∧
  CellRow .cellMaxu 0x24 (fun i => if i.a.toNat < i.b.toNat then i.b else i.a) ∧
  CellRow .cellClz 0x25 (fun i => clz i.a) ∧
  CellRow .cellMul 0x30 (fun i => i.a * i.b) ∧
  CellRow .cellMulh 0x31 (fun i => BitVec.ofInt 32 (i.a.toInt * i.b.toInt / 2 ^ 32)) ∧
  CellRow .cellMulhu 0x32 (fun i => BitVec.ofNat 32 (i.a.toNat * i.b.toNat / 2 ^ 32))

/-- The result word of every lookup and stamp operation. -/
def Obligations.CellTableAndStampResults : Prop :=
  CellRow .cellLut 0x58 (fun i => aluLut (mget 0#8 i.lut) i.a i.imm) ∧
  CellRow .cellLut4 0x59 (fun i => aluLut4 (mget 0#8 i.lut) i.a) ∧
  CellRow .cellSdiff 0x60 (fun i => i.a - i.b) ∧
  CellRow .cellSlt 0x61 (fun i => if earlier i.a i.b then 1#32 else 0#32) ∧
  CellRow .cellSle 0x62 (fun i => if stampLe i.a i.b then 1#32 else 0#32) ∧
  CellRow .cellSadd 0x63 (fun i => i.a + i.b) ∧
  CellRow .cellSlater 0x64 (fun i => if later i.a i.b then i.a else i.b) ∧
  CellRow .cellSearlier 0x65 (fun i => if earlier i.a i.b then i.a else i.b)

/-- The result word and the event counters of every saturating and floating-point operation. -/
def Obligations.CellEventResults : Prop :=
  CellEventRow .cellAbs 0x04 (fun i => if i.a = 0x80000000#32 then { val := 0x7FFFFFFF#32, intSat := true } else { val := if i.a.toInt < 0 then 0#32 - i.a else i.a }) ∧
  CellEventRow .cellAdds 0x28 (fun i => satS (i.a.toInt + i.b.toInt)) ∧
  CellEventRow .cellSubs 0x29 (fun i => satS (i.a.toInt - i.b.toInt)) ∧
  CellEventRow .cellAddsu 0x2A (fun i => satU ((i.a.toNat : Int) + i.b.toNat)) ∧
  CellEventRow .cellSubsu 0x2B (fun i => satU ((i.a.toNat : Int) - i.b.toNat)) ∧
  CellEventRow .cellSats 0x2C (fun i => aluSats i.a i.imm) ∧
  CellEventRow .cellSatu 0x2D (fun i => aluSatu i.a i.imm) ∧
  CellEventRow .cellQmul31 0x33 (fun i => satS ((i.a.toInt * i.b.toInt + 2 ^ 30) / 2 ^ 31)) ∧
  CellEventRow .cellQmul16 0x34 (fun i => satS ((i.a.toInt * i.b.toInt + 2 ^ 15) / 2 ^ 16)) ∧
  CellEventRow .cellRdacc 0x3C (fun i => aluRdacc i.acc.a0 i.acc.a1 i.imm) ∧
  CellEventRow .cellFadd 0x40 (fun i => fAdd i.a i.b) ∧
  CellEventRow .cellFsub 0x41 (fun i => fSub i.a i.b) ∧
  CellEventRow .cellFmul 0x42 (fun i => fMul i.a i.b) ∧
  CellEventRow .cellFma 0x43 (fun i => fMa i.a i.b i.c) ∧
  CellEventRow .cellFms 0x44 (fun i => fMs i.a i.b i.c) ∧
  CellEventRow .cellFnma 0x45 (fun i => fNma i.a i.b i.c) ∧
  CellEventRow .cellFmin 0x46 (fun i => fMinMax false i.a i.b) ∧
  CellEventRow .cellFmax 0x47 (fun i => fMinMax true i.a i.b) ∧
  CellEventRow .cellFcmplt 0x48 (fun i => fCmpLt i.a i.b) ∧
  CellEventRow .cellFcmple 0x49 (fun i => fCmpLe i.a i.b) ∧
  CellEventRow .cellFcmpeq 0x4A (fun i => fCmpEq i.a i.b) ∧
  CellEventRow .cellFtoi 0x4B (fun i => fToI false i.a) ∧
  CellEventRow .cellFtoir 0x4C (fun i => fToI true i.a) ∧
  CellEventRow .cellItof 0x4D (fun i => iToF i.a) ∧
  CellEventRow .cellFabs 0x4E (fun i => fAbs i.a) ∧
  CellEventRow .cellFneg 0x4F (fun i => fNeg i.a) ∧
  CellEventRow .cellFclass 0x50 (fun i => fClass i.a)

/-- A beat of the MAC2 family advances both accumulators; the last one delivers the single result. -/
def Obligations.CellMac2 : Prop :=
  MacRow .cellMac2 0x38 true false false ∧
  MacRow .cellMac2u 0x39 false false false ∧
  MacRow .cellMsu2 0x3A true true false ∧
  MacRow .cellMac2z 0x3B true false true

/-- LD and ST beats on allowed addresses, the forwarding from the store buffer, and GATHER beats. -/
def Obligations.CellMemory : Prop :=
  (∀ (b : CellBeat) (s : State) (r : Run) (rest : List Run) (e : SbEntry), takeRun (s.motif b.m) b.pos 0x70 = some (r, rest) → r.stopped = false → b.mismatch = none →
    spFault s b.m (ctxBank ((s.motif b.m).slot b.pos r.inst.slot).ctx) (ctxSpan ((s.motif b.m).slot b.pos r.inst.slot).ctx) (memAddr (beatIn s b.m b.pos r)) = 0 → sbEntryFor (s.motif b.m) r.inst.tid (spLinear (ctxBank ((s.motif b.m).slot b.pos r.inst.slot).ctx) (ctxSpan ((s.motif b.m).slot b.pos r.inst.slot).ctx) (memAddr (beatIn s b.m b.pos r))) = some e → b.ecc ≠ 2 →
    exec (.cellLd b) s = .next (deliver 0x70 b.m b.pos (runDsts s b.m b.pos r) sendResults r e.data (if b.ecc = 1 then sramCorrected b.m s else s))) ∧
  (∀ (b : CellBeat) (s u : State) (r : Run) (rest : List Run) (w : Word) (q : BankAsk), takeRun (s.motif b.m) b.pos 0x70 = some (r, rest) → r.stopped = false → b.mismatch = none →
    spFault s b.m (ctxBank ((s.motif b.m).slot b.pos r.inst.slot).ctx) (ctxSpan ((s.motif b.m).slot b.pos r.inst.slot).ctx) (memAddr (beatIn s b.m b.pos r)) = 0 → sbEntryFor (s.motif b.m) r.inst.tid (spLinear (ctxBank ((s.motif b.m).slot b.pos r.inst.slot).ctx) (ctxSpan ((s.motif b.m).slot b.pos r.inst.slot).ctx) (memAddr (beatIn s b.m b.pos r))) = none →
    q = cellRequest s b ((s.motif b.m).slot b.pos r.inst.slot).ctx → bankTurn s b.m (spBank (spLinear (ctxBank ((s.motif b.m).slot b.pos r.inst.slot).ctx) (ctxSpan ((s.motif b.m).slot b.pos r.inst.slot).ctx) (memAddr (beatIn s b.m b.pos r)))) q = true →
    spRead b.m (spLinear (ctxBank ((s.motif b.m).slot b.pos r.inst.slot).ctx) (ctxSpan ((s.motif b.m).slot b.pos r.inst.slot).ctx) (memAddr (beatIn s b.m b.pos r))) b.ecc (takeTurn b.m q s) = (some w, u) →
    exec (.cellLd b) s = .next (deliver 0x70 b.m b.pos (runDsts s b.m b.pos r) sendResults r w u)) ∧
  (∀ (b : CellBeat) (s : State) (r : Run) (rest : List Run) (q : BankAsk), takeRun (s.motif b.m) b.pos 0x70 = some (r, rest) → r.stopped = false → b.mismatch = none →
    spFault s b.m (ctxBank ((s.motif b.m).slot b.pos r.inst.slot).ctx) (ctxSpan ((s.motif b.m).slot b.pos r.inst.slot).ctx) (memAddr (beatIn s b.m b.pos r)) = 0 → sbEntryFor (s.motif b.m) r.inst.tid (spLinear (ctxBank ((s.motif b.m).slot b.pos r.inst.slot).ctx) (ctxSpan ((s.motif b.m).slot b.pos r.inst.slot).ctx) (memAddr (beatIn s b.m b.pos r))) = none →
    q = cellRequest s b ((s.motif b.m).slot b.pos r.inst.slot).ctx → bankTurn s b.m (spBank (spLinear (ctxBank ((s.motif b.m).slot b.pos r.inst.slot).ctx) (ctxSpan ((s.motif b.m).slot b.pos r.inst.slot).ctx) (memAddr (beatIn s b.m b.pos r)))) q = false → exec (.cellLd b) s = .next (loseTurn b.m q s)) ∧
  (∀ (b : CellBeat) (s : State) (r : Run) (rest : List Run), takeRun (s.motif b.m) b.pos 0x71 = some (r, rest) → r.stopped = false → b.mismatch = none → r.inst.tid ≠ 0 →
    (s.motif b.m).sb.length < 256 → spFault s b.m (ctxBank ((s.motif b.m).slot b.pos r.inst.slot).ctx) (ctxSpan ((s.motif b.m).slot b.pos r.inst.slot).ctx) (memAddr (beatIn s b.m b.pos r)) = 0 →
    exec (.cellSt b) s = .next (endBeat 0x71 b.m b.pos sendResults { r with beat := r.beat + 1 } (s.setMotif b.m { s.motif b.m with
      sb := (s.motif b.m).sb ++ [{ tid := r.inst.tid, addr := (spLinear (ctxBank ((s.motif b.m).slot b.pos r.inst.slot).ctx) (ctxSpan ((s.motif b.m).slot b.pos r.inst.slot).ctx) (memAddr (beatIn s b.m b.pos r))), data := (beatIn s b.m b.pos r).b }] }))) ∧
  (∀ (b : CellBeat) (s : State) (r : Run) (rest : List Run), takeRun (s.motif b.m) b.pos 0x71 = some (r, rest) → r.stopped = false → b.mismatch = none → r.inst.tid ≠ 0 →
    256 ≤ (s.motif b.m).sb.length → spFault s b.m (ctxBank ((s.motif b.m).slot b.pos r.inst.slot).ctx) (ctxSpan ((s.motif b.m).slot b.pos r.inst.slot).ctx) (memAddr (beatIn s b.m b.pos r)) = 0 →
    exec (.cellSt b) s = .next (faultBeat 0x71 b r (.program 0x20) (s.setMotif b.m { (s.motif b.m).setPart r.inst.tid
      { (s.motif b.m).part r.inst.tid with overEx := r.inst.exec + 1 } with sbOver := true }))) ∧
  (∀ (b : CellBeat) (s : State) (r : Run) (rest : List Run) (q : BankAsk), takeRun (s.motif b.m) b.pos 0x71 = some (r, rest) → r.stopped = false → b.mismatch = none → r.inst.tid = 0 →
    spFault s b.m (ctxBank ((s.motif b.m).slot b.pos r.inst.slot).ctx) (ctxSpan ((s.motif b.m).slot b.pos r.inst.slot).ctx) (memAddr (beatIn s b.m b.pos r)) = 0 → q = cellRequest s b ((s.motif b.m).slot b.pos r.inst.slot).ctx → bankTurn s b.m (spBank (spLinear (ctxBank ((s.motif b.m).slot b.pos r.inst.slot).ctx) (ctxSpan ((s.motif b.m).slot b.pos r.inst.slot).ctx) (memAddr (beatIn s b.m b.pos r)))) q = true →
    exec (.cellSt b) s = .next (endBeat 0x71 b.m b.pos sendResults { r with beat := r.beat + 1 } (spStore b.m
      (spLinear (ctxBank ((s.motif b.m).slot b.pos r.inst.slot).ctx) (ctxSpan ((s.motif b.m).slot b.pos r.inst.slot).ctx) (memAddr (beatIn s b.m b.pos r))) (beatIn s b.m b.pos r).b b.ecc (takeTurn b.m q s)))) ∧
  (∀ (b : CellBeat) (s : State) (r : Run) (rest : List Run) (code : Nat), takeRun (s.motif b.m) b.pos 0x70 = some (r, rest) → r.stopped = false → b.mismatch = none →
    code = spFault s b.m (ctxBank ((s.motif b.m).slot b.pos r.inst.slot).ctx) (ctxSpan ((s.motif b.m).slot b.pos r.inst.slot).ctx) (memAddr (beatIn s b.m b.pos r)) → code ≠ 0 →
    exec (.cellLd b) s = .next (faultBeat 0x70 b r (.program code) s)) ∧
  (∀ (b : CellBeat) (s : State) (r : Run) (rest : List Run), takeRun (s.motif b.m) b.pos 0x74 = some (r, rest) → b.mismatch = none → r.beat + 1 < r.beats →
    exec (.cellGather b) s = .next (s.setMotif b.m (replaceRun (s.motif b.m) b.pos 0x74
      { r with beat := r.beat + 1, out := r.out ++ [inputWord r (leadInput ((s.motif b.m).slot b.pos r.inst.slot).ctx)] })))

/-- STEER, DROP and CANCEL beats. -/
def Obligations.CellSteerDropCancel : Prop :=
  (∀ (b : CellBeat) (s : State) (r : Run) (rest : List Run) (side : Bool), takeRun (s.motif b.m) b.pos 0x80 = some (r, rest) →
    side = (if r.beat = 0 then (beatIn s b.m b.pos r).c == 0#32 else r.toDst1) →
    exec (.cellSteer b) s = .next (deliver 0x80 b.m b.pos [if side then ctxDst1 ((s.motif b.m).slot b.pos r.inst.slot).ctx else ctxDst0 ((s.motif b.m).slot b.pos r.inst.slot).ctx] sendSteer { r with toDst1 := side }
      (b.mismatch.getD (beatIn s b.m b.pos r).a) (if b.mismatch.isSome then noteMismatch b.m b.pos r false s else s))) ∧
  (∀ (b : CellBeat) (s : State) (r : Run) (rest : List Run), takeRun (s.motif b.m) b.pos 0x81 = some (r, rest) →
    exec (.cellDrop b) s = .next (endBeat 0x81 b.m b.pos sendResults { r with beat := r.beat + 1 } (if b.mismatch.isSome then noteMismatch b.m b.pos r false s else s))) ∧
  (∀ (b : CellBeat) (s : State) (r : Run) (rest : List Run), takeRun (s.motif b.m) b.pos 0x82 = some (r, rest) → b.mismatch = none → r.stopped = false →
    exec (.cellCancel b) s = .next (endBeat 0x82 b.m b.pos sendResults { r with beat := r.beat + 1 } (s.setMotif b.m
      (sendRoute s.time.clk ((s.motif b.m).slot b.pos r.inst.slot).ctx r.inst.slot b.pos (ctxDst0 ((s.motif b.m).slot b.pos r.inst.slot).ctx)
        { resultToken (s.motif b.m) b.pos r [] with tid := (beatIn s b.m b.pos r).a.toNat % 4096, cancel := true } (s.motif b.m))))) ∧
  (∀ (b : CellBeat) (s : State) (r : Run) (rest : List Run), takeRun (s.motif b.m) b.pos 0x82 = some (r, rest) → b.mismatch = none → r.stopped = true →
    exec (.cellCancel b) s = .next (endBeat 0x82 b.m b.pos sendResults { r with beat := r.beat + 1 } s))

/-- Where a beat before the last of its instance puts its result, and what the last beat of a stopped one sends. -/
def Obligations.BeatDelivery : Prop :=
  (∀ (op m pos : Nat) (ds : List Nat) (fin : Nat → Nat → Run → State → State) (r : Run) (w : Word) (s t : State), r.beat + 1 < r.beats →
    t = deliver op m pos ds fin r w s →
    t.motif m = replaceRun (setRunBank (s.motif m) pos r (ds.foldl (fun b d => writeDest b d w) (runBank (s.motif m) pos r))).1 pos op
        { (setRunBank (s.motif m) pos r (ds.foldl (fun b d => writeDest b d w) (runBank (s.motif m) pos r))).2 with beat := r.beat + 1, prev := w, out := r.out ++ [w] } ∧
    (∀ n, n ≠ m → t.motif n = s.motif n) ∧ { t with motifs := s.motifs } = s) ∧
  (∀ (op m pos : Nat) (ds : List Nat) (fin : Nat → Nat → Run → State → State) (r : Run) (w : Word) (s t : State), r.stopped = true → r.beats ≤ r.beat + 1 → (fin = sendResults ∨ fin = sendSteer) →
    t = deliver op m pos ds fin r w s →
    (t.motif m).outs = (s.motif m).outs ∧ (t.motif m).closes = (s.motif m).closes ∧ (∀ n, n ≠ m → t.motif n = s.motif n) ∧ { t with motifs := s.motifs } = s)

/-- Token delivery, the entry wait, order, selection and dispatch inside a motif. -/
def Obligations.MotifTokens : Prop :=
  (∀ (m src : Nat) (s : State) (o : OutTok) (os : List OutTok), (s.motif m).out src = o :: os → routeKind o.route = 3 → bit o.route 12 = false →
    granted (s.motif m) src o = true → crossUsed s m + o.size ≤ 32 →
    exec (.tokenDelivery m src) s = .next (cross m (egressPacket o) (s.setMotif m (popOut s.time.clk src (s.motif m))))) ∧
  (∀ (m src : Nat) (s : State) (o : OutTok) (os : List OutTok), (s.motif m).out src = o :: os → routeKind o.route = 3 → bit o.route 12 = false →
    32 < crossUsed s m + o.size → exec (.tokenDelivery m src) s = .next s) ∧
  (∀ (m src : Nat) (s u : State) (o : OutTok) (os : List OutTok), (s.motif m).out src = o :: os → routeKind o.route = 3 → bit o.route 12 = true →
    granted (s.motif m) src o = true → o.tok.cancel = false → u = s.setMotif m (popOut s.time.clk src (s.motif m)) →
    exec (.tokenDelivery m src) s = .next (u.setMotif m { u.motif m with shuttleIn := (u.motif m).shuttleIn ++ [o.tok] })) ∧
  (∀ (m src : Nat) (s : State) (o : OutTok) (os : List OutTok), (s.motif m).out src = o :: os → routeKind o.route ≠ 3 → o.tok.cancel = false →
    outDests (s.motif m) o ≠ [] → straggler s m o.tok = false → remapping (s.motif m) (outDests (s.motif m) o) = false → granted (s.motif m) src o = true →
    noEntry (s.motif m) (outDests (s.motif m) o) = false → src ≠ 16 →
    exec (.tokenDelivery m src) s = .next ((outDests (s.motif m) o).foldl (fun st d => deliverTo m d o.tok st) (s.setMotif m (popOut s.time.clk src (s.motif m))))) ∧
  (∀ (m src : Nat) (s : State) (o : OutTok) (os : List OutTok), (s.motif m).out src = o :: os → routeKind o.route ≠ 3 → o.tok.cancel = false →
    outDests (s.motif m) o ≠ [] → straggler s m o.tok = false → remapping (s.motif m) (outDests (s.motif m) o) = false → granted (s.motif m) src o = true →
    noEntry (s.motif m) (outDests (s.motif m) o) = true → o.waitT = 0 →
    exec (.tokenDelivery m src) s = .next ((s.setMotif m (setHead src { o with waitT := s.time.clk + 1 } (s.motif m))).bump (0x3200 + m) 2)) ∧
  (∀ (m src : Nat) (s : State) (o : OutTok) (os : List OutTok), (s.motif m).out src = o :: os → o.waitT ≠ 0 →
    o.waitT - 1 + cyclesNs s m 4096 ≤ s.time.clk →
    exec (.matchEntryWaitTimeout m src) s = .next (if o.tok.tid = 0 then (s.setMotif m (popOut s.time.clk src (s.motif m))).bump (0x3200 + m) 5
      else programFault m o.tok.tid o.tok.exec 0x04 (s.setMotif m (popOut s.time.clk src (s.motif m))))) ∧
  (∀ (m pos : Nat) (s : State), exec (.orderWindowReached m pos) s = .next (settleCell m pos s)) ∧
  (∀ (m pos : Nat) (s : State) (w : Inst) (is : List Inst), ((s.motif m).cell pos).winner = none → ((s.motif m).cell pos).runs = [] →
    remapping (s.motif m) [(pos, 0, 0)] = false → candidates s (s.motif m) pos ((s.motif m).cell pos) = w :: is →
    eligible s (s.motif m) pos ((s.motif m).cell pos) w = true → s.time.clk < w.readyAt →
    exec (.winnerSelection m pos) s = .next (settleCell m pos (s.setMotif m ((s.motif m).setCell pos
      { (s.motif m).cell pos with ready := ((s.motif m).cell pos).ready.filter (fun i => decide (i ≠ w)),
                                  formed := ((s.motif m).cell pos).formed.filter (fun i => decide (i ≠ w)), winner := some w })))) ∧
  (∀ (m pos tok : Nat) (bad : TidList) (s u : State) (i : Inst) (k : BitVec 128), ((s.motif m).cell pos).winner = some i → k = ((s.motif m).slot pos i.slot).ctx →
    remapping (s.motif m) [(pos, 0, 0)] = false → i.tid = 0 → ctxTxb k = 0 → lengthOk k i = true →
    u = noteDispatch m pos k i (noteNext m pos k i (s.setMotif m ((s.motif m).setCell pos { (s.motif m).cell pos with winner := none }))) →
    exec (.instanceDispatch m pos 0 tok bad) s = .next (settleCell m pos (startRun m pos i u))) ∧
  (∀ (m pos tok : Nat) (bad : TidList) (s u : State) (i : Inst) (k : BitVec 128), ((s.motif m).cell pos).winner = some i → k = ((s.motif m).slot pos i.slot).ctx →
    remapping (s.motif m) [(pos, 0, 0)] = false → i.tid ≠ 0 → ctxTxb k ≠ 1 →
    u = noteDispatch m pos k i (noteNext m pos k i (s.setMotif m ((s.motif m).setCell pos { (s.motif m).cell pos with winner := none }))) →
    ((u.motif m).part i.tid).closed = false →
    exec (.instanceDispatch m pos 0 tok bad) s = .next (settleCell m pos (runOrFault m pos k i u))) ∧
  (∀ (m src : Nat) (s : State) (o : OutTok) (os : List OutTok), (s.motif m).out src = o :: os → o.tok.cancel = true → granted (s.motif m) src o = true →
    (routeKind o.route = 1 ∨ routeKind o.route = 2) →
    exec (.cancelWordArrival m src) s =
      .next ((outDests (s.motif m) o).foldl (fun st d => cancelAt m d o.tok st) (s.setMotif m (popOut s.time.clk src (s.motif m)))))

/-- Scratchpad bank power, the gather engine and context repair. -/
def Obligations.MotifEngines : Prop :=
  (∀ (s : State) (path m v : Nat), m < 64 → v < 65536 → Accepts s path (0x3200 + m) 8 2 v → motifIdle (mailArrives s) m = true →
    (List.range 8).any (fun b => field v (2 * b + 1) (2 * b) == 3) = false → mirrorSplit (mailArrives s) m v = false →
    exec (.bankPowerWrite path m v) s = .next (answered path (.ok (startBanks m v (mailArrives s))))) ∧
  (∀ (m bank : Nat) (s : State) (t : BankTr) (ts : List BankTr), takeFirst (fun (t : BankTr) => t.bank == bank && decide (t.due ≤ s.time.clk)) (s.motif m).bankTr = some (t, ts) →
    t.target = 2 →
    exec (.bankPowerTransitionDone m bank) s = .next (s.setMotif m { s.motif m with bankTr := ts, scratch := memZero (s.motif m).scratch (32768 * bank) (32768 * bank + 32768), ecc := (s.motif m).ecc.filter (fun e => decide (e.1 < 32768 * bank / 8) || decide ((32768 * bank + 32768) / 8 ≤ e.1)) })) ∧
  (∀ (m bank : Nat) (s : State) (t : BankTr) (ts : List BankTr), takeFirst (fun (t : BankTr) => t.bank == bank && decide (t.due ≤ s.time.clk)) (s.motif m).bankTr = some (t, ts) →
    t.target ≠ 2 → exec (.bankPowerTransitionDone m bank) s = .next (s.setMotif m { s.motif m with bankTr := ts })) ∧
  (∀ (m : Nat) (s : State) (g : Gather) (gs : List Gather), (s.motif m).gathers = g :: gs → g.ready = true → gatherTail (s.motif m) = false →
    exec (.gatherStart m) s = .next (s.setMotif m { s.motif m with gathers := { g with started := true } :: gs })) ∧
  (∀ (m ecc : Nat) (bad : TidList) (s u : State) (g : Gather) (gs : List Gather) (w : Word) (q : BankAsk), (s.motif m).gathers = g :: gs → g.started = true →
    gatherFits (s.motif m) ((s.motif m).slot g.pos g.slot).ctx g = true →
    gatherCheck s m ((s.motif m).slot g.pos g.slot).ctx g (g.indices.getD g.k 0) = 0 → q = { cls := 3, waited := askWaited (s.motif m) 3 0 } →
    bankTurn s m (ctxBank ((s.motif m).slot g.pos g.slot).ctx) q = true →
    spRead m (32768 * (ctxBank ((s.motif m).slot g.pos g.slot).ctx) + (g.base + 4 * g.indices.getD g.k 0)) ecc (takeTurn m q s) = (some w, u) →
    exec (.gatherElementRead m ecc bad) s = .next (gatherWord m g w false u)) ∧
  (∀ (m ecc : Nat) (bad : TidList) (s : State) (g : Gather) (gs : List Gather), (s.motif m).gathers = g :: gs → g.started = true →
    gatherFits (s.motif m) ((s.motif m).slot g.pos g.slot).ctx g = true →
    gatherCheck s m ((s.motif m).slot g.pos g.slot).ctx g (g.indices.getD g.k 0) ≠ 0 → ctxGfill ((s.motif m).slot g.pos g.slot).ctx = true →
    exec (.gatherElementRead m ecc bad) s = .next (gatherWord m g g.fill true (s.bump (0x3200 + m) 0x0D))) ∧
  (∀ (m ecc code : Nat) (bad : TidList) (s : State) (g : Gather) (gs : List Gather), (s.motif m).gathers = g :: gs → g.started = true →
    gatherFits (s.motif m) ((s.motif m).slot g.pos g.slot).ctx g = true → code = gatherCheck s m ((s.motif m).slot g.pos g.slot).ctx g (g.indices.getD g.k 0) →
    code ≠ 0 → ctxGfill ((s.motif m).slot g.pos g.slot).ctx = false →
    exec (.gatherElementRead m ecc bad) s = .next (gatherFault m g code (g.base + 4 * g.indices.getD g.k 0) bad s)) ∧
  (∀ (m kind pos slot : Nat) (s : State),
    exec (.contextRepair m kind pos slot 0) s = .next (raise 20 ((s.setMotif m ((s.motif m).repair kind pos slot)).bump 0x3601 0x0A)))

/-- What the notices of a transaction do at the selvedge controller and at a motif. -/
def Obligations.TransactionNotices : Prop :=
  (∀ (m : Nat) (tids : TidList) (s : State), holdsOpen (s.motif m) = true → (s.motif m).pool.length ≤ 8 → 16 ≤ (freeTids s tids).length →
    exec (.tidGrantNotice m tids) s = .next (s.setMotif m { s.motif m with pool := (s.motif m).pool ++ (freeTids s tids).take 16 })) ∧
  (∀ (tid : Nat) (s w u : State) (p : Packet) (x : Txn), takePacket (atSelvedge 0 tid) s = some (p, w) → u = deadlineGone tid w → u.txn? tid = some x → x.state = .opened →
    exec (.openingNotice tid) s = .next (txnMove tid .executing 0 x u)) ∧
  (∀ (m tid : Nat) (s : State) (c : CloseRep) (cs : List CloseRep) (x : Motif), x = s.motif m → takeFirst (fun (c : CloseRep) => c.tid == tid && !c.formed) x.closes = some (c, cs) →
    x.mism.any (fun d => d.tid == tid) = false →
    exec (.closeReport m tid) s = .next (s.setMotif m { x.setPart tid { x.part tid with closed := true } with closes := cs ++ [{ c with formed := true }] })) ∧
  (∀ (m tid : Nat) (s : State) (c : CloseRep) (cs : List CloseRep) (r : Txn), takeFirst (fun (c : CloseRep) => c.tid == tid && c.formed) (s.motif m).closes = some (c, cs) →
    wordsWaiting s m tid = false → s.txn? tid = some r →
    exec (.closeHandover m tid) s = .next ((s.setMotif m { s.motif m with closes := cs }).submit m (noticeToSelvedge 1 tid c.exec r.stamp [0#32, 0#32]))) ∧
  (∀ (tid ecc : Nat) (s w u : State) (p : Packet) (x : Txn), takePacket (atSelvedge 1 tid) s = some (p, w) → u = deadlineGone tid w → u.txn? tid = some x →
    pastDeadline s.now x = false → x.exec ≤ p.exec → x.live = true →
    exec (.closeNotice tid ecc) s = .next (tryCommit tid (entryEcc tid ecc (u.setTxn tid
      { x with part := (x.part ||| leNat (wordBytes p.data) ||| 2 ^ p.src), closed := x.closed ||| 2 ^ p.src })))) ∧
  (∀ (tid ecc : Nat) (s w u : State) (p : Packet) (x : Txn), takePacket (atSelvedge 1 tid) s = some (p, w) → u = deadlineGone tid w → u.txn? tid = some x →
    pastDeadline s.now x = true → exec (.closeNotice tid ecc) s = .next (u.bump 0x3500 0x0B)) ∧
  (∀ (m tid : Nat) (s u : State) (p : Packet), takePacket (atMotif 5 m tid) s = some (p, u) →
    exec (.commitNotice m tid) s = .next (u.setMotif m ((u.motif m).commitTid tid))) ∧
  (∀ (m tid : Nat) (bad : TidList) (s u : State) (p : Packet), m < 64 → takePacket (atMotif 2 m tid) s = some (p, u) → ((u.motif m).part tid).ended ≤ p.exec →
    ((u.motif m).part tid).opener = false → exec (.abortNotice m tid bad) s = .next (abortAtMotif m tid p.exec u)) ∧
  (∀ (m tid : Nat) (bad : TidList) (s w u : State) (p : Packet) (x : Txn), 64 ≤ m → takePacket (atSelvedge 2 tid) s = some (p, w) → u = deadlineGone tid w → u.txn? tid = some x → x.exec ≤ p.exec →
    exec (.abortNotice m tid bad) s = .next (selvAbort 8 tid (causeOfWord (wordAt p.data 0)) (wordAt p.data 1) u)) ∧
  (∀ (tid : Nat) (s w u : State) (p : Packet) (x : Txn), takePacket (atSelvedge 3 tid) s = some (p, w) → u = deadlineAt tid w → u.txn? tid = some x → x.state = .aborted → x.noReplay = false →
    exec (.replayNotice tid) s = .next (txnMove tid .executing 0 { x with exec := p.exec, part := 2 ^ x.opener, closed := 0, cause := .none } (silenceKids 8 tid u))) ∧
  (∀ (tid : Nat) (s w u : State) (p : Packet) (x : Txn), takePacket (atSelvedge 4 tid) s = some (p, w) → u = deadlineGone tid w → u.txn? tid = some x → x.state = .aborted →
    exec (.noReplayNotice tid) s = .next (u.setTxn tid { x with noReplay := true }))

/-- Suspension, child rechecks, the drain of the store buffer, re-entry, arrivals, deadlines and the return of a TID. -/
def Obligations.TransactionTimes : Prop :=
  (∀ (s : State) (path c : Nat), c < 64 → Accepts s path (0x3400 + c) 2 1 1 → (mailArrives s).classState c = 1 →
    exec (.suspendWrite path c true) s = .next (answered path (writeSuspend c true (mailArrives s)))) ∧
  (∀ (tid ecc : Nat) (s : State), s.selvedge.recheck.contains tid = true → exec (.childRecheck tid ecc) s =
      .next (tryCommit tid (entryEcc tid ecc (deadlineGone tid { s with selvedge := { s.selvedge with recheck := s.selvedge.recheck.erase tid } })))) ∧
  (∀ (m ecc : Nat) (s : State) (e : SbEntry) (es : List SbEntry), takeFirst (fun (e : SbEntry) => e.committed && spOn s m (spBank e.addr)) (s.motif m).sb = some (e, es) →
    exec (.storeBufferDrain m ecc 0) s = .next (spStore m e.addr e.data ecc (s.setMotif m { s.motif m with sb := es }))) ∧
  (∀ (m ecc : Nat) (s : State) (e : SbEntry) (es : List SbEntry), takeFirst (fun (e : SbEntry) => e.committed && spOn s m (spBank e.addr)) (s.motif m).sb = some (e, es) →
    exec (.storeBufferDrain m ecc 2) s = .next (sbBad m e (s.setMotif m { s.motif m with sb := es }))) ∧
  (∀ (s : State) (e : Entry) (es : List Entry), s.selvedge.inject = e :: es → exec .reentryInject s =
      .next (enterFree 71 e.stream { stamp := e.stamp, words := e.words, prio := e.prio } { s with selvedge := { s.selvedge with inject := es } })) ∧
  (∀ (port : Nat) (s w u : State) (p : Packet) (x : Txn), takePacket (atPort port) s = some (p, w) → u = deadlineGone p.tid w →
    p.tid ≠ 0 → u.txn? p.tid = some x → x.exec ≤ p.exec → x.live = true → pastDeadline s.now x = false → bit (s.cls x.planeB x.cls).ports port = true →
    portFormat s port (p.data.take p.words) = true → (u.queue port).length < 256 →
    exec (.selvedgeEntryArrival port) s = .next (queueAdd port (entryOf p x) u)) ∧
  (∀ s : State, exec .deadlineCheck s = .next ((s.selvedge.txns.map (·.1)).foldl (fun st t => deadlineCheck t st) s)) ∧
  (∀ (tid : Nat) (s : State) (x : Txn), s.txn? tid = some x → x.state = .released → x.releasedAt + 16384 ≤ s.t →
    exec (.tidReturn tid) s = .next (tidsShow { s with
      motifs := s.motifs.map (fun e => (e.1, { e.2 with parts := mdel e.2.parts tid
                                                        suspectTid := e.2.suspectTid.map (fun q => (if q.1 = tid then 0 else q.1, q.2))
                                                        remaps := e.2.remaps.map (fun r => if r.tid = tid then { r with tid := 0 } else r)
                                                        mismBy := e.2.mismBy.filter (fun q => q.1 != tid) }))
      selvedge := { s.selvedge with txns := (mdel s.selvedge.txns tid).map (fun e => (e.1, if e.2.parent = tid then { e.2 with parent := 0 } else e.2)) } }))

/-- Mismatch reports, replay, remapping, scrubbing and link retries. -/
def Obligations.FaultMasking : Prop :=
  (∀ (m : Nat) (bad : TidList) (s : State) (d : Mism) (ds : List Mism), (s.motif m).mism = d :: ds → d.tid = 0 →
    exec (.laneMismatchReport m bad) s = .next (raise 18 (countMism m d (s.setMotif m { s.motif m with mism := ds })))) ∧
  (∀ (m : Nat) (bad : TidList) (s : State) (d : Mism) (ds : List Mism), (s.motif m).mism = d :: ds → d.tid ≠ 0 →
    exec (.laneMismatchReport m bad) s = .next (motifAbort m d.tid d.exec .mismatch bad (suspectMark m d (countMism m d (s.setMotif m { s.motif m with mism := ds }))))) ∧
  (∀ (m t : Nat) (bad : TidList) (s : State) (ts : List Nat) (x : Motif), x = s.motif m → x.replays = t :: ts → (x.out 18).any (fun o => o.tok.replay) = false → x.streaming = [] →
    remapWanted s m t = false → (x.part t).ended ≤ (x.part t).exec →
    exec (.replayStreamStart m 0 bad) s = .next (countReplay m (x.part t).cls (x.part t).exec (s.setMotif m
      (feedStream s.time.clk ((x.log.filter (fun r => r.bound && r.tid == t)).map (replayToken x (x.part t).exec)) { x with replays := ts })))) ∧
  (∀ (m t sp p : Nat) (bad : TidList) (s : State) (x : Motif), x = s.motif m → freeSpare s m = some sp → nextRemap s m = some (t, p) →
    exec (.remapStart m bad) s = .next (collateral m p t bad (s.setMotif m { x with remaps := x.remaps ++ [{ pos := p, spare := sp, tid := t, since := s.time.clk }] }))) ∧
  (∀ (m : Nat) (words : List LaneWord) (s a b c : State) (r : Remap) (rs : List Remap), (s.motif m).remaps = r :: rs →
    a = setPhys m r.pos r.spare (s.setMotif m (fillSpare r.pos { s.motif m with remaps := rs, suspectTid := (s.motif m).suspectTid.filter (fun e => e.2 != r.pos) })) →
    b = (a.setObj (0x3200 + m) 0x22 (satAdd 8 (a.obj (0x3200 + m) 0x22) 1)).setObj (0x3200 + m) 0x23 (a.obj (0x3200 + m) 0x23 - 1) →
    c = (b.setObj 0x3700 5 (satAdd 16 (b.obj 0x3700 5) 1)).setObj 0x3700 6 (b.obj 0x3700 6 - 1) →
    exec (.remapComplete m words) s = .next (noteSpares m (raise 4 (moveBanks m r.pos words c)))) ∧
  (∀ (s : State) (path v : Nat), Accepts s path 0x3700 0x0B 1 v → exec (.clearSuspectWrite path v) s = .next (answered path (writeClearSuspect v (mailArrives s)))) ∧
  (∀ (w : ScrubWord) (s : State), w.hoop = false → exec (.scrubRead w) s = .next (scrubScratch (w.unit % 64) (w.addr % 262144) w.ecc s)) ∧
  (∀ (page : Nat) (s : State), exec (.pageCopyComplete page) s = .next { s with dram := { s.dram with copying := s.dram.copying.filter (fun c => c.1 != page) } }) ∧
  (∀ (addr ecc : Nat) (s : State), exec (.dramPatrolScrub addr ecc) s = .next (dramCheck addr 1 ecc s).2) ∧
  (∀ (x y port d k run : Nat) (again : Bool) (s : State), x < 8 → y < 8 → port < 7 → port ≠ 0 → d = linkKey x y port → k = linkOf x y port →
    run = (if again then mget 0 s.net.retries d + 1 else 1) → run < 4 → mget 0 s.net.epochErrs k < 15 →
    exec (.flitCrcError x y port again) s = .next ((({ s with net := { s.net with retries := mset 0 s.net.retries d run, epochErrs := mset 0 s.net.epochErrs k (mget 0 s.net.epochErrs k + 1) } } : State).bump 0x3702 1).bump 0x3702 2))

/-- Injection, route cache refill, forwarding, ageing and delivery of packets. -/
def Obligations.NetworkTransport : Prop :=
  (∀ (k : Nat) (s : State) (p : Packet) (ps : List Packet), (s.source k).queue = p :: ps → (s.source k).refill = none → edgeCut s k = false → injectHeld s k p = false → (p.typ = 1 ∨ (8 ≤ p.typ ∧ p.typ ≤ 10)) →
    exec (.packetInjection k) s = .next (inject k p (popSource k s))) ∧
  (∀ (k st e : Nat) (s : State) (p : Packet) (ps : List Packet), (s.source k).queue = p :: ps → (s.source k).refill = none → edgeCut s k = false → injectHeld s k p = false → p.typ = 0 → p.stream = some st →
    (s.source k).frame.filter (fun h => h.1 == st) = none → cached s k st = some e →
    exec (.packetInjection k) s = .next (injectRouted k st e p (cacheTouch k st s))) ∧
  (∀ (k st : Nat) (s : State) (p : Packet) (ps : List Packet), (s.source k).queue = p :: ps → (s.source k).refill = none → edgeCut s k = false → injectHeld s k p = false → p.typ = 0 → p.stream = some st →
    (s.source k).frame.filter (fun h => h.1 == st) = none → cached s k st = none →
    exec (.packetInjection k) s = .next ((s.setSource k { s.source k with refill := some st }).bump 0x3800 6)) ∧
  (∀ (k st : Nat) (s : State), (s.source k).refill = some st →
    exec (.routeCacheRefillDone k) s = .next (routeShow ((cacheInsert k st (masterEntry s st) (s.setSource k { s.source k with refill := none })).bump
      (0x3100 + hoopOf (cacheOf k)) 0x26))) ∧
  (∀ (x y port : Nat) (bad : TidList) (s u : State) (p : Packet), grantee s x y port = some p → u = dropFlying p s →
    exec (.packetForward x y port 0 bad) s = .next { u with net := { u.net with flying := u.net.flying ++ [hop s p port], grantSeq := u.net.grantSeq + 1,
                                                                                 grants := mset 0 u.net.grants (64 * p.inPort + 8 * y + x) (u.net.grantSeq + 1),
                                                                                 retries := mset 0 u.net.retries (linkKey x y port) 0 } }) ∧
  (∀ (k : Nat) (s : State) (p : Packet), s.net.flying[k]? = some p → p.urgency < 14 →
    exec (.urgencyAgeing false k) s = .next { s with net := { s.net with flying := s.net.flying.set k { p with urgency := p.urgency + 1 } } }) ∧
  (∀ (k : Nat) (s : State) (p : Packet), s.net.flying[k]? = some p → p.urgency = 14 →
    exec (.urgencyAgeing false k) s = .next (({ s with net := { s.net with flying := s.net.flying.set k { p with urgency := 15 } } } : State).bump 0x3010 2)) ∧
  (∀ (x y : Nat) (s : State) (p : Packet), s.net.flying.find? (fun p => p.rx == x && p.ry == y && p.inPort == 8 && !deliveryHeld s x y p) = some p →
    forMotif p = true → p.endpoint ≤ 16 → (s.motif (8 * y + x)).offline = false →
    exec (.packetDelivery x y false) s = .next (cross (64 + (8 * y + x)) { p with waited := 0 } (noteReceived (initiatorOf x y false) p (dropFlying p s)))) ∧
  (∀ (x y : Nat) (s : State) (p : Packet), s.net.flying.find? (fun p => p.rx == x && p.ry == y && p.inPort == 8 && !deliveryHeld s x y p) = some p →
    toLocal p = true → (s.motif (8 * y + x)).offline = true → p.isRequest = true →
    exec (.packetDelivery x y false) s = .next (answer (initiatorOf x y false) { p with waited := 0 } 1 []
      ((noteReceived (initiatorOf x y false) p (dropFlying p s)).bump 0x3010 5))) ∧
  (∀ (x y : Nat) (edge : Bool) (s : State) (p : Packet), s.net.flying.find? (fun p => p.rx == x && p.ry == y && p.inPort == 8 + b2n edge && !deliveryHeld s x y p) = some p →
    (s.motif (8 * y + x)).offline = false → accepts x y edge p = false → p.isRequest = false →
    exec (.packetDelivery x y edge) s = .next ((noteReceived (initiatorOf x y edge) p (dropFlying p s)).bump 0x3010 7)) ∧
  (∀ (s u : State) (p : Packet), s.net.flying.find? (fun p => p.rx == 4 && p.ry == 0 && p.inPort == 9 && !deliveryHeld s 4 0 p) = some p → p.edge = true → accepts 4 0 true p = true → p.typ = 0 →
    u = noteReceived (initiatorOf 4 0 true) p (dropFlying p s) →
    exec (.packetDelivery 4 0 true) s = .next (({ u with net := { u.net with inbox := u.net.inbox ++ [{ p with waited := 0 }] } } : State).interrupt 68 7))

/-- Crossings, memory requests, stream queues and DRAM service. -/
def Obligations.NetworkMemory : Prop :=
  (∀ (q : Nat) (s : State) (p : Packet) (ps : List Packet), q < 64 → mget [] s.net.crossing q = p :: ps →
    exec (.dualClockQueueDelivery q) s = .next (({ s with net := { s.net with crossing := mset [] s.net.crossing q ps } } : State).submit q p)) ∧
  (∀ (x y ecc h o : Nat) (edge : Bool) (s u v : State) (p : Packet), takeRequest x y edge 2 s = some (p, u) → regionOf s p.addr = .hoop h o →
    hoopOn s h (hoopBank o) = true → hoopChecks h (wordsOf o (4 * p.count)) ecc (hoopWaits h o u) = (true, v) →
    exec (.readRequest x y edge ecc) s = .next (answer (initiatorOf x y edge) p 0 (memWords (v.hoop h).mem o p.count) (v.addObjW 64 (0x3100 + h) 0x21 (4 * p.count)))) ∧
  (∀ (x y ecc : Nat) (edge : Bool) (s u : State) (p : Packet), takeRequest x y edge 2 s = some (p, u) → regionOf s p.addr = .unmapped →
    exec (.readRequest x y edge ecc) s = .next (answer (initiatorOf x y edge) p 2 [] u)) ∧
  (∀ (x y ecc h o : Nat) (edge : Bool) (s u v : State) (p : Packet) (ws : List Word) (z : Hoop), takeRequest x y edge 3 s = some (p, u) →
    regionOf s p.addr = .hoop h o → hoopOn s h (hoopBank o) = true → ws = p.data.take p.count → v = hoopWaits h o u → z = v.hoop h →
    exec (.writeRequest x y edge ecc) s = .next (answer (initiatorOf x y edge) p 0 [] ((v.setHoop h
      { z with mem := memWrite z.mem o (wordBytes ws), ecc := z.ecc.filter (fun e => decide (e.1 < (o + 7) / 8) || decide ((o + 4 * ws.length) / 8 ≤ e.1)) }).addObjW 64
        (0x3100 + h) 0x22 (4 * ws.length)))) ∧
  (∀ (h q x y a : Nat) (s u : State) (p : Packet) (ps : List Packet) (z : StreamQ), sliceRouter h 0 = (x, y) →
    takeFirst (fun (p : Packet) => p.typ == 0 && !p.edge && p.dx == x && p.dy == y && p.endpoint == 48 + q) s.net.inbox = some (p, ps) → z = s.squeue h q →
    p.tid = 0 → p.words ≠ 0 → z.count < z.slots → a = slotAt z z.count → slotStatus s a = 0 → slotWaits s a = false →
    u = slotBytes true a (storeWords a (slotWords (packetToken p)) { s with net := { s.net with inbox := ps } }) →
    exec (.streamQueueAppend h q) s = .next (u.setSqueue h q { z with count := z.count + 1, peak := max z.peak (z.held + 1) })) ∧
  (∀ (x y ecc h a : Nat) (edge : Bool) (s u v : State) (p : Packet) (z : StreamQ), takePacket (waitingAt x y edge 4) s = some (p, u) → sliceZero x y = some h →
    z = u.squeue h (p.endpoint - 48) → a = slotAt z 0 → z.count ≠ 0 → slotStatus s a = 0 → slotWaits s a = false → slotCheck a ecc u = (true, v) →
    exec (.pullRequest x y edge ecc) s = .next (answer (initiatorOf x y edge) p 0 (slotPeek v a ++ [0#32, 0#32]) ((slotBytes false a v).setSqueue h (p.endpoint - 48) z.pulled))) ∧
  (∀ (x y ecc h : Nat) (edge : Bool) (s u : State) (p : Packet), takePacket (waitingAt x y edge 4) s = some (p, u) → sliceZero x y = some h →
    (u.squeue h (p.endpoint - 48)).count = 0 → exec (.pullRequest x y edge ecc) s = .next (answer (initiatorOf x y edge) p 5 [] u)) ∧
  (∀ (ecc pick o : Nat) (s v : State) (p : Packet), bit s.power.on 11 = true → dramNext s pick = some p → p.typ = 2 → regionOf s p.addr = .dram o →
    dramCheck o p.count ecc { s with dram := { s.dram with rows := s.dram.rows.erase p } } = (true, v) →
    exec (.dramRequestService ecc pick) s = .next (answer 65 p 0 (memWords v.dram.mem o p.count) (v.addObjW 64 0x3012 9 (4 * p.count)))) ∧
  (∀ (ecc pick o : Nat) (s : State) (p : Packet), bit s.power.on 11 = true → dramNext s pick = some p → p.typ = 3 → regionOf s p.addr = .dram o →
    exec (.dramRequestService ecc pick) s = .next (answer 65 p 0 [] ((dramWrite o (p.data.take p.count)
      { s with dram := { s.dram with rows := s.dram.rows.erase p } }).addObjW 64 0x3012 0x0A (4 * p.count))))

/-- Writes of route entries, FLUSH_ALL, hoop bank power and its transitions. -/
def Obligations.RoutingCommands : Prop :=
  (∀ (s : State) (path v : Nat), Accepts s path 0x3800 2 8 v → s.obj 0x3800 3 = 0 → entryOk v = true →
    exec (.routeEntryWriteLazy path v) s = .next (answered path (.ok (masterWrite (s.obj 0x3800 1) v (mailArrives s))))) ∧
  (∀ (s : State) (path v : Nat), Accepts s path 0x3800 2 8 v → s.obj 0x3800 3 ≠ 0 → entryOk v = true →
    exec (.routeEntryWriteInvalidate path v) s = .next (sdoStart path (startInvalidate path (s.obj 0x3800 1) v (mailArrives s)))) ∧
  (∀ (s : State) (st path : Nat) (rest : List (Nat × Nat)), s.net.invalidating = (st, path) :: rest → path < 8 →
    exec .routeInvalidationComplete s = .next (serveNext (answered path (.ok ((invalidate st { s with net := { s.net with invalidating := rest } }).setObj 0x3800 8 s.t))))) ∧
  (∀ s : State, s.net.invalidating = [] → exec .routeInvalidationComplete s = .next (serveNext s)) ∧
  (∀ (s : State) (path : Nat), Accepts s path 0x3800 4 1 1 →
    exec (.flushAllWrite path true) s = .next (answered path (.ok (routeShow (flushCaches (mailArrives s)))))) ∧
  (∀ (s : State) (path h v old : Nat), h < 4 → Accepts s path (0x3100 + h) 0x20 8 v → hoopIdle (mailArrives s) h = true → old = s.obj (0x3100 + h) 0x20 →
    (List.range 32).any (fun b => field v (2 * b + 1) (2 * b) == 3 || (b % 8 == 7 && field v (2 * b + 1) (2 * b) != field old (2 * b + 1) (2 * b))) = false →
    exec (.hoopBankPowerWrite path h v) s = .next (answered path (.ok (startHoopBanks h v (mailArrives s))))) ∧
  (∀ (h bank : Nat) (s : State) (t : BankTr) (ts : List BankTr), takeFirst (fun (t : BankTr) => t.bank == bank && decide (t.due ≤ s.time.clk)) (s.hoop h).bankTr = some (t, ts) →
    t.target = 2 →
    exec (.hoopBankTransitionDone h bank) s = .next (s.setHoop h { s.hoop h with bankTr := ts, mem := (s.hoop h).mem.filter (fun e => hoopBank e.1 != bank)
                                                                                 ecc := (s.hoop h).ecc.filter (fun e => hoopBank (8 * e.1) != bank) })) ∧
  (∀ (h bank : Nat) (s : State) (t : BankTr) (ts : List BankTr), takeFirst (fun (t : BankTr) => t.bank == bank && decide (t.due ≤ s.time.clk)) (s.hoop h).bankTr = some (t, ts) →
    t.target ≠ 2 → exec (.hoopBankTransitionDone h bank) s = .next (s.setHoop h { s.hoop h with bankTr := ts }))

/-- Region loads and the changeover commands. -/
def Obligations.ChangeoverCommands : Prop :=
  (∀ (s : State) (img : List Byte), s.load.region = some img → (regionClasses s (headerOf img).motifs).all (fun c => s.obj (0x3400 + c) 0x14 == 0) = true →
    exec .regionDrained s = .next ((writeRegion img s).setLoad { s.load with region := none, locking := some img })) ∧
  (∀ (s a b : State) (img : List Byte), s.load.locking = some img →
    a = (headerOf img).motifList.foldl (fun st m => startCore m (st.setMotif m { st.motif m with offline := false })) s →
    b = (classRecs (scanImage img).secs).foldl (fun st e => classOn e.1 st) a →
    exec .regionLeaveReset s = .next (endLoad none (b.setLoad { b.load with locking := none, active := true, kind := 1, buf := img }))) ∧
  (∀ (s : State) (path : Nat), Accepts s path 0x3600 9 1 1 → s.obj 0x3600 1 = 0 → s.obj 0x5800 1 ≠ 5 → s.obj 0x3600 4 ≠ 1 →
    (coState 1 ((mailArrives s).setObj 0x3600 0x0A 0)).obj 0x3600 4 ≠ 1 →
    exec (.controlStartLoad path) s = .next (answered path (.ok (coState 1 ((mailArrives s).setObj 0x3600 0x0A 0))))) ∧
  (∀ (s : State) (path : Nat), Accepts s path 0x3600 9 1 2 → (s.obj 0x3600 1 = 6 ∨ s.obj 0x3600 1 = 7) →
    exec (.controlAcknowledge path) s = .next (answered path (.ok (coState 0 ((mailArrives s).setObj 0x3600 0x0A 0))))) ∧
  (∀ (s : State) (path v : Nat), Accepts s path 0x3600 2 2 v → (s.obj 0x3600 1 < 3 ∨ 6 < s.obj 0x3600 1) →
    exec (.coIdWrite path v) s = .next (answered path (.ok ((mailArrives s).setObj 0x3600 2 v)))) ∧
  (∀ (s : State) (path v : Nat), Accepts s path 0x3600 3 8 v → (s.obj 0x3600 1 < 3 ∨ 6 < s.obj 0x3600 1) → s.t + 2000000 ≤ v →
    exec (.tCWrite path v) s = .next (answered path (.ok ((mailArrives s).setObj 0x3600 3 v)))) ∧
  (∀ s : State, s.obj 0x3600 1 = 2 → s.obj 0x3600 2 ≠ 0 → s.t + 2000000 ≤ s.obj 0x3600 3 → s.obj 0x2100 2 = 2 → exec .changeoverArm s = .next (coState 3 s)) ∧
  (∀ (s : State) (path v : Nat), Accepts s path 0x3600 7 2 v → s.obj 0x3600 1 = 3 → v = s.obj 0x3600 2 → s.t + 1000000 ≤ s.obj 0x3600 3 → commitCounts s path = true →
    exec (.commitWrite path v) s = .next (answered path (.ok (coCommit ((mailArrives s).setObj 0x3600 7 v))))) ∧
  (∀ (s : State) (path v : Nat), Accepts s path 0x3600 8 2 v → s.obj 0x3600 1 = 4 → v = s.obj 0x3600 2 → s.t + 100000 ≤ s.obj 0x3600 3 →
    exec (.cancelWrite path v) s = .next (answered path (.ok (coAbandon 3 ((mailArrives s).setObj 0x3600 8 v))))) ∧
  (∀ s : State, s.obj 0x3600 1 = 3 → s.obj 0x3600 3 < s.t + 1000000 → exec .prepareDeadline s = .next (coAbandon 1 s))

/-- The changeover instant and the retirement of the old plane. -/
def Obligations.ChangeoverInstants : Prop :=
  (∀ (s a u : State), s.obj 0x3600 1 = 4 → s.obj 0x3600 3 ≤ s.t → s.activeB = false →
    a = (((s.setObj 0x3600 0x0B 1).setObj 0x3600 0x0D (s.obj 0x3600 3 + s.obj 0x3600 0x0C)).setObj 0x3600 0x10 (s.obj 0x3600 0x11)).setObj 0x3600 0x11 (s.obj 0x3600 0x10) →
    u = (List.range 64).foldl (fun st m => if hasProgram (st.core m) true then startShuttleHalf m true (wakeShuttle m st) else st) { a with timersB := armTimers (s.obj 0x3600 3) a.timersB } →
    exec .changeoverInstant s = .next (motifsShow (classesOn (coState 5 ((List.range 4).foldl (fun st h => st.interrupt (64 + h) 1) u))))) ∧
  (∀ (s a u : State), s.obj 0x3600 1 = 4 → s.obj 0x3600 3 ≤ s.t → s.activeB = true →
    a = (((s.setObj 0x3600 0x0B 0).setObj 0x3600 0x0D (s.obj 0x3600 3 + s.obj 0x3600 0x0C)).setObj 0x3600 0x10 (s.obj 0x3600 0x11)).setObj 0x3600 0x11 (s.obj 0x3600 0x10) →
    u = (List.range 64).foldl (fun st m => if hasProgram (st.core m) false then startShuttleHalf m false (wakeShuttle m st) else st) { a with timersA := armTimers (s.obj 0x3600 3) a.timersA } →
    exec .changeoverInstant s = .next (motifsShow (classesOn (coState 5 ((List.range 4).foldl (fun st h => st.interrupt (64 + h) 1) u))))) ∧
  (∀ (s a b : State), s.obj 0x3600 1 = 5 → s.obj 0x3600 0x0D ≤ s.t →
    a = (List.range 4).foldl (fun st h => retireSupervisor (64 + h) (!s.activeB) st) (clearClasses (!s.activeB) (retireRoutes (!s.activeB) s)) →
    b = (List.range 64).foldl (fun st m => retireHalf m (!s.activeB) st) a →
    exec .oldPlaneRetire s = .next (coState 0 ((b.bump 0x3600 0x0F).setObj 0x3600 0x13 (s.obj 0x3600 3))))

/-- Reads, writes and complete accesses of the dictionary on a path that serves them. -/
def Obligations.DictionaryTransfers : Prop :=
  (∀ (path ix sub ecc : Nat) (s : State) (q : SdoReq), q = { path := path, kind := 0, ix := ix, sub := sub, ecc := ecc } → Serves s q → coreMay s false path ix sub 0 = true → (ix < 0x5C00 ∨ 0x6000 ≤ ix) →
    exec (.sdoUpload path ix sub ecc) s = .next (serveAct q (arrives path s))) ∧
  (∀ (path ix sub ecc : Nat) (s : State) (q : SdoReq) (r : ObjRow), q = { path := path, kind := 0, ix := ix, sub := sub, ecc := ecc } → Serves s q → coreMay s false path ix sub 0 = true → (ix < 0x5000 ∨ 0x6000 ≤ ix) →
    rowOf ix sub = some r → r.acc ≠ .wo → r.size ≠ 0 → openValue ix sub = false → ecc = 0 →
    exec (.sdoUpload path ix sub ecc) s = .next (answered path { data := leBytes (readNat (arrives path s) ix sub) r.size, state := arrives path s })) ∧
  (∀ (path ix sub ecc : Nat) (s : State) (q : SdoReq) (r : ObjRow), q = { path := path, kind := 0, ix := ix, sub := sub, ecc := ecc } → Serves s q → coreMay s false path ix sub 0 = true → (ix < 0x5000 ∨ 0x6000 ≤ ix) →
    rowOf ix sub = some r → r.acc ≠ .wo → r.size ≠ 0 → openValue ix sub = false → ecc = 2 →
    exec (.sdoUpload path ix sub ecc) s = .next (answered path (.refuse (raise 8 ((arrives path s).bump 0x3701 2)) 0x06060000))) ∧
  (∀ (path ix sub ecc : Nat) (s : State) (q : SdoReq), q = { path := path, kind := 0, ix := ix, sub := sub, ecc := ecc } → Serves s q → coreMay s false path ix sub 0 = true → (ix < 0x5C00 ∨ 0x6000 ≤ ix) →
    hasObject ix = false → rowOf ix sub = none →
    exec (.sdoUpload path ix sub ecc) s = .next (answered path (.refuse (arrives path s) 0x06020000))) ∧
  (∀ (path ix sub ecc : Nat) (s : State) (q : SdoReq), q = { path := path, kind := 0, ix := ix, sub := sub, ecc := ecc } → Serves s q → coreMay s false path ix sub 0 = true → (ix < 0x5C00 ∨ 0x6000 ≤ ix) →
    hasObject ix = true → rowOf ix sub = none →
    exec (.sdoUpload path ix sub ecc) s = .next (answered path (.refuse (arrives path s) 0x06090011))) ∧
  (∀ (path ix sub size : Nat) (bs : FrameData) (s : State) (q : SdoReq), q = { path := path, kind := 1, ix := ix, sub := sub, data := bs.map (BitVec.ofNat 8) } → Serves s q →
    coreMay s true path ix sub (leNat (bs.map (BitVec.ofNat 8))) = true → size = bs.length → (ix < 0x5C00 ∨ 0x6000 ≤ ix) →
    exec (.objectWrite path ix sub size bs) s = .next (serveAct q (arrives path s))) ∧
  (∀ (path ix sub size : Nat) (bs : FrameData) (s : State) (q : SdoReq) (r : ObjRow), q = { path := path, kind := 1, ix := ix, sub := sub, data := bs.map (BitVec.ofNat 8) } → Serves s q →
    coreMay s true path ix sub (leNat (bs.map (BitVec.ofNat 8))) = true → size = bs.length → bs.length ≤ 4096 → (ix < 0x5C00 ∨ 0x6000 ≤ ix) → rowOf ix sub = some r → r.acc = .ro →
    exec (.objectWrite path ix sub size bs) s = .next (answered path (.refuse (arrives path s) 0x06010002))) ∧
  (∀ (path ix ecc : Nat) (from1 : Bool) (s : State) (q : SdoReq), q = { path := path, kind := 2, ix := ix, sub := b2n from1, ecc := ecc } → Serves s q → path ≠ 1 → (ix < 0x5C00 ∨ 0x6000 ≤ ix) →
    exec (.sdoCompleteAccessRead path ix from1 ecc) s = .next (serveAct q (arrives path s))) ∧
  (∀ (path ix size : Nat) (from1 : Bool) (bs : FrameData) (s : State) (q : SdoReq), q = { path := path, kind := 3, ix := ix, sub := b2n from1, data := bs.map (BitVec.ofNat 8) } → Serves s q →
    path ≠ 1 → size = bs.length → (ix < 0x5C00 ∨ 0x6000 ≤ ix) →
    exec (.sdoCompleteAccessWrite path ix from1 size bs) s = .next (serveAct q (arrives path s)))

/-- Segments, block transfers, aborts and information services of SDO. -/
def Obligations.SdoProtocol : Prop :=
  (∀ (path : Nat) (last : Bool) (s : State) (q : SdoReq), q = { path := path, kind := 4, ix := (s.path path).ix, sub := b2n last, data := [] } → Serves s q →
    ((arrives path s).path path).active = true → ((arrives path s).path path).toggle = false → ((arrives path s).path path).write = false → ((s.path path).write && secureIndex (s.path path).ix) = false →
    exec (.sdoSegment path false last []) s = .next (segmentTaken path (((arrives path s).path path).buf.take (segPart (arrives path s) path))
      (((arrives path s).path path).buf.drop (segPart (arrives path s) path))
      (decide (segPart (arrives path s) path < ((arrives path s).path path).buf.length)) (arrives path s))) ∧
  (∀ (path : Nat) (s : State), (s.path path).active = true → (s.path path).busy = false → (s.path path).lastT + 1000000000 ≤ s.time.clk →
    exec (.sdoSegmentTimeout path) s = .next (answered path (.refuse s 0x05040000))) ∧
  (∀ (path ix sub : Nat) (s : State), secureIndex ix = false → Serves s { path := path, kind := 5, ix := 0x1018 } →
    exec (.sdoBlockRequest path ix sub) s = .next (answered path (.refuse (arrives path s) 0x05040001))) ∧
  (∀ (path : Nat) (s : State), (s.path path).active = true → (s.path path).busy = false →
    exec (.sdoAbortRequest path) s = .next (s.setPath path { s.path path with active := false, buf := [], answered := false })) ∧
  (∀ (typ : Nat) (s : State), Serves s { path := 0, kind := 6, ix := 0x1018, sub := typ } → typ ≤ 5 →
    exec (.sdoInfoObjectList typ) s = .next (answeredPart 0 (infoListBytes typ).length { data := infoListBytes typ, state := mailArrives s })) ∧
  (∀ (ix : Nat) (s : State), Serves s { path := 0, kind := 7, ix := ix } → (ix < 0x5C00 ∨ 0x6000 ≤ ix) → hasObject ix = true →
    exec (.sdoInfoObjectDesc ix) s = .next (answeredPart 0 (infoObjectBytes ix).length { data := infoObjectBytes ix, state := mailArrives s })) ∧
  (∀ (ix sub : Nat) (s : State) (r : ObjRow), Serves s { path := 0, kind := 8, ix := ix, sub := sub } → (ix < 0x5C00 ∨ 0x6000 ≤ ix) → rowOf ix sub = some r →
    exec (.sdoInfoEntryDesc ix sub) s = .next (answeredPart 0 (infoEntryBytes r ix sub).length { data := infoEntryBytes r ix sub, state := mailArrives s })) ∧
  (∀ s : State, coeActive s = true → mpDown s = false → s.ecat.lastMail ≠ .none → exec .mailboxRepeatRequest s = .next { s with ecat := { s.ecat with mailbox := true } }) ∧
  (∀ (s : State) (e : Emcy) (es : List Emcy), coeActive s = true → mpDown s = false → s.coeEmcy = e :: es →
    exec .emcyMailboxRead s = .next { s with coeEmcy := es, ecat := { s.ecat with mailbox := true, lastMail := .emcy e.bytes } })

/-- SAVE, RESTORE, LOCK, CLEAR_RECORD, RESTART and STOP. -/
def Obligations.StoredParameters : Prop :=
  (∀ (s : State) (path : Nat), Accepts s path 0x2011 1 4 0x65766173 → saving s = false → saveTooLate (mailArrives s) = false → 
    exec (.saveWrite path 0x65766173) s = .next (answered path (writeSave 0x65766173 (mailArrives s)))) ∧
  (∀ s : State, saving s = true → jobOf s 3 = false → exec .saveComplete s = .next (((s.setObj 0x2011 3 2).setObj 0x2011 4 s.t).bump 0x2011 5)) ∧
  (∀ (s : State) (path : Nat), Accepts s path 0x2011 2 4 0x64616F6C → saving s = false → 
    exec (.restoreDefaultsWrite path 0x64616F6C) s = .next (answered path (.ok (((mailArrives s).setFlash { (mailArrives s).flash with saved := [] }).setObj 0x2011 3 4)))) ∧
  (∀ (s : State) (path : Nat), Accepts s path 0x2012 2 4 0x6B636F6C → s.obj 0x2012 1 = 0 → 
    exec (.lockWrite path 0x6B636F6C) s = .next (answered path (.ok (persistTouch (((mailArrives s).setObj 0x2012 1 1).setObj 0x2012 3 s.t))))) ∧
  (∀ (s : State) (path : Nat), Accepts s path 0x2000 7 4 0x64726372 → 
    exec (.clearRecordWrite path 0x64726372) s = .next (answered path (.ok (recordChanged { mailArrives s with start := { (mailArrives s).start with
        record := (mailArrives s).start.record.map (fun e => (e.1, { e.2 with fails := 0, variant := 0 })) } })))) ∧
  (∀ (s : State) (path : Nat), Accepts s path 0x2000 8 4 0x74657372 → 
    exec (.restartWrite path 0x74657372) s = .next (answered path (.ok { mailArrives s with start := { (mailArrives s).start with resetAt := some (s.time.clk + 10000000) } }))) ∧
  (∀ (s : State) (path v : Nat), Accepts s path 0x2000 8 4 v → v ≠ 0x74657372 → 
    exec (.restartWrite path v) s = .next (answered path (.refuse (mailArrives s) 0x06090030))) ∧
  (∀ (s a : State) (path : Nat), Accepts s path 0x2000 9 4 0x706F7473 → s.obj 0x2001 0 = 1 → s.obj 0x3600 1 = 0 → fwState s ≠ 5 → fwState s ≠ 6 →
    a = (List.range 64).foldl (fun st c => if st.classState c = 1 then st.setObj (0x3400 + c) 1 2 else st) (mailArrives s) →
    exec (.stopWrite path 0x706F7473) s = .next (answered path (.ok (setStop 1 (s.time.clk + maxOffset (mailArrives s) + 1000000) ((a.setObj 0x2001 0 4).setObj 0x2000 0x0A 1))))) ∧
  (∀ s : State, s.start.stopPhase = 1 → classesDrained s = true → exec .stopDrained s = .next (stopFlush s)) ∧
  (∀ s : State, s.start.stopPhase = 2 → journalDurable s = true → exec .stopDrained s = .next (stopRecords s)) ∧
  (∀ s : State, s.start.stopPhase = 1 → s.start.stopAt ≤ s.time.clk → exec .orderlyStopWaitExpiry s = .next (stopFlush s))

/-- A host frame of every kind that the config slave port takes is accepted with its effect and relayed. -/
def Obligations.HostFrames : Prop :=
  HostRow .imageBeginDeviceLoad (fun k b => k == 1 && b == 0) ∧
  HostRow .imageBeginRegionReload (fun k b => k == 1 && b == 1) ∧
  HostRow .imageBeginShadowLoad (fun k b => k == 1 && b == 2) ∧
  HostRow .imageBeginRecipeStore (fun k b => k == 1 && decide (3 ≤ b)) ∧
  HostRow .imageData (fun k _ => k == 2) ∧
  HostRow .imageEnd (fun k _ => k == 3) ∧
  HostRow .imageAbort (fun k _ => k == 4) ∧
  HostRow .sdoFrameRead (fun k b => k == 0x10 && (b == 0 || decide (4 ≤ b))) ∧
  HostRow .sdoFrameWrite (fun k b => k == 0x10 && b == 1) ∧
  HostRow .sdoFrameCaRead (fun k b => k == 0x10 && b == 2) ∧
  HostRow .sdoFrameCaWrite (fun k b => k == 0x10 && b == 3) ∧
  HostRow .bqWrite (fun k _ => decide (0x20 ≤ k) && decide (k ≤ 0x23)) ∧
  HostRow .readStatus (fun k b => k == 0x30 && !([1, 4, 5, 6, 7].contains b)) ∧
  HostRow .readSdoResponse (fun k b => k == 0x30 && b == 1) ∧
  HostRow .readBq (fun k b => k == 0x30 && decide (4 ≤ b) && decide (b ≤ 7))

/-- The width sample, and what the frames of an image, a status read and a BQ write do. -/
def Obligations.HostFrameEffects : Prop :=
  (∀ (mode : Nat) (s : State), mode < 4 → s.cfg.width = none →
    exec (.cfgWidthSample mode) s = .next (({ s with cfg := { s.cfg with width := some mode } } : State).setObj 0x3601 7 mode)) ∧
  (∀ (mode w : Nat) (s : State), s.cfg.width = some w → exec (.cfgWidthSample mode) s = .next s) ∧
  (∀ (f : HostFrame) (s : State), f.kind = 1 → f.len = 8 → le f.body 0 1 ≤ 3 → le f.body 2 2 = 0 → mayBegin s (le f.body 0 1) (le f.body 1 1) 0 = true →
    hostAct f s = some (beginLoad (le f.body 0 1) (le f.body 1 1) 0 (le f.body 4 4) s)) ∧
  (∀ (f : HostFrame) (s : State), f.kind = 2 → hostReceiving s = true → 4 ≤ f.len → le f.body 0 4 = s.load.buf.length →
    hostAct f s = some (loadBytes ((f.body.drop 4).take (s.load.total - s.load.buf.length)) s)) ∧
  (∀ (f : HostFrame) (s : State), f.kind = 3 → hostReceiving s = true → f.len = 0 → hostAct f s = some (loadWhole s)) ∧
  (∀ (f : HostFrame) (s : State), f.kind = 4 → f.len = 0 → s.load.active = true → s.load.source = 0 → hostAct f s = some (abortLoad s)) ∧
  (∀ (f : HostFrame) (s : State), f.kind = 0x30 → f.len = 4 → le f.body 0 1 = 0 → le f.body 1 1 = 0 →
    hostAct f s = some (hostSend f 0x80 (statusBody { s with cfg := { s.cfg with lastSeq := some f.seq } }) s)) ∧
  (∀ (f : HostFrame) (s : State), 0x20 ≤ f.kind → f.kind ≤ 0x23 → 8 ≤ f.len → le f.body 0 4 < 4 →
    hostAct f s = some (bqWrite (f.kind % 4) (le f.body 0 4) (leWords (f.body.drop 4)) s)) ∧
  (∀ (data : FrameData) (s : State), le (data.map (BitVec.ofNat 8)) 2 1 = 2 → s.cfg.width = some 0 → cfgReady s = true → hostIntact (data.map (BitVec.ofNat 8)) = false →
    exec (.imageData data) s = .next (s.bump 0x3601 9))

/-- AL requests, the SM2 watchdog, process data, port errors, SYNC and LATCH events, SII writes. -/
def Obligations.EtherCatCommands : Prop :=
  (∀ (q : AlRequest) (s : State), holdEcat s = true → mpFree s = true → exec (.alStateRequest q) s = .next (alDecide q (alDrop s))) ∧
  (∀ (q : AlRequest) (s : State), holdEcat s = true → mpFree s = false → alUpward (ecatState s) q.state = true →
    exec (.alStateRequest q) s = .next { alDrop s with ecat := { (alDrop s).ecat with alWait := some q }, sdoWait := (alDrop s).sdoWait ++ [{ kind := 10 }] }) ∧
  (∀ s : State, ecatState s = 8 → s.ecat.watchdog ≠ 0 → s.ecat.outAt + s.ecat.watchdog ≤ s.time.clk →
    exec .smWatchdogExpiry s = .next (raise 26 ((alEnter 4 s).setObj 0x2010 0x0B 0x1B))) ∧
  (∀ (ago : Nat) (bs : FrameData) (s : State), ecatState s = 4 → bs.length = mapTotal s 0x1C12 →
    exec (.rxpdoBufferSwitch ago bs) s = .next { s with ecat := { s.ecat with outBuf := bs.map (BitVec.ofNat 8), outSeen := true, outAt := s.time.clk, captureDue := s.ecat.captureDue || s.ecat.syncMode == 1, passed := insertNow (s.tAgo ago) (mappedEntries s 0x1C13) s.ecat.inBuf } }) ∧
  (∀ (ago : Nat) (bs : FrameData) (s u : State), ecatState s = 8 → bs.length = mapTotal s 0x1C12 →
    u = { s with ecat := { s.ecat with outBuf := bs.map (BitVec.ofNat 8), outSeen := true, outAt := s.time.clk, captureDue := s.ecat.captureDue || s.ecat.syncMode == 1, passed := insertNow (s.tAgo ago) (mappedEntries s 0x1C13) s.ecat.inBuf } } →
    exec (.rxpdoBufferSwitch ago bs) s = .next ((List.range 64).foldl (groupToken (s.stampAgo ago))
      ((rxSplit (mappedEntries u 0x1C12) (bs.map (BitVec.ofNat 8))).foldl rxApply u))) ∧
  (∀ (s u : State) (bs : List Byte), (ecatState s = 4 ∨ ecatState s = 8) → captureDue s = true → (mappedEntries s 0x1C13).foldl txEntry ([], s) = (bs, u) →
    exec .txpdoCapture s = .next { u with ecat := { u.ecat with inBuf := bs, captureDue := false, capturedAt := u.time.clk } }) ∧
  (∀ (port : Nat) (s : State), port < 2 → exec (.ethercatFrameError port) s = .next
      { s with ecat := { s.ecat with forwarded := some (forwardPort s port, false), rxErrors := mset 0 s.ecat.rxErrors port (satAdd 8 (mget 0 s.ecat.rxErrors port) 1) } }) ∧
  (∀ (port : Nat) (up : Bool) (s : State), port < 2 → exec (.ethercatPortLinkChange port up) s = .next { s with ecat := { s.ecat with links := mset 0 s.ecat.links port (if up then 1 else 0) } }) ∧
  (∀ s : State, s.fabric = true → s.ecat.syncMode ≠ 2 → s.ecat.sync0 ≠ 0 → (ingressStream s false 40).isSome = true →
    exec (.syncEvent 0) s = .next (enterFabric 67 40 { stamp := s.now, words := [0#32] } s)) ∧
  (∀ (n dc : Nat) (falling : Bool) (s : State), n < 2 → dc < 2 ^ 64 → s.ports.latchPins / 256 ^ n % 256 ≠ 255 →
    exec (.latchEvent n falling dc) s = .next { s with ecat := { s.ecat with latches := mset 0 s.ecat.latches (2 * n + if falling then 1 else 0) dc } }) ∧
  (∀ (a : Nat) (bs : FrameData) (s : State), a + bs.length ≤ 4096 →
    exec (.siiWrite a bs) s = .next (persistTouch { s with ecat := { s.ecat with sii := memWrite s.ecat.sii a (bs.map (BitVec.ofNat 8)) } }))

/-- File access over EtherCAT: recipe, shadow and region images, firmware, and their refusals. -/
def Obligations.FileTransfers : Prop :=
  (∀ (slot : Nat) (s : State), mpFree s = true → foeOpen s = true → slot < recipeSlots s → serviceOnly s = false → mayBegin s 3 slot 2 = true →
    exec (.foeWriteRecipe slot 0 true []) s = .next (beginLoad 3 slot 2 0 (s.setFoe { active := true, file := 0, slot := slot }))) ∧
  (∀ s : State, mpFree s = true → foeOpen s = true → serviceOnly s = false → mayBegin s 2 0 2 = true →
    exec (.foeWriteShadow 0 true []) s = .next (beginLoad 2 0 2 0 (s.setFoe { active := true, file := 1, slot := 0 }))) ∧
  (∀ s : State, mpFree s = true → foeOpen s = true → serviceOnly s = false → mayBegin s 1 0 2 = true →
    exec (.foeWriteRegion 0 true []) s = .next (beginLoad 1 0 2 0 (s.setFoe { active := true, file := 2, slot := 0 }))) ∧
  (∀ (pw : Nat) (bs : FrameData) (s : State), mpFree s = true → foeOpen s = true → s.ecat.foe.active = true → s.ecat.foe.reading = false → s.ecat.foe.file = 1 → bs.length = foeMax s →
    s.load.active = true → s.load.source = 2 → exec (.foeWriteShadow pw false bs) s = .next
      (loadBytes (bs.map (BitVec.ofNat 8)) (s.setFoe { s.ecat.foe with packet := s.ecat.foe.packet + 1, error := none }))) ∧
  (∀ (slot : Nat) (img : List Byte) (s : State), mpFree s = true → foeOpen s = true → mfind s.flash.recipes slot = some img → s.ecat.foe.active = false → serviceOnly s = false →
    exec (.foeReadRecipe slot 0 true) s = .next (foeSend (s.setFoe { active := true, reading := true, slot := slot, rest := img }))) ∧
  (∀ s : State, mpFree s = true → inBoot s = true → s.ecat.foe.active = false → [1, 2, 5, 6].contains (fwState s) = false →
    exec (.foeWriteFirmware 0 true []) s = .next (({ s with update := { s.update with foe := false } } : State).setFoe { active := true, file := 3 })) ∧
  (∀ (pw : Nat) (bs : FrameData) (s : State), mpFree s = true → inBoot s = true → exec (.foeWriteFirmware pw false bs) s = .next (fwFoePacket (bs.map (BitVec.ofNat 8)) s)) ∧
  (∀ (pw : Nat) (s : State), mpFree s = true → inBoot s = true → exec (.foeReadFirmware pw) s = .next (foeRefuse .notFound s)) ∧
  (∀ (s : State) (sig : List Byte), s.update.sig = some sig → fwVerdictDue s = true → exec .updateVerdict s = .next (loaderVerified (foeVerdict (fwVerdict sig s)))) ∧
  (∀ (slot pw : Nat) (req : Bool) (bs : FrameData) (s : State), mpFree s = false → (foeOpen s = true ∨ inBoot s = true) → s.ecat.foeWait = none →
    exec (.foeWriteRecipe slot pw req bs) s = .next { s with ecat := { s.ecat with foeWait := some { slot := slot, pw := pw, req := req, data := bs.map (BitVec.ofNat 8) } }, sdoWait := s.sdoWait ++ [{ kind := 9 }] })

/-- NMT commands, heartbeat, EMCY, received frames, bus-off, and the periodic windows of the MP. -/
def Obligations.CanCommands : Prop :=
  (∀ (target : Nat) (s : State), s.can.node ≠ 0 → busOff s = false → (target = 0 ∨ target = s.can.node) →
    exec (.nmtStartRemoteNode target) s = .next ((s.bump 0x4600 8).setObj 0x4600 6 5)) ∧
  (∀ (target : Nat) (s : State), s.can.node ≠ 0 → busOff s = false → (target = 0 ∨ target = s.can.node) →
    exec (.nmtStopRemoteNode target) s = .next ((s.bump 0x4600 8).setObj 0x4600 6 4)) ∧
  (∀ (target : Nat) (s : State), s.can.node ≠ 0 → busOff s = false → (target = 0 ∨ target = s.can.node) →
    exec (.nmtEnterPreOperational target) s = .next ((s.bump 0x4600 8).setObj 0x4600 6 127)) ∧
  (∀ (target : Nat) (s : State), s.can.node ≠ 0 → busOff s = false → (target = 0 ∨ target = s.can.node) →
    exec (.nmtResetNode target) s = .next (canApply (s.bump 0x4600 8))) ∧
  (∀ (target : Nat) (s : State), s.can.node ≠ 0 → busOff s = false → (target = 0 ∨ target = s.can.node) →
    exec (.nmtResetCommunication target) s = .next (canApply (s.bump 0x4600 8))) ∧
  (∀ (s u : State), s.can.node ≠ 0 → s.obj 0x4600 5 ≠ 0 → s.can.hbNext ≤ s.time.clk → busOff s = false →
    u = { s with can := { s.can with hbNext := s.time.clk + 1000000 * s.obj 0x4600 5 } } →
    exec .heartbeatTimer s = .next (serviceSend (0x700 + s.can.node) [BitVec.ofNat 8 (s.obj 0x4600 6)] u)) ∧
  (∀ (s : State) (e : Emcy) (es : List Emcy), s.canEmcy = e :: es → canActive s = true → busOff s = false → mpDown s = false → s.can.emcyNext ≤ s.time.clk →
    exec .canEmcyFrameSent s = .next (serviceSend (0x080 + s.can.node) e.bytes { s with canEmcy := es, can := { s.can with emcyNext := s.time.clk + 1000000 } })) ∧
  (∀ (w0 ago st : Nat) (p : Bool) (bs : FrameData) (s u : State), busOff s = false → bs.length ≤ 64 → u = (s.setObj 0x4600 7 (b2n p)).bump 0x4600 8 → u.can.node = 0 → canReserved u w0 = false → u.fabric = true →
    canFilter u (u.time.clk - ago) w0 = some st →
    exec (.canFrameReceived w0 ago p bs) s = .next ((canTokens (s.stampAgo ago) w0 (bs.map (BitVec.ofNat 8))).foldl (fun a t => enterFree 70 st t a) u)) ∧
  (∀ s : State, busOff s = false → exec .canBusOff s = .next (raise 27 ((s.setObj 0x4600 7 2).bump 0x4600 0x0A))) ∧
  (∀ s : State, busOff s = true → exec .canBusOffRecovery s = .next (s.setObj 0x4600 7 0)) ∧
  (∀ (s u : State) (load : Nat), load < 70 → s.upkeep.windowAt + 100000000 ≤ s.time.clk → s.obj 0x2010 3 = 0 → s.upkeep.low + 1 < 10 → s.upkeep.high = false →
    u = { s with upkeep := { s.upkeep with windowAt := s.time.clk, high := false, low := s.upkeep.low + 1 } } →
    exec (.mpLoadWindow load) s = .next (((u.setObj 0x2010 1 load).peak 0x2010 2 load).setObj 0x2010 3 0)) ∧
  (∀ (s : State) (n : Nat), s.upkeep.secondAt + 1000000000 ≤ s.time.clk → n = min (2 ^ 32 - 1) (s.obj 0x5000 0x0A + 1) → n % 3600 ≠ 0 →
    exec .operatingTimeSecond s = .next (({ s with upkeep := { s.upkeep with secondAt := s.upkeep.secondAt + 1000000000 } } : State).setObj 0x5000 0x0A n))

/-- Edges, deglitching, burst summaries, stuck inputs, token queues and pulse trains of the timed pins. -/
def Obligations.TioCommands : Prop :=
  (∀ (p : Nat) (level : Bool) (s u : State), p < 24 → (s.pin p).mode = tioCfg s p 2 → (s.pin p).raw ≠ level → tioOut s p = false → u = (tioDue p s).setObjBit 0x4000 0x0B p level →
    tioIn s p = true → (u.pin p).edge = none → tioCfg s p 4 ≠ 0 →
    exec (.tioInputEdge p level) s = .next (u.setPin p { u.pin p with raw := level, edge := some (u.time.clk, u.now) })) ∧
  (∀ (p : Nat) (s : State), p < 24 → (s.pin p).mode = tioCfg s p 2 → tioIn s p = true → exec (.tioDeglitchPass p) s = .next (tioDue p s)) ∧
  (∀ (p c : Nat) (s : State) (x : TioPin), p < 24 → x = s.pin p → (s.pin p).mode = tioCfg s p 2 → tioIn s p = true → x.folded ≠ 0 → x.lastTok = some c → c + 64 ≤ s.time.clk → x.held = none →
    exec (.tioBurstSummary p) s = .next (tioSend p (tioToken x.foldFirst x.level 2 [BitVec.ofNat 32 x.folded, x.foldLast]) s)) ∧
  (∀ (p c lim : Nat) (st : Stamp) (s w u : State) (x : TioPin), p < 24 → (s.pin p).mode = tioCfg s p 2 → tioIn s p = true → w = tioSummary p s → x = w.pin p → lim = 1000 * tioCfg w p 6 → x.activeAt = some (c, st) →
    tioIn w p = true → lim ≠ 0 → c + lim ≤ w.time.clk → x.stuck = false → x.held = none → w.obj 0x4000 0x0F = 0 → u = (w.setPin p { x with stuck := true, stuckTok := none }).setObjBit 0x4000 0x0F p true →
    exec (.tioStuckTimeout p) s = .next (tioSend p (tioToken (st + BitVec.ofNat 32 lim) x.level 1 [st]) (setCond 28 true u))) ∧
  (∀ (p : Nat) (t : Token) (s u : State), p < 24 → (s.pin p).held = some t → (s.pin p).stuckTok = none → (bankQueue s (p / 8)).length < 16 → u = s.setPin p { s.pin p with held := none } →
    exec (.tioTokenQueueEntry p) s = .next { u with ports := { u.ports with tioBanks := mset [] u.ports.tioBanks (p / 8) (bankQueue s (p / 8) ++ [(p, t)]) } }) ∧
  (∀ (p : Nat) (t : Pulse) (s : State), p < 24 → (s.pin p).mode = tioCfg s p 2 → (s.pin p).pulse = some t → t.start + pulseEdgeAt s p t.next ≤ s.time.clk → t.next + 1 < 2 * (tioCfg s p 0x0A % 65536) →
    exec (.pulseTrainEdge p) s = .next (tioDrive p (if t.next % 2 = 0 then pulseLevel s p else !pulseLevel s p)
      (s.setPin p { s.pin p with pulse := some { t with next := t.next + 1 } })))

/-- Driver enable lead, UART frames, SSI reads and drive responses. -/
def Obligations.SerialCommands : Prop :=
  (∀ (ch : Nat) (r : Stamp) (s : State), ch < 8 → (leadStamps s ch).find? (fun r => decide (diff r s.now ≤ (serCfg s ch 5 : Int)) && decide (0 < diff r s.now)) = some r →
    (serMode s ch = 1 ∨ serMode s ch = 3) → serFull s ch = false → (s.serial ch).lead = none → serBusy s ch = false →
    exec (.deLeadStart ch) s = .next (s.setSerial ch { s.serial ch with lead := some r, deAt := s.time.clk })) ∧
  (∀ (ch ago : Nat) (bytes got : List RxByte) (s u : State), ch < 8 → serMode s ch = 1 → bytes = uartBytes (serCfg s ch 4) got → bytes ≠ [] → rxIgnored s ch ago = false →
    bitsNs s ch (serCfg s ch 6) ≤ ago →
    u = s.setObji ch 0x4100 0x0A (satAdd 32 (s.obji ch 0x4100 0x0A) ((bytes.filter (·.parity)).length + (bytes.filter (·.framing)).length)) →
    exec (.uartFrameEnd ch ago got) s = .next ((uartTokens (s.stampAgo ago) bytes.length bytes).foldl (fun st t => serToken ch t st) u)) ∧
  (∀ (ch : Nat) (s : State), ch < 8 → serMode s ch = 2 → serCfg s ch 7 ≠ 0 → s.t % serCfg s ch 7 = 0 → (s.serial ch).reading = none →
    exec (.ssiPoll ch) s = .next (serBump ch 8 (s.setSerial ch { s.serial ch with reading := some (s.time.clk, s.now, true), shared := false }))) ∧
  (∀ (ch c : Nat) (st : Stamp) (poll : Bool) (s : State), ch < 8 → serMode s ch = 2 → serCfg s ch 7 ≠ 0 → s.t % serCfg s ch 7 = 0 → (s.serial ch).reading = some (c, st, poll) → c ≠ s.time.clk →
    exec (.ssiPoll ch) s = .next (serBump ch 0x0C s)) ∧
  (∀ (ch pos sts c fmt : Nat) (stamp : Stamp) (s : State), ch < 8 → (s.serial ch).reading = some (c, stamp, false) → c + ssiNs s ch ≤ s.time.clk → fmt = serCfg s ch 4 → bit fmt 10 = false →
    exec (.ssiReadComplete ch pos sts false) s = .next (serToken ch { stamp := stamp, words := [BitVec.ofNat 32 (pos % 2 ^ (fmt % 64)), BitVec.ofNat 32 (sts % 2 ^ (fmt / 64 % 16))] }
      (s.setSerial ch { s.serial ch with reading := none }))) ∧
  (∀ (ch ago head seq : Nat) (bytes : List RxByte) (bs : List Byte) (s : State), ch < 8 → serMode s ch = 3 → (s.serial ch).cmd = some (head, seq) →
    s.time.clk ≤ (s.serial ch).endAt + serCfg s ch 6 + ago → (s.serial ch).endAt + ago ≤ s.time.clk → bs = bytes.map (fun b => BitVec.ofNat 8 b.value) →
    bytes.any (·.framing) = false → driveFrameOk bs = true → (bs.getD 1 0#8).toNat % 128 = head % 128 → (bs.getD 2 0#8).toNat = seq → bit (bs.getD 1 0#8).toNat 7 = true →
    exec (.driveResponseReceived ch ago bytes) s = .next (serToken ch (driveToken (s.stampAgo ago) (bs.getD 1 0#8).toNat seq (bs.getD 3 0#8).toNat false false false
      (leWords ((bs.drop 4).take (bs.getD 3 0#8).toNat))) (s.setSerial ch { s.serial ch with cmd := none }))) ∧
  (∀ (ch head seq : Nat) (s : State), ch < 8 → (s.serial ch).cmd = some (head, seq) → (s.serial ch).endAt + serCfg s ch 6 ≤ s.time.clk →
    exec (.driveResponseTimeout ch) s = .next (serToken ch (driveToken s.now (head % 128) seq 0 false true false [])
      (raise 29 (serBump ch 0x0B (s.setSerial ch { s.serial ch with cmd := none })))))

/-- Frames, lines and packets of a camera, and transfers on its sensor bus. -/
def Obligations.CameraCommands : Prop :=
  (∀ (cam vc number rate : Nat) (s a u : State), cam < 2 → number < 65536 → rate < 65536 → camCfg s cam 2 = 1 → camMine s cam vc = true → (s.cam cam).current = none →
    a = s.setCam cam { s.cam cam with frames := (s.cam cam).frames ++ [{ id := (s.cam cam).nextId, number := number, sf := s.now }], nextId := (s.cam cam).nextId + 1, line := none } →
    u = (a.setObji cam 0x4200 0x11 a.now.toNat).setObji cam 0x4200 0x12 rate →
    exec (.csiFrameStart cam vc number rate) s = .next (camToken (32 + cam) u.now [BitVec.ofNat 32 number] u)) ∧
  (∀ (cam vc : Nat) (s : State), cam < 2 → camCfg s cam 2 = 1 → camMine s cam vc = false → exec (.csiLineStart cam vc) s = .next (s.bumpi cam 0x4200 0x0F)) ∧
  (∀ (cam vc : Nat) (f : CamFrame) (s : State), cam < 2 → camCfg s cam 2 = 1 → camMine s cam vc = true → (s.cam cam).current = some f →
    exec (.csiLineStart cam vc) s = .next (lineToken cam f.lines (s.setCam cam { s.cam cam with line := some s.now }))) ∧
  (∀ (cam : Nat) (q : CsiLine) (f : CamFrame) (s : State), cam < 2 → camCfg s cam 2 = 1 → (s.cam cam).current = some f → q.headerError = true →
    exec (.csiLongPacket cam q) s = .next (s.setCam cam ((s.cam cam).setFrame { f with status := f.status ||| 4 }))) ∧
  (∀ (cam a : Nat) (q : CsiLine) (f : CamFrame) (s : State), cam < 2 → camCfg s cam 2 = 1 → (s.cam cam).current = some f → q.headerError = false → camMine s cam q.vc = true →
    q.dt = field (camCfg s cam 3) 21 16 → (s.cam cam).line ≠ none → q.crcError = false → csiBytes q ≠ [] → lineAddress s cam f.lines = some a →
    ((s.cam cam).lines.map (·.bytes)).foldl (· + ·) 0 + (csiBytes q).length ≤ 16384 → (csiBytes q).length = camCfg s cam 4 % 2 ^ 14 * pixelBytes q.dt → f.status = 0 →
    exec (.csiLongPacket cam q) s = .next (lineWrite cam f.id a (csiBytes q) (s.setCam cam ({ s.cam cam with line := none }.setFrame { f with lines := f.lines + 1, status := 0 })))) ∧
  (∀ (cam vc : Nat) (f : CamFrame) (s : State), cam < 2 → camCfg s cam 2 = 1 → camMine s cam vc = true → (s.cam cam).current = some f →
    exec (.csiFrameEnd cam vc) s = .next (camFinish cam (s.setCam cam ((s.cam cam).setFrame
      { f with status := f.status ||| (if f.lines = field (camCfg s cam 4) 29 16 then 0 else 8), ended := true })))) ∧
  (∀ (path c : Nat) (bytes : FrameData) (s : State), Serves s { path := path, kind := 1, ix := 0x4200, sub := 0x0C, data := bytes.map (BitVec.ofNat 8) } → c = s.obj 0x4200 1 →
    i2cCheck (mailArrives s) c bytes = 0 →
    exec (.i2cXferWrite path bytes) s = .next (sdoStart path ((mailArrives s).setCam c { (mailArrives s).cam c with i2c := some (i2cTransfer (mailArrives s) c path bytes) }))) ∧
  (∀ (cam code : Nat) (q : I2c) (bytes : FrameData) (s : State), cam < 2 → code < 4 → (s.cam cam).i2c = some q → s.time.clk ≤ q.since + 10000000 →
    exec (.i2cTransferEnd cam code bytes) s = .next (serveNext (answered q.path (.ok (s.setCam cam
      { s.cam cam with i2c := none, result := BitVec.ofNat 8 code :: BitVec.ofNat 8 ((bytes.take q.reads).map (BitVec.ofNat 8)).length :: (bytes.take q.reads).map (BitVec.ofNat 8) })))))

/-- Link frames, loss of lock, training, resends, idle frames and votes; board queues. -/
def Obligations.LinkCommands : Prop :=
  (∀ (l : Nat) (bs : FrameData) (s : State), l < 2 → bs.headD 0 % 16 = 0 → exec (.linkTokenFrame l bs) s = .next (linkReceive l bs s)) ∧
  (∀ (l : Nat) (bs : FrameData) (s : State), l < 2 → bs.headD 0 % 16 = 1 → exec (.voteFrame l bs) s = .next (linkReceive l bs s)) ∧
  (∀ (l : Nat) (bs : FrameData) (s : State), l < 2 → bs.headD 0 % 16 = 2 → exec (.linkRelayFrame l bs) s = .next (linkReceive l bs s)) ∧
  (∀ (l : Nat) (bs : FrameData) (s : State), l < 2 → bs.headD 0 % 16 = 3 → exec (.linkIdleFrame l bs) s = .next (linkReceive l bs s)) ∧
  (∀ (l : Nat) (s : State), l < 2 → linkUp s l = true → exec (.linkLossOfLock l) s = .next (linkLoss l s)) ∧
  (∀ (l : Nat) (s : State), l < 2 → s.obji l 0x4300 4 = 1 →
    exec (.linkTrainingDone l) s = .next (linkAlarm ((s.setLink l { sentAt := s.time.clk, votedAt := s.time.clk }).setObji l 0x4300 4 2))) ∧
  (∀ (l : Nat) (f : LinkFrame) (fs : List LinkFrame) (s : State), l < 2 → linkUp s l = true → (s.link l).unacked = f :: fs → linkOverdue s f = true → 16 ≤ f.rounds →
    exec (.linkResendTimeout l) s = .next (linkLoss l s)) ∧
  (∀ (l : Nat) (f : LinkFrame) (fs : List LinkFrame) (s : State), l < 2 → linkUp s l = true → (s.link l).unacked = f :: fs → linkOverdue s f = true → f.rounds < 16 →
    exec (.linkResendTimeout l) s = .next ((s.setLink l { s.link l with
      unacked := (f :: fs).map (fun g => if linkOverdue s g then { g with sentAt := s.time.clk, rounds := g.rounds + 1 } else g), sentAt := s.time.clk }).setObji l 0x4300 9
        (satAdd 32 (s.obji l 0x4300 9) ((f :: fs).filter (linkOverdue s)).length))) ∧
  (∀ (l : Nat) (s : State), l < 2 → linkUp s l = true → (s.link l).sentAt + 1000 ≤ s.time.clk →
    exec (.linkIdleTimer l) s = .next (s.setLink l { s.link l with sentAt := s.time.clk })) ∧
  (∀ s : State, s.obj 0x3600 1 ≠ 0 → exec .voteTimer s = .next ([0, 1].foldl (fun st l =>
      if linkUp st l ∧ (st.link l).votedAt + 100000 ≤ st.time.clk then linkSend l (voteFrame st) (st.setLink l { st.link l with votedAt := st.time.clk }) else st) s)) ∧
  (∀ (q : Nat) (p : BqPacket) (ps : List BqPacket) (s : State), q < 4 → bqTake (s.bq q) = some (p, ps) → s.obji q 0x4500 4 ≠ 1 →
    exec (.bqPacketReadout q) s = .next ((bqTokens p.stamp 2048 p.words).foldl (fun st t => enterFabric 70 (36 + q) t st) (s.setBq q ps)))

/-- Alarms, sampler, trace export and journal records. -/
def Obligations.RecordingCommands : Prop :=
  (∀ (a : Nat) (s : State), a < 128 → exec (.alarmEvent a) s = .next (raise a s)) ∧
  (∀ (s : State) (path v : Nat), Accepts s path 0x5100 9 1 v → v ≤ 127 → alarmClearable (mailArrives s) v = true → 
    exec (.alarmClearWrite path v) s = .next (answered path (.ok (allClear (mailArrives s) (clearLatch v (mailArrives s)))))) ∧
  (∀ (s : State) (path v : Nat), Accepts s path 0x5100 9 1 v → v ≤ 127 → alarmClearable (mailArrives s) v = false → 
    exec (.alarmClearWrite path v) s = .next (answered path (.refuse (mailArrives s) 0x08000022))) ∧
  (∀ (typ t : Nat) (bs : FrameData) (s : State), samplerPayload typ = some bs.length →
    exec (.samplerRecordOffer typ t bs) s = .next (emit (.record typ t (bs.map (BitVec.ofNat 8))) s)) ∧
  (∀ (s u : State) (path n k : Nat), Accepts s path 0x5000 7 4 n → s.obj 0x5000 0x0D = 0 → k = (n + 1 + 2 ^ 32 - s.obj 0x5000 1) % 2 ^ 32 →
    k ≤ (s.obj 0x5000 2 + 1 + 2 ^ 32 - s.obj 0x5000 1) % 2 ^ 32 → k ≠ 0 → s.sampler.recs ≠ [] →
    u = samplerShow { mailArrives s with sampler := { s.sampler with recs := s.sampler.recs.drop k } } → u.obj 0x5000 4 = 0 →
    exec (.samplerReleaseWrite path n) s = .next (answered path (.ok u))) ∧
  (∀ (s : State) (b : TraceBlock), mpDown s = false → bit (s.obj 0x2010 3) 1 = false → s.trace.ring.any (·.exporting) = false →
    s.trace.ring.find? (fun b => b.needExport && b.left == 0) = some b → exec .traceExportCopy s = .next (ringRead 2 b.slot (ringSet { b with exporting := true } s))) ∧
  (∀ (path : Nat) (s : State) (b : TraceBlock), Serves s { path := path, kind := 0, ix := 0x5200, sub := 0x0C } → s.trace.ready = some b →
    exec (.traceExportRead path) s = .next (answered path { data := partBytes b.forExport
                                                            state := ringFree { mailArrives s with trace := { s.trace with
                                                              ready := none, ring := s.trace.ring.map (fun x => if x.slot = b.slot then { x with needExport := false, exporting := false } else x) } } })) ∧
  (∀ (s : State) (r : JRec) (rs : List JRec), s.journal.stage = r :: rs → r.k + 1000000 ≤ s.t → exec .journalRecordLeave s = .next (stageLeave s)) ∧
  (∀ (s : State) (rs : List JRec) (rest : List (List JRec)), s.obj 0x5300 1 = 2 → s.journal.full = rs :: rest →
    exec .journalBlockWrite s = .next (journalBlockWrite rs { s with journal := { s.journal with full := rest } }))

/-- Block reads, formats, enabling, resynchronisation, and NVMe and PCIe events of the drives. -/
def Obligations.JournalCommands : Prop :=
  (∀ (path d : Nat) (ds : List Nat) (g : JSeg) (s : State), Serves s { path := path, kind := 0, ix := 0x5300, sub := 0x10 } → readSegment (mailArrives s) = some g →
    segDrives (mailArrives s) g.number = d :: ds →
    exec (.journalBlockRead path) s = .next (sdoStart path (nvRead path d g.number (s.obj 0x5300 0x0F) (mailArrives s)))) ∧
  (∀ (s : State) (path : Nat), Accepts s path 0x5300 3 1 1 → s.obj 0x5300 1 ≠ 2 → s.obji 0 0x4400 2 ≠ 0 → s.obji 1 0x4400 2 ≠ 0 → 
    exec (.formatMirrored path) s = .next (answered path (writeFormat 1 (mailArrives s)))) ∧
  (∀ (s : State) (path : Nat), Accepts s path 0x5300 3 1 2 → s.obj 0x5300 1 ≠ 2 → s.obji 0 0x4400 2 ≠ 0 → s.obji 1 0x4400 2 ≠ 0 → 
    exec (.formatStriped path) s = .next (answered path (writeFormat 2 (mailArrives s)))) ∧
  (∀ (s : State) (path : Nat), Accepts s path 0x5300 5 1 1 → s.obj 0x5300 5 = 1 → (s.obj 0x5300 1 = 3 ∨ s.obj 0x5300 1 = 0) → s.obji 0 0x4400 2 = 1 → s.obji 1 0x4400 2 = 1 → 
    exec (.journalEnableTrue path) s = .next (answered path (.ok (mount ((mailArrives s).setObj 0x5300 5 1))))) ∧
  (∀ (s : State) (path : Nat), Accepts s path 0x5300 5 1 1 → s.obj 0x5300 5 = 0 → s.obj 0x5300 1 = 3 → s.obji 0 0x4400 2 = 1 → s.obji 1 0x4400 2 = 1 → 
    exec (.journalEnableTrue path) s = .next (answered path (.ok (mount ((mailArrives s).setObj 0x5300 5 1))))) ∧
  (∀ (s : State) (path : Nat), Accepts s path 0x5300 5 1 0 → s.obj 0x5300 5 = 1 → s.obj 0x5300 1 ≠ 2 → 
    exec (.journalEnableFalse path) s = .next (answered path (.ok (setCond 34 false ((mailArrives s).setObj 0x5300 5 0))))) ∧
  (∀ (d n : Nat) (s u : State) (v w : DriveVol) (used : List Nat), d < 2 → s.obj 0x5300 1 = 2 → striped s = false → s.journal.lost.contains d = true → s.journal.lost.contains (1 - d) = false →
    s.journal.waiting.any (fun c => decide (c.prio ≤ 2)) = false → v = s.vol (1 - d) → used = usedSegments v (s.vol d) → w = ((used.filter (segDiffers v (s.vol d))).take n).foldl (copySegment v) (s.vol d) →
    u = (s.setVol d w).setObji d 0x4400 2 1 →
    (used.filter (segDiffers v w) = [] → exec (.driveResyncComplete d n) s = .next (setDegraded 6 false (((u.setJournal
      { s.journal with lost := s.journal.lost.filter (fun x => x != d) }).setObj 0x3703 1 0).setObj 0x3703 2 100))) ∧
    (used.filter (segDiffers v w) ≠ [] → exec (.driveResyncComplete d n) s = .next ((u.setObj 0x3703 1 3).setObj 0x3703 2
      (100 * (used.length - (used.filter (segDiffers v w)).length) / used.length)))) ∧
  (∀ (d n : Nat) (s u : State) (c : NvCmd), flightCmd s d n = some c → c.kind ≠ 5 → u = nvDrop c s →
    exec (.nvmeCommandComplete d n true) s = .next (serveNext (driveLost d ((u.setObji d 0x4400 0x0A (satAdd 32 (u.obji d 0x4400 0x0A) 1)).setJournal
      { (u.setObji d 0x4400 0x0A (satAdd 32 (u.obji d 0x4400 0x0A) 1)).journal with
        waiting := c :: (u.setObji d 0x4400 0x0A (satAdd 32 (u.obji d 0x4400 0x0A) 1)).journal.waiting })))) ∧
  (∀ (d n : Nat) (s : State) (c : NvCmd), flightCmd s d n = some c → c.kind = 5 → exec (.nvmeCommandComplete d n false) s = .next (serveNext (nvIssue (readDone c (nvDrop c s))))) ∧
  (∀ (d n : Nat) (s u : State) (c : NvCmd), flightCmd s d n = some c → c.issued + 2000000000 ≤ s.time.clk → (c.tries + 1) % 4 ≠ 3 → u = (nvDrop c s).bumpi d 0x4400 9 →
    exec (.nvmeCommandTimeout d n) s = .next (serveNext (u.setJournal { u.journal with flight := u.journal.flight ++ [{ c with tries := c.tries + 1, issued := s.time.clk }] }))) ∧
  (∀ (d : Nat) (s : State), d < 2 → exec (.pcieLinkDown d) s = .next (serveNext (driveLost d (s.setObji d 0x4400 3 0))))

/-- The release instant, a port that frees, and the answers to a core's, a camera's or the journal engine's requests. -/
def Obligations.ReleaseAndAnswers : Prop :=
  (∀ (bad : List EntryError) (s a : State) (r : Stamp), a = (s.selvedge.txns.map (·.1)).foldl (fun st t => deadlineAt t st) s → earliestDue a = some r →
    exec (.releaseInstant bad) s = .next (let due := a.selvedge.txns.filter (fun e => dueAt r e.2)
      let z := due.foldl releaseTxn ((List.range 42).foldl (releasePort r bad due) a)
      entriesShow (z.setObj 0x3500 0x10 z.t))) ∧
  (∀ (s u : State), (s.line 33).busy = true → u = { s with can := { s.can with tx := s.can.tx.drop 1 } } →
    exec (.portBusyRelease 33) s = .next (canNext (s.line 33).waiting ((u.setLine 33 { s.line 33 with busy := false }).bump 0x4600 9))) ∧
  (∀ (port : Nat) (e : Entry) (es : List Entry) (s : State), 24 ≤ port → port < 32 → serBusy s (port - 24) = false → (s.serial (port - 24)).lead = none → (s.line port).waiting = e :: es →
    exec (.portBusyRelease port) s = .next (portSend port e (s.setLine port { s.line port with waiting := es }))) ∧
  (∀ (l : Nat) (s : State), l < 2 → (s.line (40 + l)).busy = true → exec (.portBusyRelease (40 + l)) s = .next (linkStart l s)) ∧
  (∀ (k : Nat) (p : Packet) (s u : State), takeAnswer k 8 s = some (p, u) → 2 ^ 20 ≤ p.timer → p.timer < 2 ^ 22 → exec (.readResp k) s = .next (fzReadDone p u)) ∧
  (∀ (k : Nat) (p : Packet) (s u : State), takeAnswer k 9 s = some (p, u) → 2 ^ 20 ≤ p.timer → p.timer < 2 ^ 22 → exec (.writeAck k) s = .next (fzWriteDone p u)) ∧
  (∀ (k : Nat) (p : Packet) (s u : State), takeAnswer k 9 s = some (p, u) → 2 ^ 19 ≤ p.timer → p.timer < 2 ^ 20 →
    exec (.writeAck k) s = .next (camAck ((p.timer - 2 ^ 19) / 2 ^ 16) p.timer p.aux u)) ∧
  (∀ (k : Nat) (p : Packet) (s u : State), takeAnswer k 8 s = some (p, u) → 2 ^ 22 ≤ p.timer → exec (.readResp k) s = .next (ringData p u)) ∧
  (∀ (k : Nat) (p : Packet) (s u : State), takeAnswer k 9 s = some (p, u) → 2 ^ 22 ≤ p.timer → exec (.writeAck k) s = .next (ringAck p.timer u)) ∧
  (∀ (k : Nat) (p : Packet) (s u : State), takeAnswer k 10 s = some (p, u) → 2 ^ 20 ≤ p.timer → exec (.pullResp k) s = .next (fzPullDone p u))

/-- Resets, the release of reset, step timeouts, DONE, the fabric start and the measurements of a start. -/
def Obligations.ResetAndStart : Prop :=
  (∀ (w : Nat) (a : Bool) (s : State), exec (.porstNReset w a) s = .next (if w < 100 then s else resetState 1 a s)) ∧
  (∀ (r mv w : Nat) (a : Bool) (s : State), exec (.supplyMonitorReset r mv w a) s = .next (if w < 1000 ∨ (monitorLevels s r).1 ≤ mv then s else resetState 2 a s)) ∧
  (∀ (w : Nat) (s : State), exec (.resetNReset w) s = .next (if w < 100 then s else resetState 3 false s)) ∧
  (∀ (s : State) (k : Nat), s.start.resetAt = some k → k ≤ s.time.clk → exec .requestedReset s = .next (resetState 4 false s)) ∧
  (∀ (s u : State) (b : Board) (steps : List StepOutcome), s.start.held = true → s.obj 0x2000 1 = 3 →
    u = { s with start := { s.start with held := false, relAt := s.time.clk, board := b }, flash := { s.flash with mib := b.flashMiB } } →
    exec (.resetRelease b steps) s = .next (runSteps startSteps steps ((u.setObj 0x2000 1 3).setObj 0x2001 0 0))) ∧
  (∀ (s u : State) (b : Board) (steps : List StepOutcome), s.start.held = true → s.obj 0x2000 1 = 1 →
    u = { s with start := { s.start with held := false, relAt := s.time.clk, board := b }, flash := { s.flash with mib := b.flashMiB } } →
    exec (.resetRelease b steps) s = .next (runSteps startSteps steps ((((u.setObj 0x2000 1 1).setObj 0x2001 0 0).setObj 0x3601 6 (b.mode % 8)).setObj 0x2200 7 (vddioClasses b)))) ∧
  (∀ (os : List StepOutcome) (s : State) (k : Nat), k = s.start.step → stepFree s = false → 1000000 * stepMax k ≤ stepTaken s → isOptional k = false →
    exec (.startStepTimeout os) s = .next (stepFailed k 1 (stepTaken s / 1000000) s)) ∧
  (∀ (os : List StepOutcome) (s : State) (k : Nat), k = s.start.step → stepFree s = false → 1000000 * stepMax k ≤ stepTaken s → isOptional k = true →
    exec (.startStepTimeout os) s = .next (runSteps ((startSteps.dropWhile (· ≠ k)).drop 1) os (stepMissed k 1 (stepTaken s / 1000000) s))) ∧
  (∀ s : State, s.start.done = true → s.fabric = false → s.start.fabricAt = none →
    exec .doneHighSeen s = .next { s with start := { s.start with fabricAt := some (1000 * ((s.t + 500 + 999) / 1000)) } }) ∧
  (∀ (s a b : State) (k : Nat), s.start.fabricAt = some k → s.fabric = false → k ≤ s.t →
    a = stepPass 12 ((s.time.clk - s.start.stepAt) / 1000000) (fabricStart s) →
    b = (a.setObj 0x2000 2 ((a.time.clk - a.start.relAt) / 1000000)).setObj 0x2001 0 1 →
    exec .fabricStart s = .next (mirrorTouch (startReport (deviceShow b))))

/-- The end of a load check, flash erases and programs, and the return of the MP. -/
def Obligations.LoadsAndFlash : Prop :=
  (∀ (failed : Nat) (s : State), s.load.active = true → s.load.whole = true → recipeWriting s = false → mpDown s = false → s.load.kind = 3 → checkStored s s.load.buf = none →
    exec (.loadCheckComplete failed) s = .next (storeRecipe s.load.slot s.load.buf s)) ∧
  (∀ (failed : Nat) (f : Refuse) (s : State), s.load.active = true → s.load.whole = true → recipeWriting s = false → mpDown s = false → s.load.kind = 3 → checkStored s s.load.buf = some f →
    exec (.loadCheckComplete failed) s = .next (endLoad (some f) s)) ∧
  (∀ s : State, s.load.active = true → s.load.whole = true → recipeWriting s = false → mpDown s = false → s.load.kind ≠ 3 → checkAll s s.load.kind s.load.buf = none →
    (halvesNeeded s.load.buf s).find? (fun d => bit 0 d) = none →
    exec (.loadCheckComplete 0) s = .next (loadAccepted s.load.buf ((halvesNeeded s.load.buf s).foldl (fun st d => domainReach d true st) s))) ∧
  (∀ (failed : Nat) (f : Refuse) (s : State), s.load.active = true → s.load.whole = true → recipeWriting s = false → mpDown s = false → s.load.kind ≠ 3 → checkAll s s.load.kind s.load.buf = some f →
    exec (.loadCheckComplete failed) s = .next (loadRefused f s)) ∧
  (∀ (s : State) (j : FlashJob) (js : List FlashJob), s.flash.running = true → s.flash.jobs = j :: js → j.erase = true → s.flash.orphan = false →
    exec .flashEraseComplete s = .next (flashNext (s.setFlash (intentDone j.addr s.flash)))) ∧
  (∀ (s : State) (j : FlashJob) (js : List FlashJob) (c : Nat) (v : SavedCopy), s.flash.running = true → s.flash.jobs = j :: js → j.erase = false → j.purpose = 3 → j.effect = .saved c v →
    exec .flashProgramComplete s = .next (flashNext (s.setFlash { s.flash with saved := mput s.flash.saved c v }))) ∧
  (∀ (s u : State), s.obj 0x3030 1 ≠ 0 → u = s.setObj 0x3030 1 0 → slotValid u = true → imageNew u = false →
    exec .mpRestartDone s = .next (serveNext (mailPump (runFirmware u))))

/-- BEGIN, block halves, END, ABORT, ACTIVATE_AT and the activation of a firmware image. -/
def Obligations.FirmwareUpdate : Prop :=
  (∀ (path : Nat) (bs : FrameData) (s : State), Serves s { path := path, kind := 1, ix := 0x5800, sub := 2, data := bs.map (BitVec.ofNat 8) } → bs.length ≤ 832 →
    exec (.fwBegin path bs) s = .next (answered path (fwBegin false (bs.map (BitVec.ofNat 8)) (mailArrives s)))) ∧
  (∀ (path : Nat) (bs : FrameData) (s : State), Serves s { path := path, kind := 1, ix := 0x5800, sub := 3, data := bs.map (BitVec.ofNat 8) } → bs.length = 2048 →
    fwState (mailArrives s) = 1 → s.update.got < fwBlocksOf s.update.head → s.update.buffered < 2 → s.update.half = none →
    exec (.fwBlockHalf path bs) s = .next (answered path (.ok ((mailArrives s).setUpdate { s.update with half := some (bs.map (BitVec.ofNat 8)) })))) ∧
  (∀ (path : Nat) (bs : FrameData) (s : State), Serves s { path := path, kind := 1, ix := 0x5800, sub := 4, data := bs.map (BitVec.ofNat 8) } → bs.length = 144 →
    fwState (mailArrives s) = 1 → s.update.got = fwBlocksOf s.update.head → s.update.half = none →
    exec (.fwEnd path bs) s = .next (answered path (.ok (fwEnter 2 ((mailArrives s).setUpdate { s.update with sig := some (bs.map (BitVec.ofNat 8)), sigAt := s.time.clk }))))) ∧
  (∀ (s : State) (path : Nat), Accepts s path 0x5800 7 1 1 → fwState (mailArrives s) = 1 → 
    exec (.fwAbort path 1) s = .next (answered path (.ok (fwRecord 6 (fwVersion s.update.head) (fwEnter 0 (fwDrop (mailArrives s))))))) ∧
  (∀ (s : State) (path v : Nat), Accepts s path 0x5800 6 8 v → fwState (mailArrives s) = 3 → s.obj 0x3600 1 = 0 → s.t + 100000000 ≤ v → 
    exec (.activateAtWrite path v) s = .next (answered path (.ok (fwRecord 4 (s.obj 0x5800 9) (fwEnter 5 ((mailArrives s).setObj 0x5800 6 v)))))) ∧
  (∀ s : State, fwState s = 5 → s.obj 0x5800 6 ≤ s.t → exec .activationInstant s = .next (mpStop ((fwEnter 6 s).setObj 0x5800 0x0B (s.obj 0x5800 6))))

/-- Life-cycle and authentication requests, the exchange with the island, the answer, the wipe and the tamper event. -/
def Obligations.SecureRequests : Prop :=
  (∀ (path : Nat) (s : State), Sends s path → exec (.lcRequestProv path) s = .next (secureTaken { path := path, kind := 1, ix := 0x5C00, sub := 2, data := leBytes 0x766F7270 4 } s)) ∧
  (∀ (path : Nat) (s : State), Sends s path → exec (.lcRequestFiel path) s = .next (secureTaken { path := path, kind := 1, ix := 0x5C00, sub := 2, data := leBytes 0x6C656966 4 } s)) ∧
  (∀ (path : Nat) (s : State), Sends s path → exec (.lcRequestRetn path) s = .next (secureTaken { path := path, kind := 1, ix := 0x5C00, sub := 2, data := leBytes 0x6E746572 4 } s)) ∧
  (∀ (path : Nat) (s : State), Sends s path → exec (.lcRequestScrp path) s = .next (secureTaken { path := path, kind := 1, ix := 0x5C00, sub := 2, data := leBytes 0x70726373 4 } s)) ∧
  (∀ (path : Nat) (bs : FrameData) (s : State), Sends s path → exec (.authWrite path bs) s = .next (secureTaken { path := path, kind := 1, ix := 0x5C00, sub := 3, data := bs.map (BitVec.ofNat 8) } s)) ∧
  (∀ (path : Nat) (bs : FrameData) (s : State), Sends s path → exec (.challengeWrite path bs) s = .next (secureTaken { path := path, kind := 1, ix := 0x5C02, sub := 2, data := bs.map (BitVec.ofNat 8) } s)) ∧
  (∀ (path n : Nat) (bs : FrameData) (s : State), Sends s path → exec (.imageKeyHashWrite path n bs) s =
      .next (secureTaken { path := path, kind := 1, ix := 0x5C01, sub := 1 + n, data := bs.map (BitVec.ofNat 8) } s)) ∧
  (∀ (path v : Nat) (s : State), Sends s path → exec (.securityReleaseWrite path v) s = .next (secureTaken { path := path, kind := 1, ix := 0x5C03, sub := 5, data := leBytes v 4 } s)) ∧
  (∀ (s u : State) (d : SecureDue) (a : SdoAnswer), exchangeNext s = some d → mpDown s = false → d.at' + 1000 ≤ s.time.clk → s.time.clk < d.due → wiping s = false →
    islandAnswer d.req d.due s = (a, u) → exec (.mailboxExchange 0) s = .next ((keepAnswer d a u).interrupt 68 5)) ∧
  (∀ (ecc : Nat) (s : State) (d : SecureDue), exchangeNext s = some d → mpDown s = false → d.at' + 1000 ≤ s.time.clk → s.time.clk < d.due → wiping s = true →
    exec (.mailboxExchange ecc) s = .next ((keepAnswer d { abort := 0x08000000 } s).interrupt 68 5)) ∧
  (∀ (s : State) (d : SecureDue) (ds : List SecureDue) (a : SdoAnswer), s.secure = d :: ds → d.due ≤ s.time.clk → d.answer = some a → ¬ (d.req.kind = 1 ∧ d.req.stated.isSome ∧ a.abort = 0) →
    exec .secureResponseDue s = .next (answered d.req.path { abort := a.abort, data := a.data, state := { s with secure := ds }, timed := true })) ∧
  (∀ (s : State) (d : SecureDue) (ds : List SecureDue) (a : SdoAnswer) (n : Nat), s.secure = d :: ds → d.due ≤ s.time.clk → d.answer = some a → d.req.kind = 1 → d.req.stated = some n → a.abort = 0 →
    exec .secureResponseDue s = .next (beginSegments d.req n { s with secure := ds })) ∧
  (∀ s : State, wiping s = true → s.island.tampered = false → exec .islandWipeComplete s = .next (s.setIsland { s.island with wipeEnd := none, keys := true, seed := s.fuses.seed, hashes := s.fuses.hashes, lc := s.fuses.lc })) ∧
  (∀ s : State, wiping s = true → s.island.tampered = true → exec .islandWipeComplete s = .next (s.setIsland { s.island with wipeEnd := none })) ∧
  (∀ (s u : State), u = s.setIsland { tampered := true, wipeEnd := some (s.time.clk + 500000) } →
    exec .tamperEvent s = .next (sample 0x0104 [] (setCond 89 true (secOffer 0x0203 [] u))))

/-- Writes that switch a power domain, and the end or the timeout of a switch. -/
def Obligations.PowerDomains : Prop :=
  (∀ (path d : Nat) (s : State), Accepts s path 0x2200 0x0D 1 1 → d = s.obj 0x2200 0x0C → domainFixed d = false → domainOn (mailArrives s) d = false →
    exec (.domainOnWrite path) s = .next (sdoStart path { mailArrives s with power := { s.power with switch := some (d, true, path, s.time.clk) } })) ∧
  (∀ (path : Nat) (s : State), Accepts s path 0x2200 0x0D 1 1 → domainFixed (s.obj 0x2200 0x0C) = true →
    exec (.domainOnWrite path) s = .next (answered path (.refuse (mailArrives s) 0x08000022))) ∧
  (∀ (path d : Nat) (s : State), Accepts s path 0x2200 0x0D 1 2 → d = s.obj 0x2200 0x0C → domainFixed d = false → domainOn (mailArrives s) d = true → s.obj 0x3600 1 = 0 → s.obj 0x3601 1 = 0 →
    domainMayStop (mailArrives s) d = true →
    exec (.domainOffWrite path) s = .next (sdoStart path { mailArrives s with power := { s.power with switch := some (d, false, path, s.time.clk) } })) ∧
  (∀ (path d begun : Nat) (s : State), s.power.switch = some (d, true, path, begun) → begun + domainOnNs d ≤ s.time.clk → s.time.clk ≤ begun + 2 * domainOnNs d →
    exec .domainSwitchDone s = .next (serveNext (answered path (.ok (domainReach d true { s with power := { s.power with switch := none } }))))) ∧
  (∀ (path d begun : Nat) (s : State), s.power.switch = some (d, true, path, begun) → begun + 2 * domainOnNs d ≤ s.time.clk →
    exec .domainSwitchTimeout s = .next (serveNext (answered path (.refuse (raise 69 { s with power := { s.power with switch := none } }) 0x08000022)))) ∧
  (∀ (path : Nat) (s : State), Accepts s path 0x2200 0x0D 1 1 → domainFixed (s.obj 0x2200 0x0C) = false → domainOn (mailArrives s) (s.obj 0x2200 0x0C) = true →
    exec (.domainOnWrite path) s = .next (answered path (.ok (mailArrives s)))) ∧
  (∀ (path : Nat) (s : State), Accepts s path 0x2200 0x0D 1 2 → domainFixed (s.obj 0x2200 0x0C) = false → domainOn (mailArrives s) (s.obj 0x2200 0x0C) = false →
    exec (.domainOffWrite path) s = .next (answered path (.ok (mailArrives s)))) ∧
  (∀ (path d begun : Nat) (s : State), s.power.switch = some (d, false, path, begun) → begun + domainOffNs d ≤ s.time.clk →
    exec .domainSwitchDone s = .next (serveNext (answered path (.ok (domainReach d false { s with power := { s.power with switch := none } })))))

/-- The register-register instructions of a Fizhaig core. -/
def Obligations.FizhaigRegisterOperations : Prop :=
  FzAluRow .fzAdd (fun a b => a + b) ∧
  FzAluRow .fzSub (fun a b => a - b) ∧
  FzAluRow .fzAnd (fun a b => a &&& b) ∧
  FzAluRow .fzOr (fun a b => a ||| b) ∧
  FzAluRow .fzXor (fun a b => a ^^^ b) ∧
  FzAluRow .fzAndn (fun a b => a &&& ~~~b) ∧
  FzAluRow .fzSll (fun a b => a <<< (b.toNat % 32)) ∧
  FzAluRow .fzSrl (fun a b => a >>> (b.toNat % 32)) ∧
  FzAluRow .fzSra (fun a b => a.sshiftRight (b.toNat % 32)) ∧
  FzAluRow .fzRor (fun a b => a.rotateRight (b.toNat % 32)) ∧
  FzAluRow .fzSlt (fun a b => if a.toInt < b.toInt then 1#32 else 0#32) ∧
  FzAluRow .fzSltu (fun a b => if a.toNat < b.toNat then 1#32 else 0#32) ∧
  FzAluRow .fzMin (fun a b => if a.toInt < b.toInt then a else b) ∧
  FzAluRow .fzMax (fun a b => if a.toInt < b.toInt then b else a) ∧
  FzAluRow .fzMul (fun a b => a * b) ∧
  FzAluRow .fzMulh (fun a b => BitVec.ofInt 32 (a.toInt * b.toInt / 2 ^ 32)) ∧
  FzAluRow .fzMulhu (fun a b => BitVec.ofNat 32 (a.toNat * b.toNat / 2 ^ 32)) ∧
  FzAluRow .fzDiv (fun a b => if b = 0#32 then 0xFFFFFFFF#32 else BitVec.ofInt 32 (a.toInt.tdiv b.toInt)) ∧
  FzAluRow .fzDivu (fun a b => if b = 0#32 then 0xFFFFFFFF#32 else BitVec.ofNat 32 (a.toNat / b.toNat)) ∧
  FzAluRow .fzRem (fun a b => if b = 0#32 then a else BitVec.ofInt 32 (a.toInt.tmod b.toInt)) ∧
  FzAluRow .fzRemu (fun a b => if b = 0#32 then a else BitVec.ofNat 32 (a.toNat % b.toNat)) ∧
  (∀ (c rd ra : Nat) (s : State), FzRuns c s → exec (.fzClz c rd ra) s = .next (fzNext c (fzSetReg c rd (clz ((s.core c).here.g ra)) s))) ∧
  (∀ (b : FBank) (w : Word), (b.setG 0 w) = b ∧ b.g 0 = 0#32)

/-- The immediate instructions, branches and jumps of a Fizhaig core. -/
def Obligations.FizhaigImmediatesAndJumps : Prop :=
  FzImmRow .fzAddi (fun a n => a + BitVec.ofInt 32 (fromTwos 16 n)) ∧
  FzImmRow .fzAndi (fun a n => a &&& BitVec.ofNat 32 (n % 65536)) ∧
  FzImmRow .fzOri (fun a n => a ||| BitVec.ofNat 32 (n % 65536)) ∧
  FzImmRow .fzXori (fun a n => a ^^^ BitVec.ofNat 32 (n % 65536)) ∧
  FzImmRow .fzSlti (fun a n => if a.toInt < (simm n).toInt then 1#32 else 0#32) ∧
  FzImmRow .fzSltiu (fun a n => if a.toNat < (simm n).toNat then 1#32 else 0#32) ∧
  FzImmRow .fzSlli (fun a n => a <<< (n % 32)) ∧
  FzImmRow .fzSrli (fun a n => a >>> (n % 32)) ∧
  FzImmRow .fzSrai (fun a n => a.sshiftRight (n % 32)) ∧
  (∀ (c rd imm : Nat) (s : State), FzRuns c s → exec (.fzLui c rd imm) s = .next (fzNext c (fzSetReg c rd (BitVec.ofNat 32 (65536 * (imm % 65536))) s))) ∧
  FzBranchRow .fzBeq (fun a b => a == b) ∧
  FzBranchRow .fzBne (fun a b => a != b) ∧
  FzBranchRow .fzBlt (fun a b => decide (a.toInt < b.toInt)) ∧
  FzBranchRow .fzBge (fun a b => decide (b.toInt ≤ a.toInt)) ∧
  FzBranchRow .fzBltu (fun a b => decide (a.toNat < b.toNat)) ∧
  FzBranchRow .fzBgeu (fun a b => decide (b.toNat ≤ a.toNat)) ∧
  (∀ (c disp : Nat) (s : State) (b : FBank) (t : Word), FzRuns c s → b = (s.core c).here → t = b.pc + wordDisp 26 disp → t.toNat % 4 = 0 →
    exec (.fzJ c disp) s = .next (fzNext c (s.setCore c ((s.core c).setHere { b with pc := t })))) ∧
  (∀ (c disp : Nat) (s : State) (b : FBank) (t : Word), FzRuns c s → b = (s.core c).here → t = b.pc + wordDisp 26 disp → t.toNat % 4 = 0 →
    exec (.fzJal c disp) s = .next (fzNext c (s.setCore c ((s.core c).setHere { b.setG 31 (b.pc + 4#32) with pc := t })))) ∧
  (∀ (c rd ra imm : Nat) (s : State) (b : FBank) (t : Word), FzRuns c s → b = (s.core c).here → t = fzEa c ra imm s → t.toNat % 4 = 0 →
    exec (.fzJalr c rd ra imm) s = .next (fzNext c (s.setCore c ((s.core c).setHere { b.setG rd (b.pc + 4#32) with pc := t })))) ∧
  (∀ (c rd ra imm : Nat) (s : State) (t : Word), FzRuns c s → t = fzEa c ra imm s → t.toNat % 4 ≠ 0 →
    exec (.fzJalr c rd ra imm) s = .next (orHeld c s (fzTrap c 3 t.toNat (s.core c).here.pc false false s)))

/-- Loads, stores and SWAP on the data memory of a Fizhaig core. -/
def Obligations.FizhaigMemory : Prop :=
  FzLoadRow .fzLw 0 ∧
  FzLoadRow .fzLh 1 ∧
  FzLoadRow .fzLhu 2 ∧
  FzLoadRow .fzLb 3 ∧
  FzLoadRow .fzLbu 4 ∧
  FzStoreRow .fzSw 4 ∧
  FzStoreRow .fzSh 2 ∧
  FzStoreRow .fzSb 1 ∧
  (∀ (c rd ra imm a o : Nat) (s : State), FzRuns c s → a = (fzEa c ra imm s).toNat → a % 4 = 0 → fzAllowed c (s.core c) (s.core c).here true a = true → fzPlace c (s.core c) a = .data o →
    exec (.fzSwap c rd ra imm 0) s = .next (fzNext c (fzSetReg c rd (BitVec.ofNat 32 (leNat (memRead (s.core c).dmem o 4)))
      (s.setCore c { s.core c with dmem := memWrite (s.core c).dmem o (leBytes ((s.core c).here.g rd).toNat 4) }))))

/-- Loads and stores of the control space of a Fizhaig core. -/
def Obligations.FizhaigControlSpace : Prop :=
  FzCtrlLoadRow .fzClw 4 ∧
  FzCtrlLoadRow .fzClh 2 ∧
  FzCtrlLoadRow .fzClb 1 ∧
  FzCtrlStoreRow .fzCsw 4 ∧
  FzCtrlStoreRow .fzCsh 2 ∧
  FzCtrlStoreRow .fzCsb 1 ∧
  (∀ (c rd ra imm a : Nat) (s u t : State) (v w : Nat) (k j : CKind) (p q : Bool), FzRuns c s → a = (fzEa c ra imm s).toNat → rd % 2 = 0 → a % 8 = 0 → a < 0x10000 →
    ctrlKind c (a / 4 * 4) = some (k, p) → ctrlKind c ((a + 4) / 4 * 4) = some (j, q) → ((p || q) = true → (s.core c).here.sys = true) →
    ctrlRead c a s = (v, u) → ctrlRead c (a + 4) u = (w, t) →
    exec (.fzCld c rd ra imm) s = .next (fzNext c (fzSetReg c (rd + 1) (BitVec.ofNat 32 w) (t.setCore c ((t.core c).setHere ((t.core c).here.setG rd (BitVec.ofNat 32 v))))))) ∧
  (∀ (c rs ra imm a : Nat) (s u t : State) (k j : CKind) (p q : Bool), FzRuns c s → a = (fzEa c ra imm s).toNat → rs % 2 = 0 → a % 8 = 0 → a < 0x10000 →
    ctrlKind c (a / 4 * 4) = some (k, p) → ctrlKind c ((a + 4) / 4 * 4) = some (j, q) → ((p || q) = true → (s.core c).here.sys = true) → (k = .rw ∨ k = .ws) → (j = .rw ∨ j = .ws) →
    ctrlWrite c a ((s.core c).here.g rs).toNat s = .ok u → ctrlWrite c (a + 4) ((s.core c).here.g (rs + 1)).toNat u = .ok t →
    exec (.fzCsd c rs ra imm) s = .next (fzNext c (fzAdvance c t)))

/-- The control registers of a shuttle and of the other cores with side effects. -/
def Obligations.FizhaigShuttleRegisters : Prop :=
  (∀ (c rd : Nat) (s : State), FzRuns c s → c < 64 → exec (.replayqPop c rd) s = .next (fzNext c (fzSetReg c rd (BitVec.ofNat 32 (replayqWord s c)) (s.setMotif c { s.motif c with decided := (s.motif c).decided.drop 1, serving := (s.motif c).serving ++ (s.motif c).decided.take 1 })))) ∧
  (∀ (c rs w : Nat) (s u : State) (f : Nat), FzRuns c s → c < 64 → (s.core c).cur = 1 → w = ((s.core c).here.g rs).toNat → w % 4096 ≠ 0 → s.fresh = (f, u) →
    exec (.replayRequestWrite c rs) s = .next (fzNext c (fzAdvance c (let z := (u.setMotif c { s.motif c with replays := (s.motif c).replays ++ [w % 4096], serving := (s.motif c).serving.erase (w % 4096) }).setCore c { s.core c with popped := (s.core c).popped + 1 }
      z.setObji c 0x3038 7 (max (z.obji c 0x3038 7) (6 + 3 * ((s.core c).popped % 4) + (Config.freeWord f).toNat % 3)))))) ∧
  (∀ (c rs : Nat) (s : State), FzRuns c s → c < 64 → (s.core c).txWords.length < 15 → exec (.txdataAppend c rs) s = .next (fzNext c (fzAdvance c (s.setCore c { s.core c with txWords := (s.core c).txWords ++ [(s.core c).here.g rs] })))) ∧
  (∀ (c rs : Nat) (s : State) (m : Motif) (t : Token), FzRuns c s → c < 64 → m = s.motif c → t = { tid := field (s.core c).txctl 26 15, stamp := BitVec.ofNat 32 (s.core c).txstamp, words := (s.core c).txWords ++ [(s.core c).here.g rs], prio := field (s.core c).txctl 14 13, exec := (m.part (field (s.core c).txctl 26 15)).exec, planeB := bit (s.core c).txctl 0 } →
    (s.core c).txWords.length < 15 → outUsed m 18 + 1 + t.words.length ≤ 16 →
    exec (.txlastSend c rs) s = .next (fzNext c (fzAdvance c ((s.setMotif c (m.pushOut s.time.clk 18
      { route := m.route (bit (s.core c).txctl 0) (field (s.core c).txctl 8 1) (field (s.core c).txctl 12 9), tok := t })).setCore c { s.core c with txWords := [] })))) ∧
  (∀ (c rd : Nat) (s : State) (t : Token), FzRuns c s → c < 64 → rxHead s c = some t →
    exec (.rxheadRead c rd) s = .next (fzNext c (fzSetReg c rd (BitVec.ofNat 32 t.stamp.toNat) (s.setCore c { s.core c with rxStarted := true })))) ∧
  (∀ (c rd : Nat) (s : State) (t : Token), FzRuns c s → c < 64 → (s.core c).rxStarted = true → rxHead s c = some t →
    exec (.rxdataPop c rd) s = .next (fzNext c (fzSetReg c rd (BitVec.ofNat 32 (t.words.headD 0#32).toNat) (rxPop c s)))) ∧
  (∀ (c rd : Nat) (s : State), FzRuns c s → exec (.excountRead c rd) s = .next (fzNext c (fzSetReg c rd (BitVec.ofNat 32 ((s.core c).exccount)) (s.setCore c { s.core c with exccount := 0 })))) ∧
  (∀ (rd : Nat) (s : State), FzRuns 68 s →
    exec (.latchedPairRead 68 rd 0x78) s = .next (fzNext 68 (fzSetReg 68 rd (BitVec.ofNat 32 (s.t % 2 ^ 32)) (s.setCore 68 { s.core 68 with latch := mset 0 (s.core 68).latch 0x7C (s.t / 2 ^ 32) })))) ∧
  (∀ (c rs : Nat) (s : State), FzRuns c s → c = 68 → (s.core c).here.sys = true → exec (.wdogWrite c rs) s = .next (fzNext c (fzAdvance c (s.setCore c { s.core c with wdog := s.time.clk, warned := false, ipend := withBit (s.core c).ipend 0 false })))) ∧
  (∀ (c rs : Nat) (s u : State), FzRuns c s → c < 68 → (s.core c).held < 4 →
    u = fzSend c { typ := 4, dx := (sliceRouter (((s.core c).here.g rs).toNat / 16 % 4) 0).1, dy := (sliceRouter (((s.core c).here.g rs).toNat / 16 % 4) 0).2, endpoint := 48 + ((s.core c).here.g rs).toNat % 16 } s →
    exec (.pullreqWrite c rs) s = .next (fzNext c (fzAdvance c (u.setCore c { u.core c with pullDone := false })))) ∧
  (∀ (c rs : Nat) (s : State), FzRuns c s → c < 64 → exec (.doorbellWrite c rs) s = .next (fzNext c (fzAdvance c ((s.setCore (64 + hoopOf c) { s.core (64 + hoopOf c) with doorbell := ((s.core c).here.g rs).toNat }).interrupt (64 + hoopOf c) 3)))) ∧
  (∀ (c n : Nat) (s : State), FzRuns c s → 64 ≤ c → c < 68 → n < 16 → (s.core c).here.sys = true → (s.core (hoopMotif (c - 64) n)).state = 0 → (s.core (hoopMotif (c - 64) n)).started = true →
    exec (.shctlStop c n) s = .next (fzNext c (fzAdvance c (fzShowState (hoopMotif (c - 64) n) 2 (s.setCore (hoopMotif (c - 64) n) { s.core (hoopMotif (c - 64) n) with state := 2 }))))) ∧
  (∀ (c n : Nat) (s : State), FzRuns c s → 64 ≤ c → c < 68 → n < 16 → (s.core c).here.sys = true →
    exec (.shctlRestart c n) s = .next (fzNext c (fzAdvance c (restartShuttle (hoopMotif (c - 64) n) s)))) ∧
  (∀ (c rs w : Nat) (s : State), FzRuns c s → 64 ≤ c → c < 69 → (s.core c).here.sys = true → w = ((s.core c).here.g rs).toNat → ibindOk c w (s.core c).ibindH (s.core c) = true →
    exec (.ibindWrite c false rs) s = .next (fzNext c (fzAdvance c (s.setCore c { s.core c with ibindL := w, ibindH := (s.core c).ibindH }))))

/-- The FP instructions of a core whose bank owns the FP file, and those that do not run. -/
def Obligations.FizhaigFloat : Prop :=
  FpRow .fzFadd (fun a b => fAdd a b) ∧
  FpRow .fzFsub (fun a b => fSub a b) ∧
  FpRow .fzFmul (fun a b => fMul a b) ∧
  FpRow .fzFmin (fun a b => fMinMax false a b) ∧
  FpRow .fzFmax (fun a b => fMinMax true a b) ∧
  FpRow3 .fzFma (fun a b d => fMa a b d) ∧
  FpRow3 .fzFms (fun a b d => fMs a b d) ∧
  FpRow3 .fzFnma (fun a b d => fNma a b d) ∧
  FpRow1 .fzFsqrt (fun a => fSqrt a) ∧
  FpRow1 .fzFabs (fun a => fAbs a) ∧
  FpRow1 .fzFneg (fun a => fNeg a) ∧
  FpCmpRow .fzFcmplt (fun a b => fCmpLt a b) ∧
  FpCmpRow .fzFcmple (fun a b => fCmpLe a b) ∧
  FpCmpRow .fzFcmpeq (fun a b => fCmpEq a b) ∧
  FpToRow .fzFtoi (fun a => fToI false a) ∧
  FpToRow .fzFtoir (fun a => fToI true a) ∧
  FpToRow .fzFmvfg (fun a => { val := a }) ∧
  FpFromRow .fzItof (fun a => iToF a) ∧
  FpFromRow .fzFmvgf (fun a => { val := a }) ∧
  (∀ (c fd fa fb ecc : Nat) (s : State), FpRuns c s →
    exec (.fzFdiv c fd fa fb ecc) s = .next (fzNext c (fzSetF c fd (fDiv ((s.core c).f fa) ((s.core c).f fb)) (isDivZero ((s.core c).f fa) ((s.core c).f fb)) s))) ∧
  (∀ (c fd ra imm a o ecc : Nat) (s : State), FpRuns c s → a = (fzEa c ra imm s).toNat → a % 4 = 0 → fzAllowed c (s.core c) (s.core c).here false a = true → fzPlace c (s.core c) a = .data o → ecc ≠ 2 →
    exec (.fzFlw c fd ra imm ecc) s = .next (fzNext c (fzLand c (s.core c).cur 5 fd (BitVec.ofNat 32 (leNat (memRead (s.core c).dmem o 4))) (fzEcc ecc s)))) ∧
  (∀ (c fs ra imm a o ecc : Nat) (s : State), FpRuns c s → a = (fzEa c ra imm s).toNat → a % 4 = 0 → fzAllowed c (s.core c) (s.core c).here true a = true → fzPlace c (s.core c) a = .data o →
    exec (.fzFsw c fs ra imm ecc) s = .next (fzNext c (fzAdvance c (s.setCore c { s.core c with dmem := memWrite (s.core c).dmem o (leBytes ((s.core c).f fs).toNat 4) })))) ∧
  (∀ (c fd fa fb ecc : Nat) (s : State), FzRuns c s → fpMode c (s.core c) = 0 → exec (.fzFadd c fd fa fb ecc) s = .next (orHeld c s (fzTrap c 1 0 (s.core c).here.pc false false s))) ∧
  (∀ (c fd fa fb ecc : Nat) (s : State), FzRuns c s → fpMode c (s.core c) = 1 → fpsaOf c (s.core c).cur (s.core c) = 0 →
    exec (.fzFadd c fd fa fb ecc) s = .next (orHeld c s (fzTrap c 0x0A 0 (s.core c).here.pc false false s))) ∧
  (∀ (c fd fa fb ecc : Nat) (s : State), FzRuns c s → fpMode c (s.core c) = 1 → fpsaOf c (s.core c).cur (s.core c) ≠ 0 → (s.core c).cur ≠ (s.core c).fpown →
    exec (.fzFadd c fd fa fb ecc) s = .next (orHeld c s (fzTrap c 7 0 ((countSwap c s).core c).here.pc false false (countSwap c s)))) ∧
  (∀ (c a : Nat) (s : State), FzRuns c s → (s.core c).here.sys = true → fpMode c (s.core c) = 1 → (s.core c).cur = (s.core c).fpown → a = fpsaOf c (s.core c).cur (s.core c) → a ≠ 0 → fpAreaOk c (s.core c) (s.core c).here.planeB a = true →
    exec (.fzSavf c) s = .next (fzNext c (fzAdvance c (s.setCore c (cleanGroups (s.core c).cur 15 (saveGroups c a 15 (s.core c))))))) ∧
  (∀ (c a n : Nat) (s : State), FzRuns c s → (s.core c).here.sys = true → fpMode c (s.core c) = 1 → (s.core c).cur = (s.core c).fpown → a = fpsaOf c (s.core c).cur (s.core c) → a ≠ 0 → fpAreaOk c (s.core c) (s.core c).here.planeB a = true →
    n = (fzWord c (s.core c) (a + 4)).toNat % 16 →
    exec (.fzRstf c 0) s = .next (fzNext c (fzAdvance c (s.setCore c (cleanGroups (s.core c).cur n (loadGroups c a n (s.core c))))))) ∧
  (∀ (c ecc : Nat) (s : State), FzRuns c s → (s.core c).here.sys = true → fpMode c (s.core c) = 1 → fpsaOf c (s.core c).cur (s.core c) ≠ 0 → (s.core c).cur ≠ (s.core c).fpown →
    exec (.fzSavf c) s = .next (orHeld c s (fzTrap c 7 0 ((countSwap c s).core c).here.pc false false (countSwap c s))) ∧
    exec (.fzRstf c ecc) s = .next (orHeld c s (fzTrap c 7 0 ((countSwap c s).core c).here.pc false false (countSwap c s)))) ∧
  (∀ (c a : Nat) (s u : State) (x y : Core), FzRuns c s → x = s.core c → x.here.sys = true → fpMode c x = 2 → fpsaOf c x.cur x ≠ 0 → x.cur ≠ x.fpown → fpSwap c x = .inr y → u = countSwap c (s.setCore c y) → a = fpsaOf c (u.core c).cur (u.core c) →
    fpAreaOk c (u.core c) (u.core c).here.planeB a = true → fpMode c (u.core c) = 2 →
    exec (.fzSavf c) s = .next (fzNext c (fzAdvance c (u.setCore c (cleanGroups (u.core c).cur (u.core c).here.dirty (saveGroups c a (u.core c).here.dirty (u.core c)))))))

/-- Interrupt returns, waits, fences, traps, interrupt enables and privileged instructions of a Fizhaig core. -/
def Obligations.FizhaigSystem : Prop :=
  (∀ (c : Nat) (s : State), FzRuns c s → (s.core c).here.sys = true →
    exec (.fzRfi c) s = .next (fzNext c (s.setCore c { (s.core c).setHere { (s.core c).here with pc := (s.core c).here.pc + 4#32 } with cur := prevBank c (s.core c).here }))) ∧
  (∀ (c : Nat) (s u : State), FzRuns c s → u = fzAdvance c s → wakes s c = false →
    exec (.fzWait c) s = .next (fzNext c (u.setCore c ((u.core c).setHere { (u.core c).here with wait := .event })))) ∧
  (∀ (c : Nat) (s : State), FzRuns c s → wakes s c = true → exec (.fzWait c) s = .next (fzNext c (fzAdvance c s))) ∧
  (∀ (c : Nat) (s : State), wakes s c = true → exec (.fzWaitWake c) s = .next (fzSettle c (s.setCore c { s.core c with
      banks := (s.core c).banks.map (fun e => (e.1, if e.2.wait = .event then { e.2 with wait := .none } else e.2)) }))) ∧
  (∀ (c : Nat) (s : State), wakes s c = false → exec (.fzWaitWake c) s = .next s) ∧
  (∀ (c : Nat) (s : State), FzRuns c s → trapHeld c s = none →
    exec (.fzSys c) s = .next (fzTrap c 0x0B 0 ((s.core c).here.pc + 4#32) false false s) ∧ exec (.fzBrk c) s = .next (fzTrap c 0x0C 0 (s.core c).here.pc false false s)) ∧
  (∀ (c w : Nat) (s : State), FzRuns c s → trapHeld c s = none → isOpcode (w % 2 ^ 32) = false → exec (.reservedEncoding c w) s = .next (fzTrap c 1 0 (s.core c).here.pc false false s)) ∧
  (∀ (c w : Nat) (s u : State), FzRuns c s → trapHeld c s = some u → isOpcode (w % 2 ^ 32) = false →
    exec (.fzSys c) s = .next u ∧ exec (.fzBrk c) s = .next u ∧ exec (.reservedEncoding c w) s = .next u) ∧
  (∀ (c : Nat) (s : State), FzRuns c s → (s.core c).writes = [] → exec (.fzFence c) s = .next (fzNext c (fzAdvance c s))) ∧
  (∀ (c : Nat) (s : State), FzRuns c s → (s.core c).writes ≠ [] → exec (.fzFence c) s = .next (fzNext c (s.setCore c ((s.core c).setHere { (s.core c).here with wait := .fence })))) ∧
  (∀ (c : Nat) (s : State), FzRuns c s → (s.core c).here.sys = true → exec (.fzEi c) s = .next (fzNext c (fzAdvance c (s.setCore c ((s.core c).setHere { (s.core c).here with ie := true }))))) ∧
  (∀ (c : Nat) (s : State), FzRuns c s → (s.core c).here.sys = true → exec (.fzDi c) s = .next (fzNext c (fzAdvance c (s.setCore c ((s.core c).setHere { (s.core c).here with ie := false }))))) ∧
  (∀ (c ecc : Nat) (s : State), FzRuns c s → (s.core c).here.sys = false →
    exec (.fzEi c) s = .next (orHeld c s (fzTrap c 2 0 (s.core c).here.pc false false s)) ∧
    exec (.fzDi c) s = .next (orHeld c s (fzTrap c 2 0 (s.core c).here.pc false false s)) ∧
    exec (.fzRfe c ecc) s = .next (orHeld c s (fzTrap c 2 0 (s.core c).here.pc false false s)) ∧
    exec (.fzRfi c) s = .next (orHeld c s (fzTrap c 2 0 (s.core c).here.pc false false s)) ∧
    exec (.fzSavf c) s = .next (orHeld c s (fzTrap c 2 0 (s.core c).here.pc false false s)) ∧
    exec (.fzRstf c ecc) s = .next (orHeld c s (fzTrap c 2 0 (s.core c).here.pc false false s))) ∧
  (∀ (c rd ra imm a n : Nat) (s : State) (k : CKind) (i : Instr), FzRuns c s → (s.core c).here.sys = false → a = (fzEa c ra imm s).toNat → a < 0x10000 → a % n = 0 →
    ctrlKind c (a / 4 * 4) = some (k, true) → ((n = 4 ∧ (i = .fzClw c rd ra imm ∨ i = .fzCsw c rd ra imm)) ∨ (n = 2 ∧ (i = .fzClh c rd ra imm ∨ i = .fzCsh c rd ra imm)) ∨
      (n = 1 ∧ (i = .fzClb c rd ra imm ∨ i = .fzCsb c rd ra imm)) ∨ (n = 8 ∧ rd % 2 = 0 ∧ (i = .fzCld c rd ra imm ∨ i = .fzCsd c rd ra imm))) →
    exec i s = .next (orHeld c s (fzTrap c 2 a (s.core c).here.pc false false s)))

/-- Fetch faults, interrupt entry, the replay service, the watchdog, timers and restarts. -/
def Obligations.FizhaigEvents : Prop :=
  (∀ (c ecc : Nat) (s : State), fzIssues s c = true → fzFetchable c (s.core c) (s.core c).here = false →
    exec (.instructionFetchFault c ecc) s = .next (orHeld c s (fzTrap c 4 (s.core c).here.pc.toNat (s.core c).here.pc false false s))) ∧
  (∀ (n l k f : Nat) (s u : State) (x y : Core) (e : FBank), x = s.core 68 → x.started = true → x.state = 0 → x.here.ie = true → interruptible x.here = true →
    nextSource 68 x = some n → l = sourceLevel x n → x.here.level < l → k = boundBank x.ibindL x.ibindH l → y = x.setHere { x.here with wait := .none } →
    e = { y.bank k with prev := x.cur, level := l, ie := false, wait := .none, planeB := false, pc := BitVec.ofNat 32 (x.vbaseA + 0x200 + 16 * l) } →
    (s.setCore 68 { y.setBank k e with cur := k, ipend := withBit x.ipend n false }).fresh = (f, u) → exec (.interruptEntry 68) s = .next u) ∧
  (∀ (m : Nat) (s : State) (x : Core), m < 64 → x = s.core m → (s.motif m).decided ≠ [] → x.state ≠ 1 → x.cur ≠ 1 →
    exec (.replayServiceInsert m) s = .next (s.setCore m { x.setBank 1 { x.bank 1 with prev := x.cur, pc := replayPc m, sys := true, ie := false, wait := .none } with cur := 1, popped := 0 })) ∧
  (∀ s : State, (s.core 68).started = true → (s.core 68).warned = false → (s.core 68).wdog + wdogNs s / 2 ≤ s.time.clk →
    exec .watchdogWarning s = .next ((s.setCore 68 { s.core 68 with warned := true }).interrupt 68 0)) ∧
  (∀ s : State, (s.core 68).started = true → (s.core 68).wdog + wdogNs s ≤ s.time.clk → exec .watchdogExpiry s = .next (mpRestart 0 s)) ∧
  (∀ (h : Nat) (s : State), h < 4 → exec (.supervisorTimerExpiry h) s = .next (s.interrupt (64 + h) 4)) ∧
  (∀ s : State, exec .mpTimerExpiry s = .next (s.interrupt 68 10)) ∧
  (∀ (s : State) (path h : Nat), h < 4 → Accepts s path (0x3031 + h) 7 1 1 → s.obj (0x3031 + h) 1 = 1 →
    exec (.supervisorRestartWrite path h true) s = .next (answered path (.ok (restartSupervisor h (mailArrives s))))) ∧
  (∀ (s : State) (path v : Nat), Accepts s path 0x3038 9 1 v → v < 64 → ((mailArrives s).core v).state = 1 →
    exec (.shuttleRestartWrite path v) s = .next (answered path (.ok (restartShuttle v (mailArrives s)))))

/-- A step with commands waiting runs the front one on the state with the rest of the queue. -/
def Obligations.StepFront : Prop :=
  (∀ (c : Instr) (cs : List Instr) (s : State), s.pending = c :: cs → step s = exec c { s with pending := cs }) ∧
  (∀ (c : Instr) (s : State), step { s with pending := c :: s.pending } = exec c s)

/-- A step with no command waiting is one cycle of CD0. -/
def Obligations.StepIdle : Prop :=
  (∀ s : State, s.pending = [] → step s = .next { s with time := { s.time with t := (s.time.t + 1) % 2 ^ 64, clk := s.time.clk + 1 } })

/-- Every command goes on from every state. -/
def Obligations.EveryCommandAnswers : Prop :=
  ∀ (i : Instr) (s : State), ∃ t, exec i s = .next t

/-- No command takes back time, used free values, fuses or the queue. -/
def Obligations.CommandsGoOnward : Prop :=
  ∀ (i : Instr) (s t : State), Inv s → exec i s = .next t → Onward s t ∧ t.fuses.lc ≤ 4

/-- Every step keeps the invariant. -/
def Obligations.StepKeepsInv : Prop :=
  ∀ s t : State, Inv s → step s = .next t → Inv t

/-- The state after reset meets the invariant. -/
def Obligations.ResetMeetsInv : Prop :=
  Inv State.reset ∧
  State.reset.pending = [] ∧
  State.reset.time.t = 0 ∧
  State.reset.fuses.lc = 0

/-- A write to START, PERIOD or STREAM of an enabled timer is refused. -/
def Obligations.TimerSettingsRefused : Prop :=
  (∀ (path n sub size : Nat) (bs : FrameData) (s : State), path < 4 → n < 16 → (sub = 2 ∧ size = 8 ∨ sub = 3 ∧ size = 4 ∨ sub = 4 ∧ size = 2) → bs.length = size →
    Serves s { path := path, kind := 1, ix := 0x2110 + n, sub := sub, data := bs.map (BitVec.ofNat 8) } → (s.timer s.activeB n).enable = true →
    exec (.objectWrite path (0x2110 + n) sub size bs) s = .next (answered path (.refuse (arrives path s) 0x08000022)))

/-- An accumulator read as a source saturates, and a result written to one is sign-extended. -/
def Obligations.AccumulatorOperands : Prop :=
  (∀ (ctx : BitVec 128) (b : Bank) (r : Run) (mc : Word), (sourceValue ctx b r mc 8).toInt = max (-2 ^ 31) (min (2 ^ 31 - 1) b.a0.toInt) ∧
    (sourceValue ctx b r mc 9).toInt = max (-2 ^ 31) (min (2 ^ 31 - 1) b.a1.toInt)) ∧
  (∀ (b : Bank) (w : Word), writeDest b 8 w = { b with a0 := w.signExtend 48 } ∧ writeDest b 9 w = { b with a1 := w.signExtend 48 }) ∧
  (∀ (b : Bank) (w : Word), (writeDest b 8 w).a0.toInt = w.toInt ∧ (writeDest b 9 w).a1.toInt = w.toInt)

/-- The fields of a gather fault word. -/
def Obligations.GatherFaultWords : Prop :=
  (∀ code k a : Nat, code < 16 → k < 16 → field (gatherFaultWord code k a).toNat 31 28 = code ∧ field (gatherFaultWord code k a).toNat 27 24 = k ∧
    field (gatherFaultWord code k a).toNat 23 18 = 0 ∧ field (gatherFaultWord code k a).toNat 17 0 = a % 2 ^ 18)

/-- Every refused access to the secure range is answered 0x0800_0000. -/
def Obligations.SecureRefusals : Prop :=
  ∀ (q : SdoReq) (due : Nat) (s : State), (islandAnswer q due s).1.abort = 0 ∨ (islandAnswer q due s).1.abort = 0x08000000

/-- Exception entry on the stack of bank 0. -/
def Obligations.FizhaigExceptionEntry : Prop :=
  (∀ (c code addr o : Nat) (pc sp : Word) (imprecise inSeq : Bool) (s : State) (x y : Core) (b : FBank) (a : Nat),
    x = s.core c → b = x.here → x.double = false → sp = (if x.cur = 0 then b.g 30 else BitVec.ofNat 32 x.sphi) → a = (sp - 16#32).toNat →
    sp.toNat % 16 = 0 → x.splo ≤ a → a < x.sphi → fzAllowed c x { sys := true, planeB := b.planeB } true a = true → fzPlace c x a = .data o →
    y = (fzTrap c code addr pc imprecise inSeq s).core c →
    y.cur = 0 ∧ y.here.sys = true ∧ y.here.ie = false ∧ y.here.planeB = b.planeB ∧ y.here.g 30 = sp - 16#32 ∧
    y.here.pc = BitVec.ofNat 32 (fzVbase c x b.planeB + 16 * code) ∧
    fzWord c y a = pc ∧ fzWord c y (a + 4) = b.status x.cur ∧ fzWord c y (a + 12) = BitVec.ofNat 32 addr ∧
    fzWord c y (a + 8) = BitVec.ofNat 32 (code + 2 ^ 8 * (x.cur % 16) + 2 ^ 12 * b2n b.sys + 2 ^ 13 * b2n imprecise + 2 ^ 14 * b2n inSeq))

/-- Save, restore, context switch and exception return of a Fizhaig core. -/
def Obligations.FizhaigContexts : Prop :=
  (∀ (c : Nat) (s : State) (x : Core), FzRuns c s → x = s.core c → SaveOk c x.cur x → exec (.fzSavl c) s = .next (fzNext c (fzAdvance c (s.setCore c (savedFrame c x.cur false x))))) ∧
  (∀ (c : Nat) (s : State) (x : Core), FzRuns c s → x = s.core c → SaveOk c x.cur x → exec (.fzSavu c) s = .next (fzNext c (fzAdvance c (s.setCore c (savedFrame c x.cur true x))))) ∧
  (∀ (c n : Nat) (s : State) (x : Core), FzRuns c s → x = s.core c → saveBank c x.cur false x = .inl n → exec (.fzSavl c) s = .next (orHeld c s (fzTrap c n x.here.ssp.toNat (trapPc n x.here) false false s))) ∧
  (∀ (c n : Nat) (s : State) (x : Core), FzRuns c s → x = s.core c → saveBank c x.cur true x = .inl n → exec (.fzSavu c) s = .next (orHeld c s (fzTrap c n x.here.ssp.toNat (trapPc n x.here) false false s))) ∧
  (∀ (c ecc : Nat) (s u : State) (x : Core), FzRuns c s → ecc ≠ 2 → u = fzEcc ecc s → x = u.core c → RestoreOk c x.cur false x → exec (.fzRstl c ecc) s = .next (fzNext c (u.setCore c (restoredFrame c x.cur false x.here.sys x)))) ∧
  (∀ (c ecc : Nat) (s u : State) (x : Core), FzRuns c s → ecc ≠ 2 → u = fzEcc ecc s → x = u.core c → RestoreOk c x.cur true x → exec (.fzRstu c ecc) s = .next (fzNext c (fzAdvance c (u.setCore c (restoredFrame c x.cur true x.here.sys x))))) ∧
  (∀ (c n ecc : Nat) (s u : State) (x : Core), FzRuns c s → ecc ≠ 2 → u = fzEcc ecc s → x = u.core c → restoreBank c x.cur false x.here.sys x = .inl n → exec (.fzRstl c ecc) s = .next (orHeld c s (fzTrap c n x.here.ssp.toNat (trapPc n x.here) false false u))) ∧
  (∀ (c n ecc : Nat) (s u : State) (x : Core), FzRuns c s → ecc ≠ 2 → u = fzEcc ecc s → x = u.core c → restoreBank c x.cur true x.here.sys x = .inl n → exec (.fzRstu c ecc) s = .next (orHeld c s (fzTrap c n x.here.ssp.toNat (trapPc n x.here) false false u))) ∧
  (∀ (c ra ecc a : Nat) (s u : State) (x : Core), FzRuns c s → ecc ≠ 2 → u = fzEcc ecc s → x = u.core c → a = ((s.core c).here.g ra).toNat → ccbOk c x a = false → exec (.fzCtx c ra ecc) s = .next (orHeld c s (fzTrap c 0x0A a x.here.pc false false u))) ∧
  (∀ (c ra ecc a : Nat) (s u : State) (x : Core), FzRuns c s → ecc ≠ 2 → u = fzEcc ecc s → x = u.core c → a = ((s.core c).here.g ra).toNat → ccbOk c x a = true → x.here.resident = true → x.here.ssb.toNat = a + 16 → exec (.fzCtx c ra ecc) s = .next (fzNext c (fzAdvance c u))) ∧
  (∀ (c ra ecc a k : Nat) (s u : State) (x : Core), FzRuns c s → ecc ≠ 2 → u = fzEcc ecc s → x = u.core c → a = ((s.core c).here.g ra).toNat → ccbOk c x a = true →
    ¬ (x.here.resident = true ∧ x.here.ssb.toNat = a + 16) → bit (fzWord c x (a + 8)).toNat 0 = true → k = field (fzWord c x (a + 8)).toNat 4 1 → (ctxBanks c x x.here.planeB).contains k = true →
    exec (.fzCtx c ra ecc) s = .next (fzNext c (u.setCore c { ctxLeft x with cur := k }))) ∧
  (∀ (c ra ecc a f : Nat) (s u : State) (x : Core), FzRuns c s → ecc ≠ 2 → u = fzEcc ecc s → x = u.core c → a = ((s.core c).here.g ra).toNat → ccbOk c x a = true → bit (fzWord c x (a + 8)).toNat 0 = false → ¬ (x.here.resident = true ∧ x.here.ssb.toNat = a + 16) → 
    (ctxBanks c x x.here.planeB).find? (fun k => !(x.bank k).resident && k != x.cur) = some f → CtxEnters c f a (ctxLeft x) →
    exec (.fzCtx c ra ecc) s = .next (fzNext c (u.setCore c (ctxEntered c f a (ctxLeft x))))) ∧
  (∀ (c ra ecc a v : Nat) (s u : State) (x : Core), FzRuns c s → ecc ≠ 2 → u = fzEcc ecc s → x = u.core c → a = ((s.core c).here.g ra).toNat → ccbOk c x a = true → bit (fzWord c x (a + 8)).toNat 0 = false → ¬ (x.here.resident = true ∧ x.here.ssb.toNat = a + 16) → 
    (ctxBanks c x x.here.planeB).find? (fun k => !(x.bank k).resident && k != x.cur) = none → victim x (ctxBanks c x x.here.planeB) = some v → Evictable c v (ctxLeft x) →
    CtxEnters c v a (evicted c v (ctxLeft x)) →
    exec (.fzCtx c ra ecc) s = .next (fzNext c (fzBump c 6 6 6 (u.setCore c (ctxEntered c v a (evicted c v (ctxLeft x))))))) ∧
  (∀ (c ra ecc a v : Nat) (s u : State) (x : Core), FzRuns c s → ecc ≠ 2 → u = fzEcc ecc s → x = u.core c → a = ((s.core c).here.g ra).toNat → ccbOk c x a = true → bit (fzWord c x (a + 8)).toNat 0 = false → ¬ (x.here.resident = true ∧ x.here.ssb.toNat = a + 16) → 
    (ctxBanks c x x.here.planeB).find? (fun k => !(x.bank k).resident && k != x.cur) = none → victim x (ctxBanks c x x.here.planeB) = some v →
    ((ctxLeft x).bank v).ssl.toNat < ((ctxLeft x).bank v).ssp.toNat + 160 →
    exec (.fzCtx c ra ecc) s = .next (orHeld c s (fzTrap c 8 a x.here.pc false true u))) ∧
  (∀ (c ra : Nat) (s : State), FzRuns c s → exec (.fzCtx c ra 2) s = .next (orHeld c s (fzTrap c 6 0 ((fzEcc 2 s).core c).here.pc false (ctxOverflows c ((s.core c).here.g ra).toNat s) (fzEcc 2 s)))) ∧
  (∀ (c ecc : Nat) (s u : State) (x : Core), FzRuns c s → ecc ≠ 2 → u = fzEcc ecc s → x = u.core c → (s.core c).here.sys = true → (s.core c).cur = 16 → exec (.fzRfe c ecc) s = .next (fzNext c (u.setCore c
      { returnTo c (fzWord c (s.core c) privBase) (fzWord c (s.core c) (privBase + 4)) (fzWord c (s.core c) (privBase + 8)) x with double := false }))) ∧
  (∀ (c ecc a : Nat) (s t : State) (x : Core) (p st cs : Word), FzRuns c s → x = s.core c → x.here.sys = true → x.cur ≠ 16 → a = (x.here.g 30).toNat → a % 4 = 0 →
    fzAllowed c x x.here false a = true → fzAllowed c x x.here false (a + 12) = true → (match fzPlace c x a with | .noc _ | .scratch _ => false | _ => true) = true → frameRead c a ecc s = (some (p, st, cs), t) →
    exec (.fzRfe c ecc) s = .next (fzNext c (t.setCore c (returnTo c p st cs ((t.core c).setHere (x.here.setG 30 (x.here.g 30 + 16#32))))))) ∧
  (∀ (c ecc a o : Nat) (s t : State) (x : Core) (p st cs : Word), FzRuns c s → x = s.core c → x.here.sys = true → x.cur ≠ 16 → a = (x.here.g 30).toNat → a % 4 = 0 →
    fzAllowed c x x.here false a = true → fzAllowed c x x.here false (a + 12) = true → fzPlace c x a = .scratch o → spOn s c (spBank o) = true → bankTurn s c (spBank o) (shuttleAsk s c (spBank o)) = true →
    frameRead c a ecc (takeTurn c (shuttleAsk s c (spBank o)) s) = (some (p, st, cs), t) →
    exec (.fzRfe c ecc) s = .next (fzNext c (t.setCore c (returnTo c p st cs ((t.core c).setHere (x.here.setG 30 (x.here.g 30 + 16#32))))))) ∧
  (∀ (c ecc a : Nat) (s : State) (x : Core), FzRuns c s → x = s.core c → x.here.sys = true → x.cur ≠ 16 → a = (x.here.g 30).toNat → a % 4 ≠ 0 →
    exec (.fzRfe c ecc) s = .next (orHeld c s (fzTrap c 3 a x.here.pc false false s)))

/-- The words of the Fizhaig instructions. -/
def Obligations.FizhaigWords : Prop :=
  (∀ (i : Instr) (c e w : Nat), i.wf = true → encodeFizhaig i = some (c, e, w) → w < 2 ^ 32 ∧ isOpcode w = true ∧ fizhaigSpells c w i = true) ∧
  (∀ (i j : Instr) (x : Nat × Nat × Nat), i.wf = true → j.wf = true → encodeFizhaig i = some x → encodeFizhaig j = some x → i = j) ∧
  (encodeFizhaig (.fzAdd 0 1 2 3) = some (0, 0, 0b00000000001000100001100000000000) ∧
    encodeFizhaig (.fzAddi 64 31 1 0xFFFF) = some (64, 0, 0b00010011111000011111111111111111) ∧
    encodeFizhaig (.fzBeq 5 1 2 4) = some (5, 0, 0b10100000001000100000000000000100) ∧
    encodeFizhaig (.fzJal 68 0x3FFFFFF) = some (68, 0, 0b11000111111111111111111111111111) ∧
    encodeFizhaig (.fzLw 3 7 30 8 1) = some (3, 1, 0b01000000111111100000000000001000) ∧
    encodeFizhaig (.fzCsd 64 2 0 0x40) = some (64, 0, 0b10001100010000000000000001000000) ∧
    encodeFizhaig (.fzCtx 0 9 0) = some (0, 0, 0b11100000000010010000000000000000) ∧
    encodeFizhaig (.fzRfe 0 0) = some (0, 0, 0b11100000000000000000000000001000) ∧
    encodeFizhaig (.fzFma 64 1 2 3 4 0) = some (64, 0, 0b11110000001000100001100100000101)) ∧
  (∀ (c v : Nat), v < 2 ^ 15 → fizhaigSpells c (0xE0000008 + 2048 * v) (.fzRfe c 0) = true)
end

