-- ==== Sys2Proof/Laws/Maps.lean ====
section
/-! SUPPORT. Laws of the sparse maps and byte memories: a read after a write, every other key unchanged, and the canonical form kept. -/

namespace Sys2Proof.Machine
open Sys2Proof

theorem mget_mdel_same {α : Type} (d : α) (m : SMap α) (k : Nat) : mget d (mdel m k) k = d := by
  induction m with
  | nil => rfl
  | cons e r ih =>
    obtain ⟨j, w⟩ := e
    by_cases h : j = k
    · subst h; simpa [mdel] using ih
    · simpa [mdel, mget, h] using ih

theorem mget_mdel_other {α : Type} (d : α) (m : SMap α) {j k : Nat} (h : j ≠ k) : mget d (mdel m k) j = mget d m j := by
  induction m with
  | nil => rfl
  | cons e r ih =>
    obtain ⟨i, w⟩ := e
    by_cases hk : i = k
    · subst hk
      have : ¬ i = j := fun e => h e.symm
      simpa [mdel, mget, this] using ih
    · by_cases hj : i = j
      · subst hj; simp [mdel, mget, hk]
      · simpa [mdel, mget, hk, hj] using ih

theorem mget_mput_same {α : Type} (d : α) (m : SMap α) (k : Nat) (v : α) : mget d (mput m k v) k = v := by
  induction m with
  | nil => simp [mput, mget]
  | cons e r ih =>
    obtain ⟨j, w⟩ := e
    unfold mput
    split
    · simp [mget]
    · split
      · simp [mget]
      · have : ¬ j = k := by omega
        simpa [mget, this] using ih

theorem mget_mput_other {α : Type} (d : α) (m : SMap α) {j k : Nat} (v : α) (h : j ≠ k) : mget d (mput m k v) j = mget d m j := by
  have hk : ¬ k = j := fun e => h e.symm
  induction m with
  | nil => simp [mput, mget, hk]
  | cons e r ih =>
    obtain ⟨i, w⟩ := e
    unfold mput
    split
    · simp [mget, hk]
    · split
      · rename_i h1 h2
        subst h2
        simp [mget, hk]
      · by_cases hj : i = j
        · simp [mget, hj]
        · simpa [mget, hj] using ih

/-- A read of the key just written. -/
@[simp] theorem mget_mset_same {α : Type} [DecidableEq α] (d : α) (m : SMap α) (k : Nat) (v : α) : mget d (mset d m k v) k = v := by
  unfold mset
  split
  · rename_i h; rw [mget_mdel_same, h]
  · exact mget_mput_same d m k v

/-- A read of another key. -/
theorem mget_mset_other {α : Type} [DecidableEq α] (d : α) (m : SMap α) {j k : Nat} (v : α) (h : j ≠ k) :
    mget d (mset d m k v) j = mget d m j := by
  unfold mset
  split
  · exact mget_mdel_other d m h
  · exact mget_mput_other d m v h

theorem keysRise_weaken {α : Type} {lo hi : Nat} (h : lo ≤ hi) {m : SMap α} (hm : keysRise (some hi) m = true) : keysRise (some lo) m = true := by
  cases m with
  | nil => rfl
  | cons e r =>
    obtain ⟨j, w⟩ := e
    simp only [keysRise, Bool.and_eq_true, decide_eq_true_eq] at hm ⊢
    exact ⟨by omega, hm.2⟩

theorem keysRise_none {α : Type} {lo : Nat} {m : SMap α} (hm : keysRise (some lo) m = true) : keysRise none m = true := by
  cases m with
  | nil => rfl
  | cons e r =>
    obtain ⟨j, w⟩ := e
    simp only [keysRise, Bool.and_eq_true, decide_eq_true_eq, Bool.true_and] at hm ⊢
    exact hm.2

theorem keysRise_filter {α : Type} (p : Nat × α → Bool) (lo : Option Nat) (m : SMap α) (hm : keysRise lo m = true) :
    keysRise lo (m.filter p) = true := by
  induction m generalizing lo with
  | nil => simp [keysRise]
  | cons e r ih =>
    obtain ⟨j, w⟩ := e
    have hr : keysRise (some j) r = true := by
      simp only [keysRise, Bool.and_eq_true] at hm; exact hm.2
    by_cases hp : p (j, w) = true
    · rw [List.filter_cons_of_pos hp]
      simp only [keysRise, Bool.and_eq_true] at hm ⊢
      exact ⟨hm.1, ih (some j) hr⟩
    · rw [List.filter_cons_of_neg hp]
      cases lo with
      | none => exact keysRise_none (ih (some j) hr)
      | some l =>
        simp only [keysRise, Bool.and_eq_true, decide_eq_true_eq] at hm
        exact keysRise_weaken (Nat.le_of_lt hm.1) (ih (some j) hr)

theorem keysRise_mput {α : Type} (lo : Option Nat) (m : SMap α) (k : Nat) (v : α) (hl : ∀ l, lo = some l → l < k)
    (hm : keysRise lo m = true) : keysRise lo (mput m k v) = true := by
  induction m generalizing lo with
  | nil =>
    cases lo with
    | none => rfl
    | some l => simp [mput, keysRise, hl l rfl]
  | cons e r ih =>
    obtain ⟨j, w⟩ := e
    simp only [keysRise, Bool.and_eq_true] at hm
    unfold mput
    split
    · rename_i hkj
      simp only [keysRise, Bool.and_eq_true, decide_eq_true_eq]
      refine ⟨?_, hkj, hm.2⟩
      cases lo with
      | none => rfl
      | some l => simp [hl l rfl]
    · split
      · rename_i h; subst h
        simp only [keysRise, Bool.and_eq_true]
        exact ⟨hm.1, hm.2⟩
      · simp only [keysRise, Bool.and_eq_true]
        refine ⟨hm.1, ih (some j) ?_ hm.2⟩
        intro l hl'
        have : j = l := by simpa using hl'
        omega

theorem mem_mput {α : Type} (m : SMap α) (k : Nat) (v : α) : ∀ e ∈ mput m k v, e = (k, v) ∨ e ∈ m := by
  induction m with
  | nil => intro e he; simp [mput] at he; exact Or.inl he
  | cons f r ih =>
    obtain ⟨j, w⟩ := f
    intro e he
    unfold mput at he
    split at he
    · simp only [List.mem_cons] at he ⊢; grind
    · split at he
      · simp only [List.mem_cons] at he ⊢; grind
      · simp only [List.mem_cons] at he ⊢
        rcases he with h | h
        · grind
        · have := ih e h; grind

/-- A write keeps the canonical form. -/
theorem mset_wf {α : Type} [DecidableEq α] (d : α) (m : SMap α) (k : Nat) (v : α) (hm : mwf d m = true) : mwf d (mset d m k v) = true := by
  unfold mwf at *
  simp only [Bool.and_eq_true] at hm ⊢
  unfold mset
  split
  · refine ⟨keysRise_filter _ none m hm.1, ?_⟩
    rw [List.all_eq_true] at hm ⊢
    intro e he
    exact hm.2 e (List.mem_filter.mp he).1
  · rename_i hv
    refine ⟨keysRise_mput none m k v (by simp) hm.1, ?_⟩
    rw [List.all_eq_true] at hm ⊢
    intro e he
    rcases mem_mput m k v e he with h | h
    · subst h; simpa using hv
    · exact hm.2 e h

/-- A map of nothing is in canonical form. -/
@[simp] theorem mwf_nil {α : Type} [DecidableEq α] (d : α) : mwf d ([] : SMap α) = true := by
  rfl

/-! ## Byte memories -/

@[simp] theorem memByte_memSetByte_same (m : Mem) (a : Nat) (b : Byte) : memByte (memSetByte m a b) a = b :=
  mget_mset_same 0#8 m a b

theorem memByte_memSetByte_other (m : Mem) {a c : Nat} (b : Byte) (h : c ≠ a) : memByte (memSetByte m a b) c = memByte m c :=
  mget_mset_other 0#8 m b h

theorem memSetByte_wf (m : Mem) (a : Nat) (b : Byte) (hm : Memory.wf m = true) : Memory.wf (memSetByte m a b) = true :=
  mset_wf 0#8 m a b hm

theorem memWrite_wf (m : Mem) (a : Nat) (bs : List Byte) (hm : Memory.wf m = true) : Memory.wf (memWrite m a bs) = true := by
  induction bs generalizing m a with
  | nil => exact hm
  | cons b r ih => exact ih _ _ (memSetByte_wf m a b hm)

/-- Bytes outside the written ones read as before. -/
theorem memByte_memWrite_other (m : Mem) (a : Nat) (bs : List Byte) (c : Nat) (h : c < a ∨ a + bs.length ≤ c) :
    memByte (memWrite m a bs) c = memByte m c := by
  induction bs generalizing m a with
  | nil => rfl
  | cons b r ih =>
    simp only [List.length_cons] at h
    rw [memWrite, ih _ _ (by omega), memByte_memSetByte_other _ _ (by omega)]

/-- The bytes written read back. -/
theorem memByte_memWrite_in (m : Mem) (a : Nat) (bs : List Byte) (i : Nat) (h : i < bs.length) :
    memByte (memWrite m a bs) (a + i) = bs[i] := by
  induction bs generalizing m a i with
  | nil => simp at h
  | cons b r ih =>
    cases i with
    | zero =>
      rw [memWrite, memByte_memWrite_other _ _ _ _ (by omega)]
      simp
    | succ n =>
      have := ih (memSetByte m a b) (a + 1) n (by simpa using h)
      rw [memWrite, show a + (n + 1) = a + 1 + n by omega, this]
      rfl

theorem memZero_wf (m : Mem) (lo hi : Nat) (hm : Memory.wf m = true) : Memory.wf (memZero m lo hi) = true := by
  unfold Memory.wf mwf memZero at *
  simp only [Bool.and_eq_true] at hm ⊢
  refine ⟨keysRise_filter _ none m hm.1, ?_⟩
  rw [List.all_eq_true] at hm ⊢
  intro e he
  exact hm.2 e (List.mem_filter.mp he).1

end Sys2Proof.Machine
end

