-- ==== Sys2Proof/Laws/State.lean ====
section
/-! SUPPORT. What each update of the state leaves unchanged, one lemma per field and update, and what a read after it gives. -/

namespace Sys2Proof.Machine
open Sys2Proof

/-! ## setObj: all but od -/

@[simp] theorem State.setObj_pending (s : State) (ix sub v : Nat) : (s.setObj ix sub v).pending = s.pending := rfl
@[simp] theorem State.setObj_snap (s : State) (ix sub v : Nat) : (s.setObj ix sub v).snap = s.snap := rfl
@[simp] theorem State.setObj_free (s : State) (ix sub v : Nat) : (s.setObj ix sub v).free = s.free := rfl
@[simp] theorem State.setObj_time (s : State) (ix sub v : Nat) : (s.setObj ix sub v).time = s.time := rfl
@[simp] theorem State.setObj_timersA (s : State) (ix sub v : Nat) : (s.setObj ix sub v).timersA = s.timersA := rfl
@[simp] theorem State.setObj_timersB (s : State) (ix sub v : Nat) : (s.setObj ix sub v).timersB = s.timersB := rfl
@[simp] theorem State.setObj_alarms (s : State) (ix sub v : Nat) : (s.setObj ix sub v).alarms = s.alarms := rfl
@[simp] theorem State.setObj_conds (s : State) (ix sub v : Nat) : (s.setObj ix sub v).conds = s.conds := rfl
@[simp] theorem State.setObj_sampler (s : State) (ix sub v : Nat) : (s.setObj ix sub v).sampler = s.sampler := rfl
@[simp] theorem State.setObj_coeEmcy (s : State) (ix sub v : Nat) : (s.setObj ix sub v).coeEmcy = s.coeEmcy := rfl
@[simp] theorem State.setObj_canEmcy (s : State) (ix sub v : Nat) : (s.setObj ix sub v).canEmcy = s.canEmcy := rfl
@[simp] theorem State.setObj_journal (s : State) (ix sub v : Nat) : (s.setObj ix sub v).journal = s.journal := rfl
@[simp] theorem State.setObj_trace (s : State) (ix sub v : Nat) : (s.setObj ix sub v).trace = s.trace := rfl
@[simp] theorem State.setObj_motifs (s : State) (ix sub v : Nat) : (s.setObj ix sub v).motifs = s.motifs := rfl
@[simp] theorem State.setObj_selvedge (s : State) (ix sub v : Nat) : (s.setObj ix sub v).selvedge = s.selvedge := rfl
@[simp] theorem State.setObj_net (s : State) (ix sub v : Nat) : (s.setObj ix sub v).net = s.net := rfl
@[simp] theorem State.setObj_dram (s : State) (ix sub v : Nat) : (s.setObj ix sub v).dram = s.dram := rfl
@[simp] theorem State.setObj_sdo (s : State) (ix sub v : Nat) : (s.setObj ix sub v).sdo = s.sdo := rfl
@[simp] theorem State.setObj_secure (s : State) (ix sub v : Nat) : (s.setObj ix sub v).secure = s.secure := rfl
@[simp] theorem State.setObj_ecat (s : State) (ix sub v : Nat) : (s.setObj ix sub v).ecat = s.ecat := rfl
@[simp] theorem State.setObj_can (s : State) (ix sub v : Nat) : (s.setObj ix sub v).can = s.can := rfl
@[simp] theorem State.setObj_classes (s : State) (ix sub v : Nat) : (s.setObj ix sub v).classes = s.classes := rfl
@[simp] theorem State.setObj_ingress (s : State) (ix sub v : Nat) : (s.setObj ix sub v).ingress = s.ingress := rfl
@[simp] theorem State.setObj_fabric (s : State) (ix sub v : Nat) : (s.setObj ix sub v).fabric = s.fabric := rfl
@[simp] theorem State.setObj_marks (s : State) (ix sub v : Nat) : (s.setObj ix sub v).marks = s.marks := rfl
@[simp] theorem State.setObj_cores (s : State) (ix sub v : Nat) : (s.setObj ix sub v).cores = s.cores := rfl
@[simp] theorem State.setObj_ports (s : State) (ix sub v : Nat) : (s.setObj ix sub v).ports = s.ports := rfl
@[simp] theorem State.setObj_sdoWait (s : State) (ix sub v : Nat) : (s.setObj ix sub v).sdoWait = s.sdoWait := rfl
@[simp] theorem State.setObj_sdoRun (s : State) (ix sub v : Nat) : (s.setObj ix sub v).sdoRun = s.sdoRun := rfl
@[simp] theorem State.setObj_flash (s : State) (ix sub v : Nat) : (s.setObj ix sub v).flash = s.flash := rfl
@[simp] theorem State.setObj_start (s : State) (ix sub v : Nat) : (s.setObj ix sub v).start = s.start := rfl
@[simp] theorem State.setObj_fuses (s : State) (ix sub v : Nat) : (s.setObj ix sub v).fuses = s.fuses := rfl
@[simp] theorem State.setObj_island (s : State) (ix sub v : Nat) : (s.setObj ix sub v).island = s.island := rfl
@[simp] theorem State.setObj_update (s : State) (ix sub v : Nat) : (s.setObj ix sub v).update = s.update := rfl
@[simp] theorem State.setObj_load (s : State) (ix sub v : Nat) : (s.setObj ix sub v).load = s.load := rfl
@[simp] theorem State.setObj_cfg (s : State) (ix sub v : Nat) : (s.setObj ix sub v).cfg = s.cfg := rfl
@[simp] theorem State.setObj_power (s : State) (ix sub v : Nat) : (s.setObj ix sub v).power = s.power := rfl
@[simp] theorem State.setObj_vols (s : State) (ix sub v : Nat) : (s.setObj ix sub v).vols = s.vols := rfl
@[simp] theorem State.setObj_upkeep (s : State) (ix sub v : Nat) : (s.setObj ix sub v).upkeep = s.upkeep := rfl

/-! ## setObji: all but od -/

@[simp] theorem State.setObji_pending (s : State) (i ix sub v : Nat) : (s.setObji i ix sub v).pending = s.pending := rfl
@[simp] theorem State.setObji_snap (s : State) (i ix sub v : Nat) : (s.setObji i ix sub v).snap = s.snap := rfl
@[simp] theorem State.setObji_free (s : State) (i ix sub v : Nat) : (s.setObji i ix sub v).free = s.free := rfl
@[simp] theorem State.setObji_time (s : State) (i ix sub v : Nat) : (s.setObji i ix sub v).time = s.time := rfl
@[simp] theorem State.setObji_timersA (s : State) (i ix sub v : Nat) : (s.setObji i ix sub v).timersA = s.timersA := rfl
@[simp] theorem State.setObji_timersB (s : State) (i ix sub v : Nat) : (s.setObji i ix sub v).timersB = s.timersB := rfl
@[simp] theorem State.setObji_alarms (s : State) (i ix sub v : Nat) : (s.setObji i ix sub v).alarms = s.alarms := rfl
@[simp] theorem State.setObji_conds (s : State) (i ix sub v : Nat) : (s.setObji i ix sub v).conds = s.conds := rfl
@[simp] theorem State.setObji_sampler (s : State) (i ix sub v : Nat) : (s.setObji i ix sub v).sampler = s.sampler := rfl
@[simp] theorem State.setObji_coeEmcy (s : State) (i ix sub v : Nat) : (s.setObji i ix sub v).coeEmcy = s.coeEmcy := rfl
@[simp] theorem State.setObji_canEmcy (s : State) (i ix sub v : Nat) : (s.setObji i ix sub v).canEmcy = s.canEmcy := rfl
@[simp] theorem State.setObji_journal (s : State) (i ix sub v : Nat) : (s.setObji i ix sub v).journal = s.journal := rfl
@[simp] theorem State.setObji_trace (s : State) (i ix sub v : Nat) : (s.setObji i ix sub v).trace = s.trace := rfl
@[simp] theorem State.setObji_motifs (s : State) (i ix sub v : Nat) : (s.setObji i ix sub v).motifs = s.motifs := rfl
@[simp] theorem State.setObji_selvedge (s : State) (i ix sub v : Nat) : (s.setObji i ix sub v).selvedge = s.selvedge := rfl
@[simp] theorem State.setObji_net (s : State) (i ix sub v : Nat) : (s.setObji i ix sub v).net = s.net := rfl
@[simp] theorem State.setObji_dram (s : State) (i ix sub v : Nat) : (s.setObji i ix sub v).dram = s.dram := rfl
@[simp] theorem State.setObji_sdo (s : State) (i ix sub v : Nat) : (s.setObji i ix sub v).sdo = s.sdo := rfl
@[simp] theorem State.setObji_secure (s : State) (i ix sub v : Nat) : (s.setObji i ix sub v).secure = s.secure := rfl
@[simp] theorem State.setObji_ecat (s : State) (i ix sub v : Nat) : (s.setObji i ix sub v).ecat = s.ecat := rfl
@[simp] theorem State.setObji_can (s : State) (i ix sub v : Nat) : (s.setObji i ix sub v).can = s.can := rfl
@[simp] theorem State.setObji_classes (s : State) (i ix sub v : Nat) : (s.setObji i ix sub v).classes = s.classes := rfl
@[simp] theorem State.setObji_ingress (s : State) (i ix sub v : Nat) : (s.setObji i ix sub v).ingress = s.ingress := rfl
@[simp] theorem State.setObji_fabric (s : State) (i ix sub v : Nat) : (s.setObji i ix sub v).fabric = s.fabric := rfl
@[simp] theorem State.setObji_marks (s : State) (i ix sub v : Nat) : (s.setObji i ix sub v).marks = s.marks := rfl
@[simp] theorem State.setObji_cores (s : State) (i ix sub v : Nat) : (s.setObji i ix sub v).cores = s.cores := rfl
@[simp] theorem State.setObji_ports (s : State) (i ix sub v : Nat) : (s.setObji i ix sub v).ports = s.ports := rfl
@[simp] theorem State.setObji_sdoWait (s : State) (i ix sub v : Nat) : (s.setObji i ix sub v).sdoWait = s.sdoWait := rfl
@[simp] theorem State.setObji_sdoRun (s : State) (i ix sub v : Nat) : (s.setObji i ix sub v).sdoRun = s.sdoRun := rfl
@[simp] theorem State.setObji_flash (s : State) (i ix sub v : Nat) : (s.setObji i ix sub v).flash = s.flash := rfl
@[simp] theorem State.setObji_start (s : State) (i ix sub v : Nat) : (s.setObji i ix sub v).start = s.start := rfl
@[simp] theorem State.setObji_fuses (s : State) (i ix sub v : Nat) : (s.setObji i ix sub v).fuses = s.fuses := rfl
@[simp] theorem State.setObji_island (s : State) (i ix sub v : Nat) : (s.setObji i ix sub v).island = s.island := rfl
@[simp] theorem State.setObji_update (s : State) (i ix sub v : Nat) : (s.setObji i ix sub v).update = s.update := rfl
@[simp] theorem State.setObji_load (s : State) (i ix sub v : Nat) : (s.setObji i ix sub v).load = s.load := rfl
@[simp] theorem State.setObji_cfg (s : State) (i ix sub v : Nat) : (s.setObji i ix sub v).cfg = s.cfg := rfl
@[simp] theorem State.setObji_power (s : State) (i ix sub v : Nat) : (s.setObji i ix sub v).power = s.power := rfl
@[simp] theorem State.setObji_vols (s : State) (i ix sub v : Nat) : (s.setObji i ix sub v).vols = s.vols := rfl
@[simp] theorem State.setObji_upkeep (s : State) (i ix sub v : Nat) : (s.setObji i ix sub v).upkeep = s.upkeep := rfl

/-! ## setMotif: all but motifs -/

@[simp] theorem State.setMotif_pending (s : State) (m : Nat) (x : Motif) : (s.setMotif m x).pending = s.pending := rfl
@[simp] theorem State.setMotif_od (s : State) (m : Nat) (x : Motif) : (s.setMotif m x).od = s.od := rfl
@[simp] theorem State.setMotif_snap (s : State) (m : Nat) (x : Motif) : (s.setMotif m x).snap = s.snap := rfl
@[simp] theorem State.setMotif_free (s : State) (m : Nat) (x : Motif) : (s.setMotif m x).free = s.free := rfl
@[simp] theorem State.setMotif_time (s : State) (m : Nat) (x : Motif) : (s.setMotif m x).time = s.time := rfl
@[simp] theorem State.setMotif_timersA (s : State) (m : Nat) (x : Motif) : (s.setMotif m x).timersA = s.timersA := rfl
@[simp] theorem State.setMotif_timersB (s : State) (m : Nat) (x : Motif) : (s.setMotif m x).timersB = s.timersB := rfl
@[simp] theorem State.setMotif_alarms (s : State) (m : Nat) (x : Motif) : (s.setMotif m x).alarms = s.alarms := rfl
@[simp] theorem State.setMotif_conds (s : State) (m : Nat) (x : Motif) : (s.setMotif m x).conds = s.conds := rfl
@[simp] theorem State.setMotif_sampler (s : State) (m : Nat) (x : Motif) : (s.setMotif m x).sampler = s.sampler := rfl
@[simp] theorem State.setMotif_coeEmcy (s : State) (m : Nat) (x : Motif) : (s.setMotif m x).coeEmcy = s.coeEmcy := rfl
@[simp] theorem State.setMotif_canEmcy (s : State) (m : Nat) (x : Motif) : (s.setMotif m x).canEmcy = s.canEmcy := rfl
@[simp] theorem State.setMotif_journal (s : State) (m : Nat) (x : Motif) : (s.setMotif m x).journal = s.journal := rfl
@[simp] theorem State.setMotif_trace (s : State) (m : Nat) (x : Motif) : (s.setMotif m x).trace = s.trace := rfl
@[simp] theorem State.setMotif_selvedge (s : State) (m : Nat) (x : Motif) : (s.setMotif m x).selvedge = s.selvedge := rfl
@[simp] theorem State.setMotif_net (s : State) (m : Nat) (x : Motif) : (s.setMotif m x).net = s.net := rfl
@[simp] theorem State.setMotif_dram (s : State) (m : Nat) (x : Motif) : (s.setMotif m x).dram = s.dram := rfl
@[simp] theorem State.setMotif_sdo (s : State) (m : Nat) (x : Motif) : (s.setMotif m x).sdo = s.sdo := rfl
@[simp] theorem State.setMotif_secure (s : State) (m : Nat) (x : Motif) : (s.setMotif m x).secure = s.secure := rfl
@[simp] theorem State.setMotif_ecat (s : State) (m : Nat) (x : Motif) : (s.setMotif m x).ecat = s.ecat := rfl
@[simp] theorem State.setMotif_can (s : State) (m : Nat) (x : Motif) : (s.setMotif m x).can = s.can := rfl
@[simp] theorem State.setMotif_classes (s : State) (m : Nat) (x : Motif) : (s.setMotif m x).classes = s.classes := rfl
@[simp] theorem State.setMotif_ingress (s : State) (m : Nat) (x : Motif) : (s.setMotif m x).ingress = s.ingress := rfl
@[simp] theorem State.setMotif_fabric (s : State) (m : Nat) (x : Motif) : (s.setMotif m x).fabric = s.fabric := rfl
@[simp] theorem State.setMotif_marks (s : State) (m : Nat) (x : Motif) : (s.setMotif m x).marks = s.marks := rfl
@[simp] theorem State.setMotif_cores (s : State) (m : Nat) (x : Motif) : (s.setMotif m x).cores = s.cores := rfl
@[simp] theorem State.setMotif_ports (s : State) (m : Nat) (x : Motif) : (s.setMotif m x).ports = s.ports := rfl
@[simp] theorem State.setMotif_sdoWait (s : State) (m : Nat) (x : Motif) : (s.setMotif m x).sdoWait = s.sdoWait := rfl
@[simp] theorem State.setMotif_sdoRun (s : State) (m : Nat) (x : Motif) : (s.setMotif m x).sdoRun = s.sdoRun := rfl
@[simp] theorem State.setMotif_flash (s : State) (m : Nat) (x : Motif) : (s.setMotif m x).flash = s.flash := rfl
@[simp] theorem State.setMotif_start (s : State) (m : Nat) (x : Motif) : (s.setMotif m x).start = s.start := rfl
@[simp] theorem State.setMotif_fuses (s : State) (m : Nat) (x : Motif) : (s.setMotif m x).fuses = s.fuses := rfl
@[simp] theorem State.setMotif_island (s : State) (m : Nat) (x : Motif) : (s.setMotif m x).island = s.island := rfl
@[simp] theorem State.setMotif_update (s : State) (m : Nat) (x : Motif) : (s.setMotif m x).update = s.update := rfl
@[simp] theorem State.setMotif_load (s : State) (m : Nat) (x : Motif) : (s.setMotif m x).load = s.load := rfl
@[simp] theorem State.setMotif_cfg (s : State) (m : Nat) (x : Motif) : (s.setMotif m x).cfg = s.cfg := rfl
@[simp] theorem State.setMotif_power (s : State) (m : Nat) (x : Motif) : (s.setMotif m x).power = s.power := rfl
@[simp] theorem State.setMotif_vols (s : State) (m : Nat) (x : Motif) : (s.setMotif m x).vols = s.vols := rfl
@[simp] theorem State.setMotif_upkeep (s : State) (m : Nat) (x : Motif) : (s.setMotif m x).upkeep = s.upkeep := rfl

/-! ## setTxn: all but selvedge -/

@[simp] theorem State.setTxn_pending (s : State) (n : Nat) (x : Txn) : (s.setTxn n x).pending = s.pending := rfl
@[simp] theorem State.setTxn_od (s : State) (n : Nat) (x : Txn) : (s.setTxn n x).od = s.od := rfl
@[simp] theorem State.setTxn_snap (s : State) (n : Nat) (x : Txn) : (s.setTxn n x).snap = s.snap := rfl
@[simp] theorem State.setTxn_free (s : State) (n : Nat) (x : Txn) : (s.setTxn n x).free = s.free := rfl
@[simp] theorem State.setTxn_time (s : State) (n : Nat) (x : Txn) : (s.setTxn n x).time = s.time := rfl
@[simp] theorem State.setTxn_timersA (s : State) (n : Nat) (x : Txn) : (s.setTxn n x).timersA = s.timersA := rfl
@[simp] theorem State.setTxn_timersB (s : State) (n : Nat) (x : Txn) : (s.setTxn n x).timersB = s.timersB := rfl
@[simp] theorem State.setTxn_alarms (s : State) (n : Nat) (x : Txn) : (s.setTxn n x).alarms = s.alarms := rfl
@[simp] theorem State.setTxn_conds (s : State) (n : Nat) (x : Txn) : (s.setTxn n x).conds = s.conds := rfl
@[simp] theorem State.setTxn_sampler (s : State) (n : Nat) (x : Txn) : (s.setTxn n x).sampler = s.sampler := rfl
@[simp] theorem State.setTxn_coeEmcy (s : State) (n : Nat) (x : Txn) : (s.setTxn n x).coeEmcy = s.coeEmcy := rfl
@[simp] theorem State.setTxn_canEmcy (s : State) (n : Nat) (x : Txn) : (s.setTxn n x).canEmcy = s.canEmcy := rfl
@[simp] theorem State.setTxn_journal (s : State) (n : Nat) (x : Txn) : (s.setTxn n x).journal = s.journal := rfl
@[simp] theorem State.setTxn_trace (s : State) (n : Nat) (x : Txn) : (s.setTxn n x).trace = s.trace := rfl
@[simp] theorem State.setTxn_motifs (s : State) (n : Nat) (x : Txn) : (s.setTxn n x).motifs = s.motifs := rfl
@[simp] theorem State.setTxn_net (s : State) (n : Nat) (x : Txn) : (s.setTxn n x).net = s.net := rfl
@[simp] theorem State.setTxn_dram (s : State) (n : Nat) (x : Txn) : (s.setTxn n x).dram = s.dram := rfl
@[simp] theorem State.setTxn_sdo (s : State) (n : Nat) (x : Txn) : (s.setTxn n x).sdo = s.sdo := rfl
@[simp] theorem State.setTxn_secure (s : State) (n : Nat) (x : Txn) : (s.setTxn n x).secure = s.secure := rfl
@[simp] theorem State.setTxn_ecat (s : State) (n : Nat) (x : Txn) : (s.setTxn n x).ecat = s.ecat := rfl
@[simp] theorem State.setTxn_can (s : State) (n : Nat) (x : Txn) : (s.setTxn n x).can = s.can := rfl
@[simp] theorem State.setTxn_classes (s : State) (n : Nat) (x : Txn) : (s.setTxn n x).classes = s.classes := rfl
@[simp] theorem State.setTxn_ingress (s : State) (n : Nat) (x : Txn) : (s.setTxn n x).ingress = s.ingress := rfl
@[simp] theorem State.setTxn_fabric (s : State) (n : Nat) (x : Txn) : (s.setTxn n x).fabric = s.fabric := rfl
@[simp] theorem State.setTxn_marks (s : State) (n : Nat) (x : Txn) : (s.setTxn n x).marks = s.marks := rfl
@[simp] theorem State.setTxn_cores (s : State) (n : Nat) (x : Txn) : (s.setTxn n x).cores = s.cores := rfl
@[simp] theorem State.setTxn_ports (s : State) (n : Nat) (x : Txn) : (s.setTxn n x).ports = s.ports := rfl
@[simp] theorem State.setTxn_sdoWait (s : State) (n : Nat) (x : Txn) : (s.setTxn n x).sdoWait = s.sdoWait := rfl
@[simp] theorem State.setTxn_sdoRun (s : State) (n : Nat) (x : Txn) : (s.setTxn n x).sdoRun = s.sdoRun := rfl
@[simp] theorem State.setTxn_flash (s : State) (n : Nat) (x : Txn) : (s.setTxn n x).flash = s.flash := rfl
@[simp] theorem State.setTxn_start (s : State) (n : Nat) (x : Txn) : (s.setTxn n x).start = s.start := rfl
@[simp] theorem State.setTxn_fuses (s : State) (n : Nat) (x : Txn) : (s.setTxn n x).fuses = s.fuses := rfl
@[simp] theorem State.setTxn_island (s : State) (n : Nat) (x : Txn) : (s.setTxn n x).island = s.island := rfl
@[simp] theorem State.setTxn_update (s : State) (n : Nat) (x : Txn) : (s.setTxn n x).update = s.update := rfl
@[simp] theorem State.setTxn_load (s : State) (n : Nat) (x : Txn) : (s.setTxn n x).load = s.load := rfl
@[simp] theorem State.setTxn_cfg (s : State) (n : Nat) (x : Txn) : (s.setTxn n x).cfg = s.cfg := rfl
@[simp] theorem State.setTxn_power (s : State) (n : Nat) (x : Txn) : (s.setTxn n x).power = s.power := rfl
@[simp] theorem State.setTxn_vols (s : State) (n : Nat) (x : Txn) : (s.setTxn n x).vols = s.vols := rfl
@[simp] theorem State.setTxn_upkeep (s : State) (n : Nat) (x : Txn) : (s.setTxn n x).upkeep = s.upkeep := rfl

/-! ## setQueue: all but selvedge -/

@[simp] theorem State.setQueue_pending (s : State) (p : Nat) (q : List Entry) : (s.setQueue p q).pending = s.pending := rfl
@[simp] theorem State.setQueue_od (s : State) (p : Nat) (q : List Entry) : (s.setQueue p q).od = s.od := rfl
@[simp] theorem State.setQueue_snap (s : State) (p : Nat) (q : List Entry) : (s.setQueue p q).snap = s.snap := rfl
@[simp] theorem State.setQueue_free (s : State) (p : Nat) (q : List Entry) : (s.setQueue p q).free = s.free := rfl
@[simp] theorem State.setQueue_time (s : State) (p : Nat) (q : List Entry) : (s.setQueue p q).time = s.time := rfl
@[simp] theorem State.setQueue_timersA (s : State) (p : Nat) (q : List Entry) : (s.setQueue p q).timersA = s.timersA := rfl
@[simp] theorem State.setQueue_timersB (s : State) (p : Nat) (q : List Entry) : (s.setQueue p q).timersB = s.timersB := rfl
@[simp] theorem State.setQueue_alarms (s : State) (p : Nat) (q : List Entry) : (s.setQueue p q).alarms = s.alarms := rfl
@[simp] theorem State.setQueue_conds (s : State) (p : Nat) (q : List Entry) : (s.setQueue p q).conds = s.conds := rfl
@[simp] theorem State.setQueue_sampler (s : State) (p : Nat) (q : List Entry) : (s.setQueue p q).sampler = s.sampler := rfl
@[simp] theorem State.setQueue_coeEmcy (s : State) (p : Nat) (q : List Entry) : (s.setQueue p q).coeEmcy = s.coeEmcy := rfl
@[simp] theorem State.setQueue_canEmcy (s : State) (p : Nat) (q : List Entry) : (s.setQueue p q).canEmcy = s.canEmcy := rfl
@[simp] theorem State.setQueue_journal (s : State) (p : Nat) (q : List Entry) : (s.setQueue p q).journal = s.journal := rfl
@[simp] theorem State.setQueue_trace (s : State) (p : Nat) (q : List Entry) : (s.setQueue p q).trace = s.trace := rfl
@[simp] theorem State.setQueue_motifs (s : State) (p : Nat) (q : List Entry) : (s.setQueue p q).motifs = s.motifs := rfl
@[simp] theorem State.setQueue_net (s : State) (p : Nat) (q : List Entry) : (s.setQueue p q).net = s.net := rfl
@[simp] theorem State.setQueue_dram (s : State) (p : Nat) (q : List Entry) : (s.setQueue p q).dram = s.dram := rfl
@[simp] theorem State.setQueue_sdo (s : State) (p : Nat) (q : List Entry) : (s.setQueue p q).sdo = s.sdo := rfl
@[simp] theorem State.setQueue_secure (s : State) (p : Nat) (q : List Entry) : (s.setQueue p q).secure = s.secure := rfl
@[simp] theorem State.setQueue_ecat (s : State) (p : Nat) (q : List Entry) : (s.setQueue p q).ecat = s.ecat := rfl
@[simp] theorem State.setQueue_can (s : State) (p : Nat) (q : List Entry) : (s.setQueue p q).can = s.can := rfl
@[simp] theorem State.setQueue_classes (s : State) (p : Nat) (q : List Entry) : (s.setQueue p q).classes = s.classes := rfl
@[simp] theorem State.setQueue_ingress (s : State) (p : Nat) (q : List Entry) : (s.setQueue p q).ingress = s.ingress := rfl
@[simp] theorem State.setQueue_fabric (s : State) (p : Nat) (q : List Entry) : (s.setQueue p q).fabric = s.fabric := rfl
@[simp] theorem State.setQueue_marks (s : State) (p : Nat) (q : List Entry) : (s.setQueue p q).marks = s.marks := rfl
@[simp] theorem State.setQueue_cores (s : State) (p : Nat) (q : List Entry) : (s.setQueue p q).cores = s.cores := rfl
@[simp] theorem State.setQueue_ports (s : State) (p : Nat) (q : List Entry) : (s.setQueue p q).ports = s.ports := rfl
@[simp] theorem State.setQueue_sdoWait (s : State) (p : Nat) (q : List Entry) : (s.setQueue p q).sdoWait = s.sdoWait := rfl
@[simp] theorem State.setQueue_sdoRun (s : State) (p : Nat) (q : List Entry) : (s.setQueue p q).sdoRun = s.sdoRun := rfl
@[simp] theorem State.setQueue_flash (s : State) (p : Nat) (q : List Entry) : (s.setQueue p q).flash = s.flash := rfl
@[simp] theorem State.setQueue_start (s : State) (p : Nat) (q : List Entry) : (s.setQueue p q).start = s.start := rfl
@[simp] theorem State.setQueue_fuses (s : State) (p : Nat) (q : List Entry) : (s.setQueue p q).fuses = s.fuses := rfl
@[simp] theorem State.setQueue_island (s : State) (p : Nat) (q : List Entry) : (s.setQueue p q).island = s.island := rfl
@[simp] theorem State.setQueue_update (s : State) (p : Nat) (q : List Entry) : (s.setQueue p q).update = s.update := rfl
@[simp] theorem State.setQueue_load (s : State) (p : Nat) (q : List Entry) : (s.setQueue p q).load = s.load := rfl
@[simp] theorem State.setQueue_cfg (s : State) (p : Nat) (q : List Entry) : (s.setQueue p q).cfg = s.cfg := rfl
@[simp] theorem State.setQueue_power (s : State) (p : Nat) (q : List Entry) : (s.setQueue p q).power = s.power := rfl
@[simp] theorem State.setQueue_vols (s : State) (p : Nat) (q : List Entry) : (s.setQueue p q).vols = s.vols := rfl
@[simp] theorem State.setQueue_upkeep (s : State) (p : Nat) (q : List Entry) : (s.setQueue p q).upkeep = s.upkeep := rfl

/-! ## setLine: all but selvedge -/

@[simp] theorem State.setLine_pending (s : State) (p : Nat) (x : PortLine) : (s.setLine p x).pending = s.pending := rfl
@[simp] theorem State.setLine_od (s : State) (p : Nat) (x : PortLine) : (s.setLine p x).od = s.od := rfl
@[simp] theorem State.setLine_snap (s : State) (p : Nat) (x : PortLine) : (s.setLine p x).snap = s.snap := rfl
@[simp] theorem State.setLine_free (s : State) (p : Nat) (x : PortLine) : (s.setLine p x).free = s.free := rfl
@[simp] theorem State.setLine_time (s : State) (p : Nat) (x : PortLine) : (s.setLine p x).time = s.time := rfl
@[simp] theorem State.setLine_timersA (s : State) (p : Nat) (x : PortLine) : (s.setLine p x).timersA = s.timersA := rfl
@[simp] theorem State.setLine_timersB (s : State) (p : Nat) (x : PortLine) : (s.setLine p x).timersB = s.timersB := rfl
@[simp] theorem State.setLine_alarms (s : State) (p : Nat) (x : PortLine) : (s.setLine p x).alarms = s.alarms := rfl
@[simp] theorem State.setLine_conds (s : State) (p : Nat) (x : PortLine) : (s.setLine p x).conds = s.conds := rfl
@[simp] theorem State.setLine_sampler (s : State) (p : Nat) (x : PortLine) : (s.setLine p x).sampler = s.sampler := rfl
@[simp] theorem State.setLine_coeEmcy (s : State) (p : Nat) (x : PortLine) : (s.setLine p x).coeEmcy = s.coeEmcy := rfl
@[simp] theorem State.setLine_canEmcy (s : State) (p : Nat) (x : PortLine) : (s.setLine p x).canEmcy = s.canEmcy := rfl
@[simp] theorem State.setLine_journal (s : State) (p : Nat) (x : PortLine) : (s.setLine p x).journal = s.journal := rfl
@[simp] theorem State.setLine_trace (s : State) (p : Nat) (x : PortLine) : (s.setLine p x).trace = s.trace := rfl
@[simp] theorem State.setLine_motifs (s : State) (p : Nat) (x : PortLine) : (s.setLine p x).motifs = s.motifs := rfl
@[simp] theorem State.setLine_net (s : State) (p : Nat) (x : PortLine) : (s.setLine p x).net = s.net := rfl
@[simp] theorem State.setLine_dram (s : State) (p : Nat) (x : PortLine) : (s.setLine p x).dram = s.dram := rfl
@[simp] theorem State.setLine_sdo (s : State) (p : Nat) (x : PortLine) : (s.setLine p x).sdo = s.sdo := rfl
@[simp] theorem State.setLine_secure (s : State) (p : Nat) (x : PortLine) : (s.setLine p x).secure = s.secure := rfl
@[simp] theorem State.setLine_ecat (s : State) (p : Nat) (x : PortLine) : (s.setLine p x).ecat = s.ecat := rfl
@[simp] theorem State.setLine_can (s : State) (p : Nat) (x : PortLine) : (s.setLine p x).can = s.can := rfl
@[simp] theorem State.setLine_classes (s : State) (p : Nat) (x : PortLine) : (s.setLine p x).classes = s.classes := rfl
@[simp] theorem State.setLine_ingress (s : State) (p : Nat) (x : PortLine) : (s.setLine p x).ingress = s.ingress := rfl
@[simp] theorem State.setLine_fabric (s : State) (p : Nat) (x : PortLine) : (s.setLine p x).fabric = s.fabric := rfl
@[simp] theorem State.setLine_marks (s : State) (p : Nat) (x : PortLine) : (s.setLine p x).marks = s.marks := rfl
@[simp] theorem State.setLine_cores (s : State) (p : Nat) (x : PortLine) : (s.setLine p x).cores = s.cores := rfl
@[simp] theorem State.setLine_ports (s : State) (p : Nat) (x : PortLine) : (s.setLine p x).ports = s.ports := rfl
@[simp] theorem State.setLine_sdoWait (s : State) (p : Nat) (x : PortLine) : (s.setLine p x).sdoWait = s.sdoWait := rfl
@[simp] theorem State.setLine_sdoRun (s : State) (p : Nat) (x : PortLine) : (s.setLine p x).sdoRun = s.sdoRun := rfl
@[simp] theorem State.setLine_flash (s : State) (p : Nat) (x : PortLine) : (s.setLine p x).flash = s.flash := rfl
@[simp] theorem State.setLine_start (s : State) (p : Nat) (x : PortLine) : (s.setLine p x).start = s.start := rfl
@[simp] theorem State.setLine_fuses (s : State) (p : Nat) (x : PortLine) : (s.setLine p x).fuses = s.fuses := rfl
@[simp] theorem State.setLine_island (s : State) (p : Nat) (x : PortLine) : (s.setLine p x).island = s.island := rfl
@[simp] theorem State.setLine_update (s : State) (p : Nat) (x : PortLine) : (s.setLine p x).update = s.update := rfl
@[simp] theorem State.setLine_load (s : State) (p : Nat) (x : PortLine) : (s.setLine p x).load = s.load := rfl
@[simp] theorem State.setLine_cfg (s : State) (p : Nat) (x : PortLine) : (s.setLine p x).cfg = s.cfg := rfl
@[simp] theorem State.setLine_power (s : State) (p : Nat) (x : PortLine) : (s.setLine p x).power = s.power := rfl
@[simp] theorem State.setLine_vols (s : State) (p : Nat) (x : PortLine) : (s.setLine p x).vols = s.vols := rfl
@[simp] theorem State.setLine_upkeep (s : State) (p : Nat) (x : PortLine) : (s.setLine p x).upkeep = s.upkeep := rfl

/-! ## setSource: all but net -/

@[simp] theorem State.setSource_pending (s : State) (i : Nat) (x : Source) : (s.setSource i x).pending = s.pending := rfl
@[simp] theorem State.setSource_od (s : State) (i : Nat) (x : Source) : (s.setSource i x).od = s.od := rfl
@[simp] theorem State.setSource_snap (s : State) (i : Nat) (x : Source) : (s.setSource i x).snap = s.snap := rfl
@[simp] theorem State.setSource_free (s : State) (i : Nat) (x : Source) : (s.setSource i x).free = s.free := rfl
@[simp] theorem State.setSource_time (s : State) (i : Nat) (x : Source) : (s.setSource i x).time = s.time := rfl
@[simp] theorem State.setSource_timersA (s : State) (i : Nat) (x : Source) : (s.setSource i x).timersA = s.timersA := rfl
@[simp] theorem State.setSource_timersB (s : State) (i : Nat) (x : Source) : (s.setSource i x).timersB = s.timersB := rfl
@[simp] theorem State.setSource_alarms (s : State) (i : Nat) (x : Source) : (s.setSource i x).alarms = s.alarms := rfl
@[simp] theorem State.setSource_conds (s : State) (i : Nat) (x : Source) : (s.setSource i x).conds = s.conds := rfl
@[simp] theorem State.setSource_sampler (s : State) (i : Nat) (x : Source) : (s.setSource i x).sampler = s.sampler := rfl
@[simp] theorem State.setSource_coeEmcy (s : State) (i : Nat) (x : Source) : (s.setSource i x).coeEmcy = s.coeEmcy := rfl
@[simp] theorem State.setSource_canEmcy (s : State) (i : Nat) (x : Source) : (s.setSource i x).canEmcy = s.canEmcy := rfl
@[simp] theorem State.setSource_journal (s : State) (i : Nat) (x : Source) : (s.setSource i x).journal = s.journal := rfl
@[simp] theorem State.setSource_trace (s : State) (i : Nat) (x : Source) : (s.setSource i x).trace = s.trace := rfl
@[simp] theorem State.setSource_motifs (s : State) (i : Nat) (x : Source) : (s.setSource i x).motifs = s.motifs := rfl
@[simp] theorem State.setSource_selvedge (s : State) (i : Nat) (x : Source) : (s.setSource i x).selvedge = s.selvedge := rfl
@[simp] theorem State.setSource_dram (s : State) (i : Nat) (x : Source) : (s.setSource i x).dram = s.dram := rfl
@[simp] theorem State.setSource_sdo (s : State) (i : Nat) (x : Source) : (s.setSource i x).sdo = s.sdo := rfl
@[simp] theorem State.setSource_secure (s : State) (i : Nat) (x : Source) : (s.setSource i x).secure = s.secure := rfl
@[simp] theorem State.setSource_ecat (s : State) (i : Nat) (x : Source) : (s.setSource i x).ecat = s.ecat := rfl
@[simp] theorem State.setSource_can (s : State) (i : Nat) (x : Source) : (s.setSource i x).can = s.can := rfl
@[simp] theorem State.setSource_classes (s : State) (i : Nat) (x : Source) : (s.setSource i x).classes = s.classes := rfl
@[simp] theorem State.setSource_ingress (s : State) (i : Nat) (x : Source) : (s.setSource i x).ingress = s.ingress := rfl
@[simp] theorem State.setSource_fabric (s : State) (i : Nat) (x : Source) : (s.setSource i x).fabric = s.fabric := rfl
@[simp] theorem State.setSource_marks (s : State) (i : Nat) (x : Source) : (s.setSource i x).marks = s.marks := rfl
@[simp] theorem State.setSource_cores (s : State) (i : Nat) (x : Source) : (s.setSource i x).cores = s.cores := rfl
@[simp] theorem State.setSource_ports (s : State) (i : Nat) (x : Source) : (s.setSource i x).ports = s.ports := rfl
@[simp] theorem State.setSource_sdoWait (s : State) (i : Nat) (x : Source) : (s.setSource i x).sdoWait = s.sdoWait := rfl
@[simp] theorem State.setSource_sdoRun (s : State) (i : Nat) (x : Source) : (s.setSource i x).sdoRun = s.sdoRun := rfl
@[simp] theorem State.setSource_flash (s : State) (i : Nat) (x : Source) : (s.setSource i x).flash = s.flash := rfl
@[simp] theorem State.setSource_start (s : State) (i : Nat) (x : Source) : (s.setSource i x).start = s.start := rfl
@[simp] theorem State.setSource_fuses (s : State) (i : Nat) (x : Source) : (s.setSource i x).fuses = s.fuses := rfl
@[simp] theorem State.setSource_island (s : State) (i : Nat) (x : Source) : (s.setSource i x).island = s.island := rfl
@[simp] theorem State.setSource_update (s : State) (i : Nat) (x : Source) : (s.setSource i x).update = s.update := rfl
@[simp] theorem State.setSource_load (s : State) (i : Nat) (x : Source) : (s.setSource i x).load = s.load := rfl
@[simp] theorem State.setSource_cfg (s : State) (i : Nat) (x : Source) : (s.setSource i x).cfg = s.cfg := rfl
@[simp] theorem State.setSource_power (s : State) (i : Nat) (x : Source) : (s.setSource i x).power = s.power := rfl
@[simp] theorem State.setSource_vols (s : State) (i : Nat) (x : Source) : (s.setSource i x).vols = s.vols := rfl
@[simp] theorem State.setSource_upkeep (s : State) (i : Nat) (x : Source) : (s.setSource i x).upkeep = s.upkeep := rfl

/-! ## setPath: all but sdo -/

@[simp] theorem State.setPath_pending (s : State) (p : Nat) (x : SdoPath) : (s.setPath p x).pending = s.pending := rfl
@[simp] theorem State.setPath_od (s : State) (p : Nat) (x : SdoPath) : (s.setPath p x).od = s.od := rfl
@[simp] theorem State.setPath_snap (s : State) (p : Nat) (x : SdoPath) : (s.setPath p x).snap = s.snap := rfl
@[simp] theorem State.setPath_free (s : State) (p : Nat) (x : SdoPath) : (s.setPath p x).free = s.free := rfl
@[simp] theorem State.setPath_time (s : State) (p : Nat) (x : SdoPath) : (s.setPath p x).time = s.time := rfl
@[simp] theorem State.setPath_timersA (s : State) (p : Nat) (x : SdoPath) : (s.setPath p x).timersA = s.timersA := rfl
@[simp] theorem State.setPath_timersB (s : State) (p : Nat) (x : SdoPath) : (s.setPath p x).timersB = s.timersB := rfl
@[simp] theorem State.setPath_alarms (s : State) (p : Nat) (x : SdoPath) : (s.setPath p x).alarms = s.alarms := rfl
@[simp] theorem State.setPath_conds (s : State) (p : Nat) (x : SdoPath) : (s.setPath p x).conds = s.conds := rfl
@[simp] theorem State.setPath_sampler (s : State) (p : Nat) (x : SdoPath) : (s.setPath p x).sampler = s.sampler := rfl
@[simp] theorem State.setPath_coeEmcy (s : State) (p : Nat) (x : SdoPath) : (s.setPath p x).coeEmcy = s.coeEmcy := rfl
@[simp] theorem State.setPath_canEmcy (s : State) (p : Nat) (x : SdoPath) : (s.setPath p x).canEmcy = s.canEmcy := rfl
@[simp] theorem State.setPath_journal (s : State) (p : Nat) (x : SdoPath) : (s.setPath p x).journal = s.journal := rfl
@[simp] theorem State.setPath_trace (s : State) (p : Nat) (x : SdoPath) : (s.setPath p x).trace = s.trace := rfl
@[simp] theorem State.setPath_motifs (s : State) (p : Nat) (x : SdoPath) : (s.setPath p x).motifs = s.motifs := rfl
@[simp] theorem State.setPath_selvedge (s : State) (p : Nat) (x : SdoPath) : (s.setPath p x).selvedge = s.selvedge := rfl
@[simp] theorem State.setPath_net (s : State) (p : Nat) (x : SdoPath) : (s.setPath p x).net = s.net := rfl
@[simp] theorem State.setPath_dram (s : State) (p : Nat) (x : SdoPath) : (s.setPath p x).dram = s.dram := rfl
@[simp] theorem State.setPath_secure (s : State) (p : Nat) (x : SdoPath) : (s.setPath p x).secure = s.secure := rfl
@[simp] theorem State.setPath_ecat (s : State) (p : Nat) (x : SdoPath) : (s.setPath p x).ecat = s.ecat := rfl
@[simp] theorem State.setPath_can (s : State) (p : Nat) (x : SdoPath) : (s.setPath p x).can = s.can := rfl
@[simp] theorem State.setPath_classes (s : State) (p : Nat) (x : SdoPath) : (s.setPath p x).classes = s.classes := rfl
@[simp] theorem State.setPath_ingress (s : State) (p : Nat) (x : SdoPath) : (s.setPath p x).ingress = s.ingress := rfl
@[simp] theorem State.setPath_fabric (s : State) (p : Nat) (x : SdoPath) : (s.setPath p x).fabric = s.fabric := rfl
@[simp] theorem State.setPath_marks (s : State) (p : Nat) (x : SdoPath) : (s.setPath p x).marks = s.marks := rfl
@[simp] theorem State.setPath_cores (s : State) (p : Nat) (x : SdoPath) : (s.setPath p x).cores = s.cores := rfl
@[simp] theorem State.setPath_ports (s : State) (p : Nat) (x : SdoPath) : (s.setPath p x).ports = s.ports := rfl
@[simp] theorem State.setPath_sdoWait (s : State) (p : Nat) (x : SdoPath) : (s.setPath p x).sdoWait = s.sdoWait := rfl
@[simp] theorem State.setPath_sdoRun (s : State) (p : Nat) (x : SdoPath) : (s.setPath p x).sdoRun = s.sdoRun := rfl
@[simp] theorem State.setPath_flash (s : State) (p : Nat) (x : SdoPath) : (s.setPath p x).flash = s.flash := rfl
@[simp] theorem State.setPath_start (s : State) (p : Nat) (x : SdoPath) : (s.setPath p x).start = s.start := rfl
@[simp] theorem State.setPath_fuses (s : State) (p : Nat) (x : SdoPath) : (s.setPath p x).fuses = s.fuses := rfl
@[simp] theorem State.setPath_island (s : State) (p : Nat) (x : SdoPath) : (s.setPath p x).island = s.island := rfl
@[simp] theorem State.setPath_update (s : State) (p : Nat) (x : SdoPath) : (s.setPath p x).update = s.update := rfl
@[simp] theorem State.setPath_load (s : State) (p : Nat) (x : SdoPath) : (s.setPath p x).load = s.load := rfl
@[simp] theorem State.setPath_cfg (s : State) (p : Nat) (x : SdoPath) : (s.setPath p x).cfg = s.cfg := rfl
@[simp] theorem State.setPath_power (s : State) (p : Nat) (x : SdoPath) : (s.setPath p x).power = s.power := rfl
@[simp] theorem State.setPath_vols (s : State) (p : Nat) (x : SdoPath) : (s.setPath p x).vols = s.vols := rfl
@[simp] theorem State.setPath_upkeep (s : State) (p : Nat) (x : SdoPath) : (s.setPath p x).upkeep = s.upkeep := rfl

/-! ## setCore: all but cores -/

@[simp] theorem State.setCore_pending (s : State) (c : Nat) (x : Core) : (s.setCore c x).pending = s.pending := rfl
@[simp] theorem State.setCore_od (s : State) (c : Nat) (x : Core) : (s.setCore c x).od = s.od := rfl
@[simp] theorem State.setCore_snap (s : State) (c : Nat) (x : Core) : (s.setCore c x).snap = s.snap := rfl
@[simp] theorem State.setCore_free (s : State) (c : Nat) (x : Core) : (s.setCore c x).free = s.free := rfl
@[simp] theorem State.setCore_time (s : State) (c : Nat) (x : Core) : (s.setCore c x).time = s.time := rfl
@[simp] theorem State.setCore_timersA (s : State) (c : Nat) (x : Core) : (s.setCore c x).timersA = s.timersA := rfl
@[simp] theorem State.setCore_timersB (s : State) (c : Nat) (x : Core) : (s.setCore c x).timersB = s.timersB := rfl
@[simp] theorem State.setCore_alarms (s : State) (c : Nat) (x : Core) : (s.setCore c x).alarms = s.alarms := rfl
@[simp] theorem State.setCore_conds (s : State) (c : Nat) (x : Core) : (s.setCore c x).conds = s.conds := rfl
@[simp] theorem State.setCore_sampler (s : State) (c : Nat) (x : Core) : (s.setCore c x).sampler = s.sampler := rfl
@[simp] theorem State.setCore_coeEmcy (s : State) (c : Nat) (x : Core) : (s.setCore c x).coeEmcy = s.coeEmcy := rfl
@[simp] theorem State.setCore_canEmcy (s : State) (c : Nat) (x : Core) : (s.setCore c x).canEmcy = s.canEmcy := rfl
@[simp] theorem State.setCore_journal (s : State) (c : Nat) (x : Core) : (s.setCore c x).journal = s.journal := rfl
@[simp] theorem State.setCore_trace (s : State) (c : Nat) (x : Core) : (s.setCore c x).trace = s.trace := rfl
@[simp] theorem State.setCore_motifs (s : State) (c : Nat) (x : Core) : (s.setCore c x).motifs = s.motifs := rfl
@[simp] theorem State.setCore_selvedge (s : State) (c : Nat) (x : Core) : (s.setCore c x).selvedge = s.selvedge := rfl
@[simp] theorem State.setCore_net (s : State) (c : Nat) (x : Core) : (s.setCore c x).net = s.net := rfl
@[simp] theorem State.setCore_dram (s : State) (c : Nat) (x : Core) : (s.setCore c x).dram = s.dram := rfl
@[simp] theorem State.setCore_sdo (s : State) (c : Nat) (x : Core) : (s.setCore c x).sdo = s.sdo := rfl
@[simp] theorem State.setCore_secure (s : State) (c : Nat) (x : Core) : (s.setCore c x).secure = s.secure := rfl
@[simp] theorem State.setCore_ecat (s : State) (c : Nat) (x : Core) : (s.setCore c x).ecat = s.ecat := rfl
@[simp] theorem State.setCore_can (s : State) (c : Nat) (x : Core) : (s.setCore c x).can = s.can := rfl
@[simp] theorem State.setCore_classes (s : State) (c : Nat) (x : Core) : (s.setCore c x).classes = s.classes := rfl
@[simp] theorem State.setCore_ingress (s : State) (c : Nat) (x : Core) : (s.setCore c x).ingress = s.ingress := rfl
@[simp] theorem State.setCore_fabric (s : State) (c : Nat) (x : Core) : (s.setCore c x).fabric = s.fabric := rfl
@[simp] theorem State.setCore_marks (s : State) (c : Nat) (x : Core) : (s.setCore c x).marks = s.marks := rfl
@[simp] theorem State.setCore_ports (s : State) (c : Nat) (x : Core) : (s.setCore c x).ports = s.ports := rfl
@[simp] theorem State.setCore_sdoWait (s : State) (c : Nat) (x : Core) : (s.setCore c x).sdoWait = s.sdoWait := rfl
@[simp] theorem State.setCore_sdoRun (s : State) (c : Nat) (x : Core) : (s.setCore c x).sdoRun = s.sdoRun := rfl
@[simp] theorem State.setCore_flash (s : State) (c : Nat) (x : Core) : (s.setCore c x).flash = s.flash := rfl
@[simp] theorem State.setCore_start (s : State) (c : Nat) (x : Core) : (s.setCore c x).start = s.start := rfl
@[simp] theorem State.setCore_fuses (s : State) (c : Nat) (x : Core) : (s.setCore c x).fuses = s.fuses := rfl
@[simp] theorem State.setCore_island (s : State) (c : Nat) (x : Core) : (s.setCore c x).island = s.island := rfl
@[simp] theorem State.setCore_update (s : State) (c : Nat) (x : Core) : (s.setCore c x).update = s.update := rfl
@[simp] theorem State.setCore_load (s : State) (c : Nat) (x : Core) : (s.setCore c x).load = s.load := rfl
@[simp] theorem State.setCore_cfg (s : State) (c : Nat) (x : Core) : (s.setCore c x).cfg = s.cfg := rfl
@[simp] theorem State.setCore_power (s : State) (c : Nat) (x : Core) : (s.setCore c x).power = s.power := rfl
@[simp] theorem State.setCore_vols (s : State) (c : Nat) (x : Core) : (s.setCore c x).vols = s.vols := rfl
@[simp] theorem State.setCore_upkeep (s : State) (c : Nat) (x : Core) : (s.setCore c x).upkeep = s.upkeep := rfl

/-! ## setFlash: all but flash -/

@[simp] theorem State.setFlash_pending (s : State) (f : Flash) : (s.setFlash f).pending = s.pending := rfl
@[simp] theorem State.setFlash_od (s : State) (f : Flash) : (s.setFlash f).od = s.od := rfl
@[simp] theorem State.setFlash_snap (s : State) (f : Flash) : (s.setFlash f).snap = s.snap := rfl
@[simp] theorem State.setFlash_free (s : State) (f : Flash) : (s.setFlash f).free = s.free := rfl
@[simp] theorem State.setFlash_time (s : State) (f : Flash) : (s.setFlash f).time = s.time := rfl
@[simp] theorem State.setFlash_timersA (s : State) (f : Flash) : (s.setFlash f).timersA = s.timersA := rfl
@[simp] theorem State.setFlash_timersB (s : State) (f : Flash) : (s.setFlash f).timersB = s.timersB := rfl
@[simp] theorem State.setFlash_alarms (s : State) (f : Flash) : (s.setFlash f).alarms = s.alarms := rfl
@[simp] theorem State.setFlash_conds (s : State) (f : Flash) : (s.setFlash f).conds = s.conds := rfl
@[simp] theorem State.setFlash_sampler (s : State) (f : Flash) : (s.setFlash f).sampler = s.sampler := rfl
@[simp] theorem State.setFlash_coeEmcy (s : State) (f : Flash) : (s.setFlash f).coeEmcy = s.coeEmcy := rfl
@[simp] theorem State.setFlash_canEmcy (s : State) (f : Flash) : (s.setFlash f).canEmcy = s.canEmcy := rfl
@[simp] theorem State.setFlash_journal (s : State) (f : Flash) : (s.setFlash f).journal = s.journal := rfl
@[simp] theorem State.setFlash_trace (s : State) (f : Flash) : (s.setFlash f).trace = s.trace := rfl
@[simp] theorem State.setFlash_motifs (s : State) (f : Flash) : (s.setFlash f).motifs = s.motifs := rfl
@[simp] theorem State.setFlash_selvedge (s : State) (f : Flash) : (s.setFlash f).selvedge = s.selvedge := rfl
@[simp] theorem State.setFlash_net (s : State) (f : Flash) : (s.setFlash f).net = s.net := rfl
@[simp] theorem State.setFlash_dram (s : State) (f : Flash) : (s.setFlash f).dram = s.dram := rfl
@[simp] theorem State.setFlash_sdo (s : State) (f : Flash) : (s.setFlash f).sdo = s.sdo := rfl
@[simp] theorem State.setFlash_secure (s : State) (f : Flash) : (s.setFlash f).secure = s.secure := rfl
@[simp] theorem State.setFlash_ecat (s : State) (f : Flash) : (s.setFlash f).ecat = s.ecat := rfl
@[simp] theorem State.setFlash_can (s : State) (f : Flash) : (s.setFlash f).can = s.can := rfl
@[simp] theorem State.setFlash_classes (s : State) (f : Flash) : (s.setFlash f).classes = s.classes := rfl
@[simp] theorem State.setFlash_ingress (s : State) (f : Flash) : (s.setFlash f).ingress = s.ingress := rfl
@[simp] theorem State.setFlash_fabric (s : State) (f : Flash) : (s.setFlash f).fabric = s.fabric := rfl
@[simp] theorem State.setFlash_marks (s : State) (f : Flash) : (s.setFlash f).marks = s.marks := rfl
@[simp] theorem State.setFlash_cores (s : State) (f : Flash) : (s.setFlash f).cores = s.cores := rfl
@[simp] theorem State.setFlash_ports (s : State) (f : Flash) : (s.setFlash f).ports = s.ports := rfl
@[simp] theorem State.setFlash_sdoWait (s : State) (f : Flash) : (s.setFlash f).sdoWait = s.sdoWait := rfl
@[simp] theorem State.setFlash_sdoRun (s : State) (f : Flash) : (s.setFlash f).sdoRun = s.sdoRun := rfl
@[simp] theorem State.setFlash_start (s : State) (f : Flash) : (s.setFlash f).start = s.start := rfl
@[simp] theorem State.setFlash_fuses (s : State) (f : Flash) : (s.setFlash f).fuses = s.fuses := rfl
@[simp] theorem State.setFlash_island (s : State) (f : Flash) : (s.setFlash f).island = s.island := rfl
@[simp] theorem State.setFlash_update (s : State) (f : Flash) : (s.setFlash f).update = s.update := rfl
@[simp] theorem State.setFlash_load (s : State) (f : Flash) : (s.setFlash f).load = s.load := rfl
@[simp] theorem State.setFlash_cfg (s : State) (f : Flash) : (s.setFlash f).cfg = s.cfg := rfl
@[simp] theorem State.setFlash_power (s : State) (f : Flash) : (s.setFlash f).power = s.power := rfl
@[simp] theorem State.setFlash_vols (s : State) (f : Flash) : (s.setFlash f).vols = s.vols := rfl
@[simp] theorem State.setFlash_upkeep (s : State) (f : Flash) : (s.setFlash f).upkeep = s.upkeep := rfl

/-! ## setIsland: all but island -/

@[simp] theorem State.setIsland_pending (s : State) (x : Island) : (s.setIsland x).pending = s.pending := rfl
@[simp] theorem State.setIsland_od (s : State) (x : Island) : (s.setIsland x).od = s.od := rfl
@[simp] theorem State.setIsland_snap (s : State) (x : Island) : (s.setIsland x).snap = s.snap := rfl
@[simp] theorem State.setIsland_free (s : State) (x : Island) : (s.setIsland x).free = s.free := rfl
@[simp] theorem State.setIsland_time (s : State) (x : Island) : (s.setIsland x).time = s.time := rfl
@[simp] theorem State.setIsland_timersA (s : State) (x : Island) : (s.setIsland x).timersA = s.timersA := rfl
@[simp] theorem State.setIsland_timersB (s : State) (x : Island) : (s.setIsland x).timersB = s.timersB := rfl
@[simp] theorem State.setIsland_alarms (s : State) (x : Island) : (s.setIsland x).alarms = s.alarms := rfl
@[simp] theorem State.setIsland_conds (s : State) (x : Island) : (s.setIsland x).conds = s.conds := rfl
@[simp] theorem State.setIsland_sampler (s : State) (x : Island) : (s.setIsland x).sampler = s.sampler := rfl
@[simp] theorem State.setIsland_coeEmcy (s : State) (x : Island) : (s.setIsland x).coeEmcy = s.coeEmcy := rfl
@[simp] theorem State.setIsland_canEmcy (s : State) (x : Island) : (s.setIsland x).canEmcy = s.canEmcy := rfl
@[simp] theorem State.setIsland_journal (s : State) (x : Island) : (s.setIsland x).journal = s.journal := rfl
@[simp] theorem State.setIsland_trace (s : State) (x : Island) : (s.setIsland x).trace = s.trace := rfl
@[simp] theorem State.setIsland_motifs (s : State) (x : Island) : (s.setIsland x).motifs = s.motifs := rfl
@[simp] theorem State.setIsland_selvedge (s : State) (x : Island) : (s.setIsland x).selvedge = s.selvedge := rfl
@[simp] theorem State.setIsland_net (s : State) (x : Island) : (s.setIsland x).net = s.net := rfl
@[simp] theorem State.setIsland_dram (s : State) (x : Island) : (s.setIsland x).dram = s.dram := rfl
@[simp] theorem State.setIsland_sdo (s : State) (x : Island) : (s.setIsland x).sdo = s.sdo := rfl
@[simp] theorem State.setIsland_secure (s : State) (x : Island) : (s.setIsland x).secure = s.secure := rfl
@[simp] theorem State.setIsland_ecat (s : State) (x : Island) : (s.setIsland x).ecat = s.ecat := rfl
@[simp] theorem State.setIsland_can (s : State) (x : Island) : (s.setIsland x).can = s.can := rfl
@[simp] theorem State.setIsland_classes (s : State) (x : Island) : (s.setIsland x).classes = s.classes := rfl
@[simp] theorem State.setIsland_ingress (s : State) (x : Island) : (s.setIsland x).ingress = s.ingress := rfl
@[simp] theorem State.setIsland_fabric (s : State) (x : Island) : (s.setIsland x).fabric = s.fabric := rfl
@[simp] theorem State.setIsland_marks (s : State) (x : Island) : (s.setIsland x).marks = s.marks := rfl
@[simp] theorem State.setIsland_cores (s : State) (x : Island) : (s.setIsland x).cores = s.cores := rfl
@[simp] theorem State.setIsland_ports (s : State) (x : Island) : (s.setIsland x).ports = s.ports := rfl
@[simp] theorem State.setIsland_sdoWait (s : State) (x : Island) : (s.setIsland x).sdoWait = s.sdoWait := rfl
@[simp] theorem State.setIsland_sdoRun (s : State) (x : Island) : (s.setIsland x).sdoRun = s.sdoRun := rfl
@[simp] theorem State.setIsland_flash (s : State) (x : Island) : (s.setIsland x).flash = s.flash := rfl
@[simp] theorem State.setIsland_start (s : State) (x : Island) : (s.setIsland x).start = s.start := rfl
@[simp] theorem State.setIsland_fuses (s : State) (x : Island) : (s.setIsland x).fuses = s.fuses := rfl
@[simp] theorem State.setIsland_update (s : State) (x : Island) : (s.setIsland x).update = s.update := rfl
@[simp] theorem State.setIsland_load (s : State) (x : Island) : (s.setIsland x).load = s.load := rfl
@[simp] theorem State.setIsland_cfg (s : State) (x : Island) : (s.setIsland x).cfg = s.cfg := rfl
@[simp] theorem State.setIsland_power (s : State) (x : Island) : (s.setIsland x).power = s.power := rfl
@[simp] theorem State.setIsland_vols (s : State) (x : Island) : (s.setIsland x).vols = s.vols := rfl
@[simp] theorem State.setIsland_upkeep (s : State) (x : Island) : (s.setIsland x).upkeep = s.upkeep := rfl

/-! ## setUpdate: all but update -/

@[simp] theorem State.setUpdate_pending (s : State) (u : Update) : (s.setUpdate u).pending = s.pending := rfl
@[simp] theorem State.setUpdate_od (s : State) (u : Update) : (s.setUpdate u).od = s.od := rfl
@[simp] theorem State.setUpdate_snap (s : State) (u : Update) : (s.setUpdate u).snap = s.snap := rfl
@[simp] theorem State.setUpdate_free (s : State) (u : Update) : (s.setUpdate u).free = s.free := rfl
@[simp] theorem State.setUpdate_time (s : State) (u : Update) : (s.setUpdate u).time = s.time := rfl
@[simp] theorem State.setUpdate_timersA (s : State) (u : Update) : (s.setUpdate u).timersA = s.timersA := rfl
@[simp] theorem State.setUpdate_timersB (s : State) (u : Update) : (s.setUpdate u).timersB = s.timersB := rfl
@[simp] theorem State.setUpdate_alarms (s : State) (u : Update) : (s.setUpdate u).alarms = s.alarms := rfl
@[simp] theorem State.setUpdate_conds (s : State) (u : Update) : (s.setUpdate u).conds = s.conds := rfl
@[simp] theorem State.setUpdate_sampler (s : State) (u : Update) : (s.setUpdate u).sampler = s.sampler := rfl
@[simp] theorem State.setUpdate_coeEmcy (s : State) (u : Update) : (s.setUpdate u).coeEmcy = s.coeEmcy := rfl
@[simp] theorem State.setUpdate_canEmcy (s : State) (u : Update) : (s.setUpdate u).canEmcy = s.canEmcy := rfl
@[simp] theorem State.setUpdate_journal (s : State) (u : Update) : (s.setUpdate u).journal = s.journal := rfl
@[simp] theorem State.setUpdate_trace (s : State) (u : Update) : (s.setUpdate u).trace = s.trace := rfl
@[simp] theorem State.setUpdate_motifs (s : State) (u : Update) : (s.setUpdate u).motifs = s.motifs := rfl
@[simp] theorem State.setUpdate_selvedge (s : State) (u : Update) : (s.setUpdate u).selvedge = s.selvedge := rfl
@[simp] theorem State.setUpdate_net (s : State) (u : Update) : (s.setUpdate u).net = s.net := rfl
@[simp] theorem State.setUpdate_dram (s : State) (u : Update) : (s.setUpdate u).dram = s.dram := rfl
@[simp] theorem State.setUpdate_sdo (s : State) (u : Update) : (s.setUpdate u).sdo = s.sdo := rfl
@[simp] theorem State.setUpdate_secure (s : State) (u : Update) : (s.setUpdate u).secure = s.secure := rfl
@[simp] theorem State.setUpdate_ecat (s : State) (u : Update) : (s.setUpdate u).ecat = s.ecat := rfl
@[simp] theorem State.setUpdate_can (s : State) (u : Update) : (s.setUpdate u).can = s.can := rfl
@[simp] theorem State.setUpdate_classes (s : State) (u : Update) : (s.setUpdate u).classes = s.classes := rfl
@[simp] theorem State.setUpdate_ingress (s : State) (u : Update) : (s.setUpdate u).ingress = s.ingress := rfl
@[simp] theorem State.setUpdate_fabric (s : State) (u : Update) : (s.setUpdate u).fabric = s.fabric := rfl
@[simp] theorem State.setUpdate_marks (s : State) (u : Update) : (s.setUpdate u).marks = s.marks := rfl
@[simp] theorem State.setUpdate_cores (s : State) (u : Update) : (s.setUpdate u).cores = s.cores := rfl
@[simp] theorem State.setUpdate_ports (s : State) (u : Update) : (s.setUpdate u).ports = s.ports := rfl
@[simp] theorem State.setUpdate_sdoWait (s : State) (u : Update) : (s.setUpdate u).sdoWait = s.sdoWait := rfl
@[simp] theorem State.setUpdate_sdoRun (s : State) (u : Update) : (s.setUpdate u).sdoRun = s.sdoRun := rfl
@[simp] theorem State.setUpdate_flash (s : State) (u : Update) : (s.setUpdate u).flash = s.flash := rfl
@[simp] theorem State.setUpdate_start (s : State) (u : Update) : (s.setUpdate u).start = s.start := rfl
@[simp] theorem State.setUpdate_fuses (s : State) (u : Update) : (s.setUpdate u).fuses = s.fuses := rfl
@[simp] theorem State.setUpdate_island (s : State) (u : Update) : (s.setUpdate u).island = s.island := rfl
@[simp] theorem State.setUpdate_load (s : State) (u : Update) : (s.setUpdate u).load = s.load := rfl
@[simp] theorem State.setUpdate_cfg (s : State) (u : Update) : (s.setUpdate u).cfg = s.cfg := rfl
@[simp] theorem State.setUpdate_power (s : State) (u : Update) : (s.setUpdate u).power = s.power := rfl
@[simp] theorem State.setUpdate_vols (s : State) (u : Update) : (s.setUpdate u).vols = s.vols := rfl
@[simp] theorem State.setUpdate_upkeep (s : State) (u : Update) : (s.setUpdate u).upkeep = s.upkeep := rfl

/-! ## setLoad: all but load -/

@[simp] theorem State.setLoad_pending (s : State) (l : Load) : (s.setLoad l).pending = s.pending := rfl
@[simp] theorem State.setLoad_od (s : State) (l : Load) : (s.setLoad l).od = s.od := rfl
@[simp] theorem State.setLoad_snap (s : State) (l : Load) : (s.setLoad l).snap = s.snap := rfl
@[simp] theorem State.setLoad_free (s : State) (l : Load) : (s.setLoad l).free = s.free := rfl
@[simp] theorem State.setLoad_time (s : State) (l : Load) : (s.setLoad l).time = s.time := rfl
@[simp] theorem State.setLoad_timersA (s : State) (l : Load) : (s.setLoad l).timersA = s.timersA := rfl
@[simp] theorem State.setLoad_timersB (s : State) (l : Load) : (s.setLoad l).timersB = s.timersB := rfl
@[simp] theorem State.setLoad_alarms (s : State) (l : Load) : (s.setLoad l).alarms = s.alarms := rfl
@[simp] theorem State.setLoad_conds (s : State) (l : Load) : (s.setLoad l).conds = s.conds := rfl
@[simp] theorem State.setLoad_sampler (s : State) (l : Load) : (s.setLoad l).sampler = s.sampler := rfl
@[simp] theorem State.setLoad_coeEmcy (s : State) (l : Load) : (s.setLoad l).coeEmcy = s.coeEmcy := rfl
@[simp] theorem State.setLoad_canEmcy (s : State) (l : Load) : (s.setLoad l).canEmcy = s.canEmcy := rfl
@[simp] theorem State.setLoad_journal (s : State) (l : Load) : (s.setLoad l).journal = s.journal := rfl
@[simp] theorem State.setLoad_trace (s : State) (l : Load) : (s.setLoad l).trace = s.trace := rfl
@[simp] theorem State.setLoad_motifs (s : State) (l : Load) : (s.setLoad l).motifs = s.motifs := rfl
@[simp] theorem State.setLoad_selvedge (s : State) (l : Load) : (s.setLoad l).selvedge = s.selvedge := rfl
@[simp] theorem State.setLoad_net (s : State) (l : Load) : (s.setLoad l).net = s.net := rfl
@[simp] theorem State.setLoad_dram (s : State) (l : Load) : (s.setLoad l).dram = s.dram := rfl
@[simp] theorem State.setLoad_sdo (s : State) (l : Load) : (s.setLoad l).sdo = s.sdo := rfl
@[simp] theorem State.setLoad_secure (s : State) (l : Load) : (s.setLoad l).secure = s.secure := rfl
@[simp] theorem State.setLoad_ecat (s : State) (l : Load) : (s.setLoad l).ecat = s.ecat := rfl
@[simp] theorem State.setLoad_can (s : State) (l : Load) : (s.setLoad l).can = s.can := rfl
@[simp] theorem State.setLoad_classes (s : State) (l : Load) : (s.setLoad l).classes = s.classes := rfl
@[simp] theorem State.setLoad_ingress (s : State) (l : Load) : (s.setLoad l).ingress = s.ingress := rfl
@[simp] theorem State.setLoad_fabric (s : State) (l : Load) : (s.setLoad l).fabric = s.fabric := rfl
@[simp] theorem State.setLoad_marks (s : State) (l : Load) : (s.setLoad l).marks = s.marks := rfl
@[simp] theorem State.setLoad_cores (s : State) (l : Load) : (s.setLoad l).cores = s.cores := rfl
@[simp] theorem State.setLoad_ports (s : State) (l : Load) : (s.setLoad l).ports = s.ports := rfl
@[simp] theorem State.setLoad_sdoWait (s : State) (l : Load) : (s.setLoad l).sdoWait = s.sdoWait := rfl
@[simp] theorem State.setLoad_sdoRun (s : State) (l : Load) : (s.setLoad l).sdoRun = s.sdoRun := rfl
@[simp] theorem State.setLoad_flash (s : State) (l : Load) : (s.setLoad l).flash = s.flash := rfl
@[simp] theorem State.setLoad_start (s : State) (l : Load) : (s.setLoad l).start = s.start := rfl
@[simp] theorem State.setLoad_fuses (s : State) (l : Load) : (s.setLoad l).fuses = s.fuses := rfl
@[simp] theorem State.setLoad_island (s : State) (l : Load) : (s.setLoad l).island = s.island := rfl
@[simp] theorem State.setLoad_update (s : State) (l : Load) : (s.setLoad l).update = s.update := rfl
@[simp] theorem State.setLoad_cfg (s : State) (l : Load) : (s.setLoad l).cfg = s.cfg := rfl
@[simp] theorem State.setLoad_power (s : State) (l : Load) : (s.setLoad l).power = s.power := rfl
@[simp] theorem State.setLoad_vols (s : State) (l : Load) : (s.setLoad l).vols = s.vols := rfl
@[simp] theorem State.setLoad_upkeep (s : State) (l : Load) : (s.setLoad l).upkeep = s.upkeep := rfl

/-! ## setJournal: all but journal -/

@[simp] theorem State.setJournal_pending (s : State) (j : Journal) : (s.setJournal j).pending = s.pending := rfl
@[simp] theorem State.setJournal_od (s : State) (j : Journal) : (s.setJournal j).od = s.od := rfl
@[simp] theorem State.setJournal_snap (s : State) (j : Journal) : (s.setJournal j).snap = s.snap := rfl
@[simp] theorem State.setJournal_free (s : State) (j : Journal) : (s.setJournal j).free = s.free := rfl
@[simp] theorem State.setJournal_time (s : State) (j : Journal) : (s.setJournal j).time = s.time := rfl
@[simp] theorem State.setJournal_timersA (s : State) (j : Journal) : (s.setJournal j).timersA = s.timersA := rfl
@[simp] theorem State.setJournal_timersB (s : State) (j : Journal) : (s.setJournal j).timersB = s.timersB := rfl
@[simp] theorem State.setJournal_alarms (s : State) (j : Journal) : (s.setJournal j).alarms = s.alarms := rfl
@[simp] theorem State.setJournal_conds (s : State) (j : Journal) : (s.setJournal j).conds = s.conds := rfl
@[simp] theorem State.setJournal_sampler (s : State) (j : Journal) : (s.setJournal j).sampler = s.sampler := rfl
@[simp] theorem State.setJournal_coeEmcy (s : State) (j : Journal) : (s.setJournal j).coeEmcy = s.coeEmcy := rfl
@[simp] theorem State.setJournal_canEmcy (s : State) (j : Journal) : (s.setJournal j).canEmcy = s.canEmcy := rfl
@[simp] theorem State.setJournal_trace (s : State) (j : Journal) : (s.setJournal j).trace = s.trace := rfl
@[simp] theorem State.setJournal_motifs (s : State) (j : Journal) : (s.setJournal j).motifs = s.motifs := rfl
@[simp] theorem State.setJournal_selvedge (s : State) (j : Journal) : (s.setJournal j).selvedge = s.selvedge := rfl
@[simp] theorem State.setJournal_net (s : State) (j : Journal) : (s.setJournal j).net = s.net := rfl
@[simp] theorem State.setJournal_dram (s : State) (j : Journal) : (s.setJournal j).dram = s.dram := rfl
@[simp] theorem State.setJournal_sdo (s : State) (j : Journal) : (s.setJournal j).sdo = s.sdo := rfl
@[simp] theorem State.setJournal_secure (s : State) (j : Journal) : (s.setJournal j).secure = s.secure := rfl
@[simp] theorem State.setJournal_ecat (s : State) (j : Journal) : (s.setJournal j).ecat = s.ecat := rfl
@[simp] theorem State.setJournal_can (s : State) (j : Journal) : (s.setJournal j).can = s.can := rfl
@[simp] theorem State.setJournal_classes (s : State) (j : Journal) : (s.setJournal j).classes = s.classes := rfl
@[simp] theorem State.setJournal_ingress (s : State) (j : Journal) : (s.setJournal j).ingress = s.ingress := rfl
@[simp] theorem State.setJournal_fabric (s : State) (j : Journal) : (s.setJournal j).fabric = s.fabric := rfl
@[simp] theorem State.setJournal_marks (s : State) (j : Journal) : (s.setJournal j).marks = s.marks := rfl
@[simp] theorem State.setJournal_cores (s : State) (j : Journal) : (s.setJournal j).cores = s.cores := rfl
@[simp] theorem State.setJournal_ports (s : State) (j : Journal) : (s.setJournal j).ports = s.ports := rfl
@[simp] theorem State.setJournal_sdoWait (s : State) (j : Journal) : (s.setJournal j).sdoWait = s.sdoWait := rfl
@[simp] theorem State.setJournal_sdoRun (s : State) (j : Journal) : (s.setJournal j).sdoRun = s.sdoRun := rfl
@[simp] theorem State.setJournal_flash (s : State) (j : Journal) : (s.setJournal j).flash = s.flash := rfl
@[simp] theorem State.setJournal_start (s : State) (j : Journal) : (s.setJournal j).start = s.start := rfl
@[simp] theorem State.setJournal_fuses (s : State) (j : Journal) : (s.setJournal j).fuses = s.fuses := rfl
@[simp] theorem State.setJournal_island (s : State) (j : Journal) : (s.setJournal j).island = s.island := rfl
@[simp] theorem State.setJournal_update (s : State) (j : Journal) : (s.setJournal j).update = s.update := rfl
@[simp] theorem State.setJournal_load (s : State) (j : Journal) : (s.setJournal j).load = s.load := rfl
@[simp] theorem State.setJournal_cfg (s : State) (j : Journal) : (s.setJournal j).cfg = s.cfg := rfl
@[simp] theorem State.setJournal_power (s : State) (j : Journal) : (s.setJournal j).power = s.power := rfl
@[simp] theorem State.setJournal_vols (s : State) (j : Journal) : (s.setJournal j).vols = s.vols := rfl
@[simp] theorem State.setJournal_upkeep (s : State) (j : Journal) : (s.setJournal j).upkeep = s.upkeep := rfl

/-! ## setVol: all but vols -/

@[simp] theorem State.setVol_pending (s : State) (d : Nat) (v : DriveVol) : (s.setVol d v).pending = s.pending := rfl
@[simp] theorem State.setVol_od (s : State) (d : Nat) (v : DriveVol) : (s.setVol d v).od = s.od := rfl
@[simp] theorem State.setVol_snap (s : State) (d : Nat) (v : DriveVol) : (s.setVol d v).snap = s.snap := rfl
@[simp] theorem State.setVol_free (s : State) (d : Nat) (v : DriveVol) : (s.setVol d v).free = s.free := rfl
@[simp] theorem State.setVol_time (s : State) (d : Nat) (v : DriveVol) : (s.setVol d v).time = s.time := rfl
@[simp] theorem State.setVol_timersA (s : State) (d : Nat) (v : DriveVol) : (s.setVol d v).timersA = s.timersA := rfl
@[simp] theorem State.setVol_timersB (s : State) (d : Nat) (v : DriveVol) : (s.setVol d v).timersB = s.timersB := rfl
@[simp] theorem State.setVol_alarms (s : State) (d : Nat) (v : DriveVol) : (s.setVol d v).alarms = s.alarms := rfl
@[simp] theorem State.setVol_conds (s : State) (d : Nat) (v : DriveVol) : (s.setVol d v).conds = s.conds := rfl
@[simp] theorem State.setVol_sampler (s : State) (d : Nat) (v : DriveVol) : (s.setVol d v).sampler = s.sampler := rfl
@[simp] theorem State.setVol_coeEmcy (s : State) (d : Nat) (v : DriveVol) : (s.setVol d v).coeEmcy = s.coeEmcy := rfl
@[simp] theorem State.setVol_canEmcy (s : State) (d : Nat) (v : DriveVol) : (s.setVol d v).canEmcy = s.canEmcy := rfl
@[simp] theorem State.setVol_journal (s : State) (d : Nat) (v : DriveVol) : (s.setVol d v).journal = s.journal := rfl
@[simp] theorem State.setVol_trace (s : State) (d : Nat) (v : DriveVol) : (s.setVol d v).trace = s.trace := rfl
@[simp] theorem State.setVol_motifs (s : State) (d : Nat) (v : DriveVol) : (s.setVol d v).motifs = s.motifs := rfl
@[simp] theorem State.setVol_selvedge (s : State) (d : Nat) (v : DriveVol) : (s.setVol d v).selvedge = s.selvedge := rfl
@[simp] theorem State.setVol_net (s : State) (d : Nat) (v : DriveVol) : (s.setVol d v).net = s.net := rfl
@[simp] theorem State.setVol_dram (s : State) (d : Nat) (v : DriveVol) : (s.setVol d v).dram = s.dram := rfl
@[simp] theorem State.setVol_sdo (s : State) (d : Nat) (v : DriveVol) : (s.setVol d v).sdo = s.sdo := rfl
@[simp] theorem State.setVol_secure (s : State) (d : Nat) (v : DriveVol) : (s.setVol d v).secure = s.secure := rfl
@[simp] theorem State.setVol_ecat (s : State) (d : Nat) (v : DriveVol) : (s.setVol d v).ecat = s.ecat := rfl
@[simp] theorem State.setVol_can (s : State) (d : Nat) (v : DriveVol) : (s.setVol d v).can = s.can := rfl
@[simp] theorem State.setVol_classes (s : State) (d : Nat) (v : DriveVol) : (s.setVol d v).classes = s.classes := rfl
@[simp] theorem State.setVol_ingress (s : State) (d : Nat) (v : DriveVol) : (s.setVol d v).ingress = s.ingress := rfl
@[simp] theorem State.setVol_fabric (s : State) (d : Nat) (v : DriveVol) : (s.setVol d v).fabric = s.fabric := rfl
@[simp] theorem State.setVol_marks (s : State) (d : Nat) (v : DriveVol) : (s.setVol d v).marks = s.marks := rfl
@[simp] theorem State.setVol_cores (s : State) (d : Nat) (v : DriveVol) : (s.setVol d v).cores = s.cores := rfl
@[simp] theorem State.setVol_ports (s : State) (d : Nat) (v : DriveVol) : (s.setVol d v).ports = s.ports := rfl
@[simp] theorem State.setVol_sdoWait (s : State) (d : Nat) (v : DriveVol) : (s.setVol d v).sdoWait = s.sdoWait := rfl
@[simp] theorem State.setVol_sdoRun (s : State) (d : Nat) (v : DriveVol) : (s.setVol d v).sdoRun = s.sdoRun := rfl
@[simp] theorem State.setVol_flash (s : State) (d : Nat) (v : DriveVol) : (s.setVol d v).flash = s.flash := rfl
@[simp] theorem State.setVol_start (s : State) (d : Nat) (v : DriveVol) : (s.setVol d v).start = s.start := rfl
@[simp] theorem State.setVol_fuses (s : State) (d : Nat) (v : DriveVol) : (s.setVol d v).fuses = s.fuses := rfl
@[simp] theorem State.setVol_island (s : State) (d : Nat) (v : DriveVol) : (s.setVol d v).island = s.island := rfl
@[simp] theorem State.setVol_update (s : State) (d : Nat) (v : DriveVol) : (s.setVol d v).update = s.update := rfl
@[simp] theorem State.setVol_load (s : State) (d : Nat) (v : DriveVol) : (s.setVol d v).load = s.load := rfl
@[simp] theorem State.setVol_cfg (s : State) (d : Nat) (v : DriveVol) : (s.setVol d v).cfg = s.cfg := rfl
@[simp] theorem State.setVol_power (s : State) (d : Nat) (v : DriveVol) : (s.setVol d v).power = s.power := rfl
@[simp] theorem State.setVol_upkeep (s : State) (d : Nat) (v : DriveVol) : (s.setVol d v).upkeep = s.upkeep := rfl

/-! ## setHoop: all but net -/

@[simp] theorem State.setHoop_pending (s : State) (h : Nat) (x : Hoop) : (s.setHoop h x).pending = s.pending := rfl
@[simp] theorem State.setHoop_od (s : State) (h : Nat) (x : Hoop) : (s.setHoop h x).od = s.od := rfl
@[simp] theorem State.setHoop_snap (s : State) (h : Nat) (x : Hoop) : (s.setHoop h x).snap = s.snap := rfl
@[simp] theorem State.setHoop_free (s : State) (h : Nat) (x : Hoop) : (s.setHoop h x).free = s.free := rfl
@[simp] theorem State.setHoop_time (s : State) (h : Nat) (x : Hoop) : (s.setHoop h x).time = s.time := rfl
@[simp] theorem State.setHoop_timersA (s : State) (h : Nat) (x : Hoop) : (s.setHoop h x).timersA = s.timersA := rfl
@[simp] theorem State.setHoop_timersB (s : State) (h : Nat) (x : Hoop) : (s.setHoop h x).timersB = s.timersB := rfl
@[simp] theorem State.setHoop_alarms (s : State) (h : Nat) (x : Hoop) : (s.setHoop h x).alarms = s.alarms := rfl
@[simp] theorem State.setHoop_conds (s : State) (h : Nat) (x : Hoop) : (s.setHoop h x).conds = s.conds := rfl
@[simp] theorem State.setHoop_sampler (s : State) (h : Nat) (x : Hoop) : (s.setHoop h x).sampler = s.sampler := rfl
@[simp] theorem State.setHoop_coeEmcy (s : State) (h : Nat) (x : Hoop) : (s.setHoop h x).coeEmcy = s.coeEmcy := rfl
@[simp] theorem State.setHoop_canEmcy (s : State) (h : Nat) (x : Hoop) : (s.setHoop h x).canEmcy = s.canEmcy := rfl
@[simp] theorem State.setHoop_journal (s : State) (h : Nat) (x : Hoop) : (s.setHoop h x).journal = s.journal := rfl
@[simp] theorem State.setHoop_trace (s : State) (h : Nat) (x : Hoop) : (s.setHoop h x).trace = s.trace := rfl
@[simp] theorem State.setHoop_motifs (s : State) (h : Nat) (x : Hoop) : (s.setHoop h x).motifs = s.motifs := rfl
@[simp] theorem State.setHoop_selvedge (s : State) (h : Nat) (x : Hoop) : (s.setHoop h x).selvedge = s.selvedge := rfl
@[simp] theorem State.setHoop_dram (s : State) (h : Nat) (x : Hoop) : (s.setHoop h x).dram = s.dram := rfl
@[simp] theorem State.setHoop_sdo (s : State) (h : Nat) (x : Hoop) : (s.setHoop h x).sdo = s.sdo := rfl
@[simp] theorem State.setHoop_secure (s : State) (h : Nat) (x : Hoop) : (s.setHoop h x).secure = s.secure := rfl
@[simp] theorem State.setHoop_ecat (s : State) (h : Nat) (x : Hoop) : (s.setHoop h x).ecat = s.ecat := rfl
@[simp] theorem State.setHoop_can (s : State) (h : Nat) (x : Hoop) : (s.setHoop h x).can = s.can := rfl
@[simp] theorem State.setHoop_classes (s : State) (h : Nat) (x : Hoop) : (s.setHoop h x).classes = s.classes := rfl
@[simp] theorem State.setHoop_ingress (s : State) (h : Nat) (x : Hoop) : (s.setHoop h x).ingress = s.ingress := rfl
@[simp] theorem State.setHoop_fabric (s : State) (h : Nat) (x : Hoop) : (s.setHoop h x).fabric = s.fabric := rfl
@[simp] theorem State.setHoop_marks (s : State) (h : Nat) (x : Hoop) : (s.setHoop h x).marks = s.marks := rfl
@[simp] theorem State.setHoop_cores (s : State) (h : Nat) (x : Hoop) : (s.setHoop h x).cores = s.cores := rfl
@[simp] theorem State.setHoop_ports (s : State) (h : Nat) (x : Hoop) : (s.setHoop h x).ports = s.ports := rfl
@[simp] theorem State.setHoop_sdoWait (s : State) (h : Nat) (x : Hoop) : (s.setHoop h x).sdoWait = s.sdoWait := rfl
@[simp] theorem State.setHoop_sdoRun (s : State) (h : Nat) (x : Hoop) : (s.setHoop h x).sdoRun = s.sdoRun := rfl
@[simp] theorem State.setHoop_flash (s : State) (h : Nat) (x : Hoop) : (s.setHoop h x).flash = s.flash := rfl
@[simp] theorem State.setHoop_start (s : State) (h : Nat) (x : Hoop) : (s.setHoop h x).start = s.start := rfl
@[simp] theorem State.setHoop_fuses (s : State) (h : Nat) (x : Hoop) : (s.setHoop h x).fuses = s.fuses := rfl
@[simp] theorem State.setHoop_island (s : State) (h : Nat) (x : Hoop) : (s.setHoop h x).island = s.island := rfl
@[simp] theorem State.setHoop_update (s : State) (h : Nat) (x : Hoop) : (s.setHoop h x).update = s.update := rfl
@[simp] theorem State.setHoop_load (s : State) (h : Nat) (x : Hoop) : (s.setHoop h x).load = s.load := rfl
@[simp] theorem State.setHoop_cfg (s : State) (h : Nat) (x : Hoop) : (s.setHoop h x).cfg = s.cfg := rfl
@[simp] theorem State.setHoop_power (s : State) (h : Nat) (x : Hoop) : (s.setHoop h x).power = s.power := rfl
@[simp] theorem State.setHoop_vols (s : State) (h : Nat) (x : Hoop) : (s.setHoop h x).vols = s.vols := rfl
@[simp] theorem State.setHoop_upkeep (s : State) (h : Nat) (x : Hoop) : (s.setHoop h x).upkeep = s.upkeep := rfl

/-! ## setSqueue: all but net -/

@[simp] theorem State.setSqueue_pending (s : State) (h q : Nat) (x : StreamQ) : (s.setSqueue h q x).pending = s.pending := rfl
@[simp] theorem State.setSqueue_od (s : State) (h q : Nat) (x : StreamQ) : (s.setSqueue h q x).od = s.od := rfl
@[simp] theorem State.setSqueue_snap (s : State) (h q : Nat) (x : StreamQ) : (s.setSqueue h q x).snap = s.snap := rfl
@[simp] theorem State.setSqueue_free (s : State) (h q : Nat) (x : StreamQ) : (s.setSqueue h q x).free = s.free := rfl
@[simp] theorem State.setSqueue_time (s : State) (h q : Nat) (x : StreamQ) : (s.setSqueue h q x).time = s.time := rfl
@[simp] theorem State.setSqueue_timersA (s : State) (h q : Nat) (x : StreamQ) : (s.setSqueue h q x).timersA = s.timersA := rfl
@[simp] theorem State.setSqueue_timersB (s : State) (h q : Nat) (x : StreamQ) : (s.setSqueue h q x).timersB = s.timersB := rfl
@[simp] theorem State.setSqueue_alarms (s : State) (h q : Nat) (x : StreamQ) : (s.setSqueue h q x).alarms = s.alarms := rfl
@[simp] theorem State.setSqueue_conds (s : State) (h q : Nat) (x : StreamQ) : (s.setSqueue h q x).conds = s.conds := rfl
@[simp] theorem State.setSqueue_sampler (s : State) (h q : Nat) (x : StreamQ) : (s.setSqueue h q x).sampler = s.sampler := rfl
@[simp] theorem State.setSqueue_coeEmcy (s : State) (h q : Nat) (x : StreamQ) : (s.setSqueue h q x).coeEmcy = s.coeEmcy := rfl
@[simp] theorem State.setSqueue_canEmcy (s : State) (h q : Nat) (x : StreamQ) : (s.setSqueue h q x).canEmcy = s.canEmcy := rfl
@[simp] theorem State.setSqueue_journal (s : State) (h q : Nat) (x : StreamQ) : (s.setSqueue h q x).journal = s.journal := rfl
@[simp] theorem State.setSqueue_trace (s : State) (h q : Nat) (x : StreamQ) : (s.setSqueue h q x).trace = s.trace := rfl
@[simp] theorem State.setSqueue_motifs (s : State) (h q : Nat) (x : StreamQ) : (s.setSqueue h q x).motifs = s.motifs := rfl
@[simp] theorem State.setSqueue_selvedge (s : State) (h q : Nat) (x : StreamQ) : (s.setSqueue h q x).selvedge = s.selvedge := rfl
@[simp] theorem State.setSqueue_dram (s : State) (h q : Nat) (x : StreamQ) : (s.setSqueue h q x).dram = s.dram := rfl
@[simp] theorem State.setSqueue_sdo (s : State) (h q : Nat) (x : StreamQ) : (s.setSqueue h q x).sdo = s.sdo := rfl
@[simp] theorem State.setSqueue_secure (s : State) (h q : Nat) (x : StreamQ) : (s.setSqueue h q x).secure = s.secure := rfl
@[simp] theorem State.setSqueue_ecat (s : State) (h q : Nat) (x : StreamQ) : (s.setSqueue h q x).ecat = s.ecat := rfl
@[simp] theorem State.setSqueue_can (s : State) (h q : Nat) (x : StreamQ) : (s.setSqueue h q x).can = s.can := rfl
@[simp] theorem State.setSqueue_classes (s : State) (h q : Nat) (x : StreamQ) : (s.setSqueue h q x).classes = s.classes := rfl
@[simp] theorem State.setSqueue_ingress (s : State) (h q : Nat) (x : StreamQ) : (s.setSqueue h q x).ingress = s.ingress := rfl
@[simp] theorem State.setSqueue_fabric (s : State) (h q : Nat) (x : StreamQ) : (s.setSqueue h q x).fabric = s.fabric := rfl
@[simp] theorem State.setSqueue_marks (s : State) (h q : Nat) (x : StreamQ) : (s.setSqueue h q x).marks = s.marks := rfl
@[simp] theorem State.setSqueue_cores (s : State) (h q : Nat) (x : StreamQ) : (s.setSqueue h q x).cores = s.cores := rfl
@[simp] theorem State.setSqueue_ports (s : State) (h q : Nat) (x : StreamQ) : (s.setSqueue h q x).ports = s.ports := rfl
@[simp] theorem State.setSqueue_sdoWait (s : State) (h q : Nat) (x : StreamQ) : (s.setSqueue h q x).sdoWait = s.sdoWait := rfl
@[simp] theorem State.setSqueue_sdoRun (s : State) (h q : Nat) (x : StreamQ) : (s.setSqueue h q x).sdoRun = s.sdoRun := rfl
@[simp] theorem State.setSqueue_flash (s : State) (h q : Nat) (x : StreamQ) : (s.setSqueue h q x).flash = s.flash := rfl
@[simp] theorem State.setSqueue_start (s : State) (h q : Nat) (x : StreamQ) : (s.setSqueue h q x).start = s.start := rfl
@[simp] theorem State.setSqueue_fuses (s : State) (h q : Nat) (x : StreamQ) : (s.setSqueue h q x).fuses = s.fuses := rfl
@[simp] theorem State.setSqueue_island (s : State) (h q : Nat) (x : StreamQ) : (s.setSqueue h q x).island = s.island := rfl
@[simp] theorem State.setSqueue_update (s : State) (h q : Nat) (x : StreamQ) : (s.setSqueue h q x).update = s.update := rfl
@[simp] theorem State.setSqueue_load (s : State) (h q : Nat) (x : StreamQ) : (s.setSqueue h q x).load = s.load := rfl
@[simp] theorem State.setSqueue_cfg (s : State) (h q : Nat) (x : StreamQ) : (s.setSqueue h q x).cfg = s.cfg := rfl
@[simp] theorem State.setSqueue_power (s : State) (h q : Nat) (x : StreamQ) : (s.setSqueue h q x).power = s.power := rfl
@[simp] theorem State.setSqueue_vols (s : State) (h q : Nat) (x : StreamQ) : (s.setSqueue h q x).vols = s.vols := rfl
@[simp] theorem State.setSqueue_upkeep (s : State) (h q : Nat) (x : StreamQ) : (s.setSqueue h q x).upkeep = s.upkeep := rfl

/-! ## setFoe: all but ecat -/

@[simp] theorem State.setFoe_pending (s : State) (x : Foe) : (s.setFoe x).pending = s.pending := rfl
@[simp] theorem State.setFoe_od (s : State) (x : Foe) : (s.setFoe x).od = s.od := rfl
@[simp] theorem State.setFoe_snap (s : State) (x : Foe) : (s.setFoe x).snap = s.snap := rfl
@[simp] theorem State.setFoe_free (s : State) (x : Foe) : (s.setFoe x).free = s.free := rfl
@[simp] theorem State.setFoe_time (s : State) (x : Foe) : (s.setFoe x).time = s.time := rfl
@[simp] theorem State.setFoe_timersA (s : State) (x : Foe) : (s.setFoe x).timersA = s.timersA := rfl
@[simp] theorem State.setFoe_timersB (s : State) (x : Foe) : (s.setFoe x).timersB = s.timersB := rfl
@[simp] theorem State.setFoe_alarms (s : State) (x : Foe) : (s.setFoe x).alarms = s.alarms := rfl
@[simp] theorem State.setFoe_conds (s : State) (x : Foe) : (s.setFoe x).conds = s.conds := rfl
@[simp] theorem State.setFoe_sampler (s : State) (x : Foe) : (s.setFoe x).sampler = s.sampler := rfl
@[simp] theorem State.setFoe_coeEmcy (s : State) (x : Foe) : (s.setFoe x).coeEmcy = s.coeEmcy := rfl
@[simp] theorem State.setFoe_canEmcy (s : State) (x : Foe) : (s.setFoe x).canEmcy = s.canEmcy := rfl
@[simp] theorem State.setFoe_journal (s : State) (x : Foe) : (s.setFoe x).journal = s.journal := rfl
@[simp] theorem State.setFoe_trace (s : State) (x : Foe) : (s.setFoe x).trace = s.trace := rfl
@[simp] theorem State.setFoe_motifs (s : State) (x : Foe) : (s.setFoe x).motifs = s.motifs := rfl
@[simp] theorem State.setFoe_selvedge (s : State) (x : Foe) : (s.setFoe x).selvedge = s.selvedge := rfl
@[simp] theorem State.setFoe_net (s : State) (x : Foe) : (s.setFoe x).net = s.net := rfl
@[simp] theorem State.setFoe_dram (s : State) (x : Foe) : (s.setFoe x).dram = s.dram := rfl
@[simp] theorem State.setFoe_sdo (s : State) (x : Foe) : (s.setFoe x).sdo = s.sdo := rfl
@[simp] theorem State.setFoe_secure (s : State) (x : Foe) : (s.setFoe x).secure = s.secure := rfl
@[simp] theorem State.setFoe_can (s : State) (x : Foe) : (s.setFoe x).can = s.can := rfl
@[simp] theorem State.setFoe_classes (s : State) (x : Foe) : (s.setFoe x).classes = s.classes := rfl
@[simp] theorem State.setFoe_ingress (s : State) (x : Foe) : (s.setFoe x).ingress = s.ingress := rfl
@[simp] theorem State.setFoe_fabric (s : State) (x : Foe) : (s.setFoe x).fabric = s.fabric := rfl
@[simp] theorem State.setFoe_marks (s : State) (x : Foe) : (s.setFoe x).marks = s.marks := rfl
@[simp] theorem State.setFoe_cores (s : State) (x : Foe) : (s.setFoe x).cores = s.cores := rfl
@[simp] theorem State.setFoe_ports (s : State) (x : Foe) : (s.setFoe x).ports = s.ports := rfl
@[simp] theorem State.setFoe_sdoWait (s : State) (x : Foe) : (s.setFoe x).sdoWait = s.sdoWait := rfl
@[simp] theorem State.setFoe_sdoRun (s : State) (x : Foe) : (s.setFoe x).sdoRun = s.sdoRun := rfl
@[simp] theorem State.setFoe_flash (s : State) (x : Foe) : (s.setFoe x).flash = s.flash := rfl
@[simp] theorem State.setFoe_start (s : State) (x : Foe) : (s.setFoe x).start = s.start := rfl
@[simp] theorem State.setFoe_fuses (s : State) (x : Foe) : (s.setFoe x).fuses = s.fuses := rfl
@[simp] theorem State.setFoe_island (s : State) (x : Foe) : (s.setFoe x).island = s.island := rfl
@[simp] theorem State.setFoe_update (s : State) (x : Foe) : (s.setFoe x).update = s.update := rfl
@[simp] theorem State.setFoe_load (s : State) (x : Foe) : (s.setFoe x).load = s.load := rfl
@[simp] theorem State.setFoe_cfg (s : State) (x : Foe) : (s.setFoe x).cfg = s.cfg := rfl
@[simp] theorem State.setFoe_power (s : State) (x : Foe) : (s.setFoe x).power = s.power := rfl
@[simp] theorem State.setFoe_vols (s : State) (x : Foe) : (s.setFoe x).vols = s.vols := rfl
@[simp] theorem State.setFoe_upkeep (s : State) (x : Foe) : (s.setFoe x).upkeep = s.upkeep := rfl

/-! ## setPin: all but ports -/

@[simp] theorem State.setPin_pending (s : State) (p : Nat) (x : TioPin) : (s.setPin p x).pending = s.pending := rfl
@[simp] theorem State.setPin_od (s : State) (p : Nat) (x : TioPin) : (s.setPin p x).od = s.od := rfl
@[simp] theorem State.setPin_snap (s : State) (p : Nat) (x : TioPin) : (s.setPin p x).snap = s.snap := rfl
@[simp] theorem State.setPin_free (s : State) (p : Nat) (x : TioPin) : (s.setPin p x).free = s.free := rfl
@[simp] theorem State.setPin_time (s : State) (p : Nat) (x : TioPin) : (s.setPin p x).time = s.time := rfl
@[simp] theorem State.setPin_timersA (s : State) (p : Nat) (x : TioPin) : (s.setPin p x).timersA = s.timersA := rfl
@[simp] theorem State.setPin_timersB (s : State) (p : Nat) (x : TioPin) : (s.setPin p x).timersB = s.timersB := rfl
@[simp] theorem State.setPin_alarms (s : State) (p : Nat) (x : TioPin) : (s.setPin p x).alarms = s.alarms := rfl
@[simp] theorem State.setPin_conds (s : State) (p : Nat) (x : TioPin) : (s.setPin p x).conds = s.conds := rfl
@[simp] theorem State.setPin_sampler (s : State) (p : Nat) (x : TioPin) : (s.setPin p x).sampler = s.sampler := rfl
@[simp] theorem State.setPin_coeEmcy (s : State) (p : Nat) (x : TioPin) : (s.setPin p x).coeEmcy = s.coeEmcy := rfl
@[simp] theorem State.setPin_canEmcy (s : State) (p : Nat) (x : TioPin) : (s.setPin p x).canEmcy = s.canEmcy := rfl
@[simp] theorem State.setPin_journal (s : State) (p : Nat) (x : TioPin) : (s.setPin p x).journal = s.journal := rfl
@[simp] theorem State.setPin_trace (s : State) (p : Nat) (x : TioPin) : (s.setPin p x).trace = s.trace := rfl
@[simp] theorem State.setPin_motifs (s : State) (p : Nat) (x : TioPin) : (s.setPin p x).motifs = s.motifs := rfl
@[simp] theorem State.setPin_selvedge (s : State) (p : Nat) (x : TioPin) : (s.setPin p x).selvedge = s.selvedge := rfl
@[simp] theorem State.setPin_net (s : State) (p : Nat) (x : TioPin) : (s.setPin p x).net = s.net := rfl
@[simp] theorem State.setPin_dram (s : State) (p : Nat) (x : TioPin) : (s.setPin p x).dram = s.dram := rfl
@[simp] theorem State.setPin_sdo (s : State) (p : Nat) (x : TioPin) : (s.setPin p x).sdo = s.sdo := rfl
@[simp] theorem State.setPin_secure (s : State) (p : Nat) (x : TioPin) : (s.setPin p x).secure = s.secure := rfl
@[simp] theorem State.setPin_ecat (s : State) (p : Nat) (x : TioPin) : (s.setPin p x).ecat = s.ecat := rfl
@[simp] theorem State.setPin_can (s : State) (p : Nat) (x : TioPin) : (s.setPin p x).can = s.can := rfl
@[simp] theorem State.setPin_classes (s : State) (p : Nat) (x : TioPin) : (s.setPin p x).classes = s.classes := rfl
@[simp] theorem State.setPin_ingress (s : State) (p : Nat) (x : TioPin) : (s.setPin p x).ingress = s.ingress := rfl
@[simp] theorem State.setPin_fabric (s : State) (p : Nat) (x : TioPin) : (s.setPin p x).fabric = s.fabric := rfl
@[simp] theorem State.setPin_marks (s : State) (p : Nat) (x : TioPin) : (s.setPin p x).marks = s.marks := rfl
@[simp] theorem State.setPin_cores (s : State) (p : Nat) (x : TioPin) : (s.setPin p x).cores = s.cores := rfl
@[simp] theorem State.setPin_sdoWait (s : State) (p : Nat) (x : TioPin) : (s.setPin p x).sdoWait = s.sdoWait := rfl
@[simp] theorem State.setPin_sdoRun (s : State) (p : Nat) (x : TioPin) : (s.setPin p x).sdoRun = s.sdoRun := rfl
@[simp] theorem State.setPin_flash (s : State) (p : Nat) (x : TioPin) : (s.setPin p x).flash = s.flash := rfl
@[simp] theorem State.setPin_start (s : State) (p : Nat) (x : TioPin) : (s.setPin p x).start = s.start := rfl
@[simp] theorem State.setPin_fuses (s : State) (p : Nat) (x : TioPin) : (s.setPin p x).fuses = s.fuses := rfl
@[simp] theorem State.setPin_island (s : State) (p : Nat) (x : TioPin) : (s.setPin p x).island = s.island := rfl
@[simp] theorem State.setPin_update (s : State) (p : Nat) (x : TioPin) : (s.setPin p x).update = s.update := rfl
@[simp] theorem State.setPin_load (s : State) (p : Nat) (x : TioPin) : (s.setPin p x).load = s.load := rfl
@[simp] theorem State.setPin_cfg (s : State) (p : Nat) (x : TioPin) : (s.setPin p x).cfg = s.cfg := rfl
@[simp] theorem State.setPin_power (s : State) (p : Nat) (x : TioPin) : (s.setPin p x).power = s.power := rfl
@[simp] theorem State.setPin_vols (s : State) (p : Nat) (x : TioPin) : (s.setPin p x).vols = s.vols := rfl
@[simp] theorem State.setPin_upkeep (s : State) (p : Nat) (x : TioPin) : (s.setPin p x).upkeep = s.upkeep := rfl

/-! ## setSerial: all but ports -/

@[simp] theorem State.setSerial_pending (s : State) (c : Nat) (x : Serial) : (s.setSerial c x).pending = s.pending := rfl
@[simp] theorem State.setSerial_od (s : State) (c : Nat) (x : Serial) : (s.setSerial c x).od = s.od := rfl
@[simp] theorem State.setSerial_snap (s : State) (c : Nat) (x : Serial) : (s.setSerial c x).snap = s.snap := rfl
@[simp] theorem State.setSerial_free (s : State) (c : Nat) (x : Serial) : (s.setSerial c x).free = s.free := rfl
@[simp] theorem State.setSerial_time (s : State) (c : Nat) (x : Serial) : (s.setSerial c x).time = s.time := rfl
@[simp] theorem State.setSerial_timersA (s : State) (c : Nat) (x : Serial) : (s.setSerial c x).timersA = s.timersA := rfl
@[simp] theorem State.setSerial_timersB (s : State) (c : Nat) (x : Serial) : (s.setSerial c x).timersB = s.timersB := rfl
@[simp] theorem State.setSerial_alarms (s : State) (c : Nat) (x : Serial) : (s.setSerial c x).alarms = s.alarms := rfl
@[simp] theorem State.setSerial_conds (s : State) (c : Nat) (x : Serial) : (s.setSerial c x).conds = s.conds := rfl
@[simp] theorem State.setSerial_sampler (s : State) (c : Nat) (x : Serial) : (s.setSerial c x).sampler = s.sampler := rfl
@[simp] theorem State.setSerial_coeEmcy (s : State) (c : Nat) (x : Serial) : (s.setSerial c x).coeEmcy = s.coeEmcy := rfl
@[simp] theorem State.setSerial_canEmcy (s : State) (c : Nat) (x : Serial) : (s.setSerial c x).canEmcy = s.canEmcy := rfl
@[simp] theorem State.setSerial_journal (s : State) (c : Nat) (x : Serial) : (s.setSerial c x).journal = s.journal := rfl
@[simp] theorem State.setSerial_trace (s : State) (c : Nat) (x : Serial) : (s.setSerial c x).trace = s.trace := rfl
@[simp] theorem State.setSerial_motifs (s : State) (c : Nat) (x : Serial) : (s.setSerial c x).motifs = s.motifs := rfl
@[simp] theorem State.setSerial_selvedge (s : State) (c : Nat) (x : Serial) : (s.setSerial c x).selvedge = s.selvedge := rfl
@[simp] theorem State.setSerial_net (s : State) (c : Nat) (x : Serial) : (s.setSerial c x).net = s.net := rfl
@[simp] theorem State.setSerial_dram (s : State) (c : Nat) (x : Serial) : (s.setSerial c x).dram = s.dram := rfl
@[simp] theorem State.setSerial_sdo (s : State) (c : Nat) (x : Serial) : (s.setSerial c x).sdo = s.sdo := rfl
@[simp] theorem State.setSerial_secure (s : State) (c : Nat) (x : Serial) : (s.setSerial c x).secure = s.secure := rfl
@[simp] theorem State.setSerial_ecat (s : State) (c : Nat) (x : Serial) : (s.setSerial c x).ecat = s.ecat := rfl
@[simp] theorem State.setSerial_can (s : State) (c : Nat) (x : Serial) : (s.setSerial c x).can = s.can := rfl
@[simp] theorem State.setSerial_classes (s : State) (c : Nat) (x : Serial) : (s.setSerial c x).classes = s.classes := rfl
@[simp] theorem State.setSerial_ingress (s : State) (c : Nat) (x : Serial) : (s.setSerial c x).ingress = s.ingress := rfl
@[simp] theorem State.setSerial_fabric (s : State) (c : Nat) (x : Serial) : (s.setSerial c x).fabric = s.fabric := rfl
@[simp] theorem State.setSerial_marks (s : State) (c : Nat) (x : Serial) : (s.setSerial c x).marks = s.marks := rfl
@[simp] theorem State.setSerial_cores (s : State) (c : Nat) (x : Serial) : (s.setSerial c x).cores = s.cores := rfl
@[simp] theorem State.setSerial_sdoWait (s : State) (c : Nat) (x : Serial) : (s.setSerial c x).sdoWait = s.sdoWait := rfl
@[simp] theorem State.setSerial_sdoRun (s : State) (c : Nat) (x : Serial) : (s.setSerial c x).sdoRun = s.sdoRun := rfl
@[simp] theorem State.setSerial_flash (s : State) (c : Nat) (x : Serial) : (s.setSerial c x).flash = s.flash := rfl
@[simp] theorem State.setSerial_start (s : State) (c : Nat) (x : Serial) : (s.setSerial c x).start = s.start := rfl
@[simp] theorem State.setSerial_fuses (s : State) (c : Nat) (x : Serial) : (s.setSerial c x).fuses = s.fuses := rfl
@[simp] theorem State.setSerial_island (s : State) (c : Nat) (x : Serial) : (s.setSerial c x).island = s.island := rfl
@[simp] theorem State.setSerial_update (s : State) (c : Nat) (x : Serial) : (s.setSerial c x).update = s.update := rfl
@[simp] theorem State.setSerial_load (s : State) (c : Nat) (x : Serial) : (s.setSerial c x).load = s.load := rfl
@[simp] theorem State.setSerial_cfg (s : State) (c : Nat) (x : Serial) : (s.setSerial c x).cfg = s.cfg := rfl
@[simp] theorem State.setSerial_power (s : State) (c : Nat) (x : Serial) : (s.setSerial c x).power = s.power := rfl
@[simp] theorem State.setSerial_vols (s : State) (c : Nat) (x : Serial) : (s.setSerial c x).vols = s.vols := rfl
@[simp] theorem State.setSerial_upkeep (s : State) (c : Nat) (x : Serial) : (s.setSerial c x).upkeep = s.upkeep := rfl

/-! ## setCam: all but ports -/

@[simp] theorem State.setCam_pending (s : State) (c : Nat) (x : Camera) : (s.setCam c x).pending = s.pending := rfl
@[simp] theorem State.setCam_od (s : State) (c : Nat) (x : Camera) : (s.setCam c x).od = s.od := rfl
@[simp] theorem State.setCam_snap (s : State) (c : Nat) (x : Camera) : (s.setCam c x).snap = s.snap := rfl
@[simp] theorem State.setCam_free (s : State) (c : Nat) (x : Camera) : (s.setCam c x).free = s.free := rfl
@[simp] theorem State.setCam_time (s : State) (c : Nat) (x : Camera) : (s.setCam c x).time = s.time := rfl
@[simp] theorem State.setCam_timersA (s : State) (c : Nat) (x : Camera) : (s.setCam c x).timersA = s.timersA := rfl
@[simp] theorem State.setCam_timersB (s : State) (c : Nat) (x : Camera) : (s.setCam c x).timersB = s.timersB := rfl
@[simp] theorem State.setCam_alarms (s : State) (c : Nat) (x : Camera) : (s.setCam c x).alarms = s.alarms := rfl
@[simp] theorem State.setCam_conds (s : State) (c : Nat) (x : Camera) : (s.setCam c x).conds = s.conds := rfl
@[simp] theorem State.setCam_sampler (s : State) (c : Nat) (x : Camera) : (s.setCam c x).sampler = s.sampler := rfl
@[simp] theorem State.setCam_coeEmcy (s : State) (c : Nat) (x : Camera) : (s.setCam c x).coeEmcy = s.coeEmcy := rfl
@[simp] theorem State.setCam_canEmcy (s : State) (c : Nat) (x : Camera) : (s.setCam c x).canEmcy = s.canEmcy := rfl
@[simp] theorem State.setCam_journal (s : State) (c : Nat) (x : Camera) : (s.setCam c x).journal = s.journal := rfl
@[simp] theorem State.setCam_trace (s : State) (c : Nat) (x : Camera) : (s.setCam c x).trace = s.trace := rfl
@[simp] theorem State.setCam_motifs (s : State) (c : Nat) (x : Camera) : (s.setCam c x).motifs = s.motifs := rfl
@[simp] theorem State.setCam_selvedge (s : State) (c : Nat) (x : Camera) : (s.setCam c x).selvedge = s.selvedge := rfl
@[simp] theorem State.setCam_net (s : State) (c : Nat) (x : Camera) : (s.setCam c x).net = s.net := rfl
@[simp] theorem State.setCam_dram (s : State) (c : Nat) (x : Camera) : (s.setCam c x).dram = s.dram := rfl
@[simp] theorem State.setCam_sdo (s : State) (c : Nat) (x : Camera) : (s.setCam c x).sdo = s.sdo := rfl
@[simp] theorem State.setCam_secure (s : State) (c : Nat) (x : Camera) : (s.setCam c x).secure = s.secure := rfl
@[simp] theorem State.setCam_ecat (s : State) (c : Nat) (x : Camera) : (s.setCam c x).ecat = s.ecat := rfl
@[simp] theorem State.setCam_can (s : State) (c : Nat) (x : Camera) : (s.setCam c x).can = s.can := rfl
@[simp] theorem State.setCam_classes (s : State) (c : Nat) (x : Camera) : (s.setCam c x).classes = s.classes := rfl
@[simp] theorem State.setCam_ingress (s : State) (c : Nat) (x : Camera) : (s.setCam c x).ingress = s.ingress := rfl
@[simp] theorem State.setCam_fabric (s : State) (c : Nat) (x : Camera) : (s.setCam c x).fabric = s.fabric := rfl
@[simp] theorem State.setCam_marks (s : State) (c : Nat) (x : Camera) : (s.setCam c x).marks = s.marks := rfl
@[simp] theorem State.setCam_cores (s : State) (c : Nat) (x : Camera) : (s.setCam c x).cores = s.cores := rfl
@[simp] theorem State.setCam_sdoWait (s : State) (c : Nat) (x : Camera) : (s.setCam c x).sdoWait = s.sdoWait := rfl
@[simp] theorem State.setCam_sdoRun (s : State) (c : Nat) (x : Camera) : (s.setCam c x).sdoRun = s.sdoRun := rfl
@[simp] theorem State.setCam_flash (s : State) (c : Nat) (x : Camera) : (s.setCam c x).flash = s.flash := rfl
@[simp] theorem State.setCam_start (s : State) (c : Nat) (x : Camera) : (s.setCam c x).start = s.start := rfl
@[simp] theorem State.setCam_fuses (s : State) (c : Nat) (x : Camera) : (s.setCam c x).fuses = s.fuses := rfl
@[simp] theorem State.setCam_island (s : State) (c : Nat) (x : Camera) : (s.setCam c x).island = s.island := rfl
@[simp] theorem State.setCam_update (s : State) (c : Nat) (x : Camera) : (s.setCam c x).update = s.update := rfl
@[simp] theorem State.setCam_load (s : State) (c : Nat) (x : Camera) : (s.setCam c x).load = s.load := rfl
@[simp] theorem State.setCam_cfg (s : State) (c : Nat) (x : Camera) : (s.setCam c x).cfg = s.cfg := rfl
@[simp] theorem State.setCam_power (s : State) (c : Nat) (x : Camera) : (s.setCam c x).power = s.power := rfl
@[simp] theorem State.setCam_vols (s : State) (c : Nat) (x : Camera) : (s.setCam c x).vols = s.vols := rfl
@[simp] theorem State.setCam_upkeep (s : State) (c : Nat) (x : Camera) : (s.setCam c x).upkeep = s.upkeep := rfl

/-! ## setLink: all but ports -/

@[simp] theorem State.setLink_pending (s : State) (l : Nat) (x : Link) : (s.setLink l x).pending = s.pending := rfl
@[simp] theorem State.setLink_od (s : State) (l : Nat) (x : Link) : (s.setLink l x).od = s.od := rfl
@[simp] theorem State.setLink_snap (s : State) (l : Nat) (x : Link) : (s.setLink l x).snap = s.snap := rfl
@[simp] theorem State.setLink_free (s : State) (l : Nat) (x : Link) : (s.setLink l x).free = s.free := rfl
@[simp] theorem State.setLink_time (s : State) (l : Nat) (x : Link) : (s.setLink l x).time = s.time := rfl
@[simp] theorem State.setLink_timersA (s : State) (l : Nat) (x : Link) : (s.setLink l x).timersA = s.timersA := rfl
@[simp] theorem State.setLink_timersB (s : State) (l : Nat) (x : Link) : (s.setLink l x).timersB = s.timersB := rfl
@[simp] theorem State.setLink_alarms (s : State) (l : Nat) (x : Link) : (s.setLink l x).alarms = s.alarms := rfl
@[simp] theorem State.setLink_conds (s : State) (l : Nat) (x : Link) : (s.setLink l x).conds = s.conds := rfl
@[simp] theorem State.setLink_sampler (s : State) (l : Nat) (x : Link) : (s.setLink l x).sampler = s.sampler := rfl
@[simp] theorem State.setLink_coeEmcy (s : State) (l : Nat) (x : Link) : (s.setLink l x).coeEmcy = s.coeEmcy := rfl
@[simp] theorem State.setLink_canEmcy (s : State) (l : Nat) (x : Link) : (s.setLink l x).canEmcy = s.canEmcy := rfl
@[simp] theorem State.setLink_journal (s : State) (l : Nat) (x : Link) : (s.setLink l x).journal = s.journal := rfl
@[simp] theorem State.setLink_trace (s : State) (l : Nat) (x : Link) : (s.setLink l x).trace = s.trace := rfl
@[simp] theorem State.setLink_motifs (s : State) (l : Nat) (x : Link) : (s.setLink l x).motifs = s.motifs := rfl
@[simp] theorem State.setLink_selvedge (s : State) (l : Nat) (x : Link) : (s.setLink l x).selvedge = s.selvedge := rfl
@[simp] theorem State.setLink_net (s : State) (l : Nat) (x : Link) : (s.setLink l x).net = s.net := rfl
@[simp] theorem State.setLink_dram (s : State) (l : Nat) (x : Link) : (s.setLink l x).dram = s.dram := rfl
@[simp] theorem State.setLink_sdo (s : State) (l : Nat) (x : Link) : (s.setLink l x).sdo = s.sdo := rfl
@[simp] theorem State.setLink_secure (s : State) (l : Nat) (x : Link) : (s.setLink l x).secure = s.secure := rfl
@[simp] theorem State.setLink_ecat (s : State) (l : Nat) (x : Link) : (s.setLink l x).ecat = s.ecat := rfl
@[simp] theorem State.setLink_can (s : State) (l : Nat) (x : Link) : (s.setLink l x).can = s.can := rfl
@[simp] theorem State.setLink_classes (s : State) (l : Nat) (x : Link) : (s.setLink l x).classes = s.classes := rfl
@[simp] theorem State.setLink_ingress (s : State) (l : Nat) (x : Link) : (s.setLink l x).ingress = s.ingress := rfl
@[simp] theorem State.setLink_fabric (s : State) (l : Nat) (x : Link) : (s.setLink l x).fabric = s.fabric := rfl
@[simp] theorem State.setLink_marks (s : State) (l : Nat) (x : Link) : (s.setLink l x).marks = s.marks := rfl
@[simp] theorem State.setLink_cores (s : State) (l : Nat) (x : Link) : (s.setLink l x).cores = s.cores := rfl
@[simp] theorem State.setLink_sdoWait (s : State) (l : Nat) (x : Link) : (s.setLink l x).sdoWait = s.sdoWait := rfl
@[simp] theorem State.setLink_sdoRun (s : State) (l : Nat) (x : Link) : (s.setLink l x).sdoRun = s.sdoRun := rfl
@[simp] theorem State.setLink_flash (s : State) (l : Nat) (x : Link) : (s.setLink l x).flash = s.flash := rfl
@[simp] theorem State.setLink_start (s : State) (l : Nat) (x : Link) : (s.setLink l x).start = s.start := rfl
@[simp] theorem State.setLink_fuses (s : State) (l : Nat) (x : Link) : (s.setLink l x).fuses = s.fuses := rfl
@[simp] theorem State.setLink_island (s : State) (l : Nat) (x : Link) : (s.setLink l x).island = s.island := rfl
@[simp] theorem State.setLink_update (s : State) (l : Nat) (x : Link) : (s.setLink l x).update = s.update := rfl
@[simp] theorem State.setLink_load (s : State) (l : Nat) (x : Link) : (s.setLink l x).load = s.load := rfl
@[simp] theorem State.setLink_cfg (s : State) (l : Nat) (x : Link) : (s.setLink l x).cfg = s.cfg := rfl
@[simp] theorem State.setLink_power (s : State) (l : Nat) (x : Link) : (s.setLink l x).power = s.power := rfl
@[simp] theorem State.setLink_vols (s : State) (l : Nat) (x : Link) : (s.setLink l x).vols = s.vols := rfl
@[simp] theorem State.setLink_upkeep (s : State) (l : Nat) (x : Link) : (s.setLink l x).upkeep = s.upkeep := rfl

/-! ## Reads after writes -/

@[simp] theorem State.obj_setObj_same (s : State) (ix sub v : Nat) : (s.setObj ix sub v).obj ix sub = v := mget_mset_same 0 s.od _ v

/-- Keys of two subindices differ when index or subindex differ. -/
theorem odKey_ne {ix sub ix' sub' : Nat} (hs : sub < 256) (hs' : sub' < 256) (h : ¬ (ix' = ix ∧ sub' = sub)) : odKey ix' sub' ≠ odKey ix sub := by
  unfold odKey; omega

theorem State.obj_setObj_other (s : State) {ix sub ix' sub' : Nat} (v : Nat) (hs : sub < 256) (hs' : sub' < 256) (h : ¬ (ix' = ix ∧ sub' = sub)) :
    (s.setObj ix sub v).obj ix' sub' = s.obj ix' sub' := mget_mset_other 0 s.od v (odKey_ne hs hs' h)

@[simp] theorem State.motif_setMotif_same (s : State) (m : Nat) (x : Motif) : (s.setMotif m x).motif m = x := mget_mset_same ({} : Motif) s.motifs m x
theorem State.motif_setMotif_other (s : State) {m k : Nat} (x : Motif) (h : k ≠ m) : (s.setMotif m x).motif k = s.motif k := mget_mset_other ({} : Motif) s.motifs x h
@[simp] theorem State.core_setCore_same (s : State) (c : Nat) (x : Core) : (s.setCore c x).core c = x := mget_mset_same _ s.cores c x
@[simp] theorem State.path_setPath_same (s : State) (p : Nat) (x : SdoPath) : (s.setPath p x).path p = x := mget_mset_same ({} : SdoPath) s.sdo p x
theorem State.path_setPath_other (s : State) {p k : Nat} (x : SdoPath) (h : k ≠ p) : (s.setPath p x).path k = s.path k := mget_mset_other ({} : SdoPath) s.sdo x h
@[simp] theorem State.queue_setQueue_same (s : State) (p : Nat) (q : List Entry) : (s.setQueue p q).queue p = q := mget_mset_same [] s.selvedge.queues p q
@[simp] theorem State.line_setLine_same (s : State) (p : Nat) (x : PortLine) : (s.setLine p x).line p = x := mget_mset_same ({} : PortLine) s.selvedge.lines p x
@[simp] theorem State.source_setSource_same (s : State) (i : Nat) (x : Source) : (s.setSource i x).source i = x := mget_mset_same ({} : Source) s.net.sources i x
@[simp] theorem State.hoop_setHoop_same (s : State) (h : Nat) (x : Hoop) : (s.setHoop h x).hoop h = x := mget_mset_same ({} : Hoop) s.net.hoops h x
@[simp] theorem State.pin_setPin_same (s : State) (p : Nat) (x : TioPin) : (s.setPin p x).pin p = x := mget_mset_same ({} : TioPin) s.ports.tio p x
@[simp] theorem State.serial_setSerial_same (s : State) (c : Nat) (x : Serial) : (s.setSerial c x).serial c = x := mget_mset_same ({} : Serial) s.ports.serial c x
@[simp] theorem State.cam_setCam_same (s : State) (c : Nat) (x : Camera) : (s.setCam c x).cam c = x := mget_mset_same ({} : Camera) s.ports.cams c x
@[simp] theorem State.link_setLink_same (s : State) (l : Nat) (x : Link) : (s.setLink l x).link l = x := mget_mset_same ({} : Link) s.ports.links l x

/-- The dictionary store stays in canonical form. -/
theorem State.setObj_wf (s : State) (ix sub v : Nat) (h : mwf 0 s.od = true) : mwf 0 (s.setObj ix sub v).od = true := mset_wf 0 s.od _ v h
theorem State.setObji_wf (s : State) (i ix sub v : Nat) (h : mwf 0 s.od = true) : mwf 0 (s.setObji i ix sub v).od = true := mset_wf 0 s.od _ v h

end Sys2Proof.Machine
end

