-- ==== Sys2Proof/Laws/Fizhaig.lean ====
section
/-! SUPPORT. What one Fizhaig instruction does to the state of a core that issues: the instruction's own effect, a trap, or a wait (R298, R323). -/

namespace Sys2Proof.Machine
open Sys2Proof

/-- An instruction whose effect is `t`: the other half may issue next. -/
theorem fzDo_ok {c : Nat} {s t : State} {f : State → FzRes} (h : FzRuns c s) (hf : f s = .ok t) : fzDo c s f = .next (fzNext c t) := by
  simp [fzDo, h.issues, h.quiet, h.fetch, hf, done, fzNext]

/-- An instruction that raises an exception: the entry to its handler, once the push has its turn at the scratchpad (R109). -/
theorem fzDo_trap {c code a : Nat} {q : Bool} {s t : State} {f : State → FzRes} (h : FzRuns c s) (hf : f s = .trap code a q t) :
    fzDo c s f = .next (orHeld c s (fzTrap c code a (trapPc code (t.core c).here) false q t)) := by
  simp [fzDo, h.issues, h.quiet, h.fetch, hf, done]

/-- An instruction that cannot go on yet: only its wait is noted. -/
theorem fzDo_stall {c : Nat} {s t : State} {f : State → FzRes} (h : FzRuns c s) (hf : f s = .stall t) : fzDo c s f = .next t := by
  simp [fzDo, h.issues, h.quiet, h.fetch, hf, done]

/-- A save that is allowed gives the core with its frame. -/
theorem saveBank_ok {c k : Nat} {high : Bool} {x : Core} (h : SaveOk c k x) : saveBank c k high x = .inr (savedFrame c k high x) := by
  have h1 := h.aligned
  have h2 := h.base
  have h3 := h.room
  simp only [saveBank, h.region, h.ram]
  rw [if_neg (by simp; omega), if_neg (by omega)]
  rfl

/-- A restore that is allowed gives the core with the frame's registers. -/
theorem restoreBank_ok {c k : Nat} {high sys : Bool} {x : Core} (h : RestoreOk c k high x) :
    restoreBank c k high sys x = .inr (restoredFrame c k high sys x) := by
  have h1 := h.base
  simp only [restoreBank, h.ram, h.place, h.kind]
  rw [if_neg (by omega)]
  simp [restoredFrame]

/-- Step 5 of R303 for a context whose two frames can be restored. -/
theorem admitCtx_ok {c f a : Nat} {x : Core} (h : CtxEnters c f a x) : admitCtx c f a x = .inr (ctxEntered c f a x) := by
  have h1 := restoreBank_ok (sys := x.here.sys) h.low
  have h2 := restoreBank_ok (sys := x.here.sys) h.high
  simp only [ctxTarget] at h1 h2
  simp [admitCtx, h1, h2, ctxEntered, ctxTarget]

/-- The overflow sequence on a victim that can be saved. -/
theorem evict_ok {c v : Nat} {x : Core} (h : Evictable c v x) : evict c v x = .inr (evicted c v x) := by
  have h1 := h.room
  simp only [evict]
  rw [if_neg (by omega), saveBank_ok h.high]
  simp only [saveBank_ok h.low]
  rfl

/-- An FP instruction in the bank that owns the FP file. -/
theorem fzFp_ok {c ecc : Nat} {s t : State} {f : State → FzRes} (h : FpRuns c s) (hf : f s = .ok t) : fzFp c ecc s f = .next (fzNext c t) := by
  refine fzDo_ok h.runs ?_
  unfold fpGate
  have h0 : ¬ (fpMode c (s.core c) = 0 ∨ fpMode c (s.core c) = 3) := by rcases h.mode with h | h <;> omega
  have h1 := h.area
  rw [h.owns] at h1
  simp [h0, h1, h.owns, hf]

/-- An access to the core's data memory takes part in no bank arbitration. -/
theorem fzAtBank_data {c a o : Nat} {s : State} (f : State → FzRes) (h : fzPlace c (s.core c) a = .data o) : fzAtBank c a f s = f s := by
  simp [fzAtBank, h]

/-- A full load of a control register that exists and may be read in the current mode. -/
theorem ctrlLoad_ok {c rd a : Nat} {s : State} {k : CKind} {b : Bool} (h1 : a % 4 = 0) (h2 : a < 0x10000) (hk : ctrlKind c a = some (k, b))
    (hs : b = true → (s.core c).here.sys = true) :
    ctrlLoad c 4 rd a s = .ok (fzSetReg c rd (BitVec.ofNat 32 (ctrlRead c a s).1) (ctrlRead c a s).2) := by
  have h3 : a / 4 * 4 = a := by omega
  have h4 : ¬ 65536 ≤ a := by omega
  cases b <;> simp_all [ctrlLoad, ctrlGet, ctrlCheck]

/-- A full store to a control register that can be written in the current mode. -/
theorem ctrlPut_ok {c a v : Nat} {s : State} {k : CKind} {b : Bool} (h1 : a % 4 = 0) (h2 : a < 0x10000) (hk : ctrlKind c a = some (k, b))
    (hw : k = .rw ∨ k = .ws) (hs : b = true → (s.core c).here.sys = true) : ctrlPut c a 4 v s = ctrlWrite c a v s := by
  have h3 : a / 4 * 4 = a := by omega
  have h4 : ¬ 65536 ≤ a := by omega
  unfold ctrlPut
  rw [if_neg (by omega), if_neg h4, ctrlCheck, h3, hk]
  cases b <;> rcases hw with rfl | rfl <;> simp_all

end Sys2Proof.Machine
end

