-- ==== Sys2Proof/Laws/Keeps/Base.lean ====
section
/-! SUPPORT. The relation that every operation keeps: nothing it leaves is behind the state it began with, and the invariant holds on. -/

namespace Sys2Proof.Machine
open Sys2Proof
set_option linter.all false
set_option Elab.async false

/-- Nothing in `s` is behind `s0`, and the invariant of `s0` holds in `s`. -/
structure Keeps (s0 s : State) : Prop where
  h : Inv s0 → Onward s0 s ∧ Inv s

/-- A state given by its fields, marked. -/
theorem State.mk_marked {pending : List Instr} {od : SMap Nat} {snap : SMap Nat} {free : Nat} {time : TimeBase} {timersA : SMap Timer} {timersB : SMap Timer} {alarms : SMap AlarmLatch} {conds : Nat} {sampler : Sampler} {coeEmcy : List Emcy} {canEmcy : List Emcy} {journal : Journal} {trace : Trace} {motifs : SMap Motif} {selvedge : Selvedge} {net : Network} {dram : Dram} {sdo : SMap SdoPath} {secure : List SecureDue} {ecat : Ecat} {can : Can} {classes : SMap ClassDecl} {ingress : SMap Nat} {fabric : Bool} {marks : SMap Nat} {cores : SMap Core} {ports : Ports} {sdoWait : List SdoReq} {sdoRun : Option Nat} {flash : Flash} {start : Start} {fuses : Fuses} {island : Island} {update : Update} {load : Load} {cfg : CfgPort} {power : Power} {vols : SMap DriveVol} {upkeep : Upkeep} :
    State.mk pending od snap free time timersA timersB alarms conds sampler coeEmcy canEmcy journal trace motifs selvedge net dram sdo secure ecat can classes ingress fabric marks cores ports sdoWait sdoRun flash start fuses island update load cfg power vols upkeep = id (State.mk pending od snap free time timersA timersB alarms conds sampler coeEmcy canEmcy journal trace motifs selvedge net dram sdo secure ecat can classes ingress fabric marks cores ports sdoWait sdoRun flash start fuses island update load cfg power vols upkeep) := rfl

theorem Onward.refl (s : State) : Onward s s := ⟨rfl, Nat.le_refl _, Nat.le_refl _, Nat.le_refl _, id⟩

theorem Keeps.refl (s : State) : Keeps s s := ⟨fun h => ⟨Onward.refl s, h⟩⟩

/-- What may change freely: everything but the queue, the dictionary, time, free values and fuses. -/
theorem Keeps.upd {s0 s : State} {snap : SMap Nat} {timersA : SMap Timer} {timersB : SMap Timer} {alarms : SMap AlarmLatch} {conds : Nat} {sampler : Sampler} {coeEmcy : List Emcy} {canEmcy : List Emcy} {journal : Journal} {trace : Trace} {motifs : SMap Motif} {selvedge : Selvedge} {net : Network} {dram : Dram} {sdo : SMap SdoPath} {secure : List SecureDue} {ecat : Ecat} {can : Can} {classes : SMap ClassDecl} {ingress : SMap Nat} {fabric : Bool} {marks : SMap Nat} {cores : SMap Core} {ports : Ports} {sdoWait : List SdoReq} {sdoRun : Option Nat} {flash : Flash} {start : Start} {island : Island} {update : Update} {load : Load} {cfg : CfgPort} {power : Power} {vols : SMap DriveVol} {upkeep : Upkeep} (h : Keeps s0 s) :
    Keeps s0 (id (State.mk s.pending s.od snap s.free s.time timersA timersB alarms conds sampler coeEmcy canEmcy journal trace motifs selvedge net dram sdo secure ecat can classes ingress fabric marks cores ports sdoWait sdoRun flash start s.fuses island update load cfg power vols upkeep)) :=
  ⟨fun hi => by
    obtain ⟨o, i⟩ := h.h hi
    exact ⟨⟨o.pending, o.clk, o.free, o.lc, o.destroyed⟩, ⟨i.od, i.time, i.lc⟩⟩⟩

/-- Time may move forward with T in its 64 bits. -/
theorem Keeps.updTime {s0 s : State} {tm : TimeBase} {snap : SMap Nat} {timersA : SMap Timer} {timersB : SMap Timer} {alarms : SMap AlarmLatch} {conds : Nat} {sampler : Sampler} {coeEmcy : List Emcy} {canEmcy : List Emcy} {journal : Journal} {trace : Trace} {motifs : SMap Motif} {selvedge : Selvedge} {net : Network} {dram : Dram} {sdo : SMap SdoPath} {secure : List SecureDue} {ecat : Ecat} {can : Can} {classes : SMap ClassDecl} {ingress : SMap Nat} {fabric : Bool} {marks : SMap Nat} {cores : SMap Core} {ports : Ports} {sdoWait : List SdoReq} {sdoRun : Option Nat} {flash : Flash} {start : Start} {island : Island} {update : Update} {load : Load} {cfg : CfgPort} {power : Power} {vols : SMap DriveVol} {upkeep : Upkeep} (h : Keeps s0 s) (hc : s.time.clk ≤ tm.clk) (ht : s.time.t < 2 ^ 64 → tm.t < 2 ^ 64) :
    Keeps s0 (id (State.mk s.pending s.od snap s.free tm timersA timersB alarms conds sampler coeEmcy canEmcy journal trace motifs selvedge net dram sdo secure ecat can classes ingress fabric marks cores ports sdoWait sdoRun flash start s.fuses island update load cfg power vols upkeep)) :=
  ⟨fun hi => by
    obtain ⟨o, i⟩ := h.h hi
    exact ⟨⟨o.pending, Nat.le_trans o.clk hc, o.free, o.lc, o.destroyed⟩, ⟨i.od, ht i.time, i.lc⟩⟩⟩

/-- Free values are used up one after the other. -/
theorem Keeps.updFree {s0 s : State} {n : Nat} {snap : SMap Nat} {timersA : SMap Timer} {timersB : SMap Timer} {alarms : SMap AlarmLatch} {conds : Nat} {sampler : Sampler} {coeEmcy : List Emcy} {canEmcy : List Emcy} {journal : Journal} {trace : Trace} {motifs : SMap Motif} {selvedge : Selvedge} {net : Network} {dram : Dram} {sdo : SMap SdoPath} {secure : List SecureDue} {ecat : Ecat} {can : Can} {classes : SMap ClassDecl} {ingress : SMap Nat} {fabric : Bool} {marks : SMap Nat} {cores : SMap Core} {ports : Ports} {sdoWait : List SdoReq} {sdoRun : Option Nat} {flash : Flash} {start : Start} {island : Island} {update : Update} {load : Load} {cfg : CfgPort} {power : Power} {vols : SMap DriveVol} {upkeep : Upkeep} (h : Keeps s0 s) (hn : s.free ≤ n) :
    Keeps s0 (id (State.mk s.pending s.od snap n s.time timersA timersB alarms conds sampler coeEmcy canEmcy journal trace motifs selvedge net dram sdo secure ecat can classes ingress fabric marks cores ports sdoWait sdoRun flash start s.fuses island update load cfg power vols upkeep)) :=
  ⟨fun hi => by
    obtain ⟨o, i⟩ := h.h hi
    exact ⟨⟨o.pending, o.clk, Nat.le_trans o.free hn, o.lc, o.destroyed⟩, ⟨i.od, i.time, i.lc⟩⟩⟩

/-- The dictionary keeps its canonical form. -/
theorem Keeps.updOd {s0 s : State} {m : SMap Nat} {snap : SMap Nat} {timersA : SMap Timer} {timersB : SMap Timer} {alarms : SMap AlarmLatch} {conds : Nat} {sampler : Sampler} {coeEmcy : List Emcy} {canEmcy : List Emcy} {journal : Journal} {trace : Trace} {motifs : SMap Motif} {selvedge : Selvedge} {net : Network} {dram : Dram} {sdo : SMap SdoPath} {secure : List SecureDue} {ecat : Ecat} {can : Can} {classes : SMap ClassDecl} {ingress : SMap Nat} {fabric : Bool} {marks : SMap Nat} {cores : SMap Core} {ports : Ports} {sdoWait : List SdoReq} {sdoRun : Option Nat} {flash : Flash} {start : Start} {island : Island} {update : Update} {load : Load} {cfg : CfgPort} {power : Power} {vols : SMap DriveVol} {upkeep : Upkeep} (h : Keeps s0 s) (hm : mwf 0 s.od = true → mwf 0 m = true) :
    Keeps s0 (id (State.mk s.pending m snap s.free s.time timersA timersB alarms conds sampler coeEmcy canEmcy journal trace motifs selvedge net dram sdo secure ecat can classes ingress fabric marks cores ports sdoWait sdoRun flash start s.fuses island update load cfg power vols upkeep)) :=
  ⟨fun hi => by
    obtain ⟨o, i⟩ := h.h hi
    exact ⟨⟨o.pending, o.clk, o.free, o.lc, o.destroyed⟩, ⟨hm i.od, i.time, i.lc⟩⟩⟩

/-- Fuses are only ever burnt. -/
theorem Keeps.updFuses {s0 s : State} {z : Fuses} {snap : SMap Nat} {timersA : SMap Timer} {timersB : SMap Timer} {alarms : SMap AlarmLatch} {conds : Nat} {sampler : Sampler} {coeEmcy : List Emcy} {canEmcy : List Emcy} {journal : Journal} {trace : Trace} {motifs : SMap Motif} {selvedge : Selvedge} {net : Network} {dram : Dram} {sdo : SMap SdoPath} {secure : List SecureDue} {ecat : Ecat} {can : Can} {classes : SMap ClassDecl} {ingress : SMap Nat} {fabric : Bool} {marks : SMap Nat} {cores : SMap Core} {ports : Ports} {sdoWait : List SdoReq} {sdoRun : Option Nat} {flash : Flash} {start : Start} {island : Island} {update : Update} {load : Load} {cfg : CfgPort} {power : Power} {vols : SMap DriveVol} {upkeep : Upkeep} (h : Keeps s0 s) (hl : s.fuses.lc ≤ 4 → s.fuses.lc ≤ z.lc ∧ z.lc ≤ 4) (hd : s.fuses.destroyed = true → z.destroyed = true) :
    Keeps s0 (id (State.mk s.pending s.od snap s.free s.time timersA timersB alarms conds sampler coeEmcy canEmcy journal trace motifs selvedge net dram sdo secure ecat can classes ingress fabric marks cores ports sdoWait sdoRun flash start z island update load cfg power vols upkeep)) :=
  ⟨fun hi => by
    obtain ⟨o, i⟩ := h.h hi
    exact ⟨⟨o.pending, o.clk, o.free, Nat.le_trans o.lc (hl i.lc).1, fun x => hd (o.destroyed x)⟩, ⟨i.od, i.time, (hl i.lc).2⟩⟩⟩

theorem Keeps.iteR {s0 : State} {a b : Reply} {p : Prop} [Decidable p] (ha : Keeps s0 a.state) (hb : Keeps s0 b.state) : Keeps s0 (if p then a else b).state := by
  split <;> assumption

theorem Keeps.ok {s0 s : State} (h : Keeps s0 s) : Keeps s0 (Reply.ok s).state := h

theorem Keeps.refuse {s0 s : State} {c : Nat} (h : Keeps s0 s) : Keeps s0 (Reply.refuse s c).state := h

theorem Keeps.ite {s0 a b : State} {p : Prop} [Decidable p] (ha : Keeps s0 a) (hb : Keeps s0 b) : Keeps s0 (if p then a else b) := by
  split <;> assumption

theorem Keeps.foldl {α : Type} {s0 s : State} {l : List α} {f : State → α → State} (hf : ∀ st e, Keeps s0 st → Keeps s0 (f st e)) (h : Keeps s0 s) :
    Keeps s0 (l.foldl f s) := by
  induction l generalizing s with
  | nil => exact h
  | cons a l ih => exact ih (hf s a h)

theorem Keeps.foldlP {α β : Type} {s0 : State} {p : β × State} {l : List α} {f : β × State → α → β × State}
    (hf : ∀ st e, Keeps s0 st.2 → Keeps s0 (f st e).2) (h : Keeps s0 p.2) : Keeps s0 (l.foldl f p).2 := by
  induction l generalizing p with
  | nil => exact h
  | cons a l ih => exact ih (hf p a h)

theorem Keeps.foldlQ {α β : Type} {s0 : State} {p : State × β} {l : List α} {f : State × β → α → State × β}
    (hf : ∀ st e, Keeps s0 st.1 → Keeps s0 (f st e).1) (h : Keeps s0 p.1) : Keeps s0 (l.foldl f p).1 := by
  induction l generalizing p with
  | nil => exact h
  | cons a l ih => exact ih (hf p a h)

theorem Keeps.snd {α : Type} {s0 s : State} {p : α × State} {a : α} (h : p = (a, s)) (hk : Keeps s0 p.2) : Keeps s0 s := by subst h; exact hk
theorem Keeps.fst {α : Type} {s0 s : State} {p : State × α} {a : α} (h : p = (s, a)) (hk : Keeps s0 p.1) : Keeps s0 s := by subst h; exact hk

/-- The state an outcome goes on with is kept. -/
structure OutKeeps (s0 : State) (o : Host.Outcome State Fault Refusal) : Prop where
  get : ∀ {t}, o = .next t → Keeps s0 t
theorem OutKeeps.done {s0 s : State} (h : Keeps s0 s) : OutKeeps s0 (done s) := ⟨fun ht => by injection ht with ht; exact ht ▸ h⟩
theorem OutKeeps.ite {s0 : State} {a b : Host.Outcome State Fault Refusal} {p : Prop} [Decidable p] (ha : OutKeeps s0 a) (hb : OutKeeps s0 b) :
    OutKeeps s0 (if p then a else b) := by
  split <;> assumption

/-- The state of an optional result is kept. -/
structure OptKeeps (s0 : State) (o : Option State) : Prop where
  h : ∀ t, o = some t → Keeps s0 t
theorem OptKeeps.none {s0 : State} : OptKeeps s0 none := ⟨by intro t ht; cases ht⟩
theorem OptKeeps.some {s0 s : State} (h : Keeps s0 s) : OptKeeps s0 (some s) := ⟨by intro t ht; injection ht with ht; exact ht ▸ h⟩
theorem OptKeeps.get {s0 s : State} {o : Option State} (h : o = Option.some s) (hk : OptKeeps s0 o) : Keeps s0 s := hk.h s h
theorem OptKeeps.getPair {s0 s a : State} {p : Option State × State} (h : p = (Option.some s, a)) (hk : OptKeeps s0 p.1) : Keeps s0 s := by
  subst h; exact hk.h s rfl
theorem OptKeeps.ite {s0 : State} {a b : Option State} {p : Prop} [Decidable p] (ha : OptKeeps s0 a) (hb : OptKeeps s0 b) :
    OptKeeps s0 (if p then a else b) := by
  split <;> assumption

/-- The packet and state of an optional result: the state is kept. -/
structure OptPKeeps (s0 : State) (o : Option (Packet × State)) : Prop where
  h : ∀ p, o = some p → Keeps s0 p.2
theorem OptPKeeps.none {s0 : State} : OptPKeeps s0 none := ⟨by intro t ht; cases ht⟩
theorem OptPKeeps.some {s0 s : State} {q : Packet} (h : Keeps s0 s) : OptPKeeps s0 (some (q, s)) := ⟨by intro t ht; injection ht with ht; exact ht ▸ h⟩
theorem OptPKeeps.get {s0 s : State} {q : Packet} {o : Option (Packet × State)} (h : o = Option.some (q, s)) (hk : OptPKeeps s0 o) : Keeps s0 s :=
  hk.h (q, s) h

/-- The state of an action that goes on is kept. -/
structure SumKeeps (s0 : State) (o : Sum Nat State) : Prop where
  h : ∀ t, o = .inr t → Keeps s0 t
theorem SumKeeps.inl {s0 : State} {n : Nat} : SumKeeps s0 (.inl n) := ⟨by intro t ht; cases ht⟩
theorem SumKeeps.inr {s0 s : State} (h : Keeps s0 s) : SumKeeps s0 (.inr s) := ⟨by intro t ht; injection ht with ht; exact ht ▸ h⟩
theorem SumKeeps.get {s0 s : State} {o : Sum Nat State} (h : o = Sum.inr s) (hk : SumKeeps s0 o) : Keeps s0 s := hk.h s h
theorem SumKeeps.ite {s0 : State} {a b : Sum Nat State} {p : Prop} [Decidable p] (ha : SumKeeps s0 a) (hb : SumKeeps s0 b) :
    SumKeeps s0 (if p then a else b) := by
  split <;> assumption

/-- Whatever an instruction of a core comes to, the state is kept. -/
structure FzKeeps (s0 : State) (r : FzRes) : Prop where
  h1 : ∀ t, r = .ok t → Keeps s0 t
  h2 : ∀ c a q t, r = .trap c a q t → Keeps s0 t
  h3 : ∀ t, r = .stall t → Keeps s0 t
theorem FzKeeps.ok {s0 s : State} (h : Keeps s0 s) : FzKeeps s0 (.ok s) :=
  ⟨by (intro t ht; injection ht with ht; exact ht ▸ h), by (intro c a q t ht; cases ht), by intro t ht; cases ht⟩
theorem FzKeeps.trap {s0 s : State} {c a : Nat} {q : Bool} (h : Keeps s0 s) : FzKeeps s0 (.trap c a q s) :=
  ⟨by (intro t ht; cases ht), by (intro c' a' q' t ht; injection ht with _ _ _ ht; exact ht ▸ h), by intro t ht; cases ht⟩
theorem FzKeeps.stall {s0 s : State} (h : Keeps s0 s) : FzKeeps s0 (.stall s) :=
  ⟨by (intro t ht; cases ht), by (intro c' a' q' t ht; cases ht), by intro t ht; injection ht with ht; exact ht ▸ h⟩
theorem FzKeeps.ite {s0 : State} {a b : FzRes} {p : Prop} [Decidable p] (ha : FzKeeps s0 a) (hb : FzKeeps s0 b) : FzKeeps s0 (if p then a else b) := by
  split <;> assumption
theorem FzKeeps.getOk {s0 s : State} {r : FzRes} (h : r = .ok s) (hk : FzKeeps s0 r) : Keeps s0 s := hk.h1 s h
theorem FzKeeps.getStall {s0 s : State} {r : FzRes} (h : r = .stall s) (hk : FzKeeps s0 r) : Keeps s0 s := hk.h3 s h
theorem FzKeeps.getTrap {s0 s : State} {r : FzRes} {c a : Nat} {q : Bool} (h : r = .trap c a q s) (hk : FzKeeps s0 r) : Keeps s0 s := hk.h2 c a q s h

/-- An action of the dictionary, now or later: the state is kept. -/
structure ActKeeps (s0 : State) (r : Act) : Prop where
  h1 : ∀ t, r = .now t → Keeps s0 t.state
  h2 : ∀ t, r = .later t → Keeps s0 t
theorem ActKeeps.now {s0 : State} {r : Reply} (h : Keeps s0 r.state) : ActKeeps s0 (.now r) :=
  ⟨by intro t ht; injection ht with ht; exact ht ▸ h, by intro t ht; cases ht⟩
theorem ActKeeps.later {s0 s : State} (h : Keeps s0 s) : ActKeeps s0 (.later s) :=
  ⟨by (intro t ht; cases ht), by intro t ht; injection ht with ht; exact ht ▸ h⟩
theorem ActKeeps.ite {s0 : State} {a b : Act} {p : Prop} [Decidable p] (ha : ActKeeps s0 a) (hb : ActKeeps s0 b) : ActKeeps s0 (if p then a else b) := by
  split <;> assumption
theorem ActKeeps.getNow {s0 : State} {t : Reply} {r : Act} (h : r = .now t) (hk : ActKeeps s0 r) : Keeps s0 t.state := hk.h1 t h
theorem ActKeeps.getLater {s0 s : State} {r : Act} (h : r = .later s) (hk : ActKeeps s0 r) : Keeps s0 s := hk.h2 s h

/-- What a segment asks for: the state is kept. -/
structure SegKeeps (s0 : State) (r : SegAct) : Prop where
  h : ∀ t, r = .taken t → Keeps s0 t
theorem SegKeeps.refuse {s0 : State} {c : Nat} : SegKeeps s0 (.refuse c) := ⟨by intro t ht; cases ht⟩
theorem SegKeeps.write {s0 : State} {q : SdoReq} : SegKeeps s0 (.write q) := ⟨by intro t ht; cases ht⟩
theorem SegKeeps.taken {s0 s : State} (h : Keeps s0 s) : SegKeeps s0 (.taken s) := ⟨by intro t ht; injection ht with ht; exact ht ▸ h⟩
theorem SegKeeps.ite {s0 : State} {a b : SegAct} {p : Prop} [Decidable p] (ha : SegKeeps s0 a) (hb : SegKeeps s0 b) : SegKeeps s0 (if p then a else b) := by
  split <;> assumption
theorem SegKeeps.get {s0 s : State} {r : SegAct} (h : r = .taken s) (hk : SegKeeps s0 r) : Keeps s0 s := hk.h s h

/-- An optional action: the state is kept. -/
structure OptActKeeps (s0 : State) (r : Option Act) : Prop where
  h : ∀ t, r = some t → ActKeeps s0 t
theorem OptActKeeps.none {s0 : State} : OptActKeeps s0 none := ⟨by intro t ht; cases ht⟩
theorem OptActKeeps.some {s0 : State} {a : Act} (h : ActKeeps s0 a) : OptActKeeps s0 (some a) := ⟨by intro t ht; injection ht with ht; exact ht ▸ h⟩
theorem OptActKeeps.ite {s0 : State} {a b : Option Act} {p : Prop} [Decidable p] (ha : OptActKeeps s0 a) (hb : OptActKeeps s0 b) :
    OptActKeeps s0 (if p then a else b) := by
  split <;> assumption
theorem OptActKeeps.get {s0 : State} {a : Act} {r : Option Act} (h : r = Option.some a) (hk : OptActKeeps s0 r) : ActKeeps s0 a := hk.h a h

end Sys2Proof.Machine
end

