-- ==== Sys2Proof/Laws/Keeps/Ops.lean ====
section
/-! SUPPORT. What the operations of Machine/Ops.lean keep: the queue, monotone time, free values and life cycle, and the invariant. -/

namespace Sys2Proof.Machine
open Sys2Proof
set_option linter.all false
set_option Elab.async false

theorem State.setObj_keeps {s0 : State} {s : State} {ix : Nat} {sub : Nat} {v : Nat} (hs : Keeps s0 s) : Keeps s0 (State.setObj s ix sub v) := by
  unfold State.setObj
  try dsimp only
  repeat' first | intro _ | with_reducible first | assumption | apply Keeps.ite | (rw [State.mk_marked]; first | apply Keeps.upd | apply Keeps.updTime | apply Keeps.updFree | apply Keeps.updOd | apply Keeps.updFuses) | exact Nat.le_refl _ | exact id | exact Nat.le_add_right _ _ | (exact mset_wf _ _ _ _ (by assumption)) | exact Nat.mod_lt _ (by decide) | exact ⟨Nat.le_refl _, by assumption⟩ | split | dsimp only

theorem State.addObj_keeps {s0 : State} {s : State} {ix : Nat} {sub : Nat} {n : Nat} (hs : Keeps s0 s) : Keeps s0 (State.addObj s ix sub n) := by
  unfold State.addObj
  try dsimp only
  repeat' first | intro _ | with_reducible first | assumption | apply Keeps.ite | apply State.setObj_keeps | split | dsimp only

theorem State.addObjW_keeps {s0 : State} {s : State} {w : Nat} {ix : Nat} {sub : Nat} {n : Nat} (hs : Keeps s0 s) : Keeps s0 (State.addObjW s w ix sub n) := by
  unfold State.addObjW
  try dsimp only
  repeat' first | intro _ | with_reducible first | assumption | apply Keeps.ite | apply State.setObj_keeps | split | dsimp only

theorem State.bump_keeps {s0 : State} {s : State} {ix : Nat} {sub : Nat} (hs : Keeps s0 s) : Keeps s0 (State.bump s ix sub) := by
  unfold State.bump
  try dsimp only
  repeat' first | intro _ | with_reducible first | assumption | apply Keeps.ite | apply State.addObj_keeps | split | dsimp only

theorem State.setObji_keeps {s0 : State} {s : State} {i : Nat} {ix : Nat} {sub : Nat} {v : Nat} (hs : Keeps s0 s) : Keeps s0 (State.setObji s i ix sub v) := by
  unfold State.setObji
  try dsimp only
  repeat' first | intro _ | with_reducible first | assumption | apply Keeps.ite | (rw [State.mk_marked]; first | apply Keeps.upd | apply Keeps.updTime | apply Keeps.updFree | apply Keeps.updOd | apply Keeps.updFuses) | exact Nat.le_refl _ | exact id | exact Nat.le_add_right _ _ | (exact mset_wf _ _ _ _ (by assumption)) | exact Nat.mod_lt _ (by decide) | exact ⟨Nat.le_refl _, by assumption⟩ | split | dsimp only

theorem State.bumpi_keeps {s0 : State} {s : State} {i : Nat} {ix : Nat} {sub : Nat} (hs : Keeps s0 s) : Keeps s0 (State.bumpi s i ix sub) := by
  unfold State.bumpi
  try dsimp only
  repeat' first | intro _ | with_reducible first | assumption | apply Keeps.ite | apply State.setObji_keeps | split | dsimp only

theorem State.fresh_keeps {s0 : State} {s : State} (hs : Keeps s0 s) : Keeps s0 (State.fresh s).2 := by
  unfold State.fresh
  try dsimp only
  repeat' first | intro _ | with_reducible first | assumption | refine Keeps.snd (by assumption) ?_ | apply Keeps.ite | (rw [State.mk_marked]; first | apply Keeps.upd | apply Keeps.updTime | apply Keeps.updFree | apply Keeps.updOd | apply Keeps.updFuses) | exact Nat.le_refl _ | exact id | exact Nat.le_add_right _ _ | (exact mset_wf _ _ _ _ (by assumption)) | exact Nat.mod_lt _ (by decide) | exact ⟨Nat.le_refl _, by assumption⟩ | split | dsimp only

theorem State.setCore_keeps {s0 : State} {s : State} {c : Nat} {x3 : Core} (hs : Keeps s0 s) : Keeps s0 (State.setCore s c x3) := by
  unfold State.setCore
  try dsimp only
  repeat' first | intro _ | with_reducible first | assumption | apply Keeps.ite | (rw [State.mk_marked]; first | apply Keeps.upd | apply Keeps.updTime | apply Keeps.updFree | apply Keeps.updOd | apply Keeps.updFuses) | exact Nat.le_refl _ | exact id | exact Nat.le_add_right _ _ | (exact mset_wf _ _ _ _ (by assumption)) | exact Nat.mod_lt _ (by decide) | exact ⟨Nat.le_refl _, by assumption⟩ | split | dsimp only

theorem State.interrupt_keeps {s0 : State} {s : State} {c : Nat} {n : Nat} (hs : Keeps s0 s) : Keeps s0 (State.interrupt s c n) := by
  unfold State.interrupt
  try dsimp only
  repeat' first | intro _ | with_reducible first | assumption | apply Keeps.ite | apply State.setCore_keeps | split | dsimp only

theorem State.peak_keeps {s0 : State} {s : State} {ix : Nat} {sub : Nat} {v : Nat} (hs : Keeps s0 s) : Keeps s0 (State.peak s ix sub v) := by
  unfold State.peak
  try dsimp only
  repeat' first | intro _ | with_reducible first | assumption | apply Keeps.ite | apply State.setObj_keeps | split | dsimp only

theorem State.setHoop_keeps {s0 : State} {s : State} {h : Nat} {x3 : Hoop} (hs : Keeps s0 s) : Keeps s0 (State.setHoop s h x3) := by
  unfold State.setHoop
  try dsimp only
  repeat' first | intro _ | with_reducible first | assumption | apply Keeps.ite | (rw [State.mk_marked]; first | apply Keeps.upd | apply Keeps.updTime | apply Keeps.updFree | apply Keeps.updOd | apply Keeps.updFuses) | exact Nat.le_refl _ | exact id | exact Nat.le_add_right _ _ | (exact mset_wf _ _ _ _ (by assumption)) | exact Nat.mod_lt _ (by decide) | exact ⟨Nat.le_refl _, by assumption⟩ | split | dsimp only

theorem State.setLine_keeps {s0 : State} {s : State} {p : Nat} {x3 : PortLine} (hs : Keeps s0 s) : Keeps s0 (State.setLine s p x3) := by
  unfold State.setLine
  try dsimp only
  repeat' first | intro _ | with_reducible first | assumption | apply Keeps.ite | (rw [State.mk_marked]; first | apply Keeps.upd | apply Keeps.updTime | apply Keeps.updFree | apply Keeps.updOd | apply Keeps.updFuses) | exact Nat.le_refl _ | exact id | exact Nat.le_add_right _ _ | (exact mset_wf _ _ _ _ (by assumption)) | exact Nat.mod_lt _ (by decide) | exact ⟨Nat.le_refl _, by assumption⟩ | split | dsimp only

theorem State.setMotif_keeps {s0 : State} {s : State} {m : Nat} {x3 : Motif} (hs : Keeps s0 s) : Keeps s0 (State.setMotif s m x3) := by
  unfold State.setMotif
  try dsimp only
  repeat' first | intro _ | with_reducible first | assumption | apply Keeps.ite | (rw [State.mk_marked]; first | apply Keeps.upd | apply Keeps.updTime | apply Keeps.updFree | apply Keeps.updOd | apply Keeps.updFuses) | exact Nat.le_refl _ | exact id | exact Nat.le_add_right _ _ | (exact mset_wf _ _ _ _ (by assumption)) | exact Nat.mod_lt _ (by decide) | exact ⟨Nat.le_refl _, by assumption⟩ | split | dsimp only

theorem State.setObjBit_keeps {s0 : State} {s : State} {ix : Nat} {sub : Nat} {i : Nat} {b : Bool} (hs : Keeps s0 s) : Keeps s0 (State.setObjBit s ix sub i b) := by
  unfold State.setObjBit
  try dsimp only
  repeat' first | intro _ | with_reducible first | assumption | apply Keeps.ite | apply State.setObj_keeps | split | dsimp only

theorem State.setPath_keeps {s0 : State} {s : State} {p : Nat} {x3 : SdoPath} (hs : Keeps s0 s) : Keeps s0 (State.setPath s p x3) := by
  unfold State.setPath
  try dsimp only
  repeat' first | intro _ | with_reducible first | assumption | apply Keeps.ite | (rw [State.mk_marked]; first | apply Keeps.upd | apply Keeps.updTime | apply Keeps.updFree | apply Keeps.updOd | apply Keeps.updFuses) | exact Nat.le_refl _ | exact id | exact Nat.le_add_right _ _ | (exact mset_wf _ _ _ _ (by assumption)) | exact Nat.mod_lt _ (by decide) | exact ⟨Nat.le_refl _, by assumption⟩ | split | dsimp only

theorem State.setQueue_keeps {s0 : State} {s : State} {p : Nat} {q : List Entry} (hs : Keeps s0 s) : Keeps s0 (State.setQueue s p q) := by
  unfold State.setQueue
  try dsimp only
  repeat' first | intro _ | with_reducible first | assumption | apply Keeps.ite | (rw [State.mk_marked]; first | apply Keeps.upd | apply Keeps.updTime | apply Keeps.updFree | apply Keeps.updOd | apply Keeps.updFuses) | exact Nat.le_refl _ | exact id | exact Nat.le_add_right _ _ | (exact mset_wf _ _ _ _ (by assumption)) | exact Nat.mod_lt _ (by decide) | exact ⟨Nat.le_refl _, by assumption⟩ | split | dsimp only

theorem State.setSource_keeps {s0 : State} {s : State} {i : Nat} {x3 : Source} (hs : Keeps s0 s) : Keeps s0 (State.setSource s i x3) := by
  unfold State.setSource
  try dsimp only
  repeat' first | intro _ | with_reducible first | assumption | apply Keeps.ite | (rw [State.mk_marked]; first | apply Keeps.upd | apply Keeps.updTime | apply Keeps.updFree | apply Keeps.updOd | apply Keeps.updFuses) | exact Nat.le_refl _ | exact id | exact Nat.le_add_right _ _ | (exact mset_wf _ _ _ _ (by assumption)) | exact Nat.mod_lt _ (by decide) | exact ⟨Nat.le_refl _, by assumption⟩ | split | dsimp only

theorem State.setTxn_keeps {s0 : State} {s : State} {t : Nat} {x3 : Txn} (hs : Keeps s0 s) : Keeps s0 (State.setTxn s t x3) := by
  unfold State.setTxn
  try dsimp only
  repeat' first | intro _ | with_reducible first | assumption | apply Keeps.ite | (rw [State.mk_marked]; first | apply Keeps.upd | apply Keeps.updTime | apply Keeps.updFree | apply Keeps.updOd | apply Keeps.updFuses) | exact Nat.le_refl _ | exact id | exact Nat.le_add_right _ _ | (exact mset_wf _ _ _ _ (by assumption)) | exact Nat.mod_lt _ (by decide) | exact ⟨Nat.le_refl _, by assumption⟩ | split | dsimp only

theorem State.submit_keeps {s0 : State} {s : State} {i : Nat} {p : Packet} (hs : Keeps s0 s) : Keeps s0 (State.submit s i p) := by
  unfold State.submit
  try dsimp only
  repeat' first | intro _ | with_reducible first | assumption | apply Keeps.ite | apply State.setSource_keeps | split | dsimp only

theorem State.uninterrupt_keeps {s0 : State} {s : State} {c : Nat} {n : Nat} (hs : Keeps s0 s) : Keeps s0 (State.uninterrupt s c n) := by
  unfold State.uninterrupt
  try dsimp only
  repeat' first | intro _ | with_reducible first | assumption | apply Keeps.ite | apply State.setCore_keeps | split | dsimp only

theorem serviceSend_keeps {s0 : State} {ident : Nat} {bs : List Byte} {s : State} (hs : Keeps s0 s) : Keeps s0 (serviceSend ident bs s) := by
  unfold serviceSend
  try dsimp only
  repeat' first | intro _ | with_reducible first | assumption | apply Keeps.ite | apply State.bump_keeps | (rw [State.mk_marked]; first | apply Keeps.upd | apply Keeps.updTime | apply Keeps.updFree | apply Keeps.updOd | apply Keeps.updFuses) | exact Nat.le_refl _ | exact id | exact Nat.le_add_right _ _ | (exact mset_wf _ _ _ _ (by assumption)) | exact Nat.mod_lt _ (by decide) | exact ⟨Nat.le_refl _, by assumption⟩ | split | dsimp only

theorem canAnswer_keeps {s0 : State} {a : SdoAnswer} {s : State} (hs : Keeps s0 s) : Keeps s0 (canAnswer a s) := by
  unfold canAnswer
  try dsimp only
  repeat' first | intro _ | with_reducible first | assumption | apply Keeps.ite | apply serviceSend_keeps | (rw [State.mk_marked]; first | apply Keeps.upd | apply Keeps.updTime | apply Keeps.updFree | apply Keeps.updOd | apply Keeps.updFuses) | exact Nat.le_refl _ | exact id | exact Nat.le_add_right _ _ | (exact mset_wf _ _ _ _ (by assumption)) | exact Nat.mod_lt _ (by decide) | exact ⟨Nat.le_refl _, by assumption⟩ | split | dsimp only

theorem answerSent_keeps {s0 : State} {path : Nat} {a : SdoAnswer} {s : State} (hs : Keeps s0 s) : Keeps s0 (answerSent path a s) := by
  unfold answerSent
  try dsimp only
  repeat' first | intro _ | with_reducible first | assumption | apply Keeps.ite | apply canAnswer_keeps | (rw [State.mk_marked]; first | apply Keeps.upd | apply Keeps.updTime | apply Keeps.updFree | apply Keeps.updOd | apply Keeps.updFuses) | exact Nat.le_refl _ | exact id | exact Nat.le_add_right _ _ | (exact mset_wf _ _ _ _ (by assumption)) | exact Nat.mod_lt _ (by decide) | exact ⟨Nat.le_refl _, by assumption⟩ | split | dsimp only

theorem latencyShown_keeps {s0 : State} {path : Nat} {timed : Bool} {s : State} (hs : Keeps s0 s) : Keeps s0 (latencyShown path timed s) := by
  unfold latencyShown
  try dsimp only
  repeat' first | intro _ | with_reducible first | assumption | refine Keeps.snd (by assumption) ?_ | apply Keeps.ite | apply State.fresh_keeps | (rw [State.mk_marked]; first | apply Keeps.upd | apply Keeps.updTime | apply Keeps.updFree | apply Keeps.updOd | apply Keeps.updFuses) | exact Nat.le_refl _ | exact id | exact Nat.le_add_right _ _ | (exact mset_wf _ _ _ _ (by assumption)) | exact Nat.mod_lt _ (by decide) | exact ⟨Nat.le_refl _, by assumption⟩ | split | dsimp only

theorem answeredPart_keeps {s0 : State} {path : Nat} {cap : Nat} {r : Reply} (hr : Keeps s0 r.state) : Keeps s0 (answeredPart path cap r) := by
  unfold answeredPart
  try dsimp only
  repeat' first | intro _ | with_reducible first | assumption | apply Keeps.ite | apply State.bump_keeps | apply latencyShown_keeps | apply State.setPath_keeps | apply answerSent_keeps | (rw [State.mk_marked]; first | apply Keeps.upd | apply Keeps.updTime | apply Keeps.updFree | apply Keeps.updOd | apply Keeps.updFuses) | exact Nat.le_refl _ | exact id | exact Nat.le_add_right _ _ | (exact mset_wf _ _ _ _ (by assumption)) | exact Nat.mod_lt _ (by decide) | exact ⟨Nat.le_refl _, by assumption⟩ | split | dsimp only

theorem answered_keeps {s0 : State} {path : Nat} {r : Reply} (hr : Keeps s0 r.state) : Keeps s0 (answered path r) := by
  unfold answered
  try dsimp only
  repeat' first | intro _ | with_reducible first | assumption | apply Keeps.ite | apply answeredPart_keeps | split | dsimp only

theorem mailArrives_keeps {s0 : State} {s : State} (hs : Keeps s0 s) : Keeps s0 (mailArrives s) := by
  unfold mailArrives
  try dsimp only
  repeat' first | intro _ | with_reducible first | assumption | apply Keeps.ite | apply State.interrupt_keeps | split | dsimp only

theorem arrives_keeps {s0 : State} {path : Nat} {s : State} (hs : Keeps s0 s) : Keeps s0 (arrives path s) := by
  unfold arrives
  try dsimp only
  repeat' first | intro _ | with_reducible first | assumption | apply Keeps.ite | apply mailArrives_keeps | split | dsimp only

theorem imageRegs_keeps {s0 : State} {c : Nat} {s : State} (hs : Keeps s0 s) : Keeps s0 (imageRegs c s) := by
  unfold imageRegs
  try dsimp only
  repeat' first | intro _ | with_reducible first | assumption | refine Keeps.snd (by assumption) ?_ | apply Keeps.ite | apply State.fresh_keeps | apply State.setCore_keeps | split | dsimp only

theorem sdoTurned_keeps {s0 : State} {p : Nat} {s : State} (hs : Keeps s0 s) : Keeps s0 (sdoTurned p s) := by
  unfold sdoTurned
  try dsimp only
  repeat' first | intro _ | with_reducible first | assumption | apply Keeps.ite | apply State.bump_keeps | split | dsimp only

theorem sdoQueue_keeps {s0 : State} {q : SdoReq} {s : State} (hs : Keeps s0 s) : Keeps s0 (sdoQueue q s) := by
  unfold sdoQueue
  try dsimp only
  repeat' first | intro _ | with_reducible first | assumption | apply Keeps.ite | apply State.setPath_keeps | (rw [State.mk_marked]; first | apply Keeps.upd | apply Keeps.updTime | apply Keeps.updFree | apply Keeps.updOd | apply Keeps.updFuses) | exact Nat.le_refl _ | exact id | exact Nat.le_add_right _ _ | (exact mset_wf _ _ _ _ (by assumption)) | exact Nat.mod_lt _ (by decide) | exact ⟨Nat.le_refl _, by assumption⟩ | split | dsimp only

theorem sdoStart_keeps {s0 : State} {path : Nat} {s : State} (hs : Keeps s0 s) : Keeps s0 (sdoStart path s) := by
  unfold sdoStart
  try dsimp only
  repeat' first | intro _ | with_reducible first | assumption | apply Keeps.ite | apply State.setPath_keeps | (rw [State.mk_marked]; first | apply Keeps.upd | apply Keeps.updTime | apply Keeps.updFree | apply Keeps.updOd | apply Keeps.updFuses) | exact Nat.le_refl _ | exact id | exact Nat.le_add_right _ _ | (exact mset_wf _ _ _ _ (by assumption)) | exact Nat.mod_lt _ (by decide) | exact ⟨Nat.le_refl _, by assumption⟩ | split | dsimp only

theorem sdoAct_keeps {s0 : State} {q : SdoReq} {f : State → Nat ⊕ State} {s : State} (hf : ∀ v0, Keeps s0 v0 → SumKeeps s0 (f v0)) (hs : Keeps s0 s) : Keeps s0 (sdoAct q f s) := by
  unfold sdoAct
  try dsimp only
  repeat' first | intro _ | with_reducible first | assumption | apply hf | refine SumKeeps.get (by assumption) ?_ | apply Keeps.ite | apply Keeps.ok | apply Keeps.refuse | apply Keeps.iteR | apply sdoTurned_keeps | apply sdoQueue_keeps | apply mailArrives_keeps | apply answered_keeps | apply sdoStart_keeps | split | dsimp only

theorem sdoAction_keeps {s0 : State} {path : Nat} {ix : Nat} {sub : Nat} {size : Nat} {v : Nat} {f : State → Nat ⊕ State} {s : State} (hf : ∀ v0, Keeps s0 v0 → SumKeeps s0 (f v0)) (hs : Keeps s0 s) : Keeps s0 (sdoAction path ix sub size v f s) := by
  unfold sdoAction
  try dsimp only
  repeat' first | intro _ | with_reducible first | assumption | apply hf | refine SumKeeps.get (by assumption) ?_ | apply Keeps.ite | apply sdoAct_keeps | split | dsimp only

theorem sdoServe_keeps {s0 : State} {q : SdoReq} {f : State → Reply} {s : State} (hf : ∀ v0, Keeps s0 v0 → Keeps s0 (f v0).state) (hs : Keeps s0 s) : Keeps s0 (sdoServe q f s) := by
  unfold sdoServe
  try dsimp only
  repeat' first | intro _ | with_reducible first | assumption | apply hf | apply Keeps.ite | apply Keeps.ok | apply Keeps.refuse | apply Keeps.iteR | apply sdoTurned_keeps | apply sdoQueue_keeps | apply mailArrives_keeps | apply answered_keeps | split | dsimp only

theorem sdoWrite_keeps {s0 : State} {path : Nat} {ix : Nat} {sub : Nat} {size : Nat} {v : Nat} {f : State → Reply} {s : State} (hf : ∀ v0, Keeps s0 v0 → Keeps s0 (f v0).state) (hs : Keeps s0 s) : Keeps s0 (sdoWrite path ix sub size v f s) := by
  unfold sdoWrite
  try dsimp only
  repeat' first | intro _ | with_reducible first | assumption | apply hf | apply Keeps.ite | apply sdoServe_keeps | split | dsimp only

end Sys2Proof.Machine
end

