-- ==== Sys2Proof/Laws/Keeps/LinkOps.lean ====
section
/-! SUPPORT. What the operations of Machine/LinkOps.lean keep: the queue, monotone time, free values and life cycle, and the invariant. -/

namespace Sys2Proof.Machine
open Sys2Proof
set_option linter.all false
set_option Elab.async false

theorem State.setLink_keeps {s0 : State} {s : State} {l : Nat} {x3 : Link} (hs : Keeps s0 s) : Keeps s0 (State.setLink s l x3) := by
  unfold State.setLink
  try dsimp only
  repeat' first | intro _ | with_reducible first | assumption | apply Keeps.ite | (rw [State.mk_marked]; first | apply Keeps.upd | apply Keeps.updTime | apply Keeps.updFree | apply Keeps.updOd | apply Keeps.updFuses) | split | dsimp only

theorem linkTransmit_keeps {s0 : State} {l : Nat} {f : LinkFrame} {s : State} (hs : Keeps s0 s) : Keeps s0 (linkTransmit l f s) := by
  unfold linkTransmit
  try dsimp only
  repeat' first | intro _ | with_reducible first | assumption | apply Keeps.ite | apply State.bumpi_keeps | apply State.setLink_keeps | split | dsimp only

theorem linkDrain_keeps {s0 : State} {l : Nat} {s : State} (hs : Keeps s0 s) : Keeps s0 (linkDrain l s) := by
  unfold linkDrain
  try dsimp only
  repeat' first | intro _ | with_reducible first | assumption | apply Keeps.ite | apply linkTransmit_keeps | apply State.setLink_keeps | apply Keeps.foldl | split | dsimp only

theorem linkAcked_keeps {s0 : State} {l : Nat} {ack : Nat} {s : State} (hs : Keeps s0 s) : Keeps s0 (linkAcked l ack s) := by
  unfold linkAcked
  try dsimp only
  repeat' first | intro _ | with_reducible first | assumption | apply Keeps.ite | apply linkDrain_keeps | apply State.setLink_keeps | split | dsimp only

theorem linkFall_keeps {s0 : State} {l : Nat} {s : State} (hs : Keeps s0 s) : Keeps s0 (linkFall l s) := by
  unfold linkFall
  try dsimp only
  repeat' first | intro _ | with_reducible first | assumption | apply Keeps.ite | apply State.setLink_keeps | apply State.setLine_keeps | apply State.setObji_keeps | split | dsimp only

theorem linkSend_keeps {s0 : State} {l : Nat} {f : LinkFrame} {s : State} (hs : Keeps s0 s) : Keeps s0 (linkSend l f s) := by
  unfold linkSend
  try dsimp only
  repeat' first | intro _ | with_reducible first | assumption | apply Keeps.ite | apply linkTransmit_keeps | apply State.setLink_keeps | split | dsimp only

theorem linkTrain_keeps {s0 : State} {l : Nat} {s : State} (hs : Keeps s0 s) : Keeps s0 (linkTrain l s) := by
  unfold linkTrain
  try dsimp only
  repeat' first | intro _ | with_reducible first | assumption | apply Keeps.ite | apply State.setObji_keeps | split | dsimp only

theorem sendVotes_keeps {s0 : State} {s : State} (hs : Keeps s0 s) : Keeps s0 (sendVotes s) := by
  unfold sendVotes
  try dsimp only
  repeat' first | intro _ | with_reducible first | assumption | apply Keeps.ite | apply linkSend_keeps | apply State.setLink_keeps | apply Keeps.foldl | split | dsimp only

end Sys2Proof.Machine
end

