-- ==== Sys2Proof/Laws/Keeps/JournalOps.lean ====
section
/-! SUPPORT. What the operations of Machine/JournalOps.lean keep: the queue, monotone time, free values and life cycle, and the invariant. -/

namespace Sys2Proof.Machine
open Sys2Proof
set_option linter.all false
set_option Elab.async false

theorem State.setJournal_keeps {s0 : State} {s : State} {j : Journal} (hs : Keeps s0 s) : Keeps s0 (State.setJournal s j) := by
  unfold State.setJournal
  try dsimp only
  repeat' first | intro _ | with_reducible first | assumption | apply Keeps.ite | (rw [State.mk_marked]; first | apply Keeps.upd | apply Keeps.updTime | apply Keeps.updFree | apply Keeps.updOd | apply Keeps.updFuses) | split | dsimp only

theorem State.setVol_keeps {s0 : State} {s : State} {d : Nat} {v : DriveVol} (hs : Keeps s0 s) : Keeps s0 (State.setVol s d v) := by
  unfold State.setVol
  try dsimp only
  repeat' first | intro _ | with_reducible first | assumption | apply Keeps.ite | (rw [State.mk_marked]; first | apply Keeps.upd | apply Keeps.updTime | apply Keeps.updFree | apply Keeps.updOd | apply Keeps.updFuses) | split | dsimp only

theorem nvIssueDrive_keeps {s0 : State} {a : Nat} {a2 : Nat} {a3 : State} (ha3 : Keeps s0 a3) : Keeps s0 (nvIssueDrive a a2 a3) := by
  induction a generalizing a2 a3 with
  | zero =>
    unfold nvIssueDrive
    try dsimp only
    repeat' first | intro _ | with_reducible first | assumption | apply Keeps.ite | apply State.setJournal_keeps | (rw [State.mk_marked]; first | apply Keeps.upd | apply Keeps.updTime | apply Keeps.updFree | apply Keeps.updOd | apply Keeps.updFuses) | split | dsimp only
  | succ n ih =>
    unfold nvIssueDrive
    try dsimp only
    repeat' first | intro _ | with_reducible first | assumption | apply ih | apply Keeps.ite | apply State.setJournal_keeps | (rw [State.mk_marked]; first | apply Keeps.upd | apply Keeps.updTime | apply Keeps.updFree | apply Keeps.updOd | apply Keeps.updFuses) | split | dsimp only

theorem nvIssue_keeps {s0 : State} {s : State} (hs : Keeps s0 s) : Keeps s0 (nvIssue s) := by
  unfold nvIssue
  try dsimp only
  repeat' first | intro _ | with_reducible first | assumption | apply Keeps.ite | apply nvIssueDrive_keeps | split | dsimp only

theorem nvWrite_keeps {s0 : State} {c : NvCmd} {s : State} (hs : Keeps s0 s) : Keeps s0 (nvWrite c s) := by
  unfold nvWrite
  try dsimp only
  repeat' first | intro _ | with_reducible first | assumption | apply Keeps.ite | apply nvIssue_keeps | apply State.setJournal_keeps | split | dsimp only

theorem closeSegment_keeps {s0 : State} {n : Nat} {s : State} (hs : Keeps s0 s) : Keeps s0 (closeSegment n s) := by
  unfold closeSegment
  try dsimp only
  repeat' first | intro _ | with_reducible first | assumption | apply Keeps.ite | apply nvWrite_keeps | split | dsimp only

theorem journalShow_keeps {s0 : State} {s : State} (hs : Keeps s0 s) : Keeps s0 (journalShow s) := by
  unfold journalShow
  try dsimp only
  repeat' first | intro _ | with_reducible first | assumption | apply Keeps.ite | apply State.setObj_keeps | apply Keeps.foldl | split | dsimp only

theorem openSegment_keeps {s0 : State} {area : Nat} {s : State} (hs : Keeps s0 s) : Keeps s0 (openSegment area s) := by
  unfold openSegment
  try dsimp only
  repeat' first | intro _ | with_reducible first | assumption | apply Keeps.ite | apply journalShow_keeps | apply nvWrite_keeps | apply State.setJournal_keeps | split | dsimp only

theorem roomInSegment_keeps {s0 : State} {area : Nat} {s : State} (hs : Keeps s0 s) : Keeps s0 (roomInSegment area s) := by
  unfold roomInSegment
  try dsimp only
  repeat' first | intro _ | with_reducible first | assumption | apply Keeps.ite | apply openSegment_keeps | apply closeSegment_keeps | split | dsimp only

theorem journalBlockWrite_keeps {s0 : State} {rs : List JRec} {s : State} (hs : Keeps s0 s) : Keeps s0 (journalBlockWrite rs s) := by
  unfold journalBlockWrite
  try dsimp only
  repeat' first | intro _ | with_reducible first | assumption | apply Keeps.ite | apply roomInSegment_keeps | apply State.setJournal_keeps | apply journalShow_keeps | apply nvWrite_keeps | apply Keeps.foldl | split | dsimp only

theorem traceWrite_keeps {s0 : State} {b : TraceBlock} {s : State} (hs : Keeps s0 s) : Keeps s0 (traceWrite b s) := by
  unfold traceWrite
  try dsimp only
  repeat' first | intro _ | with_reducible first | assumption | apply Keeps.ite | apply roomInSegment_keeps | apply State.setJournal_keeps | apply nvWrite_keeps | split | dsimp only

end Sys2Proof.Machine
end

