-- ==== Sys2Proof/Laws/Keeps/Record.lean ====
section
/-! SUPPORT. What the operations of Machine/Record.lean keep: the queue, monotone time, free values and life cycle, and the invariant. -/

namespace Sys2Proof.Machine
open Sys2Proof
set_option linter.all false
set_option Elab.async false

theorem alarmNUpdate_keeps {s0 : State} {s : State} (hs : Keeps s0 s) : Keeps s0 (alarmNUpdate s) := by
  unfold alarmNUpdate
  try dsimp only
  repeat' first | intro _ | with_reducible first | assumption | apply Keeps.ite | apply State.setObj_keeps | split | dsimp only

theorem mailPump_keeps {s0 : State} {s : State} (hs : Keeps s0 s) : Keeps s0 (mailPump s) := by
  unfold mailPump
  try dsimp only
  repeat' first | intro _ | with_reducible first | assumption | apply Keeps.ite | (rw [State.mk_marked]; first | apply Keeps.upd | apply Keeps.updTime | apply Keeps.updFree | apply Keeps.updOd | apply Keeps.updFuses) | split | dsimp only

theorem emcyQueue_keeps {s0 : State} {e : Emcy} {s : State} (hs : Keeps s0 s) : Keeps s0 (emcyQueue e s) := by
  unfold emcyQueue
  try dsimp only
  repeat' first | intro _ | with_reducible first | assumption | apply Keeps.ite | apply mailPump_keeps | apply State.bump_keeps | (rw [State.mk_marked]; first | apply Keeps.upd | apply Keeps.updTime | apply Keeps.updFree | apply Keeps.updOd | apply Keeps.updFuses) | split | dsimp only

theorem errorFieldPush_keeps {s0 : State} {code : Nat} {alarm : Nat} {s : State} (hs : Keeps s0 s) : Keeps s0 (errorFieldPush code alarm s) := by
  unfold errorFieldPush
  try dsimp only
  repeat' first | intro _ | with_reducible first | assumption | apply Keeps.ite | apply State.setObj_keeps | apply Keeps.foldl | split | dsimp only

theorem emcySend_keeps {s0 : State} {a : Nat} {t : Nat} {c : Category} {s : State} (hs : Keeps s0 s) : Keeps s0 (emcySend a t c s) := by
  unfold emcySend
  try dsimp only
  repeat' first | intro _ | with_reducible first | assumption | apply Keeps.ite | apply State.setObj_keeps | apply emcyQueue_keeps | apply errorFieldPush_keeps | apply State.interrupt_keeps | split | dsimp only

theorem alarmLatch_keeps {s0 : State} {a : Nat} {t : Nat} {s : State} (hs : Keeps s0 s) : Keeps s0 (alarmLatch a t s).1 := by
  unfold alarmLatch
  try dsimp only
  repeat' first | intro _ | with_reducible first | assumption | refine Keeps.snd (by assumption) ?_ | refine Keeps.fst (by assumption) ?_ | apply Keeps.ite | apply alarmNUpdate_keeps | apply State.setObjBit_keeps | apply emcySend_keeps | (rw [State.mk_marked]; first | apply Keeps.upd | apply Keeps.updTime | apply Keeps.updFree | apply Keeps.updOd | apply Keeps.updFuses) | split | dsimp only

theorem deviceShow_keeps {s0 : State} {s : State} (hs : Keeps s0 s) : Keeps s0 (deviceShow s) := by
  unfold deviceShow
  try dsimp only
  repeat' first | intro _ | with_reducible first | assumption | apply Keeps.ite | apply State.setObj_keeps | split | dsimp only

theorem samplerShow_keeps {s0 : State} {s : State} (hs : Keeps s0 s) : Keeps s0 (samplerShow s) := by
  unfold samplerShow
  try dsimp only
  repeat' first | intro _ | with_reducible first | assumption | apply Keeps.ite | apply State.setObj_keeps | split | dsimp only

theorem samplerStore_keeps {s0 : State} {s : State} {typ : Nat} {t : Nat} {payload : List Byte} (hs : Keeps s0 s) : Keeps s0 (samplerStore s typ t payload) := by
  unfold samplerStore
  try dsimp only
  repeat' first | intro _ | with_reducible first | assumption | apply Keeps.ite | apply samplerShow_keeps | (rw [State.mk_marked]; first | apply Keeps.upd | apply Keeps.updTime | apply Keeps.updFree | apply Keeps.updOd | apply Keeps.updFuses) | split | dsimp only

theorem samplerOffer_keeps {s0 : State} {typ : Nat} {t : Nat} {payload : List Byte} {s : State} (hs : Keeps s0 s) : Keeps s0 (samplerOffer typ t payload s).1 := by
  unfold samplerOffer
  try dsimp only
  repeat' first | intro _ | with_reducible first | assumption | refine Keeps.snd (by assumption) ?_ | refine Keeps.fst (by assumption) ?_ | apply Keeps.ite | apply samplerStore_keeps | apply State.fresh_keeps | apply State.setObj_keeps | apply State.bump_keeps | (rw [State.mk_marked]; first | apply Keeps.upd | apply Keeps.updTime | apply Keeps.updFree | apply Keeps.updOd | apply Keeps.updFuses) | split | dsimp only

theorem journalDropped_keeps {s0 : State} {r : JRec} {s : State} (hs : Keeps s0 s) : Keeps s0 (journalDropped r s) := by
  unfold journalDropped
  try dsimp only
  repeat' first | intro _ | with_reducible first | assumption | apply Keeps.ite | apply State.bump_keeps | (rw [State.mk_marked]; first | apply Keeps.upd | apply Keeps.updTime | apply Keeps.updFree | apply Keeps.updOd | apply Keeps.updFuses) | split | dsimp only

theorem journalGap_keeps {s0 : State} {s : State} (hs : Keeps s0 s) : Keeps s0 (journalGap s) := by
  unfold journalGap
  try dsimp only
  repeat' first | intro _ | with_reducible first | assumption | apply Keeps.ite | (rw [State.mk_marked]; first | apply Keeps.upd | apply Keeps.updTime | apply Keeps.updFree | apply Keeps.updOd | apply Keeps.updFuses) | split | dsimp only

theorem journalAppend_keeps {s0 : State} {r : JRec} {s : State} (hs : Keeps s0 s) : Keeps s0 (journalAppend r s) := by
  unfold journalAppend
  try dsimp only
  repeat' first | intro _ | with_reducible first | assumption | apply Keeps.ite | (rw [State.mk_marked]; first | apply Keeps.upd | apply Keeps.updTime | apply Keeps.updFree | apply Keeps.updOd | apply Keeps.updFuses) | split | dsimp only

theorem journalEnter_keeps {s0 : State} {r : JRec} {s : State} (hs : Keeps s0 s) : Keeps s0 (journalEnter r s).1 := by
  unfold journalEnter
  try dsimp only
  repeat' first | intro _ | with_reducible first | assumption | refine Keeps.snd (by assumption) ?_ | refine Keeps.fst (by assumption) ?_ | apply Keeps.ite | apply journalDropped_keeps | apply journalGap_keeps | apply State.bump_keeps | apply journalAppend_keeps | apply State.peak_keeps | (rw [State.mk_marked]; first | apply Keeps.upd | apply Keeps.updTime | apply Keeps.updFree | apply Keeps.updOd | apply Keeps.updFuses) | split | dsimp only

theorem handleEv_keeps {s0 : State} {s : State} {a : Ev} (hs : Keeps s0 s) : Keeps s0 (handleEv s a).1 := by
  unfold handleEv
  try dsimp only
  repeat' first | intro _ | with_reducible first | assumption | refine Keeps.snd (by assumption) ?_ | refine Keeps.fst (by assumption) ?_ | apply Keeps.ite | apply alarmLatch_keeps | apply samplerOffer_keeps | apply journalEnter_keeps | split | dsimp only

theorem runEvs_keeps {s0 : State} {a : Nat} {a2 : List Ev} {a3 : State} (ha3 : Keeps s0 a3) : Keeps s0 (runEvs a a2 a3) := by
  induction a generalizing a2 a3 with
  | zero => exact ha3
  | succ n ih =>
    cases a2 with
    | nil => exact ha3
    | cons e es => exact ih (handleEv_keeps ha3)

theorem emit_keeps {s0 : State} {e : Ev} {s : State} (hs : Keeps s0 s) : Keeps s0 (emit e s) := by
  unfold emit
  try dsimp only
  repeat' first | intro _ | with_reducible first | assumption | apply Keeps.ite | apply runEvs_keeps | split | dsimp only

theorem raise_keeps {s0 : State} {a : Nat} {s : State} (hs : Keeps s0 s) : Keeps s0 (raise a s) := by
  unfold raise
  try dsimp only
  repeat' first | intro _ | with_reducible first | assumption | apply Keeps.ite | apply emit_keeps | split | dsimp only

theorem setCond_keeps {s0 : State} {a : Nat} {holds : Bool} {s : State} (hs : Keeps s0 s) : Keeps s0 (setCond a holds s) := by
  unfold setCond
  try dsimp only
  repeat' first | intro _ | with_reducible first | assumption | apply Keeps.ite | apply raise_keeps | (rw [State.mk_marked]; first | apply Keeps.upd | apply Keeps.updTime | apply Keeps.updFree | apply Keeps.updOd | apply Keeps.updFuses) | split | dsimp only

theorem setDegraded_keeps {s0 : State} {b : Nat} {v : Bool} {s : State} (hs : Keeps s0 s) : Keeps s0 (setDegraded b v s) := by
  unfold setDegraded
  try dsimp only
  repeat' first | intro _ | with_reducible first | assumption | apply Keeps.ite | apply setCond_keeps | apply deviceShow_keeps | apply State.setObjBit_keeps | split | dsimp only

theorem sparesShow_keeps {s0 : State} {s : State} (hs : Keeps s0 s) : Keeps s0 (sparesShow s) := by
  unfold sparesShow
  try dsimp only
  repeat' first | intro _ | with_reducible first | assumption | apply Keeps.ite | apply setDegraded_keeps | split | dsimp only

theorem noteSpares_keeps {s0 : State} {m : Nat} {s : State} (hs : Keeps s0 s) : Keeps s0 (noteSpares m s) := by
  unfold noteSpares
  try dsimp only
  repeat' first | intro _ | with_reducible first | assumption | apply Keeps.ite | apply sparesShow_keeps | apply State.setObjBit_keeps | split | dsimp only

theorem ringSet_keeps {s0 : State} {b : TraceBlock} {s : State} (hs : Keeps s0 s) : Keeps s0 (ringSet b s) := by
  unfold ringSet
  try dsimp only
  repeat' first | intro _ | with_reducible first | assumption | apply Keeps.ite | (rw [State.mk_marked]; first | apply Keeps.upd | apply Keeps.updTime | apply Keeps.updFree | apply Keeps.updOd | apply Keeps.updFuses) | split | dsimp only

theorem ringRequest_keeps {s0 : State} {kind : Nat} {slot : Nat} {k : Nat} {bs : List Byte} {s : State} (hs : Keeps s0 s) : Keeps s0 (ringRequest kind slot k bs s) := by
  unfold ringRequest
  try dsimp only
  repeat' first | intro _ | with_reducible first | assumption | apply Keeps.ite | apply State.submit_keeps | split | dsimp only

theorem ringRead_keeps {s0 : State} {kind : Nat} {slot : Nat} {s : State} (hs : Keeps s0 s) : Keeps s0 (ringRead kind slot s) := by
  unfold ringRead
  try dsimp only
  repeat' first | intro _ | with_reducible first | assumption | apply Keeps.ite | apply ringRequest_keeps | apply Keeps.foldl | split | dsimp only

theorem ringAck_keeps {s0 : State} {tag : Nat} {s : State} (hs : Keeps s0 s) : Keeps s0 (ringAck tag s) := by
  unfold ringAck
  try dsimp only
  repeat' first | intro _ | with_reducible first | assumption | apply Keeps.ite | apply ringSet_keeps | apply State.interrupt_keeps | apply ringRead_keeps | split | dsimp only

theorem ringData_keeps {s0 : State} {p : Packet} {s : State} (hs : Keeps s0 s) : Keeps s0 (ringData p s) := by
  unfold ringData
  try dsimp only
  repeat' first | intro _ | with_reducible first | assumption | apply Keeps.ite | apply ringRequest_keeps | apply ringSet_keeps | apply traceWrite_keeps | (rw [State.mk_marked]; first | apply Keeps.upd | apply Keeps.updTime | apply Keeps.updFree | apply Keeps.updOd | apply Keeps.updFuses) | split | dsimp only

theorem ringWrite_keeps {s0 : State} {kind : Nat} {slot : Nat} {bs : List Byte} {s : State} (hs : Keeps s0 s) : Keeps s0 (ringWrite kind slot bs s) := by
  unfold ringWrite
  try dsimp only
  repeat' first | intro _ | with_reducible first | assumption | apply Keeps.ite | apply ringRequest_keeps | apply Keeps.foldl | split | dsimp only

theorem sample_keeps {s0 : State} {typ : Nat} {payload : List Byte} {s : State} (hs : Keeps s0 s) : Keeps s0 (sample typ payload s) := by
  unfold sample
  try dsimp only
  repeat' first | intro _ | with_reducible first | assumption | apply Keeps.ite | apply emit_keeps | split | dsimp only

theorem traceClose_keeps {s0 : State} {s : State} (hs : Keeps s0 s) : Keeps s0 (traceClose s) := by
  unfold traceClose
  try dsimp only
  repeat' first | intro _ | with_reducible first | assumption | apply Keeps.ite | apply State.bump_keeps | apply ringWrite_keeps | (rw [State.mk_marked]; first | apply Keeps.upd | apply Keeps.updTime | apply Keeps.updFree | apply Keeps.updOd | apply Keeps.updFuses) | split | dsimp only

theorem traceBlockPut_keeps {s0 : State} {e : TraceEntry} {s : State} (hs : Keeps s0 s) : Keeps s0 (traceBlockPut e s) := by
  unfold traceBlockPut
  try dsimp only
  repeat' first | intro _ | with_reducible first | assumption | apply Keeps.ite | apply traceClose_keeps | (rw [State.mk_marked]; first | apply Keeps.upd | apply Keeps.updTime | apply Keeps.updFree | apply Keeps.updOd | apply Keeps.updFuses) | split | dsimp only

theorem traceDrain_keeps {s0 : State} {source : Nat} {s : State} (hs : Keeps s0 s) : Keeps s0 (traceDrain source s) := by
  unfold traceDrain
  try dsimp only
  repeat' first | intro _ | with_reducible first | assumption | apply Keeps.ite | apply traceBlockPut_keeps | apply Keeps.foldl | (rw [State.mk_marked]; first | apply Keeps.upd | apply Keeps.updTime | apply Keeps.updFree | apply Keeps.updOd | apply Keeps.updFuses) | split | dsimp only

theorem traceEmit_keeps {s0 : State} {e : TraceEntry} {s : State} (hs : Keeps s0 s) : Keeps s0 (traceEmit e s) := by
  unfold traceEmit
  try dsimp only
  repeat' first | intro _ | with_reducible first | assumption | apply Keeps.ite | apply State.bump_keeps | (rw [State.mk_marked]; first | apply Keeps.upd | apply Keeps.updTime | apply Keeps.updFree | apply Keeps.updOd | apply Keeps.updFuses) | split | dsimp only

end Sys2Proof.Machine
end

