-- ==== Sys2Proof/Laws/Keeps/Plane.lean ====
section
/-! SUPPORT. What the operations of Machine/Plane.lean keep: the queue, monotone time, free values and life cycle, and the invariant. -/

namespace Sys2Proof.Machine
open Sys2Proof
set_option linter.all false
set_option Elab.async false

theorem State.setCls_keeps {s0 : State} {s : State} {planeB : Bool} {c : Nat} {d : ClassDecl} (hs : Keeps s0 s) : Keeps s0 (State.setCls s planeB c d) := by
  unfold State.setCls
  try dsimp only
  repeat' first | intro _ | with_reducible first | assumption | apply Keeps.ite | (rw [State.mk_marked]; first | apply Keeps.upd | apply Keeps.updTime | apply Keeps.updFree | apply Keeps.updOd | apply Keeps.updFuses) | split | dsimp only

theorem coState_keeps {s0 : State} {new : Nat} {s : State} (hs : Keeps s0 s) : Keeps s0 (coState new s) := by
  unfold coState
  try dsimp only
  repeat' first | intro _ | with_reducible first | assumption | apply Keeps.ite | apply State.interrupt_keeps | apply State.setObj_keeps | apply sendVotes_keeps | apply sample_keeps | split | dsimp only

theorem coAbandon_keeps {s0 : State} {reason : Nat} {s : State} (hs : Keeps s0 s) : Keeps s0 (coAbandon reason s) := by
  unfold coAbandon
  try dsimp only
  repeat' first | intro _ | with_reducible first | assumption | apply Keeps.ite | apply coState_keeps | apply State.setObj_keeps | split | dsimp only

theorem enterStream_keeps {s0 : State} {initiator : Nat} {stream : Nat} {t : Token} {s : State} (hs : Keeps s0 s) : Keeps s0 (enterStream initiator stream t s) := by
  unfold enterStream
  try dsimp only
  repeat' first | intro _ | with_reducible first | assumption | apply Keeps.ite | apply State.bump_keeps | apply State.submit_keeps | split | dsimp only

theorem enterFabric_keeps {s0 : State} {initiator : Nat} {index : Nat} {t : Token} {s : State} (hs : Keeps s0 s) : Keeps s0 (enterFabric initiator index t s) := by
  unfold enterFabric
  try dsimp only
  repeat' first | intro _ | with_reducible first | assumption | apply Keeps.ite | apply State.bump_keeps | apply enterStream_keeps | split | dsimp only

theorem enterFree_keeps {s0 : State} {initiator : Nat} {stream : Nat} {t : Token} {s : State} (hs : Keeps s0 s) : Keeps s0 (enterFree initiator stream t s) := by
  unfold enterFree
  try dsimp only
  repeat' first | intro _ | with_reducible first | assumption | apply Keeps.ite | apply State.bump_keeps | apply enterStream_keeps | split | dsimp only

theorem idleShow_keeps {s0 : State} {s : State} (hs : Keeps s0 s) : Keeps s0 (idleShow s) := by
  unfold idleShow
  try dsimp only
  repeat' first | intro _ | with_reducible first | assumption | apply Keeps.ite | apply State.setObj_keeps | split | dsimp only

theorem notLockedAbandon_keeps {s0 : State} {s : State} (hs : Keeps s0 s) : Keeps s0 (notLockedAbandon s) := by
  unfold notLockedAbandon
  try dsimp only
  repeat' first | intro _ | with_reducible first | assumption | apply Keeps.ite | apply coAbandon_keeps | split | dsimp only

end Sys2Proof.Machine
end

