-- ==== Sys2Proof/Laws/Keeps/Camera.lean ====
section
/-! SUPPORT. What the operations of Machine/Camera.lean keep: the queue, monotone time, free values and life cycle, and the invariant. -/

namespace Sys2Proof.Machine
open Sys2Proof
set_option linter.all false
set_option Elab.async false

theorem State.setCam_keeps {s0 : State} {s : State} {c : Nat} {x3 : Camera} (hs : Keeps s0 s) : Keeps s0 (State.setCam s c x3) := by
  unfold State.setCam
  try dsimp only
  repeat' first | intro _ | with_reducible first | assumption | apply Keeps.ite | (rw [State.mk_marked]; first | apply Keeps.upd | apply Keeps.updTime | apply Keeps.updFree | apply Keeps.updOd | apply Keeps.updFuses) | exact Nat.le_refl _ | exact id | exact Nat.le_add_right _ _ | (exact mset_wf _ _ _ _ (by assumption)) | exact Nat.mod_lt _ (by decide) | exact ⟨Nat.le_refl _, by assumption⟩ | split | dsimp only

theorem camToken_keeps {s0 : State} {index : Nat} {stamp : Stamp} {ws : List Word} {s : State} (hs : Keeps s0 s) : Keeps s0 (camToken index stamp ws s) := by
  unfold camToken
  try dsimp only
  repeat' first | intro _ | with_reducible first | assumption | apply Keeps.ite | apply enterFabric_keeps | split | dsimp only

theorem frameToken_keeps {s0 : State} {c : Nat} {f : CamFrame} {s : State} (hs : Keeps s0 s) : Keeps s0 (frameToken c f s) := by
  unfold frameToken
  try dsimp only
  repeat' first | intro _ | with_reducible first | assumption | apply Keeps.ite | apply State.setCam_keeps | apply camToken_keeps | apply State.bumpi_keeps | apply raise_keeps | split | dsimp only

theorem camFinish_keeps {s0 : State} {c : Nat} {s : State} (hs : Keeps s0 s) : Keeps s0 (camFinish c s) := by
  unfold camFinish
  try dsimp only
  repeat' first | intro _ | with_reducible first | assumption | apply Keeps.ite | apply frameToken_keeps | apply Keeps.foldl | split | dsimp only

theorem camAck_keeps {s0 : State} {c : Nat} {tag : Nat} {status : Nat} {s : State} (hs : Keeps s0 s) : Keeps s0 (camAck c tag status s) := by
  unfold camAck
  try dsimp only
  repeat' first | intro _ | with_reducible first | assumption | apply Keeps.ite | apply camFinish_keeps | apply State.setCam_keeps | split | dsimp only

theorem execCsiFrameEnd_keeps {s0 : State} {cam : Nat} {vc : Nat} {s : State} (hs : Keeps s0 s) : OutKeeps s0 (execCsiFrameEnd cam vc s) := by
  unfold execCsiFrameEnd
  try dsimp only
  repeat' first | intro _ | with_reducible first | assumption | apply OutKeeps.done | apply OutKeeps.ite | apply Keeps.ite | apply State.bumpi_keeps | apply camFinish_keeps | apply State.setCam_keeps | split | dsimp only

theorem execCsiFrameStart_keeps {s0 : State} {cam : Nat} {vc : Nat} {number : Nat} {rate : Nat} {s : State} (hs : Keeps s0 s) : OutKeeps s0 (execCsiFrameStart cam vc number rate s) := by
  unfold execCsiFrameStart
  try dsimp only
  repeat' first | intro _ | with_reducible first | assumption | apply OutKeeps.done | apply OutKeeps.ite | apply Keeps.ite | apply State.bumpi_keeps | apply frameToken_keeps | apply State.setCam_keeps | apply State.setObji_keeps | apply camToken_keeps | split | dsimp only

theorem lineToken_keeps {s0 : State} {c : Nat} {i : Nat} {s : State} (hs : Keeps s0 s) : Keeps s0 (lineToken c i s) := by
  unfold lineToken
  try dsimp only
  repeat' first | intro _ | with_reducible first | assumption | apply Keeps.ite | apply camToken_keeps | split | dsimp only

theorem execCsiLineStart_keeps {s0 : State} {cam : Nat} {vc : Nat} {s : State} (hs : Keeps s0 s) : OutKeeps s0 (execCsiLineStart cam vc s) := by
  unfold execCsiLineStart
  try dsimp only
  repeat' first | intro _ | with_reducible first | assumption | apply OutKeeps.done | apply OutKeeps.ite | apply Keeps.ite | apply State.bumpi_keeps | apply lineToken_keeps | apply State.setCam_keeps | split | dsimp only

theorem lineWrite_keeps {s0 : State} {c : Nat} {fid : Nat} {a : Nat} {bs : List Byte} {s : State} (hs : Keeps s0 s) : Keeps s0 (lineWrite c fid a bs s) := by
  unfold lineWrite
  try dsimp only
  repeat' first | intro _ | with_reducible first | assumption | apply Keeps.ite | apply State.setCam_keeps | apply State.submit_keeps | apply Keeps.foldl | (rw [State.mk_marked]; first | apply Keeps.upd | apply Keeps.updTime | apply Keeps.updFree | apply Keeps.updOd | apply Keeps.updFuses) | exact Nat.le_refl _ | exact id | exact Nat.le_add_right _ _ | (exact mset_wf _ _ _ _ (by assumption)) | exact Nat.mod_lt _ (by decide) | exact ⟨Nat.le_refl _, by assumption⟩ | split | dsimp only

theorem execCsiLongPacket_keeps {s0 : State} {cam : Nat} {q : CsiLine} {s : State} (hs : Keeps s0 s) : OutKeeps s0 (execCsiLongPacket cam q s) := by
  unfold execCsiLongPacket
  try dsimp only
  repeat' first | intro _ | with_reducible first | assumption | apply OutKeeps.done | apply OutKeeps.ite | apply Keeps.ite | apply State.bumpi_keeps | apply State.setCam_keeps | apply lineToken_keeps | apply lineWrite_keeps | apply Keeps.foldl | split | dsimp only

theorem i2cDone_keeps {s0 : State} {c : Nat} {code : Nat} {bytes : List Nat} {s : State} (hs : Keeps s0 s) : Keeps s0 (i2cDone c code bytes s) := by
  unfold i2cDone
  try dsimp only
  repeat' first | intro _ | with_reducible first | assumption | apply Keeps.ite | apply Keeps.ok | apply Keeps.refuse | apply Keeps.iteR | apply answered_keeps | apply State.setCam_keeps | split | dsimp only

theorem startI2c_keeps {s0 : State} {path : Nat} {bs : List Nat} {s : State} (hs : Keeps s0 s) : SumKeeps s0 (startI2c path bs s) := by
  unfold startI2c
  try dsimp only
  repeat' first | intro _ | with_reducible first | assumption | refine SumKeeps.get (by assumption) ?_ | apply SumKeeps.inl | apply SumKeeps.inr | apply SumKeeps.ite | apply Keeps.ite | apply State.setCam_keeps | split | dsimp only

end Sys2Proof.Machine
end

