-- ==== Sys2Proof/Laws/Keeps/Banks.lean ====
section
/-! SUPPORT. What the operations of Machine/Banks.lean keep: the queue, monotone time, free values and life cycle, and the invariant. -/

namespace Sys2Proof.Machine
open Sys2Proof
set_option linter.all false
set_option Elab.async false

theorem takeTurn_keeps {s0 : State} {m : Nat} {a : BankAsk} {s : State} (hs : Keeps s0 s) : Keeps s0 (takeTurn m a s) := by
  unfold takeTurn
  try dsimp only
  repeat' first | intro _ | with_reducible first | assumption | apply Keeps.ite | apply State.setMotif_keeps | split | dsimp only

theorem loseTurn_keeps {s0 : State} {m : Nat} {a : BankAsk} {s : State} (hs : Keeps s0 s) : Keeps s0 (loseTurn m a s) := by
  unfold loseTurn
  try dsimp only
  repeat' first | intro _ | with_reducible first | assumption | apply Keeps.ite | apply State.bump_keeps | apply State.setMotif_keeps | split | dsimp only

theorem atBank_keeps {s0 : State} {m : Nat} {b : Nat} {a : BankAsk} {f : State → State} {s : State} (hf : ∀ v0, Keeps s0 v0 → Keeps s0 (f v0)) (hs : Keeps s0 s) : Keeps s0 (atBank m b a f s) := by
  unfold atBank
  try dsimp only
  repeat' first | intro _ | with_reducible first | assumption | apply hf | apply Keeps.ite | apply takeTurn_keeps | apply loseTurn_keeps | split | dsimp only

end Sys2Proof.Machine
end

