-- ==== Sys2Proof/Laws/Keeps/Scratch.lean ====
section
/-! SUPPORT. What the operations of Machine/Scratch.lean keep: the queue, monotone time, free values and life cycle, and the invariant. -/

namespace Sys2Proof.Machine
open Sys2Proof
set_option linter.all false
set_option Elab.async false

theorem mirrorFail_keeps {s0 : State} {m : Nat} {n : Nat} {a : Nat} {primary : Bool} {s : State} (hs : Keeps s0 s) : Keeps s0 (mirrorFail m n a primary s) := by
  unfold mirrorFail
  try dsimp only
  repeat' first | intro _ | with_reducible first | assumption | apply Keeps.ite | apply State.setMotif_keeps | apply setDegraded_keeps | apply State.setObj_keeps | split | dsimp only

theorem sramUncorrectable_keeps {s0 : State} {m : Nat} {s : State} (hs : Keeps s0 s) : Keeps s0 (sramUncorrectable m s) := by
  unfold sramUncorrectable
  try dsimp only
  repeat' first | intro _ | with_reducible first | assumption | apply Keeps.ite | apply State.bump_keeps | split | dsimp only

theorem sbBad_keeps {s0 : State} {m : Nat} {e : SbEntry} {s : State} (hs : Keeps s0 s) : Keeps s0 (sbBad m e s) := by
  unfold sbBad
  try dsimp only
  repeat' first | intro _ | with_reducible first | assumption | apply Keeps.ite | apply raise_keeps | apply sramUncorrectable_keeps | split | dsimp only

theorem sramCorrected_keeps {s0 : State} {m : Nat} {s : State} (hs : Keeps s0 s) : Keeps s0 (sramCorrected m s) := by
  unfold sramCorrected
  try dsimp only
  repeat' first | intro _ | with_reducible first | assumption | apply Keeps.ite | apply State.bump_keeps | split | dsimp only

theorem spBad_keeps {s0 : State} {m : Nat} {a : Nat} {s : State} (hs : Keeps s0 s) : Keeps s0 (spBad m a s) := by
  unfold spBad
  try dsimp only
  repeat' first | intro _ | with_reducible first | assumption | apply Keeps.ite | apply sramUncorrectable_keeps | apply State.setMotif_keeps | split | dsimp only

theorem spAccess_keeps {s0 : State} {m : Nat} {a : Nat} {ecc : Nat} {s : State} (hs : Keeps s0 s) : Keeps s0 (spAccess m a ecc s).2 := by
  unfold spAccess
  try dsimp only
  repeat' first | intro _ | with_reducible first | assumption | refine Keeps.snd (by assumption) ?_ | apply Keeps.ite | apply sramCorrected_keeps | apply mirrorFail_keeps | apply sramUncorrectable_keeps | apply State.setMotif_keeps | apply spBad_keeps | split | dsimp only

theorem spModify_keeps {s0 : State} {m : Nat} {a : Nat} {f : Word → Word} {ecc : Nat} {s : State} (hs : Keeps s0 s) : Keeps s0 (spModify m a f ecc s).2 := by
  unfold spModify
  try dsimp only
  repeat' first | intro _ | with_reducible first | assumption | refine Keeps.snd (by assumption) ?_ | apply Keeps.ite | apply spAccess_keeps | apply raise_keeps | apply State.setMotif_keeps | split | dsimp only

theorem spRead_keeps {s0 : State} {m : Nat} {a : Nat} {ecc : Nat} {s : State} (hs : Keeps s0 s) : Keeps s0 (spRead m a ecc s).2 := by
  unfold spRead
  try dsimp only
  repeat' first | intro _ | with_reducible first | assumption | refine Keeps.snd (by assumption) ?_ | apply Keeps.ite | apply spAccess_keeps | split | dsimp only

theorem spWrite_keeps {s0 : State} {m : Nat} {a : Nat} {w : Word} {ecc : Nat} {s : State} (hs : Keeps s0 s) : Keeps s0 (spWrite m a w ecc s).2 := by
  unfold spWrite
  try dsimp only
  repeat' first | intro _ | with_reducible first | assumption | refine Keeps.snd (by assumption) ?_ | apply Keeps.ite | apply spModify_keeps | split | dsimp only

theorem spStore_keeps {s0 : State} {m : Nat} {a : Nat} {w : Word} {ecc : Nat} {s : State} (hs : Keeps s0 s) : Keeps s0 (spStore m a w ecc s) := by
  unfold spStore
  try dsimp only
  repeat' first | intro _ | with_reducible first | assumption | refine Keeps.snd (by assumption) ?_ | apply Keeps.ite | apply spWrite_keeps | split | dsimp only

theorem startBanks_keeps {s0 : State} {m : Nat} {v : Nat} {s : State} (hs : Keeps s0 s) : Keeps s0 (startBanks m v s) := by
  unfold startBanks
  try dsimp only
  repeat' first | intro _ | with_reducible first | assumption | apply Keeps.ite | apply State.setObj_keeps | apply State.setMotif_keeps | apply Keeps.foldl | split | dsimp only

end Sys2Proof.Machine
end

