-- ==== Sys2Proof/Laws/Keeps/Fiz.lean ====
section
/-! SUPPORT. What the operations of Machine/Fiz.lean keep: the queue, monotone time, free values and life cycle, and the invariant. -/

namespace Sys2Proof.Machine
open Sys2Proof
set_option linter.all false
set_option Elab.async false

theorem FzRes.andThen_keeps {s0 : State} {r : FzRes} {f : State → FzRes} (hr : FzKeeps s0 r) (hf : ∀ v0, Keeps s0 v0 → FzKeeps s0 (f v0)) : FzKeeps s0 (FzRes.andThen r f) := by
  unfold FzRes.andThen
  split
  · exact hf _ (hr.h1 _ rfl)
  · exact FzKeeps.trap (hr.h2 _ _ _ _ rfl)
  · exact FzKeeps.stall (hr.h3 _ rfl)

theorem fzAdvance_keeps {s0 : State} {c : Nat} {s : State} (hs : Keeps s0 s) : Keeps s0 (fzAdvance c s) := by
  unfold fzAdvance
  try dsimp only
  repeat' first | intro _ | with_reducible first | assumption | apply Keeps.ite | apply State.setCore_keeps | split | dsimp only

theorem trapHeld_keeps {s0 : State} {c : Nat} {s : State} (hs : Keeps s0 s) : OptKeeps s0 (trapHeld c s) := by
  unfold trapHeld
  try dsimp only
  repeat' first | intro _ | with_reducible first | assumption | refine OptKeeps.get (by assumption) ?_ | apply OptKeeps.none | apply OptKeeps.some | apply OptKeeps.ite | apply Keeps.ite | apply loseTurn_keeps | split | dsimp only

theorem orHeld_keeps {s0 : State} {c : Nat} {s : State} {taken : State} (hs : Keeps s0 s) (htaken : Keeps s0 taken) : Keeps s0 (orHeld c s taken) := by
  unfold orHeld
  cases hh : trapHeld c s with
  | none => exact htaken
  | some u => exact OptKeeps.get hh (trapHeld_keeps hs)

theorem fzLastCause_keeps {s0 : State} {c : Nat} {v : Nat} {s : State} (hs : Keeps s0 s) : Keeps s0 (fzLastCause c v s) := by
  unfold fzLastCause
  try dsimp only
  repeat' first | intro _ | with_reducible first | assumption | apply Keeps.ite | apply State.setObj_keeps | apply State.setObji_keeps | split | dsimp only

theorem fzBump_keeps {s0 : State} {c : Nat} {mp : Nat} {sup : Nat} {sh : Nat} {s : State} (hs : Keeps s0 s) : Keeps s0 (fzBump c mp sup sh s) := by
  unfold fzBump
  try dsimp only
  repeat' first | intro _ | with_reducible first | assumption | apply Keeps.ite | apply State.bump_keeps | apply State.bumpi_keeps | split | dsimp only

theorem mpDropJobs_keeps {s0 : State} {s : State} (hs : Keeps s0 s) : Keeps s0 (mpDropJobs s) := by
  unfold mpDropJobs
  try dsimp only
  repeat' first | intro _ | with_reducible first | assumption | apply Keeps.ite | apply State.setObj_keeps | (rw [State.mk_marked]; first | apply Keeps.upd | apply Keeps.updTime | apply Keeps.updFree | apply Keeps.updOd | apply Keeps.updFuses) | split | dsimp only

theorem mpStop_keeps {s0 : State} {s : State} (hs : Keeps s0 s) : Keeps s0 (mpStop s) := by
  unfold mpStop
  try dsimp only
  repeat' first | intro _ | with_reducible first | assumption | apply Keeps.ite | apply State.setObj_keeps | apply State.bump_keeps | apply mpDropJobs_keeps | apply State.setCore_keeps | split | dsimp only

theorem mpRestart_keeps {s0 : State} {reason : Nat} {s : State} (hs : Keeps s0 s) : Keeps s0 (mpRestart reason s) := by
  unfold mpRestart
  try dsimp only
  repeat' first | intro _ | with_reducible first | assumption | apply Keeps.ite | apply mpStop_keeps | apply sample_keeps | apply raise_keeps | split | dsimp only

theorem fzShowState_keeps {s0 : State} {c : Nat} {v : Nat} {s : State} (hs : Keeps s0 s) : Keeps s0 (fzShowState c v s) := by
  unfold fzShowState
  try dsimp only
  repeat' first | intro _ | with_reducible first | assumption | apply Keeps.ite | apply State.setObji_keeps | apply State.setObj_keeps | split | dsimp only

theorem fzHalt_keeps {s0 : State} {c : Nat} {s : State} (hs : Keeps s0 s) : Keeps s0 (fzHalt c s) := by
  unfold fzHalt
  try dsimp only
  repeat' first | intro _ | with_reducible first | assumption | apply Keeps.ite | apply mpRestart_keeps | apply fzShowState_keeps | apply State.setCore_keeps | apply State.setObjBit_keeps | apply State.setMotif_keeps | apply setCond_keeps | apply State.interrupt_keeps | apply State.bump_keeps | split | dsimp only

theorem fzPush_keeps {s0 : State} {c : Nat} {a : Nat} {ws : List Word} {s : State} (hs : Keeps s0 s) : Keeps s0 (fzPush c a ws s) := by
  unfold fzPush
  try dsimp only
  repeat' first | intro _ | with_reducible first | assumption | apply Keeps.ite | apply spStore_keeps | apply takeTurn_keeps | apply State.setCore_keeps | apply Keeps.foldl | split | dsimp only

theorem lastResort_keeps {s0 : State} {c : Nat} {planeB : Bool} {frame : List Word} {sp : Word} {reason : Nat} {s : State} (hs : Keeps s0 s) : Keeps s0 (lastResort c planeB frame sp reason s) := by
  unfold lastResort
  try dsimp only
  repeat' first | intro _ | with_reducible first | assumption | apply Keeps.ite | apply fzBump_keeps | apply State.setCore_keeps | split | dsimp only

theorem fzTrap_keeps {s0 : State} {c : Nat} {code : Nat} {addr : Nat} {pc : Word} {imprecise : Bool} {inSeq : Bool} {s : State} (hs : Keeps s0 s) : Keeps s0 (fzTrap c code addr pc imprecise inSeq s) := by
  unfold fzTrap
  try dsimp only
  repeat' first | intro _ | with_reducible first | assumption | apply Keeps.ite | apply fzLastCause_keeps | apply fzBump_keeps | apply State.setCore_keeps | apply fzHalt_keeps | apply fzPush_keeps | apply lastResort_keeps | split | dsimp only

theorem fzBoundary_keeps {s0 : State} {c : Nat} {s : State} (hs : Keeps s0 s) : Keeps s0 (fzBoundary c s) := by
  unfold fzBoundary
  try dsimp only
  repeat' first | intro _ | with_reducible first | assumption | apply Keeps.ite | apply orHeld_keeps | apply fzTrap_keeps | apply State.setCore_keeps | split | dsimp only

theorem fzSettle_keeps {s0 : State} {c : Nat} {s : State} (hs : Keeps s0 s) : Keeps s0 (fzSettle c s) := by
  unfold fzSettle
  try dsimp only
  repeat' first | intro _ | with_reducible first | assumption | apply Keeps.ite | apply fzBoundary_keeps | apply State.setCore_keeps | split | dsimp only

theorem fzDo_keeps {s0 : State} {c : Nat} {s : State} {f : State → FzRes} (hs : Keeps s0 s) (hf : ∀ v0, Keeps s0 v0 → FzKeeps s0 (f v0)) : OutKeeps s0 (fzDo c s f) := by
  unfold fzDo
  try dsimp only
  repeat' first | intro _ | with_reducible first | assumption | apply hf | apply FzKeeps.ite | apply FzKeeps.ok | apply FzKeeps.trap | apply FzKeeps.stall | refine FzKeeps.getOk (by assumption) ?_ | refine FzKeeps.getTrap (by assumption) ?_ | refine FzKeeps.getStall (by assumption) ?_ | apply OutKeeps.done | apply OutKeeps.ite | apply Keeps.ite | apply fzBoundary_keeps | apply orHeld_keeps | apply fzTrap_keeps | apply fzSettle_keeps | apply State.setCore_keeps | split | dsimp only

theorem fzSetReg_keeps {s0 : State} {c : Nat} {rd : Nat} {w : Word} {s : State} (hs : Keeps s0 s) : Keeps s0 (fzSetReg c rd w s) := by
  unfold fzSetReg
  try dsimp only
  repeat' first | intro _ | with_reducible first | assumption | apply Keeps.ite | apply State.setCore_keeps | split | dsimp only

theorem fzAlu_keeps {s0 : State} {c : Nat} {rd : Nat} {v : FBank → Word} {s : State} (hs : Keeps s0 s) : OutKeeps s0 (fzAlu c rd v s) := by
  unfold fzAlu
  try dsimp only
  repeat' first | intro _ | with_reducible first | assumption | apply FzKeeps.ite | apply FzKeeps.ok | apply FzKeeps.trap | apply FzKeeps.stall | apply OutKeeps.done | apply OutKeeps.ite | apply Keeps.ite | apply fzDo_keeps | apply fzSetReg_keeps | split | dsimp only

theorem fzAtBank_keeps {s0 : State} {c : Nat} {a : Nat} {f : State → FzRes} {s : State} (hf : ∀ v0, Keeps s0 v0 → FzKeeps s0 (f v0)) (hs : Keeps s0 s) : FzKeeps s0 (fzAtBank c a f s) := by
  unfold fzAtBank
  try dsimp only
  repeat' first | intro _ | with_reducible first | assumption | apply hf | refine FzKeeps.getOk (by assumption) ?_ | refine FzKeeps.getTrap (by assumption) ?_ | refine FzKeeps.getStall (by assumption) ?_ | apply FzKeeps.ite | apply FzKeeps.ok | apply FzKeeps.trap | apply FzKeeps.stall | apply Keeps.ite | apply takeTurn_keeps | apply loseTurn_keeps | split | dsimp only

theorem fzEcc_keeps {s0 : State} {ecc : Nat} {s : State} (hs : Keeps s0 s) : Keeps s0 (fzEcc ecc s) := by
  unfold fzEcc
  try dsimp only
  repeat' first | intro _ | with_reducible first | assumption | apply Keeps.ite | apply State.bump_keeps | apply raise_keeps | split | dsimp only

theorem fzLand_keeps {s0 : State} {c : Nat} {k : Nat} {kind : Nat} {rd : Nat} {w : Word} {s : State} (hs : Keeps s0 s) : Keeps s0 (fzLand c k kind rd w s) := by
  unfold fzLand
  try dsimp only
  repeat' first | intro _ | with_reducible first | assumption | apply Keeps.ite | apply State.setCore_keeps | (rw [State.mk_marked]; first | apply Keeps.upd | apply Keeps.updTime | apply Keeps.updFree | apply Keeps.updOd | apply Keeps.updFuses) | split | dsimp only

theorem fzSend_keeps {s0 : State} {c : Nat} {p : Packet} {s : State} (hs : Keeps s0 s) : Keeps s0 (fzSend c p s) := by
  unfold fzSend
  try dsimp only
  repeat' first | intro _ | with_reducible first | assumption | apply Keeps.ite | apply State.submit_keeps | apply State.setCore_keeps | split | dsimp only

theorem fzRead_keeps {s0 : State} {c : Nat} {a : Nat} {n : Nat} {ecc : Nat} {s : State} (hs : Keeps s0 s) : Keeps s0 (fzRead c a n ecc s).2 := by
  unfold fzRead
  try dsimp only
  repeat' first | intro _ | with_reducible first | assumption | refine Keeps.snd (by assumption) ?_ | apply Keeps.ite | apply State.fresh_keeps | apply spRead_keeps | apply raise_keeps | apply fzEcc_keeps | split | dsimp only

theorem fzLoad_keeps {s0 : State} {c : Nat} {kind : Nat} {rd : Nat} {a : Word} {ecc : Nat} {s : State} (hs : Keeps s0 s) : FzKeeps s0 (fzLoad c kind rd a ecc s) := by
  unfold fzLoad
  try dsimp only
  repeat' first | intro _ | with_reducible first | assumption | refine Keeps.snd (by assumption) ?_ | refine FzKeeps.getOk (by assumption) ?_ | refine FzKeeps.getTrap (by assumption) ?_ | refine FzKeeps.getStall (by assumption) ?_ | apply FzKeeps.ite | apply FzKeeps.ok | apply FzKeeps.trap | apply FzKeeps.stall | apply Keeps.ite | apply fzSend_keeps | apply State.setCore_keeps | apply fzRead_keeps | apply fzHalt_keeps | apply fzLand_keeps | apply fzAtBank_keeps | split | dsimp only

theorem fzPullDone_keeps {s0 : State} {p : Packet} {s : State} (hs : Keeps s0 s) : Keeps s0 (fzPullDone p s) := by
  unfold fzPullDone
  try dsimp only
  repeat' first | intro _ | with_reducible first | assumption | apply Keeps.ite | apply State.setCore_keeps | split | dsimp only

theorem fzReadDone_keeps {s0 : State} {p : Packet} {s : State} (hs : Keeps s0 s) : Keeps s0 (fzReadDone p s) := by
  unfold fzReadDone
  try dsimp only
  repeat' first | intro _ | with_reducible first | assumption | apply Keeps.ite | apply State.setCore_keeps | apply fzSettle_keeps | apply fzLand_keeps | split | dsimp only

theorem fzWrite_keeps {s0 : State} {c : Nat} {a : Nat} {n : Nat} {v : Nat} {ecc : Nat} {s : State} (hs : Keeps s0 s) : Keeps s0 (fzWrite c a n v ecc s).2 := by
  unfold fzWrite
  try dsimp only
  repeat' first | intro _ | with_reducible first | assumption | refine Keeps.snd (by assumption) ?_ | apply Keeps.ite | apply spModify_keeps | apply State.setCore_keeps | split | dsimp only

theorem fzStore_keeps {s0 : State} {c : Nat} {n : Nat} {a : Word} {v : Word} {ecc : Nat} {s : State} (hs : Keeps s0 s) : FzKeeps s0 (fzStore c n a v ecc s) := by
  unfold fzStore
  try dsimp only
  repeat' first | intro _ | with_reducible first | assumption | refine Keeps.snd (by assumption) ?_ | refine FzKeeps.getOk (by assumption) ?_ | refine FzKeeps.getTrap (by assumption) ?_ | refine FzKeeps.getStall (by assumption) ?_ | apply FzKeeps.ite | apply FzKeeps.ok | apply FzKeeps.trap | apply FzKeeps.stall | apply Keeps.ite | apply fzSend_keeps | apply fzAdvance_keeps | apply State.setCore_keeps | apply fzAtBank_keeps | apply fzWrite_keeps | split | dsimp only

theorem fzSystem_keeps {s0 : State} {c : Nat} {s : State} {f : State → FzRes} (hs : Keeps s0 s) (hf : ∀ v0, Keeps s0 v0 → FzKeeps s0 (f v0)) : FzKeeps s0 (fzSystem c s f) := by
  unfold fzSystem
  try dsimp only
  repeat' first | intro _ | with_reducible first | assumption | apply hf | refine FzKeeps.getOk (by assumption) ?_ | refine FzKeeps.getTrap (by assumption) ?_ | refine FzKeeps.getStall (by assumption) ?_ | apply FzKeeps.ite | apply FzKeeps.ok | apply FzKeeps.trap | apply FzKeeps.stall | apply Keeps.ite | split | dsimp only

theorem fzWriteDone_keeps {s0 : State} {p : Packet} {s : State} (hs : Keeps s0 s) : Keeps s0 (fzWriteDone p s) := by
  unfold fzWriteDone
  try dsimp only
  repeat' first | intro _ | with_reducible first | assumption | apply Keeps.ite | apply State.setCore_keeps | apply fzSettle_keeps | split | dsimp only

theorem startShuttleHalf_keeps {s0 : State} {c : Nat} {planeB : Bool} {s : State} (hs : Keeps s0 s) : Keeps s0 (startShuttleHalf c planeB s) := by
  unfold startShuttleHalf
  try dsimp only
  repeat' first | intro _ | with_reducible first | assumption | apply Keeps.ite | apply State.setCore_keeps | split | dsimp only

theorem startSupervisor_keeps {s0 : State} {c : Nat} {planeB : Bool} {s : State} (hs : Keeps s0 s) : Keeps s0 (startSupervisor c planeB s) := by
  unfold startSupervisor
  try dsimp only
  repeat' first | intro _ | with_reducible first | assumption | apply Keeps.ite | apply State.setCore_keeps | split | dsimp only

theorem startCore_keeps {s0 : State} {c : Nat} {s : State} (hs : Keeps s0 s) : Keeps s0 (startCore c s) := by
  unfold startCore
  try dsimp only
  repeat' first | intro _ | with_reducible first | assumption | apply Keeps.ite | apply State.setCore_keeps | apply fzShowState_keeps | apply startShuttleHalf_keeps | apply startSupervisor_keeps | apply Keeps.foldl | split | dsimp only

theorem restartShuttle_keeps {s0 : State} {m : Nat} {s : State} (hs : Keeps s0 s) : Keeps s0 (restartShuttle m s) := by
  unfold restartShuttle
  try dsimp only
  repeat' first | intro _ | with_reducible first | assumption | apply Keeps.ite | apply startCore_keeps | apply State.setObjBit_keeps | apply State.uninterrupt_keeps | apply setCond_keeps | split | dsimp only

theorem restartSupervisor_keeps {s0 : State} {h : Nat} {s : State} (hs : Keeps s0 s) : Keeps s0 (restartSupervisor h s) := by
  unfold restartSupervisor
  try dsimp only
  repeat' first | intro _ | with_reducible first | assumption | apply Keeps.ite | apply startCore_keeps | apply setCond_keeps | apply State.uninterrupt_keeps | split | dsimp only

end Sys2Proof.Machine
end

