-- ==== Sys2Proof/Laws/Keeps/FlashOps.lean ====
section
/-! SUPPORT. What the operations of Machine/FlashOps.lean keep: the queue, monotone time, free values and life cycle, and the invariant. -/

namespace Sys2Proof.Machine
open Sys2Proof
set_option linter.all false
set_option Elab.async false

theorem State.setFlash_keeps {s0 : State} {s : State} {f : Flash} (hs : Keeps s0 s) : Keeps s0 (State.setFlash s f) := by
  unfold State.setFlash
  try dsimp only
  repeat' first | intro _ | with_reducible first | assumption | apply Keeps.ite | (rw [State.mk_marked]; first | apply Keeps.upd | apply Keeps.updTime | apply Keeps.updFree | apply Keeps.updOd | apply Keeps.updFuses) | split | dsimp only

theorem invalidateSector_keeps {s0 : State} {addr : Nat} {purpose : Nat} {s : State} (hs : Keeps s0 s) : Keeps s0 (invalidateSector addr purpose s) := by
  unfold invalidateSector
  try dsimp only
  repeat' first | intro _ | with_reducible first | assumption | apply Keeps.ite | apply State.setFlash_keeps | apply State.setObj_keeps | split | dsimp only

theorem flashStart_keeps {s0 : State} {s : State} (hs : Keeps s0 s) : Keeps s0 (flashStart s) := by
  unfold flashStart
  try dsimp only
  repeat' first | intro _ | with_reducible first | assumption | apply Keeps.ite | apply State.setFlash_keeps | apply invalidateSector_keeps | split | dsimp only

theorem flashNext_keeps {s0 : State} {s : State} (hs : Keeps s0 s) : Keeps s0 (flashNext s) := by
  unfold flashNext
  try dsimp only
  repeat' first | intro _ | with_reducible first | assumption | apply Keeps.ite | apply flashStart_keeps | apply State.setFlash_keeps | split | dsimp only

theorem execFlashEraseComplete_keeps {s0 : State} {s : State} (hs : Keeps s0 s) : OutKeeps s0 (execFlashEraseComplete s) := by
  unfold execFlashEraseComplete
  try dsimp only
  repeat' first | intro _ | with_reducible first | assumption | apply OutKeeps.done | apply OutKeeps.ite | apply Keeps.ite | apply flashNext_keeps | apply State.setFlash_keeps | split | dsimp only

theorem flashEffect_keeps {s0 : State} {e : FlashDone} {s : State} (hs : Keeps s0 s) : Keeps s0 (flashEffect e s) := by
  unfold flashEffect
  try dsimp only
  repeat' first | intro _ | with_reducible first | assumption | apply Keeps.ite | apply State.setFlash_keeps | apply State.setObj_keeps | split | dsimp only

theorem flashQueue_keeps {s0 : State} {js : List FlashJob} {s : State} (hs : Keeps s0 s) : Keeps s0 (flashQueue js s) := by
  unfold flashQueue
  try dsimp only
  repeat' first | intro _ | with_reducible first | assumption | apply Keeps.ite | apply flashStart_keeps | apply State.setFlash_keeps | split | dsimp only

theorem mirrorTouch_keeps {s0 : State} {s : State} (hs : Keeps s0 s) : Keeps s0 (mirrorTouch s) := by
  unfold mirrorTouch
  try dsimp only
  repeat' first | intro _ | with_reducible first | assumption | apply Keeps.ite | apply flashQueue_keeps | split | dsimp only

theorem persistTouch_keeps {s0 : State} {s : State} (hs : Keeps s0 s) : Keeps s0 (persistTouch s) := by
  unfold persistTouch
  try dsimp only
  repeat' first | intro _ | with_reducible first | assumption | apply Keeps.ite | apply flashQueue_keeps | split | dsimp only

theorem recordChanged_keeps {s0 : State} {s : State} (hs : Keeps s0 s) : Keeps s0 (recordChanged s) := by
  unfold recordChanged
  try dsimp only
  repeat' first | intro _ | with_reducible first | assumption | apply Keeps.ite | apply mirrorTouch_keeps | split | dsimp only

end Sys2Proof.Machine
end

