-- ==== Sys2Proof/Laws/Keeps/MemMap.lean ====
section
/-! SUPPORT. What the operations of Machine/MemMap.lean keep: the queue, monotone time, free values and life cycle, and the invariant. -/

namespace Sys2Proof.Machine
open Sys2Proof
set_option linter.all false
set_option Elab.async false

theorem loseBlock_keeps {s0 : State} {o : Nat} {s : State} (hs : Keeps s0 s) : Keeps s0 (loseBlock o s) := by
  unfold loseBlock
  try dsimp only
  repeat' first | intro _ | with_reducible first | assumption | apply Keeps.ite | apply Keeps.foldl | (rw [State.mk_marked]; first | apply Keeps.upd | apply Keeps.updTime | apply Keeps.updFree | apply Keeps.updOd | apply Keeps.updFuses) | split | dsimp only

theorem retirePage_keeps {s0 : State} {o : Nat} {s : State} (hs : Keeps s0 s) : Keeps s0 (retirePage o s).2 := by
  unfold retirePage
  try dsimp only
  repeat' first | intro _ | with_reducible first | assumption | refine Keeps.snd (by assumption) ?_ | apply Keeps.ite | apply setDegraded_keeps | apply State.setObj_keeps | apply persistTouch_keeps | apply raise_keeps | (rw [State.mk_marked]; first | apply Keeps.upd | apply Keeps.updTime | apply Keeps.updFree | apply Keeps.updOd | apply Keeps.updFuses) | split | dsimp only

theorem mirrorGone_keeps {s0 : State} {o : Nat} {s : State} (hs : Keeps s0 s) : Keeps s0 (mirrorGone o s) := by
  unfold mirrorGone
  try dsimp only
  repeat' first | intro _ | with_reducible first | assumption | apply Keeps.ite | apply setDegraded_keeps | apply State.setObj_keeps | (rw [State.mk_marked]; first | apply Keeps.upd | apply Keeps.updTime | apply Keeps.updFree | apply Keeps.updOd | apply Keeps.updFuses) | split | dsimp only

theorem dramUncorrectable_keeps {s0 : State} {o : Nat} {s : State} (hs : Keeps s0 s) : Keeps s0 (dramUncorrectable o s).2 := by
  unfold dramUncorrectable
  try dsimp only
  repeat' first | intro _ | with_reducible first | assumption | refine Keeps.snd (by assumption) ?_ | apply Keeps.ite | apply State.bump_keeps | apply raise_keeps | apply loseBlock_keeps | apply retirePage_keeps | apply mirrorGone_keeps | split | dsimp only

theorem dramCorrected_keeps {s0 : State} {o : Nat} {s : State} (hs : Keeps s0 s) : Keeps s0 (dramCorrected o s) := by
  unfold dramCorrected
  try dsimp only
  repeat' first | intro _ | with_reducible first | assumption | refine Keeps.snd (by assumption) ?_ | apply Keeps.ite | apply State.bump_keeps | apply retirePage_keeps | (rw [State.mk_marked]; first | apply Keeps.upd | apply Keeps.updTime | apply Keeps.updFree | apply Keeps.updOd | apply Keeps.updFuses) | split | dsimp only

theorem dramCheck_keeps {s0 : State} {o : Nat} {n : Nat} {ecc : Nat} {s : State} (hs : Keeps s0 s) : Keeps s0 (dramCheck o n ecc s).2 := by
  unfold dramCheck
  try dsimp only
  repeat' first | intro _ | with_reducible first | assumption | refine Keeps.snd (by assumption) ?_ | apply Keeps.ite | apply dramUncorrectable_keeps | apply dramCorrected_keeps | split | dsimp only

theorem dramWrite_keeps {s0 : State} {o : Nat} {ws : List Word} {s : State} (hs : Keeps s0 s) : Keeps s0 (dramWrite o ws s) := by
  unfold dramWrite
  try dsimp only
  repeat' first | intro _ | with_reducible first | assumption | apply Keeps.ite | (rw [State.mk_marked]; first | apply Keeps.upd | apply Keeps.updTime | apply Keeps.updFree | apply Keeps.updOd | apply Keeps.updFuses) | split | dsimp only

theorem hoopCheck_keeps {s0 : State} {h : Nat} {a : Nat} {ecc : Nat} {s : State} (hs : Keeps s0 s) : Keeps s0 (hoopCheck h a ecc s).2 := by
  unfold hoopCheck
  try dsimp only
  repeat' first | intro _ | with_reducible first | assumption | refine Keeps.snd (by assumption) ?_ | apply Keeps.ite | apply State.bump_keeps | apply State.setHoop_keeps | split | dsimp only

theorem hoopChecks_keeps {s0 : State} {h : Nat} {a : List Nat} {a3 : Nat} {a4 : State} (ha4 : Keeps s0 a4) : Keeps s0 (hoopChecks h a a3 a4).2 := by
  induction a generalizing h a3 a4 with
  | nil =>
    unfold hoopChecks
    try dsimp only
    repeat' first | intro _ | with_reducible first | assumption | refine Keeps.snd (by assumption) ?_ | apply Keeps.ite | apply hoopCheck_keeps | split | dsimp only
  | cons x xs ih =>
    unfold hoopChecks
    try dsimp only
    repeat' first | intro _ | with_reducible first | assumption | apply ih | refine Keeps.snd (by assumption) ?_ | apply Keeps.ite | apply hoopCheck_keeps | split | dsimp only

theorem poolShow_keeps {s0 : State} {spare : Nat} {s : State} (hs : Keeps s0 s) : Keeps s0 (poolShow spare s) := by
  unfold poolShow
  try dsimp only
  repeat' first | intro _ | with_reducible first | assumption | apply Keeps.ite | apply setDegraded_keeps | apply State.setObj_keeps | split | dsimp only

theorem startHoopBanks_keeps {s0 : State} {h : Nat} {v : Nat} {s : State} (hs : Keeps s0 s) : Keeps s0 (startHoopBanks h v s) := by
  unfold startHoopBanks
  try dsimp only
  repeat' first | intro _ | with_reducible first | assumption | apply Keeps.ite | apply State.setObj_keeps | apply State.setHoop_keeps | apply Keeps.foldl | split | dsimp only

end Sys2Proof.Machine
end

