-- ==== Sys2Proof/Laws/Keeps/MotifOps.lean ====
section
/-! SUPPORT. What the operations of Machine/MotifOps.lean keep: the queue, monotone time, free values and life cycle, and the invariant. -/

namespace Sys2Proof.Machine
open Sys2Proof
set_option linter.all false
set_option Elab.async false

theorem traceDispatch_keeps {s0 : State} {m : Nat} {pos : Nat} {slot : Nat} {key : Nat} {outcome : Nat} {stamp : Stamp} {s : State} (hs : Keeps s0 s) : Keeps s0 (traceDispatch m pos slot key outcome stamp s) := by
  unfold traceDispatch
  try dsimp only
  repeat' first | intro _ | with_reducible first | assumption | apply Keeps.ite | apply traceEmit_keeps | split | dsimp only

theorem settleCell_keeps {s0 : State} {m : Nat} {pos : Nat} {s : State} (hs : Keeps s0 s) : Keeps s0 (settleCell m pos s) := by
  unfold settleCell
  try dsimp only
  repeat' first | intro _ | with_reducible first | assumption | apply Keeps.ite | apply State.addObj_keeps | apply State.setMotif_keeps | apply Keeps.foldl | split | dsimp only

theorem settleMotif_keeps {s0 : State} {m : Nat} {s : State} (hs : Keeps s0 s) : Keeps s0 (settleMotif m s) := by
  unfold settleMotif
  try dsimp only
  repeat' first | intro _ | with_reducible first | assumption | apply Keeps.ite | apply settleCell_keeps | apply Keeps.foldl | split | dsimp only

theorem abortAtMotif_keeps {s0 : State} {m : Nat} {t : Nat} {n : Nat} {s : State} (hs : Keeps s0 s) : Keeps s0 (abortAtMotif m t n s) := by
  unfold abortAtMotif
  try dsimp only
  repeat' first | intro _ | with_reducible first | assumption | apply Keeps.ite | apply traceDispatch_keeps | apply settleMotif_keeps | apply State.setMotif_keeps | apply Keeps.foldl | split | dsimp only

theorem ageMotif_keeps {s0 : State} {f : Stamp → Bool → Ageing} {m : Nat} {s : State} (hs : Keeps s0 s) : Keeps s0 (ageMotif f m s) := by
  unfold ageMotif
  try dsimp only
  repeat' first | intro _ | with_reducible first | assumption | apply Keeps.ite | apply State.setMotif_keeps | apply traceDispatch_keeps | apply State.addObj_keeps | apply settleCell_keeps | apply Keeps.foldl | split | dsimp only

theorem ageSelvedge_keeps {s0 : State} {f : Stamp → Bool → Ageing} {s : State} (hs : Keeps s0 s) : Keeps s0 (ageSelvedge f s) := by
  unfold ageSelvedge
  try dsimp only
  repeat' first | intro _ | with_reducible first | assumption | apply Keeps.ite | apply State.addObj_keeps | apply State.setQueue_keeps | apply Keeps.foldl | split | dsimp only

theorem clearMarks_keeps {s0 : State} {s : State} (hs : Keeps s0 s) : Keeps s0 (clearMarks s) := by
  unfold clearMarks
  try dsimp only
  repeat' first | intro _ | with_reducible first | assumption | apply Keeps.ite | (rw [State.mk_marked]; first | apply Keeps.upd | apply Keeps.updTime | apply Keeps.updFree | apply Keeps.updOd | apply Keeps.updFuses) | split | dsimp only

theorem setHoopClock_keeps {s0 : State} {h : Nat} {f : Nat} {s : State} (hs : Keeps s0 s) : Keeps s0 (setHoopClock h f s) := by
  unfold setHoopClock
  try dsimp only
  repeat' first | intro _ | with_reducible first | assumption | apply Keeps.ite | apply State.setObj_keeps | apply State.setHoop_keeps | split | dsimp only

theorem traceInsts_keeps {s0 : State} {m : Nat} {pos : Nat} {outcome : Nat} {is : List Inst} {s : State} (hs : Keeps s0 s) : Keeps s0 (traceInsts m pos outcome is s) := by
  unfold traceInsts
  try dsimp only
  repeat' first | intro _ | with_reducible first | assumption | apply Keeps.ite | apply traceDispatch_keeps | apply Keeps.foldl | split | dsimp only

end Sys2Proof.Machine
end

