-- ==== Sys2Proof/Laws/Keeps/TxnOps.lean ====
section
/-! SUPPORT. What the operations of Machine/TxnOps.lean keep: the queue, monotone time, free values and life cycle, and the invariant. -/

namespace Sys2Proof.Machine
open Sys2Proof
set_option linter.all false
set_option Elab.async false

theorem entriesShow_keeps {s0 : State} {s : State} (hs : Keeps s0 s) : Keeps s0 (entriesShow s) := by
  unfold entriesShow
  try dsimp only
  repeat' first | intro _ | with_reducible first | assumption | apply Keeps.ite | apply State.setObj_keeps | apply Keeps.foldl | split | dsimp only

theorem commitEntries_keeps {s0 : State} {t : Nat} {s : State} (hs : Keeps s0 s) : Keeps s0 (commitEntries t s) := by
  unfold commitEntries
  try dsimp only
  repeat' first | intro _ | with_reducible first | assumption | apply Keeps.ite | apply State.setQueue_keeps | apply entriesShow_keeps | (rw [State.mk_marked]; first | apply Keeps.upd | apply Keeps.updTime | apply Keeps.updFree | apply Keeps.updOd | apply Keeps.updFuses) | split | dsimp only

theorem traceTxn_keeps {s0 : State} {tid : Nat} {st : Nat} {info : Nat} {x4 : Txn} {s : State} (hs : Keeps s0 s) : Keeps s0 (traceTxn tid st info x4 s) := by
  unfold traceTxn
  try dsimp only
  repeat' first | intro _ | with_reducible first | assumption | apply Keeps.ite | apply traceEmit_keeps | split | dsimp only

theorem txnMove_keeps {s0 : State} {tid : Nat} {st : TxState} {info : Nat} {x4 : Txn} {s : State} (hs : Keeps s0 s) : Keeps s0 (txnMove tid st info x4 s) := by
  unfold txnMove
  try dsimp only
  repeat' first | intro _ | with_reducible first | assumption | apply Keeps.ite | apply traceTxn_keeps | apply State.setTxn_keeps | split | dsimp only

theorem slackUpdate_keeps {s0 : State} {x1 : Txn} {s : State} (hs : Keeps s0 s) : Keeps s0 (slackUpdate x1 s) := by
  unfold slackUpdate
  try dsimp only
  repeat' first | intro _ | with_reducible first | assumption | apply Keeps.ite | apply State.setObj_keeps | split | dsimp only

theorem commitTxn_keeps {s0 : State} {t : Nat} {x2 : Txn} {s : State} (hs : Keeps s0 s) : Keeps s0 (commitTxn t x2 s) := by
  unfold commitTxn
  try dsimp only
  repeat' first | intro _ | with_reducible first | assumption | apply Keeps.ite | apply commitEntries_keeps | apply txnMove_keeps | apply slackUpdate_keeps | apply State.bump_keeps | apply State.submit_keeps | apply Keeps.foldl | (rw [State.mk_marked]; first | apply Keeps.upd | apply Keeps.updTime | apply Keeps.updFree | apply Keeps.updOd | apply Keeps.updFuses) | split | dsimp only

theorem notifyAbort_keeps {s0 : State} {members : Nat} {skip : Nat} {t : Nat} {n : Nat} {stamp : Stamp} {s : State} (hs : Keeps s0 s) : Keeps s0 (notifyAbort members skip t n stamp s) := by
  unfold notifyAbort
  try dsimp only
  repeat' first | intro _ | with_reducible first | assumption | apply Keeps.ite | apply State.submit_keeps | apply Keeps.foldl | split | dsimp only

theorem endReplay_keeps {s0 : State} {t : Nat} {c : Cause} {x3 : Txn} {s : State} (hs : Keeps s0 s) : Keeps s0 (endReplay t c x3 s) := by
  unfold endReplay
  try dsimp only
  repeat' first | intro _ | with_reducible first | assumption | apply Keeps.ite | apply State.setTxn_keeps | apply notifyAbort_keeps | split | dsimp only

theorem dropEntries_keeps {s0 : State} {t : Nat} {s : State} (hs : Keeps s0 s) : Keeps s0 (dropEntries t s) := by
  unfold dropEntries
  try dsimp only
  repeat' first | intro _ | with_reducible first | assumption | apply Keeps.ite | apply entriesShow_keeps | (rw [State.mk_marked]; first | apply Keeps.upd | apply Keeps.updTime | apply Keeps.updFree | apply Keeps.updOd | apply Keeps.updFuses) | split | dsimp only

theorem selvAbort_keeps {s0 : State} {a : Nat} {a2 : Nat} {a3 : Cause} {a4 : Nat} {a5 : State} (ha5 : Keeps s0 a5) : Keeps s0 (selvAbort a a2 a3 a4 a5) := by
  induction a generalizing a2 a3 a4 a5 with
  | zero =>
    unfold selvAbort
    try dsimp only
    repeat' first | intro _ | with_reducible first | assumption | apply Keeps.ite | apply notifyAbort_keeps | apply endReplay_keeps | apply dropEntries_keeps | apply txnMove_keeps | apply State.setObj_keeps | apply Keeps.foldl | (rw [State.mk_marked]; first | apply Keeps.upd | apply Keeps.updTime | apply Keeps.updFree | apply Keeps.updOd | apply Keeps.updFuses) | split | dsimp only
  | succ n ih =>
    unfold selvAbort
    try dsimp only
    repeat' first | intro _ | with_reducible first | assumption | apply ih | apply Keeps.ite | apply notifyAbort_keeps | apply endReplay_keeps | apply dropEntries_keeps | apply txnMove_keeps | apply State.setObj_keeps | apply Keeps.foldl | (rw [State.mk_marked]; first | apply Keeps.upd | apply Keeps.updTime | apply Keeps.updFree | apply Keeps.updOd | apply Keeps.updFuses) | split | dsimp only

theorem deadlineAt_keeps {s0 : State} {t : Nat} {s : State} (hs : Keeps s0 s) : Keeps s0 (deadlineAt t s) := by
  unfold deadlineAt
  try dsimp only
  repeat' first | intro _ | with_reducible first | assumption | apply Keeps.ite | apply selvAbort_keeps | apply endReplay_keeps | split | dsimp only

theorem deadlineCheck_keeps {s0 : State} {t : Nat} {s : State} (hs : Keeps s0 s) : Keeps s0 (deadlineCheck t s) := by
  unfold deadlineCheck
  try dsimp only
  repeat' first | intro _ | with_reducible first | assumption | apply Keeps.ite | apply deadlineAt_keeps | split | dsimp only

theorem deadlineGone_keeps {s0 : State} {t : Nat} {s : State} (hs : Keeps s0 s) : Keeps s0 (deadlineGone t s) := by
  unfold deadlineGone
  try dsimp only
  repeat' first | intro _ | with_reducible first | assumption | apply Keeps.ite | apply deadlineAt_keeps | split | dsimp only

theorem inFlight_keeps {s0 : State} {c : Nat} {up : Bool} {s : State} (hs : Keeps s0 s) : Keeps s0 (inFlight c up s) := by
  unfold inFlight
  try dsimp only
  repeat' first | intro _ | with_reducible first | assumption | apply Keeps.ite | apply State.setObj_keeps | split | dsimp only

theorem lateOpening_keeps {s0 : State} {c : Nat} {stamp : Stamp} {s : State} (hs : Keeps s0 s) : Keeps s0 (lateOpening c stamp s) := by
  unfold lateOpening
  try dsimp only
  repeat' first | intro _ | with_reducible first | assumption | apply Keeps.ite | apply sample_keeps | apply raise_keeps | apply State.setObj_keeps | apply State.bump_keeps | split | dsimp only

theorem replayDecide_keeps {s0 : State} {m : Nat} {t : Nat} {n : Nat} {bad : TidList} {s : State} (hs : Keeps s0 s) : Keeps s0 (replayDecide m t n bad s) := by
  unfold replayDecide
  try dsimp only
  repeat' first | intro _ | with_reducible first | assumption | apply Keeps.ite | apply State.submit_keeps | apply State.setMotif_keeps | apply State.bump_keeps | apply raise_keeps | apply sramUncorrectable_keeps | split | dsimp only

theorem motifAbort_keeps {s0 : State} {m : Nat} {t : Nat} {n : Nat} {c : Cause} {bad : TidList} {s : State} (hs : Keeps s0 s) : Keeps s0 (motifAbort m t n c bad s) := by
  unfold motifAbort
  try dsimp only
  repeat' first | intro _ | with_reducible first | assumption | apply Keeps.ite | apply abortAtMotif_keeps | apply State.submit_keeps | apply replayDecide_keeps | split | dsimp only

theorem tidsShow_keeps {s0 : State} {s : State} (hs : Keeps s0 s) : Keeps s0 (tidsShow s) := by
  unfold tidsShow
  try dsimp only
  repeat' first | intro _ | with_reducible first | assumption | apply Keeps.ite | apply State.peak_keeps | apply State.setObj_keeps | split | dsimp only

theorem openTxn_keeps {s0 : State} {m : Nat} {t : Nat} {planeB : Bool} {c : Nat} {stamp : Stamp} {parent : Nat} {s : State} (hs : Keeps s0 s) : Keeps s0 (openTxn m t planeB c stamp parent s) := by
  unfold openTxn
  try dsimp only
  repeat' first | intro _ | with_reducible first | assumption | apply Keeps.ite | apply State.setTxn_keeps | apply State.setMotif_keeps | apply State.submit_keeps | apply tidsShow_keeps | apply inFlight_keeps | apply State.bump_keeps | apply traceTxn_keeps | split | dsimp only

theorem programFault_keeps {s0 : State} {m : Nat} {t : Nat} {n : Nat} {code : Nat} {s : State} (hs : Keeps s0 s) : Keeps s0 (programFault m t n code s) := by
  unfold programFault
  try dsimp only
  repeat' first | intro _ | with_reducible first | assumption | apply Keeps.ite | apply motifAbort_keeps | split | dsimp only

theorem tryCommit_keeps {s0 : State} {t : Nat} {s : State} (hs : Keeps s0 s) : Keeps s0 (tryCommit t s) := by
  unfold tryCommit
  try dsimp only
  repeat' first | intro _ | with_reducible first | assumption | apply Keeps.ite | apply txnMove_keeps | apply commitTxn_keeps | split | dsimp only

end Sys2Proof.Machine
end

