-- ==== Sys2Proof/Laws/Keeps/Motif.lean ====
section
/-! SUPPORT. What the operations of Machine/Motif.lean keep: the queue, monotone time, free values and life cycle, and the invariant. -/

namespace Sys2Proof.Machine
open Sys2Proof
set_option linter.all false
set_option Elab.async false

theorem cancelAt_keeps {s0 : State} {m : Nat} {d : Nat × Nat × Nat} {tok : Token} {s : State} (hs : Keeps s0 s) : Keeps s0 (cancelAt m d tok s) := by
  unfold cancelAt
  try dsimp only
  repeat' first | intro _ | with_reducible first | assumption | apply Keeps.ite | apply State.bump_keeps | apply traceInsts_keeps | apply State.setMotif_keeps | apply traceDispatch_keeps | apply settleCell_keeps | split | dsimp only

theorem countWaits_keeps {s0 : State} {m : Nat} {pos : Nat} {is : List Inst} {s : State} (hs : Keeps s0 s) : Keeps s0 (countWaits m pos is s) := by
  unfold countWaits
  try dsimp only
  repeat' first | intro _ | with_reducible first | assumption | apply Keeps.ite | apply State.setMotif_keeps | apply State.bump_keeps | apply Keeps.foldl | split | dsimp only

theorem cross_keeps {s0 : State} {q : Nat} {p : Packet} {s : State} (hs : Keeps s0 s) : Keeps s0 (cross q p s) := by
  unfold cross
  try dsimp only
  repeat' first | intro _ | with_reducible first | assumption | apply Keeps.ite | (rw [State.mk_marked]; first | apply Keeps.upd | apply Keeps.updTime | apply Keeps.updFree | apply Keeps.updOd | apply Keeps.updFuses) | split | dsimp only

theorem participate_keeps {s0 : State} {m : Nat} {t : Token} {s : State} (hs : Keeps s0 s) : Keeps s0 (participate m t s).2 := by
  unfold participate
  try dsimp only
  repeat' first | intro _ | with_reducible first | assumption | refine Keeps.snd (by assumption) ?_ | apply Keeps.ite | apply programFault_keeps | apply abortAtMotif_keeps | apply State.setMotif_keeps | split | dsimp only

theorem storeToken_keeps {s0 : State} {m : Nat} {pos : Nat} {slot : Nat} {input : Nat} {t : Token} {s : State} (hs : Keeps s0 s) : Keeps s0 (storeToken m pos slot input t s) := by
  unfold storeToken
  try dsimp only
  repeat' first | intro _ | with_reducible first | assumption | apply Keeps.ite | apply State.peak_keeps | apply State.setMotif_keeps | split | dsimp only

theorem deliverTo_keeps {s0 : State} {m : Nat} {d : Nat × Nat × Nat} {t : Token} {s : State} (hs : Keeps s0 s) : Keeps s0 (deliverTo m d t s) := by
  unfold deliverTo
  try dsimp only
  repeat' first | intro _ | with_reducible first | assumption | refine Keeps.snd (by assumption) ?_ | apply Keeps.ite | apply participate_keeps | apply settleCell_keeps | apply storeToken_keeps | split | dsimp only

theorem execBankPowerTransitionDone_keeps {s0 : State} {m : Nat} {bank : Nat} {s : State} (hs : Keeps s0 s) : OutKeeps s0 (execBankPowerTransitionDone m bank s) := by
  unfold execBankPowerTransitionDone
  try dsimp only
  repeat' first | intro _ | with_reducible first | assumption | apply OutKeeps.done | apply OutKeeps.ite | apply Keeps.ite | apply State.setMotif_keeps | split | dsimp only

theorem writeBankPower_keeps {s0 : State} {m : Nat} {v : Nat} {s : State} (hs : Keeps s0 s) : Keeps s0 (writeBankPower m v s).state := by
  unfold writeBankPower
  try dsimp only
  repeat' first | intro _ | with_reducible first | assumption | apply Keeps.iteR | apply Keeps.ok | apply Keeps.refuse | apply Keeps.ite | apply startBanks_keeps | split | dsimp only

theorem execBankPowerWrite_keeps {s0 : State} {path : Nat} {m : Nat} {v : Nat} {s : State} (hs : Keeps s0 s) : OutKeeps s0 (execBankPowerWrite path m v s) := by
  unfold execBankPowerWrite
  try dsimp only
  repeat' first | intro _ | with_reducible first | assumption | apply OutKeeps.done | apply OutKeeps.ite | apply Keeps.ite | apply Keeps.ok | apply Keeps.refuse | apply Keeps.iteR | apply sdoWrite_keeps | apply writeBankPower_keeps | split | dsimp only

theorem execCancelWordArrival_keeps {s0 : State} {m : Nat} {src : Nat} {s : State} (hs : Keeps s0 s) : OutKeeps s0 (execCancelWordArrival m src s) := by
  unfold execCancelWordArrival
  try dsimp only
  repeat' first | intro _ | with_reducible first | assumption | apply OutKeeps.done | apply OutKeeps.ite | apply Keeps.ite | apply cancelAt_keeps | apply State.setMotif_keeps | apply Keeps.foldl | split | dsimp only

theorem execContextRepair_keeps {s0 : State} {m : Nat} {kind : Nat} {pos : Nat} {slot : Nat} {ecc : Nat} {s : State} (hs : Keeps s0 s) : OutKeeps s0 (execContextRepair m kind pos slot ecc s) := by
  unfold execContextRepair
  try dsimp only
  repeat' first | intro _ | with_reducible first | assumption | apply OutKeeps.done | apply OutKeeps.ite | apply Keeps.ite | apply raise_keeps | apply sramUncorrectable_keeps | apply State.bump_keeps | apply State.setMotif_keeps | apply sramCorrected_keeps | split | dsimp only

theorem setGather_keeps {s0 : State} {m : Nat} {g : Option Gather} {s : State} (hs : Keeps s0 s) : Keeps s0 (setGather m g s) := by
  unfold setGather
  try dsimp only
  repeat' first | intro _ | with_reducible first | assumption | apply Keeps.ite | apply State.setMotif_keeps | split | dsimp only

theorem gatherSend_keeps {s0 : State} {m : Nat} {g : Gather} {dst : Nat} {ws : List Word} {s : State} (hs : Keeps s0 s) : Keeps s0 (gatherSend m g dst ws s) := by
  unfold gatherSend
  try dsimp only
  repeat' first | intro _ | with_reducible first | assumption | apply Keeps.ite | apply State.setMotif_keeps | split | dsimp only

theorem gatherEnd_keeps {s0 : State} {m : Nat} {s : State} (hs : Keeps s0 s) : Keeps s0 (gatherEnd m s) := by
  unfold gatherEnd
  try dsimp only
  repeat' first | intro _ | with_reducible first | assumption | apply Keeps.ite | apply State.bump_keeps | apply setGather_keeps | split | dsimp only

theorem gatherWord_keeps {s0 : State} {m : Nat} {g : Gather} {w : Word} {filled : Bool} {s : State} (hs : Keeps s0 s) : Keeps s0 (gatherWord m g w filled s) := by
  unfold gatherWord
  try dsimp only
  repeat' first | intro _ | with_reducible first | assumption | apply Keeps.ite | apply setGather_keeps | apply gatherSend_keeps | apply gatherEnd_keeps | split | dsimp only

theorem gatherFault_keeps {s0 : State} {m : Nat} {g : Gather} {code : Nat} {a : Nat} {bad : TidList} {s : State} (hs : Keeps s0 s) : Keeps s0 (gatherFault m g code a bad s) := by
  unfold gatherFault
  try dsimp only
  repeat' first | intro _ | with_reducible first | assumption | apply Keeps.ite | apply gatherEnd_keeps | apply gatherSend_keeps | apply raise_keeps | apply motifAbort_keeps | apply programFault_keeps | apply State.bump_keeps | split | dsimp only

theorem execGatherElementRead_keeps {s0 : State} {m : Nat} {ecc : Nat} {bad : TidList} {s : State} (hs : Keeps s0 s) : OutKeeps s0 (execGatherElementRead m ecc bad s) := by
  unfold execGatherElementRead
  try dsimp only
  repeat' first | intro _ | with_reducible first | assumption | refine Keeps.snd (by assumption) ?_ | apply OutKeeps.done | apply OutKeeps.ite | apply Keeps.ite | apply gatherWord_keeps | apply State.bump_keeps | apply gatherFault_keeps | apply atBank_keeps | apply spRead_keeps | split | dsimp only

theorem execGatherStart_keeps {s0 : State} {m : Nat} {s : State} (hs : Keeps s0 s) : OutKeeps s0 (execGatherStart m s) := by
  unfold execGatherStart
  try dsimp only
  repeat' first | intro _ | with_reducible first | assumption | apply OutKeeps.done | apply OutKeeps.ite | apply Keeps.ite | apply State.setMotif_keeps | split | dsimp only

theorem lostToken_keeps {s0 : State} {m : Nat} {pos : Nat} {i : Inst} {tok : Nat} {bad : TidList} {s : State} (hs : Keeps s0 s) : Keeps s0 (lostToken m pos i tok bad s) := by
  unfold lostToken
  try dsimp only
  repeat' first | intro _ | with_reducible first | assumption | apply Keeps.ite | apply sramUncorrectable_keeps | apply motifAbort_keeps | apply settleCell_keeps | apply raise_keeps | apply State.setMotif_keeps | split | dsimp only

theorem noteDispatch_keeps {s0 : State} {m : Nat} {pos : Nat} {ctx : BitVec 128} {i : Inst} {s : State} (hs : Keeps s0 s) : Keeps s0 (noteDispatch m pos ctx i s) := by
  unfold noteDispatch
  try dsimp only
  repeat' first | intro _ | with_reducible first | assumption | apply Keeps.ite | apply traceDispatch_keeps | apply State.bump_keeps | apply Keeps.foldl | split | dsimp only

theorem noteNext_keeps {s0 : State} {m : Nat} {pos : Nat} {ctx : BitVec 128} {i : Inst} {s : State} (hs : Keeps s0 s) : Keeps s0 (noteNext m pos ctx i s) := by
  unfold noteNext
  try dsimp only
  repeat' first | intro _ | with_reducible first | assumption | apply Keeps.ite | apply State.setMotif_keeps | apply State.bump_keeps | split | dsimp only

theorem freeLogs_keeps {s0 : State} {m : Nat} {i : Inst} {s : State} (hs : Keeps s0 s) : Keeps s0 (freeLogs m i s) := by
  unfold freeLogs
  try dsimp only
  repeat' first | intro _ | with_reducible first | assumption | apply Keeps.ite | apply State.setMotif_keeps | split | dsimp only

theorem startRun_keeps {s0 : State} {m : Nat} {pos : Nat} {i : Inst} {s : State} (hs : Keeps s0 s) : Keeps s0 (startRun m pos i s) := by
  unfold startRun
  try dsimp only
  repeat' first | intro _ | with_reducible first | assumption | apply Keeps.ite | apply State.setMotif_keeps | split | dsimp only

theorem runOrFault_keeps {s0 : State} {m : Nat} {pos : Nat} {ctx : BitVec 128} {i : Inst} {s : State} (hs : Keeps s0 s) : Keeps s0 (runOrFault m pos ctx i s) := by
  unfold runOrFault
  try dsimp only
  repeat' first | intro _ | with_reducible first | assumption | apply Keeps.ite | apply startRun_keeps | apply programFault_keeps | apply State.bump_keeps | split | dsimp only

theorem openInst_keeps {s0 : State} {m : Nat} {pos : Nat} {ctx : BitVec 128} {i : Inst} {s : State} (hs : Keeps s0 s) : Keeps s0 (openInst m pos ctx i s) := by
  unfold openInst
  try dsimp only
  repeat' first | intro _ | with_reducible first | assumption | apply Keeps.ite | apply State.bump_keeps | apply freeLogs_keeps | apply lateOpening_keeps | apply openTxn_keeps | apply State.setMotif_keeps | apply programFault_keeps | apply runOrFault_keeps | split | dsimp only

theorem execInstanceDispatch_keeps {s0 : State} {m : Nat} {pos : Nat} {ecc : Nat} {tok : Nat} {bad : TidList} {s : State} (hs : Keeps s0 s) : OutKeeps s0 (execInstanceDispatch m pos ecc tok bad s) := by
  unfold execInstanceDispatch
  try dsimp only
  repeat' first | intro _ | with_reducible first | assumption | apply OutKeeps.done | apply OutKeeps.ite | apply Keeps.ite | apply State.setMotif_keeps | apply sramCorrected_keeps | apply lostToken_keeps | apply settleCell_keeps | apply State.bump_keeps | apply noteDispatch_keeps | apply noteNext_keeps | apply openInst_keeps | apply programFault_keeps | apply runOrFault_keeps | split | dsimp only

theorem execMatchEntryWaitTimeout_keeps {s0 : State} {m : Nat} {src : Nat} {s : State} (hs : Keeps s0 s) : OutKeeps s0 (execMatchEntryWaitTimeout m src s) := by
  unfold execMatchEntryWaitTimeout
  try dsimp only
  repeat' first | intro _ | with_reducible first | assumption | apply OutKeeps.done | apply OutKeeps.ite | apply Keeps.ite | apply State.setMotif_keeps | apply State.bump_keeps | apply programFault_keeps | split | dsimp only

theorem execOrderWindowReached_keeps {s0 : State} {m : Nat} {pos : Nat} {s : State} (hs : Keeps s0 s) : OutKeeps s0 (execOrderWindowReached m pos s) := by
  unfold execOrderWindowReached
  try dsimp only
  repeat' first | intro _ | with_reducible first | assumption | apply OutKeeps.done | apply OutKeeps.ite | apply Keeps.ite | apply settleCell_keeps | split | dsimp only

theorem logToken_keeps {s0 : State} {s : State} {m : Nat} {endpoint : Nat} {t : Token} (hs : Keeps s0 s) : Keeps s0 (logToken s m endpoint t).2 := by
  unfold logToken
  try dsimp only
  repeat' first | intro _ | with_reducible first | assumption | refine Keeps.snd (by assumption) ?_ | apply Keeps.ite | apply State.peak_keeps | apply State.setMotif_keeps | apply raise_keeps | apply State.bump_keeps | split | dsimp only

theorem execTokenDelivery_keeps {s0 : State} {m : Nat} {src : Nat} {s : State} (hs : Keeps s0 s) : OutKeeps s0 (execTokenDelivery m src s) := by
  unfold execTokenDelivery
  try dsimp only
  repeat' first | intro _ | with_reducible first | assumption | refine Keeps.snd (by assumption) ?_ | apply OutKeeps.done | apply OutKeeps.ite | apply Keeps.ite | apply State.setMotif_keeps | apply cross_keeps | apply State.bump_keeps | apply logToken_keeps | apply deliverTo_keeps | apply Keeps.foldl | apply Keeps.foldlP | split | dsimp only

theorem execWinnerSelection_keeps {s0 : State} {m : Nat} {pos : Nat} {s : State} (hs : Keeps s0 s) : OutKeeps s0 (execWinnerSelection m pos s) := by
  unfold execWinnerSelection
  try dsimp only
  repeat' first | intro _ | with_reducible first | assumption | apply OutKeeps.done | apply OutKeeps.ite | apply Keeps.ite | apply countWaits_keeps | apply settleCell_keeps | apply State.setMotif_keeps | split | dsimp only

theorem scrubAlone_keeps {s0 : State} {m : Nat} {a : Nat} {ecc : Nat} {used : Bool} {s : State} (hs : Keeps s0 s) : Keeps s0 (scrubAlone m a ecc used s) := by
  unfold scrubAlone
  try dsimp only
  repeat' first | intro _ | with_reducible first | assumption | apply Keeps.ite | apply raise_keeps | apply spBad_keeps | apply sramCorrected_keeps | split | dsimp only

theorem scrubWord_keeps {s0 : State} {m : Nat} {a : Nat} {ecc : Nat} {s : State} (hs : Keeps s0 s) : Keeps s0 (scrubWord m a ecc s) := by
  unfold scrubWord
  try dsimp only
  repeat' first | intro _ | with_reducible first | assumption | refine Keeps.snd (by assumption) ?_ | apply Keeps.ite | apply mirrorFail_keeps | apply sramUncorrectable_keeps | apply State.setMotif_keeps | apply scrubAlone_keeps | apply spAccess_keeps | apply raise_keeps | split | dsimp only

theorem scrubScratch_keeps {s0 : State} {m : Nat} {a : Nat} {ecc : Nat} {s : State} (hs : Keeps s0 s) : Keeps s0 (scrubScratch m a ecc s) := by
  unfold scrubScratch
  try dsimp only
  repeat' first | intro _ | with_reducible first | assumption | apply Keeps.ite | apply atBank_keeps | apply scrubWord_keeps | split | dsimp only

end Sys2Proof.Machine
end

