-- ==== Sys2Proof/Laws/Keeps/StreamQueue.lean ====
section
/-! SUPPORT. What the operations of Machine/StreamQueue.lean keep: the queue, monotone time, free values and life cycle, and the invariant. -/

namespace Sys2Proof.Machine
open Sys2Proof
set_option linter.all false
set_option Elab.async false

theorem State.setSqueue_keeps {s0 : State} {s : State} {h : Nat} {q : Nat} {x4 : StreamQ} (hs : Keeps s0 s) : Keeps s0 (State.setSqueue s h q x4) := by
  unfold State.setSqueue
  try dsimp only
  repeat' first | intro _ | with_reducible first | assumption | apply Keeps.ite | (rw [State.mk_marked]; first | apply Keeps.upd | apply Keeps.updTime | apply Keeps.updFree | apply Keeps.updOd | apply Keeps.updFuses) | split | dsimp only

theorem storeWords_keeps {s0 : State} {a : Nat} {ws : List Word} {s : State} (hs : Keeps s0 s) : Keeps s0 (storeWords a ws s) := by
  unfold storeWords
  try dsimp only
  repeat' first | intro _ | with_reducible first | assumption | apply Keeps.ite | apply State.setHoop_keeps | apply dramWrite_keeps | split | dsimp only

theorem ageSlot_keeps {s0 : State} {f : Stamp → Bool → Ageing} {k : Nat} {i : Nat} {s : State} (hs : Keeps s0 s) : Keeps s0 (ageSlot f k i s) := by
  unfold ageSlot
  try dsimp only
  repeat' first | intro _ | with_reducible first | assumption | apply Keeps.ite | apply storeWords_keeps | apply State.bump_keeps | (rw [State.mk_marked]; first | apply Keeps.upd | apply Keeps.updTime | apply Keeps.updFree | apply Keeps.updOd | apply Keeps.updFuses) | split | dsimp only

theorem ageQueue_keeps {s0 : State} {f : Stamp → Bool → Ageing} {k : Nat} {s : State} (hs : Keeps s0 s) : Keeps s0 (ageQueue f k s) := by
  unfold ageQueue
  try dsimp only
  repeat' first | intro _ | with_reducible first | assumption | apply Keeps.ite | apply ageSlot_keeps | apply Keeps.foldl | (rw [State.mk_marked]; first | apply Keeps.upd | apply Keeps.updTime | apply Keeps.updFree | apply Keeps.updOd | apply Keeps.updFuses) | split | dsimp only

theorem ageQueues_keeps {s0 : State} {f : Stamp → Bool → Ageing} {s : State} (hs : Keeps s0 s) : Keeps s0 (ageQueues f s) := by
  unfold ageQueues
  try dsimp only
  repeat' first | intro _ | with_reducible first | assumption | apply Keeps.ite | apply ageQueue_keeps | apply Keeps.foldl | split | dsimp only

theorem ageAll_keeps {s0 : State} {f : Stamp → Bool → Ageing} {s : State} (hs : Keeps s0 s) : Keeps s0 (ageAll f s) := by
  unfold ageAll
  try dsimp only
  repeat' first | intro _ | with_reducible first | assumption | apply Keeps.ite | apply ageQueues_keeps | apply ageSelvedge_keeps | apply ageMotif_keeps | apply Keeps.foldl | split | dsimp only

theorem slotCheck_keeps {s0 : State} {a : Nat} {ecc : Nat} {s : State} (hs : Keeps s0 s) : Keeps s0 (slotCheck a ecc s).2 := by
  unfold slotCheck
  try dsimp only
  repeat' first | intro _ | with_reducible first | assumption | refine Keeps.snd (by assumption) ?_ | apply Keeps.ite | apply hoopChecks_keeps | apply dramCheck_keeps | split | dsimp only

end Sys2Proof.Machine
end

