-- ==== Sys2Proof/Laws/Keeps/Time.lean ====
section
/-! SUPPORT. What the operations of Machine/Time.lean keep: the queue, monotone time, free values and life cycle, and the invariant. -/

namespace Sys2Proof.Machine
open Sys2Proof
set_option linter.all false
set_option Elab.async false

theorem State.setTimer_keeps {s0 : State} {s : State} {planeB : Bool} {n : Nat} {x4 : Timer} (hs : Keeps s0 s) : Keeps s0 (State.setTimer s planeB n x4) := by
  unfold State.setTimer
  try dsimp only
  repeat' first | intro _ | with_reducible first | assumption | apply Keeps.ite | (rw [State.mk_marked]; first | apply Keeps.upd | apply Keeps.updTime | apply Keeps.updFree | apply Keeps.updOd | apply Keeps.updFuses) | exact Nat.le_refl _ | exact id | exact Nat.le_add_right _ _ | (exact mset_wf _ _ _ _ (by assumption)) | exact Nat.mod_lt _ (by decide) | exact ⟨Nat.le_refl _, by assumption⟩ | split | dsimp only

theorem flushCaches_keeps {s0 : State} {s : State} (hs : Keeps s0 s) : Keeps s0 (flushCaches s) := by
  unfold flushCaches
  try dsimp only
  repeat' first | intro _ | with_reducible first | assumption | apply Keeps.ite | apply State.setObj_keeps | (rw [State.mk_marked]; first | apply Keeps.upd | apply Keeps.updTime | apply Keeps.updFree | apply Keeps.updOd | apply Keeps.updFuses) | exact Nat.le_refl _ | exact id | exact Nat.le_add_right _ _ | (exact mset_wf _ _ _ _ (by assumption)) | exact Nat.mod_lt _ (by decide) | exact ⟨Nat.le_refl _, by assumption⟩ | split | dsimp only

theorem saveHeadroom_keeps {s0 : State} {s : State} (hs : Keeps s0 s) : Keeps s0 (saveHeadroom s) := by
  unfold saveHeadroom
  try dsimp only
  repeat' first | intro _ | with_reducible first | assumption | apply Keeps.ite | apply State.setObj_keeps | apply Keeps.foldl | split | dsimp only

theorem snapshot_keeps {s0 : State} {s01 : State} (hs01 : Keeps s0 s01) : Keeps s0 (snapshot s01) := by
  unfold snapshot
  try dsimp only
  repeat' first | intro _ | with_reducible first | assumption | apply Keeps.ite | apply saveHeadroom_keeps | apply State.interrupt_keeps | apply traceBlockPut_keeps | apply State.setObj_keeps | apply Keeps.foldl | (rw [State.mk_marked]; first | apply Keeps.upd | apply Keeps.updTime | apply Keeps.updFree | apply Keeps.updOd | apply Keeps.updFuses) | exact Nat.le_refl _ | exact id | exact Nat.le_add_right _ _ | (exact mset_wf _ _ _ _ (by assumption)) | exact Nat.mod_lt _ (by decide) | exact ⟨Nat.le_refl _, by assumption⟩ | split | dsimp only

theorem housekeeping_keeps {s0 : State} {s : State} (hs : Keeps s0 s) : Keeps s0 (housekeeping s) := by
  unfold housekeeping
  try dsimp only
  repeat' first | intro _ | with_reducible first | assumption | apply Keeps.ite | apply flushCaches_keeps | apply traceClose_keeps | apply snapshot_keeps | split | dsimp only

theorem doStep_keeps {s0 : State} {newT : Nat} {s : State} (hs : Keeps s0 s) : Keeps s0 (doStep newT s) := by
  unfold doStep
  try dsimp only
  repeat' first | intro _ | with_reducible first | assumption | apply Keeps.ite | apply ageAll_keeps | apply clearMarks_keeps | apply housekeeping_keeps | apply State.setObj_keeps | apply State.bump_keeps | apply sample_keeps | apply emit_keeps | (rw [State.mk_marked]; first | apply Keeps.upd | apply Keeps.updTime | apply Keeps.updFree | apply Keeps.updOd | apply Keeps.updFuses) | exact Nat.le_refl _ | exact id | exact Nat.le_add_right _ _ | (exact mset_wf _ _ _ _ (by assumption)) | exact Nat.mod_lt _ (by decide) | exact ⟨Nat.le_refl _, by assumption⟩ | split | dsimp only

theorem tbEnter_keeps {s0 : State} {new : Nat} {s : State} (hs : Keeps s0 s) : Keeps s0 (tbEnter new s) := by
  unfold tbEnter
  try dsimp only
  repeat' first | intro _ | with_reducible first | assumption | apply Keeps.ite | apply notLockedAbandon_keeps | apply State.bump_keeps | apply State.setObj_keeps | apply setCond_keeps | (rw [State.mk_marked]; first | apply Keeps.upd | apply Keeps.updTime | apply Keeps.updFree | apply Keeps.updOd | apply Keeps.updFuses) | exact Nat.le_refl _ | exact id | exact Nat.le_add_right _ _ | (exact mset_wf _ _ _ _ (by assumption)) | exact Nat.mod_lt _ (by decide) | exact ⟨Nat.le_refl _, by assumption⟩ | split | dsimp only

theorem judgeOffset_keeps {s0 : State} {need : Nat} {off : Int} {allowed : Bool} {s : State} (hs : Keeps s0 s) : Keeps s0 (judgeOffset need off allowed s) := by
  unfold judgeOffset
  try dsimp only
  repeat' first | intro _ | with_reducible first | assumption | apply Keeps.ite | apply tbEnter_keeps | (rw [State.mk_marked]; first | apply Keeps.upd | apply Keeps.updTime | apply Keeps.updFree | apply Keeps.updOd | apply Keeps.updFuses) | exact Nat.le_refl _ | exact id | exact Nat.le_add_right _ _ | (exact mset_wf _ _ _ _ (by assumption)) | exact Nat.mod_lt _ (by decide) | exact ⟨Nat.le_refl _, by assumption⟩ | split | dsimp only

theorem setFreqCorr_keeps {s0 : State} {v : Int} {s : State} (hs : Keeps s0 s) : Keeps s0 (setFreqCorr v s) := by
  unfold setFreqCorr
  try dsimp only
  repeat' first | intro _ | with_reducible first | assumption | apply Keeps.ite | apply State.setObj_keeps | split | dsimp only

theorem loopUpdate_keeps {s0 : State} {off : Int} {s : State} (hs : Keeps s0 s) : Keeps s0 (loopUpdate off s) := by
  unfold loopUpdate
  try dsimp only
  repeat' first | intro _ | with_reducible first | assumption | refine Keeps.snd (by assumption) ?_ | apply Keeps.ite | apply State.fresh_keeps | apply setFreqCorr_keeps | (rw [State.mk_marked]; first | apply Keeps.upd | apply Keeps.updTime | apply Keeps.updFree | apply Keeps.updOd | apply Keeps.updFuses) | exact Nat.le_refl _ | exact id | exact Nat.le_add_right _ _ | (exact mset_wf _ _ _ _ (by assumption)) | exact Nat.mod_lt _ (by decide) | exact ⟨Nat.le_refl _, by assumption⟩ | split | dsimp only

theorem noteOffset_keeps {s0 : State} {off : Int} {s : State} (hs : Keeps s0 s) : Keeps s0 (noteOffset off s) := by
  unfold noteOffset
  try dsimp only
  repeat' first | intro _ | with_reducible first | assumption | apply Keeps.ite | apply State.setObj_keeps | apply State.peak_keeps | split | dsimp only

theorem execDcOffsetMeasurement_keeps {s0 : State} {dc : Nat} {s : State} (hs : Keeps s0 s) : OutKeeps s0 (execDcOffsetMeasurement dc s) := by
  unfold execDcOffsetMeasurement
  try dsimp only
  repeat' first | intro _ | with_reducible first | assumption | apply OutKeeps.done | apply OutKeeps.ite | apply Keeps.ite | apply judgeOffset_keeps | apply loopUpdate_keeps | apply noteOffset_keeps | (rw [State.mk_marked]; first | apply Keeps.upd | apply Keeps.updTime | apply Keeps.updFree | apply Keeps.updOd | apply Keeps.updFuses) | exact Nat.le_refl _ | exact id | exact Nat.le_add_right _ _ | (exact mset_wf _ _ _ _ (by assumption)) | exact Nat.mod_lt _ (by decide) | exact ⟨Nat.le_refl _, by assumption⟩ | split | dsimp only

theorem holdover_keeps {s0 : State} {s : State} (hs : Keeps s0 s) : Keeps s0 (holdover s) := by
  unfold holdover
  try dsimp only
  repeat' first | intro _ | with_reducible first | assumption | apply Keeps.ite | apply setFreqCorr_keeps | apply tbEnter_keeps | split | dsimp only

theorem execDcReferenceLoss_keeps {s0 : State} {s : State} (hs : Keeps s0 s) : OutKeeps s0 (execDcReferenceLoss s) := by
  unfold execDcReferenceLoss
  try dsimp only
  repeat' first | intro _ | with_reducible first | assumption | apply OutKeeps.done | apply OutKeeps.ite | apply Keeps.ite | apply holdover_keeps | split | dsimp only

theorem touchRef_keeps {s0 : State} {s : State} (hs : Keeps s0 s) : Keeps s0 (touchRef s) := by
  unfold touchRef
  try dsimp only
  repeat' first | intro _ | with_reducible first | assumption | apply Keeps.ite | (rw [State.mk_marked]; first | apply Keeps.upd | apply Keeps.updTime | apply Keeps.updFree | apply Keeps.updOd | apply Keeps.updFuses) | exact Nat.le_refl _ | exact id | exact Nat.le_add_right _ _ | (exact mset_wf _ _ _ _ (by assumption)) | exact Nat.mod_lt _ (by decide) | exact ⟨Nat.le_refl _, by assumption⟩ | split | dsimp only

theorem execDcSystemTimeUpdate_keeps {s0 : State} {_dc : Nat} {s : State} (hs : Keeps s0 s) : OutKeeps s0 (execDcSystemTimeUpdate _dc s) := by
  unfold execDcSystemTimeUpdate
  try dsimp only
  repeat' first | intro _ | with_reducible first | assumption | apply OutKeeps.done | apply OutKeeps.ite | apply Keeps.ite | apply touchRef_keeps | apply tbEnter_keeps | split | dsimp only

theorem execPpsEdge_keeps {s0 : State} {s : State} (hs : Keeps s0 s) : OutKeeps s0 (execPpsEdge s) := by
  unfold execPpsEdge
  try dsimp only
  repeat' first | intro _ | with_reducible first | assumption | apply OutKeeps.done | apply OutKeeps.ite | apply Keeps.ite | apply touchRef_keeps | apply State.setObj_keeps | apply loopUpdate_keeps | apply noteOffset_keeps | apply tbEnter_keeps | apply doStep_keeps | apply judgeOffset_keeps | (rw [State.mk_marked]; first | apply Keeps.upd | apply Keeps.updTime | apply Keeps.updFree | apply Keeps.updOd | apply Keeps.updFuses) | exact Nat.le_refl _ | exact id | exact Nat.le_add_right _ _ | (exact mset_wf _ _ _ _ (by assumption)) | exact Nat.mod_lt _ (by decide) | exact ⟨Nat.le_refl _, by assumption⟩ | split | dsimp only

theorem writePpsNext_keeps {s0 : State} {v : Nat} {s : State} (hs : Keeps s0 s) : Keeps s0 (writePpsNext v s).state := by
  unfold writePpsNext
  try dsimp only
  repeat' first | intro _ | with_reducible first | assumption | apply Keeps.iteR | apply Keeps.ok | apply Keeps.refuse | apply Keeps.ite | apply State.setObj_keeps | split | dsimp only

theorem execPpsNextWrite_keeps {s0 : State} {path : Nat} {v : Nat} {s : State} (hs : Keeps s0 s) : OutKeeps s0 (execPpsNextWrite path v s) := by
  unfold execPpsNextWrite
  try dsimp only
  repeat' first | intro _ | with_reducible first | assumption | apply OutKeeps.done | apply OutKeeps.ite | apply Keeps.ite | apply Keeps.ok | apply Keeps.refuse | apply Keeps.iteR | apply sdoWrite_keeps | apply writePpsNext_keeps | split | dsimp only

theorem execPpsOutFall_keeps {s0 : State} {s : State} (hs : Keeps s0 s) : OutKeeps s0 (execPpsOutFall s) := by
  unfold execPpsOutFall
  try dsimp only
  repeat' first | intro _ | with_reducible first | assumption | apply OutKeeps.done | apply OutKeeps.ite | apply Keeps.ite | (rw [State.mk_marked]; first | apply Keeps.upd | apply Keeps.updTime | apply Keeps.updFree | apply Keeps.updOd | apply Keeps.updFuses) | exact Nat.le_refl _ | exact id | exact Nat.le_add_right _ _ | (exact mset_wf _ _ _ _ (by assumption)) | exact Nat.mod_lt _ (by decide) | exact ⟨Nat.le_refl _, by assumption⟩ | split | dsimp only

theorem execPpsOutRise_keeps {s0 : State} {s : State} (hs : Keeps s0 s) : OutKeeps s0 (execPpsOutRise s) := by
  unfold execPpsOutRise
  try dsimp only
  repeat' first | intro _ | with_reducible first | assumption | apply OutKeeps.done | apply OutKeeps.ite | apply Keeps.ite | (rw [State.mk_marked]; first | apply Keeps.upd | apply Keeps.updTime | apply Keeps.updFree | apply Keeps.updOd | apply Keeps.updFuses) | exact Nat.le_refl _ | exact id | exact Nat.le_add_right _ _ | (exact mset_wf _ _ _ _ (by assumption)) | exact Nat.mod_lt _ (by decide) | exact ⟨Nat.le_refl _, by assumption⟩ | split | dsimp only

theorem execPpsReferenceLoss_keeps {s0 : State} {s : State} (hs : Keeps s0 s) : OutKeeps s0 (execPpsReferenceLoss s) := by
  unfold execPpsReferenceLoss
  try dsimp only
  repeat' first | intro _ | with_reducible first | assumption | apply OutKeeps.done | apply OutKeeps.ite | apply Keeps.ite | apply holdover_keeps | (rw [State.mk_marked]; first | apply Keeps.upd | apply Keeps.updTime | apply Keeps.updFree | apply Keeps.updOd | apply Keeps.updFuses) | exact Nat.le_refl _ | exact id | exact Nat.le_add_right _ _ | (exact mset_wf _ _ _ _ (by assumption)) | exact Nat.mod_lt _ (by decide) | exact ⟨Nat.le_refl _, by assumption⟩ | split | dsimp only

theorem startAcquiring_keeps {s0 : State} {s : State} (hs : Keeps s0 s) : Keeps s0 (startAcquiring s) := by
  unfold startAcquiring
  try dsimp only
  repeat' first | intro _ | with_reducible first | assumption | apply Keeps.ite | apply tbEnter_keeps | (rw [State.mk_marked]; first | apply Keeps.upd | apply Keeps.updTime | apply Keeps.updFree | apply Keeps.updOd | apply Keeps.updFuses) | exact Nat.le_refl _ | exact id | exact Nat.le_add_right _ _ | (exact mset_wf _ _ _ _ (by assumption)) | exact Nat.mod_lt _ (by decide) | exact ⟨Nat.le_refl _, by assumption⟩ | split | dsimp only

theorem writeSource_keeps {s0 : State} {v : Nat} {s : State} (hs : Keeps s0 s) : Keeps s0 (writeSource v s).state := by
  unfold writeSource
  try dsimp only
  repeat' first | intro _ | with_reducible first | assumption | apply Keeps.iteR | apply Keeps.ok | apply Keeps.refuse | apply Keeps.ite | apply setFreqCorr_keeps | apply tbEnter_keeps | apply State.setObj_keeps | apply startAcquiring_keeps | split | dsimp only

theorem execTimeSourceWrite_keeps {s0 : State} {path : Nat} {v : Nat} {s : State} (hs : Keeps s0 s) : OutKeeps s0 (execTimeSourceWrite path v s) := by
  unfold execTimeSourceWrite
  try dsimp only
  repeat' first | intro _ | with_reducible first | assumption | apply OutKeeps.done | apply OutKeeps.ite | apply Keeps.ite | apply Keeps.ok | apply Keeps.refuse | apply Keeps.iteR | apply sdoWrite_keeps | apply writeSource_keeps | split | dsimp only

theorem execTimeStep_keeps {s0 : State} {dc : Nat} {s : State} (hs : Keeps s0 s) : OutKeeps s0 (execTimeStep dc s) := by
  unfold execTimeStep
  try dsimp only
  repeat' first | intro _ | with_reducible first | assumption | apply OutKeeps.done | apply OutKeeps.ite | apply Keeps.ite | apply tbEnter_keeps | apply doStep_keeps | split | dsimp only

theorem writeTimerEnable_keeps {s0 : State} {n : Nat} {v : Bool} {s : State} (hs : Keeps s0 s) : Keeps s0 (writeTimerEnable n v s).state := by
  unfold writeTimerEnable
  try dsimp only
  repeat' first | intro _ | with_reducible first | assumption | apply Keeps.iteR | apply Keeps.ok | apply Keeps.refuse | apply Keeps.ite | apply State.setTimer_keeps | split | dsimp only

theorem execTimerEnableWrite_keeps {s0 : State} {path : Nat} {n : Nat} {v : Bool} {s : State} (hs : Keeps s0 s) : OutKeeps s0 (execTimerEnableWrite path n v s) := by
  unfold execTimerEnableWrite
  try dsimp only
  repeat' first | intro _ | with_reducible first | assumption | apply OutKeeps.done | apply OutKeeps.ite | apply Keeps.ite | apply Keeps.ok | apply Keeps.refuse | apply Keeps.iteR | apply sdoWrite_keeps | apply writeTimerEnable_keeps | split | dsimp only

theorem execTokenTimerFiring_keeps {s0 : State} {planeB : Bool} {n : Nat} {s : State} (hs : Keeps s0 s) : OutKeeps s0 (execTokenTimerFiring planeB n s) := by
  unfold execTokenTimerFiring
  try dsimp only
  repeat' first | intro _ | with_reducible first | assumption | apply OutKeeps.done | apply OutKeeps.ite | apply Keeps.ite | apply State.bump_keeps | apply State.setTimer_keeps | apply State.submit_keeps | split | dsimp only

theorem staleSweep_keeps {s0 : State} {s : State} (hs : Keeps s0 s) : Keeps s0 (staleSweep s) := by
  unfold staleSweep
  try dsimp only
  repeat' first | intro _ | with_reducible first | assumption | apply Keeps.ite | apply ageAll_keeps | split | dsimp only

theorem tbBegin_keeps {s0 : State} {s : State} (hs : Keeps s0 s) : Keeps s0 (tbBegin s) := by
  unfold tbBegin
  try dsimp only
  repeat' first | intro _ | with_reducible first | assumption | apply Keeps.ite | apply startAcquiring_keeps | split | dsimp only

theorem tick_keeps {s0 : State} {s : State} (hs : Keeps s0 s) : Keeps s0 (tick s) := by
  unfold tick
  try dsimp only
  repeat' first | intro _ | with_reducible first | assumption | apply Keeps.ite | (rw [State.mk_marked]; first | apply Keeps.upd | apply Keeps.updTime | apply Keeps.updFree | apply Keeps.updOd | apply Keeps.updFuses) | exact Nat.le_refl _ | exact id | exact Nat.le_add_right _ _ | (exact mset_wf _ _ _ _ (by assumption)) | exact Nat.mod_lt _ (by decide) | exact ⟨Nat.le_refl _, by assumption⟩ | split | dsimp only

end Sys2Proof.Machine
end

