-- ==== Sys2Proof/Laws/Keeps/Txn.lean ====
section
/-! SUPPORT. What the operations of Machine/Txn.lean keep: the queue, monotone time, free values and life cycle, and the invariant. -/

namespace Sys2Proof.Machine
open Sys2Proof
set_option linter.all false
set_option Elab.async false

theorem entryEcc_keeps {s0 : State} {t : Nat} {ecc : Nat} {s : State} (hs : Keeps s0 s) : Keeps s0 (entryEcc t ecc s) := by
  unfold entryEcc
  try dsimp only
  repeat' first | intro _ | with_reducible first | assumption | apply Keeps.ite | apply selvAbort_keeps | apply State.bump_keeps | split | dsimp only

theorem takePacket_keeps {s0 : State} {f : Packet → Bool} {s : State} (hs : Keeps s0 s) : OptPKeeps s0 (takePacket f s) := by
  unfold takePacket
  try dsimp only
  repeat' first | intro _ | with_reducible first | assumption | refine Keeps.snd (by assumption) ?_ | refine OptPKeeps.get (by assumption) ?_ | apply Keeps.ite | apply OptPKeeps.none | apply OptPKeeps.some | apply Keeps.ite | (rw [State.mk_marked]; first | apply Keeps.upd | apply Keeps.updTime | apply Keeps.updFree | apply Keeps.updOd | apply Keeps.updFuses) | split | dsimp only

theorem execAbortNotice_keeps {s0 : State} {m : Nat} {tid : Nat} {bad : TidList} {s : State} (hs : Keeps s0 s) : OutKeeps s0 (execAbortNotice m tid bad s) := by
  unfold execAbortNotice
  try dsimp only
  repeat' first | intro _ | with_reducible first | assumption | refine Keeps.snd (by assumption) ?_ | refine OptPKeeps.get (by assumption) ?_ | apply OutKeeps.done | apply OutKeeps.ite | apply Keeps.ite | apply takePacket_keeps | apply deadlineGone_keeps | apply selvAbort_keeps | apply abortAtMotif_keeps | apply replayDecide_keeps | split | dsimp only

theorem execChildRecheck_keeps {s0 : State} {tid : Nat} {ecc : Nat} {s : State} (hs : Keeps s0 s) : OutKeeps s0 (execChildRecheck tid ecc s) := by
  unfold execChildRecheck
  try dsimp only
  repeat' first | intro _ | with_reducible first | assumption | apply OutKeeps.done | apply OutKeeps.ite | apply Keeps.ite | apply tryCommit_keeps | apply entryEcc_keeps | apply deadlineGone_keeps | (rw [State.mk_marked]; first | apply Keeps.upd | apply Keeps.updTime | apply Keeps.updFree | apply Keeps.updOd | apply Keeps.updFuses) | split | dsimp only

theorem execCloseHandover_keeps {s0 : State} {m : Nat} {tid : Nat} {s : State} (hs : Keeps s0 s) : OutKeeps s0 (execCloseHandover m tid s) := by
  unfold execCloseHandover
  try dsimp only
  repeat' first | intro _ | with_reducible first | assumption | apply OutKeeps.done | apply OutKeeps.ite | apply Keeps.ite | apply State.submit_keeps | apply State.setMotif_keeps | split | dsimp only

theorem execCloseNotice_keeps {s0 : State} {tid : Nat} {ecc : Nat} {s : State} (hs : Keeps s0 s) : OutKeeps s0 (execCloseNotice tid ecc s) := by
  unfold execCloseNotice
  try dsimp only
  repeat' first | intro _ | with_reducible first | assumption | refine Keeps.snd (by assumption) ?_ | refine OptPKeeps.get (by assumption) ?_ | apply OutKeeps.done | apply OutKeeps.ite | apply Keeps.ite | apply takePacket_keeps | apply deadlineGone_keeps | apply State.bump_keeps | apply tryCommit_keeps | apply entryEcc_keeps | apply State.setTxn_keeps | split | dsimp only

theorem execCloseReport_keeps {s0 : State} {m : Nat} {tid : Nat} {s : State} (hs : Keeps s0 s) : OutKeeps s0 (execCloseReport m tid s) := by
  unfold execCloseReport
  try dsimp only
  repeat' first | intro _ | with_reducible first | assumption | apply OutKeeps.done | apply OutKeeps.ite | apply Keeps.ite | apply State.setMotif_keeps | split | dsimp only

theorem execCommitNotice_keeps {s0 : State} {m : Nat} {tid : Nat} {s : State} (hs : Keeps s0 s) : OutKeeps s0 (execCommitNotice m tid s) := by
  unfold execCommitNotice
  try dsimp only
  repeat' first | intro _ | with_reducible first | assumption | refine Keeps.snd (by assumption) ?_ | refine OptPKeeps.get (by assumption) ?_ | apply OutKeeps.done | apply OutKeeps.ite | apply Keeps.ite | apply takePacket_keeps | apply State.setMotif_keeps | split | dsimp only

theorem execDeadlineCheck_keeps {s0 : State} {s : State} (hs : Keeps s0 s) : OutKeeps s0 (execDeadlineCheck s) := by
  unfold execDeadlineCheck
  try dsimp only
  repeat' first | intro _ | with_reducible first | assumption | apply OutKeeps.done | apply OutKeeps.ite | apply Keeps.ite | apply deadlineCheck_keeps | apply Keeps.foldl | split | dsimp only

theorem execNoReplayNotice_keeps {s0 : State} {tid : Nat} {s : State} (hs : Keeps s0 s) : OutKeeps s0 (execNoReplayNotice tid s) := by
  unfold execNoReplayNotice
  try dsimp only
  repeat' first | intro _ | with_reducible first | assumption | refine Keeps.snd (by assumption) ?_ | refine OptPKeeps.get (by assumption) ?_ | apply OutKeeps.done | apply OutKeeps.ite | apply Keeps.ite | apply takePacket_keeps | apply deadlineGone_keeps | apply State.setTxn_keeps | split | dsimp only

theorem execOpeningNotice_keeps {s0 : State} {tid : Nat} {s : State} (hs : Keeps s0 s) : OutKeeps s0 (execOpeningNotice tid s) := by
  unfold execOpeningNotice
  try dsimp only
  repeat' first | intro _ | with_reducible first | assumption | refine Keeps.snd (by assumption) ?_ | refine OptPKeeps.get (by assumption) ?_ | apply OutKeeps.done | apply OutKeeps.ite | apply Keeps.ite | apply takePacket_keeps | apply deadlineGone_keeps | apply txnMove_keeps | split | dsimp only

theorem execReentryInject_keeps {s0 : State} {s : State} (hs : Keeps s0 s) : OutKeeps s0 (execReentryInject s) := by
  unfold execReentryInject
  try dsimp only
  repeat' first | intro _ | with_reducible first | assumption | apply OutKeeps.done | apply OutKeeps.ite | apply Keeps.ite | apply enterFree_keeps | (rw [State.mk_marked]; first | apply Keeps.upd | apply Keeps.updTime | apply Keeps.updFree | apply Keeps.updOd | apply Keeps.updFuses) | split | dsimp only

theorem silenceKids_keeps {s0 : State} {a : Nat} {a2 : Nat} {a3 : State} (ha3 : Keeps s0 a3) : Keeps s0 (silenceKids a a2 a3) := by
  induction a generalizing a2 a3 with
  | zero =>
    unfold silenceKids
    try dsimp only
    repeat' first | intro _ | with_reducible first | assumption | apply Keeps.ite | apply State.bump_keeps | apply State.setTxn_keeps | apply Keeps.foldl | (rw [State.mk_marked]; first | apply Keeps.upd | apply Keeps.updTime | apply Keeps.updFree | apply Keeps.updOd | apply Keeps.updFuses) | split | dsimp only
  | succ n ih =>
    unfold silenceKids
    try dsimp only
    repeat' first | intro _ | with_reducible first | assumption | apply ih | apply Keeps.ite | apply State.bump_keeps | apply State.setTxn_keeps | apply Keeps.foldl | (rw [State.mk_marked]; first | apply Keeps.upd | apply Keeps.updTime | apply Keeps.updFree | apply Keeps.updOd | apply Keeps.updFuses) | split | dsimp only

theorem execReplayNotice_keeps {s0 : State} {tid : Nat} {s : State} (hs : Keeps s0 s) : OutKeeps s0 (execReplayNotice tid s) := by
  unfold execReplayNotice
  try dsimp only
  repeat' first | intro _ | with_reducible first | assumption | refine Keeps.snd (by assumption) ?_ | refine OptPKeeps.get (by assumption) ?_ | apply OutKeeps.done | apply OutKeeps.ite | apply Keeps.ite | apply takePacket_keeps | apply deadlineAt_keeps | apply silenceKids_keeps | apply txnMove_keeps | split | dsimp only

theorem queueAdd_keeps {s0 : State} {port : Nat} {e : Entry} {s : State} (hs : Keeps s0 s) : Keeps s0 (queueAdd port e s) := by
  unfold queueAdd
  try dsimp only
  repeat' first | intro _ | with_reducible first | assumption | apply Keeps.ite | apply State.peak_keeps | apply entriesShow_keeps | apply State.setQueue_keeps | split | dsimp only

theorem execSelvedgeEntryArrival_keeps {s0 : State} {port : Nat} {s : State} (hs : Keeps s0 s) : OutKeeps s0 (execSelvedgeEntryArrival port s) := by
  unfold execSelvedgeEntryArrival
  try dsimp only
  repeat' first | intro _ | with_reducible first | assumption | refine Keeps.snd (by assumption) ?_ | refine OptPKeeps.get (by assumption) ?_ | apply OutKeeps.done | apply OutKeeps.ite | apply Keeps.ite | apply takePacket_keeps | apply deadlineGone_keeps | apply State.bump_keeps | apply selvAbort_keeps | apply queueAdd_keeps | (rw [State.mk_marked]; first | apply Keeps.upd | apply Keeps.updTime | apply Keeps.updFree | apply Keeps.updOd | apply Keeps.updFuses) | split | dsimp only

theorem execStoreBufferDrain_keeps {s0 : State} {m : Nat} {ecc : Nat} {entry : Nat} {s : State} (hs : Keeps s0 s) : OutKeeps s0 (execStoreBufferDrain m ecc entry s) := by
  unfold execStoreBufferDrain
  try dsimp only
  repeat' first | intro _ | with_reducible first | assumption | apply OutKeeps.done | apply OutKeeps.ite | apply Keeps.ite | apply State.setMotif_keeps | apply sbBad_keeps | apply spStore_keeps | apply sramCorrected_keeps | split | dsimp only

theorem writeSuspend_keeps {s0 : State} {c : Nat} {v : Bool} {s : State} (hs : Keeps s0 s) : Keeps s0 (writeSuspend c v s).state := by
  unfold writeSuspend
  try dsimp only
  repeat' first | intro _ | with_reducible first | assumption | apply Keeps.iteR | apply Keeps.ok | apply Keeps.refuse | apply Keeps.ite | apply State.setObj_keeps | split | dsimp only

theorem execSuspendWrite_keeps {s0 : State} {path : Nat} {c : Nat} {v : Bool} {s : State} (hs : Keeps s0 s) : OutKeeps s0 (execSuspendWrite path c v s) := by
  unfold execSuspendWrite
  try dsimp only
  repeat' first | intro _ | with_reducible first | assumption | apply OutKeeps.done | apply OutKeeps.ite | apply Keeps.ite | apply Keeps.ok | apply Keeps.refuse | apply Keeps.iteR | apply sdoWrite_keeps | apply writeSuspend_keeps | split | dsimp only

theorem execTidGrantNotice_keeps {s0 : State} {m : Nat} {tids : TidList} {s : State} (hs : Keeps s0 s) : OutKeeps s0 (execTidGrantNotice m tids s) := by
  unfold execTidGrantNotice
  try dsimp only
  repeat' first | intro _ | with_reducible first | assumption | apply OutKeeps.done | apply OutKeeps.ite | apply Keeps.ite | apply State.setMotif_keeps | split | dsimp only

theorem execTidReturn_keeps {s0 : State} {tid : Nat} {s : State} (hs : Keeps s0 s) : OutKeeps s0 (execTidReturn tid s) := by
  unfold execTidReturn
  try dsimp only
  repeat' first | intro _ | with_reducible first | assumption | apply OutKeeps.done | apply OutKeeps.ite | apply Keeps.ite | apply tidsShow_keeps | (rw [State.mk_marked]; first | apply Keeps.upd | apply Keeps.updTime | apply Keeps.updFree | apply Keeps.updOd | apply Keeps.updFuses) | split | dsimp only

end Sys2Proof.Machine
end

