-- ==== Sys2Proof/Laws/Keeps/Noc.lean ====
section
/-! SUPPORT. What the operations of Machine/Noc.lean keep: the queue, monotone time, free values and life cycle, and the invariant. -/

namespace Sys2Proof.Machine
open Sys2Proof
set_option linter.all false
set_option Elab.async false

theorem agedUrgency_keeps {s0 : State} {u : Nat} {w : Nat} {s : State} (hs : Keeps s0 s) : Keeps s0 (agedUrgency u w s).2 := by
  unfold agedUrgency
  try dsimp only
  repeat' first | intro _ | with_reducible first | assumption | refine Keeps.snd (by assumption) ?_ | apply Keeps.ite | apply State.bump_keeps | split | dsimp only

theorem answer_keeps {s0 : State} {target : Nat} {p : Packet} {status : Nat} {ws : List Word} {s : State} (hs : Keeps s0 s) : Keeps s0 (answer target p status ws s) := by
  unfold answer
  try dsimp only
  repeat' first | intro _ | with_reducible first | assumption | apply Keeps.ite | apply State.submit_keeps | split | dsimp only

theorem atEndpoint_keeps {s0 : State} {x1 : Nat} {y : Nat} {edge : Bool} {p : Packet} {s : State} (hs : Keeps s0 s) : Keeps s0 (atEndpoint x1 y edge p s) := by
  unfold atEndpoint
  try dsimp only
  repeat' first | intro _ | with_reducible first | assumption | apply Keeps.ite | apply cross_keeps | apply State.peak_keeps | apply State.interrupt_keeps | (rw [State.mk_marked]; first | apply Keeps.upd | apply Keeps.updTime | apply Keeps.updFree | apply Keeps.updOd | apply Keeps.updFuses) | split | dsimp only

theorem badFlit_keeps {s0 : State} {x1 : Nat} {y : Nat} {bad : TidList} {p : Packet} {s : State} (hs : Keeps s0 s) : Keeps s0 (badFlit x1 y bad p s).1 := by
  unfold badFlit
  try dsimp only
  repeat' first | intro _ | with_reducible first | assumption | refine Keeps.snd (by assumption) ?_ | refine Keeps.fst (by assumption) ?_ | apply Keeps.ite | apply State.bump_keeps | apply motifAbort_keeps | apply State.fresh_keeps | apply raise_keeps | split | dsimp only

theorem cacheInsert_keeps {s0 : State} {i : Nat} {stream : Nat} {entry : Nat} {s : State} (hs : Keeps s0 s) : Keeps s0 (cacheInsert i stream entry s) := by
  unfold cacheInsert
  try dsimp only
  repeat' first | intro _ | with_reducible first | assumption | apply Keeps.ite | apply State.setSource_keeps | split | dsimp only

theorem cacheTouch_keeps {s0 : State} {i : Nat} {stream : Nat} {s : State} (hs : Keeps s0 s) : Keeps s0 (cacheTouch i stream s) := by
  unfold cacheTouch
  try dsimp only
  repeat' first | intro _ | with_reducible first | assumption | apply Keeps.ite | apply State.setSource_keeps | split | dsimp only

theorem cutOff_keeps {s0 : State} {i : Nat} {p : Packet} {s : State} (hs : Keeps s0 s) : Keeps s0 (cutOff i p s) := by
  unfold cutOff
  try dsimp only
  repeat' first | intro _ | with_reducible first | assumption | apply Keeps.ite | apply State.setSource_keeps | apply State.bump_keeps | split | dsimp only

theorem dropFlying_keeps {s0 : State} {p : Packet} {s : State} (hs : Keeps s0 s) : Keeps s0 (dropFlying p s) := by
  unfold dropFlying
  try dsimp only
  repeat' first | intro _ | with_reducible first | assumption | apply Keeps.ite | (rw [State.mk_marked]; first | apply Keeps.upd | apply Keeps.updTime | apply Keeps.updFree | apply Keeps.updOd | apply Keeps.updFuses) | split | dsimp only

theorem newerExecution_keeps {s0 : State} {m : Nat} {t : Token} {s : State} (hs : Keeps s0 s) : Keeps s0 (newerExecution m t s) := by
  unfold newerExecution
  try dsimp only
  repeat' first | intro _ | with_reducible first | assumption | apply Keeps.ite | apply abortAtMotif_keeps | apply State.setMotif_keeps | split | dsimp only

theorem enterMotif_keeps {s0 : State} {m : Nat} {p : Packet} {s : State} (hs : Keeps s0 s) : Keeps s0 (enterMotif m p s) := by
  unfold enterMotif
  try dsimp only
  repeat' first | intro _ | with_reducible first | assumption | apply Keeps.ite | apply State.bump_keeps | apply newerExecution_keeps | apply State.setMotif_keeps | split | dsimp only

theorem execDramRequestService_keeps {s0 : State} {ecc : Nat} {pick : Nat} {s : State} (hs : Keeps s0 s) : OutKeeps s0 (execDramRequestService ecc pick s) := by
  unfold execDramRequestService
  try dsimp only
  repeat' first | intro _ | with_reducible first | assumption | refine Keeps.snd (by assumption) ?_ | apply OutKeeps.done | apply OutKeeps.ite | apply Keeps.ite | apply dramCheck_keeps | apply answer_keeps | apply State.addObjW_keeps | apply dramWrite_keeps | (rw [State.mk_marked]; first | apply Keeps.upd | apply Keeps.updTime | apply Keeps.updFree | apply Keeps.updOd | apply Keeps.updFuses) | split | dsimp only

theorem execDualClockQueueDelivery_keeps {s0 : State} {q : Nat} {s : State} (hs : Keeps s0 s) : OutKeeps s0 (execDualClockQueueDelivery q s) := by
  unfold execDualClockQueueDelivery
  try dsimp only
  repeat' first | intro _ | with_reducible first | assumption | apply OutKeeps.done | apply OutKeeps.ite | apply Keeps.ite | apply traceDrain_keeps | apply enterFabric_keeps | apply State.submit_keeps | apply State.bump_keeps | apply enterMotif_keeps | (rw [State.mk_marked]; first | apply Keeps.upd | apply Keeps.updTime | apply Keeps.updFree | apply Keeps.updOd | apply Keeps.updFuses) | split | dsimp only

theorem routeShow_keeps {s0 : State} {s : State} (hs : Keeps s0 s) : Keeps s0 (routeShow s) := by
  unfold routeShow
  try dsimp only
  repeat' first | intro _ | with_reducible first | assumption | apply Keeps.ite | apply State.setObj_keeps | apply Keeps.foldl | split | dsimp only

theorem writeFlushAll_keeps {s0 : State} {v : Bool} {s : State} (hs : Keeps s0 s) : Keeps s0 (writeFlushAll v s).state := by
  unfold writeFlushAll
  try dsimp only
  repeat' first | intro _ | with_reducible first | assumption | apply Keeps.iteR | apply Keeps.ok | apply Keeps.refuse | apply Keeps.ite | apply routeShow_keeps | apply flushCaches_keeps | split | dsimp only

theorem execFlushAllWrite_keeps {s0 : State} {path : Nat} {v : Bool} {s : State} (hs : Keeps s0 s) : OutKeeps s0 (execFlushAllWrite path v s) := by
  unfold execFlushAllWrite
  try dsimp only
  repeat' first | intro _ | with_reducible first | assumption | apply OutKeeps.done | apply OutKeeps.ite | apply Keeps.ite | apply Keeps.ok | apply Keeps.refuse | apply Keeps.iteR | apply sdoWrite_keeps | apply writeFlushAll_keeps | split | dsimp only

theorem writeHoopPower_keeps {s0 : State} {h : Nat} {v : Nat} {s : State} (hs : Keeps s0 s) : Keeps s0 (writeHoopPower h v s).state := by
  unfold writeHoopPower
  try dsimp only
  repeat' first | intro _ | with_reducible first | assumption | apply Keeps.iteR | apply Keeps.ok | apply Keeps.refuse | apply Keeps.ite | apply startHoopBanks_keeps | split | dsimp only

theorem execHoopBankPowerWrite_keeps {s0 : State} {path : Nat} {h : Nat} {v : Nat} {s : State} (hs : Keeps s0 s) : OutKeeps s0 (execHoopBankPowerWrite path h v s) := by
  unfold execHoopBankPowerWrite
  try dsimp only
  repeat' first | intro _ | with_reducible first | assumption | apply OutKeeps.done | apply OutKeeps.ite | apply Keeps.ite | apply Keeps.ok | apply Keeps.refuse | apply Keeps.iteR | apply sdoWrite_keeps | apply writeHoopPower_keeps | split | dsimp only

theorem execHoopBankTransitionDone_keeps {s0 : State} {h : Nat} {bank : Nat} {s : State} (hs : Keeps s0 s) : OutKeeps s0 (execHoopBankTransitionDone h bank s) := by
  unfold execHoopBankTransitionDone
  try dsimp only
  repeat' first | intro _ | with_reducible first | assumption | apply OutKeeps.done | apply OutKeeps.ite | apply Keeps.ite | apply State.setHoop_keeps | split | dsimp only

theorem noteRoundTrip_keeps {s0 : State} {i : Nat} {p : Packet} {s : State} (hs : Keeps s0 s) : Keeps s0 (noteRoundTrip i p s) := by
  unfold noteRoundTrip
  try dsimp only
  repeat' first | intro _ | with_reducible first | assumption | apply Keeps.ite | apply State.bump_keeps | apply State.setSource_keeps | split | dsimp only

theorem noteReceived_keeps {s0 : State} {i : Nat} {p : Packet} {s03 : State} (hs03 : Keeps s0 s03) : Keeps s0 (noteReceived i p s03) := by
  unfold noteReceived
  try dsimp only
  repeat' first | intro _ | with_reducible first | assumption | apply Keeps.ite | apply noteRoundTrip_keeps | apply State.bump_keeps | apply State.addObjW_keeps | (rw [State.mk_marked]; first | apply Keeps.upd | apply Keeps.updTime | apply Keeps.updFree | apply Keeps.updOd | apply Keeps.updFuses) | split | dsimp only

theorem execPacketDelivery_keeps {s0 : State} {x1 : Nat} {y : Nat} {edge : Bool} {s : State} (hs : Keeps s0 s) : OutKeeps s0 (execPacketDelivery x1 y edge s) := by
  unfold execPacketDelivery
  try dsimp only
  repeat' first | intro _ | with_reducible first | assumption | apply OutKeeps.done | apply OutKeeps.ite | apply Keeps.ite | apply noteReceived_keeps | apply dropFlying_keeps | apply answer_keeps | apply State.bump_keeps | apply atEndpoint_keeps | split | dsimp only

theorem forward_keeps {s0 : State} {x1 : Nat} {y : Nat} {port : Nat} {p : Packet} {q : Packet} {s : State} (hs : Keeps s0 s) : Keeps s0 (forward x1 y port p q s) := by
  unfold forward
  try dsimp only
  repeat' first | intro _ | with_reducible first | assumption | apply Keeps.ite | apply dropFlying_keeps | (rw [State.mk_marked]; first | apply Keeps.upd | apply Keeps.updTime | apply Keeps.updFree | apply Keeps.updOd | apply Keeps.updFuses) | split | dsimp only

theorem execPacketForward_keeps {s0 : State} {x1 : Nat} {y : Nat} {port : Nat} {ecc : Nat} {bad : TidList} {s : State} (hs : Keeps s0 s) : OutKeeps s0 (execPacketForward x1 y port ecc bad s) := by
  unfold execPacketForward
  try dsimp only
  repeat' first | intro _ | with_reducible first | assumption | refine Keeps.snd (by assumption) ?_ | refine Keeps.fst (by assumption) ?_ | apply OutKeeps.done | apply OutKeeps.ite | apply Keeps.ite | apply badFlit_keeps | apply dropFlying_keeps | apply forward_keeps | apply State.bump_keeps | split | dsimp only

theorem noteSent_keeps {s0 : State} {i : Nat} {p : Packet} {s : State} (hs : Keeps s0 s) : Keeps s0 (noteSent i p s) := by
  unfold noteSent
  try dsimp only
  repeat' first | intro _ | with_reducible first | assumption | apply Keeps.ite | apply State.setMotif_keeps | split | dsimp only

theorem inject_keeps {s0 : State} {i : Nat} {p : Packet} {s : State} (hs : Keeps s0 s) : Keeps s0 (inject i p s) := by
  unfold inject
  try dsimp only
  repeat' first | intro _ | with_reducible first | assumption | refine Keeps.snd (by assumption) ?_ | apply Keeps.ite | apply agedUrgency_keeps | apply noteSent_keeps | apply State.addObjW_keeps | apply State.bump_keeps | apply State.peak_keeps | apply State.setSource_keeps | (rw [State.mk_marked]; first | apply Keeps.upd | apply Keeps.updTime | apply Keeps.updFree | apply Keeps.updOd | apply Keeps.updFuses) | split | dsimp only

theorem popSource_keeps {s0 : State} {i : Nat} {s : State} (hs : Keeps s0 s) : Keeps s0 (popSource i s) := by
  unfold popSource
  try dsimp only
  repeat' first | intro _ | with_reducible first | assumption | apply Keeps.ite | apply State.setSource_keeps | split | dsimp only

theorem noteLost_keeps {s0 : State} {i : Nat} {p : Packet} {s : State} (hs : Keeps s0 s) : Keeps s0 (noteLost i p s) := by
  unfold noteLost
  try dsimp only
  repeat' first | intro _ | with_reducible first | assumption | apply Keeps.ite | apply State.setMotif_keeps | split | dsimp only

theorem injectRouted_keeps {s0 : State} {i : Nat} {st : Nat} {e : Nat} {p : Packet} {s : State} (hs : Keeps s0 s) : Keeps s0 (injectRouted i st e p s) := by
  unfold injectRouted
  try dsimp only
  repeat' first | intro _ | with_reducible first | assumption | apply Keeps.ite | apply popSource_keeps | apply State.setSource_keeps | apply inject_keeps | apply noteLost_keeps | apply State.bump_keeps | split | dsimp only

theorem sourceAnswer_keeps {s0 : State} {i : Nat} {status : Nat} {p : Packet} {s : State} (hs : Keeps s0 s) : Keeps s0 (sourceAnswer i status p s) := by
  unfold sourceAnswer
  try dsimp only
  repeat' first | intro _ | with_reducible first | assumption | apply Keeps.ite | apply State.bump_keeps | apply State.peak_keeps | apply popSource_keeps | (rw [State.mk_marked]; first | apply Keeps.upd | apply Keeps.updTime | apply Keeps.updFree | apply Keeps.updOd | apply Keeps.updFuses) | split | dsimp only

theorem injectHead_keeps {s0 : State} {i : Nat} {p : Packet} {s : State} (hs : Keeps s0 s) : Keeps s0 (injectHead i p s) := by
  unfold injectHead
  try dsimp only
  repeat' first | intro _ | with_reducible first | assumption | refine Keeps.snd (by assumption) ?_ | apply Keeps.ite | apply State.fresh_keeps | apply inject_keeps | apply popSource_keeps | apply injectRouted_keeps | apply cacheTouch_keeps | apply State.bump_keeps | apply State.setSource_keeps | apply sourceAnswer_keeps | split | dsimp only

theorem execPacketInjection_keeps {s0 : State} {i : Nat} {s : State} (hs : Keeps s0 s) : OutKeeps s0 (execPacketInjection i s) := by
  unfold execPacketInjection
  try dsimp only
  repeat' first | intro _ | with_reducible first | assumption | apply OutKeeps.done | apply OutKeeps.ite | apply Keeps.ite | apply cutOff_keeps | apply inject_keeps | apply State.setSource_keeps | apply injectHead_keeps | split | dsimp only

theorem slotBytes_keeps {s0 : State} {write : Bool} {a : Nat} {s : State} (hs : Keeps s0 s) : Keeps s0 (slotBytes write a s) := by
  unfold slotBytes
  try dsimp only
  repeat' first | intro _ | with_reducible first | assumption | apply Keeps.ite | apply State.addObjW_keeps | split | dsimp only

theorem execPullRequest_keeps {s0 : State} {x1 : Nat} {y : Nat} {edge : Bool} {ecc : Nat} {s : State} (hs : Keeps s0 s) : OutKeeps s0 (execPullRequest x1 y edge ecc s) := by
  unfold execPullRequest
  try dsimp only
  repeat' first | intro _ | with_reducible first | assumption | refine Keeps.snd (by assumption) ?_ | refine OptPKeeps.get (by assumption) ?_ | apply OutKeeps.done | apply OutKeeps.ite | apply Keeps.ite | apply takePacket_keeps | apply answer_keeps | apply slotCheck_keeps | apply State.setSqueue_keeps | apply slotBytes_keeps | apply raise_keeps | split | dsimp only

theorem takeRequest_keeps {s0 : State} {x1 : Nat} {y : Nat} {edge : Bool} {typ : Nat} {s : State} (hs : Keeps s0 s) : OptPKeeps s0 (takeRequest x1 y edge typ s) := by
  unfold takeRequest
  try dsimp only
  repeat' first | intro _ | with_reducible first | assumption | refine Keeps.snd (by assumption) ?_ | refine OptPKeeps.get (by assumption) ?_ | apply Keeps.ite | apply OptPKeeps.none | apply OptPKeeps.some | apply Keeps.ite | apply takePacket_keeps | split | dsimp only

theorem routerAtBank_keeps {s0 : State} {m : Nat} {b : Nat} {f : State → State} {s : State} {taken : State} (hf : ∀ v0, Keeps s0 v0 → Keeps s0 (f v0)) (hs : Keeps s0 s) (htaken : Keeps s0 taken) : Keeps s0 (routerAtBank m b f s taken) := by
  unfold routerAtBank
  try dsimp only
  repeat' first | intro _ | with_reducible first | assumption | apply hf | apply Keeps.ite | apply takeTurn_keeps | apply loseTurn_keeps | split | dsimp only

theorem readScratch_keeps {s0 : State} {m : Nat} {a : List Nat} {a3 : Nat} {a4 : State} (ha4 : Keeps s0 a4) : Keeps s0 (readScratch m a a3 a4).2 := by
  induction a generalizing m a3 a4 with
  | nil =>
    unfold readScratch
    try dsimp only
    repeat' first | intro _ | with_reducible first | assumption | refine Keeps.snd (by assumption) ?_ | apply Keeps.ite | apply spRead_keeps | split | dsimp only
  | cons x xs ih =>
    unfold readScratch
    try dsimp only
    repeat' first | intro _ | with_reducible first | assumption | apply ih | refine Keeps.snd (by assumption) ?_ | apply Keeps.ite | apply spRead_keeps | split | dsimp only

theorem hoopWaits_keeps {s0 : State} {h : Nat} {o : Nat} {s : State} (hs : Keeps s0 s) : Keeps s0 (hoopWaits h o s) := by
  unfold hoopWaits
  try dsimp only
  repeat' first | intro _ | with_reducible first | assumption | apply Keeps.ite | apply State.addObj_keeps | split | dsimp only

theorem readTarget_keeps {s0 : State} {j : Nat} {ecc : Nat} {p : Packet} {s : State} {taken : State} (hs : Keeps s0 s) (htaken : Keeps s0 taken) : Keeps s0 (readTarget j ecc p s taken) := by
  unfold readTarget
  try dsimp only
  repeat' first | intro _ | with_reducible first | assumption | refine Keeps.snd (by assumption) ?_ | apply Keeps.ite | apply answer_keeps | apply routerAtBank_keeps | apply readScratch_keeps | apply raise_keeps | apply hoopChecks_keeps | apply hoopWaits_keeps | apply State.addObjW_keeps | apply State.bump_keeps | split | dsimp only

theorem execReadRequest_keeps {s0 : State} {x1 : Nat} {y : Nat} {edge : Bool} {ecc : Nat} {s : State} (hs : Keeps s0 s) : OutKeeps s0 (execReadRequest x1 y edge ecc s) := by
  unfold execReadRequest
  try dsimp only
  repeat' first | intro _ | with_reducible first | assumption | refine Keeps.snd (by assumption) ?_ | refine OptPKeeps.get (by assumption) ?_ | apply OutKeeps.done | apply OutKeeps.ite | apply Keeps.ite | apply takeRequest_keeps | apply readTarget_keeps | split | dsimp only

theorem execRouteCacheRefillDone_keeps {s0 : State} {i : Nat} {s : State} (hs : Keeps s0 s) : OutKeeps s0 (execRouteCacheRefillDone i s) := by
  unfold execRouteCacheRefillDone
  try dsimp only
  repeat' first | intro _ | with_reducible first | assumption | apply OutKeeps.done | apply OutKeeps.ite | apply Keeps.ite | apply cacheInsert_keeps | apply State.setSource_keeps | apply routeShow_keeps | apply State.bump_keeps | split | dsimp only

theorem startInvalidate_keeps {s0 : State} {path : Nat} {stream : Nat} {v : Nat} {s : State} (hs : Keeps s0 s) : Keeps s0 (startInvalidate path stream v s) := by
  unfold startInvalidate
  try dsimp only
  repeat' first | intro _ | with_reducible first | assumption | apply Keeps.ite | apply routeShow_keeps | (rw [State.mk_marked]; first | apply Keeps.upd | apply Keeps.updTime | apply Keeps.updFree | apply Keeps.updOd | apply Keeps.updFuses) | split | dsimp only

theorem writeEntryNow_keeps {s0 : State} {path : Nat} {v : Nat} {s : State} (hs : Keeps s0 s) : SumKeeps s0 (writeEntryNow path v s) := by
  unfold writeEntryNow
  try dsimp only
  repeat' first | intro _ | with_reducible first | assumption | refine SumKeeps.get (by assumption) ?_ | apply SumKeeps.inl | apply SumKeeps.inr | apply SumKeeps.ite | apply Keeps.ite | apply startInvalidate_keeps | split | dsimp only

theorem execRouteEntryWriteInvalidate_keeps {s0 : State} {path : Nat} {v : Nat} {s : State} (hs : Keeps s0 s) : OutKeeps s0 (execRouteEntryWriteInvalidate path v s) := by
  unfold execRouteEntryWriteInvalidate
  try dsimp only
  repeat' first | intro _ | with_reducible first | assumption | refine SumKeeps.get (by assumption) ?_ | apply OutKeeps.done | apply OutKeeps.ite | apply Keeps.ite | apply sdoAction_keeps | apply writeEntryNow_keeps | split | dsimp only

theorem masterWrite_keeps {s0 : State} {stream : Nat} {v : Nat} {s : State} (hs : Keeps s0 s) : Keeps s0 (masterWrite stream v s) := by
  unfold masterWrite
  try dsimp only
  repeat' first | intro _ | with_reducible first | assumption | apply Keeps.ite | apply routeShow_keeps | apply State.setObj_keeps | (rw [State.mk_marked]; first | apply Keeps.upd | apply Keeps.updTime | apply Keeps.updFree | apply Keeps.updOd | apply Keeps.updFuses) | split | dsimp only

theorem writeEntryLazy_keeps {s0 : State} {v : Nat} {s : State} (hs : Keeps s0 s) : Keeps s0 (writeEntryLazy v s).state := by
  unfold writeEntryLazy
  try dsimp only
  repeat' first | intro _ | with_reducible first | assumption | apply Keeps.iteR | apply Keeps.ok | apply Keeps.refuse | apply Keeps.ite | apply masterWrite_keeps | split | dsimp only

theorem execRouteEntryWriteLazy_keeps {s0 : State} {path : Nat} {v : Nat} {s : State} (hs : Keeps s0 s) : OutKeeps s0 (execRouteEntryWriteLazy path v s) := by
  unfold execRouteEntryWriteLazy
  try dsimp only
  repeat' first | intro _ | with_reducible first | assumption | apply OutKeeps.done | apply OutKeeps.ite | apply Keeps.ite | apply Keeps.ok | apply Keeps.refuse | apply Keeps.iteR | apply sdoWrite_keeps | apply writeEntryLazy_keeps | split | dsimp only

theorem execStreamQueueAppend_keeps {s0 : State} {hoop : Nat} {q : Nat} {s : State} (hs : Keeps s0 s) : OutKeeps s0 (execStreamQueueAppend hoop q s) := by
  unfold execStreamQueueAppend
  try dsimp only
  repeat' first | intro _ | with_reducible first | assumption | apply OutKeeps.done | apply OutKeeps.ite | apply Keeps.ite | apply State.bump_keeps | apply slotBytes_keeps | apply storeWords_keeps | apply State.setSqueue_keeps | (rw [State.mk_marked]; first | apply Keeps.upd | apply Keeps.updTime | apply Keeps.updFree | apply Keeps.updOd | apply Keeps.updFuses) | split | dsimp only

theorem execUrgencyAgeing_keeps {s0 : State} {inSource : Bool} {i : Nat} {s : State} (hs : Keeps s0 s) : OutKeeps s0 (execUrgencyAgeing inSource i s) := by
  unfold execUrgencyAgeing
  try dsimp only
  repeat' first | intro _ | with_reducible first | assumption | apply OutKeeps.done | apply OutKeeps.ite | apply Keeps.ite | apply State.setSource_keeps | apply State.bump_keeps | (rw [State.mk_marked]; first | apply Keeps.upd | apply Keeps.updTime | apply Keeps.updFree | apply Keeps.updOd | apply Keeps.updFuses) | split | dsimp only

theorem writeScratch_keeps {s0 : State} {m : Nat} {a : List (Nat × Word)} {a3 : Nat} {a4 : State} (ha4 : Keeps s0 a4) : Keeps s0 (writeScratch m a a3 a4).2 := by
  induction a generalizing m a3 a4 with
  | nil =>
    unfold writeScratch
    try dsimp only
    repeat' first | intro _ | with_reducible first | assumption | refine Keeps.snd (by assumption) ?_ | apply Keeps.ite | apply spWrite_keeps | split | dsimp only
  | cons x xs ih =>
    unfold writeScratch
    try dsimp only
    repeat' first | intro _ | with_reducible first | assumption | apply ih | refine Keeps.snd (by assumption) ?_ | apply Keeps.ite | apply spWrite_keeps | split | dsimp only

theorem writeTarget_keeps {s0 : State} {j : Nat} {ecc : Nat} {p : Packet} {s : State} {taken : State} (hs : Keeps s0 s) (htaken : Keeps s0 taken) : Keeps s0 (writeTarget j ecc p s taken) := by
  unfold writeTarget
  try dsimp only
  repeat' first | intro _ | with_reducible first | assumption | refine Keeps.snd (by assumption) ?_ | apply Keeps.ite | apply answer_keeps | apply routerAtBank_keeps | apply writeScratch_keeps | apply hoopWaits_keeps | apply State.setHoop_keeps | apply State.addObjW_keeps | apply State.setCore_keeps | split | dsimp only

theorem execWriteRequest_keeps {s0 : State} {x1 : Nat} {y : Nat} {edge : Bool} {ecc : Nat} {s : State} (hs : Keeps s0 s) : OutKeeps s0 (execWriteRequest x1 y edge ecc s) := by
  unfold execWriteRequest
  try dsimp only
  repeat' first | intro _ | with_reducible first | assumption | refine Keeps.snd (by assumption) ?_ | refine OptPKeeps.get (by assumption) ?_ | apply OutKeeps.done | apply OutKeeps.ite | apply Keeps.ite | apply takeRequest_keeps | apply writeTarget_keeps | split | dsimp only

theorem invalidate_keeps {s0 : State} {stream : Nat} {s : State} (hs : Keeps s0 s) : Keeps s0 (invalidate stream s) := by
  unfold invalidate
  try dsimp only
  repeat' first | intro _ | with_reducible first | assumption | apply Keeps.ite | apply routeShow_keeps | (rw [State.mk_marked]; first | apply Keeps.upd | apply Keeps.updTime | apply Keeps.updFree | apply Keeps.updOd | apply Keeps.updFuses) | split | dsimp only

theorem invalidationDone_keeps {s0 : State} {s : State} (hs : Keeps s0 s) : Keeps s0 (invalidationDone s) := by
  unfold invalidationDone
  try dsimp only
  repeat' first | intro _ | with_reducible first | assumption | apply Keeps.ite | apply Keeps.ok | apply Keeps.refuse | apply Keeps.iteR | apply State.setObj_keeps | apply invalidate_keeps | apply answered_keeps | (rw [State.mk_marked]; first | apply Keeps.upd | apply Keeps.updTime | apply Keeps.updFree | apply Keeps.updOd | apply Keeps.updFuses) | split | dsimp only

theorem takeAnswer_keeps {s0 : State} {i : Nat} {typ : Nat} {s : State} (hs : Keeps s0 s) : OptPKeeps s0 (takeAnswer i typ s) := by
  unfold takeAnswer
  try dsimp only
  repeat' first | intro _ | with_reducible first | assumption | refine Keeps.snd (by assumption) ?_ | refine OptPKeeps.get (by assumption) ?_ | apply Keeps.ite | apply OptPKeeps.none | apply OptPKeeps.some | apply Keeps.ite | apply takePacket_keeps | split | dsimp only

end Sys2Proof.Machine
end

