-- ==== Sys2Proof/Laws/Keeps/Answers.lean ====
section
/-! SUPPORT. What the operations of Machine/Answers.lean keep: the queue, monotone time, free values and life cycle, and the invariant. -/

namespace Sys2Proof.Machine
open Sys2Proof
set_option linter.all false
set_option Elab.async false

theorem execPullResp_keeps {s0 : State} {i : Nat} {s : State} (hs : Keeps s0 s) : OutKeeps s0 (execPullResp i s) := by
  unfold execPullResp
  try dsimp only
  repeat' first | intro _ | with_reducible first | assumption | refine Keeps.snd (by assumption) ?_ | refine OptPKeeps.get (by assumption) ?_ | apply OutKeeps.done | apply OutKeeps.ite | apply Keeps.ite | apply takeAnswer_keeps | apply fzPullDone_keeps | split | dsimp only

theorem execReadResp_keeps {s0 : State} {i : Nat} {s : State} (hs : Keeps s0 s) : OutKeeps s0 (execReadResp i s) := by
  unfold execReadResp
  try dsimp only
  repeat' first | intro _ | with_reducible first | assumption | refine Keeps.snd (by assumption) ?_ | refine OptPKeeps.get (by assumption) ?_ | apply OutKeeps.done | apply OutKeeps.ite | apply Keeps.ite | apply takeAnswer_keeps | apply ringData_keeps | apply fzReadDone_keeps | split | dsimp only

theorem execWriteAck_keeps {s0 : State} {i : Nat} {s : State} (hs : Keeps s0 s) : OutKeeps s0 (execWriteAck i s) := by
  unfold execWriteAck
  try dsimp only
  repeat' first | intro _ | with_reducible first | assumption | refine Keeps.snd (by assumption) ?_ | refine OptPKeeps.get (by assumption) ?_ | apply OutKeeps.done | apply OutKeeps.ite | apply Keeps.ite | apply takeAnswer_keeps | apply ringAck_keeps | apply fzWriteDone_keeps | apply camAck_keeps | split | dsimp only

end Sys2Proof.Machine
end

