-- ==== Sys2Proof/Laws/Keeps/BQueue.lean ====
section
/-! SUPPORT. What the operations of Machine/BQueue.lean keep: the queue, monotone time, free values and life cycle, and the invariant. -/

namespace Sys2Proof.Machine
open Sys2Proof
set_option linter.all false
set_option Elab.async false

theorem fcUpdate_keeps {s0 : State} {s : State} (hs : Keeps s0 s) : Keeps s0 (fcUpdate s) := by
  unfold fcUpdate
  try dsimp only
  repeat' first | intro _ | with_reducible first | assumption | apply Keeps.ite | apply State.setObj_keeps | apply Keeps.foldl | split | dsimp only

theorem State.setBq_keeps {s0 : State} {s : State} {q : Nat} {ps : List BqPacket} (hs : Keeps s0 s) : Keeps s0 (State.setBq s q ps) := by
  unfold State.setBq
  try dsimp only
  repeat' first | intro _ | with_reducible first | assumption | apply Keeps.ite | apply State.setObji_keeps | apply fcUpdate_keeps | (rw [State.mk_marked]; first | apply Keeps.upd | apply Keeps.updTime | apply Keeps.updFree | apply Keeps.updOd | apply Keeps.updFuses) | split | dsimp only

theorem bqWrite_keeps {s0 : State} {q : Nat} {prio : Nat} {ws : List Word} {s : State} (hs : Keeps s0 s) : Keeps s0 (bqWrite q prio ws s) := by
  unfold bqWrite
  try dsimp only
  repeat' first | intro _ | with_reducible first | assumption | apply Keeps.ite | apply State.setBq_keeps | apply raise_keeps | apply State.bumpi_keeps | split | dsimp only

theorem execBqPacketReadout_keeps {s0 : State} {q : Nat} {s : State} (hs : Keeps s0 s) : OutKeeps s0 (execBqPacketReadout q s) := by
  unfold execBqPacketReadout
  try dsimp only
  repeat' first | intro _ | with_reducible first | assumption | apply OutKeeps.done | apply OutKeeps.ite | apply Keeps.ite | apply State.setBq_keeps | apply State.bumpi_keeps | apply enterFabric_keeps | apply Keeps.foldl | split | dsimp only

end Sys2Proof.Machine
end

