-- ==== Sys2Proof/Laws/Keeps/Recording.lean ====
section
/-! SUPPORT. What the operations of Machine/Recording.lean keep: the queue, monotone time, free values and life cycle, and the invariant. -/

namespace Sys2Proof.Machine
open Sys2Proof
set_option linter.all false
set_option Elab.async false

theorem allClear_keeps {s0 : State} {before : State} {after : State} (hafter : Keeps s0 after) : Keeps s0 (allClear before after) := by
  unfold allClear
  try dsimp only
  repeat' first | intro _ | with_reducible first | assumption | apply Keeps.ite | apply emcyQueue_keeps | apply errorFieldPush_keeps | split | dsimp only

theorem ringFree_keeps {s0 : State} {s : State} (hs : Keeps s0 s) : Keeps s0 (ringFree s) := by
  unfold ringFree
  try dsimp only
  repeat' first | intro _ | with_reducible first | assumption | apply Keeps.ite | (rw [State.mk_marked]; first | apply Keeps.upd | apply Keeps.updTime | apply Keeps.updFree | apply Keeps.updOd | apply Keeps.updFuses) | exact Nat.le_refl _ | exact id | exact Nat.le_add_right _ _ | (exact mset_wf _ _ _ _ (by assumption)) | exact Nat.mod_lt _ (by decide) | exact ⟨Nat.le_refl _, by assumption⟩ | split | dsimp only

theorem journalState_keeps {s0 : State} {v : Nat} {s : State} (hs : Keeps s0 s) : Keeps s0 (journalState v s) := by
  unfold journalState
  try dsimp only
  repeat' first | intro _ | with_reducible first | assumption | apply Keeps.ite | apply setCond_keeps | apply State.interrupt_keeps | apply State.setObj_keeps | split | dsimp only

theorem mount_keeps {s0 : State} {s : State} (hs : Keeps s0 s) : Keeps s0 (mount s) := by
  unfold mount
  try dsimp only
  repeat' first | intro _ | with_reducible first | assumption | apply Keeps.ite | apply State.setObj_keeps | apply State.setJournal_keeps | apply setDegraded_keeps | apply openSegment_keeps | apply journalState_keeps | apply journalGap_keeps | apply emit_keeps | apply traceWrite_keeps | apply Keeps.foldl | split | dsimp only

theorem blockDone_keeps {s0 : State} {c : NvCmd} {s : State} (hs : Keeps s0 s) : Keeps s0 (blockDone c s) := by
  unfold blockDone
  try dsimp only
  repeat' first | intro _ | with_reducible first | assumption | apply Keeps.ite | apply State.peak_keeps | apply State.addObjW_keeps | apply ringFree_keeps | apply State.bump_keeps | apply mount_keeps | apply journalState_keeps | (rw [State.mk_marked]; first | apply Keeps.upd | apply Keeps.updTime | apply Keeps.updFree | apply Keeps.updOd | apply Keeps.updFuses) | exact Nat.le_refl _ | exact id | exact Nat.le_add_right _ _ | (exact mset_wf _ _ _ _ (by assumption)) | exact Nat.mod_lt _ (by decide) | exact ⟨Nat.le_refl _, by assumption⟩ | split | dsimp only

theorem clearLatch_keeps {s0 : State} {a : Nat} {s : State} (hs : Keeps s0 s) : Keeps s0 (clearLatch a s) := by
  unfold clearLatch
  try dsimp only
  repeat' first | intro _ | with_reducible first | assumption | apply Keeps.ite | apply State.setObjBit_keeps | apply alarmNUpdate_keeps | apply State.setObj_keeps | (rw [State.mk_marked]; first | apply Keeps.upd | apply Keeps.updTime | apply Keeps.updFree | apply Keeps.updOd | apply Keeps.updFuses) | exact Nat.le_refl _ | exact id | exact Nat.le_add_right _ _ | (exact mset_wf _ _ _ _ (by assumption)) | exact Nat.mod_lt _ (by decide) | exact ⟨Nat.le_refl _, by assumption⟩ | split | dsimp only

theorem readFailed_keeps {s0 : State} {c : NvCmd} {s : State} (hs : Keeps s0 s) : Keeps s0 (readFailed c s) := by
  unfold readFailed
  try dsimp only
  repeat' first | intro _ | with_reducible first | assumption | apply Keeps.ite | apply Keeps.ok | apply Keeps.refuse | apply Keeps.iteR | apply nvIssue_keeps | apply State.bump_keeps | apply State.setJournal_keeps | apply answered_keeps | split | dsimp only

theorem orphanCmd_keeps {s0 : State} {s : State} {c : NvCmd} (hs : Keeps s0 s) : Keeps s0 (orphanCmd s c) := by
  unfold orphanCmd
  try dsimp only
  repeat' first | intro _ | with_reducible first | assumption | apply Keeps.ite | apply readFailed_keeps | apply blockDone_keeps | split | dsimp only

theorem journalLostRange_keeps {s0 : State} {n : Nat} {k0 : Nat} {k1 : Nat} {s : State} (hs : Keeps s0 s) : Keeps s0 (journalLostRange n k0 k1 s) := by
  unfold journalLostRange
  try dsimp only
  repeat' first | intro _ | with_reducible first | assumption | apply Keeps.ite | apply State.setJournal_keeps | split | dsimp only

theorem journalForget_keeps {s0 : State} {r : JRec} {s : State} (hs : Keeps s0 s) : Keeps s0 (journalForget r s) := by
  unfold journalForget
  try dsimp only
  repeat' first | intro _ | with_reducible first | assumption | apply Keeps.ite | apply journalLostRange_keeps | apply journalDropped_keeps | split | dsimp only

theorem journalLose_keeps {s0 : State} {cs : List NvCmd} {s : State} (hs : Keeps s0 s) : Keeps s0 (journalLose cs s) := by
  unfold journalLose
  try dsimp only
  repeat' first | intro _ | with_reducible first | assumption | apply Keeps.ite | apply State.addObj_keeps | apply journalLostRange_keeps | apply journalForget_keeps | apply State.setJournal_keeps | apply Keeps.foldl | split | dsimp only

theorem stopWhenFlushed_keeps {s0 : State} {s : State} (hs : Keeps s0 s) : Keeps s0 (stopWhenFlushed s) := by
  unfold stopWhenFlushed
  try dsimp only
  repeat' first | intro _ | with_reducible first | assumption | apply Keeps.ite | apply journalState_keeps | split | dsimp only

theorem driveLost_keeps {s0 : State} {d : Nat} {s : State} (hs : Keeps s0 s) : Keeps s0 (driveLost d s) := by
  unfold driveLost
  try dsimp only
  repeat' first | intro _ | with_reducible first | assumption | apply Keeps.ite | apply Keeps.ok | apply Keeps.refuse | apply Keeps.iteR | apply State.setJournal_keeps | apply setDegraded_keeps | apply State.setObj_keeps | apply orphanCmd_keeps | apply journalState_keeps | apply journalLose_keeps | apply answered_keeps | apply nvIssue_keeps | apply stopWhenFlushed_keeps | apply Keeps.foldl | split | dsimp only

theorem driveStore_keeps {s0 : State} {c : NvCmd} {s : State} (hs : Keeps s0 s) : Keeps s0 (driveStore c s) := by
  unfold driveStore
  try dsimp only
  repeat' first | intro _ | with_reducible first | assumption | apply Keeps.ite | apply State.setObji_keeps | apply State.setVol_keeps | split | dsimp only

theorem writeAlarmClear_keeps {s0 : State} {v : Nat} {s : State} (hs : Keeps s0 s) : Keeps s0 (writeAlarmClear v s).state := by
  unfold writeAlarmClear
  try dsimp only
  repeat' first | intro _ | with_reducible first | assumption | apply Keeps.iteR | apply Keeps.ok | apply Keeps.refuse | apply Keeps.ite | apply allClear_keeps | apply clearLatch_keeps | apply Keeps.foldl | split | dsimp only

theorem execAlarmClearWrite_keeps {s0 : State} {path : Nat} {v : Nat} {s : State} (hs : Keeps s0 s) : OutKeeps s0 (execAlarmClearWrite path v s) := by
  unfold execAlarmClearWrite
  try dsimp only
  repeat' first | intro _ | with_reducible first | assumption | apply OutKeeps.done | apply OutKeeps.ite | apply Keeps.ite | apply Keeps.ok | apply Keeps.refuse | apply Keeps.iteR | apply sdoWrite_keeps | apply writeAlarmClear_keeps | split | dsimp only

theorem execAlarmEvent_keeps {s0 : State} {a : Nat} {s : State} (hs : Keeps s0 s) : OutKeeps s0 (execAlarmEvent a s) := by
  unfold execAlarmEvent
  try dsimp only
  repeat' first | intro _ | with_reducible first | assumption | apply OutKeeps.done | apply OutKeeps.ite | apply Keeps.ite | apply raise_keeps | split | dsimp only

theorem execDriveResyncComplete_keeps {s0 : State} {drive : Nat} {n : Nat} {s : State} (hs : Keeps s0 s) : OutKeeps s0 (execDriveResyncComplete drive n s) := by
  unfold execDriveResyncComplete
  try dsimp only
  repeat' first | intro _ | with_reducible first | assumption | apply OutKeeps.done | apply OutKeeps.ite | apply Keeps.ite | apply State.setObji_keeps | apply State.setVol_keeps | apply State.setJournal_keeps | apply setDegraded_keeps | apply State.setObj_keeps | apply Keeps.foldl | split | dsimp only

theorem writeFormat_keeps {s0 : State} {v : Nat} {s : State} (hs : Keeps s0 s) : Keeps s0 (writeFormat v s).state := by
  unfold writeFormat
  try dsimp only
  repeat' first | intro _ | with_reducible first | assumption | apply Keeps.iteR | apply Keeps.ok | apply Keeps.refuse | apply Keeps.ite | apply State.setJournal_keeps | apply journalState_keeps | apply State.setObj_keeps | apply nvWrite_keeps | (rw [State.mk_marked]; first | apply Keeps.upd | apply Keeps.updTime | apply Keeps.updFree | apply Keeps.updOd | apply Keeps.updFuses) | exact Nat.le_refl _ | exact id | exact Nat.le_add_right _ _ | (exact mset_wf _ _ _ _ (by assumption)) | exact Nat.mod_lt _ (by decide) | exact ⟨Nat.le_refl _, by assumption⟩ | split | dsimp only

theorem execFormatMirrored_keeps {s0 : State} {path : Nat} {s : State} (hs : Keeps s0 s) : OutKeeps s0 (execFormatMirrored path s) := by
  unfold execFormatMirrored
  try dsimp only
  repeat' first | intro _ | with_reducible first | assumption | apply OutKeeps.done | apply OutKeeps.ite | apply Keeps.ite | apply Keeps.ok | apply Keeps.refuse | apply Keeps.iteR | apply sdoWrite_keeps | apply writeFormat_keeps | split | dsimp only

theorem execFormatStriped_keeps {s0 : State} {path : Nat} {s : State} (hs : Keeps s0 s) : OutKeeps s0 (execFormatStriped path s) := by
  unfold execFormatStriped
  try dsimp only
  repeat' first | intro _ | with_reducible first | assumption | apply OutKeeps.done | apply OutKeeps.ite | apply Keeps.ite | apply Keeps.ok | apply Keeps.refuse | apply Keeps.iteR | apply sdoWrite_keeps | apply writeFormat_keeps | split | dsimp only

theorem nvRead_keeps {s0 : State} {path : Nat} {drive : Nat} {seg : Nat} {block : Nat} {s : State} (hs : Keeps s0 s) : Keeps s0 (nvRead path drive seg block s) := by
  unfold nvRead
  try dsimp only
  repeat' first | intro _ | with_reducible first | assumption | apply Keeps.ite | apply nvIssue_keeps | apply State.setJournal_keeps | split | dsimp only

theorem startBlockRead_keeps {s0 : State} {path : Nat} {s : State} (hs : Keeps s0 s) : SumKeeps s0 (startBlockRead path s) := by
  unfold startBlockRead
  try dsimp only
  repeat' first | intro _ | with_reducible first | assumption | refine SumKeeps.get (by assumption) ?_ | apply SumKeeps.inl | apply SumKeeps.inr | apply SumKeeps.ite | apply Keeps.ite | apply nvRead_keeps | split | dsimp only

theorem execJournalBlockRead_keeps {s0 : State} {path : Nat} {s : State} (hs : Keeps s0 s) : OutKeeps s0 (execJournalBlockRead path s) := by
  unfold execJournalBlockRead
  try dsimp only
  repeat' first | intro _ | with_reducible first | assumption | refine SumKeeps.get (by assumption) ?_ | apply OutKeeps.done | apply OutKeeps.ite | apply Keeps.ite | apply sdoAct_keeps | apply startBlockRead_keeps | split | dsimp only

theorem execJournalBlockWrite_keeps {s0 : State} {s : State} (hs : Keeps s0 s) : OutKeeps s0 (execJournalBlockWrite s) := by
  unfold execJournalBlockWrite
  try dsimp only
  repeat' first | intro _ | with_reducible first | assumption | apply OutKeeps.done | apply OutKeeps.ite | apply Keeps.ite | apply journalBlockWrite_keeps | (rw [State.mk_marked]; first | apply Keeps.upd | apply Keeps.updTime | apply Keeps.updFree | apply Keeps.updOd | apply Keeps.updFuses) | exact Nat.le_refl _ | exact id | exact Nat.le_add_right _ _ | (exact mset_wf _ _ _ _ (by assumption)) | exact Nat.mod_lt _ (by decide) | exact ⟨Nat.le_refl _, by assumption⟩ | split | dsimp only

theorem journalFlush_keeps {s0 : State} {s : State} (hs : Keeps s0 s) : Keeps s0 (journalFlush s) := by
  unfold journalFlush
  try dsimp only
  repeat' first | intro _ | with_reducible first | assumption | apply Keeps.ite | apply journalBlockWrite_keeps | apply Keeps.foldl | (rw [State.mk_marked]; first | apply Keeps.upd | apply Keeps.updTime | apply Keeps.updFree | apply Keeps.updOd | apply Keeps.updFuses) | exact Nat.le_refl _ | exact id | exact Nat.le_add_right _ _ | (exact mset_wf _ _ _ _ (by assumption)) | exact Nat.mod_lt _ (by decide) | exact ⟨Nat.le_refl _, by assumption⟩ | split | dsimp only

theorem stageLeave_keeps {s0 : State} {s : State} (hs : Keeps s0 s) : Keeps s0 (stageLeave s) := by
  unfold stageLeave
  try dsimp only
  repeat' first | intro _ | with_reducible first | assumption | apply Keeps.ite | apply journalAppend_keeps | apply journalGap_keeps | (rw [State.mk_marked]; first | apply Keeps.upd | apply Keeps.updTime | apply Keeps.updFree | apply Keeps.updOd | apply Keeps.updFuses) | exact Nat.le_refl _ | exact id | exact Nat.le_add_right _ _ | (exact mset_wf _ _ _ _ (by assumption)) | exact Nat.mod_lt _ (by decide) | exact ⟨Nat.le_refl _, by assumption⟩ | split | dsimp only

theorem writeJournalEnableFalse_keeps {s0 : State} {s : State} (hs : Keeps s0 s) : Keeps s0 (writeJournalEnableFalse s).state := by
  unfold writeJournalEnableFalse
  try dsimp only
  repeat' first | intro _ | with_reducible first | assumption | apply Keeps.iteR | apply Keeps.ok | apply Keeps.refuse | apply Keeps.ite | apply State.setObj_keeps | apply stopWhenFlushed_keeps | apply journalFlush_keeps | apply stageLeave_keeps | apply setCond_keeps | apply Keeps.foldl | split | dsimp only

theorem execJournalEnableFalse_keeps {s0 : State} {path : Nat} {s : State} (hs : Keeps s0 s) : OutKeeps s0 (execJournalEnableFalse path s) := by
  unfold execJournalEnableFalse
  try dsimp only
  repeat' first | intro _ | with_reducible first | assumption | apply OutKeeps.done | apply OutKeeps.ite | apply Keeps.ite | apply Keeps.ok | apply Keeps.refuse | apply Keeps.iteR | apply sdoWrite_keeps | apply writeJournalEnableFalse_keeps | split | dsimp only

theorem writeJournalEnableTrue_keeps {s0 : State} {s : State} (hs : Keeps s0 s) : Keeps s0 (writeJournalEnableTrue s).state := by
  unfold writeJournalEnableTrue
  try dsimp only
  repeat' first | intro _ | with_reducible first | assumption | apply Keeps.iteR | apply Keeps.ok | apply Keeps.refuse | apply Keeps.ite | apply State.setObj_keeps | apply mount_keeps | apply setCond_keeps | split | dsimp only

theorem execJournalEnableTrue_keeps {s0 : State} {path : Nat} {s : State} (hs : Keeps s0 s) : OutKeeps s0 (execJournalEnableTrue path s) := by
  unfold execJournalEnableTrue
  try dsimp only
  repeat' first | intro _ | with_reducible first | assumption | apply OutKeeps.done | apply OutKeeps.ite | apply Keeps.ite | apply Keeps.ok | apply Keeps.refuse | apply Keeps.iteR | apply sdoWrite_keeps | apply writeJournalEnableTrue_keeps | split | dsimp only

theorem execJournalRecordLeave_keeps {s0 : State} {s : State} (hs : Keeps s0 s) : OutKeeps s0 (execJournalRecordLeave s) := by
  unfold execJournalRecordLeave
  try dsimp only
  repeat' first | intro _ | with_reducible first | assumption | apply OutKeeps.done | apply OutKeeps.ite | apply Keeps.ite | apply stageLeave_keeps | split | dsimp only

theorem execSamplerRecordOffer_keeps {s0 : State} {typ : Nat} {t : Nat} {payload : FrameData} {s : State} (hs : Keeps s0 s) : OutKeeps s0 (execSamplerRecordOffer typ t payload s) := by
  unfold execSamplerRecordOffer
  try dsimp only
  repeat' first | intro _ | with_reducible first | assumption | apply OutKeeps.done | apply OutKeeps.ite | apply Keeps.ite | apply emit_keeps | split | dsimp only

theorem storeLoss_keeps {s0 : State} {s : State} (hs : Keeps s0 s) : Keeps s0 (storeLoss s) := by
  unfold storeLoss
  try dsimp only
  repeat' first | intro _ | with_reducible first | assumption | apply Keeps.ite | apply State.setObj_keeps | apply samplerStore_keeps | apply emit_keeps | apply setCond_keeps | split | dsimp only

theorem writeRelease_keeps {s0 : State} {n : Nat} {s : State} (hs : Keeps s0 s) : Keeps s0 (writeRelease n s).state := by
  unfold writeRelease
  try dsimp only
  repeat' first | intro _ | with_reducible first | assumption | apply Keeps.iteR | apply Keeps.ok | apply Keeps.refuse | apply Keeps.ite | apply samplerShow_keeps | apply storeLoss_keeps | (rw [State.mk_marked]; first | apply Keeps.upd | apply Keeps.updTime | apply Keeps.updFree | apply Keeps.updOd | apply Keeps.updFuses) | exact Nat.le_refl _ | exact id | exact Nat.le_add_right _ _ | (exact mset_wf _ _ _ _ (by assumption)) | exact Nat.mod_lt _ (by decide) | exact ⟨Nat.le_refl _, by assumption⟩ | split | dsimp only

theorem execSamplerReleaseWrite_keeps {s0 : State} {path : Nat} {n : Nat} {s : State} (hs : Keeps s0 s) : OutKeeps s0 (execSamplerReleaseWrite path n s) := by
  unfold execSamplerReleaseWrite
  try dsimp only
  repeat' first | intro _ | with_reducible first | assumption | apply OutKeeps.done | apply OutKeeps.ite | apply Keeps.ite | apply Keeps.ok | apply Keeps.refuse | apply Keeps.iteR | apply sdoWrite_keeps | apply writeRelease_keeps | split | dsimp only

theorem execTraceExportCopy_keeps {s0 : State} {s : State} (hs : Keeps s0 s) : OutKeeps s0 (execTraceExportCopy s) := by
  unfold execTraceExportCopy
  try dsimp only
  repeat' first | intro _ | with_reducible first | assumption | apply OutKeeps.done | apply OutKeeps.ite | apply Keeps.ite | apply ringRead_keeps | apply ringSet_keeps | split | dsimp only

theorem readExport_keeps {s0 : State} {s : State} (hs : Keeps s0 s) : Keeps s0 (readExport s).state := by
  unfold readExport
  try dsimp only
  repeat' first | intro _ | with_reducible first | assumption | apply Keeps.iteR | apply Keeps.ok | apply Keeps.refuse | apply Keeps.ite | apply ringFree_keeps | (rw [State.mk_marked]; first | apply Keeps.upd | apply Keeps.updTime | apply Keeps.updFree | apply Keeps.updOd | apply Keeps.updFuses) | exact Nat.le_refl _ | exact id | exact Nat.le_add_right _ _ | (exact mset_wf _ _ _ _ (by assumption)) | exact Nat.mod_lt _ (by decide) | exact ⟨Nat.le_refl _, by assumption⟩ | split | dsimp only

theorem execTraceExportRead_keeps {s0 : State} {path : Nat} {s : State} (hs : Keeps s0 s) : OutKeeps s0 (execTraceExportRead path s) := by
  unfold execTraceExportRead
  try dsimp only
  repeat' first | intro _ | with_reducible first | assumption | apply OutKeeps.done | apply OutKeeps.ite | apply Keeps.ite | apply Keeps.ok | apply Keeps.refuse | apply Keeps.iteR | apply sdoServe_keeps | apply readExport_keeps | split | dsimp only

theorem freeBlock_keeps {s0 : State} {s : State} (hs : Keeps s0 s) : Keeps s0 (freeBlock s).2 := by
  unfold freeBlock
  try dsimp only
  repeat' first | intro _ | with_reducible first | assumption | refine Keeps.snd (by assumption) ?_ | apply Keeps.ite | (rw [State.mk_marked]; first | apply Keeps.upd | apply Keeps.updTime | apply Keeps.updFree | apply Keeps.updOd | apply Keeps.updFuses) | exact Nat.le_refl _ | exact id | exact Nat.le_add_right _ _ | (exact mset_wf _ _ _ _ (by assumption)) | exact Nat.mod_lt _ (by decide) | exact ⟨Nat.le_refl _, by assumption⟩ | split | dsimp only

theorem nvDrop_keeps {s0 : State} {c : NvCmd} {s : State} (hs : Keeps s0 s) : Keeps s0 (nvDrop c s) := by
  unfold nvDrop
  try dsimp only
  repeat' first | intro _ | with_reducible first | assumption | apply Keeps.ite | apply State.setJournal_keeps | split | dsimp only

theorem readDone_keeps {s0 : State} {c : NvCmd} {s : State} (hs : Keeps s0 s) : Keeps s0 (readDone c s) := by
  unfold readDone
  try dsimp only
  repeat' first | intro _ | with_reducible first | assumption | refine Keeps.snd (by assumption) ?_ | apply Keeps.ite | apply answered_keeps | apply freeBlock_keeps | split | dsimp only

theorem nvmeComplete_keeps {s0 : State} {drive : Nat} {n : Nat} {failed : Bool} {s : State} (hs : Keeps s0 s) : Keeps s0 (nvmeComplete drive n failed s) := by
  unfold nvmeComplete
  try dsimp only
  repeat' first | intro _ | with_reducible first | assumption | apply Keeps.ite | apply nvDrop_keeps | apply State.setObji_keeps | apply nvIssue_keeps | apply readFailed_keeps | apply driveLost_keeps | apply State.setJournal_keeps | apply readDone_keeps | apply driveStore_keeps | apply stopWhenFlushed_keeps | apply blockDone_keeps | split | dsimp only

theorem nvmeTimeout_keeps {s0 : State} {drive : Nat} {n : Nat} {s : State} (hs : Keeps s0 s) : Keeps s0 (nvmeTimeout drive n s) := by
  unfold nvmeTimeout
  try dsimp only
  repeat' first | intro _ | with_reducible first | assumption | apply Keeps.ite | apply State.bumpi_keeps | apply nvDrop_keeps | apply State.setJournal_keeps | apply driveLost_keeps | split | dsimp only

end Sys2Proof.Machine
end

