-- ==== Sys2Proof/Laws/Keeps/CommOps.lean ====
section
/-! SUPPORT. What the operations of Machine/CommOps.lean keep: the queue, monotone time, free values and life cycle, and the invariant. -/

namespace Sys2Proof.Machine
open Sys2Proof
set_option linter.all false
set_option Elab.async false

theorem writeClearRecord_keeps {s0 : State} {v : Nat} {s : State} (hs : Keeps s0 s) : Keeps s0 (writeClearRecord v s).state := by
  unfold writeClearRecord
  try dsimp only
  repeat' first | intro _ | with_reducible first | assumption | apply Keeps.iteR | apply Keeps.ok | apply Keeps.refuse | apply Keeps.ite | apply recordChanged_keeps | (rw [State.mk_marked]; first | apply Keeps.upd | apply Keeps.updTime | apply Keeps.updFree | apply Keeps.updOd | apply Keeps.updFuses) | split | dsimp only

theorem execClearRecordWrite_keeps {s0 : State} {path : Nat} {v : Nat} {s : State} (hs : Keeps s0 s) : OutKeeps s0 (execClearRecordWrite path v s) := by
  unfold execClearRecordWrite
  try dsimp only
  repeat' first | intro _ | with_reducible first | assumption | apply OutKeeps.done | apply OutKeeps.ite | apply Keeps.ite | apply Keeps.ok | apply Keeps.refuse | apply Keeps.iteR | apply sdoWrite_keeps | apply writeClearRecord_keeps | split | dsimp only

theorem writeLock_keeps {s0 : State} {v : Nat} {s : State} (hs : Keeps s0 s) : Keeps s0 (writeLock v s).state := by
  unfold writeLock
  try dsimp only
  repeat' first | intro _ | with_reducible first | assumption | apply Keeps.iteR | apply Keeps.ok | apply Keeps.refuse | apply Keeps.ite | apply persistTouch_keeps | apply State.setObj_keeps | split | dsimp only

theorem execLockWrite_keeps {s0 : State} {path : Nat} {v : Nat} {s : State} (hs : Keeps s0 s) : OutKeeps s0 (execLockWrite path v s) := by
  unfold execLockWrite
  try dsimp only
  repeat' first | intro _ | with_reducible first | assumption | apply OutKeeps.done | apply OutKeeps.ite | apply Keeps.ite | apply Keeps.ok | apply Keeps.refuse | apply Keeps.iteR | apply sdoWrite_keeps | apply writeLock_keeps | split | dsimp only

theorem setStop_keeps {s0 : State} {phase : Nat} {limit : Nat} {s : State} (hs : Keeps s0 s) : Keeps s0 (setStop phase limit s) := by
  unfold setStop
  try dsimp only
  repeat' first | intro _ | with_reducible first | assumption | apply Keeps.ite | (rw [State.mk_marked]; first | apply Keeps.upd | apply Keeps.updTime | apply Keeps.updFree | apply Keeps.updOd | apply Keeps.updFuses) | split | dsimp only

theorem stopFlush_keeps {s0 : State} {s : State} (hs : Keeps s0 s) : Keeps s0 (stopFlush s) := by
  unfold stopFlush
  try dsimp only
  repeat' first | intro _ | with_reducible first | assumption | apply Keeps.ite | apply setStop_keeps | apply journalFlush_keeps | split | dsimp only

theorem samplerCopy_keeps {s0 : State} {s : State} (hs : Keeps s0 s) : Keeps s0 (samplerCopy s) := by
  unfold samplerCopy
  try dsimp only
  repeat' first | intro _ | with_reducible first | assumption | apply Keeps.ite | apply flashQueue_keeps | apply State.setObj_keeps | apply State.setFlash_keeps | split | dsimp only

theorem stopRecords_keeps {s0 : State} {s : State} (hs : Keeps s0 s) : Keeps s0 (stopRecords s) := by
  unfold stopRecords
  try dsimp only
  repeat' first | intro _ | with_reducible first | assumption | apply Keeps.ite | apply setStop_keeps | apply persistTouch_keeps | apply samplerCopy_keeps | apply sample_keeps | split | dsimp only

theorem execOrderlyStopWaitExpiry_keeps {s0 : State} {s : State} (hs : Keeps s0 s) : OutKeeps s0 (execOrderlyStopWaitExpiry s) := by
  unfold execOrderlyStopWaitExpiry
  try dsimp only
  repeat' first | intro _ | with_reducible first | assumption | apply OutKeeps.done | apply OutKeeps.ite | apply Keeps.ite | apply stopFlush_keeps | apply stopRecords_keeps | split | dsimp only

theorem resetSoon_keeps {s0 : State} {s : State} (hs : Keeps s0 s) : Keeps s0 (resetSoon s) := by
  unfold resetSoon
  try dsimp only
  repeat' first | intro _ | with_reducible first | assumption | apply Keeps.ite | (rw [State.mk_marked]; first | apply Keeps.upd | apply Keeps.updTime | apply Keeps.updFree | apply Keeps.updOd | apply Keeps.updFuses) | split | dsimp only

theorem writeRestart_keeps {s0 : State} {v : Nat} {s : State} (hs : Keeps s0 s) : Keeps s0 (writeRestart v s).state := by
  unfold writeRestart
  try dsimp only
  repeat' first | intro _ | with_reducible first | assumption | apply Keeps.iteR | apply Keeps.ok | apply Keeps.refuse | apply Keeps.ite | apply resetSoon_keeps | split | dsimp only

theorem execRestartWrite_keeps {s0 : State} {path : Nat} {v : Nat} {s : State} (hs : Keeps s0 s) : OutKeeps s0 (execRestartWrite path v s) := by
  unfold execRestartWrite
  try dsimp only
  repeat' first | intro _ | with_reducible first | assumption | apply OutKeeps.done | apply OutKeeps.ite | apply Keeps.ite | apply Keeps.ok | apply Keeps.refuse | apply Keeps.iteR | apply sdoWrite_keeps | apply writeRestart_keeps | split | dsimp only

theorem writeRestore_keeps {s0 : State} {v : Nat} {s : State} (hs : Keeps s0 s) : Keeps s0 (writeRestore v s).state := by
  unfold writeRestore
  try dsimp only
  repeat' first | intro _ | with_reducible first | assumption | apply Keeps.iteR | apply Keeps.ok | apply Keeps.refuse | apply Keeps.ite | apply State.setObj_keeps | apply State.setFlash_keeps | split | dsimp only

theorem execRestoreDefaultsWrite_keeps {s0 : State} {path : Nat} {v : Nat} {s : State} (hs : Keeps s0 s) : OutKeeps s0 (execRestoreDefaultsWrite path v s) := by
  unfold execRestoreDefaultsWrite
  try dsimp only
  repeat' first | intro _ | with_reducible first | assumption | apply OutKeeps.done | apply OutKeeps.ite | apply Keeps.ite | apply Keeps.ok | apply Keeps.refuse | apply Keeps.iteR | apply sdoWrite_keeps | apply writeRestore_keeps | split | dsimp only

theorem execSaveComplete_keeps {s0 : State} {s : State} (hs : Keeps s0 s) : OutKeeps s0 (execSaveComplete s) := by
  unfold execSaveComplete
  try dsimp only
  repeat' first | intro _ | with_reducible first | assumption | apply OutKeeps.done | apply OutKeeps.ite | apply Keeps.ite | apply State.bump_keeps | apply State.setObj_keeps | split | dsimp only

theorem writeSave_keeps {s0 : State} {v : Nat} {s : State} (hs : Keeps s0 s) : Keeps s0 (writeSave v s).state := by
  unfold writeSave
  try dsimp only
  repeat' first | intro _ | with_reducible first | assumption | apply Keeps.iteR | apply Keeps.ok | apply Keeps.refuse | apply Keeps.ite | apply flashQueue_keeps | apply State.setObj_keeps | split | dsimp only

theorem execSaveWrite_keeps {s0 : State} {path : Nat} {v : Nat} {s : State} (hs : Keeps s0 s) : OutKeeps s0 (execSaveWrite path v s) := by
  unfold execSaveWrite
  try dsimp only
  repeat' first | intro _ | with_reducible first | assumption | apply OutKeeps.done | apply OutKeeps.ite | apply Keeps.ite | apply Keeps.ok | apply Keeps.refuse | apply Keeps.iteR | apply sdoWrite_keeps | apply writeSave_keeps | split | dsimp only

theorem stopDone_keeps {s0 : State} {s : State} (hs : Keeps s0 s) : Keeps s0 (stopDone s) := by
  unfold stopDone
  try dsimp only
  repeat' first | intro _ | with_reducible first | assumption | apply Keeps.ite | apply setStop_keeps | apply State.setObj_keeps | split | dsimp only

theorem execStopDrained_keeps {s0 : State} {s : State} (hs : Keeps s0 s) : OutKeeps s0 (execStopDrained s) := by
  unfold execStopDrained
  try dsimp only
  repeat' first | intro _ | with_reducible first | assumption | apply OutKeeps.done | apply OutKeeps.ite | apply Keeps.ite | apply stopFlush_keeps | apply stopRecords_keeps | apply stopDone_keeps | split | dsimp only

theorem writeStop_keeps {s0 : State} {v : Nat} {s : State} (hs : Keeps s0 s) : Keeps s0 (writeStop v s).state := by
  unfold writeStop
  try dsimp only
  repeat' first | intro _ | with_reducible first | assumption | apply Keeps.iteR | apply Keeps.ok | apply Keeps.refuse | apply Keeps.ite | apply State.setObj_keeps | apply setStop_keeps | apply Keeps.foldl | split | dsimp only

theorem execStopWrite_keeps {s0 : State} {path : Nat} {v : Nat} {s : State} (hs : Keeps s0 s) : OutKeeps s0 (execStopWrite path v s) := by
  unfold execStopWrite
  try dsimp only
  repeat' first | intro _ | with_reducible first | assumption | apply OutKeeps.done | apply OutKeeps.ite | apply Keeps.ite | apply Keeps.ok | apply Keeps.refuse | apply Keeps.iteR | apply sdoWrite_keeps | apply writeStop_keeps | split | dsimp only

end Sys2Proof.Machine
end

