-- ==== Sys2Proof/Laws/Keeps/Operands.lean ====
section
/-! SUPPORT. What the operations of Machine/Operands.lean keep: the queue, monotone time, free values and life cycle, and the invariant. -/

namespace Sys2Proof.Machine
open Sys2Proof
set_option linter.all false
set_option Elab.async false

theorem retireRun_keeps {s0 : State} {m : Nat} {pos : Nat} {r : Run} {s : State} (hs : Keeps s0 s) : Keeps s0 (retireRun m pos r s) := by
  unfold retireRun
  try dsimp only
  repeat' first | intro _ | with_reducible first | assumption | apply Keeps.ite | apply State.setMotif_keeps | split | dsimp only

theorem dropRun_keeps {s0 : State} {m : Nat} {pos : Nat} {r : Run} {s : State} (hs : Keeps s0 s) : Keeps s0 (dropRun m pos r s) := by
  unfold dropRun
  try dsimp only
  repeat' first | intro _ | with_reducible first | assumption | apply Keeps.ite | apply retireRun_keeps | apply State.setMotif_keeps | split | dsimp only

end Sys2Proof.Machine
end

