-- ==== Sys2Proof/Laws/Keeps/FaultMask.lean ====
section
/-! SUPPORT. What the operations of Machine/FaultMask.lean keep: the queue, monotone time, free values and life cycle, and the invariant. -/

namespace Sys2Proof.Machine
open Sys2Proof
set_option linter.all false
set_option Elab.async false

theorem collateral_keeps {s0 : State} {m : Nat} {pos : Nat} {t : Nat} {bad : TidList} {s : State} (hs : Keeps s0 s) : Keeps s0 (collateral m pos t bad s) := by
  unfold collateral
  try dsimp only
  repeat' first | intro _ | with_reducible first | assumption | apply Keeps.ite | apply State.setMotif_keeps | apply dropRun_keeps | apply raise_keeps | apply motifAbort_keeps | apply State.bump_keeps | apply Keeps.foldl | split | dsimp only

theorem countMism_keeps {s0 : State} {m : Nat} {d : Mism} {s : State} (hs : Keeps s0 s) : Keeps s0 (countMism m d s) := by
  unfold countMism
  try dsimp only
  repeat' first | intro _ | with_reducible first | assumption | apply Keeps.ite | apply State.setObj_keeps | apply State.bump_keeps | apply State.setMotif_keeps | apply raise_keeps | split | dsimp only

theorem countReplay_keeps {s0 : State} {m : Nat} {cls : Nat} {n : Nat} {s : State} (hs : Keeps s0 s) : Keeps s0 (countReplay m cls n s) := by
  unfold countReplay
  try dsimp only
  repeat' first | intro _ | with_reducible first | assumption | apply Keeps.ite | apply State.bump_keeps | split | dsimp only

theorem writeClearSuspect_keeps {s0 : State} {v : Nat} {s : State} (hs : Keeps s0 s) : Keeps s0 (writeClearSuspect v s).state := by
  unfold writeClearSuspect
  try dsimp only
  repeat' first | intro _ | with_reducible first | assumption | apply Keeps.iteR | apply Keeps.ok | apply Keeps.refuse | apply Keeps.ite | apply persistTouch_keeps | (rw [State.mk_marked]; first | apply Keeps.upd | apply Keeps.updTime | apply Keeps.updFree | apply Keeps.updOd | apply Keeps.updFuses) | split | dsimp only

theorem execClearSuspectWrite_keeps {s0 : State} {path : Nat} {v : Nat} {s : State} (hs : Keeps s0 s) : OutKeeps s0 (execClearSuspectWrite path v s) := by
  unfold execClearSuspectWrite
  try dsimp only
  repeat' first | intro _ | with_reducible first | assumption | apply OutKeeps.done | apply OutKeeps.ite | apply Keeps.ite | apply Keeps.ok | apply Keeps.refuse | apply Keeps.iteR | apply sdoWrite_keeps | apply writeClearSuspect_keeps | split | dsimp only

theorem execDramPatrolScrub_keeps {s0 : State} {addr : Nat} {ecc : Nat} {s : State} (hs : Keeps s0 s) : OutKeeps s0 (execDramPatrolScrub addr ecc s) := by
  unfold execDramPatrolScrub
  try dsimp only
  repeat' first | intro _ | with_reducible first | assumption | refine Keeps.snd (by assumption) ?_ | apply OutKeeps.done | apply OutKeeps.ite | apply Keeps.ite | apply dramCheck_keeps | split | dsimp only

theorem failLink_keeps {s0 : State} {x1 : Nat} {y : Nat} {port : Nat} {s : State} (hs : Keeps s0 s) : Keeps s0 (failLink x1 y port s) := by
  unfold failLink
  try dsimp only
  repeat' first | intro _ | with_reducible first | assumption | apply Keeps.ite | apply State.setObj_keeps | apply setDegraded_keeps | apply State.setObjBit_keeps | (rw [State.mk_marked]; first | apply Keeps.upd | apply Keeps.updTime | apply Keeps.updFree | apply Keeps.updOd | apply Keeps.updFuses) | split | dsimp only

theorem execFlitCrcError_keeps {s0 : State} {x1 : Nat} {y : Nat} {port : Nat} {again : Bool} {s : State} (hs : Keeps s0 s) : OutKeeps s0 (execFlitCrcError x1 y port again s) := by
  unfold execFlitCrcError
  try dsimp only
  repeat' first | intro _ | with_reducible first | assumption | apply OutKeeps.done | apply OutKeeps.ite | apply Keeps.ite | apply State.bump_keeps | apply failLink_keeps | (rw [State.mk_marked]; first | apply Keeps.upd | apply Keeps.updTime | apply Keeps.updFree | apply Keeps.updOd | apply Keeps.updFuses) | split | dsimp only

theorem suspectMark_keeps {s0 : State} {m : Nat} {d : Mism} {s : State} (hs : Keeps s0 s) : Keeps s0 (suspectMark m d s) := by
  unfold suspectMark
  try dsimp only
  repeat' first | intro _ | with_reducible first | assumption | apply Keeps.ite | apply State.setObjBit_keeps | apply persistTouch_keeps | apply raise_keeps | apply State.setMotif_keeps | (rw [State.mk_marked]; first | apply Keeps.upd | apply Keeps.updTime | apply Keeps.updFree | apply Keeps.updOd | apply Keeps.updFuses) | split | dsimp only

theorem execLaneMismatchReport_keeps {s0 : State} {m : Nat} {bad : TidList} {s : State} (hs : Keeps s0 s) : OutKeeps s0 (execLaneMismatchReport m bad s) := by
  unfold execLaneMismatchReport
  try dsimp only
  repeat' first | intro _ | with_reducible first | assumption | apply OutKeeps.done | apply OutKeeps.ite | apply Keeps.ite | apply countMism_keeps | apply State.setMotif_keeps | apply raise_keeps | apply motifAbort_keeps | apply suspectMark_keeps | split | dsimp only

theorem execPageCopyComplete_keeps {s0 : State} {page : Nat} {s : State} (hs : Keeps s0 s) : OutKeeps s0 (execPageCopyComplete page s) := by
  unfold execPageCopyComplete
  try dsimp only
  repeat' first | intro _ | with_reducible first | assumption | apply OutKeeps.done | apply OutKeeps.ite | apply Keeps.ite | (rw [State.mk_marked]; first | apply Keeps.upd | apply Keeps.updTime | apply Keeps.updFree | apply Keeps.updOd | apply Keeps.updFuses) | split | dsimp only

theorem setPhys_keeps {s0 : State} {m : Nat} {pos : Nat} {p : Nat} {s : State} (hs : Keeps s0 s) : Keeps s0 (setPhys m pos p s) := by
  unfold setPhys
  try dsimp only
  repeat' first | intro _ | with_reducible first | assumption | apply Keeps.ite | apply State.setObj_keeps | split | dsimp only

theorem loseSlot_keeps {s0 : State} {m : Nat} {pos : Nat} {k : Nat} {s : State} (hs : Keeps s0 s) : Keeps s0 (loseSlot m pos k s) := by
  unfold loseSlot
  try dsimp only
  repeat' first | intro _ | with_reducible first | assumption | apply Keeps.ite | apply State.setMotif_keeps | apply State.bump_keeps | apply sample_keeps | apply raise_keeps | split | dsimp only

theorem moveWord_keeps {s0 : State} {m : Nat} {pos : Nat} {s : State} {w : LaneWord} (hs : Keeps s0 s) : Keeps s0 (moveWord m pos s w) := by
  unfold moveWord
  try dsimp only
  repeat' first | intro _ | with_reducible first | assumption | apply Keeps.ite | apply State.setMotif_keeps | split | dsimp only

theorem moveBanks_keeps {s0 : State} {m : Nat} {pos : Nat} {words : List LaneWord} {s : State} (hs : Keeps s0 s) : Keeps s0 (moveBanks m pos words s) := by
  unfold moveBanks
  try dsimp only
  repeat' first | intro _ | with_reducible first | assumption | apply Keeps.ite | apply loseSlot_keeps | apply moveWord_keeps | apply Keeps.foldl | split | dsimp only

theorem execRemapComplete_keeps {s0 : State} {m : Nat} {words : List LaneWord} {s : State} (hs : Keeps s0 s) : OutKeeps s0 (execRemapComplete m words s) := by
  unfold execRemapComplete
  try dsimp only
  repeat' first | intro _ | with_reducible first | assumption | apply OutKeeps.done | apply OutKeeps.ite | apply Keeps.ite | apply State.setMotif_keeps | apply setPhys_keeps | apply State.setObj_keeps | apply noteSpares_keeps | apply raise_keeps | apply moveBanks_keeps | split | dsimp only

theorem execRemapStart_keeps {s0 : State} {m : Nat} {bad : TidList} {s : State} (hs : Keeps s0 s) : OutKeeps s0 (execRemapStart m bad s) := by
  unfold execRemapStart
  try dsimp only
  repeat' first | intro _ | with_reducible first | assumption | apply OutKeeps.done | apply OutKeeps.ite | apply Keeps.ite | apply collateral_keeps | apply State.setMotif_keeps | split | dsimp only

theorem lostRecord_keeps {s0 : State} {m : Nat} {t : Nat} {s : State} (hs : Keeps s0 s) : Keeps s0 (lostRecord m t s) := by
  unfold lostRecord
  try dsimp only
  repeat' first | intro _ | with_reducible first | assumption | apply Keeps.ite | apply raise_keeps | apply sramUncorrectable_keeps | apply State.setMotif_keeps | split | dsimp only

theorem execReplayStreamStart_keeps {s0 : State} {m : Nat} {ecc : Nat} {bad : TidList} {s : State} (hs : Keeps s0 s) : OutKeeps s0 (execReplayStreamStart m ecc bad s) := by
  unfold execReplayStreamStart
  try dsimp only
  repeat' first | intro _ | with_reducible first | assumption | apply OutKeeps.done | apply OutKeeps.ite | apply Keeps.ite | apply State.setMotif_keeps | apply motifAbort_keeps | apply lostRecord_keeps | apply countReplay_keeps | apply sramCorrected_keeps | split | dsimp only

theorem execScrubRead_keeps {s0 : State} {w : ScrubWord} {s : State} (hs : Keeps s0 s) : OutKeeps s0 (execScrubRead w s) := by
  unfold execScrubRead
  try dsimp only
  repeat' first | intro _ | with_reducible first | assumption | refine Keeps.snd (by assumption) ?_ | apply OutKeeps.done | apply OutKeeps.ite | apply Keeps.ite | apply hoopCheck_keeps | apply raise_keeps | apply scrubScratch_keeps | split | dsimp only

end Sys2Proof.Machine
end

