-- ==== Sys2Proof/Laws/Keeps/FizSys.lean ====
section
/-! SUPPORT. What the operations of Machine/FizSys.lean keep: the queue, monotone time, free values and life cycle, and the invariant. -/

namespace Sys2Proof.Machine
open Sys2Proof
set_option linter.all false
set_option Elab.async false

theorem ctxSwitch_keeps {s0 : State} {c : Nat} {a : Nat} {s : State} (hs : Keeps s0 s) : FzKeeps s0 (ctxSwitch c a s) := by
  unfold ctxSwitch
  try dsimp only
  repeat' first | intro _ | with_reducible first | assumption | refine FzKeeps.getOk (by assumption) ?_ | refine FzKeeps.getTrap (by assumption) ?_ | refine FzKeeps.getStall (by assumption) ?_ | apply FzKeeps.ite | apply FzKeeps.ok | apply FzKeeps.trap | apply FzKeeps.stall | apply Keeps.ite | apply fzAdvance_keeps | apply State.setCore_keeps | apply fzBump_keeps | split | dsimp only

theorem execFzBrk_keeps {s0 : State} {c : Nat} {s : State} (hs : Keeps s0 s) : OutKeeps s0 (execFzBrk c s) := by
  unfold execFzBrk
  try dsimp only
  repeat' first | intro _ | with_reducible first | assumption | apply FzKeeps.ite | apply FzKeeps.ok | apply FzKeeps.trap | apply FzKeeps.stall | apply OutKeeps.done | apply OutKeeps.ite | apply Keeps.ite | apply fzDo_keeps | split | dsimp only

theorem fzEccGate_keeps {s0 : State} {ecc : Nat} {s : State} {f : State → FzRes} {inSeq : optParam Bool false} (hs : Keeps s0 s) (hf : ∀ v0, Keeps s0 v0 → FzKeeps s0 (f v0)) : FzKeeps s0 (fzEccGate ecc s f inSeq) := by
  unfold fzEccGate
  try dsimp only
  repeat' first | intro _ | with_reducible first | assumption | apply hf | refine FzKeeps.getOk (by assumption) ?_ | refine FzKeeps.getTrap (by assumption) ?_ | refine FzKeeps.getStall (by assumption) ?_ | apply FzKeeps.ite | apply FzKeeps.ok | apply FzKeeps.trap | apply FzKeeps.stall | apply Keeps.ite | apply fzEcc_keeps | split | dsimp only

theorem execFzCtx_keeps {s0 : State} {c : Nat} {ra : Nat} {ecc : Nat} {s : State} (hs : Keeps s0 s) : OutKeeps s0 (execFzCtx c ra ecc s) := by
  unfold execFzCtx
  try dsimp only
  repeat' first | intro _ | with_reducible first | assumption | apply FzKeeps.ite | apply FzKeeps.ok | apply FzKeeps.trap | apply FzKeeps.stall | refine FzKeeps.getOk (by assumption) ?_ | refine FzKeeps.getTrap (by assumption) ?_ | refine FzKeeps.getStall (by assumption) ?_ | apply OutKeeps.done | apply OutKeeps.ite | apply Keeps.ite | apply fzDo_keeps | apply fzEccGate_keeps | apply ctxSwitch_keeps | split | dsimp only

theorem setIe_keeps {s0 : State} {c : Nat} {v : Bool} {s : State} (hs : Keeps s0 s) : OutKeeps s0 (setIe c v s) := by
  unfold setIe
  try dsimp only
  repeat' first | intro _ | with_reducible first | assumption | apply FzKeeps.ite | apply FzKeeps.ok | apply FzKeeps.trap | apply FzKeeps.stall | refine FzKeeps.getOk (by assumption) ?_ | refine FzKeeps.getTrap (by assumption) ?_ | refine FzKeeps.getStall (by assumption) ?_ | apply OutKeeps.done | apply OutKeeps.ite | apply Keeps.ite | apply fzDo_keeps | apply fzSystem_keeps | apply fzAdvance_keeps | apply State.setCore_keeps | split | dsimp only

theorem execFzDi_keeps {s0 : State} {c : Nat} {s : State} (hs : Keeps s0 s) : OutKeeps s0 (execFzDi c s) := by
  unfold execFzDi
  try dsimp only
  repeat' first | intro _ | with_reducible first | assumption | apply FzKeeps.ite | apply FzKeeps.ok | apply FzKeeps.trap | apply FzKeeps.stall | apply OutKeeps.done | apply OutKeeps.ite | apply Keeps.ite | apply setIe_keeps | split | dsimp only

theorem execFzEi_keeps {s0 : State} {c : Nat} {s : State} (hs : Keeps s0 s) : OutKeeps s0 (execFzEi c s) := by
  unfold execFzEi
  try dsimp only
  repeat' first | intro _ | with_reducible first | assumption | apply FzKeeps.ite | apply FzKeeps.ok | apply FzKeeps.trap | apply FzKeeps.stall | apply OutKeeps.done | apply OutKeeps.ite | apply Keeps.ite | apply setIe_keeps | split | dsimp only

theorem execFzFence_keeps {s0 : State} {c : Nat} {s : State} (hs : Keeps s0 s) : OutKeeps s0 (execFzFence c s) := by
  unfold execFzFence
  try dsimp only
  repeat' first | intro _ | with_reducible first | assumption | apply FzKeeps.ite | apply FzKeeps.ok | apply FzKeeps.trap | apply FzKeeps.stall | apply OutKeeps.done | apply OutKeeps.ite | apply Keeps.ite | apply fzDo_keeps | apply fzAdvance_keeps | apply State.setCore_keeps | split | dsimp only

theorem frameRead_keeps {s0 : State} {c : Nat} {a : Nat} {ecc : Nat} {s : State} (hs : Keeps s0 s) : Keeps s0 (frameRead c a ecc s).2 := by
  unfold frameRead
  try dsimp only
  repeat' first | intro _ | with_reducible first | assumption | refine Keeps.snd (by assumption) ?_ | apply Keeps.ite | apply fzRead_keeps | split | dsimp only

theorem rfe_keeps {s0 : State} {c : Nat} {ecc : Nat} {s : State} (hs : Keeps s0 s) : FzKeeps s0 (rfe c ecc s) := by
  unfold rfe
  try dsimp only
  repeat' first | intro _ | with_reducible first | assumption | refine Keeps.snd (by assumption) ?_ | refine FzKeeps.getOk (by assumption) ?_ | refine FzKeeps.getTrap (by assumption) ?_ | refine FzKeeps.getStall (by assumption) ?_ | apply FzKeeps.ite | apply FzKeeps.ok | apply FzKeeps.trap | apply FzKeeps.stall | apply Keeps.ite | apply fzEccGate_keeps | apply State.setCore_keeps | apply fzAtBank_keeps | apply frameRead_keeps | split | dsimp only

theorem execFzRfe_keeps {s0 : State} {c : Nat} {ecc : Nat} {s : State} (hs : Keeps s0 s) : OutKeeps s0 (execFzRfe c ecc s) := by
  unfold execFzRfe
  try dsimp only
  repeat' first | intro _ | with_reducible first | assumption | apply FzKeeps.ite | apply FzKeeps.ok | apply FzKeeps.trap | apply FzKeeps.stall | refine FzKeeps.getOk (by assumption) ?_ | refine FzKeeps.getTrap (by assumption) ?_ | refine FzKeeps.getStall (by assumption) ?_ | apply OutKeeps.done | apply OutKeeps.ite | apply Keeps.ite | apply fzDo_keeps | apply fzSystem_keeps | apply rfe_keeps | split | dsimp only

theorem execFzRfi_keeps {s0 : State} {c : Nat} {s : State} (hs : Keeps s0 s) : OutKeeps s0 (execFzRfi c s) := by
  unfold execFzRfi
  try dsimp only
  repeat' first | intro _ | with_reducible first | assumption | apply FzKeeps.ite | apply FzKeeps.ok | apply FzKeeps.trap | apply FzKeeps.stall | refine FzKeeps.getOk (by assumption) ?_ | refine FzKeeps.getTrap (by assumption) ?_ | refine FzKeeps.getStall (by assumption) ?_ | apply OutKeeps.done | apply OutKeeps.ite | apply Keeps.ite | apply fzDo_keeps | apply fzSystem_keeps | apply State.setCore_keeps | split | dsimp only

theorem saveInstr_keeps {s0 : State} {c : Nat} {r : Nat ⊕ Core} {advance : Bool} {s : State} (hs : Keeps s0 s) : FzKeeps s0 (saveInstr c r advance s) := by
  unfold saveInstr
  try dsimp only
  repeat' first | intro _ | with_reducible first | assumption | refine SumKeeps.get (by assumption) ?_ | refine FzKeeps.getOk (by assumption) ?_ | refine FzKeeps.getTrap (by assumption) ?_ | refine FzKeeps.getStall (by assumption) ?_ | apply FzKeeps.ite | apply FzKeeps.ok | apply FzKeeps.trap | apply FzKeeps.stall | apply Keeps.ite | apply fzAdvance_keeps | apply State.setCore_keeps | split | dsimp only

theorem execFzRstl_keeps {s0 : State} {c : Nat} {ecc : Nat} {s : State} (hs : Keeps s0 s) : OutKeeps s0 (execFzRstl c ecc s) := by
  unfold execFzRstl
  try dsimp only
  repeat' first | intro _ | with_reducible first | assumption | apply FzKeeps.ite | apply FzKeeps.ok | apply FzKeeps.trap | apply FzKeeps.stall | refine FzKeeps.getOk (by assumption) ?_ | refine FzKeeps.getTrap (by assumption) ?_ | refine FzKeeps.getStall (by assumption) ?_ | apply OutKeeps.done | apply OutKeeps.ite | apply Keeps.ite | apply fzDo_keeps | apply fzEccGate_keeps | apply saveInstr_keeps | split | dsimp only

theorem execFzRstu_keeps {s0 : State} {c : Nat} {ecc : Nat} {s : State} (hs : Keeps s0 s) : OutKeeps s0 (execFzRstu c ecc s) := by
  unfold execFzRstu
  try dsimp only
  repeat' first | intro _ | with_reducible first | assumption | apply FzKeeps.ite | apply FzKeeps.ok | apply FzKeeps.trap | apply FzKeeps.stall | refine FzKeeps.getOk (by assumption) ?_ | refine FzKeeps.getTrap (by assumption) ?_ | refine FzKeeps.getStall (by assumption) ?_ | apply OutKeeps.done | apply OutKeeps.ite | apply Keeps.ite | apply fzDo_keeps | apply fzEccGate_keeps | apply saveInstr_keeps | split | dsimp only

theorem execFzSavl_keeps {s0 : State} {c : Nat} {s : State} (hs : Keeps s0 s) : OutKeeps s0 (execFzSavl c s) := by
  unfold execFzSavl
  try dsimp only
  repeat' first | intro _ | with_reducible first | assumption | apply FzKeeps.ite | apply FzKeeps.ok | apply FzKeeps.trap | apply FzKeeps.stall | refine FzKeeps.getOk (by assumption) ?_ | refine FzKeeps.getTrap (by assumption) ?_ | refine FzKeeps.getStall (by assumption) ?_ | apply OutKeeps.done | apply OutKeeps.ite | apply Keeps.ite | apply fzDo_keeps | apply saveInstr_keeps | split | dsimp only

theorem execFzSavu_keeps {s0 : State} {c : Nat} {s : State} (hs : Keeps s0 s) : OutKeeps s0 (execFzSavu c s) := by
  unfold execFzSavu
  try dsimp only
  repeat' first | intro _ | with_reducible first | assumption | apply FzKeeps.ite | apply FzKeeps.ok | apply FzKeeps.trap | apply FzKeeps.stall | refine FzKeeps.getOk (by assumption) ?_ | refine FzKeeps.getTrap (by assumption) ?_ | refine FzKeeps.getStall (by assumption) ?_ | apply OutKeeps.done | apply OutKeeps.ite | apply Keeps.ite | apply fzDo_keeps | apply saveInstr_keeps | split | dsimp only

theorem execFzSys_keeps {s0 : State} {c : Nat} {s : State} (hs : Keeps s0 s) : OutKeeps s0 (execFzSys c s) := by
  unfold execFzSys
  try dsimp only
  repeat' first | intro _ | with_reducible first | assumption | apply FzKeeps.ite | apply FzKeeps.ok | apply FzKeeps.trap | apply FzKeeps.stall | apply OutKeeps.done | apply OutKeeps.ite | apply Keeps.ite | apply fzDo_keeps | split | dsimp only

theorem execFzWait_keeps {s0 : State} {c : Nat} {s : State} (hs : Keeps s0 s) : OutKeeps s0 (execFzWait c s) := by
  unfold execFzWait
  try dsimp only
  repeat' first | intro _ | with_reducible first | assumption | apply FzKeeps.ite | apply FzKeeps.ok | apply FzKeeps.trap | apply FzKeeps.stall | apply OutKeeps.done | apply OutKeeps.ite | apply Keeps.ite | apply fzDo_keeps | apply fzAdvance_keeps | apply State.setCore_keeps | split | dsimp only

theorem execFzWaitWake_keeps {s0 : State} {c : Nat} {s : State} (hs : Keeps s0 s) : OutKeeps s0 (execFzWaitWake c s) := by
  unfold execFzWaitWake
  try dsimp only
  repeat' first | intro _ | with_reducible first | assumption | apply OutKeeps.done | apply OutKeeps.ite | apply Keeps.ite | apply fzSettle_keeps | apply State.setCore_keeps | split | dsimp only

theorem execInstructionFetchFault_keeps {s0 : State} {c : Nat} {ecc : Nat} {s : State} (hs : Keeps s0 s) : OutKeeps s0 (execInstructionFetchFault c ecc s) := by
  unfold execInstructionFetchFault
  try dsimp only
  repeat' first | intro _ | with_reducible first | assumption | apply OutKeeps.done | apply OutKeeps.ite | apply Keeps.ite | apply orHeld_keeps | apply fzTrap_keeps | apply fzHalt_keeps | apply fzEcc_keeps | split | dsimp only

theorem execInterruptEntry_keeps {s0 : State} {c : Nat} {s : State} (hs : Keeps s0 s) : OutKeeps s0 (execInterruptEntry c s) := by
  unfold execInterruptEntry
  try dsimp only
  repeat' first | intro _ | with_reducible first | assumption | refine Keeps.snd (by assumption) ?_ | apply OutKeeps.done | apply OutKeeps.ite | apply Keeps.ite | apply State.setCore_keeps | apply State.fresh_keeps | apply State.peak_keeps | split | dsimp only

theorem execMpTimerExpiry_keeps {s0 : State} {s : State} (hs : Keeps s0 s) : OutKeeps s0 (execMpTimerExpiry s) := by
  unfold execMpTimerExpiry
  try dsimp only
  repeat' first | intro _ | with_reducible first | assumption | apply OutKeeps.done | apply OutKeeps.ite | apply Keeps.ite | apply State.interrupt_keeps | split | dsimp only

theorem execReplayServiceInsert_keeps {s0 : State} {m : Nat} {s : State} (hs : Keeps s0 s) : OutKeeps s0 (execReplayServiceInsert m s) := by
  unfold execReplayServiceInsert
  try dsimp only
  repeat' first | intro _ | with_reducible first | assumption | apply OutKeeps.done | apply OutKeeps.ite | apply Keeps.ite | apply State.setMotif_keeps | apply State.setCore_keeps | split | dsimp only

theorem execReservedEncoding_keeps {s0 : State} {c : Nat} {w : Nat} {s : State} (hs : Keeps s0 s) : OutKeeps s0 (execReservedEncoding c w s) := by
  unfold execReservedEncoding
  try dsimp only
  repeat' first | intro _ | with_reducible first | assumption | apply FzKeeps.ite | apply FzKeeps.ok | apply FzKeeps.trap | apply FzKeeps.stall | apply OutKeeps.done | apply OutKeeps.ite | apply Keeps.ite | apply fzDo_keeps | split | dsimp only

theorem writeShuttleRestart_keeps {s0 : State} {v : Nat} {s : State} (hs : Keeps s0 s) : Keeps s0 (writeShuttleRestart v s).state := by
  unfold writeShuttleRestart
  try dsimp only
  repeat' first | intro _ | with_reducible first | assumption | apply Keeps.iteR | apply Keeps.ok | apply Keeps.refuse | apply Keeps.ite | apply restartShuttle_keeps | split | dsimp only

theorem execShuttleRestartWrite_keeps {s0 : State} {path : Nat} {v : Nat} {s : State} (hs : Keeps s0 s) : OutKeeps s0 (execShuttleRestartWrite path v s) := by
  unfold execShuttleRestartWrite
  try dsimp only
  repeat' first | intro _ | with_reducible first | assumption | apply OutKeeps.done | apply OutKeeps.ite | apply Keeps.ite | apply Keeps.ok | apply Keeps.refuse | apply Keeps.iteR | apply sdoWrite_keeps | apply writeShuttleRestart_keeps | split | dsimp only

theorem writeSupervisorRestart_keeps {s0 : State} {h : Nat} {v : Bool} {s : State} (hs : Keeps s0 s) : Keeps s0 (writeSupervisorRestart h v s).state := by
  unfold writeSupervisorRestart
  try dsimp only
  repeat' first | intro _ | with_reducible first | assumption | apply Keeps.iteR | apply Keeps.ok | apply Keeps.refuse | apply Keeps.ite | apply restartSupervisor_keeps | split | dsimp only

theorem execSupervisorRestartWrite_keeps {s0 : State} {path : Nat} {h : Nat} {v : Bool} {s : State} (hs : Keeps s0 s) : OutKeeps s0 (execSupervisorRestartWrite path h v s) := by
  unfold execSupervisorRestartWrite
  try dsimp only
  repeat' first | intro _ | with_reducible first | assumption | apply OutKeeps.done | apply OutKeeps.ite | apply Keeps.ite | apply Keeps.ok | apply Keeps.refuse | apply Keeps.iteR | apply sdoWrite_keeps | apply writeSupervisorRestart_keeps | split | dsimp only

theorem execSupervisorTimerExpiry_keeps {s0 : State} {h : Nat} {s : State} (hs : Keeps s0 s) : OutKeeps s0 (execSupervisorTimerExpiry h s) := by
  unfold execSupervisorTimerExpiry
  try dsimp only
  repeat' first | intro _ | with_reducible first | assumption | apply OutKeeps.done | apply OutKeeps.ite | apply Keeps.ite | apply State.interrupt_keeps | split | dsimp only

theorem execWatchdogExpiry_keeps {s0 : State} {s : State} (hs : Keeps s0 s) : OutKeeps s0 (execWatchdogExpiry s) := by
  unfold execWatchdogExpiry
  try dsimp only
  repeat' first | intro _ | with_reducible first | assumption | apply OutKeeps.done | apply OutKeeps.ite | apply Keeps.ite | apply mpRestart_keeps | split | dsimp only

theorem execWatchdogWarning_keeps {s0 : State} {s : State} (hs : Keeps s0 s) : OutKeeps s0 (execWatchdogWarning s) := by
  unfold execWatchdogWarning
  try dsimp only
  repeat' first | intro _ | with_reducible first | assumption | apply OutKeeps.done | apply OutKeeps.ite | apply Keeps.ite | apply State.interrupt_keeps | apply State.setCore_keeps | split | dsimp only

theorem startMp_keeps {s0 : State} {entry : Nat} {s : State} (hs : Keeps s0 s) : Keeps s0 (startMp entry s) := by
  unfold startMp
  try dsimp only
  repeat' first | intro _ | with_reducible first | assumption | apply Keeps.ite | apply imageRegs_keeps | apply State.setCore_keeps | split | dsimp only

end Sys2Proof.Machine
end

