-- ==== Sys2Proof/Laws/Keeps/ImageWrite.lean ====
section
/-! SUPPORT. What the operations of Machine/ImageWrite.lean keep: the queue, monotone time, free values and life cycle, and the invariant. -/

namespace Sys2Proof.Machine
open Sys2Proof
set_option linter.all false
set_option Elab.async false

theorem classOn_keeps {s0 : State} {c : Nat} {s : State} (hs : Keeps s0 s) : Keeps s0 (classOn c s) := by
  unfold classOn
  try dsimp only
  repeat' first | intro _ | with_reducible first | assumption | apply Keeps.ite | apply State.setObj_keeps | split | dsimp only

theorem clearClasses_keeps {s0 : State} {planeB : Bool} {s : State} (hs : Keeps s0 s) : Keeps s0 (clearClasses planeB s) := by
  unfold clearClasses
  try dsimp only
  repeat' first | intro _ | with_reducible first | assumption | apply Keeps.ite | (rw [State.mk_marked]; first | apply Keeps.upd | apply Keeps.updTime | apply Keeps.updFree | apply Keeps.updOd | apply Keeps.updFuses) | split | dsimp only

theorem clearHalf_keeps {s0 : State} {c : Nat} {planeB : Bool} {s : State} (hs : Keeps s0 s) : Keeps s0 (clearHalf c planeB s) := by
  unfold clearHalf
  try dsimp only
  repeat' first | intro _ | with_reducible first | assumption | apply Keeps.ite | apply State.setCore_keeps | split | dsimp only

theorem clearIngress_keeps {s0 : State} {planeB : Bool} {s : State} (hs : Keeps s0 s) : Keeps s0 (clearIngress planeB s) := by
  unfold clearIngress
  try dsimp only
  repeat' first | intro _ | with_reducible first | assumption | apply Keeps.ite | (rw [State.mk_marked]; first | apply Keeps.upd | apply Keeps.updTime | apply Keeps.updFree | apply Keeps.updOd | apply Keeps.updFuses) | split | dsimp only

theorem declare_keeps {s0 : State} {planes : Nat} {stream : Nat} {changed : Bool} {s : State} (hs : Keeps s0 s) : Keeps s0 (declare planes stream changed s) := by
  unfold declare
  try dsimp only
  repeat' first | intro _ | with_reducible first | assumption | apply Keeps.ite | (rw [State.mk_marked]; first | apply Keeps.upd | apply Keeps.updTime | apply Keeps.updFree | apply Keeps.updOd | apply Keeps.updFuses) | split | dsimp only

theorem linkEnable_keeps {s0 : State} {l : Nat} {v : Nat} {s : State} (hs : Keeps s0 s) : Keeps s0 (linkEnable l v s) := by
  unfold linkEnable
  try dsimp only
  repeat' first | intro _ | with_reducible first | assumption | apply Keeps.ite | apply State.setObji_keeps | apply linkTrain_keeps | apply linkFall_keeps | apply setCond_keeps | split | dsimp only

theorem motifsShow_keeps {s0 : State} {s : State} (hs : Keeps s0 s) : Keeps s0 (motifsShow s) := by
  unfold motifsShow
  try dsimp only
  repeat' first | intro _ | with_reducible first | assumption | apply Keeps.ite | apply State.setObj_keeps | apply Keeps.foldl | split | dsimp only

theorem planeIds_keeps {s0 : State} {ms : List Nat} {full : Bool} {id : Nat} {s : State} (hs : Keeps s0 s) : Keeps s0 (planeIds ms full id s) := by
  unfold planeIds
  try dsimp only
  repeat' first | intro _ | with_reducible first | assumption | apply Keeps.ite | apply State.setObj_keeps | apply idleShow_keeps | split | dsimp only

theorem putBytes_keeps {s0 : State} {a : Nat} {bs : List Byte} {s : State} (hs : Keeps s0 s) : Keeps s0 (putBytes a bs s) := by
  unfold putBytes
  try dsimp only
  repeat' first | intro _ | with_reducible first | assumption | apply Keeps.ite | apply State.setHoop_keeps | apply State.setMotif_keeps | (rw [State.mk_marked]; first | apply Keeps.upd | apply Keeps.updTime | apply Keeps.updFree | apply Keeps.updOd | apply Keeps.updFuses) | split | dsimp only

theorem putClasses_keeps {s0 : State} {secs : List Sec} {planeB : Bool} {s : State} (hs : Keeps s0 s) : Keeps s0 (putClasses secs planeB s) := by
  unfold putClasses
  try dsimp only
  repeat' first | intro _ | with_reducible first | assumption | apply Keeps.ite | apply State.setCls_keeps | apply Keeps.foldl | (rw [State.mk_marked]; first | apply Keeps.upd | apply Keeps.updTime | apply Keeps.updFree | apply Keeps.updOd | apply Keeps.updFuses) | split | dsimp only

theorem putHoop_keeps {s0 : State} {s : State} {x2 : Sec} (hs : Keeps s0 s) : Keeps s0 (putHoop s x2) := by
  unfold putHoop
  try dsimp only
  repeat' first | intro _ | with_reducible first | assumption | apply Keeps.ite | apply startHoopBanks_keeps | apply setHoopClock_keeps | apply State.setSqueue_keeps | apply State.setObj_keeps | apply Keeps.foldl | split | dsimp only

theorem putIngress_keeps {s0 : State} {planeB : Bool} {s : State} {r : Nat × Nat × List Word} (hs : Keeps s0 s) : Keeps s0 (putIngress planeB s r) := by
  unfold putIngress
  try dsimp only
  repeat' first | intro _ | with_reducible first | assumption | apply Keeps.ite | apply State.setTimer_keeps | (rw [State.mk_marked]; first | apply Keeps.upd | apply Keeps.updTime | apply Keeps.updFree | apply Keeps.updOd | apply Keeps.updFuses) | split | dsimp only

theorem putMemory_keeps {s0 : State} {x1 : MemSec} {s : State} (hs : Keeps s0 s) : Keeps s0 (putMemory x1 s) := by
  unfold putMemory
  try dsimp only
  repeat' first | intro _ | with_reducible first | assumption | apply Keeps.ite | apply State.setObj_keeps | apply poolShow_keeps | apply Keeps.foldl | (rw [State.mk_marked]; first | apply Keeps.upd | apply Keeps.updTime | apply Keeps.updFree | apply Keeps.updOd | apply Keeps.updFuses) | split | dsimp only

theorem putPort_keeps {s0 : State} {s : State} {r : Nat × Nat × List Word} (hs : Keeps s0 s) : Keeps s0 (putPort s r) := by
  unfold putPort
  try dsimp only
  repeat' first | intro _ | with_reducible first | assumption | apply Keeps.ite | apply linkEnable_keeps | apply State.setObj_keeps | apply State.setObji_keeps | apply fcUpdate_keeps | apply Keeps.foldl | (rw [State.mk_marked]; first | apply Keeps.upd | apply Keeps.updTime | apply Keeps.updFree | apply Keeps.updOd | apply Keeps.updFuses) | split | dsimp only

theorem putPreloads_keeps {s0 : State} {a : Nat} {a2 : Nat} {a3 : List Byte} {a4 : State} (ha4 : Keeps s0 a4) : Keeps s0 (putPreloads a a2 a3 a4) := by
  induction a generalizing a2 a3 a4 with
  | zero => unfold putPreloads; exact ha4
  | succ n ih =>
    cases a3 with
    | nil => unfold putPreloads; exact ha4
    | cons x xs => unfold putPreloads; exact ih (putBytes_keeps ha4)

theorem putPreload_keeps {s0 : State} {s : State} {r : Nat × List Byte} (hs : Keeps s0 s) : Keeps s0 (putPreload s r) := by
  unfold putPreload
  try dsimp only
  repeat' first | intro _ | with_reducible first | assumption | apply Keeps.ite | apply putPreloads_keeps | split | dsimp only

theorem putProgram_keeps {s0 : State} {c : Nat} {planeB : Bool} {p : List Byte} {s : State} (hs : Keeps s0 s) : Keeps s0 (putProgram c planeB p s) := by
  unfold putProgram
  try dsimp only
  repeat' first | intro _ | with_reducible first | assumption | apply Keeps.ite | apply clearHalf_keeps | apply imageRegs_keeps | apply State.setCore_keeps | split | dsimp only

theorem putPrograms_keeps {s0 : State} {h : Header} {secs : List Sec} {planeB : Bool} {s : State} (hs : Keeps s0 s) : Keeps s0 (putPrograms h secs planeB s) := by
  unfold putPrograms
  try dsimp only
  repeat' first | intro _ | with_reducible first | assumption | apply Keeps.ite | apply putProgram_keeps | apply Keeps.foldl | split | dsimp only

theorem putRoutes_keeps {s0 : State} {secs : List Sec} {planes : Nat} {running : Bool} {s : State} (hs : Keeps s0 s) : Keeps s0 (putRoutes secs planes running s) := by
  unfold putRoutes
  try dsimp only
  repeat' first | intro _ | with_reducible first | assumption | apply Keeps.ite | apply declare_keeps | apply startInvalidate_keeps | apply masterWrite_keeps | apply Keeps.foldl | split | dsimp only

theorem putShared_keeps {s0 : State} {s : State} {x2 : Sec} (hs : Keeps s0 s) : Keeps s0 (putShared s x2) := by
  unfold putShared
  try dsimp only
  repeat' first | intro _ | with_reducible first | assumption | apply Keeps.ite | apply State.setObj_keeps | apply startBanks_keeps | split | dsimp only

theorem writeDevice_keeps {s0 : State} {bs : List Byte} {s : State} (hs : Keeps s0 s) : Keeps s0 (writeDevice bs s) := by
  unfold writeDevice
  try dsimp only
  repeat' first | intro _ | with_reducible first | assumption | apply Keeps.ite | apply setHoopClock_keeps | apply putHoop_keeps | apply putShared_keeps | apply putMemory_keeps | apply State.setMotif_keeps | apply putPrograms_keeps | apply putClasses_keeps | apply clearClasses_keeps | apply classOn_keeps | apply putRoutes_keeps | apply putPort_keeps | apply putIngress_keeps | apply clearIngress_keeps | apply State.setObj_keeps | apply putPreload_keeps | apply sparesShow_keeps | apply motifsShow_keeps | apply Keeps.foldl | split | dsimp only

theorem writeRegion_keeps {s0 : State} {bs : List Byte} {s : State} (hs : Keeps s0 s) : Keeps s0 (writeRegion bs s) := by
  unfold writeRegion
  try dsimp only
  repeat' first | intro _ | with_reducible first | assumption | apply Keeps.ite | apply State.setCore_keeps | apply State.setMotif_keeps | apply putHoop_keeps | apply putShared_keeps | apply clearHalf_keeps | apply putPrograms_keeps | apply putClasses_keeps | apply putRoutes_keeps | apply putPort_keeps | apply putIngress_keeps | apply planeIds_keeps | apply sparesShow_keeps | apply motifsShow_keeps | apply putPreload_keeps | apply Keeps.foldl | split | dsimp only

theorem writeShadow_keeps {s0 : State} {bs : List Byte} {s : State} (hs : Keeps s0 s) : Keeps s0 (writeShadow bs s) := by
  unfold writeShadow
  try dsimp only
  repeat' first | intro _ | with_reducible first | assumption | apply Keeps.ite | apply clearHalf_keeps | apply State.setMotif_keeps | apply putPrograms_keeps | apply putClasses_keeps | apply clearClasses_keeps | apply putRoutes_keeps | apply putIngress_keeps | apply clearIngress_keeps | apply sparesShow_keeps | apply State.setObj_keeps | apply putPreload_keeps | apply Keeps.foldl | split | dsimp only

end Sys2Proof.Machine
end

