-- ==== Sys2Proof/Laws/Keeps/LoadOps.lean ====
section
/-! SUPPORT. What the operations of Machine/LoadOps.lean keep: the queue, monotone time, free values and life cycle, and the invariant. -/

namespace Sys2Proof.Machine
open Sys2Proof
set_option linter.all false
set_option Elab.async false

theorem State.setLoad_keeps {s0 : State} {s : State} {l : Load} (hs : Keeps s0 s) : Keeps s0 (State.setLoad s l) := by
  unfold State.setLoad
  try dsimp only
  repeat' first | intro _ | with_reducible first | assumption | apply Keeps.ite | (rw [State.mk_marked]; first | apply Keeps.upd | apply Keeps.updTime | apply Keeps.updFree | apply Keeps.updOd | apply Keeps.updFuses) | split | dsimp only

theorem abortLoad_keeps {s0 : State} {s : State} (hs : Keeps s0 s) : Keeps s0 (abortLoad s) := by
  unfold abortLoad
  try dsimp only
  repeat' first | intro _ | with_reducible first | assumption | apply Keeps.ite | apply State.setObj_keeps | apply State.setLoad_keeps | split | dsimp only

theorem beginLoad_keeps {s0 : State} {kind : Nat} {slot : Nat} {source : Nat} {total : Nat} {s : State} (hs : Keeps s0 s) : Keeps s0 (beginLoad kind slot source total s) := by
  unfold beginLoad
  try dsimp only
  repeat' first | intro _ | with_reducible first | assumption | apply Keeps.ite | apply State.setLoad_keeps | apply State.setObj_keeps | split | dsimp only

theorem classesOn_keeps {s0 : State} {s : State} (hs : Keeps s0 s) : Keeps s0 (classesOn s) := by
  unfold classesOn
  try dsimp only
  repeat' first | intro _ | with_reducible first | assumption | apply Keeps.ite | apply State.setObj_keeps | apply classOn_keeps | apply Keeps.foldl | split | dsimp only

theorem coCommit_keeps {s0 : State} {s : State} (hs : Keeps s0 s) : Keeps s0 (coCommit s) := by
  unfold coCommit
  try dsimp only
  repeat' first | intro _ | with_reducible first | assumption | apply Keeps.ite | apply coState_keeps | apply coAbandon_keeps | split | dsimp only

theorem loadRecord_keeps {s0 : State} {code : Nat} {kind : Nat} {personality : Nat} {s : State} (hs : Keeps s0 s) : Keeps s0 (loadRecord code kind personality s) := by
  unfold loadRecord
  try dsimp only
  repeat' first | intro _ | with_reducible first | assumption | apply Keeps.ite | apply sample_keeps | split | dsimp only

theorem endLoad_keeps {s0 : State} {r : Option Refuse} {s : State} (hs : Keeps s0 s) : Keeps s0 (endLoad r s) := by
  unfold endLoad
  try dsimp only
  repeat' first | intro _ | with_reducible first | assumption | apply Keeps.ite | apply State.setLoad_keeps | apply loadRecord_keeps | apply State.bump_keeps | apply State.setObj_keeps | split | dsimp only

theorem writeCancel_keeps {s0 : State} {v : Nat} {s : State} (hs : Keeps s0 s) : Keeps s0 (writeCancel v s).state := by
  unfold writeCancel
  try dsimp only
  repeat' first | intro _ | with_reducible first | assumption | apply Keeps.iteR | apply Keeps.ok | apply Keeps.refuse | apply Keeps.ite | apply coAbandon_keeps | apply State.setObj_keeps | split | dsimp only

theorem execCancelWrite_keeps {s0 : State} {path : Nat} {v : Nat} {s : State} (hs : Keeps s0 s) : OutKeeps s0 (execCancelWrite path v s) := by
  unfold execCancelWrite
  try dsimp only
  repeat' first | intro _ | with_reducible first | assumption | apply OutKeeps.done | apply OutKeeps.ite | apply Keeps.ite | apply Keeps.ok | apply Keeps.refuse | apply Keeps.iteR | apply sdoWrite_keeps | apply writeCancel_keeps | split | dsimp only

theorem execChangeoverArm_keeps {s0 : State} {s : State} (hs : Keeps s0 s) : OutKeeps s0 (execChangeoverArm s) := by
  unfold execChangeoverArm
  try dsimp only
  repeat' first | intro _ | with_reducible first | assumption | apply OutKeeps.done | apply OutKeeps.ite | apply Keeps.ite | apply coState_keeps | split | dsimp only

theorem wakeShuttle_keeps {s0 : State} {m : Nat} {s : State} (hs : Keeps s0 s) : Keeps s0 (wakeShuttle m s) := by
  unfold wakeShuttle
  try dsimp only
  repeat' first | intro _ | with_reducible first | assumption | apply Keeps.ite | apply fzShowState_keeps | apply State.setCore_keeps | split | dsimp only

theorem execChangeoverInstant_keeps {s0 : State} {s : State} (hs : Keeps s0 s) : OutKeeps s0 (execChangeoverInstant s) := by
  unfold execChangeoverInstant
  try dsimp only
  repeat' first | intro _ | with_reducible first | assumption | apply OutKeeps.done | apply OutKeeps.ite | apply Keeps.ite | apply State.setObj_keeps | apply startShuttleHalf_keeps | apply wakeShuttle_keeps | apply State.interrupt_keeps | apply motifsShow_keeps | apply classesOn_keeps | apply coState_keeps | apply Keeps.foldl | (rw [State.mk_marked]; first | apply Keeps.upd | apply Keeps.updTime | apply Keeps.updFree | apply Keeps.updOd | apply Keeps.updFuses) | split | dsimp only

theorem writeCoId_keeps {s0 : State} {v : Nat} {s : State} (hs : Keeps s0 s) : Keeps s0 (writeCoId v s).state := by
  unfold writeCoId
  try dsimp only
  repeat' first | intro _ | with_reducible first | assumption | apply Keeps.iteR | apply Keeps.ok | apply Keeps.refuse | apply Keeps.ite | apply State.setObj_keeps | split | dsimp only

theorem execCoIdWrite_keeps {s0 : State} {path : Nat} {v : Nat} {s : State} (hs : Keeps s0 s) : OutKeeps s0 (execCoIdWrite path v s) := by
  unfold execCoIdWrite
  try dsimp only
  repeat' first | intro _ | with_reducible first | assumption | apply OutKeeps.done | apply OutKeeps.ite | apply Keeps.ite | apply Keeps.ok | apply Keeps.refuse | apply Keeps.iteR | apply sdoWrite_keeps | apply writeCoId_keeps | split | dsimp only

theorem writeCommit_keeps {s0 : State} {path : Nat} {v : Nat} {s : State} (hs : Keeps s0 s) : Keeps s0 (writeCommit path v s).state := by
  unfold writeCommit
  try dsimp only
  repeat' first | intro _ | with_reducible first | assumption | apply Keeps.iteR | apply Keeps.ok | apply Keeps.refuse | apply Keeps.ite | apply State.setObj_keeps | apply coCommit_keeps | split | dsimp only

theorem execCommitWrite_keeps {s0 : State} {path : Nat} {v : Nat} {s : State} (hs : Keeps s0 s) : OutKeeps s0 (execCommitWrite path v s) := by
  unfold execCommitWrite
  try dsimp only
  repeat' first | intro _ | with_reducible first | assumption | apply OutKeeps.done | apply OutKeeps.ite | apply Keeps.ite | apply Keeps.ok | apply Keeps.refuse | apply Keeps.iteR | apply sdoWrite_keeps | apply writeCommit_keeps | split | dsimp only

theorem loadWhole_keeps {s0 : State} {s : State} (hs : Keeps s0 s) : Keeps s0 (loadWhole s) := by
  unfold loadWhole
  try dsimp only
  repeat' first | intro _ | with_reducible first | assumption | apply Keeps.ite | apply State.setObj_keeps | apply State.setLoad_keeps | split | dsimp only

theorem loadBytes_keeps {s0 : State} {bs : List Byte} {s : State} (hs : Keeps s0 s) : Keeps s0 (loadBytes bs s) := by
  unfold loadBytes
  try dsimp only
  repeat' first | intro _ | with_reducible first | assumption | apply Keeps.ite | apply State.setObj_keeps | apply State.setLoad_keeps | split | dsimp only

theorem loadRecipe_keeps {s0 : State} {kind : Nat} {slot : Nat} {s : State} (hs : Keeps s0 s) : Keeps s0 (loadRecipe kind slot s) := by
  unfold loadRecipe
  try dsimp only
  repeat' first | intro _ | with_reducible first | assumption | apply Keeps.ite | apply loadWhole_keeps | apply loadBytes_keeps | apply beginLoad_keeps | split | dsimp only

theorem writeControl_keeps {s0 : State} {v : Nat} {s : State} (hs : Keeps s0 s) : Keeps s0 (writeControl v s).state := by
  unfold writeControl
  try dsimp only
  repeat' first | intro _ | with_reducible first | assumption | apply Keeps.iteR | apply Keeps.ok | apply Keeps.refuse | apply Keeps.ite | apply coState_keeps | apply State.setObj_keeps | apply loadRecipe_keeps | split | dsimp only

theorem execControlAcknowledge_keeps {s0 : State} {path : Nat} {s : State} (hs : Keeps s0 s) : OutKeeps s0 (execControlAcknowledge path s) := by
  unfold execControlAcknowledge
  try dsimp only
  repeat' first | intro _ | with_reducible first | assumption | apply OutKeeps.done | apply OutKeeps.ite | apply Keeps.ite | apply Keeps.ok | apply Keeps.refuse | apply Keeps.iteR | apply sdoWrite_keeps | apply writeControl_keeps | split | dsimp only

theorem execControlStartLoad_keeps {s0 : State} {path : Nat} {s : State} (hs : Keeps s0 s) : OutKeeps s0 (execControlStartLoad path s) := by
  unfold execControlStartLoad
  try dsimp only
  repeat' first | intro _ | with_reducible first | assumption | apply OutKeeps.done | apply OutKeeps.ite | apply Keeps.ite | apply Keeps.ok | apply Keeps.refuse | apply Keeps.iteR | apply sdoWrite_keeps | apply writeControl_keeps | split | dsimp only

theorem retireRoutes_keeps {s0 : State} {oldB : Bool} {s : State} (hs : Keeps s0 s) : Keeps s0 (retireRoutes oldB s) := by
  unfold retireRoutes
  try dsimp only
  repeat' first | intro _ | with_reducible first | assumption | apply Keeps.ite | apply startInvalidate_keeps | apply Keeps.foldl | (rw [State.mk_marked]; first | apply Keeps.upd | apply Keeps.updTime | apply Keeps.updFree | apply Keeps.updOd | apply Keeps.updFuses) | split | dsimp only

theorem retireSupervisor_keeps {s0 : State} {c : Nat} {oldB : Bool} {s : State} (hs : Keeps s0 s) : Keeps s0 (retireSupervisor c oldB s) := by
  unfold retireSupervisor
  try dsimp only
  repeat' first | intro _ | with_reducible first | assumption | apply Keeps.ite | apply State.setCore_keeps | split | dsimp only

theorem retireHalf_keeps {s0 : State} {c : Nat} {oldB : Bool} {s : State} (hs : Keeps s0 s) : Keeps s0 (retireHalf c oldB s) := by
  unfold retireHalf
  try dsimp only
  repeat' first | intro _ | with_reducible first | assumption | apply Keeps.ite | apply State.setCore_keeps | apply fzShowState_keeps | split | dsimp only

theorem execOldPlaneRetire_keeps {s0 : State} {s : State} (hs : Keeps s0 s) : OutKeeps s0 (execOldPlaneRetire s) := by
  unfold execOldPlaneRetire
  try dsimp only
  repeat' first | intro _ | with_reducible first | assumption | apply OutKeeps.done | apply OutKeeps.ite | apply Keeps.ite | apply clearClasses_keeps | apply retireRoutes_keeps | apply retireSupervisor_keeps | apply retireHalf_keeps | apply State.setObj_keeps | apply State.bump_keeps | apply coState_keeps | apply Keeps.foldl | split | dsimp only

theorem execPrepareDeadline_keeps {s0 : State} {s : State} (hs : Keeps s0 s) : OutKeeps s0 (execPrepareDeadline s) := by
  unfold execPrepareDeadline
  try dsimp only
  repeat' first | intro _ | with_reducible first | assumption | apply OutKeeps.done | apply OutKeeps.ite | apply Keeps.ite | apply coAbandon_keeps | split | dsimp only

theorem execRegionDrained_keeps {s0 : State} {s : State} (hs : Keeps s0 s) : OutKeeps s0 (execRegionDrained s) := by
  unfold execRegionDrained
  try dsimp only
  repeat' first | intro _ | with_reducible first | assumption | apply OutKeeps.done | apply OutKeeps.ite | apply Keeps.ite | apply State.setLoad_keeps | apply writeRegion_keeps | split | dsimp only

theorem execRegionLeaveReset_keeps {s0 : State} {s : State} (hs : Keeps s0 s) : OutKeeps s0 (execRegionLeaveReset s) := by
  unfold execRegionLeaveReset
  try dsimp only
  repeat' first | intro _ | with_reducible first | assumption | apply OutKeeps.done | apply OutKeeps.ite | apply Keeps.ite | apply startCore_keeps | apply State.setMotif_keeps | apply classOn_keeps | apply State.setLoad_keeps | apply endLoad_keeps | apply Keeps.foldl | split | dsimp only

theorem writeTc_keeps {s0 : State} {v : Nat} {s : State} (hs : Keeps s0 s) : Keeps s0 (writeTc v s).state := by
  unfold writeTc
  try dsimp only
  repeat' first | intro _ | with_reducible first | assumption | apply Keeps.iteR | apply Keeps.ok | apply Keeps.refuse | apply Keeps.ite | apply State.setObj_keeps | split | dsimp only

theorem execTCWrite_keeps {s0 : State} {path : Nat} {v : Nat} {s : State} (hs : Keeps s0 s) : OutKeeps s0 (execTCWrite path v s) := by
  unfold execTCWrite
  try dsimp only
  repeat' first | intro _ | with_reducible first | assumption | apply OutKeeps.done | apply OutKeeps.ite | apply Keeps.ite | apply Keeps.ok | apply Keeps.refuse | apply Keeps.iteR | apply sdoWrite_keeps | apply writeTc_keeps | split | dsimp only

theorem regionOffline_keeps {s0 : State} {img : List Byte} {s : State} (hs : Keeps s0 s) : Keeps s0 (regionOffline img s) := by
  unfold regionOffline
  try dsimp only
  repeat' first | intro _ | with_reducible first | assumption | apply Keeps.ite | apply State.setObj_keeps | apply State.setLoad_keeps | apply Keeps.foldl | split | dsimp only

theorem storeRecipe_keeps {s0 : State} {slot : Nat} {img : List Byte} {s : State} (hs : Keeps s0 s) : Keeps s0 (storeRecipe slot img s) := by
  unfold storeRecipe
  try dsimp only
  repeat' first | intro _ | with_reducible first | assumption | apply Keeps.ite | apply flashQueue_keeps | split | dsimp only

theorem voteArrives_keeps {s0 : State} {coId : Nat} {state : Nat} {s : State} (hs : Keeps s0 s) : Keeps s0 (voteArrives coId state s) := by
  unfold voteArrives
  try dsimp only
  repeat' first | intro _ | with_reducible first | assumption | apply Keeps.ite | apply State.setObj_keeps | apply coAbandon_keeps | (rw [State.mk_marked]; first | apply Keeps.upd | apply Keeps.updTime | apply Keeps.updFree | apply Keeps.updOd | apply Keeps.updFuses) | split | dsimp only

end Sys2Proof.Machine
end

