-- ==== Sys2Proof/Laws/Keeps/PowerOps.lean ====
section
/-! SUPPORT. What the operations of Machine/PowerOps.lean keep: the queue, monotone time, free values and life cycle, and the invariant. -/

namespace Sys2Proof.Machine
open Sys2Proof
set_option linter.all false
set_option Elab.async false

theorem setDomain_keeps {s0 : State} {d : Nat} {v : Bool} {s : State} (hs : Keeps s0 s) : Keeps s0 (setDomain d v s) := by
  unfold setDomain
  try dsimp only
  repeat' first | intro _ | with_reducible first | assumption | apply Keeps.ite | (rw [State.mk_marked]; first | apply Keeps.upd | apply Keeps.updTime | apply Keeps.updFree | apply Keeps.updOd | apply Keeps.updFuses) | exact Nat.le_refl _ | exact id | exact Nat.le_add_right _ _ | (exact mset_wf _ _ _ _ (by assumption)) | exact Nat.mod_lt _ (by decide) | exact ⟨Nat.le_refl _, by assumption⟩ | split | dsimp only

theorem halfOn_keeps {s0 : State} {d : Nat} {s : State} (hs : Keeps s0 s) : Keeps s0 (halfOn d s) := by
  unfold halfOn
  try dsimp only
  repeat' first | intro _ | with_reducible first | assumption | apply Keeps.ite | apply State.setMotif_keeps | apply State.setObj_keeps | apply Keeps.foldl | split | dsimp only

theorem halfOff_keeps {s0 : State} {d : Nat} {s : State} (hs : Keeps s0 s) : Keeps s0 (halfOff d s) := by
  unfold halfOff
  try dsimp only
  repeat' first | intro _ | with_reducible first | assumption | apply Keeps.ite | apply State.setMotif_keeps | apply fzShowState_keeps | apply State.setCore_keeps | apply State.setObj_keeps | apply idleShow_keeps | apply motifsShow_keeps | apply Keeps.foldl | (rw [State.mk_marked]; first | apply Keeps.upd | apply Keeps.updTime | apply Keeps.updFree | apply Keeps.updOd | apply Keeps.updFuses) | exact Nat.le_refl _ | exact id | exact Nat.le_add_right _ _ | (exact mset_wf _ _ _ _ (by assumption)) | exact Nat.mod_lt _ (by decide) | exact ⟨Nat.le_refl _, by assumption⟩ | split | dsimp only

theorem domainReach_keeps {s0 : State} {d : Nat} {on : Bool} {s : State} (hs : Keeps s0 s) : Keeps s0 (domainReach d on s) := by
  unfold domainReach
  try dsimp only
  repeat' first | intro _ | with_reducible first | assumption | apply Keeps.ite | apply State.bump_keeps | apply setDomain_keeps | apply halfOn_keeps | apply halfOff_keeps | apply State.setObji_keeps | apply linkTrain_keeps | apply linkFall_keeps | apply Keeps.foldl | split | dsimp only

theorem writeDomain_keeps {s0 : State} {path : Nat} {v : Nat} {s : State} (hs : Keeps s0 s) : SumKeeps s0 (writeDomain path v s) := by
  unfold writeDomain
  try dsimp only
  repeat' first | intro _ | with_reducible first | assumption | refine SumKeeps.get (by assumption) ?_ | apply SumKeeps.inl | apply SumKeeps.inr | apply SumKeeps.ite | apply Keeps.ite | (rw [State.mk_marked]; first | apply Keeps.upd | apply Keeps.updTime | apply Keeps.updFree | apply Keeps.updOd | apply Keeps.updFuses) | exact Nat.le_refl _ | exact id | exact Nat.le_add_right _ _ | (exact mset_wf _ _ _ _ (by assumption)) | exact Nat.mod_lt _ (by decide) | exact ⟨Nat.le_refl _, by assumption⟩ | split | dsimp only

theorem execDomainOffWrite_keeps {s0 : State} {path : Nat} {s : State} (hs : Keeps s0 s) : OutKeeps s0 (execDomainOffWrite path s) := by
  unfold execDomainOffWrite
  try dsimp only
  repeat' first | intro _ | with_reducible first | assumption | refine SumKeeps.get (by assumption) ?_ | apply OutKeeps.done | apply OutKeeps.ite | apply Keeps.ite | apply sdoAction_keeps | apply writeDomain_keeps | split | dsimp only

theorem execDomainOnWrite_keeps {s0 : State} {path : Nat} {s : State} (hs : Keeps s0 s) : OutKeeps s0 (execDomainOnWrite path s) := by
  unfold execDomainOnWrite
  try dsimp only
  repeat' first | intro _ | with_reducible first | assumption | refine SumKeeps.get (by assumption) ?_ | apply OutKeeps.done | apply OutKeeps.ite | apply Keeps.ite | apply sdoAction_keeps | apply writeDomain_keeps | split | dsimp only

theorem measureDrives_keeps {s0 : State} {ds : List DriveSmart} {s : State} (hs : Keeps s0 s) : Keeps s0 (measureDrives ds s) := by
  unfold measureDrives
  try dsimp only
  repeat' first | intro _ | with_reducible first | assumption | apply Keeps.ite | apply State.setObji_keeps | apply setCond_keeps | apply Keeps.foldl | split | dsimp only

theorem hystCond_keeps {s0 : State} {a : Nat} {above : Bool} {below : Bool} {s : State} (hs : Keeps s0 s) : Keeps s0 (hystCond a above below s) := by
  unfold hystCond
  try dsimp only
  repeat' first | intro _ | with_reducible first | assumption | apply Keeps.ite | apply setCond_keeps | split | dsimp only

theorem measureTemps_keeps {s0 : State} {ts : List Int} {s : State} (hs : Keeps s0 s) : Keeps s0 (measureTemps ts s) := by
  unfold measureTemps
  try dsimp only
  repeat' first | intro _ | with_reducible first | assumption | apply Keeps.ite | apply State.setObj_keeps | apply hystCond_keeps | apply setCond_keeps | apply raise_keeps | apply Keeps.foldl | (rw [State.mk_marked]; first | apply Keeps.upd | apply Keeps.updTime | apply Keeps.updFree | apply Keeps.updOd | apply Keeps.updFuses) | exact Nat.le_refl _ | exact id | exact Nat.le_add_right _ _ | (exact mset_wf _ _ _ _ (by assumption)) | exact Nat.mod_lt _ (by decide) | exact ⟨Nat.le_refl _, by assumption⟩ | split | dsimp only

theorem measureSupplies_keeps {s0 : State} {q : Measures} {s : State} (hs : Keeps s0 s) : Keeps s0 (measureSupplies q s) := by
  unfold measureSupplies
  try dsimp only
  repeat' first | intro _ | with_reducible first | assumption | refine Keeps.snd (by assumption) ?_ | apply Keeps.ite | apply State.setObj_keeps | apply setCond_keeps | apply State.fresh_keeps | apply Keeps.foldl | apply Keeps.foldlP | split | dsimp only

theorem measureClocks_keeps {s0 : State} {fs : List Nat} {s : State} (hs : Keeps s0 s) : Keeps s0 (measureClocks fs s) := by
  unfold measureClocks
  try dsimp only
  repeat' first | intro _ | with_reducible first | assumption | apply Keeps.ite | apply State.setObj_keeps | apply Keeps.foldl | (rw [State.mk_marked]; first | apply Keeps.upd | apply Keeps.updTime | apply Keeps.updFree | apply Keeps.updOd | apply Keeps.updFuses) | exact Nat.le_refl _ | exact id | exact Nat.le_add_right _ _ | (exact mset_wf _ _ _ _ (by assumption)) | exact Nat.mod_lt _ (by decide) | exact ⟨Nat.le_refl _, by assumption⟩ | split | dsimp only

theorem measure_keeps {s0 : State} {q : Measures} {s : State} (hs : Keeps s0 s) : Keeps s0 (measure q s) := by
  unfold measure
  try dsimp only
  repeat' first | intro _ | with_reducible first | assumption | apply Keeps.ite | apply setCond_keeps | apply measureDrives_keeps | apply measureTemps_keeps | apply measureSupplies_keeps | apply measureClocks_keeps | split | dsimp only

theorem execEpochBoundary_keeps {s0 : State} {q : Measures} {s : State} (hs : Keeps s0 s) : OutKeeps s0 (execEpochBoundary q s) := by
  unfold execEpochBoundary
  try dsimp only
  repeat' first | intro _ | with_reducible first | assumption | apply OutKeeps.done | apply OutKeeps.ite | apply Keeps.ite | apply measure_keeps | apply housekeeping_keeps | apply staleSweep_keeps | split | dsimp only

theorem execReferenceClockStop_keeps {s0 : State} {s : State} (hs : Keeps s0 s) : OutKeeps s0 (execReferenceClockStop s) := by
  unfold execReferenceClockStop
  try dsimp only
  repeat' first | intro _ | with_reducible first | assumption | apply OutKeeps.done | apply OutKeeps.ite | apply Keeps.ite | apply setCond_keeps | split | dsimp only

theorem pcieDown_keeps {s0 : State} {d : Nat} {s : State} (hs : Keeps s0 s) : Keeps s0 (pcieDown d s) := by
  unfold pcieDown
  try dsimp only
  repeat' first | intro _ | with_reducible first | assumption | apply Keeps.ite | apply driveLost_keeps | apply State.setObji_keeps | split | dsimp only

end Sys2Proof.Machine
end

