-- ==== Sys2Proof/Laws/Keeps/Island.lean ====
section
/-! SUPPORT. What the operations of Machine/Island.lean keep: the queue, monotone time, free values and life cycle, and the invariant. -/

namespace Sys2Proof.Machine
open Sys2Proof
set_option linter.all false
set_option Elab.async false

theorem State.setIsland_keeps {s0 : State} {s : State} {x2 : Island} (hs : Keeps s0 s) : Keeps s0 (State.setIsland s x2) := by
  unfold State.setIsland
  try dsimp only
  repeat' first | intro _ | with_reducible first | assumption | apply Keeps.ite | (rw [State.mk_marked]; first | apply Keeps.upd | apply Keeps.updTime | apply Keeps.updFree | apply Keeps.updOd | apply Keeps.updFuses) | split | dsimp only

theorem loadIsland_keeps {s0 : State} {s : State} (hs : Keeps s0 s) : Keeps s0 (loadIsland s) := by
  unfold loadIsland
  try dsimp only
  repeat' first | intro _ | with_reducible first | assumption | apply Keeps.ite | apply State.setIsland_keeps | split | dsimp only

theorem secStore_keeps {s0 : State} {typ : Nat} {t : Nat} {payload : List Byte} {s : State} (hs : Keeps s0 s) : Keeps s0 (secStore typ t payload s) := by
  unfold secStore
  try dsimp only
  repeat' first | intro _ | with_reducible first | assumption | apply Keeps.ite | apply State.setIsland_keeps | split | dsimp only

theorem secOffer_keeps {s0 : State} {typ : Nat} {payload : List Byte} {s : State} (hs : Keeps s0 s) : Keeps s0 (secOffer typ payload s) := by
  unfold secOffer
  try dsimp only
  repeat' first | intro _ | with_reducible first | assumption | apply Keeps.ite | apply secStore_keeps | apply State.setIsland_keeps | split | dsimp only

theorem secRelease_keeps {s0 : State} {n : Nat} {s : State} (hs : Keeps s0 s) : OptKeeps s0 (secRelease n s) := by
  unfold secRelease
  try dsimp only
  repeat' first | intro _ | with_reducible first | assumption | refine OptKeeps.get (by assumption) ?_ | apply OptKeeps.none | apply OptKeeps.some | apply OptKeeps.ite | apply Keeps.ite | apply State.setIsland_keeps | apply secStore_keeps | split | dsimp only

theorem wipeIsland_keeps {s0 : State} {s : State} (hs : Keeps s0 s) : Keeps s0 (wipeIsland s) := by
  unfold wipeIsland
  try dsimp only
  repeat' first | intro _ | with_reducible first | assumption | apply Keeps.ite | apply State.setIsland_keeps | split | dsimp only

end Sys2Proof.Machine
end

