-- ==== Sys2Proof/Laws/Keeps/Update.lean ====
section
/-! SUPPORT. What the operations of Machine/Update.lean keep: the queue, monotone time, free values and life cycle, and the invariant. -/

namespace Sys2Proof.Machine
open Sys2Proof
set_option linter.all false
set_option Elab.async false

theorem State.setUpdate_keeps {s0 : State} {s : State} {u : Update} (hs : Keeps s0 s) : Keeps s0 (State.setUpdate s u) := by
  unfold State.setUpdate
  try dsimp only
  repeat' first | intro _ | with_reducible first | assumption | apply Keeps.ite | (rw [State.mk_marked]; first | apply Keeps.upd | apply Keeps.updTime | apply Keeps.updFree | apply Keeps.updOd | apply Keeps.updFuses) | split | dsimp only

theorem fwSlotAlarm_keeps {s0 : State} {s : State} (hs : Keeps s0 s) : Keeps s0 (fwSlotAlarm s) := by
  unfold fwSlotAlarm
  try dsimp only
  repeat' first | intro _ | with_reducible first | assumption | apply Keeps.ite | apply setCond_keeps | split | dsimp only

theorem fwEnter_keeps {s0 : State} {v : Nat} {s : State} (hs : Keeps s0 s) : Keeps s0 (fwEnter v s) := by
  unfold fwEnter
  try dsimp only
  repeat' first | intro _ | with_reducible first | assumption | apply Keeps.ite | apply fwSlotAlarm_keeps | apply State.setObj_keeps | split | dsimp only

theorem fwRecord_keeps {s0 : State} {event : Nat} {version : Nat} {s : State} (hs : Keeps s0 s) : Keeps s0 (fwRecord event version s) := by
  unfold fwRecord
  try dsimp only
  repeat' first | intro _ | with_reducible first | assumption | apply Keeps.ite | apply sample_keeps | split | dsimp only

theorem writeActivateAt_keeps {s0 : State} {v : Nat} {s : State} (hs : Keeps s0 s) : Keeps s0 (writeActivateAt v s).state := by
  unfold writeActivateAt
  try dsimp only
  repeat' first | intro _ | with_reducible first | assumption | apply Keeps.iteR | apply Keeps.ok | apply Keeps.refuse | apply Keeps.ite | apply fwEnter_keeps | apply State.setObj_keeps | apply fwRecord_keeps | split | dsimp only

theorem execActivateAtWrite_keeps {s0 : State} {path : Nat} {v : Nat} {s : State} (hs : Keeps s0 s) : OutKeeps s0 (execActivateAtWrite path v s) := by
  unfold execActivateAtWrite
  try dsimp only
  repeat' first | intro _ | with_reducible first | assumption | apply OutKeeps.done | apply OutKeeps.ite | apply Keeps.ite | apply Keeps.ok | apply Keeps.refuse | apply Keeps.iteR | apply sdoWrite_keeps | apply writeActivateAt_keeps | split | dsimp only

theorem execActivationInstant_keeps {s0 : State} {s : State} (hs : Keeps s0 s) : OutKeeps s0 (execActivationInstant s) := by
  unfold execActivationInstant
  try dsimp only
  repeat' first | intro _ | with_reducible first | assumption | apply OutKeeps.done | apply OutKeeps.ite | apply Keeps.ite | apply mpStop_keeps | apply State.setObj_keeps | apply fwEnter_keeps | split | dsimp only

theorem fwDrop_keeps {s0 : State} {s : State} (hs : Keeps s0 s) : Keeps s0 (fwDrop s) := by
  unfold fwDrop
  try dsimp only
  repeat' first | intro _ | with_reducible first | assumption | apply Keeps.ite | apply State.setUpdate_keeps | apply State.setFlash_keeps | split | dsimp only

theorem fwAbort_keeps {s0 : State} {v : Nat} {s : State} (hs : Keeps s0 s) : Keeps s0 (fwAbort v s).state := by
  unfold fwAbort
  try dsimp only
  repeat' first | intro _ | with_reducible first | assumption | apply Keeps.iteR | apply Keeps.ok | apply Keeps.refuse | apply Keeps.ite | apply fwRecord_keeps | apply fwEnter_keeps | apply fwDrop_keeps | split | dsimp only

theorem execFwAbort_keeps {s0 : State} {path : Nat} {v : Nat} {s : State} (hs : Keeps s0 s) : OutKeeps s0 (execFwAbort path v s) := by
  unfold execFwAbort
  try dsimp only
  repeat' first | intro _ | with_reducible first | assumption | apply OutKeeps.done | apply OutKeeps.ite | apply Keeps.ite | apply Keeps.ok | apply Keeps.refuse | apply Keeps.iteR | apply sdoWrite_keeps | apply fwAbort_keeps | split | dsimp only

theorem fwBegin_keeps {s0 : State} {foe : Bool} {bs : List Byte} {s : State} (hs : Keeps s0 s) : Keeps s0 (fwBegin foe bs s).state := by
  unfold fwBegin
  try dsimp only
  repeat' first | intro _ | with_reducible first | assumption | apply Keeps.iteR | apply Keeps.ok | apply Keeps.refuse | apply Keeps.ite | apply State.setUpdate_keeps | apply State.setFlash_keeps | apply fwEnter_keeps | apply State.setObj_keeps | apply fwRecord_keeps | apply flashQueue_keeps | split | dsimp only

theorem execFwBegin_keeps {s0 : State} {path : Nat} {bs : FrameData} {s : State} (hs : Keeps s0 s) : OutKeeps s0 (execFwBegin path bs s) := by
  unfold execFwBegin
  try dsimp only
  repeat' first | intro _ | with_reducible first | assumption | apply OutKeeps.done | apply OutKeeps.ite | apply Keeps.ite | apply Keeps.ok | apply Keeps.refuse | apply Keeps.iteR | apply sdoServe_keeps | apply fwBegin_keeps | split | dsimp only

theorem fwBlock_keeps {s0 : State} {block : List Byte} {s : State} (hs : Keeps s0 s) : Keeps s0 (fwBlock block s).state := by
  unfold fwBlock
  try dsimp only
  repeat' first | intro _ | with_reducible first | assumption | apply Keeps.iteR | apply Keeps.ok | apply Keeps.refuse | apply Keeps.ite | apply State.setUpdate_keeps | apply flashQueue_keeps | apply State.setObj_keeps | split | dsimp only

theorem fwHalf_keeps {s0 : State} {bs : List Byte} {s : State} (hs : Keeps s0 s) : Keeps s0 (fwHalf bs s).state := by
  unfold fwHalf
  try dsimp only
  repeat' first | intro _ | with_reducible first | assumption | apply Keeps.iteR | apply Keeps.ok | apply Keeps.refuse | apply Keeps.ite | apply State.setUpdate_keeps | apply fwBlock_keeps | split | dsimp only

theorem execFwBlockHalf_keeps {s0 : State} {path : Nat} {bs : FrameData} {s : State} (hs : Keeps s0 s) : OutKeeps s0 (execFwBlockHalf path bs s) := by
  unfold execFwBlockHalf
  try dsimp only
  repeat' first | intro _ | with_reducible first | assumption | apply OutKeeps.done | apply OutKeeps.ite | apply Keeps.ite | apply Keeps.ok | apply Keeps.refuse | apply Keeps.iteR | apply sdoServe_keeps | apply fwHalf_keeps | split | dsimp only

theorem fwEnd_keeps {s0 : State} {bs : List Byte} {s : State} (hs : Keeps s0 s) : Keeps s0 (fwEnd bs s).state := by
  unfold fwEnd
  try dsimp only
  repeat' first | intro _ | with_reducible first | assumption | apply Keeps.iteR | apply Keeps.ok | apply Keeps.refuse | apply Keeps.ite | apply fwEnter_keeps | apply State.setUpdate_keeps | split | dsimp only

theorem execFwEnd_keeps {s0 : State} {path : Nat} {bs : FrameData} {s : State} (hs : Keeps s0 s) : OutKeeps s0 (execFwEnd path bs s) := by
  unfold execFwEnd
  try dsimp only
  repeat' first | intro _ | with_reducible first | assumption | apply OutKeeps.done | apply OutKeeps.ite | apply Keeps.ite | apply Keeps.ok | apply Keeps.refuse | apply Keeps.iteR | apply sdoServe_keeps | apply fwEnd_keeps | split | dsimp only

theorem fwVerdict_keeps {s0 : State} {sig : List Byte} {s : State} (hs : Keeps s0 s) : Keeps s0 (fwVerdict sig s) := by
  unfold fwVerdict
  try dsimp only
  repeat' first | intro _ | with_reducible first | assumption | apply Keeps.ite | apply State.setUpdate_keeps | apply secOffer_keeps | apply fwRecord_keeps | apply fwEnter_keeps | apply State.setObj_keeps | apply State.setFlash_keeps | apply raise_keeps | apply State.bump_keeps | split | dsimp only

end Sys2Proof.Machine
end

