-- ==== Sys2Proof/Laws/Keeps/Dict.lean ====
section
/-! SUPPORT. What the operations of Machine/Dict.lean keep: the queue, monotone time, free values and life cycle, and the invariant. -/

namespace Sys2Proof.Machine
open Sys2Proof
set_option linter.all false
set_option Elab.async false

theorem readSub_keeps {s0 : State} {path : Nat} {ix : Nat} {sub : Nat} {r : ObjRow} {s : State} (hs : Keeps s0 s) : ActKeeps s0 (readSub path ix sub r s) := by
  unfold readSub
  try dsimp only
  repeat' first | intro _ | with_reducible first | assumption | refine Keeps.snd (by assumption) ?_ | refine SumKeeps.get (by assumption) ?_ | refine ActKeeps.getNow (by assumption) ?_ | refine ActKeeps.getLater (by assumption) ?_ | apply ActKeeps.now | apply ActKeeps.later | apply ActKeeps.ite | apply Keeps.ite | apply Keeps.iteR | apply Keeps.ok | apply Keeps.refuse | apply Keeps.ok | apply Keeps.refuse | apply Keeps.iteR | apply readExport_keeps | apply startBlockRead_keeps | apply State.fresh_keeps | split | dsimp only

theorem caPart_keeps {s0 : State} {path : Nat} {ix : Nat} {e : Nat × ObjRow} {s : State} (hs : Keeps s0 s) : Keeps s0 (caPart path ix e s).state := by
  unfold caPart
  try dsimp only
  repeat' first | intro _ | with_reducible first | assumption | refine ActKeeps.getNow (by assumption) ?_ | refine ActKeeps.getLater (by assumption) ?_ | apply Keeps.iteR | apply Keeps.ok | apply Keeps.refuse | apply Keeps.ite | apply readSub_keeps | split | dsimp only

theorem caParts_keeps {s0 : State} {path : Nat} {ix : Nat} {a : List (Nat × ObjRow)} {a4 : List Byte} {a5 : State} (ha5 : Keeps s0 a5) : Keeps s0 (caParts path ix a a4 a5).state := by
  induction a generalizing path ix a4 a5 with
  | nil =>
    unfold caParts
    try dsimp only
    repeat' first | intro _ | with_reducible first | assumption | apply Keeps.iteR | apply Keeps.ok | apply Keeps.refuse | apply Keeps.ite | apply caPart_keeps | split | dsimp only
  | cons x xs ih =>
    unfold caParts
    try dsimp only
    repeat' first | intro _ | with_reducible first | assumption | apply ih | apply Keeps.iteR | apply Keeps.ok | apply Keeps.refuse | apply Keeps.ite | apply caPart_keeps | split | dsimp only

theorem caRead_keeps {s0 : State} {path : Nat} {ix : Nat} {lo : Nat} {s : State} (hs : Keeps s0 s) : Keeps s0 (caRead path ix lo s).state := by
  unfold caRead
  try dsimp only
  repeat' first | intro _ | with_reducible first | assumption | apply Keeps.iteR | apply Keeps.ok | apply Keeps.refuse | apply Keeps.ite | apply caParts_keeps | split | dsimp only

theorem eraseRecipe_keeps {s0 : State} {n : Nat} {s : State} (hs : Keeps s0 s) : Keeps s0 (eraseRecipe n s) := by
  unfold eraseRecipe
  try dsimp only
  repeat' first | intro _ | with_reducible first | assumption | apply Keeps.ite | apply flashQueue_keeps | split | dsimp only

theorem writeErase_keeps {s0 : State} {v : Nat} {s : State} (hs : Keeps s0 s) : Keeps s0 (writeErase v s).state := by
  unfold writeErase
  try dsimp only
  repeat' first | intro _ | with_reducible first | assumption | apply Keeps.iteR | apply Keeps.ok | apply Keeps.refuse | apply Keeps.ite | apply eraseRecipe_keeps | split | dsimp only

theorem ownWrite_keeps {s0 : State} {path : Nat} {ix : Nat} {sub : Nat} {v : Nat} {bs : List Byte} {s : State} (hs : Keeps s0 s) : OptActKeeps s0 (ownWrite path ix sub v bs s) := by
  unfold ownWrite
  try dsimp only
  repeat' first | intro _ | with_reducible first | assumption | refine SumKeeps.get (by assumption) ?_ | refine OptActKeeps.get (by assumption) ?_ | apply OptActKeeps.none | apply OptActKeeps.some | apply OptActKeeps.ite | apply ActKeeps.now | apply ActKeeps.later | apply ActKeeps.ite | apply Keeps.ite | apply Keeps.ok | apply Keeps.refuse | apply Keeps.ok | apply Keeps.refuse | apply Keeps.iteR | apply writeSource_keeps | apply writePpsNext_keeps | apply writeTimerEnable_keeps | apply writeBankPower_keeps | apply writeSuspend_keeps | apply writeClearSuspect_keeps | apply writeEntryLazy_keeps | apply writeEntryNow_keeps | apply writeFlushAll_keeps | apply writeHoopPower_keeps | apply writeCoId_keeps | apply writeTc_keeps | apply writeCommit_keeps | apply writeCancel_keeps | apply writeControl_keeps | apply writeErase_keeps | apply writeSupervisorRestart_keeps | apply writeShuttleRestart_keeps | apply writeSave_keeps | apply writeRestore_keeps | apply writeLock_keeps | apply writeDomain_keeps | apply startI2c_keeps | apply writeRelease_keeps | apply writeAlarmClear_keeps | apply writeFormat_keeps | apply writeJournalEnableTrue_keeps | apply writeJournalEnableFalse_keeps | apply writeClearRecord_keeps | apply writeRestart_keeps | apply writeStop_keeps | apply fwBegin_keeps | apply fwHalf_keeps | apply fwEnd_keeps | apply writeActivateAt_keeps | apply fwAbort_keeps | split | dsimp only

theorem setClassField_keeps {s0 : State} {c : Nat} {sub : Nat} {v : Nat} {s : State} (hs : Keeps s0 s) : Keeps s0 (setClassField c sub v s) := by
  unfold setClassField
  try dsimp only
  repeat' first | intro _ | with_reducible first | assumption | apply Keeps.ite | apply State.setCls_keeps | split | dsimp only

theorem setTimerField_keeps {s0 : State} {n : Nat} {sub : Nat} {v : Nat} {s : State} (hs : Keeps s0 s) : Keeps s0 (setTimerField n sub v s) := by
  unfold setTimerField
  try dsimp only
  repeat' first | intro _ | with_reducible first | assumption | apply Keeps.ite | apply State.setTimer_keeps | split | dsimp only

theorem clearErrorField_keeps {s0 : State} {s : State} (hs : Keeps s0 s) : Keeps s0 (clearErrorField s) := by
  unfold clearErrorField
  try dsimp only
  repeat' first | intro _ | with_reducible first | assumption | apply Keeps.ite | apply State.setObj_keeps | apply Keeps.foldl | split | dsimp only

theorem setFilter_keeps {s0 : State} {sub : Nat} {v : Nat} {s : State} (hs : Keeps s0 s) : Keeps s0 (setFilter sub v s) := by
  unfold setFilter
  try dsimp only
  repeat' first | intro _ | with_reducible first | assumption | apply Keeps.ite | apply State.setObj_keeps | (rw [State.mk_marked]; first | apply Keeps.upd | apply Keeps.updTime | apply Keeps.updFree | apply Keeps.updOd | apply Keeps.updFuses) | split | dsimp only

theorem storeValue_keeps {s0 : State} {ix : Nat} {sub : Nat} {v : Nat} {s : State} (hs : Keeps s0 s) : Keeps s0 (storeValue ix sub v s) := by
  unfold storeValue
  try dsimp only
  repeat' first | intro _ | with_reducible first | assumption | apply Keeps.ite | apply setClassField_keeps | apply setTimerField_keeps | apply clearErrorField_keeps | apply setFilter_keeps | apply linkEnable_keeps | apply State.setObji_keeps | apply alarmNUpdate_keeps | apply fcUpdate_keeps | split | dsimp only

theorem writeSub_keeps {s0 : State} {path : Nat} {ix : Nat} {sub : Nat} {r : ObjRow} {bs : List Byte} {s : State} (hs : Keeps s0 s) : ActKeeps s0 (writeSub path ix sub r bs s) := by
  unfold writeSub
  try dsimp only
  repeat' first | intro _ | with_reducible first | assumption | refine ActKeeps.getNow (by assumption) ?_ | refine ActKeeps.getLater (by assumption) ?_ | refine OptActKeeps.get (by assumption) ?_ | apply ActKeeps.now | apply ActKeeps.later | apply ActKeeps.ite | apply Keeps.ite | apply Keeps.iteR | apply Keeps.ok | apply Keeps.refuse | apply Keeps.ok | apply Keeps.refuse | apply Keeps.iteR | apply ownWrite_keeps | apply storeValue_keeps | split | dsimp only

theorem caWrite_keeps {s0 : State} {path : Nat} {ix : Nat} {lo : Nat} {bs : List Byte} {s : State} (hs : Keeps s0 s) : Keeps s0 (caWrite path ix lo bs s).state := by
  unfold caWrite
  try dsimp only
  repeat' first | intro _ | with_reducible first | assumption | refine ActKeeps.getNow (by assumption) ?_ | refine ActKeeps.getLater (by assumption) ?_ | apply Keeps.iteR | apply Keeps.ok | apply Keeps.refuse | apply Keeps.ite | apply writeSub_keeps | apply Keeps.foldl | split | dsimp only

theorem dictRead_keeps {s0 : State} {path : Nat} {ix : Nat} {sub : Nat} {s : State} (hs : Keeps s0 s) : ActKeeps s0 (dictRead path ix sub s) := by
  unfold dictRead
  try dsimp only
  repeat' first | intro _ | with_reducible first | assumption | refine ActKeeps.getNow (by assumption) ?_ | refine ActKeeps.getLater (by assumption) ?_ | apply ActKeeps.now | apply ActKeeps.later | apply ActKeeps.ite | apply Keeps.ite | apply Keeps.iteR | apply Keeps.ok | apply Keeps.refuse | apply Keeps.ok | apply Keeps.refuse | apply Keeps.iteR | apply readSub_keeps | split | dsimp only

theorem dictWrite_keeps {s0 : State} {path : Nat} {ix : Nat} {sub : Nat} {bs : List Byte} {s : State} (hs : Keeps s0 s) : ActKeeps s0 (dictWrite path ix sub bs s) := by
  unfold dictWrite
  try dsimp only
  repeat' first | intro _ | with_reducible first | assumption | refine ActKeeps.getNow (by assumption) ?_ | refine ActKeeps.getLater (by assumption) ?_ | apply ActKeeps.now | apply ActKeeps.later | apply ActKeeps.ite | apply Keeps.ite | apply Keeps.iteR | apply Keeps.ok | apply Keeps.refuse | apply Keeps.ok | apply Keeps.refuse | apply Keeps.iteR | apply writeSub_keeps | split | dsimp only

theorem lengthRefused_keeps {s0 : State} {q : SdoReq} {code : Nat} {s : State} (hs : Keeps s0 s) : Keeps s0 (lengthRefused q code s).state := by
  unfold lengthRefused
  try dsimp only
  repeat' first | intro _ | with_reducible first | assumption | apply Keeps.iteR | apply Keeps.ok | apply Keeps.refuse | apply Keeps.ite | split | dsimp only

end Sys2Proof.Machine
end

