-- ==== Sys2Proof/Laws/Keeps/EtherCat.lean ====
section
/-! SUPPORT. What the operations of Machine/EtherCat.lean keep: the queue, monotone time, free values and life cycle, and the invariant. -/

namespace Sys2Proof.Machine
open Sys2Proof
set_option linter.all false
set_option Elab.async false

theorem mailboxClose_keeps {s0 : State} {s : State} (hs : Keeps s0 s) : Keeps s0 (mailboxClose s) := by
  unfold mailboxClose
  try dsimp only
  repeat' first | intro _ | with_reducible first | assumption | apply Keeps.ite | apply State.setPath_keeps | apply abortLoad_keeps | (rw [State.mk_marked]; first | apply Keeps.upd | apply Keeps.updTime | apply Keeps.updFree | apply Keeps.updOd | apply Keeps.updFuses) | split | dsimp only

theorem alEnter_keeps {s0 : State} {new : Nat} {s : State} (hs : Keeps s0 s) : Keeps s0 (alEnter new s) := by
  unfold alEnter
  try dsimp only
  repeat' first | intro _ | with_reducible first | assumption | apply Keeps.ite | apply State.setObj_keeps | apply mailboxClose_keeps | apply mailPump_keeps | apply mpStop_keeps | (rw [State.mk_marked]; first | apply Keeps.upd | apply Keeps.updTime | apply Keeps.updFree | apply Keeps.updOd | apply Keeps.updFuses) | split | dsimp only

theorem alDecide_keeps {s0 : State} {q : AlRequest} {s : State} (hs : Keeps s0 s) : Keeps s0 (alDecide q s) := by
  unfold alDecide
  try dsimp only
  repeat' first | intro _ | with_reducible first | assumption | apply Keeps.ite | apply State.setObj_keeps | apply alEnter_keeps | (rw [State.mk_marked]; first | apply Keeps.upd | apply Keeps.updTime | apply Keeps.updFree | apply Keeps.updOd | apply Keeps.updFuses) | split | dsimp only

theorem alDrop_keeps {s0 : State} {s : State} (hs : Keeps s0 s) : Keeps s0 (alDrop s) := by
  unfold alDrop
  try dsimp only
  repeat' first | intro _ | with_reducible first | assumption | apply Keeps.ite | (rw [State.mk_marked]; first | apply Keeps.upd | apply Keeps.updTime | apply Keeps.updFree | apply Keeps.updOd | apply Keeps.updFuses) | split | dsimp only

theorem alRequest_keeps {s0 : State} {q : AlRequest} {s : State} (hs : Keeps s0 s) : Keeps s0 (alRequest q s) := by
  unfold alRequest
  try dsimp only
  repeat' first | intro _ | with_reducible first | assumption | apply Keeps.ite | apply alDrop_keeps | apply alDecide_keeps | (rw [State.mk_marked]; first | apply Keeps.upd | apply Keeps.updTime | apply Keeps.updFree | apply Keeps.updOd | apply Keeps.updFuses) | split | dsimp only

theorem alResume_keeps {s0 : State} {s : State} (hs : Keeps s0 s) : Keeps s0 (alResume s) := by
  unfold alResume
  try dsimp only
  repeat' first | intro _ | with_reducible first | assumption | apply Keeps.ite | apply alDecide_keeps | (rw [State.mk_marked]; first | apply Keeps.upd | apply Keeps.updTime | apply Keeps.updFree | apply Keeps.updOd | apply Keeps.updFuses) | split | dsimp only

theorem execAlStateRequest_keeps {s0 : State} {q : AlRequest} {s : State} (hs : Keeps s0 s) : OutKeeps s0 (execAlStateRequest q s) := by
  unfold execAlStateRequest
  try dsimp only
  repeat' first | intro _ | with_reducible first | assumption | apply OutKeeps.done | apply OutKeeps.ite | apply Keeps.ite | apply alRequest_keeps | split | dsimp only

theorem execEthercatFrameError_keeps {s0 : State} {port : Nat} {s : State} (hs : Keeps s0 s) : OutKeeps s0 (execEthercatFrameError port s) := by
  unfold execEthercatFrameError
  try dsimp only
  repeat' first | intro _ | with_reducible first | assumption | apply OutKeeps.done | apply OutKeeps.ite | apply Keeps.ite | (rw [State.mk_marked]; first | apply Keeps.upd | apply Keeps.updTime | apply Keeps.updFree | apply Keeps.updOd | apply Keeps.updFuses) | split | dsimp only

theorem execEthercatPortLinkChange_keeps {s0 : State} {port : Nat} {up : Bool} {s : State} (hs : Keeps s0 s) : OutKeeps s0 (execEthercatPortLinkChange port up s) := by
  unfold execEthercatPortLinkChange
  try dsimp only
  repeat' first | intro _ | with_reducible first | assumption | apply OutKeeps.done | apply OutKeeps.ite | apply Keeps.ite | (rw [State.mk_marked]; first | apply Keeps.upd | apply Keeps.updTime | apply Keeps.updFree | apply Keeps.updOd | apply Keeps.updFuses) | split | dsimp only

theorem execLatchEvent_keeps {s0 : State} {n : Nat} {falling : Bool} {dc : Nat} {s : State} (hs : Keeps s0 s) : OutKeeps s0 (execLatchEvent n falling dc s) := by
  unfold execLatchEvent
  try dsimp only
  repeat' first | intro _ | with_reducible first | assumption | apply OutKeeps.done | apply OutKeeps.ite | apply Keeps.ite | (rw [State.mk_marked]; first | apply Keeps.upd | apply Keeps.updTime | apply Keeps.updFree | apply Keeps.updOd | apply Keeps.updFuses) | split | dsimp only

theorem rxApply_keeps {s0 : State} {s : State} {e : (Nat × Nat × Nat) × List Byte} (hs : Keeps s0 s) : Keeps s0 (rxApply s e) := by
  unfold rxApply
  try dsimp only
  repeat' first | intro _ | with_reducible first | assumption | refine ActKeeps.getNow (by assumption) ?_ | refine ActKeeps.getLater (by assumption) ?_ | apply Keeps.ite | apply dictWrite_keeps | apply State.bump_keeps | split | dsimp only

theorem groupToken_keeps {s0 : State} {stamp : Stamp} {s : State} {i : Nat} (hs : Keeps s0 s) : Keeps s0 (groupToken stamp s i) := by
  unfold groupToken
  try dsimp only
  repeat' first | intro _ | with_reducible first | assumption | apply Keeps.ite | apply enterFabric_keeps | split | dsimp only

theorem execRxpdoBufferSwitch_keeps {s0 : State} {ago : Nat} {bs : FrameData} {s : State} (hs : Keeps s0 s) : OutKeeps s0 (execRxpdoBufferSwitch ago bs s) := by
  unfold execRxpdoBufferSwitch
  try dsimp only
  repeat' first | intro _ | with_reducible first | assumption | apply OutKeeps.done | apply OutKeeps.ite | apply Keeps.ite | apply rxApply_keeps | apply groupToken_keeps | apply Keeps.foldl | (rw [State.mk_marked]; first | apply Keeps.upd | apply Keeps.updTime | apply Keeps.updFree | apply Keeps.updOd | apply Keeps.updFuses) | split | dsimp only

theorem execSiiWrite_keeps {s0 : State} {a : Nat} {bs : FrameData} {s : State} (hs : Keeps s0 s) : OutKeeps s0 (execSiiWrite a bs s) := by
  unfold execSiiWrite
  try dsimp only
  repeat' first | intro _ | with_reducible first | assumption | apply OutKeeps.done | apply OutKeeps.ite | apply Keeps.ite | apply persistTouch_keeps | (rw [State.mk_marked]; first | apply Keeps.upd | apply Keeps.updTime | apply Keeps.updFree | apply Keeps.updOd | apply Keeps.updFuses) | split | dsimp only

theorem execSmWatchdogExpiry_keeps {s0 : State} {s : State} (hs : Keeps s0 s) : OutKeeps s0 (execSmWatchdogExpiry s) := by
  unfold execSmWatchdogExpiry
  try dsimp only
  repeat' first | intro _ | with_reducible first | assumption | apply OutKeeps.done | apply OutKeeps.ite | apply Keeps.ite | apply raise_keeps | apply State.setObj_keeps | apply alEnter_keeps | split | dsimp only

theorem execSyncEvent_keeps {s0 : State} {n : Nat} {s : State} (hs : Keeps s0 s) : OutKeeps s0 (execSyncEvent n s) := by
  unfold execSyncEvent
  try dsimp only
  repeat' first | intro _ | with_reducible first | assumption | apply OutKeeps.done | apply OutKeeps.ite | apply Keeps.ite | apply enterFabric_keeps | (rw [State.mk_marked]; first | apply Keeps.upd | apply Keeps.updTime | apply Keeps.updFree | apply Keeps.updOd | apply Keeps.updFuses) | split | dsimp only

theorem txEntry_keeps {s0 : State} {a : List Byte × State} {e : Nat × Nat × Nat} (ha : Keeps s0 a.2) : Keeps s0 (txEntry a e).2 := by
  unfold txEntry
  try dsimp only
  repeat' first | intro _ | with_reducible first | assumption | refine Keeps.snd (by assumption) ?_ | refine ActKeeps.getNow (by assumption) ?_ | refine ActKeeps.getLater (by assumption) ?_ | apply Keeps.ite | apply readSub_keeps | split | dsimp only

theorem execTxpdoCapture_keeps {s0 : State} {s : State} (hs : Keeps s0 s) : OutKeeps s0 (execTxpdoCapture s) := by
  unfold execTxpdoCapture
  try dsimp only
  repeat' first | intro _ | with_reducible first | assumption | refine Keeps.snd (by assumption) ?_ | apply OutKeeps.done | apply OutKeeps.ite | apply Keeps.ite | apply txEntry_keeps | apply Keeps.foldl | apply Keeps.foldlP | (rw [State.mk_marked]; first | apply Keeps.upd | apply Keeps.updTime | apply Keeps.updFree | apply Keeps.updOd | apply Keeps.updFuses) | split | dsimp only

end Sys2Proof.Machine
end

