-- ==== Sys2Proof/Laws/Keeps/FileAccess.lean ====
section
/-! SUPPORT. What the operations of Machine/FileAccess.lean keep: the queue, monotone time, free values and life cycle, and the invariant. -/

namespace Sys2Proof.Machine
open Sys2Proof
set_option linter.all false
set_option Elab.async false

theorem State.setFoe_keeps {s0 : State} {s : State} {x2 : Foe} (hs : Keeps s0 s) : Keeps s0 (State.setFoe s x2) := by
  unfold State.setFoe
  try dsimp only
  repeat' first | intro _ | with_reducible first | assumption | apply Keeps.ite | (rw [State.mk_marked]; first | apply Keeps.upd | apply Keeps.updTime | apply Keeps.updFree | apply Keeps.updOd | apply Keeps.updFuses) | split | dsimp only

theorem foeRefuse_keeps {s0 : State} {e : FoeError} {s : State} (hs : Keeps s0 s) : Keeps s0 (foeRefuse e s) := by
  unfold foeRefuse
  try dsimp only
  repeat' first | intro _ | with_reducible first | assumption | apply Keeps.ite | apply State.setFoe_keeps | split | dsimp only

theorem foeReadFirmware_keeps {s0 : State} {s : State} (hs : Keeps s0 s) : Keeps s0 (foeReadFirmware s) := by
  unfold foeReadFirmware
  try dsimp only
  repeat' first | intro _ | with_reducible first | assumption | apply Keeps.ite | apply foeRefuse_keeps | split | dsimp only

theorem foeSend_keeps {s0 : State} {s : State} (hs : Keeps s0 s) : Keeps s0 (foeSend s) := by
  unfold foeSend
  try dsimp only
  repeat' first | intro _ | with_reducible first | assumption | apply Keeps.ite | apply State.setFoe_keeps | split | dsimp only

theorem foeReadRecipe_keeps {s0 : State} {slot : Nat} {pw : Nat} {req : Bool} {s : State} (hs : Keeps s0 s) : Keeps s0 (foeReadRecipe slot pw req s) := by
  unfold foeReadRecipe
  try dsimp only
  repeat' first | intro _ | with_reducible first | assumption | apply Keeps.ite | apply foeRefuse_keeps | apply foeSend_keeps | apply State.setFoe_keeps | split | dsimp only

theorem foeFail_keeps {s0 : State} {e : FoeError} {s : State} (hs : Keeps s0 s) : Keeps s0 (foeFail e s) := by
  unfold foeFail
  try dsimp only
  repeat' first | intro _ | with_reducible first | assumption | apply Keeps.ite | apply State.setFoe_keeps | split | dsimp only

theorem fwFoeFail_keeps {s0 : State} {e : FoeError} {s : State} (hs : Keeps s0 s) : Keeps s0 (fwFoeFail e s) := by
  unfold fwFoeFail
  try dsimp only
  repeat' first | intro _ | with_reducible first | assumption | apply Keeps.ite | apply foeFail_keeps | apply fwEnter_keeps | apply fwDrop_keeps | split | dsimp only

theorem fwFoeParts_keeps {s0 : State} {a : Nat} {a2 : State} (ha2 : Keeps s0 a2) : Keeps s0 (fwFoeParts a a2) := by
  induction a generalizing a2 with
  | zero =>
    unfold fwFoeParts
    try dsimp only
    repeat' first | intro _ | with_reducible first | assumption | apply Keeps.ite | apply Keeps.ok | apply Keeps.refuse | apply Keeps.iteR | apply foeFail_keeps | apply State.setFoe_keeps | apply fwBegin_keeps | apply fwFoeFail_keeps | apply fwBlock_keeps | (rw [State.mk_marked]; first | apply Keeps.upd | apply Keeps.updTime | apply Keeps.updFree | apply Keeps.updOd | apply Keeps.updFuses) | split | dsimp only
  | succ n ih =>
    unfold fwFoeParts
    try dsimp only
    repeat' first | intro _ | with_reducible first | assumption | apply ih | apply Keeps.ite | apply Keeps.ok | apply Keeps.refuse | apply Keeps.iteR | apply foeFail_keeps | apply State.setFoe_keeps | apply fwBegin_keeps | apply fwFoeFail_keeps | apply fwBlock_keeps | (rw [State.mk_marked]; first | apply Keeps.upd | apply Keeps.updTime | apply Keeps.updFree | apply Keeps.updOd | apply Keeps.updFuses) | split | dsimp only

theorem fwFoeEnd_keeps {s0 : State} {s : State} (hs : Keeps s0 s) : Keeps s0 (fwFoeEnd s) := by
  unfold fwFoeEnd
  try dsimp only
  repeat' first | intro _ | with_reducible first | assumption | apply Keeps.ite | apply Keeps.ok | apply Keeps.refuse | apply Keeps.iteR | apply fwEnd_keeps | apply State.setFoe_keeps | apply fwFoeFail_keeps | split | dsimp only

theorem fwFoePacket_keeps {s0 : State} {bs : List Byte} {s : State} (hs : Keeps s0 s) : Keeps s0 (fwFoePacket bs s) := by
  unfold fwFoePacket
  try dsimp only
  repeat' first | intro _ | with_reducible first | assumption | apply Keeps.ite | apply fwFoeParts_keeps | apply State.setFoe_keeps | apply fwFoeEnd_keeps | split | dsimp only

theorem foeWriteFirmware_keeps {s0 : State} {pw : Nat} {req : Bool} {bs : List Byte} {s : State} (hs : Keeps s0 s) : Keeps s0 (foeWriteFirmware pw req bs s) := by
  unfold foeWriteFirmware
  try dsimp only
  repeat' first | intro _ | with_reducible first | assumption | apply Keeps.ite | apply fwFoePacket_keeps | apply foeRefuse_keeps | apply State.setFoe_keeps | (rw [State.mk_marked]; first | apply Keeps.upd | apply Keeps.updTime | apply Keeps.updFree | apply Keeps.updOd | apply Keeps.updFuses) | split | dsimp only

theorem foeBegin_keeps {s0 : State} {file : Nat} {kind : Nat} {slot : Nat} {pw : Nat} {s : State} (hs : Keeps s0 s) : Keeps s0 (foeBegin file kind slot pw s) := by
  unfold foeBegin
  try dsimp only
  repeat' first | intro _ | with_reducible first | assumption | apply Keeps.ite | apply foeRefuse_keeps | apply beginLoad_keeps | apply State.setFoe_keeps | split | dsimp only

theorem foeImage_keeps {s0 : State} {file : Nat} {bs : List Byte} {s : State} (hs : Keeps s0 s) : Keeps s0 (foeImage file bs s) := by
  unfold foeImage
  try dsimp only
  repeat' first | intro _ | with_reducible first | assumption | apply Keeps.ite | apply foeFail_keeps | apply loadBytes_keeps | apply State.setFoe_keeps | apply loadWhole_keeps | split | dsimp only

theorem foeDo_keeps {s0 : State} {p : FoePacket} {s : State} (hs : Keeps s0 s) : Keeps s0 (foeDo p s) := by
  unfold foeDo
  try dsimp only
  repeat' first | intro _ | with_reducible first | assumption | apply Keeps.ite | apply foeReadFirmware_keeps | apply foeReadRecipe_keeps | apply foeWriteFirmware_keeps | apply foeBegin_keeps | apply foeImage_keeps | split | dsimp only

theorem foeArrives_keeps {s0 : State} {p : FoePacket} {s : State} (hs : Keeps s0 s) : Keeps s0 (foeArrives p s) := by
  unfold foeArrives
  try dsimp only
  repeat' first | intro _ | with_reducible first | assumption | apply Keeps.ite | apply foeDo_keeps | (rw [State.mk_marked]; first | apply Keeps.upd | apply Keeps.updTime | apply Keeps.updFree | apply Keeps.updOd | apply Keeps.updFuses) | split | dsimp only

theorem execFoeReadFirmware_keeps {s0 : State} {pw : Nat} {s : State} (hs : Keeps s0 s) : OutKeeps s0 (execFoeReadFirmware pw s) := by
  unfold execFoeReadFirmware
  try dsimp only
  repeat' first | intro _ | with_reducible first | assumption | apply OutKeeps.done | apply OutKeeps.ite | apply Keeps.ite | apply foeArrives_keeps | split | dsimp only

theorem execFoeReadRecipe_keeps {s0 : State} {slot : Nat} {pw : Nat} {req : Bool} {s : State} (hs : Keeps s0 s) : OutKeeps s0 (execFoeReadRecipe slot pw req s) := by
  unfold execFoeReadRecipe
  try dsimp only
  repeat' first | intro _ | with_reducible first | assumption | apply OutKeeps.done | apply OutKeeps.ite | apply Keeps.ite | apply foeArrives_keeps | split | dsimp only

theorem execFoeWriteFirmware_keeps {s0 : State} {pw : Nat} {req : Bool} {bs : FrameData} {s : State} (hs : Keeps s0 s) : OutKeeps s0 (execFoeWriteFirmware pw req bs s) := by
  unfold execFoeWriteFirmware
  try dsimp only
  repeat' first | intro _ | with_reducible first | assumption | apply OutKeeps.done | apply OutKeeps.ite | apply Keeps.ite | apply foeArrives_keeps | split | dsimp only

theorem execFoeWriteRecipe_keeps {s0 : State} {slot : Nat} {pw : Nat} {req : Bool} {bs : FrameData} {s : State} (hs : Keeps s0 s) : OutKeeps s0 (execFoeWriteRecipe slot pw req bs s) := by
  unfold execFoeWriteRecipe
  try dsimp only
  repeat' first | intro _ | with_reducible first | assumption | apply OutKeeps.done | apply OutKeeps.ite | apply Keeps.ite | apply foeArrives_keeps | split | dsimp only

theorem execFoeWriteRegion_keeps {s0 : State} {pw : Nat} {req : Bool} {bs : FrameData} {s : State} (hs : Keeps s0 s) : OutKeeps s0 (execFoeWriteRegion pw req bs s) := by
  unfold execFoeWriteRegion
  try dsimp only
  repeat' first | intro _ | with_reducible first | assumption | apply OutKeeps.done | apply OutKeeps.ite | apply Keeps.ite | apply foeArrives_keeps | split | dsimp only

theorem execFoeWriteShadow_keeps {s0 : State} {pw : Nat} {req : Bool} {bs : FrameData} {s : State} (hs : Keeps s0 s) : OutKeeps s0 (execFoeWriteShadow pw req bs s) := by
  unfold execFoeWriteShadow
  try dsimp only
  repeat' first | intro _ | with_reducible first | assumption | apply OutKeeps.done | apply OutKeeps.ite | apply Keeps.ite | apply foeArrives_keeps | split | dsimp only

theorem loaderVerified_keeps {s0 : State} {s : State} (hs : Keeps s0 s) : Keeps s0 (loaderVerified s) := by
  unfold loaderVerified
  try dsimp only
  repeat' first | intro _ | with_reducible first | assumption | apply Keeps.ite | apply mpStop_keeps | (rw [State.mk_marked]; first | apply Keeps.upd | apply Keeps.updTime | apply Keeps.updFree | apply Keeps.updOd | apply Keeps.updFuses) | split | dsimp only

theorem foeVerdict_keeps {s0 : State} {s : State} (hs : Keeps s0 s) : Keeps s0 (foeVerdict s) := by
  unfold foeVerdict
  try dsimp only
  repeat' first | intro _ | with_reducible first | assumption | apply Keeps.ite | apply State.setFoe_keeps | split | dsimp only

theorem execUpdateVerdict_keeps {s0 : State} {s : State} (hs : Keeps s0 s) : OutKeeps s0 (execUpdateVerdict s) := by
  unfold execUpdateVerdict
  try dsimp only
  repeat' first | intro _ | with_reducible first | assumption | apply OutKeeps.done | apply OutKeeps.ite | apply Keeps.ite | apply loaderVerified_keeps | apply foeVerdict_keeps | apply fwVerdict_keeps | split | dsimp only

theorem foeResume_keeps {s0 : State} {s : State} (hs : Keeps s0 s) : Keeps s0 (foeResume s) := by
  unfold foeResume
  try dsimp only
  repeat' first | intro _ | with_reducible first | assumption | apply Keeps.ite | apply foeDo_keeps | (rw [State.mk_marked]; first | apply Keeps.upd | apply Keeps.updTime | apply Keeps.updFree | apply Keeps.updOd | apply Keeps.updFuses) | split | dsimp only

end Sys2Proof.Machine
end

