-- ==== Sys2Proof/Laws/Keeps/Requests.lean ====
section
/-! SUPPORT. What the operations of Machine/Requests.lean keep: the queue, monotone time, free values and life cycle, and the invariant. -/

namespace Sys2Proof.Machine
open Sys2Proof
set_option linter.all false
set_option Elab.async false

theorem beginSegments_keeps {s0 : State} {q : SdoReq} {size : Nat} {s : State} (hs : Keeps s0 s) : Keeps s0 (beginSegments q size s) := by
  unfold beginSegments
  try dsimp only
  repeat' first | intro _ | with_reducible first | assumption | apply Keeps.ite | apply answerSent_keeps | apply State.setPath_keeps | split | dsimp only

theorem infoReply_keeps {s0 : State} {q : SdoReq} {s : State} (hs : Keeps s0 s) : Keeps s0 (infoReply q s).state := by
  unfold infoReply
  try dsimp only
  repeat' first | intro _ | with_reducible first | assumption | apply Keeps.iteR | apply Keeps.ok | apply Keeps.refuse | apply Keeps.ite | split | dsimp only

theorem perform_keeps {s0 : State} {q : SdoReq} {s : State} (hs : Keeps s0 s) : ActKeeps s0 (perform q s) := by
  unfold perform
  try dsimp only
  repeat' first | intro _ | with_reducible first | assumption | refine ActKeeps.getNow (by assumption) ?_ | refine ActKeeps.getLater (by assumption) ?_ | apply ActKeeps.now | apply ActKeeps.later | apply ActKeeps.ite | apply Keeps.ite | apply Keeps.iteR | apply Keeps.ok | apply Keeps.refuse | apply Keeps.ok | apply Keeps.refuse | apply Keeps.iteR | apply lengthRefused_keeps | apply dictRead_keeps | apply dictWrite_keeps | apply caRead_keeps | apply caWrite_keeps | split | dsimp only

theorem readShown_keeps {s0 : State} {q : SdoReq} {s : State} {r : Reply} (hs : Keeps s0 s) (hr : Keeps s0 r.state) : Keeps s0 (readShown q s r).state := by
  unfold readShown
  try dsimp only
  repeat' first | intro _ | with_reducible first | assumption | apply Keeps.iteR | apply Keeps.ok | apply Keeps.refuse | apply Keeps.ite | apply raise_keeps | apply State.bump_keeps | split | dsimp only

theorem segmentTaken_keeps {s0 : State} {path : Nat} {a : List Byte} {buf : List Byte} {more : Bool} {s : State} (hs : Keeps s0 s) : Keeps s0 (segmentTaken path a buf more s) := by
  unfold segmentTaken
  try dsimp only
  repeat' first | intro _ | with_reducible first | assumption | apply Keeps.ite | apply State.setPath_keeps | apply answerSent_keeps | (rw [State.mk_marked]; first | apply Keeps.upd | apply Keeps.updTime | apply Keeps.updFree | apply Keeps.updOd | apply Keeps.updFuses) | split | dsimp only

theorem segment_keeps {s0 : State} {q : SdoReq} {s : State} (hs : Keeps s0 s) : SegKeeps s0 (segment q s) := by
  unfold segment
  try dsimp only
  repeat' first | intro _ | with_reducible first | assumption | refine SegKeeps.get (by assumption) ?_ | apply SegKeeps.refuse | apply SegKeeps.write | apply SegKeeps.taken | apply SegKeeps.ite | apply Keeps.ok | apply Keeps.refuse | apply Keeps.iteR | apply segmentTaken_keeps | apply lengthRefused_keeps | split | dsimp only

theorem serveAct_keeps {s0 : State} {q : SdoReq} {s : State} (hs : Keeps s0 s) : Keeps s0 (serveAct q s) := by
  unfold serveAct
  try dsimp only
  repeat' first | intro _ | with_reducible first | assumption | refine ActKeeps.getNow (by assumption) ?_ | refine ActKeeps.getLater (by assumption) ?_ | apply Keeps.ite | apply Keeps.ok | apply Keeps.refuse | apply Keeps.iteR | apply perform_keeps | apply answered_keeps | apply readShown_keeps | apply sdoStart_keeps | split | dsimp only

theorem serveStated_keeps {s0 : State} {q : SdoReq} {size : Nat} {s : State} (hs : Keeps s0 s) : Keeps s0 (serveStated q size s) := by
  unfold serveStated
  try dsimp only
  repeat' first | intro _ | with_reducible first | assumption | apply Keeps.ite | apply Keeps.ok | apply Keeps.refuse | apply Keeps.iteR | apply answered_keeps | apply lengthRefused_keeps | apply beginSegments_keeps | split | dsimp only

theorem serveSized_keeps {s0 : State} {q : SdoReq} {n : Nat} {s : State} (hs : Keeps s0 s) : Keeps s0 (serveSized q n s) := by
  unfold serveSized
  try dsimp only
  repeat' first | intro _ | with_reducible first | assumption | refine ActKeeps.getNow (by assumption) ?_ | refine ActKeeps.getLater (by assumption) ?_ | apply Keeps.ite | apply Keeps.ok | apply Keeps.refuse | apply Keeps.iteR | apply perform_keeps | apply answered_keeps | apply readShown_keeps | apply sdoStart_keeps | split | dsimp only

theorem serveNow_keeps {s0 : State} {q : SdoReq} {s : State} (hs : Keeps s0 s) : Keeps s0 (serveNow q s) := by
  unfold serveNow
  try dsimp only
  repeat' first | intro _ | with_reducible first | assumption | refine SegKeeps.get (by assumption) ?_ | apply Keeps.ite | apply Keeps.ok | apply Keeps.refuse | apply Keeps.iteR | apply foeResume_keeps | apply alResume_keeps | apply answered_keeps | apply segment_keeps | apply serveAct_keeps | apply infoReply_keeps | apply answeredPart_keeps | apply serveStated_keeps | apply serveSized_keeps | split | dsimp only

theorem sdoRequest_keeps {s0 : State} {q : SdoReq} {s : State} (hs : Keeps s0 s) : Keeps s0 (sdoRequest q s) := by
  unfold sdoRequest
  try dsimp only
  repeat' first | intro _ | with_reducible first | assumption | apply Keeps.ite | apply sdoTurned_keeps | apply sdoQueue_keeps | apply arrives_keeps | apply serveNow_keeps | split | dsimp only

theorem serveWaiting_keeps {s0 : State} {a : Nat} {a2 : State} (ha2 : Keeps s0 a2) : Keeps s0 (serveWaiting a a2) := by
  induction a generalizing a2 with
  | zero =>
    unfold serveWaiting
    try dsimp only
    repeat' first | intro _ | with_reducible first | assumption | apply Keeps.ite | apply serveNow_keeps | (rw [State.mk_marked]; first | apply Keeps.upd | apply Keeps.updTime | apply Keeps.updFree | apply Keeps.updOd | apply Keeps.updFuses) | split | dsimp only
  | succ n ih =>
    unfold serveWaiting
    try dsimp only
    repeat' first | intro _ | with_reducible first | assumption | apply ih | apply Keeps.ite | apply serveNow_keeps | (rw [State.mk_marked]; first | apply Keeps.upd | apply Keeps.updTime | apply Keeps.updFree | apply Keeps.updOd | apply Keeps.updFuses) | split | dsimp only

theorem serveNext_keeps {s0 : State} {s : State} (hs : Keeps s0 s) : Keeps s0 (serveNext s) := by
  unfold serveNext
  try dsimp only
  repeat' first | intro _ | with_reducible first | assumption | apply Keeps.ite | apply serveWaiting_keeps | split | dsimp only

end Sys2Proof.Machine
end

