-- ==== Sys2Proof/Laws/Keeps/Secure.lean ====
section
/-! SUPPORT. What the operations of Machine/Secure.lean keep: the queue, monotone time, free values and life cycle, and the invariant. -/

namespace Sys2Proof.Machine
open Sys2Proof
set_option linter.all false
set_option Elab.async false

theorem secureRequest_keeps {s0 : State} {q : SdoReq} {s : State} (hs : Keeps s0 s) : Keeps s0 (secureRequest q s) := by
  unfold secureRequest
  try dsimp only
  repeat' first | intro _ | with_reducible first | assumption | apply Keeps.ite | apply sdoTurned_keeps | apply State.setPath_keeps | apply arrives_keeps | (rw [State.mk_marked]; first | apply Keeps.upd | apply Keeps.updTime | apply Keeps.updFree | apply Keeps.updOd | apply Keeps.updFuses) | exact Nat.le_refl _ | exact id | exact Nat.le_add_right _ _ | (exact mset_wf _ _ _ _ (by assumption)) | exact Nat.mod_lt _ (by decide) | exact ⟨Nat.le_refl _, by assumption⟩ | split | dsimp only

theorem anyRequest_keeps {s0 : State} {q : SdoReq} {s : State} (hs : Keeps s0 s) : Keeps s0 (anyRequest q s) := by
  unfold anyRequest
  try dsimp only
  repeat' first | intro _ | with_reducible first | assumption | apply Keeps.ite | apply secureRequest_keeps | apply sdoRequest_keeps | split | dsimp only

theorem secureSend_keeps {s0 : State} {path : Nat} {ix : Nat} {sub : Nat} {bs : List Byte} {s : State} (hs : Keeps s0 s) : Keeps s0 (secureSend path ix sub bs s) := by
  unfold secureSend
  try dsimp only
  repeat' first | intro _ | with_reducible first | assumption | apply Keeps.ite | apply secureRequest_keeps | split | dsimp only

theorem execAuthWrite_keeps {s0 : State} {path : Nat} {bs : FrameData} {s : State} (hs : Keeps s0 s) : OutKeeps s0 (execAuthWrite path bs s) := by
  unfold execAuthWrite
  try dsimp only
  repeat' first | intro _ | with_reducible first | assumption | apply OutKeeps.done | apply OutKeeps.ite | apply Keeps.ite | apply secureSend_keeps | split | dsimp only

theorem execChallengeWrite_keeps {s0 : State} {path : Nat} {bs : FrameData} {s : State} (hs : Keeps s0 s) : OutKeeps s0 (execChallengeWrite path bs s) := by
  unfold execChallengeWrite
  try dsimp only
  repeat' first | intro _ | with_reducible first | assumption | apply OutKeeps.done | apply OutKeeps.ite | apply Keeps.ite | apply secureSend_keeps | split | dsimp only

theorem execImageKeyHashWrite_keeps {s0 : State} {path : Nat} {n : Nat} {bs : FrameData} {s : State} (hs : Keeps s0 s) : OutKeeps s0 (execImageKeyHashWrite path n bs s) := by
  unfold execImageKeyHashWrite
  try dsimp only
  repeat' first | intro _ | with_reducible first | assumption | apply OutKeeps.done | apply OutKeeps.ite | apply Keeps.ite | apply secureSend_keeps | split | dsimp only

theorem execIslandWipeComplete_keeps {s0 : State} {s : State} (hs : Keeps s0 s) : OutKeeps s0 (execIslandWipeComplete s) := by
  unfold execIslandWipeComplete
  try dsimp only
  repeat' first | intro _ | with_reducible first | assumption | apply OutKeeps.done | apply OutKeeps.ite | apply Keeps.ite | apply State.setIsland_keeps | apply loadIsland_keeps | split | dsimp only

theorem execLcRequestFiel_keeps {s0 : State} {path : Nat} {s : State} (hs : Keeps s0 s) : OutKeeps s0 (execLcRequestFiel path s) := by
  unfold execLcRequestFiel
  try dsimp only
  repeat' first | intro _ | with_reducible first | assumption | apply OutKeeps.done | apply OutKeeps.ite | apply Keeps.ite | apply secureSend_keeps | split | dsimp only

theorem execLcRequestProv_keeps {s0 : State} {path : Nat} {s : State} (hs : Keeps s0 s) : OutKeeps s0 (execLcRequestProv path s) := by
  unfold execLcRequestProv
  try dsimp only
  repeat' first | intro _ | with_reducible first | assumption | apply OutKeeps.done | apply OutKeeps.ite | apply Keeps.ite | apply secureSend_keeps | split | dsimp only

theorem execLcRequestRetn_keeps {s0 : State} {path : Nat} {s : State} (hs : Keeps s0 s) : OutKeeps s0 (execLcRequestRetn path s) := by
  unfold execLcRequestRetn
  try dsimp only
  repeat' first | intro _ | with_reducible first | assumption | apply OutKeeps.done | apply OutKeeps.ite | apply Keeps.ite | apply secureSend_keeps | split | dsimp only

theorem execLcRequestScrp_keeps {s0 : State} {path : Nat} {s : State} (hs : Keeps s0 s) : OutKeeps s0 (execLcRequestScrp path s) := by
  unfold execLcRequestScrp
  try dsimp only
  repeat' first | intro _ | with_reducible first | assumption | apply OutKeeps.done | apply OutKeeps.ite | apply Keeps.ite | apply secureSend_keeps | split | dsimp only

theorem keepAnswer_keeps {s0 : State} {d : SecureDue} {a : SdoAnswer} {s : State} (hs : Keeps s0 s) : Keeps s0 (keepAnswer d a s) := by
  unfold keepAnswer
  try dsimp only
  repeat' first | intro _ | with_reducible first | assumption | apply Keeps.ite | (rw [State.mk_marked]; first | apply Keeps.upd | apply Keeps.updTime | apply Keeps.updFree | apply Keeps.updOd | apply Keeps.updFuses) | exact Nat.le_refl _ | exact id | exact Nat.le_add_right _ _ | (exact mset_wf _ _ _ _ (by assumption)) | exact Nat.mod_lt _ (by decide) | exact ⟨Nat.le_refl _, by assumption⟩ | split | dsimp only

theorem secureRefused_keeps {s0 : State} {q : SdoReq} {s : State} (hs : Keeps s0 s) : Keeps s0 (secureRefused q s) := by
  unfold secureRefused
  try dsimp only
  repeat' first | intro _ | with_reducible first | assumption | refine Keeps.snd (by assumption) ?_ | apply Keeps.ite | apply State.fresh_keeps | apply secOffer_keeps | split | dsimp only

theorem lifeChange_keeps {s0 : State} {dest : Nat} {due : Nat} {s : State} (hs : Keeps s0 s) (ht : s.fuses.lc ≤ 4 → s.fuses.lc ≤ dest) (h4 : dest ≤ 4) : Keeps s0 (lifeChange dest due s) := by
  unfold lifeChange
  dsimp only
  have h0 := State.fresh_keeps hs
  have hz : s.fresh.2.fuses = s.fuses := rfl
  have h1 : Keeps s0 { s.fresh.2 with fuses := { s.fresh.2.fuses with lc := dest, seed := (if dest = 1 then 1 + Config.random s.fresh.1 % (2 ^ 256 - 1) else if 3 ≤ dest then 0 else s.fuses.seed), destroyed := s.fresh.2.fuses.destroyed || decide (3 ≤ dest) } } := by
    refine Keeps.updFuses h0 (fun h => ⟨ht h, h4⟩) (fun h => ?_)
    simp [h]
  rw [State.mk_marked]
  apply Keeps.upd
  exact raise_keeps (sample_keeps (secOffer_keeps (persistTouch_keeps (State.setObj_keeps (State.setObj_keeps (wipeIsland_keeps h1))))))

/-- A request leads on in the life cycle (R495). -/
theorem lifeTarget_le {code dest : Nat} {s : State} (h : lifeTarget code s = some dest) : (s.fuses.lc ≤ 4 → s.fuses.lc ≤ dest) ∧ dest ≤ 4 := by
  obtain ⟨h1, h2⟩ := Option.filter_eq_some_iff.mp h
  simp only [decide_eq_true_eq] at h2
  refine ⟨fun _ => Nat.le_of_lt h2, ?_⟩
  unfold lifeAsked at h1
  dsimp only at h1
  repeat' split at h1
  all_goals (simp at h1; try subst h1)
  all_goals omega

theorem lifeRequest_keeps {s0 : State} {code : Nat} {due : Nat} {s : State} (hs : Keeps s0 s) : OptKeeps s0 (lifeRequest code due s).1 ∧ Keeps s0 (lifeRequest code due s).2 := by
  unfold lifeRequest
  have hu : Keeps s0 (s.setIsland { s.island with auth := [] }) := State.setIsland_keeps hs
  dsimp only
  split
  · exact ⟨OptKeeps.none, hu⟩
  · rename_i dest heq
    have h1 := lifeTarget_le heq
    exact ⟨OptKeeps.some (lifeChange_keeps hu h1.1 h1.2), hu⟩

theorem secureWrite_keeps {s0 : State} {ix : Nat} {sub : Nat} {due : Nat} {bs : List Byte} {s : State} (hs : Keeps s0 s) : OptKeeps s0 (secureWrite ix sub due bs s).1 ∧ Keeps s0 (secureWrite ix sub due bs s).2 := by
  unfold secureWrite
  try dsimp only
  repeat' first | intro _ | with_reducible first | assumption | refine Keeps.snd (by assumption) ?_ | refine OptKeeps.get (by assumption) ?_ | refine OptKeeps.getPair (by assumption) ?_ | apply Keeps.ite | apply And.intro | apply OptKeeps.none | apply OptKeeps.some | apply OptKeeps.ite | apply Keeps.ite | refine (lifeRequest_keeps ?_).1 | refine (lifeRequest_keeps ?_).2 | apply State.setIsland_keeps | apply State.fresh_keeps | apply secRelease_keeps | (rw [State.mk_marked]; first | apply Keeps.upd | apply Keeps.updTime | apply Keeps.updFree | apply Keeps.updOd | apply Keeps.updFuses) | exact Nat.le_refl _ | exact id | exact Nat.le_add_right _ _ | (exact mset_wf _ _ _ _ (by assumption)) | exact Nat.mod_lt _ (by decide) | exact ⟨Nat.le_refl _, by assumption⟩ | split | dsimp only

theorem islandAnswer_keeps {s0 : State} {q : SdoReq} {due : Nat} {s : State} (hs : Keeps s0 s) : Keeps s0 (islandAnswer q due s).2 := by
  unfold islandAnswer
  try dsimp only
  repeat' first | intro _ | with_reducible first | assumption | refine Keeps.snd (by assumption) ?_ | refine OptKeeps.get (by assumption) ?_ | apply OptKeeps.some | apply OptKeeps.none | refine OptKeeps.getPair (by assumption) ?_ | apply Keeps.ite | apply secureRefused_keeps | refine (secureWrite_keeps ?_).1 | refine (secureWrite_keeps ?_).2 | split | dsimp only

theorem execMailboxExchange_keeps {s0 : State} {ecc : Nat} {s : State} (hs : Keeps s0 s) : OutKeeps s0 (execMailboxExchange ecc s) := by
  unfold execMailboxExchange
  try dsimp only
  repeat' first | intro _ | with_reducible first | assumption | refine Keeps.snd (by assumption) ?_ | apply OutKeeps.done | apply OutKeeps.ite | apply Keeps.ite | apply State.interrupt_keeps | apply keepAnswer_keeps | apply raise_keeps | apply State.bump_keeps | apply islandAnswer_keeps | split | dsimp only

theorem execSecureResponseDue_keeps {s0 : State} {s : State} (hs : Keeps s0 s) : OutKeeps s0 (execSecureResponseDue s) := by
  unfold execSecureResponseDue
  try dsimp only
  repeat' first | intro _ | with_reducible first | assumption | apply OutKeeps.done | apply OutKeeps.ite | apply Keeps.ite | apply beginSegments_keeps | apply answered_keeps | (rw [State.mk_marked]; first | apply Keeps.upd | apply Keeps.updTime | apply Keeps.updFree | apply Keeps.updOd | apply Keeps.updFuses) | exact Nat.le_refl _ | exact id | exact Nat.le_add_right _ _ | (exact mset_wf _ _ _ _ (by assumption)) | exact Nat.mod_lt _ (by decide) | exact ⟨Nat.le_refl _, by assumption⟩ | split | dsimp only

theorem execSecurityReleaseWrite_keeps {s0 : State} {path : Nat} {v : Nat} {s : State} (hs : Keeps s0 s) : OutKeeps s0 (execSecurityReleaseWrite path v s) := by
  unfold execSecurityReleaseWrite
  try dsimp only
  repeat' first | intro _ | with_reducible first | assumption | apply OutKeeps.done | apply OutKeeps.ite | apply Keeps.ite | apply secureSend_keeps | split | dsimp only

theorem execTamperEvent_keeps {s0 : State} {s : State} (hs : Keeps s0 s) : OutKeeps s0 (execTamperEvent s) := by
  unfold execTamperEvent
  try dsimp only
  repeat' first | intro _ | with_reducible first | assumption | apply OutKeeps.done | apply OutKeeps.ite | apply Keeps.ite | apply wipeIsland_keeps | apply State.setIsland_keeps | apply sample_keeps | apply setCond_keeps | apply secOffer_keeps | split | dsimp only

theorem secureSegment_keeps {s0 : State} {q : SdoReq} {s : State} (hs : Keeps s0 s) : Keeps s0 (secureSegment q s) := by
  unfold secureSegment
  try dsimp only
  repeat' first | intro _ | with_reducible first | assumption | refine SegKeeps.get (by assumption) ?_ | apply Keeps.ite | apply sdoTurned_keeps | apply segment_keeps | apply secureRequest_keeps | apply State.setPath_keeps | split | dsimp only

end Sys2Proof.Machine
end

