-- ==== Sys2Proof/Laws/Keeps/Sdo.lean ====
section
/-! SUPPORT. What the operations of Machine/Sdo.lean keep: the queue, monotone time, free values and life cycle, and the invariant. -/

namespace Sys2Proof.Machine
open Sys2Proof
set_option linter.all false
set_option Elab.async false

theorem abortRequest_keeps {s0 : State} {path : Nat} {s : State} (hs : Keeps s0 s) : Keeps s0 (abortRequest path s) := by
  unfold abortRequest
  try dsimp only
  repeat' first | intro _ | with_reducible first | assumption | apply Keeps.ite | apply State.setPath_keeps | split | dsimp only

theorem blockRequest_keeps {s0 : State} {path : Nat} {ix : Nat} {sub : Nat} {s : State} (hs : Keeps s0 s) : Keeps s0 (blockRequest path ix sub s) := by
  unfold blockRequest
  try dsimp only
  repeat' first | intro _ | with_reducible first | assumption | apply Keeps.ite | apply secureRequest_keeps | apply sdoRequest_keeps | split | dsimp only

theorem execEmcyMailboxRead_keeps {s0 : State} {s : State} (hs : Keeps s0 s) : OutKeeps s0 (execEmcyMailboxRead s) := by
  unfold execEmcyMailboxRead
  try dsimp only
  repeat' first | intro _ | with_reducible first | assumption | apply OutKeeps.done | apply OutKeeps.ite | apply Keeps.ite | apply mailPump_keeps | (rw [State.mk_marked]; first | apply Keeps.upd | apply Keeps.updTime | apply Keeps.updFree | apply Keeps.updOd | apply Keeps.updFuses) | split | dsimp only

theorem execMailboxRepeatRequest_keeps {s0 : State} {s : State} (hs : Keeps s0 s) : OutKeeps s0 (execMailboxRepeatRequest s) := by
  unfold execMailboxRepeatRequest
  try dsimp only
  repeat' first | intro _ | with_reducible first | assumption | apply OutKeeps.done | apply OutKeeps.ite | apply Keeps.ite | (rw [State.mk_marked]; first | apply Keeps.upd | apply Keeps.updTime | apply Keeps.updFree | apply Keeps.updOd | apply Keeps.updFuses) | split | dsimp only

theorem writeRequest_keeps {s0 : State} {q : SdoReq} {size : Nat} {s : State} (hs : Keeps s0 s) : Keeps s0 (writeRequest q size s) := by
  unfold writeRequest
  try dsimp only
  repeat' first | intro _ | with_reducible first | assumption | apply Keeps.ite | apply anyRequest_keeps | apply secureRequest_keeps | apply sdoRequest_keeps | split | dsimp only

theorem execObjectWrite_keeps {s0 : State} {path : Nat} {ix : Nat} {sub : Nat} {size : Nat} {bs : FrameData} {s : State} (hs : Keeps s0 s) : OutKeeps s0 (execObjectWrite path ix sub size bs s) := by
  unfold execObjectWrite
  try dsimp only
  repeat' first | intro _ | with_reducible first | assumption | apply OutKeeps.done | apply OutKeeps.ite | apply Keeps.ite | apply writeRequest_keeps | split | dsimp only

theorem execSdoAbortRequest_keeps {s0 : State} {path : Nat} {s : State} (hs : Keeps s0 s) : OutKeeps s0 (execSdoAbortRequest path s) := by
  unfold execSdoAbortRequest
  try dsimp only
  repeat' first | intro _ | with_reducible first | assumption | apply OutKeeps.done | apply OutKeeps.ite | apply Keeps.ite | apply abortRequest_keeps | split | dsimp only

theorem execSdoBlockRequest_keeps {s0 : State} {path : Nat} {ix : Nat} {sub : Nat} {s : State} (hs : Keeps s0 s) : OutKeeps s0 (execSdoBlockRequest path ix sub s) := by
  unfold execSdoBlockRequest
  try dsimp only
  repeat' first | intro _ | with_reducible first | assumption | apply OutKeeps.done | apply OutKeeps.ite | apply Keeps.ite | apply blockRequest_keeps | split | dsimp only

theorem execSdoCompleteAccessRead_keeps {s0 : State} {path : Nat} {ix : Nat} {from1 : Bool} {ecc : Nat} {s : State} (hs : Keeps s0 s) : OutKeeps s0 (execSdoCompleteAccessRead path ix from1 ecc s) := by
  unfold execSdoCompleteAccessRead
  try dsimp only
  repeat' first | intro _ | with_reducible first | assumption | apply OutKeeps.done | apply OutKeeps.ite | apply Keeps.ite | apply anyRequest_keeps | split | dsimp only

theorem execSdoCompleteAccessWrite_keeps {s0 : State} {path : Nat} {ix : Nat} {from1 : Bool} {size : Nat} {bs : FrameData} {s : State} (hs : Keeps s0 s) : OutKeeps s0 (execSdoCompleteAccessWrite path ix from1 size bs s) := by
  unfold execSdoCompleteAccessWrite
  try dsimp only
  repeat' first | intro _ | with_reducible first | assumption | apply OutKeeps.done | apply OutKeeps.ite | apply Keeps.ite | apply writeRequest_keeps | split | dsimp only

theorem execSdoInfoEntryDesc_keeps {s0 : State} {ix : Nat} {sub : Nat} {s : State} (hs : Keeps s0 s) : OutKeeps s0 (execSdoInfoEntryDesc ix sub s) := by
  unfold execSdoInfoEntryDesc
  try dsimp only
  repeat' first | intro _ | with_reducible first | assumption | apply OutKeeps.done | apply OutKeeps.ite | apply Keeps.ite | apply anyRequest_keeps | split | dsimp only

theorem execSdoInfoObjectDesc_keeps {s0 : State} {ix : Nat} {s : State} (hs : Keeps s0 s) : OutKeeps s0 (execSdoInfoObjectDesc ix s) := by
  unfold execSdoInfoObjectDesc
  try dsimp only
  repeat' first | intro _ | with_reducible first | assumption | apply OutKeeps.done | apply OutKeeps.ite | apply Keeps.ite | apply anyRequest_keeps | split | dsimp only

theorem execSdoInfoObjectList_keeps {s0 : State} {typ : Nat} {s : State} (hs : Keeps s0 s) : OutKeeps s0 (execSdoInfoObjectList typ s) := by
  unfold execSdoInfoObjectList
  try dsimp only
  repeat' first | intro _ | with_reducible first | assumption | apply OutKeeps.done | apply OutKeeps.ite | apply Keeps.ite | apply sdoRequest_keeps | split | dsimp only

theorem segmentRequest_keeps {s0 : State} {path : Nat} {toggle : Bool} {last : Bool} {bs : List Byte} {s : State} (hs : Keeps s0 s) : Keeps s0 (segmentRequest path toggle last bs s) := by
  unfold segmentRequest
  try dsimp only
  repeat' first | intro _ | with_reducible first | assumption | apply Keeps.ite | apply secureSegment_keeps | apply sdoRequest_keeps | split | dsimp only

theorem execSdoSegment_keeps {s0 : State} {path : Nat} {toggle : Bool} {last : Bool} {bs : FrameData} {s : State} (hs : Keeps s0 s) : OutKeeps s0 (execSdoSegment path toggle last bs s) := by
  unfold execSdoSegment
  try dsimp only
  repeat' first | intro _ | with_reducible first | assumption | apply OutKeeps.done | apply OutKeeps.ite | apply Keeps.ite | apply segmentRequest_keeps | split | dsimp only

theorem execSdoSegmentTimeout_keeps {s0 : State} {path : Nat} {s : State} (hs : Keeps s0 s) : OutKeeps s0 (execSdoSegmentTimeout path s) := by
  unfold execSdoSegmentTimeout
  try dsimp only
  repeat' first | intro _ | with_reducible first | assumption | apply OutKeeps.done | apply OutKeeps.ite | apply Keeps.ite | apply Keeps.ok | apply Keeps.refuse | apply Keeps.iteR | apply answered_keeps | split | dsimp only

theorem execSdoUpload_keeps {s0 : State} {path : Nat} {ix : Nat} {sub : Nat} {ecc : Nat} {s : State} (hs : Keeps s0 s) : OutKeeps s0 (execSdoUpload path ix sub ecc s) := by
  unfold execSdoUpload
  try dsimp only
  repeat' first | intro _ | with_reducible first | assumption | apply OutKeeps.done | apply OutKeeps.ite | apply Keeps.ite | apply anyRequest_keeps | split | dsimp only

end Sys2Proof.Machine
end

