-- ==== Sys2Proof/Laws/Keeps/CanOpen.lean ====
section
/-! SUPPORT. What the operations of Machine/CanOpen.lean keep: the queue, monotone time, free values and life cycle, and the invariant. -/

namespace Sys2Proof.Machine
open Sys2Proof
set_option linter.all false
set_option Elab.async false

theorem canApply_keeps {s0 : State} {s : State} (hs : Keeps s0 s) : Keeps s0 (canApply s) := by
  unfold canApply
  try dsimp only
  repeat' first | intro _ | with_reducible first | assumption | apply Keeps.ite | apply State.setObj_keeps | apply serviceSend_keeps | (rw [State.mk_marked]; first | apply Keeps.upd | apply Keeps.updTime | apply Keeps.updFree | apply Keeps.updOd | apply Keeps.updFuses) | split | dsimp only

theorem canSdo_keeps {s0 : State} {d : List Byte} {s : State} (hs : Keeps s0 s) : Keeps s0 (canSdo d s) := by
  unfold canSdo
  try dsimp only
  repeat' first | intro _ | with_reducible first | assumption | apply Keeps.ite | apply segmentRequest_keeps | apply writeRequest_keeps | apply anyRequest_keeps | apply abortRequest_keeps | apply blockRequest_keeps | (rw [State.mk_marked]; first | apply Keeps.upd | apply Keeps.updTime | apply Keeps.updFree | apply Keeps.updOd | apply Keeps.updFuses) | split | dsimp only

theorem execCanBusOff_keeps {s0 : State} {s : State} (hs : Keeps s0 s) : OutKeeps s0 (execCanBusOff s) := by
  unfold execCanBusOff
  try dsimp only
  repeat' first | intro _ | with_reducible first | assumption | apply OutKeeps.done | apply OutKeeps.ite | apply Keeps.ite | apply raise_keeps | apply State.bump_keeps | apply State.setObj_keeps | split | dsimp only

theorem execCanBusOffRecovery_keeps {s0 : State} {s : State} (hs : Keeps s0 s) : OutKeeps s0 (execCanBusOffRecovery s) := by
  unfold execCanBusOffRecovery
  try dsimp only
  repeat' first | intro _ | with_reducible first | assumption | apply OutKeeps.done | apply OutKeeps.ite | apply Keeps.ite | apply State.setObj_keeps | split | dsimp only

theorem execCanEmcyFrameSent_keeps {s0 : State} {s : State} (hs : Keeps s0 s) : OutKeeps s0 (execCanEmcyFrameSent s) := by
  unfold execCanEmcyFrameSent
  try dsimp only
  repeat' first | intro _ | with_reducible first | assumption | apply OutKeeps.done | apply OutKeeps.ite | apply Keeps.ite | apply serviceSend_keeps | (rw [State.mk_marked]; first | apply Keeps.upd | apply Keeps.updTime | apply Keeps.updFree | apply Keeps.updOd | apply Keeps.updFuses) | split | dsimp only

theorem execCanFrameReceived_keeps {s0 : State} {w0 : Nat} {ago : Nat} {passive : Bool} {bs : FrameData} {s : State} (hs : Keeps s0 s) : OutKeeps s0 (execCanFrameReceived w0 ago passive bs s) := by
  unfold execCanFrameReceived
  try dsimp only
  repeat' first | intro _ | with_reducible first | assumption | apply OutKeeps.done | apply OutKeeps.ite | apply Keeps.ite | apply State.bump_keeps | apply State.setObj_keeps | apply canSdo_keeps | apply enterFree_keeps | apply Keeps.foldl | split | dsimp only

theorem execHeartbeatTimer_keeps {s0 : State} {s : State} (hs : Keeps s0 s) : OutKeeps s0 (execHeartbeatTimer s) := by
  unfold execHeartbeatTimer
  try dsimp only
  repeat' first | intro _ | with_reducible first | assumption | apply OutKeeps.done | apply OutKeeps.ite | apply Keeps.ite | apply serviceSend_keeps | (rw [State.mk_marked]; first | apply Keeps.upd | apply Keeps.updTime | apply Keeps.updFree | apply Keeps.updOd | apply Keeps.updFuses) | split | dsimp only

theorem execMpLoadWindow_keeps {s0 : State} {load : Nat} {s : State} (hs : Keeps s0 s) : OutKeeps s0 (execMpLoadWindow load s) := by
  unfold execMpLoadWindow
  try dsimp only
  repeat' first | intro _ | with_reducible first | assumption | apply OutKeeps.done | apply OutKeeps.ite | apply Keeps.ite | apply State.setObj_keeps | apply State.peak_keeps | apply State.bump_keeps | apply raise_keeps | (rw [State.mk_marked]; first | apply Keeps.upd | apply Keeps.updTime | apply Keeps.updFree | apply Keeps.updOd | apply Keeps.updFuses) | split | dsimp only

theorem nmtCommand_keeps {s0 : State} {target : Nat} {f : State → State} {s : State} (hf : ∀ v0, Keeps s0 v0 → Keeps s0 (f v0)) (hs : Keeps s0 s) : Keeps s0 (nmtCommand target f s) := by
  unfold nmtCommand
  try dsimp only
  repeat' first | intro _ | with_reducible first | assumption | apply hf | apply Keeps.ite | apply State.bump_keeps | split | dsimp only

theorem execNmtEnterPreOperational_keeps {s0 : State} {target : Nat} {s : State} (hs : Keeps s0 s) : OutKeeps s0 (execNmtEnterPreOperational target s) := by
  unfold execNmtEnterPreOperational
  try dsimp only
  repeat' first | intro _ | with_reducible first | assumption | apply OutKeeps.done | apply OutKeeps.ite | apply Keeps.ite | apply nmtCommand_keeps | apply State.setObj_keeps | split | dsimp only

theorem execNmtResetCommunication_keeps {s0 : State} {target : Nat} {s : State} (hs : Keeps s0 s) : OutKeeps s0 (execNmtResetCommunication target s) := by
  unfold execNmtResetCommunication
  try dsimp only
  repeat' first | intro _ | with_reducible first | assumption | apply OutKeeps.done | apply OutKeeps.ite | apply Keeps.ite | apply nmtCommand_keeps | apply canApply_keeps | split | dsimp only

theorem execNmtResetNode_keeps {s0 : State} {target : Nat} {s : State} (hs : Keeps s0 s) : OutKeeps s0 (execNmtResetNode target s) := by
  unfold execNmtResetNode
  try dsimp only
  repeat' first | intro _ | with_reducible first | assumption | apply OutKeeps.done | apply OutKeeps.ite | apply Keeps.ite | apply nmtCommand_keeps | apply canApply_keeps | split | dsimp only

theorem execNmtStartRemoteNode_keeps {s0 : State} {target : Nat} {s : State} (hs : Keeps s0 s) : OutKeeps s0 (execNmtStartRemoteNode target s) := by
  unfold execNmtStartRemoteNode
  try dsimp only
  repeat' first | intro _ | with_reducible first | assumption | apply OutKeeps.done | apply OutKeeps.ite | apply Keeps.ite | apply nmtCommand_keeps | apply State.setObj_keeps | split | dsimp only

theorem execNmtStopRemoteNode_keeps {s0 : State} {target : Nat} {s : State} (hs : Keeps s0 s) : OutKeeps s0 (execNmtStopRemoteNode target s) := by
  unfold execNmtStopRemoteNode
  try dsimp only
  repeat' first | intro _ | with_reducible first | assumption | apply OutKeeps.done | apply OutKeeps.ite | apply Keeps.ite | apply nmtCommand_keeps | apply State.setObj_keeps | split | dsimp only

theorem execOperatingTimeSecond_keeps {s0 : State} {s : State} (hs : Keeps s0 s) : OutKeeps s0 (execOperatingTimeSecond s) := by
  unfold execOperatingTimeSecond
  try dsimp only
  repeat' first | intro _ | with_reducible first | assumption | apply OutKeeps.done | apply OutKeeps.ite | apply Keeps.ite | apply State.setObj_keeps | apply persistTouch_keeps | (rw [State.mk_marked]; first | apply Keeps.upd | apply Keeps.updTime | apply Keeps.updFree | apply Keeps.updOd | apply Keeps.updFuses) | split | dsimp only

end Sys2Proof.Machine
end

