-- ==== Sys2Proof/Laws/Keeps/Flags.lean ====
section
/-! SUPPORT. What the operations of Machine/Flags.lean keep: the queue, monotone time, free values and life cycle, and the invariant. -/

namespace Sys2Proof.Machine
open Sys2Proof
set_option linter.all false
set_option Elab.async false

theorem bumpIf_keeps {s0 : State} {c : Bool} {sub : Nat} {s : State} (hs : Keeps s0 s) : Keeps s0 (bumpIf c sub s) := by
  unfold bumpIf
  try dsimp only
  repeat' first | intro _ | with_reducible first | assumption | apply Keeps.ite | apply State.bump_keeps | split | dsimp only

theorem countEvents_keeps {s0 : State} {r : FRes} {s : State} (hs : Keeps s0 s) : Keeps s0 (countEvents r s) := by
  unfold countEvents
  try dsimp only
  repeat' first | intro _ | with_reducible first | assumption | apply Keeps.ite | apply bumpIf_keeps | split | dsimp only

theorem noteMismatch_keeps {s0 : State} {m : Nat} {pos : Nat} {r : Run} {mem : Bool} {s : State} (hs : Keeps s0 s) : Keeps s0 (noteMismatch m pos r mem s) := by
  unfold noteMismatch
  try dsimp only
  repeat' first | intro _ | with_reducible first | assumption | apply Keeps.ite | apply State.setMotif_keeps | split | dsimp only

end Sys2Proof.Machine
end

