-- ==== Sys2Proof/Laws/Keeps/Cell.lean ====
section
/-! SUPPORT. What the operations of Machine/Cell.lean keep: the queue, monotone time, free values and life cycle, and the invariant. -/

namespace Sys2Proof.Machine
open Sys2Proof
set_option linter.all false
set_option Elab.async false

theorem endBeat_keeps {s0 : State} {op : Nat} {m : Nat} {pos : Nat} {fin : Nat → Nat → Run → State → State} {r : Run} {s : State} (hfin : ∀ v0 v1 v2 v3, Keeps s0 v3 → Keeps s0 (fin v0 v1 v2 v3)) (hs : Keeps s0 s) : Keeps s0 (endBeat op m pos fin r s) := by
  unfold endBeat
  try dsimp only
  repeat' first | intro _ | with_reducible first | assumption | apply hfin | apply Keeps.ite | apply State.setMotif_keeps | apply retireRun_keeps | split | dsimp only

theorem sendResults_keeps {s0 : State} {m : Nat} {pos : Nat} {r : Run} {s : State} (hs : Keeps s0 s) : Keeps s0 (sendResults m pos r s) := by
  unfold sendResults
  try dsimp only
  repeat' first | intro _ | with_reducible first | assumption | apply Keeps.ite | apply State.setMotif_keeps | split | dsimp only

theorem cancelBeat_keeps {s0 : State} {b : CellBeat} {s : State} (hs : Keeps s0 s) : Keeps s0 (cancelBeat b s) := by
  unfold cancelBeat
  try dsimp only
  repeat' first | intro _ | with_reducible first | assumption | apply Keeps.ite | apply State.setMotif_keeps | apply noteMismatch_keeps | apply endBeat_keeps | apply sendResults_keeps | split | dsimp only

theorem deliver_keeps {s0 : State} {op : Nat} {m : Nat} {pos : Nat} {dsts : List Nat} {fin : Nat → Nat → Run → State → State} {r : Run} {w : Word} {s : State} (hfin : ∀ v0 v1 v2 v3, Keeps s0 v3 → Keeps s0 (fin v0 v1 v2 v3)) (hs : Keeps s0 s) : Keeps s0 (deliver op m pos dsts fin r w s) := by
  unfold deliver
  try dsimp only
  repeat' first | intro _ | with_reducible first | assumption | apply hfin | apply Keeps.ite | apply endBeat_keeps | apply State.setMotif_keeps | apply Keeps.foldl | split | dsimp only

theorem dropBeat_keeps {s0 : State} {b : CellBeat} {s : State} (hs : Keeps s0 s) : Keeps s0 (dropBeat b s) := by
  unfold dropBeat
  try dsimp only
  repeat' first | intro _ | with_reducible first | assumption | apply Keeps.ite | apply noteMismatch_keeps | apply endBeat_keeps | apply sendResults_keeps | split | dsimp only

theorem plainBeat_keeps {s0 : State} {op : Nat} {f : BeatIn → FRes} {b : CellBeat} {s : State} (hs : Keeps s0 s) : Keeps s0 (plainBeat op f b s) := by
  unfold plainBeat
  try dsimp only
  repeat' first | intro _ | with_reducible first | assumption | apply Keeps.ite | apply countEvents_keeps | apply noteMismatch_keeps | apply deliver_keeps | apply sendResults_keeps | split | dsimp only

theorem execCellAbs_keeps {s0 : State} {b : CellBeat} {s : State} (hs : Keeps s0 s) : OutKeeps s0 (execCellAbs b s) := by
  unfold execCellAbs
  try dsimp only
  repeat' first | intro _ | with_reducible first | assumption | apply OutKeeps.done | apply OutKeeps.ite | apply Keeps.ite | apply plainBeat_keeps | split | dsimp only

theorem execCellAdd_keeps {s0 : State} {b : CellBeat} {s : State} (hs : Keeps s0 s) : OutKeeps s0 (execCellAdd b s) := by
  unfold execCellAdd
  try dsimp only
  repeat' first | intro _ | with_reducible first | assumption | apply OutKeeps.done | apply OutKeeps.ite | apply Keeps.ite | apply plainBeat_keeps | split | dsimp only

theorem execCellAdds_keeps {s0 : State} {b : CellBeat} {s : State} (hs : Keeps s0 s) : OutKeeps s0 (execCellAdds b s) := by
  unfold execCellAdds
  try dsimp only
  repeat' first | intro _ | with_reducible first | assumption | apply OutKeeps.done | apply OutKeeps.ite | apply Keeps.ite | apply plainBeat_keeps | split | dsimp only

theorem execCellAddsu_keeps {s0 : State} {b : CellBeat} {s : State} (hs : Keeps s0 s) : OutKeeps s0 (execCellAddsu b s) := by
  unfold execCellAddsu
  try dsimp only
  repeat' first | intro _ | with_reducible first | assumption | apply OutKeeps.done | apply OutKeeps.ite | apply Keeps.ite | apply plainBeat_keeps | split | dsimp only

theorem execCellAnd_keeps {s0 : State} {b : CellBeat} {s : State} (hs : Keeps s0 s) : OutKeeps s0 (execCellAnd b s) := by
  unfold execCellAnd
  try dsimp only
  repeat' first | intro _ | with_reducible first | assumption | apply OutKeeps.done | apply OutKeeps.ite | apply Keeps.ite | apply plainBeat_keeps | split | dsimp only

theorem execCellAndn_keeps {s0 : State} {b : CellBeat} {s : State} (hs : Keeps s0 s) : OutKeeps s0 (execCellAndn b s) := by
  unfold execCellAndn
  try dsimp only
  repeat' first | intro _ | with_reducible first | assumption | apply OutKeeps.done | apply OutKeeps.ite | apply Keeps.ite | apply plainBeat_keeps | split | dsimp only

theorem execCellCancel_keeps {s0 : State} {b : CellBeat} {s : State} (hs : Keeps s0 s) : OutKeeps s0 (execCellCancel b s) := by
  unfold execCellCancel
  try dsimp only
  repeat' first | intro _ | with_reducible first | assumption | apply OutKeeps.done | apply OutKeeps.ite | apply Keeps.ite | apply cancelBeat_keeps | split | dsimp only

theorem execCellClz_keeps {s0 : State} {b : CellBeat} {s : State} (hs : Keeps s0 s) : OutKeeps s0 (execCellClz b s) := by
  unfold execCellClz
  try dsimp only
  repeat' first | intro _ | with_reducible first | assumption | apply OutKeeps.done | apply OutKeeps.ite | apply Keeps.ite | apply plainBeat_keeps | split | dsimp only

theorem execCellCmpeq_keeps {s0 : State} {b : CellBeat} {s : State} (hs : Keeps s0 s) : OutKeeps s0 (execCellCmpeq b s) := by
  unfold execCellCmpeq
  try dsimp only
  repeat' first | intro _ | with_reducible first | assumption | apply OutKeeps.done | apply OutKeeps.ite | apply Keeps.ite | apply plainBeat_keeps | split | dsimp only

theorem execCellCmple_keeps {s0 : State} {b : CellBeat} {s : State} (hs : Keeps s0 s) : OutKeeps s0 (execCellCmple b s) := by
  unfold execCellCmple
  try dsimp only
  repeat' first | intro _ | with_reducible first | assumption | apply OutKeeps.done | apply OutKeeps.ite | apply Keeps.ite | apply plainBeat_keeps | split | dsimp only

theorem execCellCmpleu_keeps {s0 : State} {b : CellBeat} {s : State} (hs : Keeps s0 s) : OutKeeps s0 (execCellCmpleu b s) := by
  unfold execCellCmpleu
  try dsimp only
  repeat' first | intro _ | with_reducible first | assumption | apply OutKeeps.done | apply OutKeeps.ite | apply Keeps.ite | apply plainBeat_keeps | split | dsimp only

theorem execCellCmplt_keeps {s0 : State} {b : CellBeat} {s : State} (hs : Keeps s0 s) : OutKeeps s0 (execCellCmplt b s) := by
  unfold execCellCmplt
  try dsimp only
  repeat' first | intro _ | with_reducible first | assumption | apply OutKeeps.done | apply OutKeeps.ite | apply Keeps.ite | apply plainBeat_keeps | split | dsimp only

theorem execCellCmpltu_keeps {s0 : State} {b : CellBeat} {s : State} (hs : Keeps s0 s) : OutKeeps s0 (execCellCmpltu b s) := by
  unfold execCellCmpltu
  try dsimp only
  repeat' first | intro _ | with_reducible first | assumption | apply OutKeeps.done | apply OutKeeps.ite | apply Keeps.ite | apply plainBeat_keeps | split | dsimp only

theorem execCellCmpne_keeps {s0 : State} {b : CellBeat} {s : State} (hs : Keeps s0 s) : OutKeeps s0 (execCellCmpne b s) := by
  unfold execCellCmpne
  try dsimp only
  repeat' first | intro _ | with_reducible first | assumption | apply OutKeeps.done | apply OutKeeps.ite | apply Keeps.ite | apply plainBeat_keeps | split | dsimp only

theorem execCellDrop_keeps {s0 : State} {b : CellBeat} {s : State} (hs : Keeps s0 s) : OutKeeps s0 (execCellDrop b s) := by
  unfold execCellDrop
  try dsimp only
  repeat' first | intro _ | with_reducible first | assumption | apply OutKeeps.done | apply OutKeeps.ite | apply Keeps.ite | apply dropBeat_keeps | split | dsimp only

theorem execCellFabs_keeps {s0 : State} {b : CellBeat} {s : State} (hs : Keeps s0 s) : OutKeeps s0 (execCellFabs b s) := by
  unfold execCellFabs
  try dsimp only
  repeat' first | intro _ | with_reducible first | assumption | apply OutKeeps.done | apply OutKeeps.ite | apply Keeps.ite | apply plainBeat_keeps | split | dsimp only

theorem execCellFadd_keeps {s0 : State} {b : CellBeat} {s : State} (hs : Keeps s0 s) : OutKeeps s0 (execCellFadd b s) := by
  unfold execCellFadd
  try dsimp only
  repeat' first | intro _ | with_reducible first | assumption | apply OutKeeps.done | apply OutKeeps.ite | apply Keeps.ite | apply plainBeat_keeps | split | dsimp only

theorem execCellFclass_keeps {s0 : State} {b : CellBeat} {s : State} (hs : Keeps s0 s) : OutKeeps s0 (execCellFclass b s) := by
  unfold execCellFclass
  try dsimp only
  repeat' first | intro _ | with_reducible first | assumption | apply OutKeeps.done | apply OutKeeps.ite | apply Keeps.ite | apply plainBeat_keeps | split | dsimp only

theorem execCellFcmpeq_keeps {s0 : State} {b : CellBeat} {s : State} (hs : Keeps s0 s) : OutKeeps s0 (execCellFcmpeq b s) := by
  unfold execCellFcmpeq
  try dsimp only
  repeat' first | intro _ | with_reducible first | assumption | apply OutKeeps.done | apply OutKeeps.ite | apply Keeps.ite | apply plainBeat_keeps | split | dsimp only

theorem execCellFcmple_keeps {s0 : State} {b : CellBeat} {s : State} (hs : Keeps s0 s) : OutKeeps s0 (execCellFcmple b s) := by
  unfold execCellFcmple
  try dsimp only
  repeat' first | intro _ | with_reducible first | assumption | apply OutKeeps.done | apply OutKeeps.ite | apply Keeps.ite | apply plainBeat_keeps | split | dsimp only

theorem execCellFcmplt_keeps {s0 : State} {b : CellBeat} {s : State} (hs : Keeps s0 s) : OutKeeps s0 (execCellFcmplt b s) := by
  unfold execCellFcmplt
  try dsimp only
  repeat' first | intro _ | with_reducible first | assumption | apply OutKeeps.done | apply OutKeeps.ite | apply Keeps.ite | apply plainBeat_keeps | split | dsimp only

theorem execCellFma_keeps {s0 : State} {b : CellBeat} {s : State} (hs : Keeps s0 s) : OutKeeps s0 (execCellFma b s) := by
  unfold execCellFma
  try dsimp only
  repeat' first | intro _ | with_reducible first | assumption | apply OutKeeps.done | apply OutKeeps.ite | apply Keeps.ite | apply plainBeat_keeps | split | dsimp only

theorem execCellFmax_keeps {s0 : State} {b : CellBeat} {s : State} (hs : Keeps s0 s) : OutKeeps s0 (execCellFmax b s) := by
  unfold execCellFmax
  try dsimp only
  repeat' first | intro _ | with_reducible first | assumption | apply OutKeeps.done | apply OutKeeps.ite | apply Keeps.ite | apply plainBeat_keeps | split | dsimp only

theorem execCellFmin_keeps {s0 : State} {b : CellBeat} {s : State} (hs : Keeps s0 s) : OutKeeps s0 (execCellFmin b s) := by
  unfold execCellFmin
  try dsimp only
  repeat' first | intro _ | with_reducible first | assumption | apply OutKeeps.done | apply OutKeeps.ite | apply Keeps.ite | apply plainBeat_keeps | split | dsimp only

theorem execCellFms_keeps {s0 : State} {b : CellBeat} {s : State} (hs : Keeps s0 s) : OutKeeps s0 (execCellFms b s) := by
  unfold execCellFms
  try dsimp only
  repeat' first | intro _ | with_reducible first | assumption | apply OutKeeps.done | apply OutKeeps.ite | apply Keeps.ite | apply plainBeat_keeps | split | dsimp only

theorem execCellFmul_keeps {s0 : State} {b : CellBeat} {s : State} (hs : Keeps s0 s) : OutKeeps s0 (execCellFmul b s) := by
  unfold execCellFmul
  try dsimp only
  repeat' first | intro _ | with_reducible first | assumption | apply OutKeeps.done | apply OutKeeps.ite | apply Keeps.ite | apply plainBeat_keeps | split | dsimp only

theorem execCellFneg_keeps {s0 : State} {b : CellBeat} {s : State} (hs : Keeps s0 s) : OutKeeps s0 (execCellFneg b s) := by
  unfold execCellFneg
  try dsimp only
  repeat' first | intro _ | with_reducible first | assumption | apply OutKeeps.done | apply OutKeeps.ite | apply Keeps.ite | apply plainBeat_keeps | split | dsimp only

theorem execCellFnma_keeps {s0 : State} {b : CellBeat} {s : State} (hs : Keeps s0 s) : OutKeeps s0 (execCellFnma b s) := by
  unfold execCellFnma
  try dsimp only
  repeat' first | intro _ | with_reducible first | assumption | apply OutKeeps.done | apply OutKeeps.ite | apply Keeps.ite | apply plainBeat_keeps | split | dsimp only

theorem execCellFsub_keeps {s0 : State} {b : CellBeat} {s : State} (hs : Keeps s0 s) : OutKeeps s0 (execCellFsub b s) := by
  unfold execCellFsub
  try dsimp only
  repeat' first | intro _ | with_reducible first | assumption | apply OutKeeps.done | apply OutKeeps.ite | apply Keeps.ite | apply plainBeat_keeps | split | dsimp only

theorem execCellFtoi_keeps {s0 : State} {b : CellBeat} {s : State} (hs : Keeps s0 s) : OutKeeps s0 (execCellFtoi b s) := by
  unfold execCellFtoi
  try dsimp only
  repeat' first | intro _ | with_reducible first | assumption | apply OutKeeps.done | apply OutKeeps.ite | apply Keeps.ite | apply plainBeat_keeps | split | dsimp only

theorem execCellFtoir_keeps {s0 : State} {b : CellBeat} {s : State} (hs : Keeps s0 s) : OutKeeps s0 (execCellFtoir b s) := by
  unfold execCellFtoir
  try dsimp only
  repeat' first | intro _ | with_reducible first | assumption | apply OutKeeps.done | apply OutKeeps.ite | apply Keeps.ite | apply plainBeat_keeps | split | dsimp only

theorem sendGather_keeps {s0 : State} {m : Nat} {pos : Nat} {q : Run} {s : State} (hs : Keeps s0 s) : Keeps s0 (sendGather m pos q s) := by
  unfold sendGather
  try dsimp only
  repeat' first | intro _ | with_reducible first | assumption | apply Keeps.ite | apply State.setMotif_keeps | split | dsimp only

theorem gatherBeat_keeps {s0 : State} {b : CellBeat} {s : State} (hs : Keeps s0 s) : Keeps s0 (gatherBeat b s) := by
  unfold gatherBeat
  try dsimp only
  repeat' first | intro _ | with_reducible first | assumption | apply Keeps.ite | apply noteMismatch_keeps | apply endBeat_keeps | apply sendGather_keeps | split | dsimp only

theorem execCellGather_keeps {s0 : State} {b : CellBeat} {s : State} (hs : Keeps s0 s) : OutKeeps s0 (execCellGather b s) := by
  unfold execCellGather
  try dsimp only
  repeat' first | intro _ | with_reducible first | assumption | apply OutKeeps.done | apply OutKeeps.ite | apply Keeps.ite | apply gatherBeat_keeps | split | dsimp only

theorem execCellItof_keeps {s0 : State} {b : CellBeat} {s : State} (hs : Keeps s0 s) : OutKeeps s0 (execCellItof b s) := by
  unfold execCellItof
  try dsimp only
  repeat' first | intro _ | with_reducible first | assumption | apply OutKeeps.done | apply OutKeeps.ite | apply Keeps.ite | apply plainBeat_keeps | split | dsimp only

theorem stoppedLanes_keeps {s0 : State} {b : CellBeat} {r : Run} {s : State} (hs : Keeps s0 s) : Keeps s0 (stoppedLanes b r s) := by
  unfold stoppedLanes
  try dsimp only
  repeat' first | intro _ | with_reducible first | assumption | apply Keeps.ite | apply noteMismatch_keeps | split | dsimp only

theorem failRequest_keeps {s0 : State} {op : Nat} {b : CellBeat} {r : Run} {s : State} (hs : Keeps s0 s) : Keeps s0 (failRequest op b r s) := by
  unfold failRequest
  try dsimp only
  repeat' first | intro _ | with_reducible first | assumption | apply Keeps.ite | apply noteMismatch_keeps | apply endBeat_keeps | apply sendResults_keeps | split | dsimp only

theorem faultBeat_keeps {s0 : State} {op : Nat} {b : CellBeat} {r : Run} {c : Cause} {s : State} (hs : Keeps s0 s) : Keeps s0 (faultBeat op b r c s) := by
  unfold faultBeat
  try dsimp only
  repeat' first | intro _ | with_reducible first | assumption | apply Keeps.ite | apply endBeat_keeps | apply sendResults_keeps | apply motifAbort_keeps | split | dsimp only

theorem loadBeat_keeps {s0 : State} {b : CellBeat} {s : State} (hs : Keeps s0 s) : Keeps s0 (loadBeat b s) := by
  unfold loadBeat
  try dsimp only
  repeat' first | intro _ | with_reducible first | assumption | refine Keeps.snd (by assumption) ?_ | apply Keeps.ite | apply deliver_keeps | apply sendResults_keeps | apply noteMismatch_keeps | apply endBeat_keeps | apply stoppedLanes_keeps | apply failRequest_keeps | apply faultBeat_keeps | apply sbBad_keeps | apply sramCorrected_keeps | apply atBank_keeps | apply spRead_keeps | apply raise_keeps | split | dsimp only

theorem execCellLd_keeps {s0 : State} {b : CellBeat} {s : State} (hs : Keeps s0 s) : OutKeeps s0 (execCellLd b s) := by
  unfold execCellLd
  try dsimp only
  repeat' first | intro _ | with_reducible first | assumption | apply OutKeeps.done | apply OutKeeps.ite | apply Keeps.ite | apply loadBeat_keeps | split | dsimp only

theorem execCellLut_keeps {s0 : State} {b : CellBeat} {s : State} (hs : Keeps s0 s) : OutKeeps s0 (execCellLut b s) := by
  unfold execCellLut
  try dsimp only
  repeat' first | intro _ | with_reducible first | assumption | apply OutKeeps.done | apply OutKeeps.ite | apply Keeps.ite | apply plainBeat_keeps | split | dsimp only

theorem execCellLut4_keeps {s0 : State} {b : CellBeat} {s : State} (hs : Keeps s0 s) : OutKeeps s0 (execCellLut4 b s) := by
  unfold execCellLut4
  try dsimp only
  repeat' first | intro _ | with_reducible first | assumption | apply OutKeeps.done | apply OutKeeps.ite | apply Keeps.ite | apply plainBeat_keeps | split | dsimp only

theorem macBeat_keeps {s0 : State} {op : Nat} {signed : Bool} {sub : Bool} {clear : Bool} {b : CellBeat} {s : State} (hs : Keeps s0 s) : Keeps s0 (macBeat op signed sub clear b s) := by
  unfold macBeat
  try dsimp only
  repeat' first | intro _ | with_reducible first | assumption | apply Keeps.ite | apply noteMismatch_keeps | apply State.setMotif_keeps | apply endBeat_keeps | apply sendResults_keeps | apply deliver_keeps | apply countEvents_keeps | split | dsimp only

theorem execCellMac2_keeps {s0 : State} {b : CellBeat} {s : State} (hs : Keeps s0 s) : OutKeeps s0 (execCellMac2 b s) := by
  unfold execCellMac2
  try dsimp only
  repeat' first | intro _ | with_reducible first | assumption | apply OutKeeps.done | apply OutKeeps.ite | apply Keeps.ite | apply macBeat_keeps | split | dsimp only

theorem execCellMac2u_keeps {s0 : State} {b : CellBeat} {s : State} (hs : Keeps s0 s) : OutKeeps s0 (execCellMac2u b s) := by
  unfold execCellMac2u
  try dsimp only
  repeat' first | intro _ | with_reducible first | assumption | apply OutKeeps.done | apply OutKeeps.ite | apply Keeps.ite | apply macBeat_keeps | split | dsimp only

theorem execCellMac2z_keeps {s0 : State} {b : CellBeat} {s : State} (hs : Keeps s0 s) : OutKeeps s0 (execCellMac2z b s) := by
  unfold execCellMac2z
  try dsimp only
  repeat' first | intro _ | with_reducible first | assumption | apply OutKeeps.done | apply OutKeeps.ite | apply Keeps.ite | apply macBeat_keeps | split | dsimp only

theorem execCellMax_keeps {s0 : State} {b : CellBeat} {s : State} (hs : Keeps s0 s) : OutKeeps s0 (execCellMax b s) := by
  unfold execCellMax
  try dsimp only
  repeat' first | intro _ | with_reducible first | assumption | apply OutKeeps.done | apply OutKeeps.ite | apply Keeps.ite | apply plainBeat_keeps | split | dsimp only

theorem execCellMaxu_keeps {s0 : State} {b : CellBeat} {s : State} (hs : Keeps s0 s) : OutKeeps s0 (execCellMaxu b s) := by
  unfold execCellMaxu
  try dsimp only
  repeat' first | intro _ | with_reducible first | assumption | apply OutKeeps.done | apply OutKeeps.ite | apply Keeps.ite | apply plainBeat_keeps | split | dsimp only

theorem execCellMin_keeps {s0 : State} {b : CellBeat} {s : State} (hs : Keeps s0 s) : OutKeeps s0 (execCellMin b s) := by
  unfold execCellMin
  try dsimp only
  repeat' first | intro _ | with_reducible first | assumption | apply OutKeeps.done | apply OutKeeps.ite | apply Keeps.ite | apply plainBeat_keeps | split | dsimp only

theorem execCellMinu_keeps {s0 : State} {b : CellBeat} {s : State} (hs : Keeps s0 s) : OutKeeps s0 (execCellMinu b s) := by
  unfold execCellMinu
  try dsimp only
  repeat' first | intro _ | with_reducible first | assumption | apply OutKeeps.done | apply OutKeeps.ite | apply Keeps.ite | apply plainBeat_keeps | split | dsimp only

theorem execCellMsu2_keeps {s0 : State} {b : CellBeat} {s : State} (hs : Keeps s0 s) : OutKeeps s0 (execCellMsu2 b s) := by
  unfold execCellMsu2
  try dsimp only
  repeat' first | intro _ | with_reducible first | assumption | apply OutKeeps.done | apply OutKeeps.ite | apply Keeps.ite | apply macBeat_keeps | split | dsimp only

theorem execCellMul_keeps {s0 : State} {b : CellBeat} {s : State} (hs : Keeps s0 s) : OutKeeps s0 (execCellMul b s) := by
  unfold execCellMul
  try dsimp only
  repeat' first | intro _ | with_reducible first | assumption | apply OutKeeps.done | apply OutKeeps.ite | apply Keeps.ite | apply plainBeat_keeps | split | dsimp only

theorem execCellMulh_keeps {s0 : State} {b : CellBeat} {s : State} (hs : Keeps s0 s) : OutKeeps s0 (execCellMulh b s) := by
  unfold execCellMulh
  try dsimp only
  repeat' first | intro _ | with_reducible first | assumption | apply OutKeeps.done | apply OutKeeps.ite | apply Keeps.ite | apply plainBeat_keeps | split | dsimp only

theorem execCellMulhu_keeps {s0 : State} {b : CellBeat} {s : State} (hs : Keeps s0 s) : OutKeeps s0 (execCellMulhu b s) := by
  unfold execCellMulhu
  try dsimp only
  repeat' first | intro _ | with_reducible first | assumption | apply OutKeeps.done | apply OutKeeps.ite | apply Keeps.ite | apply plainBeat_keeps | split | dsimp only

theorem execCellNeg_keeps {s0 : State} {b : CellBeat} {s : State} (hs : Keeps s0 s) : OutKeeps s0 (execCellNeg b s) := by
  unfold execCellNeg
  try dsimp only
  repeat' first | intro _ | with_reducible first | assumption | apply OutKeeps.done | apply OutKeeps.ite | apply Keeps.ite | apply plainBeat_keeps | split | dsimp only

theorem execCellNot_keeps {s0 : State} {b : CellBeat} {s : State} (hs : Keeps s0 s) : OutKeeps s0 (execCellNot b s) := by
  unfold execCellNot
  try dsimp only
  repeat' first | intro _ | with_reducible first | assumption | apply OutKeeps.done | apply OutKeeps.ite | apply Keeps.ite | apply plainBeat_keeps | split | dsimp only

theorem execCellOr_keeps {s0 : State} {b : CellBeat} {s : State} (hs : Keeps s0 s) : OutKeeps s0 (execCellOr b s) := by
  unfold execCellOr
  try dsimp only
  repeat' first | intro _ | with_reducible first | assumption | apply OutKeeps.done | apply OutKeeps.ite | apply Keeps.ite | apply plainBeat_keeps | split | dsimp only

theorem execCellPass_keeps {s0 : State} {b : CellBeat} {s : State} (hs : Keeps s0 s) : OutKeeps s0 (execCellPass b s) := by
  unfold execCellPass
  try dsimp only
  repeat' first | intro _ | with_reducible first | assumption | apply OutKeeps.done | apply OutKeeps.ite | apply Keeps.ite | apply plainBeat_keeps | split | dsimp only

theorem execCellQmul16_keeps {s0 : State} {b : CellBeat} {s : State} (hs : Keeps s0 s) : OutKeeps s0 (execCellQmul16 b s) := by
  unfold execCellQmul16
  try dsimp only
  repeat' first | intro _ | with_reducible first | assumption | apply OutKeeps.done | apply OutKeeps.ite | apply Keeps.ite | apply plainBeat_keeps | split | dsimp only

theorem execCellQmul31_keeps {s0 : State} {b : CellBeat} {s : State} (hs : Keeps s0 s) : OutKeeps s0 (execCellQmul31 b s) := by
  unfold execCellQmul31
  try dsimp only
  repeat' first | intro _ | with_reducible first | assumption | apply OutKeeps.done | apply OutKeeps.ite | apply Keeps.ite | apply plainBeat_keeps | split | dsimp only

theorem execCellRdacc_keeps {s0 : State} {b : CellBeat} {s : State} (hs : Keeps s0 s) : OutKeeps s0 (execCellRdacc b s) := by
  unfold execCellRdacc
  try dsimp only
  repeat' first | intro _ | with_reducible first | assumption | apply OutKeeps.done | apply OutKeeps.ite | apply Keeps.ite | apply plainBeat_keeps | split | dsimp only

theorem execCellRol_keeps {s0 : State} {b : CellBeat} {s : State} (hs : Keeps s0 s) : OutKeeps s0 (execCellRol b s) := by
  unfold execCellRol
  try dsimp only
  repeat' first | intro _ | with_reducible first | assumption | apply OutKeeps.done | apply OutKeeps.ite | apply Keeps.ite | apply plainBeat_keeps | split | dsimp only

theorem execCellRor_keeps {s0 : State} {b : CellBeat} {s : State} (hs : Keeps s0 s) : OutKeeps s0 (execCellRor b s) := by
  unfold execCellRor
  try dsimp only
  repeat' first | intro _ | with_reducible first | assumption | apply OutKeeps.done | apply OutKeeps.ite | apply Keeps.ite | apply plainBeat_keeps | split | dsimp only

theorem execCellSadd_keeps {s0 : State} {b : CellBeat} {s : State} (hs : Keeps s0 s) : OutKeeps s0 (execCellSadd b s) := by
  unfold execCellSadd
  try dsimp only
  repeat' first | intro _ | with_reducible first | assumption | apply OutKeeps.done | apply OutKeeps.ite | apply Keeps.ite | apply plainBeat_keeps | split | dsimp only

theorem execCellSar_keeps {s0 : State} {b : CellBeat} {s : State} (hs : Keeps s0 s) : OutKeeps s0 (execCellSar b s) := by
  unfold execCellSar
  try dsimp only
  repeat' first | intro _ | with_reducible first | assumption | apply OutKeeps.done | apply OutKeeps.ite | apply Keeps.ite | apply plainBeat_keeps | split | dsimp only

theorem execCellSats_keeps {s0 : State} {b : CellBeat} {s : State} (hs : Keeps s0 s) : OutKeeps s0 (execCellSats b s) := by
  unfold execCellSats
  try dsimp only
  repeat' first | intro _ | with_reducible first | assumption | apply OutKeeps.done | apply OutKeeps.ite | apply Keeps.ite | apply plainBeat_keeps | split | dsimp only

theorem execCellSatu_keeps {s0 : State} {b : CellBeat} {s : State} (hs : Keeps s0 s) : OutKeeps s0 (execCellSatu b s) := by
  unfold execCellSatu
  try dsimp only
  repeat' first | intro _ | with_reducible first | assumption | apply OutKeeps.done | apply OutKeeps.ite | apply Keeps.ite | apply plainBeat_keeps | split | dsimp only

theorem execCellSdiff_keeps {s0 : State} {b : CellBeat} {s : State} (hs : Keeps s0 s) : OutKeeps s0 (execCellSdiff b s) := by
  unfold execCellSdiff
  try dsimp only
  repeat' first | intro _ | with_reducible first | assumption | apply OutKeeps.done | apply OutKeeps.ite | apply Keeps.ite | apply plainBeat_keeps | split | dsimp only

theorem execCellSearlier_keeps {s0 : State} {b : CellBeat} {s : State} (hs : Keeps s0 s) : OutKeeps s0 (execCellSearlier b s) := by
  unfold execCellSearlier
  try dsimp only
  repeat' first | intro _ | with_reducible first | assumption | apply OutKeeps.done | apply OutKeeps.ite | apply Keeps.ite | apply plainBeat_keeps | split | dsimp only

theorem execCellSel_keeps {s0 : State} {b : CellBeat} {s : State} (hs : Keeps s0 s) : OutKeeps s0 (execCellSel b s) := by
  unfold execCellSel
  try dsimp only
  repeat' first | intro _ | with_reducible first | assumption | apply OutKeeps.done | apply OutKeeps.ite | apply Keeps.ite | apply plainBeat_keeps | split | dsimp only

theorem execCellShl_keeps {s0 : State} {b : CellBeat} {s : State} (hs : Keeps s0 s) : OutKeeps s0 (execCellShl b s) := by
  unfold execCellShl
  try dsimp only
  repeat' first | intro _ | with_reducible first | assumption | apply OutKeeps.done | apply OutKeeps.ite | apply Keeps.ite | apply plainBeat_keeps | split | dsimp only

theorem execCellShr_keeps {s0 : State} {b : CellBeat} {s : State} (hs : Keeps s0 s) : OutKeeps s0 (execCellShr b s) := by
  unfold execCellShr
  try dsimp only
  repeat' first | intro _ | with_reducible first | assumption | apply OutKeeps.done | apply OutKeeps.ite | apply Keeps.ite | apply plainBeat_keeps | split | dsimp only

theorem execCellSlater_keeps {s0 : State} {b : CellBeat} {s : State} (hs : Keeps s0 s) : OutKeeps s0 (execCellSlater b s) := by
  unfold execCellSlater
  try dsimp only
  repeat' first | intro _ | with_reducible first | assumption | apply OutKeeps.done | apply OutKeeps.ite | apply Keeps.ite | apply plainBeat_keeps | split | dsimp only

theorem execCellSle_keeps {s0 : State} {b : CellBeat} {s : State} (hs : Keeps s0 s) : OutKeeps s0 (execCellSle b s) := by
  unfold execCellSle
  try dsimp only
  repeat' first | intro _ | with_reducible first | assumption | apply OutKeeps.done | apply OutKeeps.ite | apply Keeps.ite | apply plainBeat_keeps | split | dsimp only

theorem execCellSlt_keeps {s0 : State} {b : CellBeat} {s : State} (hs : Keeps s0 s) : OutKeeps s0 (execCellSlt b s) := by
  unfold execCellSlt
  try dsimp only
  repeat' first | intro _ | with_reducible first | assumption | apply OutKeeps.done | apply OutKeeps.ite | apply Keeps.ite | apply plainBeat_keeps | split | dsimp only

theorem storeBeat_keeps {s0 : State} {b : CellBeat} {s : State} (hs : Keeps s0 s) : Keeps s0 (storeBeat b s) := by
  unfold storeBeat
  try dsimp only
  repeat' first | intro _ | with_reducible first | assumption | apply Keeps.ite | apply endBeat_keeps | apply sendResults_keeps | apply stoppedLanes_keeps | apply failRequest_keeps | apply faultBeat_keeps | apply atBank_keeps | apply spStore_keeps | apply State.setMotif_keeps | split | dsimp only

theorem execCellSt_keeps {s0 : State} {b : CellBeat} {s : State} (hs : Keeps s0 s) : OutKeeps s0 (execCellSt b s) := by
  unfold execCellSt
  try dsimp only
  repeat' first | intro _ | with_reducible first | assumption | apply OutKeeps.done | apply OutKeeps.ite | apply Keeps.ite | apply storeBeat_keeps | split | dsimp only

theorem sendSteer_keeps {s0 : State} {m : Nat} {pos : Nat} {r : Run} {s : State} (hs : Keeps s0 s) : Keeps s0 (sendSteer m pos r s) := by
  unfold sendSteer
  try dsimp only
  repeat' first | intro _ | with_reducible first | assumption | apply Keeps.ite | apply State.setMotif_keeps | split | dsimp only

theorem steerBeat_keeps {s0 : State} {b : CellBeat} {s : State} (hs : Keeps s0 s) : Keeps s0 (steerBeat b s) := by
  unfold steerBeat
  try dsimp only
  repeat' first | intro _ | with_reducible first | assumption | apply Keeps.ite | apply noteMismatch_keeps | apply deliver_keeps | apply sendSteer_keeps | split | dsimp only

theorem execCellSteer_keeps {s0 : State} {b : CellBeat} {s : State} (hs : Keeps s0 s) : OutKeeps s0 (execCellSteer b s) := by
  unfold execCellSteer
  try dsimp only
  repeat' first | intro _ | with_reducible first | assumption | apply OutKeeps.done | apply OutKeeps.ite | apply Keeps.ite | apply steerBeat_keeps | split | dsimp only

theorem execCellSub_keeps {s0 : State} {b : CellBeat} {s : State} (hs : Keeps s0 s) : OutKeeps s0 (execCellSub b s) := by
  unfold execCellSub
  try dsimp only
  repeat' first | intro _ | with_reducible first | assumption | apply OutKeeps.done | apply OutKeeps.ite | apply Keeps.ite | apply plainBeat_keeps | split | dsimp only

theorem execCellSubs_keeps {s0 : State} {b : CellBeat} {s : State} (hs : Keeps s0 s) : OutKeeps s0 (execCellSubs b s) := by
  unfold execCellSubs
  try dsimp only
  repeat' first | intro _ | with_reducible first | assumption | apply OutKeeps.done | apply OutKeeps.ite | apply Keeps.ite | apply plainBeat_keeps | split | dsimp only

theorem execCellSubsu_keeps {s0 : State} {b : CellBeat} {s : State} (hs : Keeps s0 s) : OutKeeps s0 (execCellSubsu b s) := by
  unfold execCellSubsu
  try dsimp only
  repeat' first | intro _ | with_reducible first | assumption | apply OutKeeps.done | apply OutKeeps.ite | apply Keeps.ite | apply plainBeat_keeps | split | dsimp only

theorem execCellXor_keeps {s0 : State} {b : CellBeat} {s : State} (hs : Keeps s0 s) : OutKeeps s0 (execCellXor b s) := by
  unfold execCellXor
  try dsimp only
  repeat' first | intro _ | with_reducible first | assumption | apply OutKeeps.done | apply OutKeeps.ite | apply Keeps.ite | apply plainBeat_keeps | split | dsimp only

end Sys2Proof.Machine
end

