-- ==== Sys2Proof/Laws/Keeps/FizCtrl.lean ====
section
/-! SUPPORT. What the operations of Machine/FizCtrl.lean keep: the queue, monotone time, free values and life cycle, and the invariant. -/

namespace Sys2Proof.Machine
open Sys2Proof
set_option linter.all false
set_option Elab.async false

theorem ctrlCheck_keeps {s0 : State} {c : Nat} {a : Nat} {s : State} {f : CKind → FzRes} (hs : Keeps s0 s) (hf : ∀ v0, FzKeeps s0 (f v0)) : FzKeeps s0 (ctrlCheck c a s f) := by
  unfold ctrlCheck
  try dsimp only
  repeat' first | intro _ | with_reducible first | assumption | apply hf | refine FzKeeps.getOk (by assumption) ?_ | refine FzKeeps.getTrap (by assumption) ?_ | refine FzKeeps.getStall (by assumption) ?_ | apply FzKeeps.ite | apply FzKeeps.ok | apply FzKeeps.trap | apply FzKeeps.stall | apply Keeps.ite | split | dsimp only

theorem rxPop_keeps {s0 : State} {c : Nat} {s : State} (hs : Keeps s0 s) : Keeps s0 (rxPop c s) := by
  unfold rxPop
  try dsimp only
  repeat' first | intro _ | with_reducible first | assumption | apply Keeps.ite | apply State.setCore_keeps | apply State.setMotif_keeps | split | dsimp only

theorem ctrlRead_keeps {s0 : State} {c : Nat} {a : Nat} {s : State} (hs : Keeps s0 s) : Keeps s0 (ctrlRead c a s).2 := by
  unfold ctrlRead
  try dsimp only
  repeat' first | intro _ | with_reducible first | assumption | refine Keeps.snd (by assumption) ?_ | apply Keeps.ite | apply State.setCore_keeps | apply rxPop_keeps | apply State.setMotif_keeps | split | dsimp only

theorem ctrlNarrow_keeps {s0 : State} {c : Nat} {a : Nat} {n : Nat} {s : State} (hs : Keeps s0 s) : Keeps s0 (ctrlNarrow c a n s).2 := by
  unfold ctrlNarrow
  try dsimp only
  repeat' first | intro _ | with_reducible first | assumption | refine Keeps.snd (by assumption) ?_ | apply Keeps.ite | split | dsimp only

theorem ctrlGet_keeps {s0 : State} {c : Nat} {a : Nat} {n : Nat} {s : State} {f : Nat → State → FzRes} (hs : Keeps s0 s) (hf : ∀ v0 v1, Keeps s0 v1 → FzKeeps s0 (f v0 v1)) : FzKeeps s0 (ctrlGet c a n s f) := by
  unfold ctrlGet
  try dsimp only
  repeat' first | intro _ | with_reducible first | assumption | apply hf | refine Keeps.snd (by assumption) ?_ | refine FzKeeps.getOk (by assumption) ?_ | refine FzKeeps.getTrap (by assumption) ?_ | refine FzKeeps.getStall (by assumption) ?_ | apply FzKeeps.ite | apply FzKeeps.ok | apply FzKeeps.trap | apply FzKeeps.stall | apply Keeps.ite | apply ctrlCheck_keeps | apply ctrlRead_keeps | apply ctrlNarrow_keeps | split | dsimp only

theorem ctrlLoad_keeps {s0 : State} {c : Nat} {n : Nat} {rd : Nat} {a : Nat} {s : State} (hs : Keeps s0 s) : FzKeeps s0 (ctrlLoad c n rd a s) := by
  unfold ctrlLoad
  try dsimp only
  repeat' first | intro _ | with_reducible first | assumption | refine FzKeeps.getOk (by assumption) ?_ | refine FzKeeps.getTrap (by assumption) ?_ | refine FzKeeps.getStall (by assumption) ?_ | apply FzKeeps.ite | apply FzKeeps.ok | apply FzKeeps.trap | apply FzKeeps.stall | apply Keeps.ite | apply ctrlGet_keeps | apply fzSetReg_keeps | split | dsimp only

theorem writeIbind_keeps {s0 : State} {c : Nat} {high : Bool} {w : Nat} {s : State} (hs : Keeps s0 s) : FzKeeps s0 (writeIbind c high w s) := by
  unfold writeIbind
  try dsimp only
  repeat' first | intro _ | with_reducible first | assumption | refine FzKeeps.getOk (by assumption) ?_ | refine FzKeeps.getTrap (by assumption) ?_ | refine FzKeeps.getStall (by assumption) ?_ | apply FzKeeps.ite | apply FzKeeps.ok | apply FzKeeps.trap | apply FzKeeps.stall | apply Keeps.ite | apply State.setCore_keeps | split | dsimp only

theorem writeIlvl_keeps {s0 : State} {c : Nat} {i : Nat} {w : Nat} {s : State} (hs : Keeps s0 s) : Keeps s0 (writeIlvl c i w s) := by
  unfold writeIlvl
  try dsimp only
  repeat' first | intro _ | with_reducible first | assumption | apply Keeps.ite | apply State.setCore_keeps | apply Keeps.foldl | split | dsimp only

theorem pullRequest_keeps {s0 : State} {c : Nat} {w : Nat} {s : State} (hs : Keeps s0 s) : FzKeeps s0 (pullRequest c w s) := by
  unfold pullRequest
  try dsimp only
  repeat' first | intro _ | with_reducible first | assumption | refine FzKeeps.getOk (by assumption) ?_ | refine FzKeeps.getTrap (by assumption) ?_ | refine FzKeeps.getStall (by assumption) ?_ | apply FzKeeps.ite | apply FzKeeps.ok | apply FzKeeps.trap | apply FzKeeps.stall | apply Keeps.ite | apply fzSend_keeps | apply State.setCore_keeps | split | dsimp only

theorem txAppend_keeps {s0 : State} {c : Nat} {w : Word} {s : State} (hs : Keeps s0 s) : FzKeeps s0 (txAppend c w s) := by
  unfold txAppend
  try dsimp only
  repeat' first | intro _ | with_reducible first | assumption | refine FzKeeps.getOk (by assumption) ?_ | refine FzKeeps.getTrap (by assumption) ?_ | refine FzKeeps.getStall (by assumption) ?_ | apply FzKeeps.ite | apply FzKeeps.ok | apply FzKeeps.trap | apply FzKeeps.stall | apply Keeps.ite | apply State.setCore_keeps | split | dsimp only

theorem txLast_keeps {s0 : State} {c : Nat} {w : Word} {s : State} (hs : Keeps s0 s) : FzKeeps s0 (txLast c w s) := by
  unfold txLast
  try dsimp only
  repeat' first | intro _ | with_reducible first | assumption | refine FzKeeps.getOk (by assumption) ?_ | refine FzKeeps.getTrap (by assumption) ?_ | refine FzKeeps.getStall (by assumption) ?_ | apply FzKeeps.ite | apply FzKeeps.ok | apply FzKeeps.trap | apply FzKeeps.stall | apply Keeps.ite | apply State.setCore_keeps | apply State.setMotif_keeps | split | dsimp only

theorem replayRequest_keeps {s0 : State} {c : Nat} {w : Nat} {s : State} (hs : Keeps s0 s) : FzKeeps s0 (replayRequest c w s) := by
  unfold replayRequest
  try dsimp only
  repeat' first | intro _ | with_reducible first | assumption | refine Keeps.snd (by assumption) ?_ | refine FzKeeps.getOk (by assumption) ?_ | refine FzKeeps.getTrap (by assumption) ?_ | refine FzKeeps.getStall (by assumption) ?_ | apply FzKeeps.ite | apply FzKeeps.ok | apply FzKeeps.trap | apply FzKeeps.stall | apply Keeps.ite | apply State.fresh_keeps | apply State.setCore_keeps | apply State.setMotif_keeps | apply State.setObji_keeps | split | dsimp only

theorem ringDoorbell_keeps {s0 : State} {c : Nat} {w : Nat} {s : State} (hs : Keeps s0 s) : Keeps s0 (ringDoorbell c w s) := by
  unfold ringDoorbell
  try dsimp only
  repeat' first | intro _ | with_reducible first | assumption | apply Keeps.ite | apply State.interrupt_keeps | apply State.setCore_keeps | split | dsimp only

theorem shuttleControl_keeps {s0 : State} {c : Nat} {n : Nat} {w : Nat} {s : State} (hs : Keeps s0 s) : Keeps s0 (shuttleControl c n w s) := by
  unfold shuttleControl
  try dsimp only
  repeat' first | intro _ | with_reducible first | assumption | apply Keeps.ite | apply fzShowState_keeps | apply State.setCore_keeps | apply restartShuttle_keeps | split | dsimp only

theorem ctrlWrite_keeps {s0 : State} {c : Nat} {a : Nat} {w : Nat} {s : State} (hs : Keeps s0 s) : FzKeeps s0 (ctrlWrite c a w s) := by
  unfold ctrlWrite
  try dsimp only
  repeat' first | intro _ | with_reducible first | assumption | refine FzKeeps.getOk (by assumption) ?_ | refine FzKeeps.getTrap (by assumption) ?_ | refine FzKeeps.getStall (by assumption) ?_ | apply FzKeeps.ite | apply FzKeeps.ok | apply FzKeeps.trap | apply FzKeeps.stall | apply Keeps.ite | apply State.setCore_keeps | apply writeIbind_keeps | apply writeIlvl_keeps | apply pullRequest_keeps | apply txAppend_keeps | apply txLast_keeps | apply replayRequest_keeps | apply ringDoorbell_keeps | apply shuttleControl_keeps | split | dsimp only

theorem ctrlPut_keeps {s0 : State} {c : Nat} {a : Nat} {n : Nat} {v : Nat} {s : State} (hs : Keeps s0 s) : FzKeeps s0 (ctrlPut c a n v s) := by
  unfold ctrlPut
  try dsimp only
  repeat' first | intro _ | with_reducible first | assumption | refine FzKeeps.getOk (by assumption) ?_ | refine FzKeeps.getTrap (by assumption) ?_ | refine FzKeeps.getStall (by assumption) ?_ | apply FzKeeps.ite | apply FzKeeps.ok | apply FzKeeps.trap | apply FzKeeps.stall | apply Keeps.ite | apply ctrlCheck_keeps | apply ctrlWrite_keeps | split | dsimp only

theorem ctrlStore_keeps {s0 : State} {c : Nat} {n : Nat} {a : Nat} {v : Word} {s : State} (hs : Keeps s0 s) : FzKeeps s0 (ctrlStore c n a v s) := by
  unfold ctrlStore
  try dsimp only
  repeat' first | intro _ | with_reducible first | assumption | refine FzKeeps.getOk (by assumption) ?_ | refine FzKeeps.getTrap (by assumption) ?_ | refine FzKeeps.getStall (by assumption) ?_ | apply FzKeeps.ite | apply FzKeeps.ok | apply FzKeeps.trap | apply FzKeeps.stall | apply Keeps.ite | apply FzRes.andThen_keeps | apply ctrlPut_keeps | apply fzAdvance_keeps | split | dsimp only

theorem writeReg_keeps {s0 : State} {c : Nat} {rs : Nat} {a : Nat} {s : State} (hs : Keeps s0 s) : OutKeeps s0 (writeReg c rs a s) := by
  unfold writeReg
  try dsimp only
  repeat' first | intro _ | with_reducible first | assumption | apply FzKeeps.ite | apply FzKeeps.ok | apply FzKeeps.trap | apply FzKeeps.stall | refine FzKeeps.getOk (by assumption) ?_ | refine FzKeeps.getTrap (by assumption) ?_ | refine FzKeeps.getStall (by assumption) ?_ | apply OutKeeps.done | apply OutKeeps.ite | apply Keeps.ite | apply fzDo_keeps | apply ctrlStore_keeps | split | dsimp only

theorem execDoorbellWrite_keeps {s0 : State} {c : Nat} {rs : Nat} {s : State} (hs : Keeps s0 s) : OutKeeps s0 (execDoorbellWrite c rs s) := by
  unfold execDoorbellWrite
  try dsimp only
  repeat' first | intro _ | with_reducible first | assumption | apply OutKeeps.done | apply OutKeeps.ite | apply Keeps.ite | apply writeReg_keeps | split | dsimp only

theorem readReg_keeps {s0 : State} {c : Nat} {rd : Nat} {a : Nat} {s : State} (hs : Keeps s0 s) : OutKeeps s0 (readReg c rd a s) := by
  unfold readReg
  try dsimp only
  repeat' first | intro _ | with_reducible first | assumption | apply FzKeeps.ite | apply FzKeeps.ok | apply FzKeeps.trap | apply FzKeeps.stall | refine FzKeeps.getOk (by assumption) ?_ | refine FzKeeps.getTrap (by assumption) ?_ | refine FzKeeps.getStall (by assumption) ?_ | apply OutKeeps.done | apply OutKeeps.ite | apply Keeps.ite | apply fzDo_keeps | apply ctrlLoad_keeps | split | dsimp only

theorem execExcountRead_keeps {s0 : State} {c : Nat} {rd : Nat} {s : State} (hs : Keeps s0 s) : OutKeeps s0 (execExcountRead c rd s) := by
  unfold execExcountRead
  try dsimp only
  repeat' first | intro _ | with_reducible first | assumption | apply OutKeeps.done | apply OutKeeps.ite | apply Keeps.ite | apply readReg_keeps | split | dsimp only

theorem execFzClb_keeps {s0 : State} {c : Nat} {rd : Nat} {ra : Nat} {imm : Nat} {s : State} (hs : Keeps s0 s) : OutKeeps s0 (execFzClb c rd ra imm s) := by
  unfold execFzClb
  try dsimp only
  repeat' first | intro _ | with_reducible first | assumption | apply FzKeeps.ite | apply FzKeeps.ok | apply FzKeeps.trap | apply FzKeeps.stall | refine FzKeeps.getOk (by assumption) ?_ | refine FzKeeps.getTrap (by assumption) ?_ | refine FzKeeps.getStall (by assumption) ?_ | apply OutKeeps.done | apply OutKeeps.ite | apply Keeps.ite | apply fzDo_keeps | apply ctrlLoad_keeps | split | dsimp only

theorem pairWord_keeps {s0 : State} {c : Nat} {write : Bool} {a : Nat} {s : State} {f : FzRes} (hs : Keeps s0 s) (hf : FzKeeps s0 f) : FzKeeps s0 (pairWord c write a s f) := by
  unfold pairWord
  try dsimp only
  repeat' first | intro _ | with_reducible first | assumption | refine FzKeeps.getOk (by assumption) ?_ | refine FzKeeps.getTrap (by assumption) ?_ | refine FzKeeps.getStall (by assumption) ?_ | apply FzKeeps.ite | apply FzKeeps.ok | apply FzKeeps.trap | apply FzKeeps.stall | apply Keeps.ite | apply ctrlCheck_keeps | split | dsimp only

theorem pairCheck_keeps {s0 : State} {c : Nat} {rd : Nat} {a : Nat} {write : Bool} {s : State} {f : FzRes} (hs : Keeps s0 s) (hf : FzKeeps s0 f) : FzKeeps s0 (pairCheck c rd a write s f) := by
  unfold pairCheck
  try dsimp only
  repeat' first | intro _ | with_reducible first | assumption | refine FzKeeps.getOk (by assumption) ?_ | refine FzKeeps.getTrap (by assumption) ?_ | refine FzKeeps.getStall (by assumption) ?_ | apply FzKeeps.ite | apply FzKeeps.ok | apply FzKeeps.trap | apply FzKeeps.stall | apply Keeps.ite | apply pairWord_keeps | split | dsimp only

theorem execFzCld_keeps {s0 : State} {c : Nat} {rd : Nat} {ra : Nat} {imm : Nat} {s : State} (hs : Keeps s0 s) : OutKeeps s0 (execFzCld c rd ra imm s) := by
  unfold execFzCld
  try dsimp only
  repeat' first | intro _ | with_reducible first | assumption | refine Keeps.snd (by assumption) ?_ | apply FzKeeps.ite | apply FzKeeps.ok | apply FzKeeps.trap | apply FzKeeps.stall | refine FzKeeps.getOk (by assumption) ?_ | refine FzKeeps.getTrap (by assumption) ?_ | refine FzKeeps.getStall (by assumption) ?_ | apply OutKeeps.done | apply OutKeeps.ite | apply Keeps.ite | apply fzDo_keeps | apply pairCheck_keeps | apply ctrlRead_keeps | apply fzSetReg_keeps | apply State.setCore_keeps | split | dsimp only

theorem execFzClh_keeps {s0 : State} {c : Nat} {rd : Nat} {ra : Nat} {imm : Nat} {s : State} (hs : Keeps s0 s) : OutKeeps s0 (execFzClh c rd ra imm s) := by
  unfold execFzClh
  try dsimp only
  repeat' first | intro _ | with_reducible first | assumption | apply FzKeeps.ite | apply FzKeeps.ok | apply FzKeeps.trap | apply FzKeeps.stall | refine FzKeeps.getOk (by assumption) ?_ | refine FzKeeps.getTrap (by assumption) ?_ | refine FzKeeps.getStall (by assumption) ?_ | apply OutKeeps.done | apply OutKeeps.ite | apply Keeps.ite | apply fzDo_keeps | apply ctrlLoad_keeps | split | dsimp only

theorem execFzClw_keeps {s0 : State} {c : Nat} {rd : Nat} {ra : Nat} {imm : Nat} {s : State} (hs : Keeps s0 s) : OutKeeps s0 (execFzClw c rd ra imm s) := by
  unfold execFzClw
  try dsimp only
  repeat' first | intro _ | with_reducible first | assumption | apply FzKeeps.ite | apply FzKeeps.ok | apply FzKeeps.trap | apply FzKeeps.stall | refine FzKeeps.getOk (by assumption) ?_ | refine FzKeeps.getTrap (by assumption) ?_ | refine FzKeeps.getStall (by assumption) ?_ | apply OutKeeps.done | apply OutKeeps.ite | apply Keeps.ite | apply fzDo_keeps | apply ctrlLoad_keeps | split | dsimp only

theorem execFzCsb_keeps {s0 : State} {c : Nat} {rs : Nat} {ra : Nat} {imm : Nat} {s : State} (hs : Keeps s0 s) : OutKeeps s0 (execFzCsb c rs ra imm s) := by
  unfold execFzCsb
  try dsimp only
  repeat' first | intro _ | with_reducible first | assumption | apply FzKeeps.ite | apply FzKeeps.ok | apply FzKeeps.trap | apply FzKeeps.stall | refine FzKeeps.getOk (by assumption) ?_ | refine FzKeeps.getTrap (by assumption) ?_ | refine FzKeeps.getStall (by assumption) ?_ | apply OutKeeps.done | apply OutKeeps.ite | apply Keeps.ite | apply fzDo_keeps | apply ctrlStore_keeps | split | dsimp only

theorem pairPut_keeps {s0 : State} {c : Nat} {a : Nat} {v : Nat} {w : Nat} {s : State} (hs : Keeps s0 s) : FzKeeps s0 (pairPut c a v w s) := by
  unfold pairPut
  try dsimp only
  repeat' first | intro _ | with_reducible first | assumption | refine FzKeeps.getOk (by assumption) ?_ | refine FzKeeps.getTrap (by assumption) ?_ | refine FzKeeps.getStall (by assumption) ?_ | apply FzKeeps.ite | apply FzKeeps.ok | apply FzKeeps.trap | apply FzKeeps.stall | apply Keeps.ite | apply ctrlWrite_keeps | apply fzAdvance_keeps | split | dsimp only

theorem execFzCsd_keeps {s0 : State} {c : Nat} {rs : Nat} {ra : Nat} {imm : Nat} {s : State} (hs : Keeps s0 s) : OutKeeps s0 (execFzCsd c rs ra imm s) := by
  unfold execFzCsd
  try dsimp only
  repeat' first | intro _ | with_reducible first | assumption | apply FzKeeps.ite | apply FzKeeps.ok | apply FzKeeps.trap | apply FzKeeps.stall | refine FzKeeps.getOk (by assumption) ?_ | refine FzKeeps.getTrap (by assumption) ?_ | refine FzKeeps.getStall (by assumption) ?_ | apply OutKeeps.done | apply OutKeeps.ite | apply Keeps.ite | apply fzDo_keeps | apply pairCheck_keeps | apply pairPut_keeps | split | dsimp only

theorem execFzCsh_keeps {s0 : State} {c : Nat} {rs : Nat} {ra : Nat} {imm : Nat} {s : State} (hs : Keeps s0 s) : OutKeeps s0 (execFzCsh c rs ra imm s) := by
  unfold execFzCsh
  try dsimp only
  repeat' first | intro _ | with_reducible first | assumption | apply FzKeeps.ite | apply FzKeeps.ok | apply FzKeeps.trap | apply FzKeeps.stall | refine FzKeeps.getOk (by assumption) ?_ | refine FzKeeps.getTrap (by assumption) ?_ | refine FzKeeps.getStall (by assumption) ?_ | apply OutKeeps.done | apply OutKeeps.ite | apply Keeps.ite | apply fzDo_keeps | apply ctrlStore_keeps | split | dsimp only

theorem execFzCsw_keeps {s0 : State} {c : Nat} {rs : Nat} {ra : Nat} {imm : Nat} {s : State} (hs : Keeps s0 s) : OutKeeps s0 (execFzCsw c rs ra imm s) := by
  unfold execFzCsw
  try dsimp only
  repeat' first | intro _ | with_reducible first | assumption | apply FzKeeps.ite | apply FzKeeps.ok | apply FzKeeps.trap | apply FzKeeps.stall | refine FzKeeps.getOk (by assumption) ?_ | refine FzKeeps.getTrap (by assumption) ?_ | refine FzKeeps.getStall (by assumption) ?_ | apply OutKeeps.done | apply OutKeeps.ite | apply Keeps.ite | apply fzDo_keeps | apply ctrlStore_keeps | split | dsimp only

theorem execIbindWrite_keeps {s0 : State} {c : Nat} {high : Bool} {rs : Nat} {s : State} (hs : Keeps s0 s) : OutKeeps s0 (execIbindWrite c high rs s) := by
  unfold execIbindWrite
  try dsimp only
  repeat' first | intro _ | with_reducible first | assumption | apply OutKeeps.done | apply OutKeeps.ite | apply Keeps.ite | apply writeReg_keeps | split | dsimp only

theorem execLatchedPairRead_keeps {s0 : State} {c : Nat} {rd : Nat} {addr : Nat} {s : State} (hs : Keeps s0 s) : OutKeeps s0 (execLatchedPairRead c rd addr s) := by
  unfold execLatchedPairRead
  try dsimp only
  repeat' first | intro _ | with_reducible first | assumption | apply OutKeeps.done | apply OutKeeps.ite | apply Keeps.ite | apply readReg_keeps | split | dsimp only

theorem execPullreqWrite_keeps {s0 : State} {c : Nat} {rs : Nat} {s : State} (hs : Keeps s0 s) : OutKeeps s0 (execPullreqWrite c rs s) := by
  unfold execPullreqWrite
  try dsimp only
  repeat' first | intro _ | with_reducible first | assumption | apply OutKeeps.done | apply OutKeeps.ite | apply Keeps.ite | apply writeReg_keeps | split | dsimp only

theorem execReplayRequestWrite_keeps {s0 : State} {c : Nat} {rs : Nat} {s : State} (hs : Keeps s0 s) : OutKeeps s0 (execReplayRequestWrite c rs s) := by
  unfold execReplayRequestWrite
  try dsimp only
  repeat' first | intro _ | with_reducible first | assumption | apply OutKeeps.done | apply OutKeeps.ite | apply Keeps.ite | apply writeReg_keeps | split | dsimp only

theorem execReplayqPop_keeps {s0 : State} {c : Nat} {rd : Nat} {s : State} (hs : Keeps s0 s) : OutKeeps s0 (execReplayqPop c rd s) := by
  unfold execReplayqPop
  try dsimp only
  repeat' first | intro _ | with_reducible first | assumption | apply OutKeeps.done | apply OutKeeps.ite | apply Keeps.ite | apply readReg_keeps | split | dsimp only

theorem execRxdataPop_keeps {s0 : State} {c : Nat} {rd : Nat} {s : State} (hs : Keeps s0 s) : OutKeeps s0 (execRxdataPop c rd s) := by
  unfold execRxdataPop
  try dsimp only
  repeat' first | intro _ | with_reducible first | assumption | apply OutKeeps.done | apply OutKeeps.ite | apply Keeps.ite | apply readReg_keeps | split | dsimp only

theorem execRxheadRead_keeps {s0 : State} {c : Nat} {rd : Nat} {s : State} (hs : Keeps s0 s) : OutKeeps s0 (execRxheadRead c rd s) := by
  unfold execRxheadRead
  try dsimp only
  repeat' first | intro _ | with_reducible first | assumption | apply OutKeeps.done | apply OutKeeps.ite | apply Keeps.ite | apply readReg_keeps | split | dsimp only

theorem execShctlRestart_keeps {s0 : State} {c : Nat} {n : Nat} {s : State} (hs : Keeps s0 s) : OutKeeps s0 (execShctlRestart c n s) := by
  unfold execShctlRestart
  try dsimp only
  repeat' first | intro _ | with_reducible first | assumption | apply FzKeeps.ite | apply FzKeeps.ok | apply FzKeeps.trap | apply FzKeeps.stall | refine FzKeeps.getOk (by assumption) ?_ | refine FzKeeps.getTrap (by assumption) ?_ | refine FzKeeps.getStall (by assumption) ?_ | apply OutKeeps.done | apply OutKeeps.ite | apply Keeps.ite | apply fzDo_keeps | apply ctrlStore_keeps | split | dsimp only

theorem execShctlStop_keeps {s0 : State} {c : Nat} {n : Nat} {s : State} (hs : Keeps s0 s) : OutKeeps s0 (execShctlStop c n s) := by
  unfold execShctlStop
  try dsimp only
  repeat' first | intro _ | with_reducible first | assumption | apply FzKeeps.ite | apply FzKeeps.ok | apply FzKeeps.trap | apply FzKeeps.stall | refine FzKeeps.getOk (by assumption) ?_ | refine FzKeeps.getTrap (by assumption) ?_ | refine FzKeeps.getStall (by assumption) ?_ | apply OutKeeps.done | apply OutKeeps.ite | apply Keeps.ite | apply fzDo_keeps | apply ctrlStore_keeps | split | dsimp only

theorem execTxdataAppend_keeps {s0 : State} {c : Nat} {rs : Nat} {s : State} (hs : Keeps s0 s) : OutKeeps s0 (execTxdataAppend c rs s) := by
  unfold execTxdataAppend
  try dsimp only
  repeat' first | intro _ | with_reducible first | assumption | apply OutKeeps.done | apply OutKeeps.ite | apply Keeps.ite | apply writeReg_keeps | split | dsimp only

theorem execTxlastSend_keeps {s0 : State} {c : Nat} {rs : Nat} {s : State} (hs : Keeps s0 s) : OutKeeps s0 (execTxlastSend c rs s) := by
  unfold execTxlastSend
  try dsimp only
  repeat' first | intro _ | with_reducible first | assumption | apply OutKeeps.done | apply OutKeeps.ite | apply Keeps.ite | apply writeReg_keeps | split | dsimp only

theorem execWdogWrite_keeps {s0 : State} {c : Nat} {rs : Nat} {s : State} (hs : Keeps s0 s) : OutKeeps s0 (execWdogWrite c rs s) := by
  unfold execWdogWrite
  try dsimp only
  repeat' first | intro _ | with_reducible first | assumption | apply OutKeeps.done | apply OutKeeps.ite | apply Keeps.ite | apply writeReg_keeps | split | dsimp only

end Sys2Proof.Machine
end

