-- ==== Sys2Proof/Laws/Keeps/FizFp.lean ====
section
/-! SUPPORT. What the operations of Machine/FizFp.lean keep: the queue, monotone time, free values and life cycle, and the invariant. -/

namespace Sys2Proof.Machine
open Sys2Proof
set_option linter.all false
set_option Elab.async false

theorem countSwap_keeps {s0 : State} {c : Nat} {s : State} (hs : Keeps s0 s) : Keeps s0 (countSwap c s) := by
  unfold countSwap
  try dsimp only
  repeat' first | intro _ | with_reducible first | assumption | apply Keeps.ite | apply State.bump_keeps | split | dsimp only

theorem fpGate_keeps {s0 : State} {c : Nat} {ecc : Nat} {s : State} {f : State → FzRes} (hs : Keeps s0 s) (hf : ∀ v0, Keeps s0 v0 → FzKeeps s0 (f v0)) : FzKeeps s0 (fpGate c ecc s f) := by
  unfold fpGate
  try dsimp only
  repeat' first | intro _ | with_reducible first | assumption | apply hf | refine FzKeeps.getOk (by assumption) ?_ | refine FzKeeps.getTrap (by assumption) ?_ | refine FzKeeps.getStall (by assumption) ?_ | apply FzKeeps.ite | apply FzKeeps.ok | apply FzKeeps.trap | apply FzKeeps.stall | apply Keeps.ite | apply countSwap_keeps | apply fzEcc_keeps | apply State.setCore_keeps | split | dsimp only

theorem fzFp_keeps {s0 : State} {c : Nat} {ecc : Nat} {s : State} {f : State → FzRes} (hs : Keeps s0 s) (hf : ∀ v0, Keeps s0 v0 → FzKeeps s0 (f v0)) : OutKeeps s0 (fzFp c ecc s f) := by
  unfold fzFp
  try dsimp only
  repeat' first | intro _ | with_reducible first | assumption | apply hf | apply FzKeeps.ite | apply FzKeeps.ok | apply FzKeeps.trap | apply FzKeeps.stall | refine FzKeeps.getOk (by assumption) ?_ | refine FzKeeps.getTrap (by assumption) ?_ | refine FzKeeps.getStall (by assumption) ?_ | apply OutKeeps.done | apply OutKeeps.ite | apply Keeps.ite | apply fzDo_keeps | apply fpGate_keeps | split | dsimp only

theorem fzSetF_keeps {s0 : State} {c : Nat} {fd : Nat} {r : FRes} {divZero : Bool} {s : State} (hs : Keeps s0 s) : Keeps s0 (fzSetF c fd r divZero s) := by
  unfold fzSetF
  try dsimp only
  repeat' first | intro _ | with_reducible first | assumption | apply Keeps.ite | apply State.setCore_keeps | split | dsimp only

theorem fzFop_keeps {s0 : State} {c : Nat} {fd : Nat} {ecc : Nat} {v : Core → FRes} {s : State} (hs : Keeps s0 s) : OutKeeps s0 (fzFop c fd ecc v s) := by
  unfold fzFop
  try dsimp only
  repeat' first | intro _ | with_reducible first | assumption | apply FzKeeps.ite | apply FzKeeps.ok | apply FzKeeps.trap | apply FzKeeps.stall | apply OutKeeps.done | apply OutKeeps.ite | apply Keeps.ite | apply fzFp_keeps | apply fzSetF_keeps | split | dsimp only

theorem execFzFabs_keeps {s0 : State} {c : Nat} {fd : Nat} {fa : Nat} {ecc : Nat} {s : State} (hs : Keeps s0 s) : OutKeeps s0 (execFzFabs c fd fa ecc s) := by
  unfold execFzFabs
  try dsimp only
  repeat' first | intro _ | with_reducible first | assumption | apply OutKeeps.done | apply OutKeeps.ite | apply Keeps.ite | apply fzFop_keeps | split | dsimp only

theorem execFzFadd_keeps {s0 : State} {c : Nat} {fd : Nat} {fa : Nat} {fb : Nat} {ecc : Nat} {s : State} (hs : Keeps s0 s) : OutKeeps s0 (execFzFadd c fd fa fb ecc s) := by
  unfold execFzFadd
  try dsimp only
  repeat' first | intro _ | with_reducible first | assumption | apply OutKeeps.done | apply OutKeeps.ite | apply Keeps.ite | apply fzFop_keeps | split | dsimp only

theorem fzSetGf_keeps {s0 : State} {c : Nat} {rd : Nat} {r : FRes} {s : State} (hs : Keeps s0 s) : Keeps s0 (fzSetGf c rd r s) := by
  unfold fzSetGf
  try dsimp only
  repeat' first | intro _ | with_reducible first | assumption | apply Keeps.ite | apply fzSetReg_keeps | apply State.setCore_keeps | split | dsimp only

theorem fzFtoG_keeps {s0 : State} {c : Nat} {rd : Nat} {ecc : Nat} {v : Core → FRes} {s : State} (hs : Keeps s0 s) : OutKeeps s0 (fzFtoG c rd ecc v s) := by
  unfold fzFtoG
  try dsimp only
  repeat' first | intro _ | with_reducible first | assumption | apply FzKeeps.ite | apply FzKeeps.ok | apply FzKeeps.trap | apply FzKeeps.stall | apply OutKeeps.done | apply OutKeeps.ite | apply Keeps.ite | apply fzFp_keeps | apply fzSetGf_keeps | split | dsimp only

theorem execFzFcmpeq_keeps {s0 : State} {c : Nat} {rd : Nat} {fa : Nat} {fb : Nat} {ecc : Nat} {s : State} (hs : Keeps s0 s) : OutKeeps s0 (execFzFcmpeq c rd fa fb ecc s) := by
  unfold execFzFcmpeq
  try dsimp only
  repeat' first | intro _ | with_reducible first | assumption | apply OutKeeps.done | apply OutKeeps.ite | apply Keeps.ite | apply fzFtoG_keeps | split | dsimp only

theorem execFzFcmple_keeps {s0 : State} {c : Nat} {rd : Nat} {fa : Nat} {fb : Nat} {ecc : Nat} {s : State} (hs : Keeps s0 s) : OutKeeps s0 (execFzFcmple c rd fa fb ecc s) := by
  unfold execFzFcmple
  try dsimp only
  repeat' first | intro _ | with_reducible first | assumption | apply OutKeeps.done | apply OutKeeps.ite | apply Keeps.ite | apply fzFtoG_keeps | split | dsimp only

theorem execFzFcmplt_keeps {s0 : State} {c : Nat} {rd : Nat} {fa : Nat} {fb : Nat} {ecc : Nat} {s : State} (hs : Keeps s0 s) : OutKeeps s0 (execFzFcmplt c rd fa fb ecc s) := by
  unfold execFzFcmplt
  try dsimp only
  repeat' first | intro _ | with_reducible first | assumption | apply OutKeeps.done | apply OutKeeps.ite | apply Keeps.ite | apply fzFtoG_keeps | split | dsimp only

theorem execFzFdiv_keeps {s0 : State} {c : Nat} {fd : Nat} {fa : Nat} {fb : Nat} {ecc : Nat} {s : State} (hs : Keeps s0 s) : OutKeeps s0 (execFzFdiv c fd fa fb ecc s) := by
  unfold execFzFdiv
  try dsimp only
  repeat' first | intro _ | with_reducible first | assumption | apply FzKeeps.ite | apply FzKeeps.ok | apply FzKeeps.trap | apply FzKeeps.stall | apply OutKeeps.done | apply OutKeeps.ite | apply Keeps.ite | apply fzFp_keeps | apply fzSetF_keeps | split | dsimp only

theorem execFzFlw_keeps {s0 : State} {c : Nat} {fd : Nat} {ra : Nat} {imm : Nat} {ecc : Nat} {s : State} (hs : Keeps s0 s) : OutKeeps s0 (execFzFlw c fd ra imm ecc s) := by
  unfold execFzFlw
  try dsimp only
  repeat' first | intro _ | with_reducible first | assumption | apply FzKeeps.ite | apply FzKeeps.ok | apply FzKeeps.trap | apply FzKeeps.stall | refine FzKeeps.getOk (by assumption) ?_ | refine FzKeeps.getTrap (by assumption) ?_ | refine FzKeeps.getStall (by assumption) ?_ | apply OutKeeps.done | apply OutKeeps.ite | apply Keeps.ite | apply fzFp_keeps | apply fzLoad_keeps | split | dsimp only

theorem execFzFma_keeps {s0 : State} {c : Nat} {fd : Nat} {fa : Nat} {fb : Nat} {fc : Nat} {ecc : Nat} {s : State} (hs : Keeps s0 s) : OutKeeps s0 (execFzFma c fd fa fb fc ecc s) := by
  unfold execFzFma
  try dsimp only
  repeat' first | intro _ | with_reducible first | assumption | apply OutKeeps.done | apply OutKeeps.ite | apply Keeps.ite | apply fzFop_keeps | split | dsimp only

theorem execFzFmax_keeps {s0 : State} {c : Nat} {fd : Nat} {fa : Nat} {fb : Nat} {ecc : Nat} {s : State} (hs : Keeps s0 s) : OutKeeps s0 (execFzFmax c fd fa fb ecc s) := by
  unfold execFzFmax
  try dsimp only
  repeat' first | intro _ | with_reducible first | assumption | apply OutKeeps.done | apply OutKeeps.ite | apply Keeps.ite | apply fzFop_keeps | split | dsimp only

theorem execFzFmin_keeps {s0 : State} {c : Nat} {fd : Nat} {fa : Nat} {fb : Nat} {ecc : Nat} {s : State} (hs : Keeps s0 s) : OutKeeps s0 (execFzFmin c fd fa fb ecc s) := by
  unfold execFzFmin
  try dsimp only
  repeat' first | intro _ | with_reducible first | assumption | apply OutKeeps.done | apply OutKeeps.ite | apply Keeps.ite | apply fzFop_keeps | split | dsimp only

theorem execFzFms_keeps {s0 : State} {c : Nat} {fd : Nat} {fa : Nat} {fb : Nat} {fc : Nat} {ecc : Nat} {s : State} (hs : Keeps s0 s) : OutKeeps s0 (execFzFms c fd fa fb fc ecc s) := by
  unfold execFzFms
  try dsimp only
  repeat' first | intro _ | with_reducible first | assumption | apply OutKeeps.done | apply OutKeeps.ite | apply Keeps.ite | apply fzFop_keeps | split | dsimp only

theorem execFzFmul_keeps {s0 : State} {c : Nat} {fd : Nat} {fa : Nat} {fb : Nat} {ecc : Nat} {s : State} (hs : Keeps s0 s) : OutKeeps s0 (execFzFmul c fd fa fb ecc s) := by
  unfold execFzFmul
  try dsimp only
  repeat' first | intro _ | with_reducible first | assumption | apply OutKeeps.done | apply OutKeeps.ite | apply Keeps.ite | apply fzFop_keeps | split | dsimp only

theorem execFzFmvfg_keeps {s0 : State} {c : Nat} {rd : Nat} {fa : Nat} {ecc : Nat} {s : State} (hs : Keeps s0 s) : OutKeeps s0 (execFzFmvfg c rd fa ecc s) := by
  unfold execFzFmvfg
  try dsimp only
  repeat' first | intro _ | with_reducible first | assumption | apply OutKeeps.done | apply OutKeeps.ite | apply Keeps.ite | apply fzFtoG_keeps | split | dsimp only

theorem execFzFmvgf_keeps {s0 : State} {c : Nat} {fd : Nat} {ra : Nat} {ecc : Nat} {s : State} (hs : Keeps s0 s) : OutKeeps s0 (execFzFmvgf c fd ra ecc s) := by
  unfold execFzFmvgf
  try dsimp only
  repeat' first | intro _ | with_reducible first | assumption | apply OutKeeps.done | apply OutKeeps.ite | apply Keeps.ite | apply fzFop_keeps | split | dsimp only

theorem execFzFneg_keeps {s0 : State} {c : Nat} {fd : Nat} {fa : Nat} {ecc : Nat} {s : State} (hs : Keeps s0 s) : OutKeeps s0 (execFzFneg c fd fa ecc s) := by
  unfold execFzFneg
  try dsimp only
  repeat' first | intro _ | with_reducible first | assumption | apply OutKeeps.done | apply OutKeeps.ite | apply Keeps.ite | apply fzFop_keeps | split | dsimp only

theorem execFzFnma_keeps {s0 : State} {c : Nat} {fd : Nat} {fa : Nat} {fb : Nat} {fc : Nat} {ecc : Nat} {s : State} (hs : Keeps s0 s) : OutKeeps s0 (execFzFnma c fd fa fb fc ecc s) := by
  unfold execFzFnma
  try dsimp only
  repeat' first | intro _ | with_reducible first | assumption | apply OutKeeps.done | apply OutKeeps.ite | apply Keeps.ite | apply fzFop_keeps | split | dsimp only

theorem execFzFsqrt_keeps {s0 : State} {c : Nat} {fd : Nat} {fa : Nat} {ecc : Nat} {s : State} (hs : Keeps s0 s) : OutKeeps s0 (execFzFsqrt c fd fa ecc s) := by
  unfold execFzFsqrt
  try dsimp only
  repeat' first | intro _ | with_reducible first | assumption | apply OutKeeps.done | apply OutKeeps.ite | apply Keeps.ite | apply fzFop_keeps | split | dsimp only

theorem execFzFsub_keeps {s0 : State} {c : Nat} {fd : Nat} {fa : Nat} {fb : Nat} {ecc : Nat} {s : State} (hs : Keeps s0 s) : OutKeeps s0 (execFzFsub c fd fa fb ecc s) := by
  unfold execFzFsub
  try dsimp only
  repeat' first | intro _ | with_reducible first | assumption | apply OutKeeps.done | apply OutKeeps.ite | apply Keeps.ite | apply fzFop_keeps | split | dsimp only

theorem execFzFsw_keeps {s0 : State} {c : Nat} {fs : Nat} {ra : Nat} {imm : Nat} {ecc : Nat} {s : State} (hs : Keeps s0 s) : OutKeeps s0 (execFzFsw c fs ra imm ecc s) := by
  unfold execFzFsw
  try dsimp only
  repeat' first | intro _ | with_reducible first | assumption | apply FzKeeps.ite | apply FzKeeps.ok | apply FzKeeps.trap | apply FzKeeps.stall | refine FzKeeps.getOk (by assumption) ?_ | refine FzKeeps.getTrap (by assumption) ?_ | refine FzKeeps.getStall (by assumption) ?_ | apply OutKeeps.done | apply OutKeeps.ite | apply Keeps.ite | apply fzFp_keeps | apply fzStore_keeps | split | dsimp only

theorem execFzFtoi_keeps {s0 : State} {c : Nat} {rd : Nat} {fa : Nat} {ecc : Nat} {s : State} (hs : Keeps s0 s) : OutKeeps s0 (execFzFtoi c rd fa ecc s) := by
  unfold execFzFtoi
  try dsimp only
  repeat' first | intro _ | with_reducible first | assumption | apply OutKeeps.done | apply OutKeeps.ite | apply Keeps.ite | apply fzFtoG_keeps | split | dsimp only

theorem execFzFtoir_keeps {s0 : State} {c : Nat} {rd : Nat} {fa : Nat} {ecc : Nat} {s : State} (hs : Keeps s0 s) : OutKeeps s0 (execFzFtoir c rd fa ecc s) := by
  unfold execFzFtoir
  try dsimp only
  repeat' first | intro _ | with_reducible first | assumption | apply OutKeeps.done | apply OutKeeps.ite | apply Keeps.ite | apply fzFtoG_keeps | split | dsimp only

theorem execFzItof_keeps {s0 : State} {c : Nat} {fd : Nat} {ra : Nat} {ecc : Nat} {s : State} (hs : Keeps s0 s) : OutKeeps s0 (execFzItof c fd ra ecc s) := by
  unfold execFzItof
  try dsimp only
  repeat' first | intro _ | with_reducible first | assumption | apply OutKeeps.done | apply OutKeeps.ite | apply Keeps.ite | apply fzFop_keeps | split | dsimp only

theorem fzFpArea_keeps {s0 : State} {c : Nat} {ecc : Nat} {s : State} {f : Nat → Core → Core} (hs : Keeps s0 s) : OutKeeps s0 (fzFpArea c ecc s f) := by
  unfold fzFpArea
  try dsimp only
  repeat' first | intro _ | with_reducible first | assumption | apply FzKeeps.ite | apply FzKeeps.ok | apply FzKeeps.trap | apply FzKeeps.stall | refine FzKeeps.getOk (by assumption) ?_ | refine FzKeeps.getTrap (by assumption) ?_ | refine FzKeeps.getStall (by assumption) ?_ | apply OutKeeps.done | apply OutKeeps.ite | apply Keeps.ite | apply fzDo_keeps | apply fzSystem_keeps | apply fpGate_keeps | apply fzEccGate_keeps | apply fzAdvance_keeps | apply State.setCore_keeps | split | dsimp only

theorem execFzRstf_keeps {s0 : State} {c : Nat} {ecc : Nat} {s : State} (hs : Keeps s0 s) : OutKeeps s0 (execFzRstf c ecc s) := by
  unfold execFzRstf
  try dsimp only
  repeat' first | intro _ | with_reducible first | assumption | apply FzKeeps.ite | apply FzKeeps.ok | apply FzKeeps.trap | apply FzKeeps.stall | apply OutKeeps.done | apply OutKeeps.ite | apply Keeps.ite | apply fzFpArea_keeps | split | dsimp only

theorem execFzSavf_keeps {s0 : State} {c : Nat} {s : State} (hs : Keeps s0 s) : OutKeeps s0 (execFzSavf c s) := by
  unfold execFzSavf
  try dsimp only
  repeat' first | intro _ | with_reducible first | assumption | apply FzKeeps.ite | apply FzKeeps.ok | apply FzKeeps.trap | apply FzKeeps.stall | apply OutKeeps.done | apply OutKeeps.ite | apply Keeps.ite | apply fzFpArea_keeps | split | dsimp only

end Sys2Proof.Machine
end

