-- ==== Sys2Proof/Laws/Keeps/FizInt.lean ====
section
/-! SUPPORT. What the operations of Machine/FizInt.lean keep: the queue, monotone time, free values and life cycle, and the invariant. -/

namespace Sys2Proof.Machine
open Sys2Proof
set_option linter.all false
set_option Elab.async false

theorem execFzAdd_keeps {s0 : State} {c : Nat} {rd : Nat} {ra : Nat} {rb : Nat} {s : State} (hs : Keeps s0 s) : OutKeeps s0 (execFzAdd c rd ra rb s) := by
  unfold execFzAdd
  try dsimp only
  repeat' first | intro _ | with_reducible first | assumption | apply OutKeeps.done | apply OutKeeps.ite | apply Keeps.ite | apply fzAlu_keeps | split | dsimp only

theorem execFzAddi_keeps {s0 : State} {c : Nat} {rd : Nat} {ra : Nat} {imm : Nat} {s : State} (hs : Keeps s0 s) : OutKeeps s0 (execFzAddi c rd ra imm s) := by
  unfold execFzAddi
  try dsimp only
  repeat' first | intro _ | with_reducible first | assumption | apply OutKeeps.done | apply OutKeeps.ite | apply Keeps.ite | apply fzAlu_keeps | split | dsimp only

theorem execFzAnd_keeps {s0 : State} {c : Nat} {rd : Nat} {ra : Nat} {rb : Nat} {s : State} (hs : Keeps s0 s) : OutKeeps s0 (execFzAnd c rd ra rb s) := by
  unfold execFzAnd
  try dsimp only
  repeat' first | intro _ | with_reducible first | assumption | apply OutKeeps.done | apply OutKeeps.ite | apply Keeps.ite | apply fzAlu_keeps | split | dsimp only

theorem execFzAndi_keeps {s0 : State} {c : Nat} {rd : Nat} {ra : Nat} {imm : Nat} {s : State} (hs : Keeps s0 s) : OutKeeps s0 (execFzAndi c rd ra imm s) := by
  unfold execFzAndi
  try dsimp only
  repeat' first | intro _ | with_reducible first | assumption | apply OutKeeps.done | apply OutKeeps.ite | apply Keeps.ite | apply fzAlu_keeps | split | dsimp only

theorem execFzAndn_keeps {s0 : State} {c : Nat} {rd : Nat} {ra : Nat} {rb : Nat} {s : State} (hs : Keeps s0 s) : OutKeeps s0 (execFzAndn c rd ra rb s) := by
  unfold execFzAndn
  try dsimp only
  repeat' first | intro _ | with_reducible first | assumption | apply OutKeeps.done | apply OutKeeps.ite | apply Keeps.ite | apply fzAlu_keeps | split | dsimp only

theorem fzJump_keeps {s0 : State} {c : Nat} {rd : Nat} {target : Word} {s : State} (hs : Keeps s0 s) : FzKeeps s0 (fzJump c rd target s) := by
  unfold fzJump
  try dsimp only
  repeat' first | intro _ | with_reducible first | assumption | refine FzKeeps.getOk (by assumption) ?_ | refine FzKeeps.getTrap (by assumption) ?_ | refine FzKeeps.getStall (by assumption) ?_ | apply FzKeeps.ite | apply FzKeeps.ok | apply FzKeeps.trap | apply FzKeeps.stall | apply Keeps.ite | apply State.setCore_keeps | split | dsimp only

theorem fzBranch_keeps {s0 : State} {c : Nat} {test : FBank → Bool} {disp : Nat} {s : State} (hs : Keeps s0 s) : OutKeeps s0 (fzBranch c test disp s) := by
  unfold fzBranch
  try dsimp only
  repeat' first | intro _ | with_reducible first | assumption | apply FzKeeps.ite | apply FzKeeps.ok | apply FzKeeps.trap | apply FzKeeps.stall | refine FzKeeps.getOk (by assumption) ?_ | refine FzKeeps.getTrap (by assumption) ?_ | refine FzKeeps.getStall (by assumption) ?_ | apply OutKeeps.done | apply OutKeeps.ite | apply Keeps.ite | apply fzDo_keeps | apply fzJump_keeps | apply fzAdvance_keeps | split | dsimp only

theorem execFzBeq_keeps {s0 : State} {c : Nat} {ra : Nat} {rb : Nat} {disp : Nat} {s : State} (hs : Keeps s0 s) : OutKeeps s0 (execFzBeq c ra rb disp s) := by
  unfold execFzBeq
  try dsimp only
  repeat' first | intro _ | with_reducible first | assumption | apply OutKeeps.done | apply OutKeeps.ite | apply Keeps.ite | apply fzBranch_keeps | split | dsimp only

theorem execFzBge_keeps {s0 : State} {c : Nat} {ra : Nat} {rb : Nat} {disp : Nat} {s : State} (hs : Keeps s0 s) : OutKeeps s0 (execFzBge c ra rb disp s) := by
  unfold execFzBge
  try dsimp only
  repeat' first | intro _ | with_reducible first | assumption | apply OutKeeps.done | apply OutKeeps.ite | apply Keeps.ite | apply fzBranch_keeps | split | dsimp only

theorem execFzBgeu_keeps {s0 : State} {c : Nat} {ra : Nat} {rb : Nat} {disp : Nat} {s : State} (hs : Keeps s0 s) : OutKeeps s0 (execFzBgeu c ra rb disp s) := by
  unfold execFzBgeu
  try dsimp only
  repeat' first | intro _ | with_reducible first | assumption | apply OutKeeps.done | apply OutKeeps.ite | apply Keeps.ite | apply fzBranch_keeps | split | dsimp only

theorem execFzBlt_keeps {s0 : State} {c : Nat} {ra : Nat} {rb : Nat} {disp : Nat} {s : State} (hs : Keeps s0 s) : OutKeeps s0 (execFzBlt c ra rb disp s) := by
  unfold execFzBlt
  try dsimp only
  repeat' first | intro _ | with_reducible first | assumption | apply OutKeeps.done | apply OutKeeps.ite | apply Keeps.ite | apply fzBranch_keeps | split | dsimp only

theorem execFzBltu_keeps {s0 : State} {c : Nat} {ra : Nat} {rb : Nat} {disp : Nat} {s : State} (hs : Keeps s0 s) : OutKeeps s0 (execFzBltu c ra rb disp s) := by
  unfold execFzBltu
  try dsimp only
  repeat' first | intro _ | with_reducible first | assumption | apply OutKeeps.done | apply OutKeeps.ite | apply Keeps.ite | apply fzBranch_keeps | split | dsimp only

theorem execFzBne_keeps {s0 : State} {c : Nat} {ra : Nat} {rb : Nat} {disp : Nat} {s : State} (hs : Keeps s0 s) : OutKeeps s0 (execFzBne c ra rb disp s) := by
  unfold execFzBne
  try dsimp only
  repeat' first | intro _ | with_reducible first | assumption | apply OutKeeps.done | apply OutKeeps.ite | apply Keeps.ite | apply fzBranch_keeps | split | dsimp only

theorem execFzClz_keeps {s0 : State} {c : Nat} {rd : Nat} {ra : Nat} {s : State} (hs : Keeps s0 s) : OutKeeps s0 (execFzClz c rd ra s) := by
  unfold execFzClz
  try dsimp only
  repeat' first | intro _ | with_reducible first | assumption | apply OutKeeps.done | apply OutKeeps.ite | apply Keeps.ite | apply fzAlu_keeps | split | dsimp only

theorem execFzDiv_keeps {s0 : State} {c : Nat} {rd : Nat} {ra : Nat} {rb : Nat} {s : State} (hs : Keeps s0 s) : OutKeeps s0 (execFzDiv c rd ra rb s) := by
  unfold execFzDiv
  try dsimp only
  repeat' first | intro _ | with_reducible first | assumption | apply OutKeeps.done | apply OutKeeps.ite | apply Keeps.ite | apply fzAlu_keeps | split | dsimp only

theorem execFzDivu_keeps {s0 : State} {c : Nat} {rd : Nat} {ra : Nat} {rb : Nat} {s : State} (hs : Keeps s0 s) : OutKeeps s0 (execFzDivu c rd ra rb s) := by
  unfold execFzDivu
  try dsimp only
  repeat' first | intro _ | with_reducible first | assumption | apply OutKeeps.done | apply OutKeeps.ite | apply Keeps.ite | apply fzAlu_keeps | split | dsimp only

theorem execFzJ_keeps {s0 : State} {c : Nat} {disp : Nat} {s : State} (hs : Keeps s0 s) : OutKeeps s0 (execFzJ c disp s) := by
  unfold execFzJ
  try dsimp only
  repeat' first | intro _ | with_reducible first | assumption | apply FzKeeps.ite | apply FzKeeps.ok | apply FzKeeps.trap | apply FzKeeps.stall | refine FzKeeps.getOk (by assumption) ?_ | refine FzKeeps.getTrap (by assumption) ?_ | refine FzKeeps.getStall (by assumption) ?_ | apply OutKeeps.done | apply OutKeeps.ite | apply Keeps.ite | apply fzDo_keeps | apply fzJump_keeps | split | dsimp only

theorem execFzJal_keeps {s0 : State} {c : Nat} {disp : Nat} {s : State} (hs : Keeps s0 s) : OutKeeps s0 (execFzJal c disp s) := by
  unfold execFzJal
  try dsimp only
  repeat' first | intro _ | with_reducible first | assumption | apply FzKeeps.ite | apply FzKeeps.ok | apply FzKeeps.trap | apply FzKeeps.stall | refine FzKeeps.getOk (by assumption) ?_ | refine FzKeeps.getTrap (by assumption) ?_ | refine FzKeeps.getStall (by assumption) ?_ | apply OutKeeps.done | apply OutKeeps.ite | apply Keeps.ite | apply fzDo_keeps | apply fzJump_keeps | split | dsimp only

theorem execFzJalr_keeps {s0 : State} {c : Nat} {rd : Nat} {ra : Nat} {imm : Nat} {s : State} (hs : Keeps s0 s) : OutKeeps s0 (execFzJalr c rd ra imm s) := by
  unfold execFzJalr
  try dsimp only
  repeat' first | intro _ | with_reducible first | assumption | apply FzKeeps.ite | apply FzKeeps.ok | apply FzKeeps.trap | apply FzKeeps.stall | refine FzKeeps.getOk (by assumption) ?_ | refine FzKeeps.getTrap (by assumption) ?_ | refine FzKeeps.getStall (by assumption) ?_ | apply OutKeeps.done | apply OutKeeps.ite | apply Keeps.ite | apply fzDo_keeps | apply fzJump_keeps | split | dsimp only

theorem execFzLb_keeps {s0 : State} {c : Nat} {rd : Nat} {ra : Nat} {imm : Nat} {ecc : Nat} {s : State} (hs : Keeps s0 s) : OutKeeps s0 (execFzLb c rd ra imm ecc s) := by
  unfold execFzLb
  try dsimp only
  repeat' first | intro _ | with_reducible first | assumption | apply FzKeeps.ite | apply FzKeeps.ok | apply FzKeeps.trap | apply FzKeeps.stall | refine FzKeeps.getOk (by assumption) ?_ | refine FzKeeps.getTrap (by assumption) ?_ | refine FzKeeps.getStall (by assumption) ?_ | apply OutKeeps.done | apply OutKeeps.ite | apply Keeps.ite | apply fzDo_keeps | apply fzLoad_keeps | split | dsimp only

theorem execFzLbu_keeps {s0 : State} {c : Nat} {rd : Nat} {ra : Nat} {imm : Nat} {ecc : Nat} {s : State} (hs : Keeps s0 s) : OutKeeps s0 (execFzLbu c rd ra imm ecc s) := by
  unfold execFzLbu
  try dsimp only
  repeat' first | intro _ | with_reducible first | assumption | apply FzKeeps.ite | apply FzKeeps.ok | apply FzKeeps.trap | apply FzKeeps.stall | refine FzKeeps.getOk (by assumption) ?_ | refine FzKeeps.getTrap (by assumption) ?_ | refine FzKeeps.getStall (by assumption) ?_ | apply OutKeeps.done | apply OutKeeps.ite | apply Keeps.ite | apply fzDo_keeps | apply fzLoad_keeps | split | dsimp only

theorem execFzLh_keeps {s0 : State} {c : Nat} {rd : Nat} {ra : Nat} {imm : Nat} {ecc : Nat} {s : State} (hs : Keeps s0 s) : OutKeeps s0 (execFzLh c rd ra imm ecc s) := by
  unfold execFzLh
  try dsimp only
  repeat' first | intro _ | with_reducible first | assumption | apply FzKeeps.ite | apply FzKeeps.ok | apply FzKeeps.trap | apply FzKeeps.stall | refine FzKeeps.getOk (by assumption) ?_ | refine FzKeeps.getTrap (by assumption) ?_ | refine FzKeeps.getStall (by assumption) ?_ | apply OutKeeps.done | apply OutKeeps.ite | apply Keeps.ite | apply fzDo_keeps | apply fzLoad_keeps | split | dsimp only

theorem execFzLhu_keeps {s0 : State} {c : Nat} {rd : Nat} {ra : Nat} {imm : Nat} {ecc : Nat} {s : State} (hs : Keeps s0 s) : OutKeeps s0 (execFzLhu c rd ra imm ecc s) := by
  unfold execFzLhu
  try dsimp only
  repeat' first | intro _ | with_reducible first | assumption | apply FzKeeps.ite | apply FzKeeps.ok | apply FzKeeps.trap | apply FzKeeps.stall | refine FzKeeps.getOk (by assumption) ?_ | refine FzKeeps.getTrap (by assumption) ?_ | refine FzKeeps.getStall (by assumption) ?_ | apply OutKeeps.done | apply OutKeeps.ite | apply Keeps.ite | apply fzDo_keeps | apply fzLoad_keeps | split | dsimp only

theorem execFzLui_keeps {s0 : State} {c : Nat} {rd : Nat} {imm : Nat} {s : State} (hs : Keeps s0 s) : OutKeeps s0 (execFzLui c rd imm s) := by
  unfold execFzLui
  try dsimp only
  repeat' first | intro _ | with_reducible first | assumption | apply OutKeeps.done | apply OutKeeps.ite | apply Keeps.ite | apply fzAlu_keeps | split | dsimp only

theorem execFzLw_keeps {s0 : State} {c : Nat} {rd : Nat} {ra : Nat} {imm : Nat} {ecc : Nat} {s : State} (hs : Keeps s0 s) : OutKeeps s0 (execFzLw c rd ra imm ecc s) := by
  unfold execFzLw
  try dsimp only
  repeat' first | intro _ | with_reducible first | assumption | apply FzKeeps.ite | apply FzKeeps.ok | apply FzKeeps.trap | apply FzKeeps.stall | refine FzKeeps.getOk (by assumption) ?_ | refine FzKeeps.getTrap (by assumption) ?_ | refine FzKeeps.getStall (by assumption) ?_ | apply OutKeeps.done | apply OutKeeps.ite | apply Keeps.ite | apply fzDo_keeps | apply fzLoad_keeps | split | dsimp only

theorem execFzMax_keeps {s0 : State} {c : Nat} {rd : Nat} {ra : Nat} {rb : Nat} {s : State} (hs : Keeps s0 s) : OutKeeps s0 (execFzMax c rd ra rb s) := by
  unfold execFzMax
  try dsimp only
  repeat' first | intro _ | with_reducible first | assumption | apply OutKeeps.done | apply OutKeeps.ite | apply Keeps.ite | apply fzAlu_keeps | split | dsimp only

theorem execFzMin_keeps {s0 : State} {c : Nat} {rd : Nat} {ra : Nat} {rb : Nat} {s : State} (hs : Keeps s0 s) : OutKeeps s0 (execFzMin c rd ra rb s) := by
  unfold execFzMin
  try dsimp only
  repeat' first | intro _ | with_reducible first | assumption | apply OutKeeps.done | apply OutKeeps.ite | apply Keeps.ite | apply fzAlu_keeps | split | dsimp only

theorem execFzMul_keeps {s0 : State} {c : Nat} {rd : Nat} {ra : Nat} {rb : Nat} {s : State} (hs : Keeps s0 s) : OutKeeps s0 (execFzMul c rd ra rb s) := by
  unfold execFzMul
  try dsimp only
  repeat' first | intro _ | with_reducible first | assumption | apply OutKeeps.done | apply OutKeeps.ite | apply Keeps.ite | apply fzAlu_keeps | split | dsimp only

theorem execFzMulh_keeps {s0 : State} {c : Nat} {rd : Nat} {ra : Nat} {rb : Nat} {s : State} (hs : Keeps s0 s) : OutKeeps s0 (execFzMulh c rd ra rb s) := by
  unfold execFzMulh
  try dsimp only
  repeat' first | intro _ | with_reducible first | assumption | apply OutKeeps.done | apply OutKeeps.ite | apply Keeps.ite | apply fzAlu_keeps | split | dsimp only

theorem execFzMulhu_keeps {s0 : State} {c : Nat} {rd : Nat} {ra : Nat} {rb : Nat} {s : State} (hs : Keeps s0 s) : OutKeeps s0 (execFzMulhu c rd ra rb s) := by
  unfold execFzMulhu
  try dsimp only
  repeat' first | intro _ | with_reducible first | assumption | apply OutKeeps.done | apply OutKeeps.ite | apply Keeps.ite | apply fzAlu_keeps | split | dsimp only

theorem execFzOr_keeps {s0 : State} {c : Nat} {rd : Nat} {ra : Nat} {rb : Nat} {s : State} (hs : Keeps s0 s) : OutKeeps s0 (execFzOr c rd ra rb s) := by
  unfold execFzOr
  try dsimp only
  repeat' first | intro _ | with_reducible first | assumption | apply OutKeeps.done | apply OutKeeps.ite | apply Keeps.ite | apply fzAlu_keeps | split | dsimp only

theorem execFzOri_keeps {s0 : State} {c : Nat} {rd : Nat} {ra : Nat} {imm : Nat} {s : State} (hs : Keeps s0 s) : OutKeeps s0 (execFzOri c rd ra imm s) := by
  unfold execFzOri
  try dsimp only
  repeat' first | intro _ | with_reducible first | assumption | apply OutKeeps.done | apply OutKeeps.ite | apply Keeps.ite | apply fzAlu_keeps | split | dsimp only

theorem execFzRem_keeps {s0 : State} {c : Nat} {rd : Nat} {ra : Nat} {rb : Nat} {s : State} (hs : Keeps s0 s) : OutKeeps s0 (execFzRem c rd ra rb s) := by
  unfold execFzRem
  try dsimp only
  repeat' first | intro _ | with_reducible first | assumption | apply OutKeeps.done | apply OutKeeps.ite | apply Keeps.ite | apply fzAlu_keeps | split | dsimp only

theorem execFzRemu_keeps {s0 : State} {c : Nat} {rd : Nat} {ra : Nat} {rb : Nat} {s : State} (hs : Keeps s0 s) : OutKeeps s0 (execFzRemu c rd ra rb s) := by
  unfold execFzRemu
  try dsimp only
  repeat' first | intro _ | with_reducible first | assumption | apply OutKeeps.done | apply OutKeeps.ite | apply Keeps.ite | apply fzAlu_keeps | split | dsimp only

theorem execFzRor_keeps {s0 : State} {c : Nat} {rd : Nat} {ra : Nat} {rb : Nat} {s : State} (hs : Keeps s0 s) : OutKeeps s0 (execFzRor c rd ra rb s) := by
  unfold execFzRor
  try dsimp only
  repeat' first | intro _ | with_reducible first | assumption | apply OutKeeps.done | apply OutKeeps.ite | apply Keeps.ite | apply fzAlu_keeps | split | dsimp only

theorem execFzSb_keeps {s0 : State} {c : Nat} {rs : Nat} {ra : Nat} {imm : Nat} {ecc : Nat} {s : State} (hs : Keeps s0 s) : OutKeeps s0 (execFzSb c rs ra imm ecc s) := by
  unfold execFzSb
  try dsimp only
  repeat' first | intro _ | with_reducible first | assumption | apply FzKeeps.ite | apply FzKeeps.ok | apply FzKeeps.trap | apply FzKeeps.stall | refine FzKeeps.getOk (by assumption) ?_ | refine FzKeeps.getTrap (by assumption) ?_ | refine FzKeeps.getStall (by assumption) ?_ | apply OutKeeps.done | apply OutKeeps.ite | apply Keeps.ite | apply fzDo_keeps | apply fzStore_keeps | split | dsimp only

theorem execFzSh_keeps {s0 : State} {c : Nat} {rs : Nat} {ra : Nat} {imm : Nat} {ecc : Nat} {s : State} (hs : Keeps s0 s) : OutKeeps s0 (execFzSh c rs ra imm ecc s) := by
  unfold execFzSh
  try dsimp only
  repeat' first | intro _ | with_reducible first | assumption | apply FzKeeps.ite | apply FzKeeps.ok | apply FzKeeps.trap | apply FzKeeps.stall | refine FzKeeps.getOk (by assumption) ?_ | refine FzKeeps.getTrap (by assumption) ?_ | refine FzKeeps.getStall (by assumption) ?_ | apply OutKeeps.done | apply OutKeeps.ite | apply Keeps.ite | apply fzDo_keeps | apply fzStore_keeps | split | dsimp only

theorem execFzSll_keeps {s0 : State} {c : Nat} {rd : Nat} {ra : Nat} {rb : Nat} {s : State} (hs : Keeps s0 s) : OutKeeps s0 (execFzSll c rd ra rb s) := by
  unfold execFzSll
  try dsimp only
  repeat' first | intro _ | with_reducible first | assumption | apply OutKeeps.done | apply OutKeeps.ite | apply Keeps.ite | apply fzAlu_keeps | split | dsimp only

theorem execFzSlli_keeps {s0 : State} {c : Nat} {rd : Nat} {ra : Nat} {imm : Nat} {s : State} (hs : Keeps s0 s) : OutKeeps s0 (execFzSlli c rd ra imm s) := by
  unfold execFzSlli
  try dsimp only
  repeat' first | intro _ | with_reducible first | assumption | apply OutKeeps.done | apply OutKeeps.ite | apply Keeps.ite | apply fzAlu_keeps | split | dsimp only

theorem execFzSlt_keeps {s0 : State} {c : Nat} {rd : Nat} {ra : Nat} {rb : Nat} {s : State} (hs : Keeps s0 s) : OutKeeps s0 (execFzSlt c rd ra rb s) := by
  unfold execFzSlt
  try dsimp only
  repeat' first | intro _ | with_reducible first | assumption | apply OutKeeps.done | apply OutKeeps.ite | apply Keeps.ite | apply fzAlu_keeps | split | dsimp only

theorem execFzSlti_keeps {s0 : State} {c : Nat} {rd : Nat} {ra : Nat} {imm : Nat} {s : State} (hs : Keeps s0 s) : OutKeeps s0 (execFzSlti c rd ra imm s) := by
  unfold execFzSlti
  try dsimp only
  repeat' first | intro _ | with_reducible first | assumption | apply OutKeeps.done | apply OutKeeps.ite | apply Keeps.ite | apply fzAlu_keeps | split | dsimp only

theorem execFzSltiu_keeps {s0 : State} {c : Nat} {rd : Nat} {ra : Nat} {imm : Nat} {s : State} (hs : Keeps s0 s) : OutKeeps s0 (execFzSltiu c rd ra imm s) := by
  unfold execFzSltiu
  try dsimp only
  repeat' first | intro _ | with_reducible first | assumption | apply OutKeeps.done | apply OutKeeps.ite | apply Keeps.ite | apply fzAlu_keeps | split | dsimp only

theorem execFzSltu_keeps {s0 : State} {c : Nat} {rd : Nat} {ra : Nat} {rb : Nat} {s : State} (hs : Keeps s0 s) : OutKeeps s0 (execFzSltu c rd ra rb s) := by
  unfold execFzSltu
  try dsimp only
  repeat' first | intro _ | with_reducible first | assumption | apply OutKeeps.done | apply OutKeeps.ite | apply Keeps.ite | apply fzAlu_keeps | split | dsimp only

theorem execFzSra_keeps {s0 : State} {c : Nat} {rd : Nat} {ra : Nat} {rb : Nat} {s : State} (hs : Keeps s0 s) : OutKeeps s0 (execFzSra c rd ra rb s) := by
  unfold execFzSra
  try dsimp only
  repeat' first | intro _ | with_reducible first | assumption | apply OutKeeps.done | apply OutKeeps.ite | apply Keeps.ite | apply fzAlu_keeps | split | dsimp only

theorem execFzSrai_keeps {s0 : State} {c : Nat} {rd : Nat} {ra : Nat} {imm : Nat} {s : State} (hs : Keeps s0 s) : OutKeeps s0 (execFzSrai c rd ra imm s) := by
  unfold execFzSrai
  try dsimp only
  repeat' first | intro _ | with_reducible first | assumption | apply OutKeeps.done | apply OutKeeps.ite | apply Keeps.ite | apply fzAlu_keeps | split | dsimp only

theorem execFzSrl_keeps {s0 : State} {c : Nat} {rd : Nat} {ra : Nat} {rb : Nat} {s : State} (hs : Keeps s0 s) : OutKeeps s0 (execFzSrl c rd ra rb s) := by
  unfold execFzSrl
  try dsimp only
  repeat' first | intro _ | with_reducible first | assumption | apply OutKeeps.done | apply OutKeeps.ite | apply Keeps.ite | apply fzAlu_keeps | split | dsimp only

theorem execFzSrli_keeps {s0 : State} {c : Nat} {rd : Nat} {ra : Nat} {imm : Nat} {s : State} (hs : Keeps s0 s) : OutKeeps s0 (execFzSrli c rd ra imm s) := by
  unfold execFzSrli
  try dsimp only
  repeat' first | intro _ | with_reducible first | assumption | apply OutKeeps.done | apply OutKeeps.ite | apply Keeps.ite | apply fzAlu_keeps | split | dsimp only

theorem execFzSub_keeps {s0 : State} {c : Nat} {rd : Nat} {ra : Nat} {rb : Nat} {s : State} (hs : Keeps s0 s) : OutKeeps s0 (execFzSub c rd ra rb s) := by
  unfold execFzSub
  try dsimp only
  repeat' first | intro _ | with_reducible first | assumption | apply OutKeeps.done | apply OutKeeps.ite | apply Keeps.ite | apply fzAlu_keeps | split | dsimp only

theorem execFzSw_keeps {s0 : State} {c : Nat} {rs : Nat} {ra : Nat} {imm : Nat} {ecc : Nat} {s : State} (hs : Keeps s0 s) : OutKeeps s0 (execFzSw c rs ra imm ecc s) := by
  unfold execFzSw
  try dsimp only
  repeat' first | intro _ | with_reducible first | assumption | apply FzKeeps.ite | apply FzKeeps.ok | apply FzKeeps.trap | apply FzKeeps.stall | refine FzKeeps.getOk (by assumption) ?_ | refine FzKeeps.getTrap (by assumption) ?_ | refine FzKeeps.getStall (by assumption) ?_ | apply OutKeeps.done | apply OutKeeps.ite | apply Keeps.ite | apply fzDo_keeps | apply fzStore_keeps | split | dsimp only

theorem fzSwap_keeps {s0 : State} {c : Nat} {rd : Nat} {a : Word} {ecc : Nat} {s : State} (hs : Keeps s0 s) : FzKeeps s0 (fzSwap c rd a ecc s) := by
  unfold fzSwap
  try dsimp only
  repeat' first | intro _ | with_reducible first | assumption | refine Keeps.snd (by assumption) ?_ | refine FzKeeps.getOk (by assumption) ?_ | refine FzKeeps.getTrap (by assumption) ?_ | refine FzKeeps.getStall (by assumption) ?_ | apply FzKeeps.ite | apply FzKeeps.ok | apply FzKeeps.trap | apply FzKeeps.stall | apply Keeps.ite | apply fzAtBank_keeps | apply fzRead_keeps | apply fzWrite_keeps | apply fzSetReg_keeps | split | dsimp only

theorem execFzSwap_keeps {s0 : State} {c : Nat} {rd : Nat} {ra : Nat} {imm : Nat} {ecc : Nat} {s : State} (hs : Keeps s0 s) : OutKeeps s0 (execFzSwap c rd ra imm ecc s) := by
  unfold execFzSwap
  try dsimp only
  repeat' first | intro _ | with_reducible first | assumption | apply FzKeeps.ite | apply FzKeeps.ok | apply FzKeeps.trap | apply FzKeeps.stall | refine FzKeeps.getOk (by assumption) ?_ | refine FzKeeps.getTrap (by assumption) ?_ | refine FzKeeps.getStall (by assumption) ?_ | apply OutKeeps.done | apply OutKeeps.ite | apply Keeps.ite | apply fzDo_keeps | apply fzSwap_keeps | split | dsimp only

theorem execFzXor_keeps {s0 : State} {c : Nat} {rd : Nat} {ra : Nat} {rb : Nat} {s : State} (hs : Keeps s0 s) : OutKeeps s0 (execFzXor c rd ra rb s) := by
  unfold execFzXor
  try dsimp only
  repeat' first | intro _ | with_reducible first | assumption | apply OutKeeps.done | apply OutKeeps.ite | apply Keeps.ite | apply fzAlu_keeps | split | dsimp only

theorem execFzXori_keeps {s0 : State} {c : Nat} {rd : Nat} {ra : Nat} {imm : Nat} {s : State} (hs : Keeps s0 s) : OutKeeps s0 (execFzXori c rd ra imm s) := by
  unfold execFzXori
  try dsimp only
  repeat' first | intro _ | with_reducible first | assumption | apply OutKeeps.done | apply OutKeeps.ite | apply Keeps.ite | apply fzAlu_keeps | split | dsimp only

end Sys2Proof.Machine
end

