-- ==== Sys2Proof/Laws/Keeps/HostFrames.lean ====
section
/-! SUPPORT. What the operations of Machine/HostFrames.lean keep: the queue, monotone time, free values and life cycle, and the invariant. -/

namespace Sys2Proof.Machine
open Sys2Proof
set_option linter.all false
set_option Elab.async false

theorem hostError_keeps {s0 : State} {s : State} (hs : Keeps s0 s) : Keeps s0 (hostError s) := by
  unfold hostError
  try dsimp only
  repeat' first | intro _ | with_reducible first | assumption | apply Keeps.ite | apply State.bump_keeps | split | dsimp only

theorem hostBegin_keeps {s0 : State} {f : HostFrame} {s : State} (hs : Keeps s0 s) : OptKeeps s0 (hostBegin f s) := by
  unfold hostBegin
  try dsimp only
  repeat' first | intro _ | with_reducible first | assumption | refine OptKeeps.get (by assumption) ?_ | apply OptKeeps.none | apply OptKeeps.some | apply OptKeeps.ite | apply Keeps.ite | apply beginLoad_keeps | split | dsimp only

theorem hostData_keeps {s0 : State} {f : HostFrame} {s : State} (hs : Keeps s0 s) : OptKeeps s0 (hostData f s) := by
  unfold hostData
  try dsimp only
  repeat' first | intro _ | with_reducible first | assumption | refine OptKeeps.get (by assumption) ?_ | apply OptKeeps.none | apply OptKeeps.some | apply OptKeeps.ite | apply Keeps.ite | apply loadBytes_keeps | split | dsimp only

theorem hostSdo_keeps {s0 : State} {f : HostFrame} {s : State} (hs : Keeps s0 s) : OptKeeps s0 (hostSdo f s) := by
  unfold hostSdo
  try dsimp only
  repeat' first | intro _ | with_reducible first | assumption | refine OptKeeps.get (by assumption) ?_ | apply OptKeeps.none | apply OptKeeps.some | apply OptKeeps.ite | apply Keeps.ite | apply Keeps.ok | apply Keeps.refuse | apply Keeps.iteR | apply blockRequest_keeps | apply anyRequest_keeps | apply secureRequest_keeps | apply answered_keeps | apply lengthRefused_keeps | apply mailArrives_keeps | split | dsimp only

theorem hostBqWrite_keeps {s0 : State} {f : HostFrame} {s : State} (hs : Keeps s0 s) : OptKeeps s0 (hostBqWrite f s) := by
  unfold hostBqWrite
  try dsimp only
  repeat' first | intro _ | with_reducible first | assumption | refine OptKeeps.get (by assumption) ?_ | apply OptKeeps.none | apply OptKeeps.some | apply OptKeeps.ite | apply Keeps.ite | apply bqWrite_keeps | split | dsimp only

theorem hostSend_keeps {s0 : State} {f : HostFrame} {kind : Nat} {body : List Byte} {s : State} (hs : Keeps s0 s) : Keeps s0 (hostSend f kind body s) := by
  unfold hostSend
  try dsimp only
  repeat' first | intro _ | with_reducible first | assumption | apply Keeps.ite | (rw [State.mk_marked]; first | apply Keeps.upd | apply Keeps.updTime | apply Keeps.updFree | apply Keeps.updOd | apply Keeps.updFuses) | split | dsimp only

theorem hostRead_keeps {s0 : State} {f : HostFrame} {s : State} (hs : Keeps s0 s) : OptKeeps s0 (hostRead f s) := by
  unfold hostRead
  try dsimp only
  repeat' first | intro _ | with_reducible first | assumption | refine OptKeeps.get (by assumption) ?_ | apply OptKeeps.none | apply OptKeeps.some | apply OptKeeps.ite | apply Keeps.ite | apply hostSend_keeps | apply State.setBq_keeps | (rw [State.mk_marked]; first | apply Keeps.upd | apply Keeps.updTime | apply Keeps.updFree | apply Keeps.updOd | apply Keeps.updFuses) | split | dsimp only

theorem hostAct_keeps {s0 : State} {f : HostFrame} {s : State} (hs : Keeps s0 s) : OptKeeps s0 (hostAct f s) := by
  unfold hostAct
  try dsimp only
  repeat' first | intro _ | with_reducible first | assumption | refine OptKeeps.get (by assumption) ?_ | apply OptKeeps.none | apply OptKeeps.some | apply OptKeeps.ite | apply Keeps.ite | apply hostBegin_keeps | apply hostData_keeps | apply loadWhole_keeps | apply abortLoad_keeps | apply hostSdo_keeps | apply hostBqWrite_keeps | apply hostRead_keeps | split | dsimp only

theorem hostRelay_keeps {s0 : State} {bs : List Byte} {f : HostFrame} {s : State} (hs : Keeps s0 s) : Keeps s0 (hostRelay bs f s) := by
  unfold hostRelay
  try dsimp only
  repeat' first | intro _ | with_reducible first | assumption | apply Keeps.ite | apply linkSend_keeps | apply Keeps.foldl | split | dsimp only

theorem hostFrame_keeps {s0 : State} {bs : List Byte} {s : State} (hs : Keeps s0 s) : Keeps s0 (hostFrame bs s) := by
  unfold hostFrame
  try dsimp only
  repeat' first | intro _ | with_reducible first | assumption | refine OptKeeps.get (by assumption) ?_ | apply OptKeeps.some | apply OptKeeps.none | apply Keeps.ite | apply hostError_keeps | apply hostAct_keeps | apply hostRelay_keeps | (rw [State.mk_marked]; first | apply Keeps.upd | apply Keeps.updTime | apply Keeps.updFree | apply Keeps.updOd | apply Keeps.updFuses) | split | dsimp only

theorem hostPort_keeps {s0 : State} {bs : List Byte} {s : State} (hs : Keeps s0 s) : Keeps s0 (hostPort bs s) := by
  unfold hostPort
  try dsimp only
  repeat' first | intro _ | with_reducible first | assumption | apply Keeps.ite | apply hostFrame_keeps | split | dsimp only

theorem hostRow_keeps {s0 : State} {sel : Nat → Nat → Bool} {bs : FrameData} {s : State} (hs : Keeps s0 s) : OutKeeps s0 (hostRow sel bs s) := by
  unfold hostRow
  try dsimp only
  repeat' first | intro _ | with_reducible first | assumption | apply OutKeeps.done | apply OutKeeps.ite | apply Keeps.ite | apply hostPort_keeps | split | dsimp only

theorem execBqWrite_keeps {s0 : State} {bs : FrameData} {s : State} (hs : Keeps s0 s) : OutKeeps s0 (execBqWrite bs s) := by
  unfold execBqWrite
  try dsimp only
  repeat' first | intro _ | with_reducible first | assumption | apply OutKeeps.done | apply OutKeeps.ite | apply Keeps.ite | apply hostRow_keeps | split | dsimp only

theorem execCfgWidthSample_keeps {s0 : State} {mode : Nat} {s : State} (hs : Keeps s0 s) : OutKeeps s0 (execCfgWidthSample mode s) := by
  unfold execCfgWidthSample
  try dsimp only
  repeat' first | intro _ | with_reducible first | assumption | apply OutKeeps.done | apply OutKeeps.ite | apply Keeps.ite | apply State.setObj_keeps | (rw [State.mk_marked]; first | apply Keeps.upd | apply Keeps.updTime | apply Keeps.updFree | apply Keeps.updOd | apply Keeps.updFuses) | split | dsimp only

theorem execImageAbort_keeps {s0 : State} {bs : FrameData} {s : State} (hs : Keeps s0 s) : OutKeeps s0 (execImageAbort bs s) := by
  unfold execImageAbort
  try dsimp only
  repeat' first | intro _ | with_reducible first | assumption | apply OutKeeps.done | apply OutKeeps.ite | apply Keeps.ite | apply hostRow_keeps | split | dsimp only

theorem execImageBeginDeviceLoad_keeps {s0 : State} {bs : FrameData} {s : State} (hs : Keeps s0 s) : OutKeeps s0 (execImageBeginDeviceLoad bs s) := by
  unfold execImageBeginDeviceLoad
  try dsimp only
  repeat' first | intro _ | with_reducible first | assumption | apply OutKeeps.done | apply OutKeeps.ite | apply Keeps.ite | apply hostRow_keeps | split | dsimp only

theorem execImageBeginRecipeStore_keeps {s0 : State} {bs : FrameData} {s : State} (hs : Keeps s0 s) : OutKeeps s0 (execImageBeginRecipeStore bs s) := by
  unfold execImageBeginRecipeStore
  try dsimp only
  repeat' first | intro _ | with_reducible first | assumption | apply OutKeeps.done | apply OutKeeps.ite | apply Keeps.ite | apply hostRow_keeps | split | dsimp only

theorem execImageBeginRegionReload_keeps {s0 : State} {bs : FrameData} {s : State} (hs : Keeps s0 s) : OutKeeps s0 (execImageBeginRegionReload bs s) := by
  unfold execImageBeginRegionReload
  try dsimp only
  repeat' first | intro _ | with_reducible first | assumption | apply OutKeeps.done | apply OutKeeps.ite | apply Keeps.ite | apply hostRow_keeps | split | dsimp only

theorem execImageBeginShadowLoad_keeps {s0 : State} {bs : FrameData} {s : State} (hs : Keeps s0 s) : OutKeeps s0 (execImageBeginShadowLoad bs s) := by
  unfold execImageBeginShadowLoad
  try dsimp only
  repeat' first | intro _ | with_reducible first | assumption | apply OutKeeps.done | apply OutKeeps.ite | apply Keeps.ite | apply hostRow_keeps | split | dsimp only

theorem execImageData_keeps {s0 : State} {bs : FrameData} {s : State} (hs : Keeps s0 s) : OutKeeps s0 (execImageData bs s) := by
  unfold execImageData
  try dsimp only
  repeat' first | intro _ | with_reducible first | assumption | apply OutKeeps.done | apply OutKeeps.ite | apply Keeps.ite | apply hostRow_keeps | split | dsimp only

theorem execImageEnd_keeps {s0 : State} {bs : FrameData} {s : State} (hs : Keeps s0 s) : OutKeeps s0 (execImageEnd bs s) := by
  unfold execImageEnd
  try dsimp only
  repeat' first | intro _ | with_reducible first | assumption | apply OutKeeps.done | apply OutKeeps.ite | apply Keeps.ite | apply hostRow_keeps | split | dsimp only

theorem execReadBq_keeps {s0 : State} {bs : FrameData} {s : State} (hs : Keeps s0 s) : OutKeeps s0 (execReadBq bs s) := by
  unfold execReadBq
  try dsimp only
  repeat' first | intro _ | with_reducible first | assumption | apply OutKeeps.done | apply OutKeeps.ite | apply Keeps.ite | apply hostRow_keeps | split | dsimp only

theorem execReadSdoResponse_keeps {s0 : State} {bs : FrameData} {s : State} (hs : Keeps s0 s) : OutKeeps s0 (execReadSdoResponse bs s) := by
  unfold execReadSdoResponse
  try dsimp only
  repeat' first | intro _ | with_reducible first | assumption | apply OutKeeps.done | apply OutKeeps.ite | apply Keeps.ite | apply hostRow_keeps | split | dsimp only

theorem execReadStatus_keeps {s0 : State} {bs : FrameData} {s : State} (hs : Keeps s0 s) : OutKeeps s0 (execReadStatus bs s) := by
  unfold execReadStatus
  try dsimp only
  repeat' first | intro _ | with_reducible first | assumption | apply OutKeeps.done | apply OutKeeps.ite | apply Keeps.ite | apply hostRow_keeps | split | dsimp only

theorem execSdoFrameCaRead_keeps {s0 : State} {bs : FrameData} {s : State} (hs : Keeps s0 s) : OutKeeps s0 (execSdoFrameCaRead bs s) := by
  unfold execSdoFrameCaRead
  try dsimp only
  repeat' first | intro _ | with_reducible first | assumption | apply OutKeeps.done | apply OutKeeps.ite | apply Keeps.ite | apply hostRow_keeps | split | dsimp only

theorem execSdoFrameCaWrite_keeps {s0 : State} {bs : FrameData} {s : State} (hs : Keeps s0 s) : OutKeeps s0 (execSdoFrameCaWrite bs s) := by
  unfold execSdoFrameCaWrite
  try dsimp only
  repeat' first | intro _ | with_reducible first | assumption | apply OutKeeps.done | apply OutKeeps.ite | apply Keeps.ite | apply hostRow_keeps | split | dsimp only

theorem execSdoFrameRead_keeps {s0 : State} {bs : FrameData} {s : State} (hs : Keeps s0 s) : OutKeeps s0 (execSdoFrameRead bs s) := by
  unfold execSdoFrameRead
  try dsimp only
  repeat' first | intro _ | with_reducible first | assumption | apply OutKeeps.done | apply OutKeeps.ite | apply Keeps.ite | apply hostRow_keeps | split | dsimp only

theorem execSdoFrameWrite_keeps {s0 : State} {bs : FrameData} {s : State} (hs : Keeps s0 s) : OutKeeps s0 (execSdoFrameWrite bs s) := by
  unfold execSdoFrameWrite
  try dsimp only
  repeat' first | intro _ | with_reducible first | assumption | apply OutKeeps.done | apply OutKeeps.ite | apply Keeps.ite | apply hostRow_keeps | split | dsimp only

end Sys2Proof.Machine
end

