-- ==== Sys2Proof/Laws/Keeps/StartOps.lean ====
section
/-! SUPPORT. What the operations of Machine/StartOps.lean keep: the queue, monotone time, free values and life cycle, and the invariant. -/

namespace Sys2Proof.Machine
open Sys2Proof
set_option linter.all false
set_option Elab.async false

theorem activated_keeps {s0 : State} {s : State} (hs : Keeps s0 s) : Keeps s0 (activated s) := by
  unfold activated
  try dsimp only
  repeat' first | intro _ | with_reducible first | assumption | apply Keeps.ite | apply State.setObj_keeps | apply fwRecord_keeps | apply raise_keeps | apply fwEnter_keeps | split | dsimp only

theorem applyValue_keeps {s0 : State} {values : SMap Nat} {s : State} {e : Nat × Nat × Nat} (hs : Keeps s0 s) : Keeps s0 (applyValue values s e) := by
  unfold applyValue
  try dsimp only
  repeat' first | intro _ | with_reducible first | assumption | refine ActKeeps.getNow (by assumption) ?_ | refine ActKeeps.getLater (by assumption) ?_ | apply Keeps.ite | apply writeSub_keeps | apply State.addObjW_keeps | split | dsimp only

theorem applySaved_keeps {s0 : State} {s : State} (hs : Keeps s0 s) : Keeps s0 (applySaved s) := by
  unfold applySaved
  try dsimp only
  repeat' first | intro _ | with_reducible first | assumption | apply Keeps.ite | apply raise_keeps | apply State.setObj_keeps | apply applyValue_keeps | apply Keeps.foldl | split | dsimp only

theorem execFlashProgramComplete_keeps {s0 : State} {s : State} (hs : Keeps s0 s) : OutKeeps s0 (execFlashProgramComplete s) := by
  unfold execFlashProgramComplete
  try dsimp only
  repeat' first | intro _ | with_reducible first | assumption | apply OutKeeps.done | apply OutKeeps.ite | apply Keeps.ite | apply flashNext_keeps | apply flashEffect_keeps | apply State.setUpdate_keeps | apply endLoad_keeps | split | dsimp only

theorem loadRefused_keeps {s0 : State} {f : Refuse} {s : State} (hs : Keeps s0 s) : Keeps s0 (loadRefused f s) := by
  unfold loadRefused
  try dsimp only
  repeat' first | intro _ | with_reducible first | assumption | apply Keeps.ite | apply endLoad_keeps | apply coState_keeps | apply State.setObj_keeps | split | dsimp only

theorem startOff_keeps {s0 : State} {img : List Byte} {s : State} (hs : Keeps s0 s) : Keeps s0 (startOff img s) := by
  unfold startOff
  try dsimp only
  repeat' first | intro _ | with_reducible first | assumption | apply Keeps.ite | apply domainReach_keeps | apply Keeps.foldl | split | dsimp only

theorem linkAlarm_keeps {s0 : State} {s : State} (hs : Keeps s0 s) : Keeps s0 (linkAlarm s) := by
  unfold linkAlarm
  try dsimp only
  repeat' first | intro _ | with_reducible first | assumption | apply Keeps.ite | apply setCond_keeps | split | dsimp only

theorem linksTrain_keeps {s0 : State} {s : State} (hs : Keeps s0 s) : Keeps s0 (linksTrain s) := by
  unfold linksTrain
  try dsimp only
  repeat' first | intro _ | with_reducible first | assumption | apply Keeps.ite | apply linkAlarm_keeps | apply linkTrain_keeps | apply Keeps.foldl | split | dsimp only

theorem setEntry_keeps {s0 : State} {k : Nat} {e : StepEntry} {s : State} (hs : Keeps s0 s) : Keeps s0 (setEntry k e s) := by
  unfold setEntry
  try dsimp only
  repeat' first | intro _ | with_reducible first | assumption | apply Keeps.ite | (rw [State.mk_marked]; first | apply Keeps.upd | apply Keeps.updTime | apply Keeps.updFree | apply Keeps.updOd | apply Keeps.updFuses) | split | dsimp only

theorem stepPass_keeps {s0 : State} {k : Nat} {ms : Nat} {s : State} (hs : Keeps s0 s) : Keeps s0 (stepPass k ms s) := by
  unfold stepPass
  try dsimp only
  repeat' first | intro _ | with_reducible first | assumption | apply Keeps.ite | apply setEntry_keeps | split | dsimp only

theorem s11Done_keeps {s0 : State} {img : List Byte} {s : State} (hs : Keeps s0 s) : Keeps s0 (s11Done img s) := by
  unfold s11Done
  try dsimp only
  repeat' first | intro _ | with_reducible first | assumption | apply Keeps.ite | apply startOff_keeps | apply applySaved_keeps | apply linksTrain_keeps | apply recordChanged_keeps | apply stepPass_keeps | (rw [State.mk_marked]; first | apply Keeps.upd | apply Keeps.updTime | apply Keeps.updFree | apply Keeps.updOd | apply Keeps.updFuses) | split | dsimp only

theorem loadAccepted_keeps {s0 : State} {img : List Byte} {s : State} (hs : Keeps s0 s) : Keeps s0 (loadAccepted img s) := by
  unfold loadAccepted
  try dsimp only
  repeat' first | intro _ | with_reducible first | assumption | apply Keeps.ite | apply s11Done_keeps | apply endLoad_keeps | apply writeDevice_keeps | apply regionOffline_keeps | apply State.setLoad_keeps | apply coState_keeps | apply writeShadow_keeps | split | dsimp only

theorem execLoadCheckComplete_keeps {s0 : State} {failed : Nat} {s : State} (hs : Keeps s0 s) : OutKeeps s0 (execLoadCheckComplete failed s) := by
  unfold execLoadCheckComplete
  try dsimp only
  repeat' first | intro _ | with_reducible first | assumption | apply OutKeeps.done | apply OutKeeps.ite | apply Keeps.ite | apply endLoad_keeps | apply storeRecipe_keeps | apply loadRefused_keeps | apply raise_keeps | apply loadAccepted_keeps | apply domainReach_keeps | apply Keeps.foldl | split | dsimp only

theorem runFirmware_keeps {s0 : State} {s : State} (hs : Keeps s0 s) : Keeps s0 (runFirmware s) := by
  unfold runFirmware
  try dsimp only
  repeat' first | intro _ | with_reducible first | assumption | apply Keeps.ite | apply State.setCore_keeps | apply State.setObj_keeps | apply startMp_keeps | split | dsimp only

theorem execMpRestartDone_keeps {s0 : State} {s : State} (hs : Keeps s0 s) : OutKeeps s0 (execMpRestartDone s) := by
  unfold execMpRestartDone
  try dsimp only
  repeat' first | intro _ | with_reducible first | assumption | apply OutKeeps.done | apply OutKeeps.ite | apply Keeps.ite | apply State.setObj_keeps | apply runFirmware_keeps | apply activated_keeps | apply fwEnter_keeps | apply fwDrop_keeps | apply fwSlotAlarm_keeps | apply serveNext_keeps | apply mailPump_keeps | split | dsimp only

theorem recordShow_keeps {s0 : State} {s : State} (hs : Keeps s0 s) : Keeps s0 (recordShow s) := by
  unfold recordShow
  try dsimp only
  repeat' first | intro _ | with_reducible first | assumption | apply Keeps.ite | apply setCond_keeps | apply State.setObj_keeps | apply Keeps.foldl | split | dsimp only

theorem stepFail_keeps {s0 : State} {k : Nat} {code : Nat} {ms : Nat} {fails : Nat} {variant : Nat} {s : State} (hs : Keeps s0 s) : Keeps s0 (stepFail k code ms fails variant s) := by
  unfold stepFail
  try dsimp only
  repeat' first | intro _ | with_reducible first | assumption | apply Keeps.ite | apply setEntry_keeps | split | dsimp only

end Sys2Proof.Machine
end

