-- ==== Sys2Proof/Laws/Keeps/Link.lean ====
section
/-! SUPPORT. What the operations of Machine/Link.lean keep: the queue, monotone time, free values and life cycle, and the invariant. -/

namespace Sys2Proof.Machine
open Sys2Proof
set_option linter.all false
set_option Elab.async false

theorem linkTokens_keeps {s0 : State} {stream : Nat} {a : List LinkTok} {a3 : State} (ha3 : Keeps s0 a3) : Keeps s0 (linkTokens stream a a3) := by
  induction a generalizing a3 with
  | nil => exact ha3
  | cons t ts ih =>
    cases ts with
    | nil => exact enterFree_keeps ha3
    | cons u us => exact ih (enterFree_keeps ha3)

theorem linkAccept_keeps {s0 : State} {l : Nat} {h : Nat} {mid : List Nat} {s : State} (hs : Keeps s0 s) : Keeps s0 (linkAccept l h mid s) := by
  unfold linkAccept
  try dsimp only
  repeat' first | intro _ | with_reducible first | assumption | apply Keeps.ite | apply linkTokens_keeps | apply voteArrives_keeps | apply hostFrame_keeps | apply State.setLink_keeps | split | dsimp only

theorem linkReceive_keeps {s0 : State} {l : Nat} {bs : List Nat} {s : State} (hs : Keeps s0 s) : Keeps s0 (linkReceive l bs s) := by
  unfold linkReceive
  try dsimp only
  repeat' first | intro _ | with_reducible first | assumption | apply Keeps.ite | apply State.bumpi_keeps | apply linkAcked_keeps | apply State.setObji_keeps | apply linkAccept_keeps | apply State.setLink_keeps | split | dsimp only

theorem linkRow_keeps {s0 : State} {kind : Nat} {l : Nat} {bs : FrameData} {s : State} (hs : Keeps s0 s) : OutKeeps s0 (linkRow kind l bs s) := by
  unfold linkRow
  try dsimp only
  repeat' first | intro _ | with_reducible first | assumption | apply OutKeeps.done | apply OutKeeps.ite | apply Keeps.ite | apply linkReceive_keeps | split | dsimp only

theorem execLinkIdleFrame_keeps {s0 : State} {l : Nat} {bs : FrameData} {s : State} (hs : Keeps s0 s) : OutKeeps s0 (execLinkIdleFrame l bs s) := by
  unfold execLinkIdleFrame
  try dsimp only
  repeat' first | intro _ | with_reducible first | assumption | apply OutKeeps.done | apply OutKeeps.ite | apply Keeps.ite | apply linkRow_keeps | split | dsimp only

theorem execLinkIdleTimer_keeps {s0 : State} {l : Nat} {s : State} (hs : Keeps s0 s) : OutKeeps s0 (execLinkIdleTimer l s) := by
  unfold execLinkIdleTimer
  try dsimp only
  repeat' first | intro _ | with_reducible first | assumption | apply OutKeeps.done | apply OutKeeps.ite | apply Keeps.ite | apply State.setLink_keeps | split | dsimp only

theorem linkLoss_keeps {s0 : State} {l : Nat} {s : State} (hs : Keeps s0 s) : Keeps s0 (linkLoss l s) := by
  unfold linkLoss
  try dsimp only
  repeat' first | intro _ | with_reducible first | assumption | apply Keeps.ite | apply linkTrain_keeps | apply State.bumpi_keeps | apply linkFall_keeps | apply raise_keeps | apply linkAlarm_keeps | split | dsimp only

theorem execLinkLossOfLock_keeps {s0 : State} {l : Nat} {s : State} (hs : Keeps s0 s) : OutKeeps s0 (execLinkLossOfLock l s) := by
  unfold execLinkLossOfLock
  try dsimp only
  repeat' first | intro _ | with_reducible first | assumption | apply OutKeeps.done | apply OutKeeps.ite | apply Keeps.ite | apply linkLoss_keeps | split | dsimp only

theorem execLinkRelayFrame_keeps {s0 : State} {l : Nat} {bs : FrameData} {s : State} (hs : Keeps s0 s) : OutKeeps s0 (execLinkRelayFrame l bs s) := by
  unfold execLinkRelayFrame
  try dsimp only
  repeat' first | intro _ | with_reducible first | assumption | apply OutKeeps.done | apply OutKeeps.ite | apply Keeps.ite | apply linkRow_keeps | split | dsimp only

theorem execLinkResendTimeout_keeps {s0 : State} {l : Nat} {s : State} (hs : Keeps s0 s) : OutKeeps s0 (execLinkResendTimeout l s) := by
  unfold execLinkResendTimeout
  try dsimp only
  repeat' first | intro _ | with_reducible first | assumption | apply OutKeeps.done | apply OutKeeps.ite | apply Keeps.ite | apply linkLoss_keeps | apply State.setObji_keeps | apply State.setLink_keeps | split | dsimp only

theorem execLinkTokenFrame_keeps {s0 : State} {l : Nat} {bs : FrameData} {s : State} (hs : Keeps s0 s) : OutKeeps s0 (execLinkTokenFrame l bs s) := by
  unfold execLinkTokenFrame
  try dsimp only
  repeat' first | intro _ | with_reducible first | assumption | apply OutKeeps.done | apply OutKeeps.ite | apply Keeps.ite | apply linkRow_keeps | split | dsimp only

theorem execLinkTrainingDone_keeps {s0 : State} {l : Nat} {s : State} (hs : Keeps s0 s) : OutKeeps s0 (execLinkTrainingDone l s) := by
  unfold execLinkTrainingDone
  try dsimp only
  repeat' first | intro _ | with_reducible first | assumption | apply OutKeeps.done | apply OutKeeps.ite | apply Keeps.ite | apply linkAlarm_keeps | apply State.setObji_keeps | apply State.setLink_keeps | split | dsimp only

theorem execVoteFrame_keeps {s0 : State} {l : Nat} {bs : FrameData} {s : State} (hs : Keeps s0 s) : OutKeeps s0 (execVoteFrame l bs s) := by
  unfold execVoteFrame
  try dsimp only
  repeat' first | intro _ | with_reducible first | assumption | apply OutKeeps.done | apply OutKeeps.ite | apply Keeps.ite | apply linkRow_keeps | split | dsimp only

theorem execVoteTimer_keeps {s0 : State} {s : State} (hs : Keeps s0 s) : OutKeeps s0 (execVoteTimer s) := by
  unfold execVoteTimer
  try dsimp only
  repeat' first | intro _ | with_reducible first | assumption | apply OutKeeps.done | apply OutKeeps.ite | apply Keeps.ite | apply linkSend_keeps | apply State.setLink_keeps | apply Keeps.foldl | split | dsimp only

end Sys2Proof.Machine
end

