-- ==== Sys2Proof/Laws/Keeps/Serial.lean ====
section
/-! SUPPORT. What the operations of Machine/Serial.lean keep: the queue, monotone time, free values and life cycle, and the invariant. -/

namespace Sys2Proof.Machine
open Sys2Proof
set_option linter.all false
set_option Elab.async false

theorem State.setSerial_keeps {s0 : State} {s : State} {ch : Nat} {x3 : Serial} (hs : Keeps s0 s) : Keeps s0 (State.setSerial s ch x3) := by
  unfold State.setSerial
  try dsimp only
  repeat' first | intro _ | with_reducible first | assumption | apply Keeps.ite | (rw [State.mk_marked]; first | apply Keeps.upd | apply Keeps.updTime | apply Keeps.updFree | apply Keeps.updOd | apply Keeps.updFuses) | split | dsimp only

theorem serBump_keeps {s0 : State} {ch : Nat} {sub : Nat} {s : State} (hs : Keeps s0 s) : Keeps s0 (serBump ch sub s) := by
  unfold serBump
  try dsimp only
  repeat' first | intro _ | with_reducible first | assumption | apply Keeps.ite | apply State.bumpi_keeps | split | dsimp only

theorem serToken_keeps {s0 : State} {ch : Nat} {t : Token} {s : State} (hs : Keeps s0 s) : Keeps s0 (serToken ch t s) := by
  unfold serToken
  try dsimp only
  repeat' first | intro _ | with_reducible first | assumption | apply Keeps.ite | apply serBump_keeps | apply enterFabric_keeps | split | dsimp only

theorem execDriveResponseReceived_keeps {s0 : State} {ch : Nat} {ago : Nat} {bytes : List RxByte} {s : State} (hs : Keeps s0 s) : OutKeeps s0 (execDriveResponseReceived ch ago bytes s) := by
  unfold execDriveResponseReceived
  try dsimp only
  repeat' first | intro _ | with_reducible first | assumption | apply OutKeeps.done | apply OutKeeps.ite | apply Keeps.ite | apply State.setSerial_keeps | apply serBump_keeps | apply serToken_keeps | split | dsimp only

theorem execDriveResponseTimeout_keeps {s0 : State} {ch : Nat} {s : State} (hs : Keeps s0 s) : OutKeeps s0 (execDriveResponseTimeout ch s) := by
  unfold execDriveResponseTimeout
  try dsimp only
  repeat' first | intro _ | with_reducible first | assumption | apply OutKeeps.done | apply OutKeeps.ite | apply Keeps.ite | apply raise_keeps | apply serBump_keeps | apply State.setSerial_keeps | apply serToken_keeps | split | dsimp only

theorem execSsiPoll_keeps {s0 : State} {ch : Nat} {s : State} (hs : Keeps s0 s) : OutKeeps s0 (execSsiPoll ch s) := by
  unfold execSsiPoll
  try dsimp only
  repeat' first | intro _ | with_reducible first | assumption | apply OutKeeps.done | apply OutKeeps.ite | apply Keeps.ite | apply State.setSerial_keeps | apply serBump_keeps | split | dsimp only

theorem execSsiReadComplete_keeps {s0 : State} {ch : Nat} {pos : Nat} {st : Nat} {err : Bool} {s : State} (hs : Keeps s0 s) : OutKeeps s0 (execSsiReadComplete ch pos st err s) := by
  unfold execSsiReadComplete
  try dsimp only
  repeat' first | intro _ | with_reducible first | assumption | apply OutKeeps.done | apply OutKeeps.ite | apply Keeps.ite | apply serBump_keeps | apply serToken_keeps | apply State.setSerial_keeps | split | dsimp only

theorem execUartFrameEnd_keeps {s0 : State} {ch : Nat} {ago : Nat} {received : List RxByte} {s : State} (hs : Keeps s0 s) : OutKeeps s0 (execUartFrameEnd ch ago received s) := by
  unfold execUartFrameEnd
  try dsimp only
  repeat' first | intro _ | with_reducible first | assumption | apply OutKeeps.done | apply OutKeeps.ite | apply Keeps.ite | apply State.setObji_keeps | apply serToken_keeps | apply Keeps.foldl | split | dsimp only

theorem serSend_keeps {s0 : State} {ch : Nat} {ws : List Word} {s : State} (hs : Keeps s0 s) : Keeps s0 (serSend ch ws s) := by
  unfold serSend
  try dsimp only
  repeat' first | intro _ | with_reducible first | assumption | apply Keeps.ite | apply serBump_keeps | apply State.setSerial_keeps | split | dsimp only

end Sys2Proof.Machine
end

