-- ==== Sys2Proof/Laws/Keeps/Tio.lean ====
section
/-! SUPPORT. What the operations of Machine/Tio.lean keep: the queue, monotone time, free values and life cycle, and the invariant. -/

namespace Sys2Proof.Machine
open Sys2Proof
set_option linter.all false
set_option Elab.async false

theorem State.setPin_keeps {s0 : State} {s : State} {p : Nat} {x3 : TioPin} (hs : Keeps s0 s) : Keeps s0 (State.setPin s p x3) := by
  unfold State.setPin
  try dsimp only
  repeat' first | intro _ | with_reducible first | assumption | apply Keeps.ite | (rw [State.mk_marked]; first | apply Keeps.upd | apply Keeps.updTime | apply Keeps.updFree | apply Keeps.updOd | apply Keeps.updFuses) | split | dsimp only

theorem tioDrive_keeps {s0 : State} {p : Nat} {level : Bool} {s : State} (hs : Keeps s0 s) : Keeps s0 (tioDrive p level s) := by
  unfold tioDrive
  try dsimp only
  repeat' first | intro _ | with_reducible first | assumption | apply Keeps.ite | apply State.setObjBit_keeps | apply State.setPin_keeps | split | dsimp only

theorem tioUnstick_keeps {s0 : State} {p : Nat} {s : State} (hs : Keeps s0 s) : Keeps s0 (tioUnstick p s) := by
  unfold tioUnstick
  try dsimp only
  repeat' first | intro _ | with_reducible first | assumption | apply Keeps.ite | apply State.setObjBit_keeps | apply State.setPin_keeps | apply setCond_keeps | split | dsimp only

theorem tioLevel_keeps {s0 : State} {p : Nat} {at' : Nat} {st : Stamp} {level : Bool} {s : State} (hs : Keeps s0 s) : Keeps s0 (tioLevel p at' st level s) := by
  unfold tioLevel
  try dsimp only
  repeat' first | intro _ | with_reducible first | assumption | apply Keeps.ite | apply State.setPin_keeps | apply tioUnstick_keeps | split | dsimp only

theorem tioSettle_keeps {s0 : State} {p : Nat} {s : State} (hs : Keeps s0 s) : Keeps s0 (tioSettle p s) := by
  unfold tioSettle
  try dsimp only
  repeat' first | intro _ | with_reducible first | assumption | apply Keeps.ite | apply tioDrive_keeps | apply State.setPin_keeps | apply tioUnstick_keeps | apply State.setObjBit_keeps | apply tioLevel_keeps | split | dsimp only

theorem execPulseTrainEdge_keeps {s0 : State} {p : Nat} {s02 : State} (hs02 : Keeps s0 s02) : OutKeeps s0 (execPulseTrainEdge p s02) := by
  unfold execPulseTrainEdge
  try dsimp only
  repeat' first | intro _ | with_reducible first | assumption | apply OutKeeps.done | apply OutKeeps.ite | apply Keeps.ite | apply tioSettle_keeps | apply State.setPin_keeps | apply tioDrive_keeps | split | dsimp only

theorem tioSend_keeps {s0 : State} {p : Nat} {t : Token} {s : State} (hs : Keeps s0 s) : Keeps s0 (tioSend p t s) := by
  unfold tioSend
  try dsimp only
  repeat' first | intro _ | with_reducible first | assumption | apply Keeps.ite | apply State.setPin_keeps | (rw [State.mk_marked]; first | apply Keeps.upd | apply Keeps.updTime | apply Keeps.updFree | apply Keeps.updOd | apply Keeps.updFuses) | split | dsimp only

theorem tioSummary_keeps {s0 : State} {p : Nat} {s : State} (hs : Keeps s0 s) : Keeps s0 (tioSummary p s) := by
  unfold tioSummary
  try dsimp only
  repeat' first | intro _ | with_reducible first | assumption | apply Keeps.ite | apply tioSend_keeps | split | dsimp only

theorem execTioBurstSummary_keeps {s0 : State} {p : Nat} {s : State} (hs : Keeps s0 s) : OutKeeps s0 (execTioBurstSummary p s) := by
  unfold execTioBurstSummary
  try dsimp only
  repeat' first | intro _ | with_reducible first | assumption | apply OutKeeps.done | apply OutKeeps.ite | apply Keeps.ite | apply tioSettle_keeps | apply tioSummary_keeps | split | dsimp only

theorem tioRate_keeps {s0 : State} {p : Nat} {st : Stamp} {merged : Bool} {s : State} (hs : Keeps s0 s) : Keeps s0 (tioRate p st merged s) := by
  unfold tioRate
  try dsimp only
  repeat' first | intro _ | with_reducible first | assumption | apply Keeps.ite | apply State.bump_keeps | apply State.setPin_keeps | apply tioSend_keeps | split | dsimp only

theorem tioPass_keeps {s0 : State} {p : Nat} {at' : Nat} {st : Stamp} {level : Bool} {s : State} (hs : Keeps s0 s) : Keeps s0 (tioPass p at' st level s) := by
  unfold tioPass
  try dsimp only
  repeat' first | intro _ | with_reducible first | assumption | apply Keeps.ite | apply tioLevel_keeps | apply tioSummary_keeps | apply tioRate_keeps | apply State.bump_keeps | apply State.setPin_keeps | split | dsimp only

theorem tioDue_keeps {s0 : State} {p : Nat} {s : State} (hs : Keeps s0 s) : Keeps s0 (tioDue p s) := by
  unfold tioDue
  try dsimp only
  repeat' first | intro _ | with_reducible first | assumption | apply Keeps.ite | apply tioPass_keeps | apply State.setPin_keeps | split | dsimp only

theorem execTioDeglitchPass_keeps {s0 : State} {p : Nat} {s : State} (hs : Keeps s0 s) : OutKeeps s0 (execTioDeglitchPass p s) := by
  unfold execTioDeglitchPass
  try dsimp only
  repeat' first | intro _ | with_reducible first | assumption | apply OutKeeps.done | apply OutKeeps.ite | apply Keeps.ite | apply tioSettle_keeps | apply tioDue_keeps | split | dsimp only

theorem execTioInputEdge_keeps {s0 : State} {p : Nat} {level : Bool} {s03 : State} (hs03 : Keeps s0 s03) : OutKeeps s0 (execTioInputEdge p level s03) := by
  unfold execTioInputEdge
  try dsimp only
  repeat' first | intro _ | with_reducible first | assumption | apply OutKeeps.done | apply OutKeeps.ite | apply Keeps.ite | apply tioSettle_keeps | apply State.setObjBit_keeps | apply tioDue_keeps | apply State.setPin_keeps | apply State.addObj_keeps | split | dsimp only

theorem execTioStuckTimeout_keeps {s0 : State} {p : Nat} {s02 : State} (hs02 : Keeps s0 s02) : OutKeeps s0 (execTioStuckTimeout p s02) := by
  unfold execTioStuckTimeout
  try dsimp only
  repeat' first | intro _ | with_reducible first | assumption | apply OutKeeps.done | apply OutKeeps.ite | apply Keeps.ite | apply tioSettle_keeps | apply tioSummary_keeps | apply State.setObjBit_keeps | apply State.setPin_keeps | apply setCond_keeps | apply raise_keeps | apply tioSend_keeps | split | dsimp only

theorem execTioTokenQueueEntry_keeps {s0 : State} {p : Nat} {s : State} (hs : Keeps s0 s) : OutKeeps s0 (execTioTokenQueueEntry p s) := by
  unfold execTioTokenQueueEntry
  try dsimp only
  repeat' first | intro _ | with_reducible first | assumption | apply OutKeeps.done | apply OutKeeps.ite | apply Keeps.ite | apply State.setPin_keeps | (rw [State.mk_marked]; first | apply Keeps.upd | apply Keeps.updTime | apply Keeps.updFree | apply Keeps.updOd | apply Keeps.updFuses) | split | dsimp only

theorem tioPulse_keeps {s0 : State} {p : Nat} {s : State} (hs : Keeps s0 s) : Keeps s0 (tioPulse p s) := by
  unfold tioPulse
  try dsimp only
  repeat' first | intro _ | with_reducible first | assumption | apply Keeps.ite | apply tioDrive_keeps | apply State.setPin_keeps | split | dsimp only

theorem tioRelease_keeps {s0 : State} {p : Nat} {ws : List Word} {s03 : State} (hs03 : Keeps s0 s03) : Keeps s0 (tioRelease p ws s03) := by
  unfold tioRelease
  try dsimp only
  repeat' first | intro _ | with_reducible first | assumption | apply Keeps.ite | apply tioSettle_keeps | apply tioDrive_keeps | apply State.setPin_keeps | apply tioPulse_keeps | split | dsimp only

theorem tioStart_keeps {s0 : State} {s : State} (hs : Keeps s0 s) : Keeps s0 (tioStart s) := by
  unfold tioStart
  try dsimp only
  repeat' first | intro _ | with_reducible first | assumption | apply Keeps.ite | apply State.setPin_keeps | apply tioDrive_keeps | apply tioLevel_keeps | apply Keeps.foldl | split | dsimp only

end Sys2Proof.Machine
end

