-- ==== Sys2Proof/Laws/Keeps/Release.lean ====
section
/-! SUPPORT. What the operations of Machine/Release.lean keep: the queue, monotone time, free values and life cycle, and the invariant. -/

namespace Sys2Proof.Machine
open Sys2Proof
set_option linter.all false
set_option Elab.async false

theorem actionRecord_keeps {s0 : State} {t : Nat} {x2 : Txn} {s : State} (hs : Keeps s0 s) : Keeps s0 (actionRecord t x2 s) := by
  unfold actionRecord
  try dsimp only
  repeat' first | intro _ | with_reducible first | assumption | apply Keeps.ite | apply sample_keeps | apply raise_keeps | apply State.bump_keeps | apply State.setObj_keeps | apply traceTxn_keeps | split | dsimp only

theorem portSend_keeps {s0 : State} {port : Nat} {e : Entry} {s : State} (hs : Keeps s0 s) : Keeps s0 (portSend port e s) := by
  unfold portSend
  try dsimp only
  repeat' first | intro _ | with_reducible first | assumption | apply Keeps.ite | apply State.bump_keeps | apply State.setLine_keeps | apply serSend_keeps | (rw [State.mk_marked]; first | apply Keeps.upd | apply Keeps.updTime | apply Keeps.updFree | apply Keeps.updOd | apply Keeps.updFuses) | split | dsimp only

theorem canNext_keeps {s0 : State} {a : List Entry} {a2 : State} (ha2 : Keeps s0 a2) : Keeps s0 (canNext a a2) := by
  induction a generalizing a2 with
  | nil =>
    unfold canNext
    try dsimp only
    repeat' first | intro _ | with_reducible first | assumption | apply Keeps.ite | apply portSend_keeps | apply State.setLine_keeps | (rw [State.mk_marked]; first | apply Keeps.upd | apply Keeps.updTime | apply Keeps.updFree | apply Keeps.updOd | apply Keeps.updFuses) | split | dsimp only
  | cons x xs ih =>
    unfold canNext
    try dsimp only
    repeat' first | intro _ | with_reducible first | assumption | apply ih | apply Keeps.ite | apply portSend_keeps | apply State.setLine_keeps | (rw [State.mk_marked]; first | apply Keeps.upd | apply Keeps.updTime | apply Keeps.updFree | apply Keeps.updOd | apply Keeps.updFuses) | split | dsimp only

theorem ecatApply_keeps {s0 : State} {a : List Word} {a2 : State} (ha2 : Keeps s0 a2) : Keeps s0 (ecatApply a a2) := by
  revert ha2
  induction a, a2 using ecatApply.induct with
  | case1 s a v r o n g sub ih => intro h; unfold ecatApply; exact ih (State.setObj_keeps h)
  | case2 l s hne => intro h; unfold ecatApply; split <;> first | exact h | exact absurd rfl (hne _ _ _)

theorem execDeLeadStart_keeps {s0 : State} {ch : Nat} {s : State} (hs : Keeps s0 s) : OutKeeps s0 (execDeLeadStart ch s) := by
  unfold execDeLeadStart
  try dsimp only
  repeat' first | intro _ | with_reducible first | assumption | apply OutKeeps.done | apply OutKeeps.ite | apply Keeps.ite | apply State.setSerial_keeps | split | dsimp only

theorem linkStart_keeps {s0 : State} {l : Nat} {s : State} (hs : Keeps s0 s) : Keeps s0 (linkStart l s) := by
  unfold linkStart
  try dsimp only
  repeat' first | intro _ | with_reducible first | assumption | apply Keeps.ite | apply State.setLine_keeps | apply linkSend_keeps | split | dsimp only

theorem execPortBusyRelease_keeps {s0 : State} {port : Nat} {s : State} (hs : Keeps s0 s) : OutKeeps s0 (execPortBusyRelease port s) := by
  unfold execPortBusyRelease
  try dsimp only
  repeat' first | intro _ | with_reducible first | assumption | apply OutKeeps.done | apply OutKeeps.ite | apply Keeps.ite | apply canNext_keeps | apply State.bump_keeps | apply State.setLine_keeps | apply portSend_keeps | apply linkStart_keeps | (rw [State.mk_marked]; first | apply Keeps.upd | apply Keeps.updTime | apply Keeps.updFree | apply Keeps.updOd | apply Keeps.updFuses) | split | dsimp only

theorem replacedTrace_keeps {s0 : State} {due : List (Nat × Txn)} {tid : Nat} {s : State} (hs : Keeps s0 s) : Keeps s0 (replacedTrace due tid s) := by
  unfold replacedTrace
  try dsimp only
  repeat' first | intro _ | with_reducible first | assumption | apply Keeps.ite | apply traceTxn_keeps | split | dsimp only

theorem noteEntries_keeps {s0 : State} {due : List (Nat × Txn)} {bad : List EntryError} {port : Nat} {s : State} (hs : Keeps s0 s) : Keeps s0 (noteEntries due bad port s) := by
  unfold noteEntries
  try dsimp only
  repeat' first | intro _ | with_reducible first | assumption | apply Keeps.ite | apply replacedTrace_keeps | apply raise_keeps | apply State.bump_keeps | apply Keeps.foldl | split | dsimp only

theorem portStart_keeps {s0 : State} {port : Nat} {s : State} {e : Entry} (hs : Keeps s0 s) : Keeps s0 (portStart port s e) := by
  unfold portStart
  try dsimp only
  repeat' first | intro _ | with_reducible first | assumption | apply Keeps.ite | apply State.bump_keeps | apply State.setSerial_keeps | apply State.setLine_keeps | apply portSend_keeps | split | dsimp only

theorem linkRelease_keeps {s0 : State} {l : Nat} {es : List Entry} {s : State} (hs : Keeps s0 s) : Keeps s0 (linkRelease l es s) := by
  unfold linkRelease
  try dsimp only
  repeat' first | intro _ | with_reducible first | assumption | apply Keeps.ite | apply State.setObji_keeps | apply State.setLine_keeps | apply State.addObj_keeps | apply linkStart_keeps | split | dsimp only

theorem portRelease_keeps {s0 : State} {port : Nat} {es : List (Bool × Entry)} {s : State} (hs : Keeps s0 s) : Keeps s0 (portRelease port es s) := by
  unfold portRelease
  try dsimp only
  repeat' first | intro _ | with_reducible first | assumption | apply Keeps.ite | apply tioRelease_keeps | apply State.addObj_keeps | apply portStart_keeps | apply ecatApply_keeps | apply State.submit_keeps | apply emit_keeps | apply bqWrite_keeps | apply linkRelease_keeps | apply Keeps.foldl | split | dsimp only

theorem releasePort_keeps {s0 : State} {r : Stamp} {bad : List EntryError} {due : List (Nat × Txn)} {s : State} {port : Nat} (hs : Keeps s0 s) : Keeps s0 (releasePort r bad due s port) := by
  unfold releasePort
  try dsimp only
  repeat' first | intro _ | with_reducible first | assumption | apply Keeps.ite | apply noteEntries_keeps | apply State.setQueue_keeps | apply State.setSerial_keeps | apply portRelease_keeps | apply State.addObj_keeps | apply Keeps.foldl | (rw [State.mk_marked]; first | apply Keeps.upd | apply Keeps.updTime | apply Keeps.updFree | apply Keeps.updOd | apply Keeps.updFuses) | split | dsimp only

theorem releaseTxn_keeps {s0 : State} {s : State} {d : Nat × Txn} (hs : Keeps s0 s) : Keeps s0 (releaseTxn s d) := by
  unfold releaseTxn
  try dsimp only
  repeat' first | intro _ | with_reducible first | assumption | apply Keeps.ite | apply actionRecord_keeps | apply State.setMotif_keeps | apply inFlight_keeps | apply txnMove_keeps | split | dsimp only

theorem execReleaseInstant_keeps {s0 : State} {bad : List EntryError} {s : State} (hs : Keeps s0 s) : OutKeeps s0 (execReleaseInstant bad s) := by
  unfold execReleaseInstant
  try dsimp only
  repeat' first | intro _ | with_reducible first | assumption | apply OutKeeps.done | apply OutKeeps.ite | apply Keeps.ite | apply deadlineAt_keeps | apply releasePort_keeps | apply releaseTxn_keeps | apply entriesShow_keeps | apply State.setObj_keeps | apply Keeps.foldl | split | dsimp only

end Sys2Proof.Machine
end

