-- ==== Sys2Proof/Laws/Keeps/Served.lean ====
section
/-! SUPPORT. What the operations of Machine/Served.lean keep: the queue, monotone time, free values and life cycle, and the invariant. -/

namespace Sys2Proof.Machine
open Sys2Proof
set_option linter.all false
set_option Elab.async false

theorem execDomainSwitchDone_keeps {s0 : State} {s : State} (hs : Keeps s0 s) : OutKeeps s0 (execDomainSwitchDone s) := by
  unfold execDomainSwitchDone
  try dsimp only
  repeat' first | intro _ | with_reducible first | assumption | apply OutKeeps.done | apply OutKeeps.ite | apply Keeps.ite | apply Keeps.ok | apply Keeps.refuse | apply Keeps.iteR | apply serveNext_keeps | apply answered_keeps | apply domainReach_keeps | (rw [State.mk_marked]; first | apply Keeps.upd | apply Keeps.updTime | apply Keeps.updFree | apply Keeps.updOd | apply Keeps.updFuses) | split | dsimp only

theorem execDomainSwitchTimeout_keeps {s0 : State} {s : State} (hs : Keeps s0 s) : OutKeeps s0 (execDomainSwitchTimeout s) := by
  unfold execDomainSwitchTimeout
  try dsimp only
  repeat' first | intro _ | with_reducible first | assumption | apply OutKeeps.done | apply OutKeeps.ite | apply Keeps.ite | apply Keeps.ok | apply Keeps.refuse | apply Keeps.iteR | apply serveNext_keeps | apply answered_keeps | apply raise_keeps | (rw [State.mk_marked]; first | apply Keeps.upd | apply Keeps.updTime | apply Keeps.updFree | apply Keeps.updOd | apply Keeps.updFuses) | split | dsimp only

theorem execI2cTransferEnd_keeps {s0 : State} {cam : Nat} {code : Nat} {bytes : FrameData} {s : State} (hs : Keeps s0 s) : OutKeeps s0 (execI2cTransferEnd cam code bytes s) := by
  unfold execI2cTransferEnd
  try dsimp only
  repeat' first | intro _ | with_reducible first | assumption | apply OutKeeps.done | apply OutKeeps.ite | apply Keeps.ite | apply serveNext_keeps | apply i2cDone_keeps | split | dsimp only

theorem execI2cXferWrite_keeps {s0 : State} {path : Nat} {bytes : FrameData} {s : State} (hs : Keeps s0 s) : OutKeeps s0 (execI2cXferWrite path bytes s) := by
  unfold execI2cXferWrite
  try dsimp only
  repeat' first | intro _ | with_reducible first | assumption | refine SumKeeps.get (by assumption) ?_ | apply OutKeeps.done | apply OutKeeps.ite | apply Keeps.ite | apply sdoAct_keeps | apply startI2c_keeps | split | dsimp only

theorem execNvmeCommandComplete_keeps {s0 : State} {drive : Nat} {n : Nat} {failed : Bool} {s : State} (hs : Keeps s0 s) : OutKeeps s0 (execNvmeCommandComplete drive n failed s) := by
  unfold execNvmeCommandComplete
  try dsimp only
  repeat' first | intro _ | with_reducible first | assumption | apply OutKeeps.done | apply OutKeeps.ite | apply Keeps.ite | apply serveNext_keeps | apply nvmeComplete_keeps | split | dsimp only

theorem execNvmeCommandTimeout_keeps {s0 : State} {drive : Nat} {n : Nat} {s : State} (hs : Keeps s0 s) : OutKeeps s0 (execNvmeCommandTimeout drive n s) := by
  unfold execNvmeCommandTimeout
  try dsimp only
  repeat' first | intro _ | with_reducible first | assumption | apply OutKeeps.done | apply OutKeeps.ite | apply Keeps.ite | apply serveNext_keeps | apply nvmeTimeout_keeps | split | dsimp only

theorem execPcieLinkDown_keeps {s0 : State} {drive : Nat} {s : State} (hs : Keeps s0 s) : OutKeeps s0 (execPcieLinkDown drive s) := by
  unfold execPcieLinkDown
  try dsimp only
  repeat' first | intro _ | with_reducible first | assumption | apply OutKeeps.done | apply OutKeeps.ite | apply Keeps.ite | apply serveNext_keeps | apply pcieDown_keeps | split | dsimp only

theorem execRouteInvalidationComplete_keeps {s0 : State} {s : State} (hs : Keeps s0 s) : OutKeeps s0 (execRouteInvalidationComplete s) := by
  unfold execRouteInvalidationComplete
  try dsimp only
  repeat' first | intro _ | with_reducible first | assumption | apply OutKeeps.done | apply OutKeeps.ite | apply Keeps.ite | apply serveNext_keeps | apply invalidationDone_keeps | split | dsimp only

end Sys2Proof.Machine
end

