-- ==== Sys2Proof/Laws/Keeps/Startup.lean ====
section
/-! SUPPORT. What the operations of Machine/Startup.lean keep: the queue, monotone time, free values and life cycle, and the invariant. -/

namespace Sys2Proof.Machine
open Sys2Proof
set_option linter.all false
set_option Elab.async false

theorem discover_keeps {s0 : State} {s : State} {d : Nat} (hs : Keeps s0 s) : Keeps s0 (discover s d) := by
  unfold discover
  try dsimp only
  repeat' first | intro _ | with_reducible first | assumption | apply Keeps.ite | apply State.setObji_keeps | apply State.setVol_keeps | split | dsimp only

theorem domainsOn_keeps {s0 : State} {ds : List Nat} {s : State} (hs : Keeps s0 s) : Keeps s0 (domainsOn ds s) := by
  unfold domainsOn
  try dsimp only
  repeat' first | intro _ | with_reducible first | assumption | apply Keeps.ite | apply setDomain_keeps | apply Keeps.foldl | split | dsimp only

theorem ecatStart_keeps {s0 : State} {s : State} (hs : Keeps s0 s) : Keeps s0 (ecatStart s) := by
  unfold ecatStart
  try dsimp only
  repeat' first | intro _ | with_reducible first | assumption | apply Keeps.ite | apply setDomain_keeps | (rw [State.mk_marked]; first | apply Keeps.upd | apply Keeps.updTime | apply Keeps.updFree | apply Keeps.updOd | apply Keeps.updFuses) | exact Nat.le_refl _ | exact id | exact Nat.le_add_right _ _ | (exact mset_wf _ _ _ _ (by assumption)) | exact Nat.mod_lt _ (by decide) | exact ⟨Nat.le_refl _, by assumption⟩ | split | dsimp only

theorem elapse_keeps {s0 : State} {k : Nat} {ms : Nat} {s : State} (hs : Keeps s0 s) : Keeps s0 (elapse k ms s) := by
  unfold elapse
  try dsimp only
  repeat' first | intro _ | with_reducible first | assumption | apply Keeps.ite | (rw [State.mk_marked]; first | apply Keeps.upd | apply Keeps.updTime | apply Keeps.updFree | apply Keeps.updOd | apply Keeps.updFuses) | exact Nat.le_refl _ | exact id | exact Nat.le_add_right _ _ | (exact mset_wf _ _ _ _ (by assumption)) | exact Nat.mod_lt _ (by decide) | exact ⟨Nat.le_refl _, by assumption⟩ | split | dsimp only

theorem execDoneHighSeen_keeps {s0 : State} {s : State} (hs : Keeps s0 s) : OutKeeps s0 (execDoneHighSeen s) := by
  unfold execDoneHighSeen
  try dsimp only
  repeat' first | intro _ | with_reducible first | assumption | apply OutKeeps.done | apply OutKeeps.ite | apply Keeps.ite | (rw [State.mk_marked]; first | apply Keeps.upd | apply Keeps.updTime | apply Keeps.updFree | apply Keeps.updOd | apply Keeps.updFuses) | exact Nat.le_refl _ | exact id | exact Nat.le_add_right _ _ | (exact mset_wf _ _ _ _ (by assumption)) | exact Nat.mod_lt _ (by decide) | exact ⟨Nat.le_refl _, by assumption⟩ | split | dsimp only

theorem fabricStart_keeps {s0 : State} {s : State} (hs : Keeps s0 s) : Keeps s0 (fabricStart s) := by
  unfold fabricStart
  try dsimp only
  repeat' first | intro _ | with_reducible first | assumption | apply Keeps.ite | apply tioStart_keeps | apply canApply_keeps | apply fcUpdate_keeps | apply startCore_keeps | apply Keeps.foldl | (rw [State.mk_marked]; first | apply Keeps.upd | apply Keeps.updTime | apply Keeps.updFree | apply Keeps.updOd | apply Keeps.updFuses) | exact Nat.le_refl _ | exact id | exact Nat.le_add_right _ _ | (exact mset_wf _ _ _ _ (by assumption)) | exact Nat.mod_lt _ (by decide) | exact ⟨Nat.le_refl _, by assumption⟩ | split | dsimp only

theorem stepRecords_keeps {s0 : State} {s : State} (hs : Keeps s0 s) : Keeps s0 (stepRecords s) := by
  unfold stepRecords
  try dsimp only
  repeat' first | intro _ | with_reducible first | assumption | apply Keeps.ite | apply sample_keeps | apply Keeps.foldl | split | dsimp only

theorem startReport_keeps {s0 : State} {s : State} (hs : Keeps s0 s) : Keeps s0 (startReport s) := by
  unfold startReport
  try dsimp only
  repeat' first | intro _ | with_reducible first | assumption | apply Keeps.ite | apply raise_keeps | apply sample_keeps | apply stepRecords_keeps | apply Keeps.foldl | (rw [State.mk_marked]; first | apply Keeps.upd | apply Keeps.updTime | apply Keeps.updFree | apply Keeps.updOd | apply Keeps.updFuses) | exact Nat.le_refl _ | exact id | exact Nat.le_add_right _ _ | (exact mset_wf _ _ _ _ (by assumption)) | exact Nat.mod_lt _ (by decide) | exact ⟨Nat.le_refl _, by assumption⟩ | split | dsimp only

theorem execFabricStart_keeps {s0 : State} {s : State} (hs : Keeps s0 s) : OutKeeps s0 (execFabricStart s) := by
  unfold execFabricStart
  try dsimp only
  repeat' first | intro _ | with_reducible first | assumption | apply OutKeeps.done | apply OutKeeps.ite | apply Keeps.ite | apply stepPass_keeps | apply fabricStart_keeps | apply State.setObj_keeps | apply mirrorTouch_keeps | apply startReport_keeps | apply deviceShow_keeps | split | dsimp only

/-- The dictionary's reset content is in canonical form. -/
theorem odReset_wf : mwf 0 odReset = true := by decide +kernel

theorem resetState_keeps {s0 : State} {cause : Nat} {aonLost : Bool} {s : State} (hs : Keeps s0 s) : Keeps s0 (resetState cause aonLost s) := by
  have hg : ∀ y : State, y.pending = s.pending → y.free = s.free → y.time = { clk := s.time.clk, resetAt := s.time.clk } → y.fuses = s.fuses → y.od = odReset → Keeps s0 y := by
    intro y h1 h2 h3 h4 h5
    refine ⟨fun hi => ?_⟩
    obtain ⟨o, i⟩ := hs.h hi
    refine ⟨⟨h1 ▸ o.pending, ?_, h2 ▸ o.free, h4 ▸ o.lc, h4 ▸ o.destroyed⟩, ⟨h5 ▸ odReset_wf, ?_, h4 ▸ i.lc⟩⟩
    · rw [h3]; exact o.clk
    · rw [h3]; exact Nat.two_pow_pos 64
  unfold resetState
  dsimp only
  split
  all_goals (repeat' apply State.setObj_keeps)
  all_goals exact hg _ rfl rfl rfl rfl rfl

theorem execPorstNReset_keeps {s0 : State} {width : Nat} {aonLost : Bool} {s : State} (hs : Keeps s0 s) : OutKeeps s0 (execPorstNReset width aonLost s) := by
  unfold execPorstNReset
  try dsimp only
  repeat' first | intro _ | with_reducible first | assumption | apply OutKeeps.done | apply OutKeeps.ite | apply Keeps.ite | apply resetState_keeps | split | dsimp only

theorem execRequestedReset_keeps {s0 : State} {s : State} (hs : Keeps s0 s) : OutKeeps s0 (execRequestedReset s) := by
  unfold execRequestedReset
  try dsimp only
  repeat' first | intro _ | with_reducible first | assumption | apply OutKeeps.done | apply OutKeeps.ite | apply Keeps.ite | apply resetState_keeps | split | dsimp only

theorem execResetNReset_keeps {s0 : State} {width : Nat} {s : State} (hs : Keeps s0 s) : OutKeeps s0 (execResetNReset width s) := by
  unfold execResetNReset
  try dsimp only
  repeat' first | intro _ | with_reducible first | assumption | apply OutKeeps.done | apply OutKeeps.ite | apply Keeps.ite | apply resetState_keeps | split | dsimp only

theorem flashSettle_keeps {s0 : State} {s : State} (hs : Keeps s0 s) : Keeps s0 (flashSettle s) := by
  unfold flashSettle
  try dsimp only
  repeat' first | intro _ | with_reducible first | assumption | apply Keeps.ite | apply flashNext_keeps | apply State.setFlash_keeps | apply flashEffect_keeps | apply Keeps.foldl | split | dsimp only

theorem startHold_keeps {s0 : State} {k : Nat} {code : Nat} {s : State} (hs : Keeps s0 s) : Keeps s0 (startHold k code s) := by
  unfold startHold
  try dsimp only
  repeat' first | intro _ | with_reducible first | assumption | apply Keeps.ite | apply State.setObj_keeps | apply ecatStart_keeps | apply fwSlotAlarm_keeps | apply recordShow_keeps | apply recordChanged_keeps | apply stepRecords_keeps | (rw [State.mk_marked]; first | apply Keeps.upd | apply Keeps.updTime | apply Keeps.updFree | apply Keeps.updOd | apply Keeps.updFuses) | exact Nat.le_refl _ | exact id | exact Nat.le_add_right _ _ | (exact mset_wf _ _ _ _ (by assumption)) | exact Nat.mod_lt _ (by decide) | exact ⟨Nat.le_refl _, by assumption⟩ | split | dsimp only

theorem stepFailed_keeps {s0 : State} {k : Nat} {code : Nat} {ms : Nat} {s : State} (hs : Keeps s0 s) : Keeps s0 (stepFailed k code ms s) := by
  unfold stepFailed
  try dsimp only
  repeat' first | intro _ | with_reducible first | assumption | apply Keeps.ite | apply resetState_keeps | apply flashSettle_keeps | apply recordChanged_keeps | apply stepFail_keeps | apply startHold_keeps | split | dsimp only

theorem stepMissed_keeps {s0 : State} {k : Nat} {code : Nat} {ms : Nat} {s : State} (hs : Keeps s0 s) : Keeps s0 (stepMissed k code ms s) := by
  unfold stepMissed
  try dsimp only
  repeat' first | intro _ | with_reducible first | assumption | apply Keeps.ite | apply recordChanged_keeps | apply recordShow_keeps | apply stepFail_keeps | apply journalState_keeps | split | dsimp only

theorem startRecipe_keeps {s0 : State} {s : State} (hs : Keeps s0 s) : Keeps s0 (startRecipe s) := by
  unfold startRecipe
  try dsimp only
  repeat' first | intro _ | with_reducible first | assumption | apply Keeps.ite | apply State.setObj_keeps | split | dsimp only

theorem qspiRate_keeps {s0 : State} {mhz : Nat} {s : State} (hs : Keeps s0 s) : Keeps s0 (qspiRate mhz s) := by
  unfold qspiRate
  try dsimp only
  repeat' first | intro _ | with_reducible first | assumption | apply Keeps.ite | (rw [State.mk_marked]; first | apply Keeps.upd | apply Keeps.updTime | apply Keeps.updFree | apply Keeps.updOd | apply Keeps.updFuses) | exact Nat.le_refl _ | exact id | exact Nat.le_add_right _ _ | (exact mset_wf _ _ _ _ (by assumption)) | exact Nat.mod_lt _ (by decide) | exact ⟨Nat.le_refl _, by assumption⟩ | split | dsimp only

theorem persistLoad_keeps {s0 : State} {s : State} (hs : Keeps s0 s) : Keeps s0 (persistLoad s) := by
  unfold persistLoad
  try dsimp only
  repeat' first | intro _ | with_reducible first | assumption | apply Keeps.ite | apply State.setObj_keeps | apply Keeps.foldl | (rw [State.mk_marked]; first | apply Keeps.upd | apply Keeps.updTime | apply Keeps.updFree | apply Keeps.updOd | apply Keeps.updFuses) | exact Nat.le_refl _ | exact id | exact Nat.le_add_right _ _ | (exact mset_wf _ _ _ _ (by assumption)) | exact Nat.mod_lt _ (by decide) | exact ⟨Nat.le_refl _, by assumption⟩ | split | dsimp only

theorem stepS0_keeps {s0 : State} {s : State} (hs : Keeps s0 s) : Keeps s0 (stepS0 s) := by
  unfold stepS0
  try dsimp only
  repeat' first | intro _ | with_reducible first | assumption | apply Keeps.ite | apply State.setObj_keeps | apply domainsOn_keeps | apply qspiRate_keeps | apply persistLoad_keeps | apply recordShow_keeps | (rw [State.mk_marked]; first | apply Keeps.upd | apply Keeps.updTime | apply Keeps.updFree | apply Keeps.updOd | apply Keeps.updFuses) | exact Nat.le_refl _ | exact id | exact Nat.le_add_right _ _ | (exact mset_wf _ _ _ _ (by assumption)) | exact Nat.mod_lt _ (by decide) | exact ⟨Nat.le_refl _, by assumption⟩ | split | dsimp only

theorem stepS1_keeps {s0 : State} {s : State} (hs : Keeps s0 s) : Keeps s0 (stepS1 s) := by
  unfold stepS1
  try dsimp only
  repeat' first | intro _ | with_reducible first | assumption | apply Keeps.ite | apply tbBegin_keeps | apply domainsOn_keeps | apply State.setObj_keeps | split | dsimp only

theorem stepS3_keeps {s0 : State} {s : State} (hs : Keeps s0 s) : Keeps s0 (stepS3 s) := by
  unfold stepS3
  try dsimp only
  repeat' first | intro _ | with_reducible first | assumption | apply Keeps.ite | apply State.setIsland_keeps | apply setCond_keeps | apply domainsOn_keeps | apply loadIsland_keeps | split | dsimp only

theorem motifAbsent_keeps {s0 : State} {m : Nat} {s : State} (hs : Keeps s0 s) : Keeps s0 (motifAbsent m s) := by
  unfold motifAbsent
  try dsimp only
  repeat' first | intro _ | with_reducible first | assumption | apply Keeps.ite | apply setDegraded_keeps | apply State.setMotif_keeps | split | dsimp only

theorem stepS4_keeps {s0 : State} {s : State} (hs : Keeps s0 s) : Keeps s0 (stepS4 s) := by
  unfold stepS4
  try dsimp only
  repeat' first | intro _ | with_reducible first | assumption | apply Keeps.ite | apply motifAbsent_keeps | apply State.addObj_keeps | apply domainsOn_keeps | apply Keeps.foldl | split | dsimp only

theorem laneTest_keeps {s0 : State} {s : State} {m : Nat} (hs : Keeps s0 s) : Keeps s0 (laneTest s m) := by
  unfold laneTest
  try dsimp only
  repeat' first | intro _ | with_reducible first | assumption | apply Keeps.ite | apply State.setObj_keeps | apply motifAbsent_keeps | apply noteSpares_keeps | apply setPhys_keeps | apply Keeps.foldl | split | dsimp only

theorem qspiRaise_keeps {s0 : State} {s : State} (hs : Keeps s0 s) : Keeps s0 (qspiRaise s) := by
  unfold qspiRaise
  try dsimp only
  repeat' first | intro _ | with_reducible first | assumption | apply Keeps.ite | apply qspiRate_keeps | split | dsimp only

theorem stepS6_keeps {s0 : State} {s01 : State} (hs01 : Keeps s0 s01) : Keeps s0 (stepS6 s01) := by
  unfold stepS6
  try dsimp only
  repeat' first | intro _ | with_reducible first | assumption | apply Keeps.ite | apply qspiRaise_keeps | apply invalidateSector_keeps | apply raise_keeps | apply State.setFlash_keeps | apply State.setObj_keeps | apply Keeps.foldl | (rw [State.mk_marked]; first | apply Keeps.upd | apply Keeps.updTime | apply Keeps.updFree | apply Keeps.updOd | apply Keeps.updFuses) | exact Nat.le_refl _ | exact id | exact Nat.le_add_right _ _ | (exact mset_wf _ _ _ _ (by assumption)) | exact Nat.mod_lt _ (by decide) | exact ⟨Nat.le_refl _, by assumption⟩ | split | dsimp only

theorem usableShow_keeps {s0 : State} {s : State} (hs : Keeps s0 s) : Keeps s0 (usableShow s) := by
  unfold usableShow
  try dsimp only
  repeat' first | intro _ | with_reducible first | assumption | apply Keeps.ite | apply State.setObj_keeps | split | dsimp only

theorem stepS8_keeps {s0 : State} {s : State} (hs : Keeps s0 s) : Keeps s0 (stepS8 s) := by
  unfold stepS8
  try dsimp only
  repeat' first | intro _ | with_reducible first | assumption | apply Keeps.ite | apply domainsOn_keeps | apply usableShow_keeps | (rw [State.mk_marked]; first | apply Keeps.upd | apply Keeps.updTime | apply Keeps.updFree | apply Keeps.updOd | apply Keeps.updFuses) | exact Nat.le_refl _ | exact id | exact Nat.le_add_right _ _ | (exact mset_wf _ _ _ _ (by assumption)) | exact Nat.mod_lt _ (by decide) | exact ⟨Nat.le_refl _, by assumption⟩ | split | dsimp only

theorem stepS9_keeps {s0 : State} {s : State} (hs : Keeps s0 s) : Keeps s0 (stepS9 s) := by
  unfold stepS9
  try dsimp only
  repeat' first | intro _ | with_reducible first | assumption | apply Keeps.ite | apply State.setObji_keeps | apply domainsOn_keeps | apply linksTrain_keeps | apply ecatStart_keeps | apply Keeps.foldl | split | dsimp only

theorem stepS10_keeps {s0 : State} {s : State} (hs : Keeps s0 s) : Keeps s0 (stepS10 s) := by
  unfold stepS10
  try dsimp only
  repeat' first | intro _ | with_reducible first | assumption | apply Keeps.ite | apply mount_keeps | apply discover_keeps | apply Keeps.foldl | split | dsimp only

theorem stepEffect_keeps {s0 : State} {k : Nat} {s : State} (hs : Keeps s0 s) : Keeps s0 (stepEffect k s) := by
  unfold stepEffect
  try dsimp only
  repeat' first | intro _ | with_reducible first | assumption | apply Keeps.ite | apply stepS0_keeps | apply stepS1_keeps | apply stepS3_keeps | apply stepS4_keeps | apply laneTest_keeps | apply stepS6_keeps | apply runFirmware_keeps | apply stepS8_keeps | apply stepS9_keeps | apply stepS10_keeps | apply Keeps.foldl | split | dsimp only

theorem s11Load_keeps {s0 : State} {ms : Nat} {s : State} (hs : Keeps s0 s) : Keeps s0 (s11Load ms s) := by
  unfold s11Load
  try dsimp only
  repeat' first | intro _ | with_reducible first | assumption | apply Keeps.ite | apply loadRecipe_keeps | apply stepFailed_keeps | apply endLoad_keeps | apply s11Done_keeps | apply writeDevice_keeps | split | dsimp only

theorem stepReached_keeps {s0 : State} {k : Nat} {code : Nat} {s : State} (hs : Keeps s0 s) : Keeps s0 (stepReached k code s) := by
  unfold stepReached
  try dsimp only
  repeat' first | intro _ | with_reducible first | assumption | apply Keeps.ite | apply stepEffect_keeps | apply domainsOn_keeps | split | dsimp only

theorem stepAtNow_keeps {s0 : State} {k : Nat} {s : State} (hs : Keeps s0 s) : Keeps s0 (stepAtNow k s) := by
  unfold stepAtNow
  try dsimp only
  repeat' first | intro _ | with_reducible first | assumption | apply Keeps.ite | (rw [State.mk_marked]; first | apply Keeps.upd | apply Keeps.updTime | apply Keeps.updFree | apply Keeps.updOd | apply Keeps.updFuses) | exact Nat.le_refl _ | exact id | exact Nat.le_add_right _ _ | (exact mset_wf _ _ _ _ (by assumption)) | exact Nat.mod_lt _ (by decide) | exact ⟨Nat.le_refl _, by assumption⟩ | split | dsimp only

theorem stepBegin_keeps {s0 : State} {k : Nat} {s : State} (hs : Keeps s0 s) : Keeps s0 (stepBegin k s) := by
  unfold stepBegin
  try dsimp only
  repeat' first | intro _ | with_reducible first | assumption | apply Keeps.ite | apply journalState_keeps | apply stepAtNow_keeps | split | dsimp only

theorem runSteps_keeps {s0 : State} {a : List Nat} {a2 : List StepOutcome} {a3 : State} (ha3 : Keeps s0 a3) : Keeps s0 (runSteps a a2 a3) := by
  induction a generalizing a2 a3 with
  | nil =>
    unfold runSteps
    try dsimp only
    repeat' first | intro _ | with_reducible first | assumption | apply Keeps.ite | apply recordChanged_keeps | apply setEntry_keeps | apply stepFailed_keeps | apply stepPass_keeps | apply elapse_keeps | apply stepMissed_keeps | apply startRecipe_keeps | apply stepEffect_keeps | apply s11Load_keeps | apply stepReached_keeps | apply stepBegin_keeps | (rw [State.mk_marked]; first | apply Keeps.upd | apply Keeps.updTime | apply Keeps.updFree | apply Keeps.updOd | apply Keeps.updFuses) | exact Nat.le_refl _ | exact id | exact Nat.le_add_right _ _ | (exact mset_wf _ _ _ _ (by assumption)) | exact Nat.mod_lt _ (by decide) | exact ⟨Nat.le_refl _, by assumption⟩ | split | dsimp only
  | cons x xs ih =>
    unfold runSteps
    try dsimp only
    repeat' first | intro _ | with_reducible first | assumption | apply ih | apply Keeps.ite | apply recordChanged_keeps | apply setEntry_keeps | apply stepFailed_keeps | apply stepPass_keeps | apply elapse_keeps | apply stepMissed_keeps | apply startRecipe_keeps | apply stepEffect_keeps | apply s11Load_keeps | apply stepReached_keeps | apply stepBegin_keeps | (rw [State.mk_marked]; first | apply Keeps.upd | apply Keeps.updTime | apply Keeps.updFree | apply Keeps.updOd | apply Keeps.updFuses) | exact Nat.le_refl _ | exact id | exact Nat.le_add_right _ _ | (exact mset_wf _ _ _ _ (by assumption)) | exact Nat.mod_lt _ (by decide) | exact ⟨Nat.le_refl _, by assumption⟩ | split | dsimp only

theorem execResetRelease_keeps {s0 : State} {b : Board} {steps : List StepOutcome} {s : State} (hs : Keeps s0 s) : OutKeeps s0 (execResetRelease b steps s) := by
  unfold execResetRelease
  try dsimp only
  repeat' first | intro _ | with_reducible first | assumption | apply OutKeeps.done | apply OutKeeps.ite | apply Keeps.ite | apply State.setObj_keeps | apply runSteps_keeps | (rw [State.mk_marked]; first | apply Keeps.upd | apply Keeps.updTime | apply Keeps.updFree | apply Keeps.updOd | apply Keeps.updFuses) | exact Nat.le_refl _ | exact id | exact Nat.le_add_right _ _ | (exact mset_wf _ _ _ _ (by assumption)) | exact Nat.mod_lt _ (by decide) | exact ⟨Nat.le_refl _, by assumption⟩ | split | dsimp only

theorem execStartStepTimeout_keeps {s0 : State} {steps : List StepOutcome} {s : State} (hs : Keeps s0 s) : OutKeeps s0 (execStartStepTimeout steps s) := by
  unfold execStartStepTimeout
  try dsimp only
  repeat' first | intro _ | with_reducible first | assumption | apply OutKeeps.done | apply OutKeeps.ite | apply Keeps.ite | apply runSteps_keeps | apply stepMissed_keeps | apply stepFailed_keeps | split | dsimp only

theorem execSupplyMonitorReset_keeps {s0 : State} {rail : Nat} {mv : Nat} {width : Nat} {aonLost : Bool} {s : State} (hs : Keeps s0 s) : OutKeeps s0 (execSupplyMonitorReset rail mv width aonLost s) := by
  unfold execSupplyMonitorReset
  try dsimp only
  repeat' first | intro _ | with_reducible first | assumption | apply OutKeeps.done | apply OutKeeps.ite | apply Keeps.ite | apply resetState_keeps | split | dsimp only

end Sys2Proof.Machine
end

