-- ==== Sys2Proof/Laws/Ports.lean ====
section
/-! SUPPORT. The mode of a timed pin between its events (R394). -/

namespace Sys2Proof.Machine
open Sys2Proof

/-- A pin whose written MODE is in force settles nothing at its next event. -/
theorem tioSettle_inForce {p : Nat} {s : State} (h : (s.pin p).mode = tioCfg s p 2) : tioSettle p s = s := by
  simp [tioSettle, h]

/-- A pin that is no output under its configuration follows what is applied to it. -/
theorem tioHolds_input {p : Nat} {s : State} (h : tioOut s p = false) : tioHolds s p = false := by
  simp [tioHolds, h]

/-- An output in push-pull mode holds its level against what is applied to it. -/
theorem tioHolds_pushPull {p : Nat} {s : State} (h1 : s.fabric = true) (h2 : tioOut s p = true) (h3 : tioCfg s p 2 ≠ 3) : tioHolds s p = true := by
  simp [tioHolds, h1, h2, h3]

end Sys2Proof.Machine
end

