-- ==== Sys2Proof/Laws/Requests.lean ====
section
/-! SUPPORT. What the gate of the dictionary does with a write that its path carries and nothing delays (R347, R350). -/

namespace Sys2Proof.Machine
open Sys2Proof

/-- An accepted write is performed at once and answered on its path. -/
theorem sdoWrite_accepted {s : State} {path ix sub size v : Nat} (f : State → Reply) (h : Accepts s path ix sub size v) :
    sdoWrite path ix sub size v f s = answered path (f (mailArrives s)) := by
  have h1 : ¬ 2 ^ (8 * size) ≤ v := Nat.not_le.mpr h.fits
  simp only [sdoWrite, sdoServe, h1, h.serves, h.idle, h.free, h.mp, h.gate, ↓reduceIte]
  simp

/-- An accepted write whose action completes later: refused at once, or in execution until it is answered. -/
theorem sdoAction_accepted {s : State} {path ix sub size v : Nat} (f : State → Sum Nat State) (h : Accepts s path ix sub size v) :
    sdoAction path ix sub size v f s = match f (mailArrives s) with
      | .inl code => answered path (.refuse (mailArrives s) code)
      | .inr s1 => sdoStart path s1 := by
  have h1 : ¬ 2 ^ (8 * size) ≤ v := Nat.not_le.mpr h.fits
  simp only [sdoAction, sdoAct, h1, h.serves, h.idle, h.free, h.mp, h.gate, ↓reduceIte]
  simp
  all_goals rfl

/-- A served request of the dictionary. -/
theorem sdoRequest_served {s : State} {q : SdoReq} (h : Serves s q) : sdoRequest q s = serveNow q (arrives q.path s) := by
  simp [sdoRequest, h.serves, h.idle, h.free, h.mp]

/-- A served read, write or complete access of stated size: what the dictionary answers. -/
theorem sdoRequest_act {s : State} {q : SdoReq} (h : Serves s q) (hk : q.kind < 4) (hs : q.stated = none) :
    sdoRequest q s = serveAct q (arrives q.path s) := by
  have h4 : ¬ q.kind = 4 := by omega
  have h5 : ¬ q.kind = 5 := by omega
  have h6 : ¬ 6 ≤ q.kind := by omega
  have h9 : ¬ q.kind = 9 := by omega
  have h10 : ¬ q.kind = 10 := by omega
  rw [sdoRequest_served h]
  simp only [serveNow, h.gate, h4, h5, h6, h9, h10, hs]
  simp

/-- A secure request on a free path. -/
theorem secureRequest_sent {s : State} {q : SdoReq} (h : Sends s q.path) : secureRequest q s = secureTaken q s := by
  simp [secureRequest, secureTaken, h.serves, h.idle]

/-- A request that is served by one operation. -/
theorem sdoServe_served {s : State} {q : SdoReq} (f : State → Reply) (h : Serves s q) : sdoServe q f s = answered q.path (f (mailArrives s)) := by
  have hg : sdoGate s q = 0 := by
    have hg := h.gate
    unfold arrives at hg
    split at hg <;> exact hg
  simp [sdoServe, h.serves, h.idle, h.free, h.mp, hg]

/-- A request whose action completes later. -/
theorem sdoAct_served {s : State} {q : SdoReq} (f : State → Sum Nat State) (h : Serves s q) : sdoAct q f s = match f (mailArrives s) with
      | .inl code => answered q.path (.refuse (mailArrives s) code)
      | .inr s1 => sdoStart q.path s1 := by
  have hg : sdoGate s q = 0 := by
    have hg := h.gate
    unfold arrives at hg
    split at hg <;> exact hg
  simp [sdoAct, h.serves, h.idle, h.free, h.mp, hg]
  all_goals rfl

/-- The arrival of a request leaves everything but the MP's pending interrupts. -/
theorem mailArrives_eq (s : State) : mailArrives s = s.setCore 68 { s.core 68 with ipend := withBit (s.core 68).ipend 4 true } := rfl

@[simp] theorem mailArrives_obj (s : State) (ix sub : Nat) : (mailArrives s).obj ix sub = s.obj ix sub := rfl
@[simp] theorem mailArrives_obji (s : State) (i ix sub : Nat) : (mailArrives s).obji i ix sub = s.obji i ix sub := rfl
@[simp] theorem mailArrives_timer (s : State) (b : Bool) (n : Nat) : (mailArrives s).timer b n = s.timer b n := rfl
@[simp] theorem mailArrives_activeB (s : State) : (mailArrives s).activeB = s.activeB := rfl
@[simp] theorem mailArrives_time (s : State) : (mailArrives s).time = s.time := rfl
@[simp] theorem mailArrives_t (s : State) : (mailArrives s).t = s.t := rfl
@[simp] theorem mailArrives_load (s : State) : (mailArrives s).load = s.load := rfl
@[simp] theorem mailArrives_flash (s : State) : (mailArrives s).flash = s.flash := rfl
@[simp] theorem mailArrives_hoop (s : State) (h : Nat) : (mailArrives s).hoop h = s.hoop h := rfl
@[simp] theorem mailArrives_classState (s : State) (c : Nat) : (mailArrives s).classState c = s.classState c := rfl
@[simp] theorem mailArrives_motif (s : State) (m : Nat) : (mailArrives s).motif m = s.motif m := rfl

end Sys2Proof.Machine
end

