-- ==== Sys2Proof/Machine/Wire.lean ====
section
/-! DEFINITION. How tokens and packets are laid out on wires: the 49-bit switch words of a token (R78, R79, Table 3.2) and the flits of a packet (R211, R212,
Table 6.2). State holds the fields; these give their places. -/

namespace Sys2Proof.Machine
open Sys2Proof

/-- One switch word (Table 3.2): D in [31:0], V [32], H [33], E [34], TID [46:35], P [48:47]. -/
def switchWord (d : Word) (v h e : Bool) (tid prio : Nat) : BitVec 49 :=
  BitVec.ofNat 49 (d.toNat + 2 ^ 32 * b2n v + 2 ^ 33 * b2n h + 2 ^ 34 * b2n e + 2 ^ 35 * (tid % 4096) + 2 ^ 47 * (prio % 4))

/-- The data words of a token in the switch: E = 1 on the last. -/
def dataWords (tid prio : Nat) : List Word → List (BitVec 49)
  | [] => []
  | w :: ws => switchWord w true false ws.isEmpty tid prio :: dataWords tid prio ws

/-- The switch words of a token (R79): a head word and its data words, or one cancel word with H = 1 and E = 1. -/
def Token.switchWords (t : Token) : List (BitVec 49) :=
  if t.cancel then [switchWord t.stamp true true true t.tid t.prio]
  else switchWord t.stamp true true false t.tid t.prio :: dataWords t.tid t.prio t.words

/-- The header flit of a packet (Table 6.2). -/
def Packet.header (p : Packet) : BitVec 128 :=
  BitVec.ofNat 128 (p.dx % 8 + 2 ^ 3 * (p.dy % 8) + 2 ^ 6 * b2n p.edge + 2 ^ 7 * (p.endpoint % 64) + 2 ^ 13 * (p.look % 8) + 2 ^ 16 * (p.vc % 2) +
    2 ^ 17 * b2n p.resp + 2 ^ 18 * (p.urgency % 16) + 2 ^ 22 * (p.len % 32) + 2 ^ 27 * (p.src % 128) + 2 ^ 34 * (p.typ % 16) + 2 ^ 38 * (p.tid % 4096) +
    2 ^ 50 * (p.exec % 4) + 2 ^ 52 * b2n p.planeB + 2 ^ 53 * (p.words % 16) + 2 ^ 57 * (p.aux % 16) + 2 ^ 61 * b2n p.fend +
    2 ^ 64 * p.tstamp.toNat + 2 ^ 96 * p.istamp.toNat)

/-- Data flit f of a packet: word 4f + j in bits [32j+31:32j] (R211). -/
def Packet.flit (p : Packet) (f : Nat) : BitVec 128 :=
  BitVec.ofNat 128 ((List.range 4).foldl (fun n j => n + 2 ^ (32 * j) * (p.data.getD (4 * f + j) 0#32).toNat) 0)

/-- The flits of a packet: its header and LEN data flits (R211). -/
def Packet.flits (p : Packet) : List (BitVec 128) := p.header :: (List.range p.len).map p.flit

end Sys2Proof.Machine
end

