-- ==== Sys2Proof/Tests/Slice0.lean ====
section
/-! SUPPORT. Tests of the model's own: ill-formed commands, worked examples of the spec, and, for each statement, states and operands that meet the
hypotheses of each of its clauses together. -/

namespace Sys2Proof.Tests
open Sys2Proof Sys2Proof.Machine
set_option maxRecDepth 10000
set_option Elab.async false

/-! ## States for the tests -/

theorem pair_eta {α β : Type} {o : Option (α × β)} (h : o.isSome = true) : o = some ((o.get h).1, (o.get h).2) := by
  cases o with
  | none => cases h
  | some x => rfl

theorem some_eta {α : Type} {o : Option α} (h : o.isSome = true) : o = some (o.get h) := by
  cases o with
  | none => cases h
  | some x => rfl

theorem true_eta {α : Type} {q : Bool × α} (h : q.1 = true) : q = (true, q.2) := by
  cases q; cases h; rfl

theorem cons_eta {α : Type} {l : List α} (h : l.isEmpty = false) : l = l.head (by cases l; cases h; simp) :: l.tail := by
  cases l with
  | nil => cases h
  | cons x xs => rfl

/-- The state after reset with its start steps passed. -/
def up : State := { State.reset with start := { held := false, step := 12 } }

/-- Such a state with dictionary objects set. -/
def od (l : List (Nat × Nat × Nat)) : State := l.foldl (fun s e => s.setObj e.1 e.2.1 e.2.2) up

/-- A state at an elapsed time, and with T at it. -/
def at_ (n : Nat) (s : State) : State := { s with time := { s.time with clk := n, t := n } }

/-- A state with a motif 0. -/
def mot (x : Motif) (s : State := up) : State := s.setMotif 0 x

/-- A state with waiting delivered packets. -/
def inbox (ps : List Packet) (s : State := up) : State := { s with net := { s.net with inbox := ps } }

/-- A state with packets in the network. -/
def flying (ps : List Packet) (s : State := up) : State := { s with net := { s.net with flying := ps } }

/-- A state with DRAM of 1 GiB and a waiting request. -/
def dramReq (p : Packet) : State := { od [(0x3012, 2, 1024)] with power := { on := 2 ^ 11 }, dram := { ranks := 1, rawMiB := 2048, rate := 3200, rows := [p] } }

/-- A motif with one run at position 0 of a context with the given operation. -/
def runMotif (op : Nat) (r : Run) : Motif := (({} : Motif).setSlot 0 0 { ctx := BitVec.ofNat 128 op }).setCell 0 { runs := [r] }

theorem inr_eta {α β : Type} {o : Sum α β} (h : o.isRight = true) : o = .inr (o.getRight h) := by
  cases o with
  | inl _ => cases h
  | inr _ => rfl

/-- The state an instruction that completed leaves. -/
def okOf : FzRes → Option State
  | .ok s => some s
  | _ => none

theorem ok_eta {r : FzRes} (h : (okOf r).isSome = true) : r = .ok ((okOf r).get h) := by
  cases r with
  | ok s => rfl
  | _ => cases h

/-- Core c as it starts, with its bank 0 as given. -/
def fzCore (c : Nat) (b : FBank := { }) : Core := { Core.atReset c with started := true }.setBank 0 b

/-- A state in which core c runs. -/
def fz (c : Nat) (x : Core := fzCore c) : State := up.setCore c x

/-- Supervisor 0 with words in its data memory and a save region, whose bank 0 owns the FP file. -/
def sup (b : FBank) (ws : List (Nat × Nat)) (mode : Nat := 1) : Core :=
  { fzCore 64 b with corecfg := mode, fpown := 0, savbase := 0x10000, savlim := 0x11000, splo := 0x10000, sphi := 0x11000,
                     dmem := ws.foldl (fun m e => memWrite m e.1 (leBytes e.2 4)) [] }

/-- Supervisor 0 whose bank 0 has an FP save area. -/
def fpState (regs : SMap Word := []) : State := fz 64 (sup { ssb := 0x10010#32, regs := regs } [(4, 0x10100)])

/-- A region reload image of no motifs with one empty section, as little-endian bytes (Tables 7.2, 7.3). -/
def smallImage : List Byte :=
  leBytes 0xff000e28413a7ccfd650ca00000000000000000000000000000001000000010000000700000000000000000000000400000050000000010d4f04000040000149504644 80

/-- Shuttle 0 with words in its data memory and a save region. -/
def shut (b : FBank) (ws : List (Nat × Nat)) : Core :=
  { fzCore 0 b with savbase := 0x10000, savlim := 0x11000, splo := 0x10000, sphi := 0x11000,
                    dmem := ws.foldl (fun m e => memWrite m e.1 (leBytes e.2 4)) [] }

/-- A context of shuttle 0 at 0x10020 that is not resident, with its two frames. -/
def away : List (Nat × Nat) := [(0x20, 0x100D0), (0x2C, 0x10400), (0x80, 0), (0xCC, 0x10080), (0x30, 1), (0x7C, 0x10030)]

/-- Shuttle 0 with every bank for contexts taken; the earliest, bank 2, has a save stack up to a limit. -/
def fullShut (limit : Word) : Core :=
  (((shut { regs := [(1, 0x10020#32)] } away).setBank 2 { resident := true, ssb := 0x10810#32, ssp := 0x10810#32, ssl := limit }).setBank 3
    { resident := true, age := 1 }).setBank 4 { resident := true, age := 2 }

theorem frame_eta {α β γ δ : Type} {q : Option (α × β × γ) × δ} (h : q.1.isSome = true) : q = (some ((q.1.get h).1, (q.1.get h).2.1, (q.1.get h).2.2), q.2) := by
  obtain ⟨_ | ⟨a, b, c⟩, d⟩ := q
  · cases h
  · rfl

/-! ## Every check of WellFormed refuses an ill-formed command -/

theorem test_wf_path : (Instr.timeSourceWrite 3 1).wf = false ∧ (Instr.timeSourceWrite 2 1).wf = true := by decide
theorem test_wf_value : (Instr.timeSourceWrite 2 256).wf = false ∧ (Instr.timeSourceWrite 2 255).wf = true := by decide
theorem test_wf_bytes : (Instr.imageData [256]).wf = false ∧ (Instr.imageData [255]).wf = true := by decide
theorem test_wf_blocks : (Instr.voteFrame 1 [2 ^ 64]).wf = false ∧ (Instr.voteFrame 1 [2 ^ 64 - 1]).wf = true := by decide
theorem test_wf_ecc : (Instr.cellLd { ecc := 3 }).wf = false ∧ (Instr.cellLd { ecc := 2 }).wf = true := by decide
theorem test_wf_core : (Instr.fzAdd 69 1 2 3).wf = false ∧ (Instr.fzAdd 68 1 2 3).wf = true := by decide
theorem test_wf_register : (Instr.fzAdd 68 32 2 3).wf = false ∧ (Instr.fzAdd 68 31 2 3).wf = true := by decide
theorem test_wf_shift : (Instr.fzSlli 68 1 2 32).wf = false ∧ (Instr.fzSlli 68 1 2 31).wf = true := by decide
theorem test_wf_sampler : (Instr.samplerRecordOffer 0x000B 0 []).wf = false ∧ (Instr.samplerRecordOffer 7 0 []).wf = true := by decide
theorem test_wf_beat : (Instr.cellAdd { m := 64 }).wf = false ∧ (Instr.cellAdd { pos := 16 }).wf = false ∧ (Instr.cellAdd { m := 63, pos := 15 }).wf = true := by
  decide
theorem test_wf_scrub : (Instr.scrubRead { unit := 64 }).wf = false ∧ (Instr.scrubRead { hoop := true, unit := 4 }).wf = false ∧
    (Instr.scrubRead { hoop := true, unit := 3 }).wf = true := by decide
theorem test_wf_measures : (Instr.epochBoundary { supplies := List.replicate 15 0 }).wf = false ∧ (Instr.epochBoundary {}).wf = true := by decide
theorem test_wf_serial : (Instr.uartFrameEnd 7 0 [{ value := 256 }]).wf = false ∧ (Instr.uartFrameEnd 7 0 [{ value := 255 }]).wf = true := by decide
theorem test_wf_line : (Instr.csiLongPacket 1 { dt := 64 }).wf = false ∧ (Instr.csiLongPacket 1 { dt := 63 }).wf = true := by decide
theorem test_wf_state : (Instr.alStateRequest { state := 5 }).wf = false ∧ (Instr.alStateRequest { state := 8 }).wf = true := by decide
theorem test_wf_board : (Instr.resetRelease { mode := 8 } []).wf = false ∧ (Instr.resetRelease { mode := 7 } []).wf = true := by decide
theorem test_wf_steps : (Instr.resetRelease {} [{ code := 256 }]).wf = false ∧ (Instr.resetRelease {} [{ code := 255 }]).wf = true := by decide
theorem test_wf_tids : (Instr.tidGrantNotice 63 [4096]).wf = false ∧ (Instr.tidGrantNotice 63 [4095]).wf = true := by decide

/-! ## Worked examples of the spec -/

/-- The release of TC1 across an epoch boundary (before Table 1.5): diff(0x0000_0320, 0xFFFF_FF38) = +1,000. -/
theorem test_release_after_epoch : diff 0x320#32 0xFFFFFF38#32 = 1000 := by decide

/-- Table 2.10: contexts β and γ of TC1, as 128-bit words. -/
def ctxBeta : BitVec 128 := 0x80000005_00002138_00000000_010B3C60#128

/-- Context γ of Table 2.10. -/
def ctxGamma : BitVec 128 := 0x80000006_00003138_000003D7_010BA334#128

/-- Table 2.9 beside Table 2.10: the fields of β and γ. -/
theorem test_context_fields : ctxOp ctxBeta = 0x60 ∧ ctxSrcA ctxBeta = 12 ∧ ctxSrcB ctxBeta = 3 ∧ ctxSrcC ctxBeta = 11 ∧ ctxDst0 ctxBeta = 0x10 ∧
    ctxFire ctxBeta = 8 ∧ ctxPrio ctxBeta = 3 ∧ ctxNext ctxBeta = 1 ∧ ctxTxb ctxBeta = 2 ∧ ctxSwsel ctxBeta = 5 ∧ ctxValid ctxBeta = true ∧
    ctxOp ctxGamma = 0x34 ∧ ctxSrcA ctxGamma = 3 ∧ ctxSrcB ctxGamma = 10 ∧ ctxImm ctxGamma = 0x3D7#32 ∧ ctxTxb ctxGamma = 3 := by decide

/-- M21 with one instance in progress at a position, its W input holding one word. -/
def lane2 (pos : Nat) (ctx : BitVec 128) (w : Word) : State :=
  up.setMotif 10 ((({ : Motif }).setSlot pos 1 { ctx := ctx }).setCell pos
    { runs := [{ inst := { slot := 1, stamp := 0xFFFFFF38#32, toks := [(3, { stamp := 0xFFFFFF38#32, words := [w] })] } }] })

/-- The words that stand in the output buffer of a cell of M21 after a command. -/
def outWords (o : Host.Outcome State Fault Refusal) (pos : Nat) : List (List Word) :=
  match o with
  | .next t => ((t.motif 10).out pos).map (fun x => x.tok.words)
  | _ => []

/-- β: diff(0xFFFF_FF38, 0x0000_0708) = −2,000, the word 0xFFFF_F830 (after Table 2.10). -/
theorem test_beta_result : outWords (exec (.cellSdiff { m := 10, pos := 5 }) (lane2 5 ctxBeta 0x708#32)) 5 = [[0xFFFFF830#32]] := by decide +kernel

/-- γ: −2,000 × 983 with rounding, shifted right by 16, is −30, the word 0xFFFF_FFE2 (after Table 2.10). -/
theorem test_gamma_result : outWords (exec (.cellQmul16 { m := 10, pos := 6 }) (lane2 6 ctxGamma 0xFFFFF830#32)) 6 = [[0xFFFFFFE2#32]] := by decide +kernel

/-- Table 3.11: element 4 outside the window gives the fault word 0x1400_5048, an uncorrectable one inside it 0x5400_4048. -/
theorem test_gather_fault_words : gatherFaultWord 1 4 0x5048 = 0x14005048#32 ∧ gatherFaultWord 5 4 0x4048 = 0x54004048#32 := by decide

/-- The master entry 0x0000_03D0_8000_4D43 (before Table 6.8): X 3, Y 0, EDGE, endpoint 26, and URGENCY 12 for a slack of 944 ns. -/
theorem test_route_entry : (withRoute 0x3D080004D43 {}).dx = 3 ∧ (withRoute 0x3D080004D43 {}).dy = 0 ∧ (withRoute 0x3D080004D43 {}).edge = true ∧
    (withRoute 0x3D080004D43 {}).endpoint = 26 ∧
    routeUrgency { od [] with time := { t := 0xFFFFFF58 } } 0x3D080004D43 0xFFFFFF38#32 = 12 := by decide +kernel

/-- The correction packet of Table 6.8: its header words 3 to 0 and word 0 of its data flit. -/
theorem test_correction_header :
    ({ dx := 3, edge := true, endpoint := 26, look := 2, urgency := 12, len := 1, src := 10, tid := 0x2A7, words := 1, fend := true,
       tstamp := 0xFFFFFF38#32, istamp := 0xFFFFFF58#32, data := [0xFFFFFFE2#32] } : Packet).flits =
      [0xFFFFFF58FFFFFF382020A9C050704D43#128, 0xFFFFFFE2#128] := by decide +kernel

/-- A token of one word in the switch (Table 3.2, R79): a head word with V and H, and a data word with V and E. -/
theorem test_switch_words : ({ stamp := 0xFFFFFF38#32, words := [0xFFFFFFE2#32], tid := 0x2A7, prio := 3 } : Token).switchWords =
    [0x1953BFFFFFF38#49, 0x1953DFFFFFFE2#49] := by decide +kernel

/-- The drive frame of TID 0x2A7 (before Table 10.7): D4 20 5C 04 E2 FF FF FF A7 D6. -/
theorem test_drive_frame : driveFrame 0x20 0x5C [0xFFFFFFE2#32] = leBytes 0xD6A7FFFFFFE2045C20D4 10 := by decide +kernel

/-- CRC-32C of the nine bytes of the string 123456789 is 0xE306_9283, its well-known check value. -/
theorem test_crc32c : crc32c (leBytes 0x393837363534333231 9) = 0xE3069283 := by decide +kernel

/-- What the config slave port's path answers after a command: its abort code and its data as a number. -/
def answerOf (o : Host.Outcome State Fault Refusal) : Nat × Nat :=
  match o with
  | .next t => ((t.path 2).answer.abort, leNat (t.path 2).answer.data)
  | _ => (0, 0)

/-- The refused reads of Table 9.5, and the read of 0x1018:02. -/
theorem test_table_9_5_reads : answerOf (exec (.sdoUpload 2 0x1018 2 0) up) = (0, 0x0D4F0400) ∧
    answerOf (exec (.sdoUpload 2 0x3700 0x0B 0) up) = (0x06010001, 0) ∧
    answerOf (exec (.sdoUpload 2 0x3200 0x15 0) up) = (0x06090011, 0) ∧
    answerOf (exec (.sdoUpload 2 0x3900 0 0) up) = (0x06020000, 0) := by decide +kernel

/-- The refused writes of Table 9.5: length, state before value, value, direction. -/
theorem test_table_9_5_writes : answerOf (exec (.objectWrite 2 0x3401 5 2 [0x64, 0]) up) = (0x06070013, 0) ∧
    answerOf (exec (.objectWrite 2 0x3401 5 4 [0x64, 0, 0, 0]) (od [(0x3401, 1, 1), (0x3401, 0x14, 1)])) = (0x08000022, 0) ∧
    answerOf (exec (.objectWrite 2 0x3401 5 4 [0x64, 0, 0, 0]) ((od [(0x3401, 1, 2)]).setCls false 1 { declared := true, minOffset := 209 })) = (0x06090030, 0) ∧
    answerOf (exec (.objectWrite 2 0x3500 1 4 [0, 0, 0, 0]) up) = (0x06010002, 0) := by decide +kernel

/-- An image of one empty section passes checks 1 to 7 of Table 7.5. -/
theorem test_small_image_is_valid : checkStored up smallImage = none := by decide +kernel

/-- What a supervisor's stack holds after a command, with its pc and the bank that is current. -/
def trapView (o : Host.Outcome State Fault Refusal) : List Nat × Nat × Nat :=
  match o with
  | .next t => ((List.range 4).map (fun i => leNat (memRead (t.core 64).dmem (0xF0 + 4 * i) 4)), (t.core 64).here.pc.toNat, (t.core 64).cur)
  | _ => ([], 0, 0)

/-- A load from an address that is not a multiple of 4 (R323, R324, Table 8.10): the frame holds pc, STATUS, CAUSE 3 of bank 0 in system mode and
the address; bank 0 goes on at VBASE + 16 × 3. -/
theorem test_misaligned_load : trapView (exec (.fzLw 64 2 1 1 0) (fz 64 (sup { regs := [(1, 0x10020#32), (30, 0x10100#32)] } []))) =
    ([0, 1, 0x1003, 0x10021], 48, 0) := by decide +kernel

/-- SRAI g3, g2, 31 and FENCE in the bits of Tables 8.12 and 8.13; SAVL with a field that must be 0, and OP 0x3F, are reserved encodings. -/
theorem test_fizhaig_words : encodeFizhaig (.fzSrai 0 3 2 31) = some (0, 0, 0b00110000011000100000000000011111) ∧
    encodeFizhaig (.fzFence 0) = some (0, 0, 0b11100000000000000000000000001101) ∧
    isOpcode 0b11100000000000010000000000000001 = false ∧ isOpcode 0b11111100000000000000000000000000 = false := by decide

/-! ## What the hypotheses of the row statements ask can be met -/

/-- A beat of an operation finds a run, whatever the operation code. -/
theorem test_cell_row_hyps : (List.range 256).all (fun op => (takeRun ((mot (runMotif op {})).motif 0) 0 op).isSome) = true := by decide +kernel

/-- The MAC2 family: a beat before the last, and the last one. -/
theorem test_mac_row_hyps : ((takeRun ((mot (runMotif 0x38 { beats := 2 })).motif 0) 0 0x38).map (fun e => decide (e.1.beat + 1 < e.1.beats))) = some true ∧
    ((takeRun ((mot (runMotif 0x3B {})).motif 0) 0 0x3B).map (fun e => decide (e.1.beats ≤ e.1.beat + 1))) = some true := by decide +kernel

/-- A core of every kind issues an instruction that it can fetch; a supervisor with its FP file executes FP operations. -/
theorem test_fz_row_hyps : FzRuns 63 (fz 63) ∧ FzRuns 67 (fz 67) ∧ FzRuns 68 (fz 68) ∧ FpRuns 64 fpState := by
  refine ⟨?_, ?_, ?_, ?_⟩ <;> constructor <;> first | decide +kernel | (constructor <;> decide +kernel)

/-- Branches: taken to an aligned target, taken to a misaligned one, not taken. -/
theorem test_branch_row_hyps : FzRuns 0 (fz 0) ∧ (((fz 0).core 0).here.pc + wordDisp 16 5).toNat % 4 = 0 ∧
    FzRuns 0 (fz 0 (fzCore 0 { pc := 2#32 })) ∧ (((fz 0 (fzCore 0 { pc := 2#32 })).core 0).here.pc + wordDisp 16 5).toNat % 4 ≠ 0 := by
  refine ⟨?_, ?_, ?_, ?_⟩ <;> first | decide +kernel | (constructor <;> decide +kernel)

/-- Loads and stores: an address in data memory, a misaligned one, and one that is not mapped. -/
theorem test_memory_row_hyps : FzRuns 0 (fz 0 (fzCore 0 { regs := [(1, 0x10FFC#32), (2, 0x40000#32)] })) ∧
    (fzEa 0 1 0 (fz 0 (fzCore 0 { regs := [(1, 0x10FFC#32), (2, 0x40000#32)] }))).toNat = 0x10FFC ∧
    fzPlace 0 (fzCore 0) 0x10FFC = .data 0xFFC ∧ (∀ w : Bool, fzAllowed 0 (fzCore 0) {} w 0x10FFC = true) ∧ 0x10FFC % 4 = 0 ∧
    0x10FFD % 2 ≠ 0 ∧ (∀ w : Bool, fzAllowed 0 (fzCore 0) {} w 0x40000 = false) := by
  refine ⟨?_, ?_, ?_, ?_, ?_, ?_, ?_⟩ <;> first | decide +kernel | (constructor <;> decide +kernel)

/-- Control space: a register that can be read, one that can be written in user mode, one that only can be read, and one for system mode. -/
theorem test_control_row_hyps : ctrlKind 0 0x08 = some (.rw, false) ∧ ctrlKind 0 0x04 = some (.ro, false) ∧ ctrlKind 0 0x00 = some (.rw, true) ∧
    (okOf (ctrlWrite 0 0x08 0 (fz 0))).isSome = true := by decide +kernel

/-- A frame of each kind of the config slave port, with a state that takes it and the test of its row (Tables 7.8 to 7.10). -/
def hostTests : List (State × (Nat → Nat → Bool) × List Byte) :=
  let st : State := { od [(0x3600, 1, 1), (0x3600, 4, 0)] with cfg := { width := some 2 }, flash := { mib := 256 }, fabric := true }
  let ld : State := { st with load := { active := true, source := 0, total := 80 } }
  [({ st with start := { waitLoad := true } }, fun k b => k == 1 && b == 0, leBytes 0x1d55bb80000005000000000000000080101d4a5 20),
   (st.setObj 0x3600 1 0, fun k b => k == 1 && b == 1, leBytes 0x48e9269f0000005000000001000000080101d4a5 20),
   (st, fun k b => k == 1 && b == 2, leBytes 0x93ada1f60000005000000002000000080101d4a5 20),
   (st, fun k b => k == 1 && decide (3 ≤ b), leBytes 0xda91dcd10000005000000003000000080101d4a5 20),
   (ld, fun k _ => k == 2, leBytes 0xbf1e4aa80000000000000000000000080102d4a5 20),
   (ld, fun k _ => k == 3, leBytes 0x67c72cb2000000000103d4a5 12),
   (ld, fun k _ => k == 4, leBytes 0xe18ed01f000000000104d4a5 12),
   (st, fun k b => k == 0x10 && (b == 0 || decide (4 ≤ b)), leBytes 0xe82ef420000000021000100000000080110d4a5 20),
   (st, fun k b => k == 0x10 && b == 1, leBytes 0x47be92650000000021000101000000080110d4a5 20),
   (st, fun k b => k == 0x10 && b == 2, leBytes 0x9cfa150c0000000021000102000000080110d4a5 20),
   (st, fun k b => k == 0x10 && b == 3, leBytes 0xd5c6682b0000000021000103000000080110d4a5 20),
   (st, fun k _ => decide (0x20 ≤ k) && decide (k ≤ 0x23), leBytes 0x326bf1660000000500000003000000080123d4a5 20),
   (st, fun k b => k == 0x30 && !([1, 4, 5, 6, 7].contains b), leBytes 0xfda6139300000000000000040130d4a5 16),
   (st, fun k b => k == 0x30 && b == 1, leBytes 0x20e3b92b00000001000000040130d4a5 16),
   (st, fun k b => k == 0x30 && decide (4 ≤ b) && decide (b ≤ 7), leBytes 0xe4a6ab5900000007000000040130d4a5 16)]

/-- Each is intact, of its row's kind, addressed to unit 0, and has an effect. -/
theorem test_host_row_hyps : hostTests.all (fun e => e.1.cfg.width == some 2 && hostIntact e.2.2 && hostMaskOk (hostParse e.2.2) &&
    e.1.cfg.lastSeq.isNone && e.2.1 (le e.2.2 2 1) (le e.2.2 8 1) && bit (hostParse e.2.2).mask (e.1.obj 0x3601 6) &&
    (hostAct (hostParse e.2.2) e.1).isSome) = true := by decide +kernel

/-- Such a frame is taken. -/
theorem test_host_takes : HostTakes (hostTests.getD 4 (up, fun _ _ => false, [])).1 (hostTests.getD 4 (up, fun _ _ => false, [])).2.2 :=
  ⟨Or.inr (Or.inr rfl), by decide +kernel, by decide +kernel, by decide +kernel, (fun q h => by cases h), by decide +kernel⟩

/-! ## The hypotheses of each statement's clauses can be met together -/

/-- Each clause of TimeBaseCommands. -/
theorem test_time_base_commands_hyps :
    (∃ (s : State) (path : Nat) (v : Nat), Accepts s path 0x2100 1 1 v ∧ v ≤ 2 ∧ v ≠ 0 ∧ v ≠ s.obj 0x2100 1) ∧
    (∃ (s : State) (u : State), s.obj 0x2100 1 = 1 ∧ s.obj 0x2100 2 ≠ 0 ∧ s.time.measured ≠ some (epochOf s) ∧ u =
      { s with time := { s.time with measured := some (epochOf s) } }) ∧
    (∃ (s : State), s.obj 0x2100 1 = 1 ∧ s.obj 0x2100 2 = 2) ∧
    (∃ (s : State), s.obj 0x2100 1 = 1 ∧ s.obj 0x2100 2 = 2 ∧ s.time.lastRef + 1000000 * s.obj 0x2100 9 ≤ s.time.clk) ∧
    (∃ (s : State) (u : State), s.obj 0x2100 1 = 2 ∧ s.obj 0x2100 2 = 2 ∧ s.time.lastRef + 1100000000 ≤ s.time.clk ∧ u = setFreqCorr s.time.freqEst
      (tbEnter 3 s)) ∧
    (∃ (s : State) (u : State) (w : State) (off : Int), s.obj 0x2100 1 = 2 ∧ s.obj 0x2100 2 = 3 ∧ off = (s.time.t : Int) - ppsMeaning s ∧ u =
      { s.setObj 0x2100 6 0 with time := { s.time with lastRef := s.time.clk, refSeen := true, ppsPrev := some (ppsMeaning s) } } ∧ w = loopUpdate
      off (noteOffset off (tbEnter 1 u)) ∧ stepRequired w off = false) ∧
    (∃ (s : State) (dc : Nat), s.obj 0x2100 1 = 1 ∧ s.obj 0x2100 2 = 1 ∧ s.obj 0x2100 8 < ((s.time.t : Int) - dc).natAbs ∧ stepAllowed s = true) ∧
    (∃ (s : State) (path : Nat) (v : Nat), Accepts s path 0x2100 6 8 v ∧ v % 1000000000 = 0) ∧
    (∃ (s : State) (path : Nat) (n : Nat), n < 16 ∧ Accepts s path (0x2110 + n) 1 1 1 ∧ (s.timer s.activeB n).enable = false) := by
  refine ⟨?_, ?_, ?_, ?_, ?_, ?_, ?_, ?_, ?_⟩
  · refine ⟨up, 2, 2, ?_, ?_, ?_, ?_⟩
    all_goals first | decide +kernel | (constructor <;> decide +kernel)
  · refine ⟨od [(0x2100,1,1),(0x2100,2,2)], _, ?_, ?_, ?_, rfl⟩
    all_goals decide +kernel
  · refine ⟨od [(0x2100,1,1),(0x2100,2,2)], ?_, ?_⟩
    all_goals decide +kernel
  · refine ⟨at_ (10^12) (od [(0x2100,1,1),(0x2100,2,2)]), ?_, ?_, ?_⟩
    all_goals decide +kernel
  · refine ⟨at_ (10^12) (od [(0x2100,1,2),(0x2100,2,2)]), _, ?_, ?_, ?_, rfl⟩
    all_goals decide +kernel
  · refine ⟨od [(0x2100,1,2),(0x2100,2,3)], _, _, _, ?_, ?_, rfl, rfl, rfl, ?_⟩
    all_goals decide +kernel
  · refine ⟨at_ (10^12) (od [(0x2100,1,1),(0x2100,2,1)]), 0, ?_, ?_, ?_, ?_⟩
    all_goals decide +kernel
  · refine ⟨up, 2, 5000000000, ?_, ?_⟩
    all_goals first | decide +kernel | (constructor <;> decide +kernel)
  · refine ⟨up, 2, 15, ?_, ?_, ?_⟩
    all_goals first | decide +kernel | (constructor <;> decide +kernel)

/-- Each clause of PpsOutAndTimers. -/
theorem test_pps_out_and_timers_hyps :
    (∃ (s : State), s.obj 0x2100 0x0B ≠ 0 ∧ s.time.t % 1000000000 = 0) ∧
    (∃ (s : State), s.time.ppsOut = true ∧ s.time.ppsRose + s.obj 0x2100 0x0B ≤ s.time.clk) ∧
    (∃ (s : State) (b : Bool) (n : Nat) (x : Timer) (p : Packet) (t' : Token), n < 16 ∧ x = s.timer b n ∧ x.enable = true ∧ x.active = true ∧
      timerNext x ≤ s.time.t ∧ timerMayFire s b (timerNext x) = true ∧ timerWaiting s (1 + n + 16 * b2n b) = false ∧ entryCheck (s.setTimer b n
      { x with nextN := x.nextN + 1, active := x.period != 0, count := x.nextN % 2 ^ 32 })
      { stamp := stampOf (timerNext x), words := [BitVec.ofNat 32 x.nextN] } = some t' ∧ p =
      { tokenPacket x.stream t' with timer := 1 + n + 16 * b2n b }) ∧
    (∃ (s : State) (b : Bool) (n : Nat) (x : Timer), n < 16 ∧ x = s.timer b n ∧ x.enable = true ∧ x.active = true ∧ timerNext x ≤ s.time.t ∧
      timerMayFire s b (timerNext x) = true ∧ timerWaiting s (1 + n + 16 * b2n b) = true) ∧
    (∃ (s : State), s.time.t % 2 ^ 20 = 0) := by
  refine ⟨?_, ?_, ?_, ?_, ?_⟩
  · refine ⟨od [(0x2100,0x0B,1)], ?_, ?_⟩
    all_goals decide +kernel
  · refine ⟨{ od [(0x2100,0x0B,100)] with time := { ppsOut := true, clk := 100 } }, ?_, ?_⟩
    all_goals decide +kernel
  · refine ⟨up.setTimer false 15 { enable := true, active := true }, false, 15, _, _, _, ?_, rfl, ?_, ?_, ?_, ?_, ?_, some_eta ?_, rfl⟩
    all_goals decide +kernel
  · refine ⟨(up.setTimer false 15 { enable := true, active := true }).setSource 70 { queue := [{ timer := 16 }] }, false, 15, _, ?_, rfl, ?_, ?_, ?_,
      ?_, ?_⟩
    all_goals decide +kernel
  · refine ⟨up, ?_⟩
    all_goals decide +kernel

/-- Each clause of CellMemory. -/
theorem test_cell_memory_hyps :
    (∃ (b : CellBeat) (s : State) (r : Run) (rest : List Run) (e : SbEntry), takeRun (s.motif b.m) b.pos 0x70 = some (r, rest) ∧ r.stopped = false ∧
      b.mismatch = none ∧ spFault s b.m (ctxBank ((s.motif b.m).slot b.pos r.inst.slot).ctx) (ctxSpan ((s.motif b.m).slot b.pos r.inst.slot).ctx)
      (memAddr (beatIn s b.m b.pos r)) = 0 ∧ sbEntryFor (s.motif b.m) r.inst.tid (spLinear (ctxBank ((s.motif b.m).slot b.pos r.inst.slot).ctx)
      (ctxSpan ((s.motif b.m).slot b.pos r.inst.slot).ctx) (memAddr (beatIn s b.m b.pos r))) = some e ∧ b.ecc ≠ 2) ∧
    (∃ (b : CellBeat) (s : State) (u : State) (r : Run) (rest : List Run) (w : Word) (q : BankAsk), takeRun (s.motif b.m) b.pos 0x70 = some (r, rest)
      ∧ r.stopped = false ∧ b.mismatch = none ∧ spFault s b.m (ctxBank ((s.motif b.m).slot b.pos r.inst.slot).ctx) (ctxSpan ((s.motif b.m).slot b.pos
      r.inst.slot).ctx) (memAddr (beatIn s b.m b.pos r)) = 0 ∧ sbEntryFor (s.motif b.m) r.inst.tid (spLinear (ctxBank ((s.motif b.m).slot b.pos
      r.inst.slot).ctx) (ctxSpan ((s.motif b.m).slot b.pos r.inst.slot).ctx) (memAddr (beatIn s b.m b.pos r))) = none ∧ q = cellRequest s b ((s.motif
      b.m).slot b.pos r.inst.slot).ctx ∧ bankTurn s b.m (spBank (spLinear (ctxBank ((s.motif b.m).slot b.pos r.inst.slot).ctx) (ctxSpan ((s.motif
      b.m).slot b.pos r.inst.slot).ctx) (memAddr (beatIn s b.m b.pos r)))) q = true ∧ spRead b.m (spLinear (ctxBank ((s.motif b.m).slot b.pos
      r.inst.slot).ctx) (ctxSpan ((s.motif b.m).slot b.pos r.inst.slot).ctx) (memAddr (beatIn s b.m b.pos r))) b.ecc (takeTurn b.m q s) = (some w,
      u)) ∧
    (∃ (b : CellBeat) (s : State) (r : Run) (rest : List Run) (q : BankAsk), takeRun (s.motif b.m) b.pos 0x70 = some (r, rest) ∧ r.stopped = false ∧
      b.mismatch = none ∧ spFault s b.m (ctxBank ((s.motif b.m).slot b.pos r.inst.slot).ctx) (ctxSpan ((s.motif b.m).slot b.pos r.inst.slot).ctx)
      (memAddr (beatIn s b.m b.pos r)) = 0 ∧ sbEntryFor (s.motif b.m) r.inst.tid (spLinear (ctxBank ((s.motif b.m).slot b.pos r.inst.slot).ctx)
      (ctxSpan ((s.motif b.m).slot b.pos r.inst.slot).ctx) (memAddr (beatIn s b.m b.pos r))) = none ∧ q = cellRequest s b ((s.motif b.m).slot b.pos
      r.inst.slot).ctx ∧ bankTurn s b.m (spBank (spLinear (ctxBank ((s.motif b.m).slot b.pos r.inst.slot).ctx) (ctxSpan ((s.motif b.m).slot b.pos
      r.inst.slot).ctx) (memAddr (beatIn s b.m b.pos r)))) q = false) ∧
    (∃ (b : CellBeat) (s : State) (r : Run) (rest : List Run), takeRun (s.motif b.m) b.pos 0x71 = some (r, rest) ∧ r.stopped = false ∧ b.mismatch =
      none ∧ r.inst.tid ≠ 0 ∧ (s.motif b.m).sb.length < 256 ∧ spFault s b.m (ctxBank ((s.motif b.m).slot b.pos r.inst.slot).ctx) (ctxSpan ((s.motif
      b.m).slot b.pos r.inst.slot).ctx) (memAddr (beatIn s b.m b.pos r)) = 0) ∧
    (∃ (b : CellBeat) (s : State) (r : Run) (rest : List Run), takeRun (s.motif b.m) b.pos 0x71 = some (r, rest) ∧ r.stopped = false ∧ b.mismatch =
      none ∧ r.inst.tid ≠ 0 ∧ 256 ≤ (s.motif b.m).sb.length ∧ spFault s b.m (ctxBank ((s.motif b.m).slot b.pos r.inst.slot).ctx) (ctxSpan ((s.motif
      b.m).slot b.pos r.inst.slot).ctx) (memAddr (beatIn s b.m b.pos r)) = 0) ∧
    (∃ (b : CellBeat) (s : State) (r : Run) (rest : List Run) (q : BankAsk), takeRun (s.motif b.m) b.pos 0x71 = some (r, rest) ∧ r.stopped = false ∧
      b.mismatch = none ∧ r.inst.tid = 0 ∧ spFault s b.m (ctxBank ((s.motif b.m).slot b.pos r.inst.slot).ctx) (ctxSpan ((s.motif b.m).slot b.pos
      r.inst.slot).ctx) (memAddr (beatIn s b.m b.pos r)) = 0 ∧ q = cellRequest s b ((s.motif b.m).slot b.pos r.inst.slot).ctx ∧ bankTurn s b.m
      (spBank (spLinear (ctxBank ((s.motif b.m).slot b.pos r.inst.slot).ctx) (ctxSpan ((s.motif b.m).slot b.pos r.inst.slot).ctx) (memAddr (beatIn s
      b.m b.pos r)))) q = true) ∧
    (∃ (b : CellBeat) (s : State) (r : Run) (rest : List Run) (code : Nat), takeRun (s.motif b.m) b.pos 0x70 = some (r, rest) ∧ r.stopped = false ∧
      b.mismatch = none ∧ code = spFault s b.m (ctxBank ((s.motif b.m).slot b.pos r.inst.slot).ctx) (ctxSpan ((s.motif b.m).slot b.pos
      r.inst.slot).ctx) (memAddr (beatIn s b.m b.pos r)) ∧ code ≠ 0) ∧
    (∃ (b : CellBeat) (s : State) (r : Run) (rest : List Run), takeRun (s.motif b.m) b.pos 0x74 = some (r, rest) ∧ b.mismatch = none ∧ r.beat + 1 <
      r.beats) := by
  refine ⟨?_, ?_, ?_, ?_, ?_, ?_, ?_, ?_⟩
  · refine ⟨{ }, mot { runMotif 0x70 { } with sb := [{ committed := true, data := 7#32 }] }, _, _, _, pair_eta ?_, ?_, ?_, ?_, some_eta ?_, ?_⟩
    all_goals decide +kernel
  · refine ⟨{ }, mot (runMotif 0x70 { }), _, _, _, _, _, pair_eta (by decide +kernel), ?_, ?_, ?_, ?_, rfl, ?_, rfl⟩
    all_goals decide +kernel
  · refine ⟨{ }, mot { runMotif 0x70 { } with sb := [{ committed := true, addr := 32764 }] }, _, _, _, pair_eta ?_, ?_, ?_, ?_, ?_, rfl, ?_⟩
    all_goals decide +kernel
  · refine ⟨{ }, mot (runMotif 0x71 { inst := { tid := 1 } }), _, _, pair_eta ?_, ?_, ?_, ?_, ?_, ?_⟩
    all_goals decide +kernel
  · refine ⟨{ }, mot { runMotif 0x71 { inst := { tid := 1 } } with sb := List.replicate 256 { } }, _, _, pair_eta ?_, ?_, ?_, ?_, ?_, ?_⟩
    all_goals decide +kernel
  · refine ⟨{ }, mot (runMotif 0x71 { }), _, _, _, pair_eta ?_, ?_, ?_, ?_, ?_, rfl, ?_⟩
    all_goals decide +kernel
  · refine ⟨{ }, mot (runMotif (0x70 + 2 ^ 32) { }), _, _, _, pair_eta ?_, ?_, ?_, rfl, ?_⟩
    all_goals decide +kernel
  · refine ⟨{ }, mot (runMotif 0x74 { beats := 2 }), _, _, pair_eta ?_, ?_, ?_⟩
    all_goals decide +kernel

/-- Each clause of CellSteerDropCancel. -/
theorem test_cell_steer_drop_cancel_hyps :
    (∃ (b : CellBeat) (s : State) (r : Run) (rest : List Run) (side : Bool), takeRun (s.motif b.m) b.pos 0x80 = some (r, rest) ∧ side = (if r.beat =
      0 then (beatIn s b.m b.pos r).c == 0#32 else r.toDst1)) ∧
    (∃ (b : CellBeat) (s : State) (r : Run) (rest : List Run), takeRun (s.motif b.m) b.pos 0x81 = some (r, rest)) ∧
    (∃ (b : CellBeat) (s : State) (r : Run) (rest : List Run), takeRun (s.motif b.m) b.pos 0x82 = some (r, rest) ∧ b.mismatch = none ∧ r.stopped =
      false) ∧
    (∃ (b : CellBeat) (s : State) (r : Run) (rest : List Run), takeRun (s.motif b.m) b.pos 0x82 = some (r, rest) ∧ b.mismatch = none ∧ r.stopped =
      true) := by
  refine ⟨?_, ?_, ?_, ?_⟩
  · refine ⟨{ }, mot (runMotif 0x80 { }), _, _, _, pair_eta ?_, rfl⟩
    all_goals decide +kernel
  · refine ⟨{ }, mot (runMotif 0x81 { }), _, _, pair_eta ?_⟩
    all_goals decide +kernel
  · refine ⟨{ }, mot (runMotif 0x82 { }), _, _, pair_eta ?_, ?_, ?_⟩
    all_goals decide +kernel
  · refine ⟨{ }, mot (runMotif 0x82 { stopped := true }), _, _, pair_eta ?_, ?_, ?_⟩
    all_goals decide +kernel

/-- Each clause of BeatDelivery. -/
theorem test_beat_delivery_hyps :
    (∃ (op : Nat) (m : Nat) (pos : Nat) (ds : List Nat) (fin : Nat → Nat → Run → State → State) (r : Run) (w : Word) (s : State) (t : State), r.beat
      + 1 < r.beats ∧ t = deliver op m pos ds fin r w s) ∧
    (∃ (op : Nat) (m : Nat) (pos : Nat) (ds : List Nat) (fin : Nat → Nat → Run → State → State) (r : Run) (w : Word) (s : State) (t : State),
      r.stopped = true ∧ r.beats ≤ r.beat + 1 ∧ (fin = sendResults ∨ fin = sendSteer) ∧ t = deliver op m pos ds fin r w s) := by
  refine ⟨?_, ?_⟩
  · refine ⟨0, 0, 0, [0], fun _ _ _ s => s, { beats := 2 }, 1#32, up, _, ?_, rfl⟩
    all_goals decide +kernel
  · refine ⟨0, 0, 0, [0], sendResults, { beats := 2, beat := 1, stopped := true }, 1#32, up, _, rfl, by decide, Or.inl rfl, rfl⟩

/-- Each clause of MotifTokens. -/
theorem test_motif_tokens_hyps :
    (∃ (m : Nat) (src : Nat) (s : State) (o : OutTok) (os : List OutTok), (s.motif m).out src = o :: os ∧ routeKind o.route = 3 ∧ bit o.route 12 =
      false ∧ granted (s.motif m) src o = true ∧ crossUsed s m + o.size ≤ 32) ∧
    (∃ (m : Nat) (src : Nat) (s : State) (o : OutTok) (os : List OutTok), (s.motif m).out src = o :: os ∧ routeKind o.route = 3 ∧ bit o.route 12 =
      false ∧ 32 < crossUsed s m + o.size) ∧
    (∃ (m : Nat) (src : Nat) (s : State) (u : State) (o : OutTok) (os : List OutTok), (s.motif m).out src = o :: os ∧ routeKind o.route = 3 ∧ bit
      o.route 12 = true ∧ granted (s.motif m) src o = true ∧ o.tok.cancel = false ∧ u = s.setMotif m (popOut s.time.clk src (s.motif m))) ∧
    (∃ (m : Nat) (src : Nat) (s : State) (o : OutTok) (os : List OutTok), (s.motif m).out src = o :: os ∧ routeKind o.route ≠ 3 ∧ o.tok.cancel =
      false ∧ outDests (s.motif m) o ≠ [] ∧ straggler s m o.tok = false ∧ remapping (s.motif m) (outDests (s.motif m) o) = false ∧ granted (s.motif
      m) src o = true ∧ noEntry (s.motif m) (outDests (s.motif m) o) = false ∧ src ≠ 16) ∧
    (∃ (m : Nat) (src : Nat) (s : State) (o : OutTok) (os : List OutTok), (s.motif m).out src = o :: os ∧ routeKind o.route ≠ 3 ∧ o.tok.cancel =
      false ∧ outDests (s.motif m) o ≠ [] ∧ straggler s m o.tok = false ∧ remapping (s.motif m) (outDests (s.motif m) o) = false ∧ granted (s.motif
      m) src o = true ∧ noEntry (s.motif m) (outDests (s.motif m) o) = true ∧ o.waitT = 0) ∧
    (∃ (m : Nat) (src : Nat) (s : State) (o : OutTok) (os : List OutTok), (s.motif m).out src = o :: os ∧ o.waitT ≠ 0 ∧ o.waitT - 1 + cyclesNs s m
      4096 ≤ s.time.clk) ∧
    (∃ (m : Nat) (pos : Nat) (s : State) (w : Inst) (is : List Inst), ((s.motif m).cell pos).winner = none ∧ ((s.motif m).cell pos).runs = [] ∧
      remapping (s.motif m) [(pos, 0, 0)] = false ∧ candidates s (s.motif m) pos ((s.motif m).cell pos) = w :: is ∧ eligible s (s.motif m) pos
      ((s.motif m).cell pos) w = true ∧ s.time.clk < w.readyAt) ∧
    (∃ (m : Nat) (pos : Nat) (s : State) (u : State) (i : Inst) (k : BitVec 128), ((s.motif m).cell pos).winner = some i ∧ k = ((s.motif m).slot pos
      i.slot).ctx ∧ remapping (s.motif m) [(pos, 0, 0)] = false ∧ i.tid = 0 ∧ ctxTxb k = 0 ∧ lengthOk k i = true ∧ u = noteDispatch m pos k i
      (noteNext m pos k i (s.setMotif m ((s.motif m).setCell pos { (s.motif m).cell pos with winner := none })))) ∧
    (∃ (m : Nat) (pos : Nat) (s : State) (u : State) (i : Inst) (k : BitVec 128), ((s.motif m).cell pos).winner = some i ∧ k = ((s.motif m).slot pos
      i.slot).ctx ∧ remapping (s.motif m) [(pos, 0, 0)] = false ∧ i.tid ≠ 0 ∧ ctxTxb k ≠ 1 ∧ u = noteDispatch m pos k i (noteNext m pos k i
      (s.setMotif m ((s.motif m).setCell pos { (s.motif m).cell pos with winner := none }))) ∧ ((u.motif m).part i.tid).closed = false) ∧
    (∃ (m : Nat) (src : Nat) (s : State) (o : OutTok) (os : List OutTok), (s.motif m).out src = o :: os ∧ o.tok.cancel = true ∧ granted (s.motif m)
      src o = true ∧ (routeKind o.route = 1 ∨ routeKind o.route = 2)) := by
  refine ⟨?_, ?_, ?_, ?_, ?_, ?_, ?_, ?_, ?_, ?_⟩
  · refine ⟨0, 0, mot (({  } : Motif).setOut 0 [{ route := 3 }]), _, _, cons_eta ?_, ?_, ?_, ?_, ?_⟩
    all_goals decide +kernel
  · refine ⟨0, 0, mot (({ } : Motif).setOut 0 [{ route := 3, tok := { words := List.replicate 33 5#32 } }]), _, _, cons_eta ?_, ?_, ?_, ?_⟩
    all_goals decide +kernel
  · refine ⟨0, 0, mot (({  } : Motif).setOut 0 [{ route := 3 + 2 ^ 12, tok := { words := [5#32] } }]), _, _, _, cons_eta ?_, ?_, ?_, ?_, ?_, rfl⟩
    all_goals decide +kernel
  · refine ⟨0, 0, mot (({  } : Motif).setOut 0 [{ route := 1, tok := { words := [5#32] } }]), _, _, cons_eta ?_, ?_, ?_, ?_, ?_, ?_, ?_, ?_, ?_⟩
    all_goals decide +kernel
  · refine ⟨0, 0, mot ((({ } : Motif).setOut 0 [{ route := 1, tok := { words := [5#32] } }]).setCell 0 { store := List.replicate 32 { } }), _, _,
      cons_eta ?_, ?_, ?_, ?_, ?_, ?_, ?_, ?_, ?_⟩
    all_goals decide +kernel
  · refine ⟨0, 0, at_ (10^12) (mot (({  } : Motif).setOut 0 [{ waitT := 1 }])), _, _, cons_eta ?_, ?_, ?_⟩
    all_goals decide +kernel
  · refine ⟨0, 0, mot (({ } : Motif).setCell 0 { ready := [{ readyAt := 1 }] }), _, _, ?_, ?_, ?_, cons_eta ?_, ?_, ?_⟩
    all_goals decide +kernel
  · refine ⟨0, 0, mot (({ } : Motif).setCell 0 { winner := some { toks := [(0, { words := [5#32] })] } }), _, _, _, some_eta ?_, rfl, ?_, ?_, ?_, ?_,
      rfl⟩
    all_goals decide +kernel
  · refine ⟨0, 0, mot (({ } : Motif).setCell 0 { winner := some { tid := 5, toks := [(0, { words := [5#32] })] } }), _, _, _, some_eta ?_, rfl, ?_,
      ?_, ?_, rfl, ?_⟩
    all_goals decide +kernel
  · refine ⟨0, 0, mot (({  } : Motif).setOut 0 [{ route := 1, tok := { cancel := true } }]), _, _, cons_eta ?_, ?_, ?_, (Or.inl (by decide +kernel) :
      routeKind (((mot (({ } : Motif).setOut 0 [{ route := 1, tok := { cancel := true } }])).motif 0).out 0 |>.head (by decide +kernel)).route = 1 ∨
      _)⟩
    all_goals decide +kernel

/-- Each clause of MotifEngines. -/
theorem test_motif_engines_hyps :
    (∃ (s : State) (path : Nat) (m : Nat) (v : Nat), m < 64 ∧ v < 65536 ∧ Accepts s path (0x3200 + m) 8 2 v ∧ motifIdle (mailArrives s) m = true ∧
      (List.range 8).any (fun b => field v (2 * b + 1) (2 * b) == 3) = false ∧ mirrorSplit (mailArrives s) m v = false) ∧
    (∃ (m : Nat) (bank : Nat) (s : State) (t : BankTr) (ts : List BankTr), takeFirst (fun (t : BankTr) => t.bank == bank && decide (t.due ≤
      s.time.clk)) (s.motif m).bankTr = some (t, ts) ∧ t.target = 2) ∧
    (∃ (m : Nat) (bank : Nat) (s : State) (t : BankTr) (ts : List BankTr), takeFirst (fun (t : BankTr) => t.bank == bank && decide (t.due ≤
      s.time.clk)) (s.motif m).bankTr = some (t, ts) ∧ t.target ≠ 2) ∧
    (∃ (m : Nat) (s : State) (g : Gather) (gs : List Gather), (s.motif m).gathers = g :: gs ∧ g.ready = true ∧ gatherTail (s.motif m) = false) ∧
    (∃ (m : Nat) (ecc : Nat) (s : State) (u : State) (g : Gather) (gs : List Gather) (w : Word) (q : BankAsk), (s.motif m).gathers = g :: gs ∧
      g.started = true ∧ gatherFits (s.motif m) ((s.motif m).slot g.pos g.slot).ctx g = true ∧ gatherCheck s m ((s.motif m).slot g.pos g.slot).ctx g
      (g.indices.getD g.k 0) = 0 ∧ q = { cls := 3, waited := askWaited (s.motif m) 3 0 } ∧ bankTurn s m (ctxBank ((s.motif m).slot g.pos g.slot).ctx)
      q = true ∧ spRead m (32768 * (ctxBank ((s.motif m).slot g.pos g.slot).ctx) + (g.base + 4 * g.indices.getD g.k 0)) ecc (takeTurn m q s) = (some
      w, u)) ∧
    (∃ (m : Nat) (s : State) (g : Gather) (gs : List Gather), (s.motif m).gathers = g :: gs ∧ g.started = true ∧ gatherFits (s.motif m) ((s.motif
      m).slot g.pos g.slot).ctx g = true ∧ gatherCheck s m ((s.motif m).slot g.pos g.slot).ctx g (g.indices.getD g.k 0) ≠ 0 ∧ ctxGfill ((s.motif
      m).slot g.pos g.slot).ctx = true) ∧
    (∃ (m : Nat) (code : Nat) (s : State) (g : Gather) (gs : List Gather), (s.motif m).gathers = g :: gs ∧ g.started = true ∧ gatherFits (s.motif m)
      ((s.motif m).slot g.pos g.slot).ctx g = true ∧ code = gatherCheck s m ((s.motif m).slot g.pos g.slot).ctx g (g.indices.getD g.k 0) ∧ code ≠ 0 ∧
      ctxGfill ((s.motif m).slot g.pos g.slot).ctx = false) := by
  refine ⟨?_, ?_, ?_, ?_, ?_, ?_, ?_⟩
  · refine ⟨up, 2, 0, 0, ?_, ?_, ?_, ?_, ?_, ?_⟩
    all_goals first | decide +kernel | (constructor <;> decide +kernel)
  · refine ⟨0, 7, at_ 5 (mot { bankTr := [{ bank := 7, target := 2, due := 5 }] }), _, _, pair_eta ?_, ?_⟩
    all_goals decide +kernel
  · refine ⟨0, 7, at_ 5 (mot { bankTr := [{ bank := 7, target := 1, due := 5 }] }), _, _, pair_eta ?_, ?_⟩
    all_goals decide +kernel
  · refine ⟨0, mot { gathers := [{ indices := [0], ready := true }] }, _, _, cons_eta ?_, ?_, ?_⟩
    all_goals decide +kernel
  · refine ⟨0, 0, mot { gathers := [{ indices := [0], started := true }] }, _, _, _, _, _, cons_eta ?_, ?_, ?_, ?_, rfl, ?_, rfl⟩
    all_goals decide +kernel
  · refine ⟨0, mot { (({ } : Motif).setSlot 0 0 { ctx := BitVec.ofNat 128 (2^93) }) with gathers := [{ indices := [65535], started := true }] }, _,
      _, cons_eta ?_, ?_, ?_, ?_, ?_⟩
    all_goals decide +kernel
  · refine ⟨0, _, mot { (({ } : Motif).setSlot 0 0 { ctx := BitVec.ofNat 128 (0) }) with gathers := [{ indices := [65535], started := true }] }, _,
      _, cons_eta ?_, ?_, ?_, rfl, ?_, ?_⟩
    all_goals decide +kernel

/-- Each clause of TransactionNotices. -/
theorem test_transaction_notices_hyps :
    (∃ (m : Nat) (tids : TidList) (s : State), holdsOpen (s.motif m) = true ∧ (s.motif m).pool.length ≤ 8 ∧ 16 ≤ (freeTids s tids).length) ∧
    (∃ (tid : Nat) (s : State) (w : State) (u : State) (p : Packet) (x : Txn), takePacket (atSelvedge 0 tid) s = some (p, w) ∧ u = deadlineGone tid w
      ∧ u.txn? tid = some x ∧ x.state = .opened) ∧
    (∃ (m : Nat) (tid : Nat) (s : State) (c : CloseRep) (cs : List CloseRep) (x : Motif), x = s.motif m ∧ takeFirst (fun (c : CloseRep) => c.tid ==
      tid && !c.formed) x.closes = some (c, cs) ∧ x.mism.any (fun d => d.tid == tid) = false) ∧
    (∃ (m : Nat) (tid : Nat) (s : State) (c : CloseRep) (cs : List CloseRep) (r : Txn), takeFirst (fun (c : CloseRep) => c.tid == tid && c.formed)
      (s.motif m).closes = some (c, cs) ∧ wordsWaiting s m tid = false ∧ s.txn? tid = some r) ∧
    (∃ (tid : Nat) (s : State) (w : State) (u : State) (p : Packet) (x : Txn), takePacket (atSelvedge 1 tid) s = some (p, w) ∧ u = deadlineGone tid w
      ∧ u.txn? tid = some x ∧ pastDeadline s.now x = false ∧ x.exec ≤ p.exec ∧ x.live = true) ∧
    (∃ (tid : Nat) (s : State) (w : State) (u : State) (p : Packet) (x : Txn), takePacket (atSelvedge 1 tid) s = some (p, w) ∧ u = deadlineGone tid w
      ∧ u.txn? tid = some x ∧ pastDeadline s.now x = true) ∧
    (∃ (m : Nat) (tid : Nat) (s : State) (u : State) (p : Packet), takePacket (atMotif 5 m tid) s = some (p, u)) ∧
    (∃ (m : Nat) (tid : Nat) (s : State) (u : State) (p : Packet), m < 64 ∧ takePacket (atMotif 2 m tid) s = some (p, u) ∧ ((u.motif m).part
      tid).ended ≤ p.exec ∧ ((u.motif m).part tid).opener = false) ∧
    (∃ (m : Nat) (tid : Nat) (s : State) (w : State) (u : State) (p : Packet) (x : Txn), 64 ≤ m ∧ takePacket (atSelvedge 2 tid) s = some (p, w) ∧ u =
      deadlineGone tid w ∧ u.txn? tid = some x ∧ x.exec ≤ p.exec) ∧
    (∃ (tid : Nat) (s : State) (w : State) (u : State) (p : Packet) (x : Txn), takePacket (atSelvedge 3 tid) s = some (p, w) ∧ u = deadlineAt tid w ∧
      u.txn? tid = some x ∧ x.state = .aborted ∧ x.noReplay = false) ∧
    (∃ (tid : Nat) (s : State) (w : State) (u : State) (p : Packet) (x : Txn), takePacket (atSelvedge 4 tid) s = some (p, w) ∧ u = deadlineGone tid w
      ∧ u.txn? tid = some x ∧ x.state = .aborted) := by
  refine ⟨?_, ?_, ?_, ?_, ?_, ?_, ?_, ?_, ?_, ?_, ?_⟩
  · refine ⟨0, (List.range 16).map (· + 4080), mot
      { (({ } : Motif).setSlot 0 0 { ctx := BitVec.ofNat 128 (2 ^ 127 + 2 ^ 76) }) with pool := [1,2,3,4,5,6,7,8] }, ?_, ?_, ?_⟩
    all_goals decide +kernel
  · refine ⟨5, (inbox [{ typ := 1, edge := true, dx := 3, dy := 0, endpoint := 48, aux := 0, tid := 5 }]).setTxn 5 { release := 1000#32 }, _, _, _,
      _, pair_eta ?_, rfl, some_eta ?_, ?_⟩
    all_goals decide +kernel
  · refine ⟨0, 5, mot { closes := [{ tid := 5 }] }, _, _, _, rfl, pair_eta ?_, ?_⟩
    all_goals decide +kernel
  · refine ⟨0, 5, (mot { closes := [{ tid := 5, formed := true }] }).setTxn 5 { }, _, _, _, pair_eta ?_, ?_, some_eta ?_⟩
    all_goals decide +kernel
  · refine ⟨5, (inbox [{ typ := 1, edge := true, dx := 3, dy := 0, endpoint := 48, aux := 1, tid := 5 }]).setTxn 5
      { state := .executing, release := 1000#32 }, _, _, _, _, pair_eta ?_, rfl, some_eta ?_, ?_, ?_, ?_⟩
    all_goals decide +kernel
  · refine ⟨5, at_ 100 ((inbox [{ typ := 1, edge := true, dx := 3, dy := 0, endpoint := 48, aux := 1, tid := 5 }]).setTxn 5
      { state := .aborted, release := 50#32 }), _, _, _, _, pair_eta ?_, rfl, some_eta ?_, ?_⟩
    all_goals decide +kernel
  · refine ⟨63, 5, inbox [{ typ := 1, aux := 5, tid := 5, dx := 7, dy := 7 }], _, _, pair_eta ?_⟩
    all_goals decide +kernel
  · refine ⟨63, 5, inbox [{ typ := 1, aux := 2, tid := 5, dx := 7, dy := 7 }], _, _, ?_, pair_eta ?_, ?_, ?_⟩
    all_goals decide +kernel
  · refine ⟨64, 5, (inbox [{ typ := 1, edge := true, dx := 3, dy := 0, endpoint := 48, aux := 2, tid := 5 }]).setTxn 5 { state := .executing }, _, _,
      _, _, ?_, pair_eta ?_, rfl, some_eta ?_, ?_⟩
    all_goals decide +kernel
  · refine ⟨5, (inbox [{ typ := 1, edge := true, dx := 3, dy := 0, endpoint := 48, aux := 3, tid := 5 }]).setTxn 5
      { state := .aborted, release := 1000#32 }, _, _, _, _, pair_eta ?_, rfl, some_eta ?_, ?_, ?_⟩
    all_goals decide +kernel
  · refine ⟨5, (inbox [{ typ := 1, edge := true, dx := 3, dy := 0, endpoint := 48, aux := 4, tid := 5 }]).setTxn 5 { state := .aborted }, _, _, _, _,
      pair_eta ?_, rfl, some_eta ?_, ?_⟩
    all_goals decide +kernel

/-- Each clause of TransactionTimes. -/
theorem test_transaction_times_hyps :
    (∃ (s : State) (path : Nat) (c : Nat), c < 64 ∧ Accepts s path (0x3400 + c) 2 1 1 ∧ (mailArrives s).classState c = 1) ∧
    (∃ (tid : Nat) (s : State), s.selvedge.recheck.contains tid = true) ∧
    (∃ (m : Nat) (s : State) (e : SbEntry) (es : List SbEntry), takeFirst (fun (e : SbEntry) => e.committed && spOn s m (spBank e.addr)) (s.motif
      m).sb = some (e, es)) ∧
    (∃ (m : Nat) (s : State) (e : SbEntry) (es : List SbEntry), takeFirst (fun (e : SbEntry) => e.committed && spOn s m (spBank e.addr)) (s.motif
      m).sb = some (e, es)) ∧
    (∃ (s : State) (e : Entry) (es : List Entry), s.selvedge.inject = e :: es) ∧
    (∃ (port : Nat) (s : State) (w : State) (u : State) (p : Packet) (x : Txn), takePacket (atPort port) s = some (p, w) ∧ u = deadlineGone p.tid w ∧
      p.tid ≠ 0 ∧ u.txn? p.tid = some x ∧ x.exec ≤ p.exec ∧ x.live = true ∧ pastDeadline s.now x = false ∧ bit (s.cls x.planeB x.cls).ports port =
      true ∧ portFormat s port (p.data.take p.words) = true ∧ (u.queue port).length < 256) ∧
    (∃ (tid : Nat) (s : State) (x : Txn), s.txn? tid = some x ∧ x.state = .released ∧ x.releasedAt + 16384 ≤ s.t) := by
  refine ⟨?_, ?_, ?_, ?_, ?_, ?_, ?_⟩
  · refine ⟨od [(0x343F, 1, 1)], 2, 63, ?_, ?_, ?_⟩
    all_goals first | decide +kernel | (constructor <;> decide +kernel)
  · refine ⟨5, { od [] with selvedge := { recheck := [5] } }, ?_⟩
    all_goals decide +kernel
  · refine ⟨0, mot { sb := [{ committed := true }] }, _, _, pair_eta ?_⟩
    all_goals decide +kernel
  · refine ⟨0, mot { sb := [{ committed := true }] }, _, _, pair_eta ?_⟩
    all_goals decide +kernel
  · refine ⟨{ od [] with selvedge := { inject := [{ }] } }, _, _, cons_eta ?_⟩
    all_goals decide +kernel
  · refine ⟨23, ((inbox [{ typ := 0, edge := true, dx := 3, endpoint := 23, tid := 5, words := 1, data := [1#32] }]).setTxn 5
      { state := .executing, release := 1000#32 }).setCls false 0 { ports := 2^23 }, _, _, _, _, pair_eta ?_, rfl, ?_, some_eta ?_, ?_, ?_, ?_, ?_,
      ?_, ?_⟩
    all_goals decide +kernel
  · refine ⟨5, at_ 16384 (up.setTxn 5 { state := .released }), _, some_eta ?_, ?_, ?_⟩
    all_goals decide +kernel

/-- Each clause of FaultMasking. -/
theorem test_fault_masking_hyps :
    (∃ (m : Nat) (s : State) (d : Mism) (ds : List Mism), (s.motif m).mism = d :: ds ∧ d.tid = 0) ∧
    (∃ (m : Nat) (s : State) (d : Mism) (ds : List Mism), (s.motif m).mism = d :: ds ∧ d.tid ≠ 0) ∧
    (∃ (m : Nat) (t : Nat) (s : State) (ts : List Nat) (x : Motif), x = s.motif m ∧ x.replays = t :: ts ∧ (x.out 18).any (fun o => o.tok.replay) =
      false ∧ x.streaming = [] ∧ remapWanted s m t = false ∧ (x.part t).ended ≤ (x.part t).exec) ∧
    (∃ (m : Nat) (t : Nat) (sp : Nat) (p : Nat) (s : State) (x : Motif), x = s.motif m ∧ freeSpare s m = some sp ∧ nextRemap s m = some (t, p)) ∧
    (∃ (m : Nat) (s : State) (a : State) (b : State) (c : State) (r : Remap) (rs : List Remap), (s.motif m).remaps = r :: rs ∧ a = setPhys m r.pos
      r.spare (s.setMotif m (fillSpare r.pos { s.motif m with remaps := rs, suspectTid := (s.motif m).suspectTid.filter (fun e => e.2 != r.pos) })) ∧
      b = (a.setObj (0x3200 + m) 0x22 (satAdd 8 (a.obj (0x3200 + m) 0x22) 1)).setObj (0x3200 + m) 0x23 (a.obj (0x3200 + m) 0x23 - 1) ∧ c = (b.setObj
      0x3700 5 (satAdd 16 (b.obj 0x3700 5) 1)).setObj 0x3700 6 (b.obj 0x3700 6 - 1)) ∧
    (∃ (s : State) (path : Nat) (v : Nat), Accepts s path 0x3700 0x0B 1 v) ∧
    (∃ (w : ScrubWord), w.hoop = false) ∧
    (∃ (x : Nat) (y : Nat) (port : Nat) (d : Nat) (k : Nat) (run : Nat) (again : Bool) (s : State), x < 8 ∧ y < 8 ∧ port < 7 ∧ port ≠ 0 ∧ d = linkKey
      x y port ∧ k = linkOf x y port ∧ run = (if again then mget 0 s.net.retries d + 1 else 1) ∧ run < 4 ∧ mget 0 s.net.epochErrs k < 15) := by
  refine ⟨?_, ?_, ?_, ?_, ?_, ?_, ?_, ?_⟩
  · refine ⟨0, mot { mism := [{ }] }, _, _, cons_eta ?_, ?_⟩
    all_goals decide +kernel
  · refine ⟨0, mot { mism := [{ tid := 5 }] }, _, _, cons_eta ?_, ?_⟩
    all_goals decide +kernel
  · refine ⟨0, _, mot { replays := [5] }, _, _, rfl, cons_eta ?_, ?_, ?_, ?_, ?_⟩
    all_goals decide +kernel
  · refine ⟨0, _, _, _, mot { replays := [5], suspectTid := [(5, 3)] } (od [(0x3200, 0x23, 1)]), _, rfl, some_eta ?_, pair_eta ?_⟩
    all_goals decide +kernel
  · refine ⟨0, mot { remaps := [{ pos := 3, spare := 16 }] }, _, _, _, _, _, cons_eta ?_, rfl, rfl, rfl⟩
    all_goals decide +kernel
  · refine ⟨up, 2, 0, ?_⟩
    all_goals first | decide +kernel | (constructor <;> decide +kernel)
  · refine ⟨{ }, ?_⟩
    all_goals decide +kernel
  · refine ⟨7, 7, 5, _, _, _, false, up, ?_, ?_, ?_, ?_, rfl, rfl, rfl, ?_, ?_⟩
    all_goals decide +kernel

/-- Each clause of NetworkTransport. -/
theorem test_network_transport_hyps :
    (∃ (k : Nat) (s : State) (p : Packet) (ps : List Packet), (s.source k).queue = p :: ps ∧ (s.source k).refill = none ∧ edgeCut s k = false ∧
      injectHeld s k p = false ∧ (p.typ = 1 ∨ (8 ≤ p.typ ∧ p.typ ≤ 10))) ∧
    (∃ (k : Nat) (st : Nat) (e : Nat) (s : State) (p : Packet) (ps : List Packet), (s.source k).queue = p :: ps ∧ (s.source k).refill = none ∧
      edgeCut s k = false ∧ injectHeld s k p = false ∧ p.typ = 0 ∧ p.stream = some st ∧ (s.source k).frame.filter (fun h => h.1 == st) = none ∧
      cached s k st = some e) ∧
    (∃ (k : Nat) (st : Nat) (s : State) (p : Packet) (ps : List Packet), (s.source k).queue = p :: ps ∧ (s.source k).refill = none ∧ edgeCut s k =
      false ∧ injectHeld s k p = false ∧ p.typ = 0 ∧ p.stream = some st ∧ (s.source k).frame.filter (fun h => h.1 == st) = none ∧ cached s k st =
      none) ∧
    (∃ (k : Nat) (st : Nat) (s : State), (s.source k).refill = some st) ∧
    (∃ (x : Nat) (y : Nat) (port : Nat) (s : State) (u : State) (p : Packet), grantee s x y port = some p ∧ u = dropFlying p s) ∧
    (∃ (k : Nat) (s : State) (p : Packet), s.net.flying[k]? = some p ∧ p.urgency < 14) ∧
    (∃ (k : Nat) (s : State) (p : Packet), s.net.flying[k]? = some p ∧ p.urgency = 14) ∧
    (∃ (x : Nat) (y : Nat) (s : State) (p : Packet), s.net.flying.find? (fun p => p.rx == x && p.ry == y && p.inPort == 8 && !deliveryHeld s x y p) =
      some p ∧ forMotif p = true ∧ p.endpoint ≤ 16 ∧ (s.motif (8 * y + x)).offline = false) ∧
    (∃ (x : Nat) (y : Nat) (s : State) (p : Packet), s.net.flying.find? (fun p => p.rx == x && p.ry == y && p.inPort == 8 && !deliveryHeld s x y p) =
      some p ∧ toLocal p = true ∧ (s.motif (8 * y + x)).offline = true ∧ p.isRequest = true) ∧
    (∃ (x : Nat) (y : Nat) (edge : Bool) (s : State) (p : Packet), s.net.flying.find? (fun p => p.rx == x && p.ry == y && p.inPort == 8 + b2n edge &&
      !deliveryHeld s x y p) = some p ∧ (s.motif (8 * y + x)).offline = false ∧ accepts x y edge p = false ∧ p.isRequest = false) ∧
    (∃ (s : State) (u : State) (p : Packet), s.net.flying.find? (fun p => p.rx == 4 && p.ry == 0 && p.inPort == 9 && !deliveryHeld s 4 0 p) = some p
      ∧ p.edge = true ∧ accepts 4 0 true p = true ∧ p.typ = 0 ∧ u = noteReceived (initiatorOf 4 0 true) p (dropFlying p s)) := by
  refine ⟨?_, ?_, ?_, ?_, ?_, ?_, ?_, ?_, ?_, ?_, ?_⟩
  · refine ⟨0, up.setSource 0 { queue := [{ typ := 10 }] }, _, _, cons_eta ?_, ?_, ?_, ?_, ?_⟩
    all_goals decide +kernel
  · refine ⟨0, _, _, up.setSource 0 { queue := [{ stream := some 9 }] , cache := [(9, 3)]}, _, _, cons_eta ?_, ?_, ?_, ?_, ?_, some_eta ?_, ?_,
      some_eta ?_⟩
    all_goals decide +kernel
  · refine ⟨0, _, up.setSource 0 { queue := [{ stream := some 9 }] }, _, _, cons_eta ?_, ?_, ?_, ?_, ?_, some_eta ?_, ?_, ?_⟩
    all_goals decide +kernel
  · refine ⟨0, _, up.setSource 0 { refill := some 9 }, some_eta ?_⟩
    all_goals decide +kernel
  · refine ⟨0, 0, 0, flying [{ typ := 2, dx := 0 }], _, _, some_eta ?_, rfl⟩
    all_goals decide +kernel
  · refine ⟨0, flying [{ urgency := 13, inPort := 5 }], _, some_eta ?_, ?_⟩
    all_goals decide +kernel
  · refine ⟨0, flying [{ urgency := 14, inPort := 5 }], _, some_eta ?_, ?_⟩
    all_goals decide +kernel
  · refine ⟨0, 0, flying [{ inPort := 8, typ := 0, endpoint := 16 }], _, some_eta ?_, ?_, ?_, ?_⟩
    all_goals decide +kernel
  · refine ⟨0, 0, mot { offline := true } (flying [{ inPort := 8, typ := 2, endpoint := 17 }]), _, some_eta ?_, ?_, ?_, ?_⟩
    all_goals decide +kernel
  · refine ⟨0, 0, false, flying [{ inPort := 8, typ := 0, endpoint := 40 }], _, some_eta ?_, ?_, ?_, ?_⟩
    all_goals decide +kernel
  · refine ⟨flying [{ rx := 4, inPort := 9, edge := true }], _, _, some_eta ?_, ?_, ?_, rfl, rfl⟩
    all_goals decide +kernel

/-- Each clause of NetworkMemory. -/
theorem test_network_memory_hyps :
    (∃ (q : Nat) (s : State) (p : Packet) (ps : List Packet), q < 64 ∧ mget [] s.net.crossing q = p :: ps) ∧
    (∃ (x : Nat) (y : Nat) (ecc : Nat) (h : Nat) (o : Nat) (edge : Bool) (s : State) (u : State) (v : State) (p : Packet), takeRequest x y edge 2 s =
      some (p, u) ∧ regionOf s p.addr = .hoop h o ∧ hoopOn s h (hoopBank o) = true ∧ hoopChecks h (wordsOf o (4 * p.count)) ecc (hoopWaits h o u) =
      (true, v)) ∧
    (∃ (x : Nat) (y : Nat) (edge : Bool) (s : State) (u : State) (p : Packet), takeRequest x y edge 2 s = some (p, u) ∧ regionOf s p.addr =
      .unmapped) ∧
    (∃ (x : Nat) (y : Nat) (h : Nat) (o : Nat) (edge : Bool) (s : State) (u : State) (v : State) (p : Packet) (ws : List Word) (z : Hoop),
      takeRequest x y edge 3 s = some (p, u) ∧ regionOf s p.addr = .hoop h o ∧ hoopOn s h (hoopBank o) = true ∧ ws = p.data.take p.count ∧ v =
      hoopWaits h o u ∧ z = v.hoop h) ∧
    (∃ (h : Nat) (q : Nat) (x : Nat) (y : Nat) (a : Nat) (s : State) (u : State) (p : Packet) (ps : List Packet) (z : StreamQ), sliceRouter h 0 = (x,
      y) ∧ takeFirst (fun (p : Packet) => p.typ == 0 && !p.edge && p.dx == x && p.dy == y && p.endpoint == 48 + q) s.net.inbox = some (p, ps) ∧ z =
      s.squeue h q ∧ p.tid = 0 ∧ p.words ≠ 0 ∧ z.count < z.slots ∧ a = slotAt z z.count ∧ slotStatus s a = 0 ∧ slotWaits s a = false ∧ u = slotBytes
      true a (storeWords a (slotWords (packetToken p)) { s with net := { s.net with inbox := ps } })) ∧
    (∃ (x : Nat) (y : Nat) (ecc : Nat) (h : Nat) (a : Nat) (edge : Bool) (s : State) (u : State) (v : State) (p : Packet) (z : StreamQ), takePacket
      (waitingAt x y edge 4) s = some (p, u) ∧ sliceZero x y = some h ∧ z = u.squeue h (p.endpoint - 48) ∧ a = slotAt z 0 ∧ z.count ≠ 0 ∧ slotStatus
      s a = 0 ∧ slotWaits s a = false ∧ slotCheck a ecc u = (true, v)) ∧
    (∃ (x : Nat) (y : Nat) (h : Nat) (edge : Bool) (s : State) (u : State) (p : Packet), takePacket (waitingAt x y edge 4) s = some (p, u) ∧
      sliceZero x y = some h ∧ (u.squeue h (p.endpoint - 48)).count = 0) ∧
    (∃ (ecc : Nat) (pick : Nat) (o : Nat) (s : State) (v : State) (p : Packet), bit s.power.on 11 = true ∧ dramNext s pick = some p ∧ p.typ = 2 ∧
      regionOf s p.addr = .dram o ∧ dramCheck o p.count ecc { s with dram := { s.dram with rows := s.dram.rows.erase p } } = (true, v)) ∧
    (∃ (pick : Nat) (o : Nat) (s : State) (p : Packet), bit s.power.on 11 = true ∧ dramNext s pick = some p ∧ p.typ = 3 ∧ regionOf s p.addr = .dram
      o) := by
  refine ⟨?_, ?_, ?_, ?_, ?_, ?_, ?_, ?_, ?_⟩
  · refine ⟨63, { od [] with net := { crossing := [(63, [{ }])] } }, _, _, ?_, cons_eta ?_⟩
    all_goals decide +kernel
  · refine ⟨1, 1, 0, 0, 0, false, inbox [{ typ := 2, dx := 1, dy := 1, endpoint := 32 }], _, _, _, pair_eta ?_, ?_, ?_, true_eta ?_⟩
    all_goals decide +kernel
  · refine ⟨1, 1, false, inbox [{ typ := 2, dx := 1, dy := 1, tstamp := 0x003FC000#32 }], _, _, pair_eta ?_, ?_⟩
    all_goals decide +kernel
  · refine ⟨1, 1, 0, 0, false, inbox [{ typ := 3, dx := 1, dy := 1 }], _, _, _, _, _, pair_eta ?_, ?_, ?_, rfl, rfl, rfl⟩
    all_goals decide +kernel
  · refine ⟨0, 15, _, _, _, (inbox [{ endpoint := 63, dx := 1, dy := 1, words := 1, data := [1#32] }]).setSqueue 0 15 { slots := 1 }, _, _, _, _,
      rfl, pair_eta ?_, rfl, ?_, ?_, ?_, rfl, ?_, ?_, rfl⟩
    all_goals decide +kernel
  · refine ⟨1, 1, 0, _, _, false, (inbox [{ typ := 4, endpoint := 63, dx := 1, dy := 1 }]).setSqueue 0 15 { slots := 1, count := 1 }, _, _, _, _,
      pair_eta ?_, some_eta ?_, rfl, rfl, ?_, ?_, ?_, true_eta ?_⟩
    all_goals decide +kernel
  · refine ⟨1, 1, _, false, inbox [{ typ := 4, endpoint := 63, dx := 1, dy := 1 }], _, _, pair_eta ?_, some_eta ?_, ?_⟩
    all_goals decide +kernel
  · refine ⟨0, 0, 0, dramReq { typ := 2, tstamp := 0x80000000#32 }, _, _, ?_, some_eta ?_, ?_, ?_, true_eta ?_⟩
    all_goals decide +kernel
  · refine ⟨0, 0, dramReq { typ := 3, tstamp := 0x80000000#32 }, _, ?_, some_eta ?_, ?_, ?_⟩
    all_goals decide +kernel

/-- Each clause of RoutingCommands. -/
theorem test_routing_commands_hyps :
    (∃ (s : State) (path : Nat) (v : Nat), Accepts s path 0x3800 2 8 v ∧ s.obj 0x3800 3 = 0 ∧ entryOk v = true) ∧
    (∃ (s : State) (path : Nat) (v : Nat), Accepts s path 0x3800 2 8 v ∧ s.obj 0x3800 3 ≠ 0 ∧ entryOk v = true) ∧
    (∃ (s : State) (st : Nat) (path : Nat) (rest : List (Nat × Nat)), s.net.invalidating = (st, path) :: rest ∧ path < 8) ∧
    (∃ (s : State), s.net.invalidating = []) ∧
    (∃ (s : State) (path : Nat), Accepts s path 0x3800 4 1 1) ∧
    (∃ (s : State) (path : Nat) (h : Nat) (v : Nat) (old : Nat), h < 4 ∧ Accepts s path (0x3100 + h) 0x20 8 v ∧ hoopIdle (mailArrives s) h = true ∧
      old = s.obj (0x3100 + h) 0x20 ∧ (List.range 32).any (fun b => field v (2 * b + 1) (2 * b) == 3 || (b % 8 == 7 && field v (2 * b + 1) (2 * b) !=
      field old (2 * b + 1) (2 * b))) = false) ∧
    (∃ (h : Nat) (bank : Nat) (s : State) (t : BankTr) (ts : List BankTr), takeFirst (fun (t : BankTr) => t.bank == bank && decide (t.due ≤
      s.time.clk)) (s.hoop h).bankTr = some (t, ts) ∧ t.target = 2) ∧
    (∃ (h : Nat) (bank : Nat) (s : State) (t : BankTr) (ts : List BankTr), takeFirst (fun (t : BankTr) => t.bank == bank && decide (t.due ≤
      s.time.clk)) (s.hoop h).bankTr = some (t, ts) ∧ t.target ≠ 2) := by
  refine ⟨?_, ?_, ?_, ?_, ?_, ?_, ?_, ?_⟩
  · refine ⟨od [(0x3800, 3, 0)], 2, 2^15, ?_, ?_, ?_⟩
    all_goals first | decide +kernel | (constructor <;> decide +kernel)
  · refine ⟨up, 2, 2^15, ?_, ?_, ?_⟩
    all_goals first | decide +kernel | (constructor <;> decide +kernel)
  · refine ⟨{ od [] with net := { invalidating := [(5, 2)] } }, 5, 2, [], rfl, ?_⟩
    all_goals decide +kernel
  · refine ⟨up, ?_⟩
    all_goals decide +kernel
  · refine ⟨at_ 5 (up.setHoop 3 { bankTr := [{ bank := 7, target := 2, due := 5 }] }), 2, ?_⟩
    all_goals first | decide +kernel | (constructor <;> decide +kernel)
  · refine ⟨at_ 5 (up.setHoop 3 { bankTr := [{ bank := 7, target := 1, due := 5 }] }), 2, 3, 0, _, ?_, ?_, ?_, rfl, ?_⟩
    all_goals first | decide +kernel | (constructor <;> decide +kernel)
  · refine ⟨3, 7, at_ 5 (up.setHoop 3 { bankTr := [{ bank := 7, target := 2, due := 5 }] }), _, _, pair_eta ?_, ?_⟩
    all_goals decide +kernel
  · refine ⟨3, 7, at_ 5 (up.setHoop 3 { bankTr := [{ bank := 7, target := 1, due := 5 }] }), _, _, pair_eta ?_, ?_⟩
    all_goals decide +kernel

/-- Each clause of ChangeoverCommands. -/
theorem test_changeover_commands_hyps :
    (∃ (s : State) (img : List Byte), s.load.region = some img ∧ (regionClasses s (headerOf img).motifs).all (fun c => s.obj (0x3400 + c) 0x14 == 0)
      = true) ∧
    (∃ (s : State) (a : State) (b : State) (img : List Byte), s.load.locking = some img ∧ a = (headerOf img).motifList.foldl (fun st m => startCore m
      (st.setMotif m { st.motif m with offline := false })) s ∧ b = (classRecs (scanImage img).secs).foldl (fun st e => classOn e.1 st) a) ∧
    (∃ (s : State) (path : Nat), Accepts s path 0x3600 9 1 1 ∧ s.obj 0x3600 1 = 0 ∧ s.obj 0x5800 1 ≠ 5 ∧ s.obj 0x3600 4 ≠ 1 ∧ (coState 1
      ((mailArrives s).setObj 0x3600 0x0A 0)).obj 0x3600 4 ≠ 1) ∧
    (∃ (s : State) (path : Nat), Accepts s path 0x3600 9 1 2 ∧ (s.obj 0x3600 1 = 6 ∨ s.obj 0x3600 1 = 7)) ∧
    (∃ (s : State) (path : Nat) (v : Nat), Accepts s path 0x3600 2 2 v ∧ (s.obj 0x3600 1 < 3 ∨ 6 < s.obj 0x3600 1)) ∧
    (∃ (s : State) (path : Nat) (v : Nat), Accepts s path 0x3600 3 8 v ∧ (s.obj 0x3600 1 < 3 ∨ 6 < s.obj 0x3600 1) ∧ s.t + 2000000 ≤ v) ∧
    (∃ (s : State), s.obj 0x3600 1 = 2 ∧ s.obj 0x3600 2 ≠ 0 ∧ s.t + 2000000 ≤ s.obj 0x3600 3 ∧ s.obj 0x2100 2 = 2) ∧
    (∃ (s : State) (path : Nat) (v : Nat), Accepts s path 0x3600 7 2 v ∧ s.obj 0x3600 1 = 3 ∧ v = s.obj 0x3600 2 ∧ s.t + 1000000 ≤ s.obj 0x3600 3 ∧
      commitCounts s path = true) ∧
    (∃ (s : State) (path : Nat) (v : Nat), Accepts s path 0x3600 8 2 v ∧ s.obj 0x3600 1 = 4 ∧ v = s.obj 0x3600 2 ∧ s.t + 100000 ≤ s.obj 0x3600 3) ∧
    (∃ (s : State), s.obj 0x3600 1 = 3 ∧ s.obj 0x3600 3 < s.t + 1000000) := by
  refine ⟨?_, ?_, ?_, ?_, ?_, ?_, ?_, ?_, ?_, ?_⟩
  · refine ⟨up.setLoad { region := some [] }, _, some_eta ?_, ?_⟩
    all_goals decide +kernel
  · refine ⟨up.setLoad { locking := some [] }, _, _, _, some_eta ?_, rfl, rfl⟩
    all_goals decide +kernel
  · refine ⟨od [(0x3600, 4, 0)], 2, ?_, ?_, ?_, ?_, ?_⟩
    all_goals first | decide +kernel | (constructor <;> decide +kernel)
  · refine ⟨od [(0x3600, 1, 6)], 2, ?_, ?_⟩
    all_goals first | decide +kernel | (constructor <;> decide +kernel)
  · refine ⟨up, 2, 0, ?_, ?_⟩
    all_goals first | decide +kernel | (constructor <;> decide +kernel)
  · refine ⟨up, 2, 2000000, ?_, ?_, ?_⟩
    all_goals first | decide +kernel | (constructor <;> decide +kernel)
  · refine ⟨od [(0x3600, 1, 2), (0x3600, 2, 7), (0x3600, 3, 2000000), (0x2100, 2, 2)], ?_, ?_, ?_, ?_⟩
    all_goals decide +kernel
  · refine ⟨od [(0x3600, 1, 3), (0x3600, 3, 1000000), (0x3600, 6, 1)], 2, _, ?_, ?_, rfl, ?_, ?_⟩
    all_goals first | decide +kernel | (constructor <;> decide +kernel)
  · refine ⟨od [(0x3600, 1, 4), (0x3600, 3, 100000)], 2, 0, ?_, ?_, ?_, ?_⟩
    all_goals first | decide +kernel | (constructor <;> decide +kernel)
  · refine ⟨od [(0x3600, 1, 3)], ?_, ?_⟩
    all_goals decide +kernel

/-- Each clause of ChangeoverInstants. -/
theorem test_changeover_instants_hyps :
    (∃ (s : State) (a : State) (u : State), s.obj 0x3600 1 = 4 ∧ s.obj 0x3600 3 ≤ s.t ∧ s.activeB = false ∧ a = (((s.setObj 0x3600 0x0B 1).setObj
      0x3600 0x0D (s.obj 0x3600 3 + s.obj 0x3600 0x0C)).setObj 0x3600 0x10 (s.obj 0x3600 0x11)).setObj 0x3600 0x11 (s.obj 0x3600 0x10) ∧ u =
      (List.range 64).foldl (fun st m => if hasProgram (st.core m) true then startShuttleHalf m true (wakeShuttle m st) else st)
      { a with timersB := armTimers (s.obj 0x3600 3) a.timersB }) ∧
    (∃ (s : State) (a : State) (u : State), s.obj 0x3600 1 = 4 ∧ s.obj 0x3600 3 ≤ s.t ∧ s.activeB = true ∧ a = (((s.setObj 0x3600 0x0B 0).setObj
      0x3600 0x0D (s.obj 0x3600 3 + s.obj 0x3600 0x0C)).setObj 0x3600 0x10 (s.obj 0x3600 0x11)).setObj 0x3600 0x11 (s.obj 0x3600 0x10) ∧ u =
      (List.range 64).foldl (fun st m => if hasProgram (st.core m) false then startShuttleHalf m false (wakeShuttle m st) else st)
      { a with timersA := armTimers (s.obj 0x3600 3) a.timersA }) ∧
    (∃ (s : State) (a : State) (b : State), s.obj 0x3600 1 = 5 ∧ s.obj 0x3600 0x0D ≤ s.t ∧ a = (List.range 4).foldl (fun st h => retireSupervisor (64
      + h) (!s.activeB) st) (clearClasses (!s.activeB) (retireRoutes (!s.activeB) s)) ∧ b = (List.range 64).foldl (fun st m => retireHalf m
      (!s.activeB) st) a) := by
  refine ⟨?_, ?_, ?_⟩
  · refine ⟨od [(0x3600, 1, 4)], _, _, ?_, ?_, ?_, rfl, rfl⟩
    all_goals decide +kernel
  · refine ⟨od [(0x3600, 1, 4), (0x3600, 0x0B, 1)], _, _, ?_, ?_, ?_, rfl, rfl⟩
    all_goals decide +kernel
  · refine ⟨od [(0x3600, 1, 5)], _, _, ?_, ?_, rfl, rfl⟩
    all_goals decide +kernel

/-- Each clause of DictionaryTransfers. -/
theorem test_dictionary_transfers_hyps :
    (∃ (path : Nat) (ix : Nat) (sub : Nat) (ecc : Nat) (s : State) (q : SdoReq), q = { path := path, kind := 0, ix := ix, sub := sub, ecc := ecc } ∧
      Serves s q ∧ coreMay s false path ix sub 0 = true ∧ (ix < 0x5C00 ∨ 0x6000 ≤ ix)) ∧
    (∃ (path : Nat) (ix : Nat) (sub : Nat) (ecc : Nat) (s : State) (q : SdoReq) (r : ObjRow), q =
      { path := path, kind := 0, ix := ix, sub := sub, ecc := ecc } ∧ Serves s q ∧ coreMay s false path ix sub 0 = true ∧ (ix < 0x5000 ∨ 0x6000 ≤ ix)
      ∧ rowOf ix sub = some r ∧ r.acc ≠ .wo ∧ r.size ≠ 0 ∧ openValue ix sub = false ∧ ecc = 0) ∧
    (∃ (path : Nat) (ix : Nat) (sub : Nat) (ecc : Nat) (s : State) (q : SdoReq) (r : ObjRow), q =
      { path := path, kind := 0, ix := ix, sub := sub, ecc := ecc } ∧ Serves s q ∧ coreMay s false path ix sub 0 = true ∧ (ix < 0x5000 ∨ 0x6000 ≤ ix)
      ∧ rowOf ix sub = some r ∧ r.acc ≠ .wo ∧ r.size ≠ 0 ∧ openValue ix sub = false ∧ ecc = 2) ∧
    (∃ (path : Nat) (ix : Nat) (sub : Nat) (ecc : Nat) (s : State) (q : SdoReq), q = { path := path, kind := 0, ix := ix, sub := sub, ecc := ecc } ∧
      Serves s q ∧ coreMay s false path ix sub 0 = true ∧ (ix < 0x5C00 ∨ 0x6000 ≤ ix) ∧ hasObject ix = false ∧ rowOf ix sub = none) ∧
    (∃ (path : Nat) (ix : Nat) (sub : Nat) (ecc : Nat) (s : State) (q : SdoReq), q = { path := path, kind := 0, ix := ix, sub := sub, ecc := ecc } ∧
      Serves s q ∧ coreMay s false path ix sub 0 = true ∧ (ix < 0x5C00 ∨ 0x6000 ≤ ix) ∧ hasObject ix = true ∧ rowOf ix sub = none) ∧
    (∃ (path : Nat) (ix : Nat) (sub : Nat) (size : Nat) (bs : FrameData) (s : State) (q : SdoReq), q =
      { path := path, kind := 1, ix := ix, sub := sub, data := bs.map (BitVec.ofNat 8) } ∧ Serves s q ∧ coreMay s true path ix sub (leNat (bs.map
      (BitVec.ofNat 8))) = true ∧ size = bs.length ∧ (ix < 0x5C00 ∨ 0x6000 ≤ ix)) ∧
    (∃ (path : Nat) (ix : Nat) (sub : Nat) (size : Nat) (bs : FrameData) (s : State) (q : SdoReq) (r : ObjRow), q =
      { path := path, kind := 1, ix := ix, sub := sub, data := bs.map (BitVec.ofNat 8) } ∧ Serves s q ∧ coreMay s true path ix sub (leNat (bs.map
      (BitVec.ofNat 8))) = true ∧ size = bs.length ∧ bs.length ≤ 4096 ∧ (ix < 0x5C00 ∨ 0x6000 ≤ ix) ∧ rowOf ix sub = some r ∧ r.acc = .ro) ∧
    (∃ (path : Nat) (ix : Nat) (ecc : Nat) (from1 : Bool) (s : State) (q : SdoReq), q =
      { path := path, kind := 2, ix := ix, sub := b2n from1, ecc := ecc } ∧ Serves s q ∧ path ≠ 1 ∧ (ix < 0x5C00 ∨ 0x6000 ≤ ix)) ∧
    (∃ (path : Nat) (ix : Nat) (size : Nat) (from1 : Bool) (bs : FrameData) (s : State) (q : SdoReq), q =
      { path := path, kind := 3, ix := ix, sub := b2n from1, data := bs.map (BitVec.ofNat 8) } ∧ Serves s q ∧ path ≠ 1 ∧ size = bs.length ∧ (ix <
      0x5C00 ∨ 0x6000 ≤ ix)) := by
  refine ⟨?_, ?_, ?_, ?_, ?_, ?_, ?_, ?_, ?_⟩
  · refine ⟨2, 0x5BFF, 0, 0, up, _, rfl, ?_, ?_, ?_⟩
    all_goals first | decide +kernel | (constructor <;> decide +kernel)
  · refine ⟨2, 0x3600, 1, _, up, _, _, rfl, ?_, ?_, ?_, some_eta ?_, ?_, ?_, ?_, rfl⟩
    all_goals first | decide +kernel | (constructor <;> decide +kernel)
  · refine ⟨2, 0x3600, 1, 2, up, _, _, rfl, ?_, ?_, ?_, some_eta ?_, ?_, ?_, ?_, ?_⟩
    all_goals first | decide +kernel | (constructor <;> decide +kernel)
  · refine ⟨2, 0xFFFF, 0, 0, up, _, rfl, ?_, ?_, ?_, ?_, ?_⟩
    all_goals first | decide +kernel | (constructor <;> decide +kernel)
  · refine ⟨2, 0x3600, 0xFF, 0, up, _, rfl, ?_, ?_, ?_, ?_, ?_⟩
    all_goals first | decide +kernel | (constructor <;> decide +kernel)
  · refine ⟨2, 0x3600, 1, _, [5], up, _, rfl, ?_, ?_, rfl, ?_⟩
    all_goals first | decide +kernel | (constructor <;> decide +kernel)
  · refine ⟨2, 0x3600, 0x0A, _, [5], up, _, _, rfl, ?_, ?_, rfl, ?_, ?_, some_eta ?_, ?_⟩
    all_goals first | decide +kernel | (constructor <;> decide +kernel)
  · refine ⟨2, 0, 0, false, up, _, rfl, ?_, ?_, ?_⟩
    all_goals first | decide +kernel | (constructor <;> decide +kernel)
  · refine ⟨2, 0, _, false, [], up, _, rfl, ?_, ?_, rfl, ?_⟩
    all_goals first | decide +kernel | (constructor <;> decide +kernel)

/-- Each clause of SdoProtocol. -/
theorem test_sdo_protocol_hyps :
    (∃ (path : Nat) (last : Bool) (s : State) (q : SdoReq), q = { path := path, kind := 4, ix := (s.path path).ix, sub := b2n last, data := [] } ∧
      Serves s q ∧ ((arrives path s).path path).active = true ∧ ((arrives path s).path path).toggle = false ∧ ((arrives path s).path path).write =
      false ∧ ((s.path path).write && secureIndex (s.path path).ix) = false) ∧
    (∃ (path : Nat) (s : State), (s.path path).active = true ∧ (s.path path).busy = false ∧ (s.path path).lastT + 1000000000 ≤ s.time.clk) ∧
    (∃ (path : Nat) (ix : Nat) (s : State), secureIndex ix = false ∧ Serves s { path := path, kind := 5, ix := 0x1018 }) ∧
    (∃ (path : Nat) (s : State), (s.path path).active = true ∧ (s.path path).busy = false) ∧
    (∃ (typ : Nat) (s : State), Serves s { path := 0, kind := 6, ix := 0x1018, sub := typ } ∧ typ ≤ 5) ∧
    (∃ (ix : Nat) (s : State), Serves s { path := 0, kind := 7, ix := ix } ∧ (ix < 0x5C00 ∨ 0x6000 ≤ ix) ∧ hasObject ix = true) ∧
    (∃ (ix : Nat) (sub : Nat) (s : State) (r : ObjRow), Serves s { path := 0, kind := 8, ix := ix, sub := sub } ∧ (ix < 0x5C00 ∨ 0x6000 ≤ ix) ∧ rowOf
      ix sub = some r) ∧
    (∃ (s : State), coeActive s = true ∧ mpDown s = false ∧ s.ecat.lastMail ≠ .none) ∧
    (∃ (s : State) (e : Emcy) (es : List Emcy), coeActive s = true ∧ mpDown s = false ∧ s.coeEmcy = e :: es) := by
  refine ⟨?_, ?_, ?_, ?_, ?_, ?_, ?_, ?_, ?_⟩
  · refine ⟨2, true, up.setPath 2 { active := true }, _, rfl, ?_, ?_, ?_, ?_, ?_⟩
    all_goals first | decide +kernel | (constructor <;> decide +kernel)
  · refine ⟨2, at_ (10^9) (up.setPath 2 { active := true }), ?_, ?_, ?_⟩
    all_goals decide +kernel
  · refine ⟨2, 0, up, ?_, ?_⟩
    all_goals first | decide +kernel | (constructor <;> decide +kernel)
  · refine ⟨2, up.setPath 2 { active := true }, ?_, ?_⟩
    all_goals decide +kernel
  · refine ⟨5, od [(0x2010, 0x0A, 2)], ?_, ?_⟩
    all_goals first | decide +kernel | (constructor <;> decide +kernel)
  · refine ⟨0x3600, od [(0x2010, 0x0A, 2)], ?_, ?_, ?_⟩
    all_goals first | decide +kernel | (constructor <;> decide +kernel)
  · refine ⟨0x3600, 1, od [(0x2010, 0x0A, 2)], _, ?_, ?_, some_eta ?_⟩
    all_goals first | decide +kernel | (constructor <;> decide +kernel)
  · refine ⟨{ od [(0x2010, 0x0A, 2)] with ecat := { lastMail := .emcy [0#8] } }, ?_, ?_, ?_⟩
    all_goals decide +kernel
  · refine ⟨{ od [(0x2010, 0x0A, 2)] with coeEmcy := [{ }] }, _, _, ?_, ?_, cons_eta ?_⟩
    all_goals decide +kernel

/-- Each clause of StoredParameters. -/
theorem test_stored_parameters_hyps :
    (∃ (s : State) (path : Nat), Accepts s path 0x2011 1 4 0x65766173 ∧ saving s = false ∧ saveTooLate (mailArrives s) = false) ∧
    (∃ (s : State), saving s = true ∧ jobOf s 3 = false) ∧
    (∃ (s : State) (path : Nat), Accepts s path 0x2011 2 4 0x64616F6C ∧ saving s = false) ∧
    (∃ (s : State) (path : Nat), Accepts s path 0x2012 2 4 0x6B636F6C ∧ s.obj 0x2012 1 = 0) ∧
    (∃ (s : State) (path : Nat), Accepts s path 0x2000 7 4 0x64726372) ∧
    (∃ (s : State) (path : Nat), Accepts s path 0x2000 8 4 0x74657372) ∧
    (∃ (s : State) (path : Nat) (v : Nat), Accepts s path 0x2000 8 4 v ∧ v ≠ 0x74657372) ∧
    (∃ (s : State) (a : State) (path : Nat), Accepts s path 0x2000 9 4 0x706F7473 ∧ s.obj 0x2001 0 = 1 ∧ s.obj 0x3600 1 = 0 ∧ fwState s ≠ 5 ∧ fwState
      s ≠ 6 ∧ a = (List.range 64).foldl (fun st c => if st.classState c = 1 then st.setObj (0x3400 + c) 1 2 else st) (mailArrives s)) ∧
    (∃ (s : State), s.start.stopPhase = 1 ∧ classesDrained s = true) ∧
    (∃ (s : State), s.start.stopPhase = 2 ∧ journalDurable s = true) ∧
    (∃ (s : State), s.start.stopPhase = 1 ∧ s.start.stopAt ≤ s.time.clk) := by
  refine ⟨?_, ?_, ?_, ?_, ?_, ?_, ?_, ?_, ?_, ?_, ?_⟩
  · refine ⟨up, 2, ?_, ?_, ?_⟩
    all_goals first | decide +kernel | (constructor <;> decide +kernel)
  · refine ⟨od [(0x2011, 3, 1)], ?_, ?_⟩
    all_goals decide +kernel
  · refine ⟨up, 2, ?_, ?_⟩
    all_goals first | decide +kernel | (constructor <;> decide +kernel)
  · refine ⟨up, 2, ?_, ?_⟩
    all_goals first | decide +kernel | (constructor <;> decide +kernel)
  · refine ⟨up, 2, ?_⟩
    all_goals first | decide +kernel | (constructor <;> decide +kernel)
  · refine ⟨up, 2, ?_⟩
    all_goals first | decide +kernel | (constructor <;> decide +kernel)
  · refine ⟨up, 2, 0, ?_, ?_⟩
    all_goals first | decide +kernel | (constructor <;> decide +kernel)
  · refine ⟨od [(0x2001, 0, 1)], _, 2, ?_, ?_, ?_, ?_, ?_, rfl⟩
    all_goals first | decide +kernel | (constructor <;> decide +kernel)
  · refine ⟨{ od [] with start := { stopPhase := 1 } }, ?_, ?_⟩
    all_goals decide +kernel
  · refine ⟨{ od [] with start := { stopPhase := 2 } }, ?_, ?_⟩
    all_goals decide +kernel
  · refine ⟨{ od [] with start := { stopPhase := 1 } }, ?_, ?_⟩
    all_goals decide +kernel

/-- Each clause of HostFrameEffects. -/
theorem test_host_frame_effects_hyps :
    (∃ (mode : Nat) (s : State), mode < 4 ∧ s.cfg.width = none) ∧
    (∃ (w : Nat) (s : State), s.cfg.width = some w) ∧
    (∃ (f : HostFrame) (s : State), f.kind = 1 ∧ f.len = 8 ∧ le f.body 0 1 ≤ 3 ∧ le f.body 2 2 = 0 ∧ mayBegin s (le f.body 0 1) (le f.body 1 1) 0 =
      true) ∧
    (∃ (f : HostFrame) (s : State), f.kind = 2 ∧ hostReceiving s = true ∧ 4 ≤ f.len ∧ le f.body 0 4 = s.load.buf.length) ∧
    (∃ (f : HostFrame) (s : State), f.kind = 3 ∧ hostReceiving s = true ∧ f.len = 0) ∧
    (∃ (f : HostFrame) (s : State), f.kind = 4 ∧ f.len = 0 ∧ s.load.active = true ∧ s.load.source = 0) ∧
    (∃ (f : HostFrame), f.kind = 0x30 ∧ f.len = 4 ∧ le f.body 0 1 = 0 ∧ le f.body 1 1 = 0) ∧
    (∃ (f : HostFrame), 0x20 ≤ f.kind ∧ f.kind ≤ 0x23 ∧ 8 ≤ f.len ∧ le f.body 0 4 < 4) ∧
    (∃ (data : FrameData) (s : State), le (data.map (BitVec.ofNat 8)) 2 1 = 2 ∧ s.cfg.width = some 0 ∧ cfgReady s = true ∧ hostIntact (data.map
      (BitVec.ofNat 8)) = false) := by
  refine ⟨?_, ?_, ?_, ?_, ?_, ?_, ?_, ?_, ?_⟩
  · refine ⟨0, up, ?_, ?_⟩
    all_goals decide +kernel
  · refine ⟨_, { od [] with cfg := { width := some 2 } }, some_eta ?_⟩
    all_goals decide +kernel
  · refine ⟨{ kind := 1, len := 8, body := [3#8] }, { (od [(0x3600, 1, 0)]) with fabric := true, flash := { mib := 16 } }, ?_, ?_, ?_, ?_, ?_⟩
    all_goals decide +kernel
  · refine ⟨{ kind := 2, len := 4 }, up.setLoad { active := true, source := 0, total := 64 }, ?_, ?_, ?_, ?_⟩
    all_goals decide +kernel
  · refine ⟨{ kind := 3 }, up.setLoad { active := true, source := 0, total := 64 }, ?_, ?_, ?_⟩
    all_goals decide +kernel
  · refine ⟨{ kind := 4 }, up.setLoad { active := true, source := 0, total := 64 }, ?_, ?_, ?_, ?_⟩
    all_goals decide +kernel
  · refine ⟨{ kind := 0x30, len := 4 }, ?_, ?_, ?_, ?_⟩
    all_goals decide +kernel
  · refine ⟨{ kind := 0x23, len := 8, body := [3#8] }, ?_, ?_, ?_, ?_⟩
    all_goals decide +kernel
  · refine ⟨[0xA5, 0xD4, 2], { od [] with cfg := { width := some 0 } }, ?_, ?_, ?_, ?_⟩
    all_goals decide +kernel

/-- Each clause of EtherCatCommands. -/
theorem test_ether_cat_commands_hyps :
    (∃ (s : State), holdEcat s = true ∧ mpFree s = true) ∧
    (∃ (q : AlRequest) (s : State), holdEcat s = true ∧ mpFree s = false ∧ alUpward (ecatState s) q.state = true) ∧
    (∃ (s : State), ecatState s = 8 ∧ s.ecat.watchdog ≠ 0 ∧ s.ecat.outAt + s.ecat.watchdog ≤ s.time.clk) ∧
    (∃ (bs : FrameData) (s : State), ecatState s = 4 ∧ bs.length = mapTotal s 0x1C12) ∧
    (∃ (ago : Nat) (bs : FrameData) (s : State) (u : State), ecatState s = 8 ∧ bs.length = mapTotal s 0x1C12 ∧ u =
      { s with ecat := { s.ecat with outBuf := bs.map (BitVec.ofNat 8), outSeen := true, outAt := s.time.clk, captureDue := s.ecat.captureDue || s.ecat.syncMode == 1, passed := insertNow (s.tAgo ago) (mappedEntries s 0x1C13) s.ecat.inBuf } }) ∧
    (∃ (s : State) (u : State) (bs : List Byte), (ecatState s = 4 ∨ ecatState s = 8) ∧ captureDue s = true ∧ (mappedEntries s 0x1C13).foldl txEntry
      ([], s) = (bs, u)) ∧
    (∃ (port : Nat), port < 2) ∧
    (∃ (port : Nat), port < 2) ∧
    (∃ (s : State), s.fabric = true ∧ s.ecat.syncMode ≠ 2 ∧ s.ecat.sync0 ≠ 0 ∧ (ingressStream s false 40).isSome = true) ∧
    (∃ (n : Nat) (dc : Nat) (s : State), n < 2 ∧ dc < 2 ^ 64 ∧ s.ports.latchPins / 256 ^ n % 256 ≠ 255) ∧
    (∃ (a : Nat) (bs : FrameData), a + bs.length ≤ 4096) := by
  refine ⟨?_, ?_, ?_, ?_, ?_, ?_, ?_, ?_, ?_, ?_, ?_⟩
  · refine ⟨up, ?_, ?_⟩
    all_goals decide +kernel
  · refine ⟨{ state := 2 }, od [(0x3030, 1, 1), (0x2010, 0x0A, 1)], ?_, ?_, ?_⟩
    all_goals decide +kernel
  · refine ⟨at_ (10^9) (od [(0x2010, 0x0A, 8)]), ?_, ?_, ?_⟩
    all_goals decide +kernel
  · refine ⟨[1, 2], od [(0x2010, 0x0A, 4), (0x1C12, 0, 1), (0x1C12, 1, 0x1600), (0x1600, 0, 1), (0x1600, 1, 0x52000110)], ?_, ?_⟩
    all_goals decide +kernel
  · refine ⟨0, [1, 2], od [(0x2010, 0x0A, 8), (0x1C12, 0, 1), (0x1C12, 1, 0x1600), (0x1600, 0, 1), (0x1600, 1, 0x52000110)], _, ?_, ?_, rfl⟩
    all_goals decide +kernel
  · refine ⟨at_ (10^9) (od [(0x2010, 0x0A, 4)]), _, _, ?_, ?_, rfl⟩
    all_goals decide +kernel
  · refine ⟨1, ?_⟩
    all_goals decide +kernel
  · refine ⟨1, ?_⟩
    all_goals decide +kernel
  · refine ⟨{ od [] with fabric := true, ingress := [(40, 2^31)], ecat := { sync0 := 1000 } }, ?_, ?_, ?_, ?_⟩
    all_goals decide +kernel
  · refine ⟨1, 2^64 - 1, { od [] with ports := { latchPins := 0x00FF } }, ?_, ?_, ?_⟩
    all_goals decide +kernel
  · refine ⟨4094, [1, 2], ?_⟩
    all_goals decide +kernel

/-- Each clause of FileTransfers. -/
theorem test_file_transfers_hyps :
    (∃ (slot : Nat) (s : State), mpFree s = true ∧ foeOpen s = true ∧ slot < recipeSlots s ∧ serviceOnly s = false ∧ mayBegin s 3 slot 2 = true) ∧
    (∃ (s : State), mpFree s = true ∧ foeOpen s = true ∧ serviceOnly s = false ∧ mayBegin s 2 0 2 = true) ∧
    (∃ (s : State), mpFree s = true ∧ foeOpen s = true ∧ serviceOnly s = false ∧ mayBegin s 1 0 2 = true) ∧
    (∃ (bs : FrameData) (s : State), mpFree s = true ∧ foeOpen s = true ∧ s.ecat.foe.active = true ∧ s.ecat.foe.reading = false ∧ s.ecat.foe.file = 1
      ∧ bs.length = foeMax s ∧ s.load.active = true ∧ s.load.source = 2) ∧
    (∃ (slot : Nat) (img : List Byte) (s : State), mpFree s = true ∧ foeOpen s = true ∧ mfind s.flash.recipes slot = some img ∧ s.ecat.foe.active =
      false ∧ serviceOnly s = false) ∧
    (∃ (s : State), mpFree s = true ∧ inBoot s = true ∧ s.ecat.foe.active = false ∧ [1, 2, 5, 6].contains (fwState s) = false) ∧
    (∃ (s : State), mpFree s = true ∧ inBoot s = true) ∧
    (∃ (s : State), mpFree s = true ∧ inBoot s = true) ∧
    (∃ (s : State) (sig : List Byte), s.update.sig = some sig ∧ fwVerdictDue s = true) ∧
    (∃ (s : State), mpFree s = false ∧ (foeOpen s = true ∨ inBoot s = true) ∧ s.ecat.foeWait = none) := by
  refine ⟨?_, ?_, ?_, ?_, ?_, ?_, ?_, ?_, ?_, ?_⟩
  · refine ⟨31, { od [(0x2010, 0x0A, 2)] with flash := { mib := 256 } }, ?_, ?_, ?_, ?_, ?_⟩
    all_goals decide +kernel
  · refine ⟨od [(0x2010, 0x0A, 2), (0x3600, 1, 1), (0x3600, 4, 2)], ?_, ?_, ?_, ?_⟩
    all_goals decide +kernel
  · refine ⟨{ od [(0x2010, 0x0A, 2)] with fabric := true }, ?_, ?_, ?_, ?_⟩
    all_goals decide +kernel
  · refine ⟨[1, 2, 3, 4], ({ od [(0x2010, 0x0A, 2)] with ecat := { foe := { active := true, file := 1 }, sms := [{ len := 16 }] } } : State).setLoad
      { active := true, source := 2 }, ?_, ?_, ?_, ?_, ?_, ?_, ?_, ?_⟩
    all_goals decide +kernel
  · refine ⟨31, _, { od [(0x2010, 0x0A, 2)] with flash := { mib := 256, recipes := [(31, [])] } }, ?_, ?_, some_eta ?_, ?_, ?_⟩
    all_goals decide +kernel
  · refine ⟨od [(0x2010, 0x0A, 3)], ?_, ?_, ?_, ?_⟩
    all_goals decide +kernel
  · refine ⟨od [(0x2010, 0x0A, 3)], ?_, ?_⟩
    all_goals decide +kernel
  · refine ⟨od [(0x2010, 0x0A, 3)], ?_, ?_⟩
    all_goals decide +kernel
  · refine ⟨{ at_ (10^9) (od [(0x5800, 1, 2)]) with update := { sig := some [] } }, _, some_eta ?_, ?_⟩
    all_goals decide +kernel
  · refine ⟨{ od [(0x2010, 0x0A, 3)] with sdoRun := some 0 }, ?_, Or.inr (by decide +kernel), ?_⟩
    all_goals decide +kernel

/-- Each clause of CanCommands. -/
theorem test_can_commands_hyps :
    (∃ (target : Nat) (s : State), s.can.node ≠ 0 ∧ busOff s = false ∧ (target = 0 ∨ target = s.can.node)) ∧
    (∃ (target : Nat) (s : State), s.can.node ≠ 0 ∧ busOff s = false ∧ (target = 0 ∨ target = s.can.node)) ∧
    (∃ (target : Nat) (s : State), s.can.node ≠ 0 ∧ busOff s = false ∧ (target = 0 ∨ target = s.can.node)) ∧
    (∃ (target : Nat) (s : State), s.can.node ≠ 0 ∧ busOff s = false ∧ (target = 0 ∨ target = s.can.node)) ∧
    (∃ (target : Nat) (s : State), s.can.node ≠ 0 ∧ busOff s = false ∧ (target = 0 ∨ target = s.can.node)) ∧
    (∃ (s : State) (u : State), s.can.node ≠ 0 ∧ s.obj 0x4600 5 ≠ 0 ∧ s.can.hbNext ≤ s.time.clk ∧ busOff s = false ∧ u =
      { s with can := { s.can with hbNext := s.time.clk + 1000000 * s.obj 0x4600 5 } }) ∧
    (∃ (s : State) (e : Emcy) (es : List Emcy), s.canEmcy = e :: es ∧ canActive s = true ∧ busOff s = false ∧ mpDown s = false ∧ s.can.emcyNext ≤
      s.time.clk) ∧
    (∃ (w0 : Nat) (ago : Nat) (st : Nat) (p : Bool) (bs : FrameData) (s : State) (u : State), busOff s = false ∧ bs.length ≤ 64 ∧ u = (s.setObj
      0x4600 7 (b2n p)).bump 0x4600 8 ∧ u.can.node = 0 ∧ canReserved u w0 = false ∧ u.fabric = true ∧ canFilter u (u.time.clk - ago) w0 = some st) ∧
    (∃ (s : State), busOff s = false) ∧
    (∃ (s : State), busOff s = true) ∧
    (∃ (s : State) (u : State) (load : Nat), load < 70 ∧ s.upkeep.windowAt + 100000000 ≤ s.time.clk ∧ s.obj 0x2010 3 = 0 ∧ s.upkeep.low + 1 < 10 ∧
      s.upkeep.high = false ∧ u = { s with upkeep := { s.upkeep with windowAt := s.time.clk, high := false, low := s.upkeep.low + 1 } }) ∧
    (∃ (s : State) (n : Nat), s.upkeep.secondAt + 1000000000 ≤ s.time.clk ∧ n = min (2 ^ 32 - 1) (s.obj 0x5000 0x0A + 1) ∧ n % 3600 ≠ 0) := by
  refine ⟨?_, ?_, ?_, ?_, ?_, ?_, ?_, ?_, ?_, ?_, ?_, ?_⟩
  · refine ⟨127, { od [] with can := { node := 127 } }, ?_, ?_, ?_⟩
    all_goals decide +kernel
  · refine ⟨127, { od [] with can := { node := 127 } }, ?_, ?_, ?_⟩
    all_goals decide +kernel
  · refine ⟨127, { od [] with can := { node := 127 } }, ?_, ?_, ?_⟩
    all_goals decide +kernel
  · refine ⟨127, { od [] with can := { node := 127 } }, ?_, ?_, ?_⟩
    all_goals decide +kernel
  · refine ⟨127, { od [] with can := { node := 127 } }, ?_, ?_, ?_⟩
    all_goals decide +kernel
  · refine ⟨{ (od [(0x4600, 5, 100)]) with can := { node := 127 } }, _, ?_, ?_, ?_, ?_, rfl⟩
    all_goals decide +kernel
  · refine ⟨{ (od [(0x4600, 6, 5)]) with can := { node := 127 }, canEmcy := [{ }] }, _, _, cons_eta ?_, ?_, ?_, ?_, ?_⟩
    all_goals decide +kernel
  · refine ⟨0x7FF, 0, _, false, List.replicate 64 0, { (od [(0x4600, 0x1F, 2^30 + 0x7FF)]) with fabric := true }, _, ?_, ?_, rfl, ?_, ?_, ?_,
      some_eta ?_⟩
    all_goals decide +kernel
  · refine ⟨up, ?_⟩
    all_goals decide +kernel
  · refine ⟨od [(0x4600, 7, 2)], ?_⟩
    all_goals decide +kernel
  · refine ⟨at_ (10^8) (od []), _, 69, ?_, ?_, ?_, ?_, ?_, rfl⟩
    all_goals decide +kernel
  · refine ⟨at_ (10^9) (od []), _, ?_, rfl, ?_⟩
    all_goals decide +kernel

/-- Each clause of TioCommands. -/
theorem test_tio_commands_hyps :
    (∃ (p : Nat) (level : Bool) (s : State) (u : State), p < 24 ∧ (s.pin p).mode = tioCfg s p 2 ∧ (s.pin p).raw ≠ level ∧ tioOut s p = false ∧ u =
      (tioDue p s).setObjBit 0x4000 0x0B p level ∧ tioIn s p = true ∧ (u.pin p).edge = none ∧ tioCfg s p 4 ≠ 0) ∧
    (∃ (p : Nat) (s : State), p < 24 ∧ (s.pin p).mode = tioCfg s p 2 ∧ tioIn s p = true) ∧
    (∃ (p : Nat) (c : Nat) (s : State) (x : TioPin), p < 24 ∧ x = s.pin p ∧ (s.pin p).mode = tioCfg s p 2 ∧ tioIn s p = true ∧ x.folded ≠ 0 ∧
      x.lastTok = some c ∧ c + 64 ≤ s.time.clk ∧ x.held = none) ∧
    (∃ (p : Nat) (c : Nat) (lim : Nat) (st : Stamp) (s : State) (w : State) (u : State) (x : TioPin), p < 24 ∧ (s.pin p).mode = tioCfg s p 2 ∧ tioIn
      s p = true ∧ w = tioSummary p s ∧ x = w.pin p ∧ lim = 1000 * tioCfg w p 6 ∧ x.activeAt = some (c, st) ∧ tioIn w p = true ∧ lim ≠ 0 ∧ c + lim ≤
      w.time.clk ∧ x.stuck = false ∧ x.held = none ∧ w.obj 0x4000 0x0F = 0 ∧ u = (w.setPin p { x with stuck := true, stuckTok := none }).setObjBit
      0x4000 0x0F p true) ∧
    (∃ (p : Nat) (t : Token) (s : State) (u : State), p < 24 ∧ (s.pin p).held = some t ∧ (s.pin p).stuckTok = none ∧ (bankQueue s (p / 8)).length <
      16 ∧ u = s.setPin p { s.pin p with held := none }) ∧
    (∃ (p : Nat) (t : Pulse) (s : State), p < 24 ∧ (s.pin p).mode = tioCfg s p 2 ∧ (s.pin p).pulse = some t ∧ t.start + pulseEdgeAt s p t.next ≤
      s.time.clk ∧ t.next + 1 < 2 * (tioCfg s p 0x0A % 65536)) := by
  refine ⟨?_, ?_, ?_, ?_, ?_, ?_⟩
  · refine ⟨23, true, { ([(2, 1), (4, 10)].foldl (fun s e => s.setObji 23 0x4000 e.1 e.2) (od []) |>.setPin 23 { mode := 1 }) with fabric := true },
      _, ?_, ?_, ?_, ?_, rfl, ?_, ?_, ?_⟩
    all_goals decide +kernel
  · refine ⟨23, { ([(2, 1), (4, 10)].foldl (fun s e => s.setObji 23 0x4000 e.1 e.2) (od []) |>.setPin 23 { mode := 1 }) with fabric := true }, ?_,
      ?_, ?_⟩
    all_goals decide +kernel
  · refine ⟨23, _, at_ 64
      ({ ([(2, 1), (4, 10)].foldl (fun s e => s.setObji 23 0x4000 e.1 e.2) (od []) |>.setPin 23 { mode := 1, lastTok := some 0, folded := 1 }) with fabric := true }),
      _, ?_, rfl, ?_, ?_, ?_, some_eta ?_, ?_, ?_⟩
    all_goals decide +kernel
  · refine ⟨23, _, _, _, at_ 1000
      ({ ([(2, 1), (6, 1)].foldl (fun s e => s.setObji 23 0x4000 e.1 e.2) (od []) |>.setPin 23 { mode := 1, activeAt := some (0, 0#32) }) with fabric := true }),
      _, _, _, ?_, ?_, ?_, rfl, rfl, rfl, pair_eta ?_, ?_, ?_, ?_, ?_, ?_, ?_, rfl⟩
    all_goals decide +kernel
  · refine ⟨23, _,
      { ([(2, 1), (4, 10)].foldl (fun s e => s.setObji 23 0x4000 e.1 e.2) (od []) |>.setPin 23 { held := some { } }) with fabric := true }, _, ?_,
      some_eta ?_, ?_, ?_, rfl⟩
    all_goals decide +kernel
  · refine ⟨23, _, at_ 100
      ({ ([(2, 3), (0x0A, 2)].foldl (fun s e => s.setObji 23 0x4000 e.1 e.2) (od []) |>.setPin 23 { mode := 3, pulse := some { } }) with fabric := true }),
      ?_, ?_, some_eta ?_, ?_, ?_⟩
    all_goals decide +kernel

/-- Each clause of SerialCommands. -/
theorem test_serial_commands_hyps :
    (∃ (ch : Nat) (r : Stamp) (s : State), ch < 8 ∧ (leadStamps s ch).find? (fun r => decide (diff r s.now ≤ (serCfg s ch 5 : Int)) && decide (0 <
      diff r s.now)) = some r ∧ (serMode s ch = 1 ∨ serMode s ch = 3) ∧ serFull s ch = false ∧ (s.serial ch).lead = none ∧ serBusy s ch = false) ∧
    (∃ (ch : Nat) (ago : Nat) (bytes : List RxByte) (got : List RxByte) (s : State) (u : State), ch < 8 ∧ serMode s ch = 1 ∧ bytes = uartBytes
      (serCfg s ch 4) got ∧ bytes ≠ [] ∧ rxIgnored s ch ago = false ∧ bitsNs s ch (serCfg s ch 6) ≤ ago ∧ u = s.setObji ch 0x4100 0x0A (satAdd 32
      (s.obji ch 0x4100 0x0A) ((bytes.filter (·.parity)).length + (bytes.filter (·.framing)).length))) ∧
    (∃ (ch : Nat) (s : State), ch < 8 ∧ serMode s ch = 2 ∧ serCfg s ch 7 ≠ 0 ∧ s.t % serCfg s ch 7 = 0 ∧ (s.serial ch).reading = none) ∧
    (∃ (ch : Nat) (c : Nat) (st : Stamp) (poll : Bool) (s : State), ch < 8 ∧ serMode s ch = 2 ∧ serCfg s ch 7 ≠ 0 ∧ s.t % serCfg s ch 7 = 0 ∧
      (s.serial ch).reading = some (c, st, poll) ∧ c ≠ s.time.clk) ∧
    (∃ (ch : Nat) (c : Nat) (fmt : Nat) (stamp : Stamp) (s : State), ch < 8 ∧ (s.serial ch).reading = some (c, stamp, false) ∧ c + ssiNs s ch ≤
      s.time.clk ∧ fmt = serCfg s ch 4 ∧ bit fmt 10 = false) ∧
    (∃ (ch : Nat) (ago : Nat) (head : Nat) (seq : Nat) (bytes : List RxByte) (bs : List Byte) (s : State), ch < 8 ∧ serMode s ch = 3 ∧ (s.serial
      ch).cmd = some (head, seq) ∧ s.time.clk ≤ (s.serial ch).endAt + serCfg s ch 6 + ago ∧ (s.serial ch).endAt + ago ≤ s.time.clk ∧ bs = bytes.map
      (fun b => BitVec.ofNat 8 b.value) ∧ bytes.any (·.framing) = false ∧ driveFrameOk bs = true ∧ (bs.getD 1 0#8).toNat % 128 = head % 128 ∧
      (bs.getD 2 0#8).toNat = seq ∧ bit (bs.getD 1 0#8).toNat 7 = true) ∧
    (∃ (ch : Nat) (head : Nat) (seq : Nat) (s : State), ch < 8 ∧ (s.serial ch).cmd = some (head, seq) ∧ (s.serial ch).endAt + serCfg s ch 6 ≤
      s.time.clk) := by
  refine ⟨?_, ?_, ?_, ?_, ?_, ?_, ?_⟩
  · refine ⟨7, _, ([(2, 1), (3, 9600), (5, 200)].foldl (fun s e => s.setObji 7 0x4100 e.1 e.2) (od []) |>.setSerial 7 {  }).setQueue 31
      [{ release := 200#32, committed := true }], ?_, some_eta ?_, ?_, ?_, ?_, ?_⟩
    all_goals decide +kernel
  · refine ⟨7, 1000000, _, [{ }], at_ 5000000 ([(2, 1), (3, 9600)].foldl (fun s e => s.setObji 7 0x4100 e.1 e.2) (od []) |>.setSerial 7 {  }), _, ?_,
      ?_, rfl, ?_, ?_, ?_, rfl⟩
    all_goals decide +kernel
  · refine ⟨7, [(2, 2), (7, 1000)].foldl (fun s e => s.setObji 7 0x4100 e.1 e.2) (od []) |>.setSerial 7 {  }, ?_, ?_, ?_, ?_, ?_⟩
    all_goals decide +kernel
  · refine ⟨7, 5, 0#32, true, [(2, 2), (7, 1000)].foldl (fun s e => s.setObji 7 0x4100 e.1 e.2) (od []) |>.setSerial 7
      { reading := some (5, 0#32, true) }, ?_, ?_, ?_, ?_, ?_, ?_⟩
    all_goals decide +kernel
  · refine ⟨7, 0, _, 0#32, at_ (10^9) ([(2, 2), (3, 1000000)].foldl (fun s e => s.setObji 7 0x4100 e.1 e.2) (od []) |>.setSerial 7
      { reading := some (0, 0#32, false) }), ?_, ?_, ?_, rfl, ?_⟩
    all_goals decide +kernel
  · refine ⟨7, 0, _, _, [{ value := 0xD4 }, { value := 0x81 }, { value := 0x5C }, { value := 0 }, { value := 0x24 }, { value := 0x8B }], _, [(2, 3),
      (3, 1000000), (6, 1000)].foldl (fun s e => s.setObji 7 0x4100 e.1 e.2) (od []) |>.setSerial 7 { cmd := some (1, 92) }, ?_, ?_, pair_eta ?_, ?_,
      ?_, rfl, ?_, ?_, ?_, ?_, ?_⟩
    all_goals decide +kernel
  · refine ⟨7, _, _, at_ 1000 ([(2, 3), (6, 1000)].foldl (fun s e => s.setObji 7 0x4100 e.1 e.2) (od []) |>.setSerial 7 { cmd := some (1, 92) }), ?_,
      pair_eta ?_, ?_⟩
    all_goals decide +kernel

/-- Each clause of CameraCommands. -/
theorem test_camera_commands_hyps :
    (∃ (cam : Nat) (vc : Nat) (number : Nat) (rate : Nat) (s : State) (a : State) (u : State), cam < 2 ∧ number < 65536 ∧ rate < 65536 ∧ camCfg s cam
      2 = 1 ∧ camMine s cam vc = true ∧ (s.cam cam).current = none ∧ a = s.setCam cam
      { s.cam cam with frames := (s.cam cam).frames ++ [{ id := (s.cam cam).nextId, number := number, sf := s.now }], nextId := (s.cam cam).nextId + 1, line := none }
      ∧ u = (a.setObji cam 0x4200 0x11 a.now.toNat).setObji cam 0x4200 0x12 rate) ∧
    (∃ (cam : Nat) (vc : Nat) (s : State), cam < 2 ∧ camCfg s cam 2 = 1 ∧ camMine s cam vc = false) ∧
    (∃ (cam : Nat) (vc : Nat) (f : CamFrame) (s : State), cam < 2 ∧ camCfg s cam 2 = 1 ∧ camMine s cam vc = true ∧ (s.cam cam).current = some f) ∧
    (∃ (cam : Nat) (q : CsiLine) (f : CamFrame) (s : State), cam < 2 ∧ camCfg s cam 2 = 1 ∧ (s.cam cam).current = some f ∧ q.headerError = true) ∧
    (∃ (cam : Nat) (a : Nat) (q : CsiLine) (f : CamFrame) (s : State), cam < 2 ∧ camCfg s cam 2 = 1 ∧ (s.cam cam).current = some f ∧ q.headerError =
      false ∧ camMine s cam q.vc = true ∧ q.dt = field (camCfg s cam 3) 21 16 ∧ (s.cam cam).line ≠ none ∧ q.crcError = false ∧ csiBytes q ≠ [] ∧
      lineAddress s cam f.lines = some a ∧ ((s.cam cam).lines.map (·.bytes)).foldl (· + ·) 0 + (csiBytes q).length ≤ 16384 ∧ (csiBytes q).length =
      camCfg s cam 4 % 2 ^ 14 * pixelBytes q.dt ∧ f.status = 0) ∧
    (∃ (cam : Nat) (vc : Nat) (f : CamFrame) (s : State), cam < 2 ∧ camCfg s cam 2 = 1 ∧ camMine s cam vc = true ∧ (s.cam cam).current = some f) ∧
    (∃ (path : Nat) (c : Nat) (bytes : FrameData) (s : State), Serves s
      { path := path, kind := 1, ix := 0x4200, sub := 0x0C, data := bytes.map (BitVec.ofNat 8) } ∧ c = s.obj 0x4200 1 ∧ i2cCheck (mailArrives s) c
      bytes = 0) ∧
    (∃ (cam : Nat) (code : Nat) (q : I2c) (s : State), cam < 2 ∧ code < 4 ∧ (s.cam cam).i2c = some q ∧ s.time.clk ≤ q.since + 10000000) := by
  refine ⟨?_, ?_, ?_, ?_, ?_, ?_, ?_, ?_⟩
  · refine ⟨1, 0, 65535, 65535, [(2, 1)].foldl (fun s e => s.setObji 1 0x4200 e.1 e.2) (od []) |>.setCam 1 {  }, _, _, ?_, ?_, ?_, ?_, ?_, ?_, rfl,
      rfl⟩
    all_goals decide +kernel
  · refine ⟨1, 1, [(2, 1)].foldl (fun s e => s.setObji 1 0x4200 e.1 e.2) (od []) |>.setCam 1 {  }, ?_, ?_, ?_⟩
    all_goals decide +kernel
  · refine ⟨1, 0, _, [(2, 1)].foldl (fun s e => s.setObji 1 0x4200 e.1 e.2) (od []) |>.setCam 1 { frames := [{ }], nextId := 1 }, ?_, ?_, ?_,
      some_eta ?_⟩
    all_goals decide +kernel
  · refine ⟨1, { headerError := true }, _, [(2, 1)].foldl (fun s e => s.setObji 1 0x4200 e.1 e.2) (od []) |>.setCam 1
      { frames := [{ }], nextId := 1 }, ?_, ?_, some_eta ?_, ?_⟩
    all_goals decide +kernel
  · refine ⟨1, _, { dt := 0x2A, pixels := [1, 2] }, _, [(2, 1), (3, 0x2A * 2^16), (4, 2), (5, 64), (7, 2^50)].foldl (fun s e => s.setObji 1 0x4200
      e.1 e.2) (od []) |>.setCam 1 { frames := [{ }], nextId := 1, line := some 0#32 }, ?_, ?_, some_eta ?_, ?_, ?_, ?_, ?_, ?_, ?_, some_eta ?_, ?_,
      ?_, ?_⟩
    all_goals decide +kernel
  · refine ⟨1, 0, _, [(2, 1)].foldl (fun s e => s.setObji 1 0x4200 e.1 e.2) (od []) |>.setCam 1 { frames := [{ }], nextId := 1 }, ?_, ?_, ?_,
      some_eta ?_⟩
    all_goals decide +kernel
  · refine ⟨2, _, [127, 0, 32], up, ?_, rfl, ?_⟩
    all_goals first | decide +kernel | (constructor <;> decide +kernel)
  · refine ⟨1, 3, _, [(2, 1)].foldl (fun s e => s.setObji 1 0x4200 e.1 e.2) (od []) |>.setCam 1 { i2c := some { path := 2, reads := 3 } }, ?_, ?_,
      some_eta ?_, ?_⟩
    all_goals decide +kernel

/-- Each clause of LinkCommands. -/
theorem test_link_commands_hyps :
    (∃ (l : Nat) (bs : FrameData), l < 2 ∧ bs.headD 0 % 16 = 0) ∧
    (∃ (l : Nat) (bs : FrameData), l < 2 ∧ bs.headD 0 % 16 = 1) ∧
    (∃ (l : Nat) (bs : FrameData), l < 2 ∧ bs.headD 0 % 16 = 2) ∧
    (∃ (l : Nat) (bs : FrameData), l < 2 ∧ bs.headD 0 % 16 = 3) ∧
    (∃ (l : Nat) (s : State), l < 2 ∧ linkUp s l = true) ∧
    (∃ (l : Nat) (s : State), l < 2 ∧ s.obji l 0x4300 4 = 1) ∧
    (∃ (l : Nat) (f : LinkFrame) (fs : List LinkFrame) (s : State), l < 2 ∧ linkUp s l = true ∧ (s.link l).unacked = f :: fs ∧ linkOverdue s f = true
      ∧ 16 ≤ f.rounds) ∧
    (∃ (l : Nat) (f : LinkFrame) (fs : List LinkFrame) (s : State), l < 2 ∧ linkUp s l = true ∧ (s.link l).unacked = f :: fs ∧ linkOverdue s f = true
      ∧ f.rounds < 16) ∧
    (∃ (l : Nat) (s : State), l < 2 ∧ linkUp s l = true ∧ (s.link l).sentAt + 1000 ≤ s.time.clk) ∧
    (∃ (s : State), s.obj 0x3600 1 ≠ 0) ∧
    (∃ (q : Nat) (p : BqPacket) (ps : List BqPacket) (s : State), q < 4 ∧ bqTake (s.bq q) = some (p, ps) ∧ s.obji q 0x4500 4 ≠ 1) := by
  refine ⟨?_, ?_, ?_, ?_, ?_, ?_, ?_, ?_, ?_, ?_, ?_⟩
  · refine ⟨1, [240], ?_, ?_⟩
    all_goals decide +kernel
  · refine ⟨1, [241], ?_, ?_⟩
    all_goals decide +kernel
  · refine ⟨1, [242], ?_, ?_⟩
    all_goals decide +kernel
  · refine ⟨1, [243], ?_, ?_⟩
    all_goals decide +kernel
  · refine ⟨1, [(4, 2)].foldl (fun s e => s.setObji 1 0x4300 e.1 e.2) (od []) |>.setLink 1 {  }, ?_, ?_⟩
    all_goals decide +kernel
  · refine ⟨1, [(4, 1)].foldl (fun s e => s.setObji 1 0x4300 e.1 e.2) (od []) |>.setLink 1 {  }, ?_, ?_⟩
    all_goals decide +kernel
  · refine ⟨1, _, _, at_ 2000 ([(4, 2)].foldl (fun s e => s.setObji 1 0x4300 e.1 e.2) (od []) |>.setLink 1 { unacked := [{ rounds := 16 }] }), ?_,
      ?_, cons_eta ?_, ?_, ?_⟩
    all_goals decide +kernel
  · refine ⟨1, _, _, at_ 2000 ([(4, 2)].foldl (fun s e => s.setObji 1 0x4300 e.1 e.2) (od []) |>.setLink 1 { unacked := [{ rounds := 15 }] }), ?_,
      ?_, cons_eta ?_, ?_, ?_⟩
    all_goals decide +kernel
  · refine ⟨1, at_ 1000 ([(4, 2)].foldl (fun s e => s.setObji 1 0x4300 e.1 e.2) (od []) |>.setLink 1 {  }), ?_, ?_, ?_⟩
    all_goals decide +kernel
  · refine ⟨od [(0x3600, 1, 1)], ?_⟩
    all_goals decide +kernel
  · refine ⟨3, _, _, up.setBq 3 [{ words := [1#32] }], ?_, pair_eta ?_, ?_⟩
    all_goals decide +kernel

/-- Each clause of RecordingCommands. -/
theorem test_recording_commands_hyps :
    (∃ (a : Nat), a < 128) ∧
    (∃ (s : State) (path : Nat) (v : Nat), Accepts s path 0x5100 9 1 v ∧ v ≤ 127 ∧ alarmClearable (mailArrives s) v = true) ∧
    (∃ (s : State) (path : Nat) (v : Nat), Accepts s path 0x5100 9 1 v ∧ v ≤ 127 ∧ alarmClearable (mailArrives s) v = false) ∧
    (∃ (typ : Nat) (bs : FrameData), samplerPayload typ = some bs.length) ∧
    (∃ (s : State) (u : State) (path : Nat) (n : Nat) (k : Nat), Accepts s path 0x5000 7 4 n ∧ s.obj 0x5000 0x0D = 0 ∧ k = (n + 1 + 2 ^ 32 - s.obj
      0x5000 1) % 2 ^ 32 ∧ k ≤ (s.obj 0x5000 2 + 1 + 2 ^ 32 - s.obj 0x5000 1) % 2 ^ 32 ∧ k ≠ 0 ∧ s.sampler.recs ≠ [] ∧ u = samplerShow
      { mailArrives s with sampler := { s.sampler with recs := s.sampler.recs.drop k } } ∧ u.obj 0x5000 4 = 0) ∧
    (∃ (s : State) (b : TraceBlock), mpDown s = false ∧ bit (s.obj 0x2010 3) 1 = false ∧ s.trace.ring.any (·.exporting) = false ∧ s.trace.ring.find?
      (fun b => b.needExport && b.left == 0) = some b) ∧
    (∃ (path : Nat) (s : State) (b : TraceBlock), Serves s { path := path, kind := 0, ix := 0x5200, sub := 0x0C } ∧ s.trace.ready = some b) ∧
    (∃ (s : State) (r : JRec) (rs : List JRec), s.journal.stage = r :: rs ∧ r.k + 1000000 ≤ s.t) ∧
    (∃ (s : State) (rs : List JRec) (rest : List (List JRec)), s.obj 0x5300 1 = 2 ∧ s.journal.full = rs :: rest) := by
  refine ⟨?_, ?_, ?_, ?_, ?_, ?_, ?_, ?_, ?_⟩
  · refine ⟨127, ?_⟩
    all_goals decide +kernel
  · refine ⟨up, 2, 127, ?_, ?_, ?_⟩
    all_goals first | decide +kernel | (constructor <;> decide +kernel)
  · refine ⟨{ od [] with conds := 2^128 - 1 }, 2, 89, ?_, ?_, ?_⟩
    all_goals first | decide +kernel | (constructor <;> decide +kernel)
  · refine ⟨3, List.replicate 16 0, ?_⟩
    all_goals decide +kernel
  · refine ⟨{ (od [(0x5000, 1, 2^32 - 1), (0x5000, 2, 2^32 - 1)]) with sampler := { recs := [{ seq := 2^32 - 1 }], nextSeq := 0 } }, _, 2, 2^32 - 1,
      _, ?_, ?_, rfl, ?_, ?_, ?_, rfl, ?_⟩
    all_goals first | decide +kernel | (constructor <;> decide +kernel)
  · refine ⟨{ od [] with trace := { ring := [{ needExport := true }] } }, _, ?_, ?_, ?_, some_eta ?_⟩
    all_goals decide +kernel
  · refine ⟨2, { od [] with trace := { ready := some { } } }, _, ?_, some_eta ?_⟩
    all_goals first | decide +kernel | (constructor <;> decide +kernel)
  · refine ⟨at_ 1000000 (up.setJournal { stage := [{ }] }), _, _, cons_eta ?_, ?_⟩
    all_goals decide +kernel
  · refine ⟨(od [(0x5300, 1, 2)]).setJournal { full := [[]] }, _, _, ?_, cons_eta ?_⟩
    all_goals decide +kernel

/-- Each clause of JournalCommands. -/
theorem test_journal_commands_hyps :
    (∃ (path : Nat) (d : Nat) (ds : List Nat) (g : JSeg) (s : State), Serves s { path := path, kind := 0, ix := 0x5300, sub := 0x10 } ∧ readSegment
      (mailArrives s) = some g ∧ segDrives (mailArrives s) g.number = d :: ds) ∧
    (∃ (s : State) (path : Nat), Accepts s path 0x5300 3 1 1 ∧ s.obj 0x5300 1 ≠ 2 ∧ s.obji 0 0x4400 2 ≠ 0 ∧ s.obji 1 0x4400 2 ≠ 0) ∧
    (∃ (s : State) (path : Nat), Accepts s path 0x5300 3 1 2 ∧ s.obj 0x5300 1 ≠ 2 ∧ s.obji 0 0x4400 2 ≠ 0 ∧ s.obji 1 0x4400 2 ≠ 0) ∧
    (∃ (s : State) (path : Nat), Accepts s path 0x5300 5 1 1 ∧ s.obj 0x5300 5 = 1 ∧ (s.obj 0x5300 1 = 3 ∨ s.obj 0x5300 1 = 0) ∧ s.obji 0 0x4400 2 = 1
      ∧ s.obji 1 0x4400 2 = 1) ∧
    (∃ (s : State) (path : Nat), Accepts s path 0x5300 5 1 1 ∧ s.obj 0x5300 5 = 0 ∧ s.obj 0x5300 1 = 3 ∧ s.obji 0 0x4400 2 = 1 ∧ s.obji 1 0x4400 2 =
      1) ∧
    (∃ (s : State) (path : Nat), Accepts s path 0x5300 5 1 0 ∧ s.obj 0x5300 5 = 1 ∧ s.obj 0x5300 1 ≠ 2) ∧
    (∃ (d : Nat) (n : Nat) (s : State) (u : State) (v : DriveVol) (w : DriveVol) (used : List Nat), d < 2 ∧ s.obj 0x5300 1 = 2 ∧ striped s = false ∧
      s.journal.lost.contains d = true ∧ s.journal.lost.contains (1 - d) = false ∧ s.journal.waiting.any (fun c => decide (c.prio ≤ 2)) = false ∧ v =
      s.vol (1 - d) ∧ used = usedSegments v (s.vol d) ∧ w = ((used.filter (segDiffers v (s.vol d))).take n).foldl (copySegment v) (s.vol d) ∧ u =
      (s.setVol d w).setObji d 0x4400 2 1) ∧
    (∃ (d : Nat) (n : Nat) (s : State) (u : State) (c : NvCmd), flightCmd s d n = some c ∧ c.kind ≠ 5 ∧ u = nvDrop c s) ∧
    (∃ (d : Nat) (n : Nat) (s : State) (c : NvCmd), flightCmd s d n = some c ∧ c.kind = 5) ∧
    (∃ (d : Nat) (n : Nat) (s : State) (u : State) (c : NvCmd), flightCmd s d n = some c ∧ c.issued + 2000000000 ≤ s.time.clk ∧ (c.tries + 1) % 4 ≠ 3
      ∧ u = (nvDrop c s).bumpi d 0x4400 9) ∧
    (∃ (d : Nat), d < 2) := by
  refine ⟨?_, ?_, ?_, ?_, ?_, ?_, ?_, ?_, ?_, ?_, ?_⟩
  · refine ⟨2, _, _, _, (od [(0x5300, 0x0E, 1)]).setJournal { segs := [(1, { number := 1, segSeq := 1 })] }, ?_, some_eta ?_, cons_eta ?_⟩
    all_goals first | decide +kernel | (constructor <;> decide +kernel)
  · refine ⟨[0, 1].foldl (fun s d => s.setObji d 0x4400 2 1) (od []), 2, ?_, ?_, ?_, ?_⟩
    all_goals first | decide +kernel | (constructor <;> decide +kernel)
  · refine ⟨[0, 1].foldl (fun s d => s.setObji d 0x4400 2 1) (od []), 2, ?_, ?_, ?_, ?_⟩
    all_goals first | decide +kernel | (constructor <;> decide +kernel)
  · refine ⟨(od [(0x5300, 5, 1), (0x5300, 1, 3)]).setObji 0 0x4400 2 1 |>.setObji 1 0x4400 2 1, 2, ?_, ?_, Or.inl (by decide +kernel), ?_, ?_⟩
    all_goals first | decide +kernel | (constructor <;> decide +kernel)
  · refine ⟨(od [(0x5300, 5, 0), (0x5300, 1, 3)]).setObji 0 0x4400 2 1 |>.setObji 1 0x4400 2 1, 2, ?_, ?_, ?_, ?_, ?_⟩
    all_goals first | decide +kernel | (constructor <;> decide +kernel)
  · refine ⟨od [(0x5300, 5, 1)], 2, ?_, ?_, ?_⟩
    all_goals first | decide +kernel | (constructor <;> decide +kernel)
  · refine ⟨1, 0, (od [(0x5300, 1, 2)]).setJournal { lost := [1] }, _, _, _, _, ?_, ?_, ?_, ?_, ?_, ?_, rfl, rfl, rfl, rfl⟩
    all_goals decide +kernel
  · refine ⟨1, 0, up.setJournal { flight := [{ drive := 1 }] }, _, _, some_eta ?_, ?_, rfl⟩
    all_goals decide +kernel
  · refine ⟨1, 0, up.setJournal { flight := [{ drive := 1, kind := 5 }] }, _, some_eta ?_, ?_⟩
    all_goals decide +kernel
  · refine ⟨1, 0, at_ (2 * 10^9) (up.setJournal { flight := [{ drive := 1 }] }), _, _, some_eta ?_, ?_, ?_, rfl⟩
    all_goals decide +kernel
  · refine ⟨1, ?_⟩
    all_goals decide +kernel

/-- Each clause of ReleaseAndAnswers. -/
theorem test_release_and_answers_hyps :
    (∃ (s : State) (a : State) (r : Stamp), a = (s.selvedge.txns.map (·.1)).foldl (fun st t => deadlineAt t st) s ∧ earliestDue a = some r) ∧
    (∃ (s : State) (u : State), (s.line 33).busy = true ∧ u = { s with can := { s.can with tx := s.can.tx.drop 1 } }) ∧
    (∃ (port : Nat) (e : Entry) (es : List Entry) (s : State), 24 ≤ port ∧ port < 32 ∧ serBusy s (port - 24) = false ∧ (s.serial (port - 24)).lead =
      none ∧ (s.line port).waiting = e :: es) ∧
    (∃ (l : Nat) (s : State), l < 2 ∧ (s.line (40 + l)).busy = true) ∧
    (∃ (k : Nat) (p : Packet) (s : State) (u : State), takeAnswer k 8 s = some (p, u) ∧ 2 ^ 20 ≤ p.timer ∧ p.timer < 2 ^ 22) ∧
    (∃ (k : Nat) (p : Packet) (s : State) (u : State), takeAnswer k 9 s = some (p, u) ∧ 2 ^ 20 ≤ p.timer ∧ p.timer < 2 ^ 22) ∧
    (∃ (k : Nat) (p : Packet) (s : State) (u : State), takeAnswer k 9 s = some (p, u) ∧ 2 ^ 19 ≤ p.timer ∧ p.timer < 2 ^ 20) ∧
    (∃ (k : Nat) (p : Packet) (s : State) (u : State), takeAnswer k 8 s = some (p, u) ∧ 2 ^ 22 ≤ p.timer) ∧
    (∃ (k : Nat) (p : Packet) (s : State) (u : State), takeAnswer k 9 s = some (p, u) ∧ 2 ^ 22 ≤ p.timer) ∧
    (∃ (k : Nat) (p : Packet) (s : State) (u : State), takeAnswer k 10 s = some (p, u) ∧ 2 ^ 20 ≤ p.timer) := by
  refine ⟨?_, ?_, ?_, ?_, ?_, ?_, ?_, ?_, ?_, ?_⟩
  · refine ⟨up.setTxn 5 { state := .committed }, _, _, rfl, some_eta ?_⟩
    all_goals decide +kernel
  · refine ⟨up.setLine 33 { busy := true }, _, ?_, rfl⟩
    all_goals decide +kernel
  · refine ⟨31, _, _, up.setLine 31 { waiting := [{ }] }, ?_, ?_, ?_, ?_, cons_eta ?_⟩
    all_goals decide +kernel
  · refine ⟨1, up.setLine 41 { busy := true }, ?_, ?_⟩
    all_goals decide +kernel
  · refine ⟨71, _, inbox [{ typ := 8, resp := true, dx := 3, edge := true, timer := 2^20 }], _, pair_eta ?_, ?_, ?_⟩
    all_goals decide +kernel
  · refine ⟨71, _, inbox [{ typ := 9, resp := true, dx := 3, edge := true, timer := 2^20 }], _, pair_eta ?_, ?_, ?_⟩
    all_goals decide +kernel
  · refine ⟨71, _, inbox [{ typ := 9, resp := true, dx := 3, edge := true, timer := 2^20 - 1 }], _, pair_eta ?_, ?_, ?_⟩
    all_goals decide +kernel
  · refine ⟨71, _, inbox [{ typ := 8, resp := true, dx := 3, edge := true, timer := 2^22 + 5 }], _, pair_eta ?_, ?_⟩
    all_goals decide +kernel
  · refine ⟨71, _, inbox [{ typ := 9, resp := true, dx := 3, edge := true, timer := 2^22 + 5 }], _, pair_eta ?_, ?_⟩
    all_goals decide +kernel
  · refine ⟨71, _, inbox [{ typ := 10, resp := true, dx := 3, edge := true, timer := 2^20 }], _, pair_eta ?_, ?_⟩
    all_goals decide +kernel

/-- Each clause of ResetAndStart. -/
theorem test_reset_and_start_hyps :
    (∃ (s : State) (k : Nat), s.start.resetAt = some k ∧ k ≤ s.time.clk) ∧
    (∃ (s : State) (u : State) (b : Board), s.start.held = true ∧ s.obj 0x2000 1 = 3 ∧ u =
      { s with start := { s.start with held := false, relAt := s.time.clk, board := b }, flash := { s.flash with mib := b.flashMiB } }) ∧
    (∃ (s : State) (u : State) (b : Board), s.start.held = true ∧ s.obj 0x2000 1 = 1 ∧ u =
      { s with start := { s.start with held := false, relAt := s.time.clk, board := b }, flash := { s.flash with mib := b.flashMiB } }) ∧
    (∃ (s : State) (k : Nat), k = s.start.step ∧ stepFree s = false ∧ 1000000 * stepMax k ≤ stepTaken s ∧ isOptional k = false) ∧
    (∃ (s : State) (k : Nat), k = s.start.step ∧ stepFree s = false ∧ 1000000 * stepMax k ≤ stepTaken s ∧ isOptional k = true) ∧
    (∃ (s : State), s.start.done = true ∧ s.fabric = false ∧ s.start.fabricAt = none) ∧
    (∃ (s : State) (a : State) (b : State) (k : Nat), s.start.fabricAt = some k ∧ s.fabric = false ∧ k ≤ s.t ∧ a = stepPass 12 ((s.time.clk -
      s.start.stepAt) / 1000000) (fabricStart s) ∧ b = (a.setObj 0x2000 2 ((a.time.clk - a.start.relAt) / 1000000)).setObj 0x2001 0 1) := by
  refine ⟨?_, ?_, ?_, ?_, ?_, ?_, ?_⟩
  · refine ⟨{ od [] with start := { resetAt := some 0 } }, _, some_eta ?_, ?_⟩
    all_goals decide +kernel
  · refine ⟨State.reset.setObj 0x2000 1 3, _, { }, ?_, ?_, rfl⟩
    all_goals decide +kernel
  · refine ⟨State.reset.setObj 0x2000 1 1, _, { }, ?_, ?_, rfl⟩
    all_goals decide +kernel
  · refine ⟨at_ (10^12) { od [(0x2001, 0, 0)] with start := { held := false, step := 11 } }, _, rfl, ?_, ?_, ?_⟩
    all_goals decide +kernel
  · refine ⟨at_ (10^12) { od [(0x2001, 0, 0)] with start := { held := false, step := 10 } }, _, rfl, ?_, ?_, ?_⟩
    all_goals decide +kernel
  · refine ⟨{ od [] with start := { done := true } }, ?_, ?_, ?_⟩
    all_goals decide +kernel
  · refine ⟨{ od [] with start := { fabricAt := some 0 } }, _, _, _, some_eta ?_, ?_, ?_, rfl, rfl⟩
    all_goals decide +kernel

/-- Each clause of LoadsAndFlash. -/
theorem test_loads_and_flash_hyps :
    (∃ (s : State), s.load.active = true ∧ s.load.whole = true ∧ recipeWriting s = false ∧ mpDown s = false ∧ s.load.kind = 3 ∧ checkStored s
      s.load.buf = none) ∧
    (∃ (f : Refuse) (s : State), s.load.active = true ∧ s.load.whole = true ∧ recipeWriting s = false ∧ mpDown s = false ∧ s.load.kind = 3 ∧
      checkStored s s.load.buf = some f) ∧
    (∃ (s : State), s.load.active = true ∧ s.load.whole = true ∧ recipeWriting s = false ∧ mpDown s = false ∧ s.load.kind ≠ 3 ∧ checkAll s
      s.load.kind s.load.buf = none ∧ (halvesNeeded s.load.buf s).find? (fun d => bit 0 d) = none) ∧
    (∃ (f : Refuse) (s : State), s.load.active = true ∧ s.load.whole = true ∧ recipeWriting s = false ∧ mpDown s = false ∧ s.load.kind ≠ 3 ∧ checkAll
      s s.load.kind s.load.buf = some f) ∧
    (∃ (s : State) (j : FlashJob) (js : List FlashJob), s.flash.running = true ∧ s.flash.jobs = j :: js ∧ j.erase = true ∧ s.flash.orphan = false) ∧
    (∃ (s : State) (j : FlashJob) (js : List FlashJob) (c : Nat) (v : SavedCopy), s.flash.running = true ∧ s.flash.jobs = j :: js ∧ j.erase = false ∧
      j.purpose = 3 ∧ j.effect = .saved c v) ∧
    (∃ (s : State) (u : State), s.obj 0x3030 1 ≠ 0 ∧ u = s.setObj 0x3030 1 0 ∧ slotValid u = true ∧ imageNew u = false) := by
  refine ⟨?_, ?_, ?_, ?_, ?_, ?_, ?_⟩
  · refine ⟨up.setLoad { active := true, whole := true, kind := 3, total := 80, buf := smallImage }, ?_, ?_, ?_, ?_, ?_, ?_⟩
    all_goals decide +kernel
  · refine ⟨_, up.setLoad { active := true, whole := true, kind := 3 }, ?_, ?_, ?_, ?_, ?_, some_eta ?_⟩
    all_goals decide +kernel
  · refine ⟨up.setLoad { active := true, whole := true, kind := 1, total := 80, buf := smallImage }, ?_, ?_, ?_, ?_, ?_, ?_, ?_⟩
    all_goals decide +kernel
  · refine ⟨_, up.setLoad { active := true, whole := true, kind := 1 }, ?_, ?_, ?_, ?_, ?_, some_eta ?_⟩
    all_goals decide +kernel
  · refine ⟨up.setFlash { running := true, jobs := [{ erase := true }] }, _, _, ?_, cons_eta ?_, ?_, ?_⟩
    all_goals decide +kernel
  · refine ⟨up.setFlash { running := true, jobs := [{ purpose := 3, effect := .saved 1 { seq := 7 } }] }, _, _, 1, { seq := 7 }, ?_, cons_eta ?_, ?_,
      ?_, ?_⟩
    all_goals decide +kernel
  · refine ⟨{ od [(0x3030, 1, 1)] with flash := { fwMark := true } }, _, ?_, rfl, ?_, ?_⟩
    all_goals decide +kernel

/-- Each clause of FirmwareUpdate. -/
theorem test_firmware_update_hyps :
    (∃ (path : Nat) (bs : FrameData) (s : State), Serves s { path := path, kind := 1, ix := 0x5800, sub := 2, data := bs.map (BitVec.ofNat 8) } ∧
      bs.length ≤ 832) ∧
    (∃ (path : Nat) (bs : FrameData) (s : State), Serves s { path := path, kind := 1, ix := 0x5800, sub := 3, data := bs.map (BitVec.ofNat 8) } ∧
      bs.length = 2048 ∧ fwState (mailArrives s) = 1 ∧ s.update.got < fwBlocksOf s.update.head ∧ s.update.buffered < 2 ∧ s.update.half = none) ∧
    (∃ (path : Nat) (bs : FrameData) (s : State), Serves s { path := path, kind := 1, ix := 0x5800, sub := 4, data := bs.map (BitVec.ofNat 8) } ∧
      bs.length = 144 ∧ fwState (mailArrives s) = 1 ∧ s.update.got = fwBlocksOf s.update.head ∧ s.update.half = none) ∧
    (∃ (s : State) (path : Nat), Accepts s path 0x5800 7 1 1 ∧ fwState (mailArrives s) = 1) ∧
    (∃ (s : State) (path : Nat) (v : Nat), Accepts s path 0x5800 6 8 v ∧ fwState (mailArrives s) = 3 ∧ s.obj 0x3600 1 = 0 ∧ s.t + 100000000 ≤ v) ∧
    (∃ (s : State), fwState s = 5 ∧ s.obj 0x5800 6 ≤ s.t) := by
  refine ⟨?_, ?_, ?_, ?_, ?_, ?_⟩
  · refine ⟨2, List.replicate 832 0, up, ?_, ?_⟩
    all_goals first | decide +kernel | (constructor <;> decide +kernel)
  · refine ⟨2, List.replicate 2048 0, { od [(0x5800, 1, 1)] with update := { head := List.replicate 24 255#8 } }, ?_, ?_, ?_, ?_, ?_, ?_⟩
    all_goals first | decide +kernel | (constructor <;> decide +kernel)
  · refine ⟨2, List.replicate 144 0, { od [(0x5800, 1, 1)] with update := { } }, ?_, ?_, ?_, ?_, ?_⟩
    all_goals first | decide +kernel | (constructor <;> decide +kernel)
  · refine ⟨od [(0x5800, 1, 1)], 2, ?_, ?_⟩
    all_goals first | decide +kernel | (constructor <;> decide +kernel)
  · refine ⟨od [(0x5800, 1, 3)], 2, 10^8, ?_, ?_, ?_, ?_⟩
    all_goals first | decide +kernel | (constructor <;> decide +kernel)
  · refine ⟨od [(0x5800, 1, 5)], ?_, ?_⟩
    all_goals decide +kernel

/-- Each clause of SecureRequests. -/
theorem test_secure_requests_hyps :
    (∃ (path : Nat) (s : State), Sends s path) ∧
    (∃ (path : Nat) (s : State), Sends s path) ∧
    (∃ (path : Nat) (s : State), Sends s path) ∧
    (∃ (path : Nat) (s : State), Sends s path) ∧
    (∃ (path : Nat) (s : State), Sends s path) ∧
    (∃ (path : Nat) (s : State), Sends s path) ∧
    (∃ (path : Nat) (s : State), Sends s path) ∧
    (∃ (path : Nat) (s : State), Sends s path) ∧
    (∃ (s : State) (u : State) (d : SecureDue) (a : SdoAnswer), exchangeNext s = some d ∧ mpDown s = false ∧ d.at' + 1000 ≤ s.time.clk ∧ s.time.clk <
      d.due ∧ wiping s = false ∧ islandAnswer d.req d.due s = (a, u)) ∧
    (∃ (s : State) (d : SecureDue), exchangeNext s = some d ∧ mpDown s = false ∧ d.at' + 1000 ≤ s.time.clk ∧ s.time.clk < d.due ∧ wiping s = true) ∧
    (∃ (s : State) (d : SecureDue) (ds : List SecureDue) (a : SdoAnswer), s.secure = d :: ds ∧ d.due ≤ s.time.clk ∧ d.answer = some a ∧ ¬ (d.req.kind
      = 1 ∧ d.req.stated.isSome ∧ a.abort = 0)) ∧
    (∃ (s : State) (d : SecureDue) (ds : List SecureDue) (a : SdoAnswer) (n : Nat), s.secure = d :: ds ∧ d.due ≤ s.time.clk ∧ d.answer = some a ∧
      d.req.kind = 1 ∧ d.req.stated = some n ∧ a.abort = 0) ∧
    (∃ (s : State), wiping s = true ∧ s.island.tampered = false) ∧
    (∃ (s : State), wiping s = true ∧ s.island.tampered = true) ∧
    (∃ (s : State) (u : State), u = s.setIsland { tampered := true, wipeEnd := some (s.time.clk + 500000) }) := by
  refine ⟨?_, ?_, ?_, ?_, ?_, ?_, ?_, ?_, ?_, ?_, ?_, ?_, ?_, ?_, ?_⟩
  · refine ⟨2, up, ?_⟩
    all_goals first | decide +kernel | (constructor <;> decide +kernel)
  · refine ⟨2, up, ?_⟩
    all_goals first | decide +kernel | (constructor <;> decide +kernel)
  · refine ⟨2, up, ?_⟩
    all_goals first | decide +kernel | (constructor <;> decide +kernel)
  · refine ⟨2, up, ?_⟩
    all_goals first | decide +kernel | (constructor <;> decide +kernel)
  · refine ⟨2, up, ?_⟩
    all_goals first | decide +kernel | (constructor <;> decide +kernel)
  · refine ⟨2, up, ?_⟩
    all_goals first | decide +kernel | (constructor <;> decide +kernel)
  · refine ⟨2, up, ?_⟩
    all_goals first | decide +kernel | (constructor <;> decide +kernel)
  · refine ⟨2, up, ?_⟩
    all_goals first | decide +kernel | (constructor <;> decide +kernel)
  · refine ⟨at_ 1000 { od [] with secure := [{ req := { path := 2, ix := 0x5C00, sub := 1 }, due := 500000 }] }, _, _, _, some_eta ?_, ?_, ?_, ?_,
      ?_, rfl⟩
    all_goals decide +kernel
  · refine ⟨at_ 1000 { od [] with secure := [{ req := { path := 2, ix := 0x5C00, sub := 1 }, due := 500000 }], island := { wipeEnd := some 5 } }, _,
      some_eta ?_, ?_, ?_, ?_, ?_⟩
    all_goals decide +kernel
  · refine ⟨at_ 500000 { od [] with secure := [{ due := 500000, answer := some { } }] }, _, _, _, cons_eta ?_, ?_, some_eta ?_, ?_⟩
    all_goals decide +kernel
  · refine ⟨at_ 500000 { od [] with secure := [{ due := 500000, answer := some { }, req := { kind := 1, stated := some 64 } }] }, _, _, _, _,
      cons_eta ?_, ?_, some_eta ?_, ?_, some_eta ?_, ?_⟩
    all_goals decide +kernel
  · refine ⟨{ od [] with island := { wipeEnd := some 5 } }, ?_, ?_⟩
    all_goals decide +kernel
  · refine ⟨{ od [] with island := { wipeEnd := some 5, tampered := true } }, ?_, ?_⟩
    all_goals decide +kernel
  · refine ⟨up, _, rfl⟩

/-- Each clause of PowerDomains. -/
theorem test_power_domains_hyps :
    (∃ (path : Nat) (d : Nat) (s : State), Accepts s path 0x2200 0x0D 1 1 ∧ d = s.obj 0x2200 0x0C ∧ domainFixed d = false ∧ domainOn (mailArrives s)
      d = false) ∧
    (∃ (path : Nat) (s : State), Accepts s path 0x2200 0x0D 1 1 ∧ domainFixed (s.obj 0x2200 0x0C) = true) ∧
    (∃ (path : Nat) (d : Nat) (s : State), Accepts s path 0x2200 0x0D 1 2 ∧ d = s.obj 0x2200 0x0C ∧ domainFixed d = false ∧ domainOn (mailArrives s)
      d = true ∧ s.obj 0x3600 1 = 0 ∧ s.obj 0x3601 1 = 0 ∧ domainMayStop (mailArrives s) d = true) ∧
    (∃ (path : Nat) (d : Nat) (begun : Nat) (s : State), s.power.switch = some (d, true, path, begun) ∧ begun + domainOnNs d ≤ s.time.clk ∧
      s.time.clk ≤ begun + 2 * domainOnNs d) ∧
    (∃ (path : Nat) (d : Nat) (begun : Nat) (s : State), s.power.switch = some (d, true, path, begun) ∧ begun + 2 * domainOnNs d ≤ s.time.clk) ∧
    (∃ (path : Nat) (s : State), Accepts s path 0x2200 0x0D 1 1 ∧ domainFixed (s.obj 0x2200 0x0C) = false ∧ domainOn (mailArrives s) (s.obj 0x2200
      0x0C) = true) ∧
    (∃ (path : Nat) (s : State), Accepts s path 0x2200 0x0D 1 2 ∧ domainFixed (s.obj 0x2200 0x0C) = false ∧ domainOn (mailArrives s) (s.obj 0x2200
      0x0C) = false) ∧
    (∃ (path : Nat) (d : Nat) (begun : Nat) (s : State), s.power.switch = some (d, false, path, begun) ∧ begun + domainOffNs d ≤ s.time.clk) := by
  refine ⟨?_, ?_, ?_, ?_, ?_, ?_, ?_, ?_⟩
  · refine ⟨2, _, od [(0x2200, 0x0C, 16)], ?_, rfl, ?_, ?_⟩
    all_goals first | decide +kernel | (constructor <;> decide +kernel)
  · refine ⟨2, od [(0x2200, 0x0C, 17)], ?_, ?_⟩
    all_goals first | decide +kernel | (constructor <;> decide +kernel)
  · refine ⟨2, _, { od [(0x2200, 0x0C, 8)] with power := { on := 2^8 } }, ?_, rfl, ?_, ?_, ?_, ?_, ?_⟩
    all_goals first | decide +kernel | (constructor <;> decide +kernel)
  · refine ⟨2, 8, 0, at_ 60000 { od [] with power := { switch := some (8, true, 2, 0) } }, ?_, ?_, ?_⟩
    all_goals decide +kernel
  · refine ⟨2, 8, 0, at_ 120000 { od [] with power := { switch := some (8, true, 2, 0) } }, ?_, ?_⟩
    all_goals decide +kernel
  · refine ⟨2, { od [(0x2200, 0x0C, 8)] with power := { on := 2^8 } }, ?_, ?_, ?_⟩
    all_goals first | decide +kernel | (constructor <;> decide +kernel)
  · refine ⟨2, up, ?_, ?_, ?_⟩
    all_goals first | decide +kernel | (constructor <;> decide +kernel)
  · refine ⟨2, 8, 0, at_ 60000 { od [] with power := { switch := some (8, false, 2, 0) } }, ?_, ?_⟩
    all_goals decide +kernel

/-- FizhaigRegisterOperations. -/
theorem test_fizhaig_register_operations_hyps :
    ∃ (c : Nat) (s : State), FzRuns c s := by
  refine ⟨0, fz 0, ?_⟩
  all_goals first | decide +kernel | (constructor <;> decide +kernel)

/-- Each clause of FizhaigImmediatesAndJumps. -/
theorem test_fizhaig_immediates_and_jumps_hyps :
    (∃ (c : Nat) (s : State), FzRuns c s) ∧
    (∃ (c : Nat) (disp : Nat) (s : State) (b : FBank) (t : Word), FzRuns c s ∧ b = (s.core c).here ∧ t = b.pc + wordDisp 26 disp ∧ t.toNat % 4 = 0) ∧
    (∃ (c : Nat) (disp : Nat) (s : State) (b : FBank) (t : Word), FzRuns c s ∧ b = (s.core c).here ∧ t = b.pc + wordDisp 26 disp ∧ t.toNat % 4 = 0) ∧
    (∃ (c : Nat) (ra : Nat) (imm : Nat) (s : State) (b : FBank) (t : Word), FzRuns c s ∧ b = (s.core c).here ∧ t = fzEa c ra imm s ∧ t.toNat % 4 = 0) ∧
    (∃ (c : Nat) (ra : Nat) (imm : Nat) (s : State) (t : Word), FzRuns c s ∧ t = fzEa c ra imm s ∧ t.toNat % 4 ≠ 0) := by
  refine ⟨?_, ?_, ?_, ?_, ?_⟩
  · refine ⟨0, fz 0, ?_⟩
    all_goals first | decide +kernel | (constructor <;> decide +kernel)
  · refine ⟨0, 0, fz 0, _, _, ?_, rfl, rfl, ?_⟩
    all_goals first | decide +kernel | (constructor <;> decide +kernel)
  · refine ⟨0, 0, fz 0, _, _, ?_, rfl, rfl, ?_⟩
    all_goals first | decide +kernel | (constructor <;> decide +kernel)
  · refine ⟨0, 0, 0, fz 0, _, _, ?_, rfl, rfl, ?_⟩
    all_goals first | decide +kernel | (constructor <;> decide +kernel)
  · refine ⟨0, 0, 65535, fz 0, _, ?_, rfl, ?_⟩
    all_goals first | decide +kernel | (constructor <;> decide +kernel)

/-- FizhaigMemory. -/
theorem test_fizhaig_memory_hyps :
    ∃ (c : Nat) (ra : Nat) (imm : Nat) (a : Nat) (o : Nat) (s : State), FzRuns c s ∧ a = (fzEa c ra imm s).toNat ∧ a % 4 = 0 ∧ fzAllowed c (s.core c)
      (s.core c).here true a = true ∧ fzPlace c (s.core c) a = .data o := by
  refine ⟨0, 1, 0, _, 0xFFC, fz 0 (fzCore 0 { regs := [(1, 0x10FFC#32)] }), ?_, rfl, ?_, ?_, ?_⟩
  all_goals first | decide +kernel | (constructor <;> decide +kernel)

/-- Each clause of FizhaigControlSpace. -/
theorem test_fizhaig_control_space_hyps :
    (∃ (c : Nat) (rd : Nat) (ra : Nat) (imm : Nat) (a : Nat) (s : State) (u : State) (t : State) (v : Nat) (w : Nat) (k : CKind) (j : CKind) (p :
      Bool) (q : Bool), FzRuns c s ∧ a = (fzEa c ra imm s).toNat ∧ rd % 2 = 0 ∧ a % 8 = 0 ∧ a < 0x10000 ∧ ctrlKind c (a / 4 * 4) = some (k, p) ∧
      ctrlKind c ((a + 4) / 4 * 4) = some (j, q) ∧ ((p || q) = true → (s.core c).here.sys = true) ∧ ctrlRead c a s = (v, u) ∧ ctrlRead c (a + 4) u =
      (w, t)) ∧
    (∃ (c : Nat) (rs : Nat) (ra : Nat) (imm : Nat) (a : Nat) (s : State) (u : State) (t : State) (k : CKind) (j : CKind) (p : Bool) (q : Bool),
      FzRuns c s ∧ a = (fzEa c ra imm s).toNat ∧ rs % 2 = 0 ∧ a % 8 = 0 ∧ a < 0x10000 ∧ ctrlKind c (a / 4 * 4) = some (k, p) ∧ ctrlKind c ((a + 4) /
      4 * 4) = some (j, q) ∧ ((p || q) = true → (s.core c).here.sys = true) ∧ (k = .rw ∨ k = .ws) ∧ (j = .rw ∨ j = .ws) ∧ ctrlWrite c a ((s.core
      c).here.g rs).toNat s = .ok u ∧ ctrlWrite c (a + 4) ((s.core c).here.g (rs + 1)).toNat u = .ok t) := by
  refine ⟨?_, ?_⟩
  · refine ⟨0, 0, 0, 0x80, _, fz 0, _, _, _, _, .lo, .hi, _, _, ?_, rfl, ?_, ?_, ?_, pair_eta ?_, pair_eta ?_, ?_, rfl, rfl⟩
    all_goals first | decide +kernel | (constructor <;> decide +kernel)
  · refine ⟨0, 0, 0, 0x1000, _, fz 0, _, _, .rw, .rw, _, _, ?_, rfl, ?_, ?_, ?_, pair_eta ?_, pair_eta ?_, ?_, ?_, ?_, ok_eta ?_, ok_eta ?_⟩
    all_goals first | decide +kernel | (constructor <;> decide +kernel)

/-- Each clause of FizhaigShuttleRegisters. -/
theorem test_fizhaig_shuttle_registers_hyps :
    (∃ (c : Nat) (s : State), FzRuns c s ∧ c < 64) ∧
    (∃ (c : Nat) (rs : Nat) (w : Nat) (s : State) (u : State) (f : Nat), FzRuns c s ∧ c < 64 ∧ (s.core c).cur = 1 ∧ w = ((s.core c).here.g rs).toNat
      ∧ w % 4096 ≠ 0 ∧ s.fresh = (f, u)) ∧
    (∃ (c : Nat) (s : State), FzRuns c s ∧ c < 64 ∧ (s.core c).txWords.length < 15) ∧
    (∃ (c : Nat) (rs : Nat) (s : State) (m : Motif) (t : Token), FzRuns c s ∧ c < 64 ∧ m = s.motif c ∧ t =
      { tid := field (s.core c).txctl 26 15, stamp := BitVec.ofNat 32 (s.core c).txstamp, words := (s.core c).txWords ++ [(s.core c).here.g rs], prio := field (s.core c).txctl 14 13, exec := (m.part (field (s.core c).txctl 26 15)).exec, planeB := bit (s.core c).txctl 0 }
      ∧ (s.core c).txWords.length < 15 ∧ outUsed m 18 + 1 + t.words.length ≤ 16) ∧
    (∃ (c : Nat) (s : State) (t : Token), FzRuns c s ∧ c < 64 ∧ rxHead s c = some t) ∧
    (∃ (c : Nat) (s : State) (t : Token), FzRuns c s ∧ c < 64 ∧ (s.core c).rxStarted = true ∧ rxHead s c = some t) ∧
    (∃ (c : Nat) (s : State), FzRuns c s) ∧
    (∃ (s : State), FzRuns 68 s) ∧
    (∃ (c : Nat) (s : State), FzRuns c s ∧ c = 68 ∧ (s.core c).here.sys = true) ∧
    (∃ (c : Nat) (rs : Nat) (s : State) (u : State), FzRuns c s ∧ c < 68 ∧ (s.core c).held < 4 ∧ u = fzSend c
      { typ := 4, dx := (sliceRouter (((s.core c).here.g rs).toNat / 16 % 4) 0).1, dy := (sliceRouter (((s.core c).here.g rs).toNat / 16 % 4) 0).2, endpoint := 48 + ((s.core c).here.g rs).toNat % 16 }
      s) ∧
    (∃ (c : Nat) (s : State), FzRuns c s ∧ c < 64) ∧
    (∃ (c : Nat) (n : Nat) (s : State), FzRuns c s ∧ 64 ≤ c ∧ c < 68 ∧ n < 16 ∧ (s.core c).here.sys = true ∧ (s.core (hoopMotif (c - 64) n)).state =
      0 ∧ (s.core (hoopMotif (c - 64) n)).started = true) ∧
    (∃ (c : Nat) (n : Nat) (s : State), FzRuns c s ∧ 64 ≤ c ∧ c < 68 ∧ n < 16 ∧ (s.core c).here.sys = true) ∧
    (∃ (c : Nat) (rs : Nat) (w : Nat) (s : State), FzRuns c s ∧ 64 ≤ c ∧ c < 69 ∧ (s.core c).here.sys = true ∧ w = ((s.core c).here.g rs).toNat ∧
      ibindOk c w (s.core c).ibindH (s.core c) = true) := by
  refine ⟨?_, ?_, ?_, ?_, ?_, ?_, ?_, ?_, ?_, ?_, ?_, ?_, ?_, ?_⟩
  · refine ⟨63, fz 63, ?_, ?_⟩
    all_goals first | decide +kernel | (constructor <;> decide +kernel)
  · refine ⟨0, 1, _, fz 0 ({ fzCore 0 with cur := 1 }.setBank 1 { regs := [(1, 5#32)] }), _, _, ?_, ?_, ?_, rfl, ?_, rfl⟩
    all_goals first | decide +kernel | (constructor <;> decide +kernel)
  · refine ⟨0, fz 0, ?_, ?_, ?_⟩
    all_goals first | decide +kernel | (constructor <;> decide +kernel)
  · refine ⟨0, 0, fz 0, _, _, ?_, ?_, rfl, rfl, ?_, ?_⟩
    all_goals first | decide +kernel | (constructor <;> decide +kernel)
  · refine ⟨0, (fz 0).setMotif 0 { shuttleIn := [{ }] }, _, ?_, ?_, some_eta ?_⟩
    all_goals first | decide +kernel | (constructor <;> decide +kernel)
  · refine ⟨0, (fz 0 { fzCore 0 with rxStarted := true }).setMotif 0 { shuttleIn := [{ }] }, _, ?_, ?_, ?_, some_eta ?_⟩
    all_goals first | decide +kernel | (constructor <;> decide +kernel)
  · refine ⟨0, fz 0, ?_⟩
    all_goals first | decide +kernel | (constructor <;> decide +kernel)
  · refine ⟨fz 68, ?_⟩
    all_goals first | decide +kernel | (constructor <;> decide +kernel)
  · refine ⟨68, fz 68, ?_, ?_, ?_⟩
    all_goals first | decide +kernel | (constructor <;> decide +kernel)
  · refine ⟨67, 0, fz 67, _, ?_, ?_, ?_, rfl⟩
    all_goals first | decide +kernel | (constructor <;> decide +kernel)
  · refine ⟨0, fz 0, ?_, ?_⟩
    all_goals first | decide +kernel | (constructor <;> decide +kernel)
  · refine ⟨67, 15, (fz 67).setCore (hoopMotif 3 15) (fzCore 63), ?_, ?_, ?_, ?_, ?_, ?_, ?_⟩
    all_goals first | decide +kernel | (constructor <;> decide +kernel)
  · refine ⟨67, 15, fz 67, ?_, ?_, ?_, ?_, ?_⟩
    all_goals first | decide +kernel | (constructor <;> decide +kernel)
  · refine ⟨68, 0, _, fz 68, ?_, ?_, ?_, ?_, rfl, ?_⟩
    all_goals first | decide +kernel | (constructor <;> decide +kernel)

/-- Each clause of FizhaigFloat. -/
theorem test_fizhaig_float_hyps :
    (∃ (c : Nat) (s : State), FpRuns c s) ∧
    (∃ (c : Nat) (ra : Nat) (imm : Nat) (a : Nat) (o : Nat) (ecc : Nat) (s : State), FpRuns c s ∧ a = (fzEa c ra imm s).toNat ∧ a % 4 = 0 ∧ fzAllowed
      c (s.core c) (s.core c).here false a = true ∧ fzPlace c (s.core c) a = .data o ∧ ecc ≠ 2) ∧
    (∃ (c : Nat) (ra : Nat) (imm : Nat) (a : Nat) (o : Nat) (s : State), FpRuns c s ∧ a = (fzEa c ra imm s).toNat ∧ a % 4 = 0 ∧ fzAllowed c (s.core
      c) (s.core c).here true a = true ∧ fzPlace c (s.core c) a = .data o) ∧
    (∃ (c : Nat) (s : State), FzRuns c s ∧ fpMode c (s.core c) = 0) ∧
    (∃ (c : Nat) (s : State), FzRuns c s ∧ fpMode c (s.core c) = 1 ∧ fpsaOf c (s.core c).cur (s.core c) = 0) ∧
    (∃ (c : Nat) (s : State), FzRuns c s ∧ fpMode c (s.core c) = 1 ∧ fpsaOf c (s.core c).cur (s.core c) ≠ 0 ∧ (s.core c).cur ≠ (s.core c).fpown) ∧
    (∃ (c : Nat) (a : Nat) (s : State), FzRuns c s ∧ (s.core c).here.sys = true ∧ fpMode c (s.core c) = 1 ∧ (s.core c).cur = (s.core c).fpown ∧ a =
      fpsaOf c (s.core c).cur (s.core c) ∧ a ≠ 0 ∧ fpAreaOk c (s.core c) (s.core c).here.planeB a = true) ∧
    (∃ (c : Nat) (a : Nat) (n : Nat) (s : State), FzRuns c s ∧ (s.core c).here.sys = true ∧ fpMode c (s.core c) = 1 ∧ (s.core c).cur = (s.core
      c).fpown ∧ a = fpsaOf c (s.core c).cur (s.core c) ∧ a ≠ 0 ∧ fpAreaOk c (s.core c) (s.core c).here.planeB a = true ∧ n = (fzWord c (s.core c) (a
      + 4)).toNat % 16) ∧
    (∃ (c : Nat) (s : State), FzRuns c s ∧ (s.core c).here.sys = true ∧ fpMode c (s.core c) = 1 ∧ fpsaOf c (s.core c).cur (s.core c) ≠ 0 ∧ (s.core
      c).cur ≠ (s.core c).fpown) ∧
    (∃ (c : Nat) (a : Nat) (s : State) (u : State) (x : Core) (y : Core), FzRuns c s ∧ x = s.core c ∧ x.here.sys = true ∧ fpMode c x = 2 ∧ fpsaOf c
      x.cur x ≠ 0 ∧ x.cur ≠ x.fpown ∧ fpSwap c x = .inr y ∧ u = countSwap c (s.setCore c y) ∧ a = fpsaOf c (u.core c).cur (u.core c) ∧ fpAreaOk c
      (u.core c) (u.core c).here.planeB a = true ∧ fpMode c (u.core c) = 2) := by
  refine ⟨?_, ?_, ?_, ?_, ?_, ?_, ?_, ?_, ?_, ?_⟩
  · refine ⟨64, fpState, ?_⟩
    all_goals first | decide +kernel | (constructor <;> decide +kernel) | (constructor <;> first | decide +kernel | (constructor <;> decide +kernel))
  · refine ⟨64, 1, 0, _, 0x7FFC, 0, fpState [(1, 0x17FFC#32)], ?_, rfl, ?_, ?_, ?_, ?_⟩
    all_goals first | decide +kernel | (constructor <;> decide +kernel) | (constructor <;> first | decide +kernel | (constructor <;> decide +kernel))
  · refine ⟨64, 1, 0, _, 0x7FFC, fpState [(1, 0x17FFC#32)], ?_, rfl, ?_, ?_, ?_⟩
    all_goals first | decide +kernel | (constructor <;> decide +kernel) | (constructor <;> first | decide +kernel | (constructor <;> decide +kernel))
  · refine ⟨64, fz 64, ?_, ?_⟩
    all_goals first | decide +kernel | (constructor <;> decide +kernel)
  · refine ⟨64, fz 64 (sup { } []), ?_, ?_, ?_⟩
    all_goals first | decide +kernel | (constructor <;> decide +kernel)
  · refine ⟨64, fz 64 { sup { ssb := 0x10010#32 } [(4, 0x10100)] with fpown := 2 }, ?_, ?_, ?_, ?_⟩
    all_goals first | decide +kernel | (constructor <;> decide +kernel)
  · refine ⟨64, _, fpState, ?_, ?_, ?_, ?_, rfl, ?_, ?_⟩
    all_goals first | decide +kernel | (constructor <;> decide +kernel)
  · refine ⟨64, _, _, fpState, ?_, ?_, ?_, ?_, rfl, ?_, ?_, rfl⟩
    all_goals first | decide +kernel | (constructor <;> decide +kernel)
  · refine ⟨64, fz 64 { sup { ssb := 0x10010#32 } [(4, 0x10100)] with fpown := 2 }, ?_, ?_, ?_, ?_, ?_⟩
    all_goals first | decide +kernel | (constructor <;> decide +kernel)
  · refine ⟨64, _, fz 64 { sup { ssb := 0x10010#32 } [(4, 0x10100)] 2 with fpown := 2 }, _, _, _, ?_, rfl, ?_, ?_, ?_, ?_, inr_eta ?_, rfl, rfl, ?_,
      ?_⟩
    all_goals first | decide +kernel | (constructor <;> decide +kernel)

/-- Each clause of FizhaigContexts. -/
theorem test_fizhaig_contexts_hyps :
    (∃ (c : Nat) (s : State) (x : Core), FzRuns c s ∧ x = s.core c ∧ SaveOk c x.cur x) ∧
    (∃ (c : Nat) (s : State) (x : Core), FzRuns c s ∧ x = s.core c ∧ SaveOk c x.cur x) ∧
    (∃ (c : Nat) (n : Nat) (s : State) (x : Core), FzRuns c s ∧ x = s.core c ∧ saveBank c x.cur false x = .inl n) ∧
    (∃ (c : Nat) (n : Nat) (s : State) (x : Core), FzRuns c s ∧ x = s.core c ∧ saveBank c x.cur true x = .inl n) ∧
    (∃ (c : Nat) (ecc : Nat) (s : State) (u : State) (x : Core), FzRuns c s ∧ ecc ≠ 2 ∧ u = fzEcc ecc s ∧ x = u.core c ∧ RestoreOk c x.cur false x) ∧
    (∃ (c : Nat) (ecc : Nat) (s : State) (u : State) (x : Core), FzRuns c s ∧ ecc ≠ 2 ∧ u = fzEcc ecc s ∧ x = u.core c ∧ RestoreOk c x.cur true x) ∧
    (∃ (c : Nat) (n : Nat) (ecc : Nat) (s : State) (u : State) (x : Core), FzRuns c s ∧ ecc ≠ 2 ∧ u = fzEcc ecc s ∧ x = u.core c ∧ restoreBank c
      x.cur false x.here.sys x = .inl n) ∧
    (∃ (c : Nat) (n : Nat) (ecc : Nat) (s : State) (u : State) (x : Core), FzRuns c s ∧ ecc ≠ 2 ∧ u = fzEcc ecc s ∧ x = u.core c ∧ restoreBank c
      x.cur true x.here.sys x = .inl n) ∧
    (∃ (c : Nat) (ra : Nat) (ecc : Nat) (a : Nat) (s : State) (u : State) (x : Core), FzRuns c s ∧ ecc ≠ 2 ∧ u = fzEcc ecc s ∧ x = u.core c ∧ a =
      ((s.core c).here.g ra).toNat ∧ ccbOk c x a = false) ∧
    (∃ (c : Nat) (ra : Nat) (ecc : Nat) (a : Nat) (s : State) (u : State) (x : Core), FzRuns c s ∧ ecc ≠ 2 ∧ u = fzEcc ecc s ∧ x = u.core c ∧ a =
      ((s.core c).here.g ra).toNat ∧ ccbOk c x a = true ∧ x.here.resident = true ∧ x.here.ssb.toNat = a + 16) ∧
    (∃ (c : Nat) (ra : Nat) (ecc : Nat) (a : Nat) (k : Nat) (s : State) (u : State) (x : Core), FzRuns c s ∧ ecc ≠ 2 ∧ u = fzEcc ecc s ∧ x = u.core c
      ∧ a = ((s.core c).here.g ra).toNat ∧ ccbOk c x a = true ∧ ¬ (x.here.resident = true ∧ x.here.ssb.toNat = a + 16) ∧ bit (fzWord c x (a +
      8)).toNat 0 = true ∧ k = field (fzWord c x (a + 8)).toNat 4 1 ∧ (ctxBanks c x x.here.planeB).contains k = true) ∧
    (∃ (c : Nat) (ra : Nat) (ecc : Nat) (a : Nat) (f : Nat) (s : State) (u : State) (x : Core), FzRuns c s ∧ ecc ≠ 2 ∧ u = fzEcc ecc s ∧ x = u.core c
      ∧ a = ((s.core c).here.g ra).toNat ∧ ccbOk c x a = true ∧ bit (fzWord c x (a + 8)).toNat 0 = false ∧ ¬ (x.here.resident = true ∧
      x.here.ssb.toNat = a + 16) ∧ (ctxBanks c x x.here.planeB).find? (fun k => !(x.bank k).resident && k != x.cur) = some f ∧ CtxEnters c f a
      (ctxLeft x)) ∧
    (∃ (c : Nat) (ra : Nat) (ecc : Nat) (a : Nat) (v : Nat) (s : State) (u : State) (x : Core), FzRuns c s ∧ ecc ≠ 2 ∧ u = fzEcc ecc s ∧ x = u.core c
      ∧ a = ((s.core c).here.g ra).toNat ∧ ccbOk c x a = true ∧ bit (fzWord c x (a + 8)).toNat 0 = false ∧ ¬ (x.here.resident = true ∧
      x.here.ssb.toNat = a + 16) ∧ (ctxBanks c x x.here.planeB).find? (fun k => !(x.bank k).resident && k != x.cur) = none ∧ victim x (ctxBanks c x
      x.here.planeB) = some v ∧ Evictable c v (ctxLeft x) ∧ CtxEnters c v a (evicted c v (ctxLeft x))) ∧
    (∃ (c : Nat) (ra : Nat) (ecc : Nat) (a : Nat) (v : Nat) (s : State) (u : State) (x : Core), FzRuns c s ∧ ecc ≠ 2 ∧ u = fzEcc ecc s ∧ x = u.core c
      ∧ a = ((s.core c).here.g ra).toNat ∧ ccbOk c x a = true ∧ bit (fzWord c x (a + 8)).toNat 0 = false ∧ ¬ (x.here.resident = true ∧
      x.here.ssb.toNat = a + 16) ∧ (ctxBanks c x x.here.planeB).find? (fun k => !(x.bank k).resident && k != x.cur) = none ∧ victim x (ctxBanks c x
      x.here.planeB) = some v ∧ ((ctxLeft x).bank v).ssl.toNat < ((ctxLeft x).bank v).ssp.toNat + 160) ∧
    (∃ (c : Nat) (s : State), FzRuns c s) ∧
    (∃ (c : Nat) (ecc : Nat) (s : State) (u : State) (x : Core), FzRuns c s ∧ ecc ≠ 2 ∧ u = fzEcc ecc s ∧ x = u.core c ∧ (s.core c).here.sys = true ∧
      (s.core c).cur = 16) ∧
    (∃ (c : Nat) (ecc : Nat) (a : Nat) (s : State) (t : State) (x : Core) (p : Word) (st : Word) (cs : Word), FzRuns c s ∧ x = s.core c ∧ x.here.sys
      = true ∧ x.cur ≠ 16 ∧ a = (x.here.g 30).toNat ∧ a % 4 = 0 ∧ fzAllowed c x x.here false a = true ∧ fzAllowed c x x.here false (a + 12) = true ∧
      (match fzPlace c x a with | .noc _ | .scratch _ => false | _ => true) = true ∧ frameRead c a ecc s = (some (p, st, cs), t)) ∧
    (∃ (c : Nat) (ecc : Nat) (a : Nat) (o : Nat) (s : State) (t : State) (x : Core) (p : Word) (st : Word) (cs : Word), FzRuns c s ∧ x = s.core c ∧
      x.here.sys = true ∧ x.cur ≠ 16 ∧ a = (x.here.g 30).toNat ∧ a % 4 = 0 ∧ fzAllowed c x x.here false a = true ∧ fzAllowed c x x.here false (a +
      12) = true ∧ fzPlace c x a = .scratch o ∧ spOn s c (spBank o) = true ∧ bankTurn s c (spBank o) (shuttleAsk s c (spBank o)) = true ∧ frameRead c
      a ecc (takeTurn c (shuttleAsk s c (spBank o)) s) = (some (p, st, cs), t)) ∧
    (∃ (c : Nat) (a : Nat) (s : State) (x : Core), FzRuns c s ∧ x = s.core c ∧ x.here.sys = true ∧ x.cur ≠ 16 ∧ a = (x.here.g 30).toNat ∧ a % 4 ≠ 0) := by
  refine ⟨?_, ?_, ?_, ?_, ?_, ?_, ?_, ?_, ?_, ?_, ?_, ?_, ?_, ?_, ?_, ?_, ?_, ?_, ?_⟩
  · refine ⟨64, fz 64 (sup { ssp := 0x10020#32, ssb := 0x10010#32, ssl := 0x10800#32 } []), _, ?_, rfl, ?_⟩
    all_goals first | decide +kernel | (constructor <;> decide +kernel)
  · refine ⟨64, fz 64 (sup { ssp := 0x10020#32, ssb := 0x10010#32, ssl := 0x10800#32 } []), _, ?_, rfl, ?_⟩
    all_goals first | decide +kernel | (constructor <;> decide +kernel)
  · refine ⟨0, 4, fz 0, _, ?_, rfl, ?_⟩
    all_goals first | decide +kernel | (constructor <;> decide +kernel)
  · refine ⟨0, 4, fz 0, _, ?_, rfl, ?_⟩
    all_goals first | decide +kernel | (constructor <;> decide +kernel)
  · refine ⟨64, 0, fz 64 (sup { ssp := 0x10100#32, ssb := 0x10010#32, ssl := 0x10800#32 } [(0xFC, 0x100B0), (0xB0, 0)]), _, _, ?_, ?_, rfl, rfl, ?_⟩
    all_goals first | decide +kernel | (constructor <;> decide +kernel)
  · refine ⟨64, 1, fz 64 (sup { ssp := 0x10100#32, ssb := 0x10010#32, ssl := 0x10800#32 } [(0xFC, 0x100B0), (0xB0, 1)]), _, _, ?_, ?_, rfl, rfl, ?_⟩
    all_goals first | decide +kernel | (constructor <;> decide +kernel)
  · refine ⟨0, 9, 0, fz 0, _, _, ?_, ?_, rfl, rfl, ?_⟩
    all_goals first | decide +kernel | (constructor <;> decide +kernel)
  · refine ⟨0, 9, 0, fz 0, _, _, ?_, ?_, rfl, rfl, ?_⟩
    all_goals first | decide +kernel | (constructor <;> decide +kernel)
  · refine ⟨64, 0, 0, _, fz 64, _, _, ?_, ?_, rfl, rfl, rfl, ?_⟩
    all_goals first | decide +kernel | (constructor <;> decide +kernel)
  · refine ⟨64, 1, 0, _, fz 64 (sup { regs := [(1, 0x10020#32)], resident := true, ssb := 0x10030#32 } [(0x20, 0x10030), (0x2C, 0x10100)]), _, _, ?_,
      ?_, rfl, rfl, rfl, ?_, ?_, ?_⟩
    all_goals first | decide +kernel | (constructor <;> decide +kernel)
  · refine ⟨0, 1, 0, _, _, fz 0 (shut { regs := [(1, 0x10020#32)] } [(0x20, 0x10030), (0x28, 5), (0x2C, 0x10100)]), _, _, ?_, ?_, rfl, rfl, rfl, ?_,
      ?_, ?_, rfl, ?_⟩
    all_goals first | decide +kernel | (constructor <;> decide +kernel)
  · refine ⟨0, 1, 0, _, 2, fz 0 (shut { regs := [(1, 0x10020#32)] } away), _, _, ?_, ?_, rfl, rfl, rfl, ?_, ?_, ?_, ?_, ?_⟩
    all_goals first | decide +kernel | (constructor <;> decide +kernel) | (constructor <;> first | decide +kernel | (constructor <;> decide +kernel))
  · refine ⟨0, 1, 0, _, 2, fz 0 (fullShut 0x10A00#32), _, _, ?_, ?_, rfl, rfl, rfl, ?_, ?_, ?_, ?_, ?_, ?_, ?_⟩
    all_goals first | decide +kernel | (constructor <;> decide +kernel) | (constructor <;> first | decide +kernel | (constructor <;> decide +kernel))
  · refine ⟨0, 1, 0, _, _, fz 0 (fullShut 0x10820#32), _, _, ?_, ?_, rfl, rfl, rfl, ?_, ?_, ?_, ?_, some_eta ?_, ?_⟩
    all_goals first | decide +kernel | (constructor <;> decide +kernel)
  · refine ⟨0, fz 0, ?_⟩
    all_goals first | decide +kernel | (constructor <;> decide +kernel)
  · refine ⟨0, 0, fz 0 { fzCore 0 with cur := 16 }, _, _, ?_, ?_, rfl, rfl, ?_, ?_⟩
    all_goals first | decide +kernel | (constructor <;> decide +kernel)
  · refine ⟨0, 0, _, fz 0 (shut { regs := [(30, 0x10100#32)] } []), _, _, _, _, _, ?_, rfl, ?_, ?_, rfl, ?_, ?_, ?_, ?_, frame_eta ?_⟩
    all_goals first | decide +kernel | (constructor <;> decide +kernel)
  · refine ⟨0, 0, _, 0, fz 0 (shut { regs := [(30, 0x01000000#32)] } []), _, _, _, _, _, ?_, rfl, ?_, ?_, rfl, ?_, ?_, ?_, ?_, ?_, ?_, frame_eta ?_⟩
    all_goals first | decide +kernel | (constructor <;> decide +kernel)
  · refine ⟨0, _, fz 0 (shut { regs := [(30, 1#32)] } []), _, ?_, rfl, ?_, ?_, rfl, ?_⟩
    all_goals first | decide +kernel | (constructor <;> decide +kernel)

/-- Each clause of FizhaigSystem. -/
theorem test_fizhaig_system_hyps :
    (∃ (c : Nat) (s : State), FzRuns c s ∧ (s.core c).here.sys = true) ∧
    (∃ (c : Nat) (s : State) (u : State), FzRuns c s ∧ u = fzAdvance c s ∧ wakes s c = false) ∧
    (∃ (c : Nat) (s : State), FzRuns c s ∧ wakes s c = true) ∧
    (∃ (c : Nat) (s : State), wakes s c = true) ∧
    (∃ (c : Nat) (s : State), wakes s c = false) ∧
    (∃ (c : Nat) (s : State), FzRuns c s ∧ trapHeld c s = none) ∧
    (∃ (c : Nat) (w : Nat) (s : State), FzRuns c s ∧ trapHeld c s = none ∧ isOpcode (w % 2 ^ 32) = false) ∧
    (∃ (c : Nat) (w : Nat) (s : State) (u : State), FzRuns c s ∧ trapHeld c s = some u ∧ isOpcode (w % 2 ^ 32) = false) ∧
    (∃ (c : Nat) (s : State), FzRuns c s ∧ (s.core c).writes = []) ∧
    (∃ (c : Nat) (s : State), FzRuns c s ∧ (s.core c).writes ≠ []) ∧
    (∃ (c : Nat) (s : State), FzRuns c s ∧ (s.core c).here.sys = true) ∧
    (∃ (c : Nat) (s : State), FzRuns c s ∧ (s.core c).here.sys = true) ∧
    (∃ (c : Nat) (s : State), FzRuns c s ∧ (s.core c).here.sys = false) ∧
    (∃ (c : Nat) (rd : Nat) (ra : Nat) (imm : Nat) (a : Nat) (n : Nat) (s : State) (k : CKind) (i : Instr), FzRuns c s ∧ (s.core c).here.sys = false
      ∧ a = (fzEa c ra imm s).toNat ∧ a < 0x10000 ∧ a % n = 0 ∧ ctrlKind c (a / 4 * 4) = some (k, true) ∧ ((n = 4 ∧ (i = .fzClw c rd ra imm ∨ i =
      .fzCsw c rd ra imm)) ∨ (n = 2 ∧ (i = .fzClh c rd ra imm ∨ i = .fzCsh c rd ra imm)) ∨ (n = 1 ∧ (i = .fzClb c rd ra imm ∨ i = .fzCsb c rd ra
      imm)) ∨ (n = 8 ∧ rd % 2 = 0 ∧ (i = .fzCld c rd ra imm ∨ i = .fzCsd c rd ra imm)))) := by
  refine ⟨?_, ?_, ?_, ?_, ?_, ?_, ?_, ?_, ?_, ?_, ?_, ?_, ?_, ?_⟩
  · refine ⟨0, fz 0, ?_, ?_⟩
    all_goals first | decide +kernel | (constructor <;> decide +kernel)
  · refine ⟨0, fz 0, _, ?_, rfl, ?_⟩
    all_goals first | decide +kernel | (constructor <;> decide +kernel)
  · refine ⟨0, (fz 0).setMotif 0 { shuttleIn := [{ }] }, ?_, ?_⟩
    all_goals first | decide +kernel | (constructor <;> decide +kernel)
  · refine ⟨0, (fz 0).setMotif 0 { shuttleIn := [{ }] }, ?_⟩
    all_goals decide +kernel
  · refine ⟨0, fz 0, ?_⟩
    all_goals decide +kernel
  · refine ⟨0, fz 0, ?_, ?_⟩
    all_goals first | decide +kernel | (constructor <;> decide +kernel)
  · refine ⟨0, 2^32 - 1, fz 0, ?_, ?_, ?_⟩
    all_goals first | decide +kernel | (constructor <;> decide +kernel)
  · refine ⟨0, 2^32 - 1, (fz 0 (({ shut { regs := [(30, 0x01000010#32)] } [] with splo := 0x01000000, sphi := 0x01000100 } : Core))).setMotif 0
      { sb := [{ committed := true }] }, _, ?_, some_eta ?_, ?_⟩
    all_goals first | decide +kernel | (constructor <;> decide +kernel)
  · refine ⟨0, fz 0, ?_, ?_⟩
    all_goals first | decide +kernel | (constructor <;> decide +kernel)
  · refine ⟨0, fz 0 { fzCore 0 with writes := [(0, 0)] }, ?_, ?_⟩
    all_goals first | decide +kernel | (constructor <;> decide +kernel)
  · refine ⟨0, fz 0, ?_, ?_⟩
    all_goals first | decide +kernel | (constructor <;> decide +kernel)
  · refine ⟨0, fz 0, ?_, ?_⟩
    all_goals first | decide +kernel | (constructor <;> decide +kernel)
  · refine ⟨0, fz 0 (fzCore 0 { sys := false }), ?_, ?_⟩
    all_goals first | decide +kernel | (constructor <;> decide +kernel)
  · refine ⟨0, 0, 0, 0, _, 4, fz 0 (fzCore 0 { sys := false }), .rw, .fzClw 0 0 0 0, ?_, ?_, rfl, ?_, ?_, ?_, Or.inl ⟨rfl, Or.inl rfl⟩⟩
    all_goals first | decide +kernel | (constructor <;> decide +kernel)

/-- Each clause of FizhaigEvents. -/
theorem test_fizhaig_events_hyps :
    (∃ (c : Nat) (s : State), fzIssues s c = true ∧ fzFetchable c (s.core c) (s.core c).here = false) ∧
    (∃ (n : Nat) (l : Nat) (k : Nat) (f : Nat) (s : State) (u : State) (x : Core) (y : Core) (e : FBank), x = s.core 68 ∧ x.started = true ∧ x.state
      = 0 ∧ x.here.ie = true ∧ interruptible x.here = true ∧ nextSource 68 x = some n ∧ l = sourceLevel x n ∧ x.here.level < l ∧ k = boundBank
      x.ibindL x.ibindH l ∧ y = x.setHere { x.here with wait := .none } ∧ e =
      { y.bank k with prev := x.cur, level := l, ie := false, wait := .none, planeB := false, pc := BitVec.ofNat 32 (x.vbaseA + 0x200 + 16 * l) } ∧
      (s.setCore 68 { y.setBank k e with cur := k, ipend := withBit x.ipend n false }).fresh = (f, u)) ∧
    (∃ (m : Nat) (s : State) (x : Core), m < 64 ∧ x = s.core m ∧ (s.motif m).decided ≠ [] ∧ x.state ≠ 1 ∧ x.cur ≠ 1) ∧
    (∃ (s : State), (s.core 68).started = true ∧ (s.core 68).warned = false ∧ (s.core 68).wdog + wdogNs s / 2 ≤ s.time.clk) ∧
    (∃ (s : State), (s.core 68).started = true ∧ (s.core 68).wdog + wdogNs s ≤ s.time.clk) ∧
    (∃ (h : Nat), h < 4) ∧
    (∃ (s : State) (path : Nat) (h : Nat), h < 4 ∧ Accepts s path (0x3031 + h) 7 1 1 ∧ s.obj (0x3031 + h) 1 = 1) ∧
    (∃ (s : State) (path : Nat) (v : Nat), Accepts s path 0x3038 9 1 v ∧ v < 64 ∧ ((mailArrives s).core v).state = 1) := by
  refine ⟨?_, ?_, ?_, ?_, ?_, ?_, ?_, ?_⟩
  · refine ⟨0, fz 0 (fzCore 0 { pc := 0x500000#32 }), ?_, ?_⟩
    all_goals decide +kernel
  · refine ⟨4, _, _, _, fz 68 { fzCore 68 { ie := true } with ilvl := 2 * 16^4, ipend := 2^4, ibindL := 3 * 16^2 }, _, _, _, _, rfl, ?_, ?_, ?_, ?_,
      ?_, rfl, ?_, rfl, rfl, rfl, rfl⟩
    all_goals decide +kernel
  · refine ⟨63, (fz 63).setMotif 63 { decided := [5] }, _, ?_, rfl, ?_, ?_, ?_⟩
    all_goals decide +kernel
  · refine ⟨at_ (10^12) (fz 68), ?_, ?_, ?_⟩
    all_goals decide +kernel
  · refine ⟨at_ (10^12) (fz 68), ?_, ?_⟩
    all_goals decide +kernel
  · refine ⟨3, ?_⟩
    all_goals decide +kernel
  · refine ⟨od [(0x3034, 1, 1)], 2, 3, ?_, ?_, ?_⟩
    all_goals first | decide +kernel | (constructor <;> decide +kernel)
  · refine ⟨up.setCore 63 { fzCore 63 with state := 1 }, 2, 63, ?_, ?_, ?_⟩
    all_goals first | decide +kernel | (constructor <;> decide +kernel)

/-- Each clause of FizhaigWords. -/
theorem test_fizhaig_words_hyps :
    (∃ (i : Instr) (c : Nat) (e : Nat) (w : Nat), i.wf = true ∧ encodeFizhaig i = some (c, e, w)) ∧
    (∃ (i : Instr) (j : Instr) (x : Nat × Nat × Nat), i.wf = true ∧ j.wf = true ∧ encodeFizhaig i = some x ∧ encodeFizhaig j = some x) ∧
    (∃ (v : Nat), v < 2 ^ 15) := by
  refine ⟨?_, ?_, ?_⟩
  · refine ⟨.fzAdd 0 1 2 3, 0, 0, 0x221800, ?_, rfl⟩
    all_goals decide +kernel
  · refine ⟨.fzAdd 0 1 2 3, .fzAdd 0 1 2 3, (0, 0, 0x221800), ?_, ?_, rfl, rfl⟩
    all_goals decide +kernel
  · refine ⟨0, ?_⟩
    all_goals decide +kernel

/-- StepFront. -/
theorem test_step_front_hyps :
    ∃ (c : Instr) (cs : List Instr) (s : State), s.pending = c :: cs := by
  refine ⟨_, _, { od [] with pending := [.dcReferenceLoss] }, cons_eta ?_⟩
  all_goals decide +kernel

/-- StepIdle. -/
theorem test_step_idle_hyps :
    ∃ (s : State), s.pending = [] := by
  refine ⟨up, ?_⟩
  all_goals decide +kernel

/-- CommandsGoOnward. -/
theorem test_commands_go_onward_hyps :
    ∃ (i : Instr) (s : State) (t : State), Inv s ∧ exec i s = .next t := by
  refine ⟨.fzAdd 0 0 0 0, up, up, ?_, rfl⟩
  all_goals first | decide +kernel | (constructor <;> decide +kernel)

/-- StepKeepsInv. -/
theorem test_step_keeps_inv_hyps :
    ∃ (s : State) (t : State), Inv s ∧ step s = .next t := by
  refine ⟨up, tick up, ?_, rfl⟩
  all_goals first | decide +kernel | (constructor <;> decide +kernel)

/-- TimerSettingsRefused. -/
theorem test_timer_settings_refused_hyps :
    ∃ (path : Nat) (n : Nat) (sub : Nat) (size : Nat) (bs : FrameData) (s : State), path < 4 ∧ n < 16 ∧ (sub = 2 ∧ size = 8 ∨ sub = 3 ∧ size = 4 ∨
      sub = 4 ∧ size = 2) ∧ bs.length = size ∧ Serves s { path := path, kind := 1, ix := 0x2110 + n, sub := sub, data := bs.map (BitVec.ofNat 8) } ∧
      (s.timer s.activeB n).enable = true := by
  refine ⟨2, 15, 4, 2, [1, 2], up.setTimer false 15 { enable := true }, ?_, ?_, ?_, ?_, ?_, ?_⟩
  all_goals first | decide +kernel | (constructor <;> decide +kernel)

/-- GatherFaultWords. -/
theorem test_gather_fault_words_hyps :
    ∃ (code : Nat) (k : Nat), code < 16 ∧ k < 16 := by
  refine ⟨15, 15, ?_, ?_⟩
  all_goals decide +kernel

/-- FizhaigExceptionEntry. -/
theorem test_fizhaig_exception_entry_hyps :
    ∃ (c : Nat) (code : Nat) (addr : Nat) (o : Nat) (pc : Word) (sp : Word) (imprecise : Bool) (inSeq : Bool) (s : State) (x : Core) (y : Core) (b :
      FBank) (a : Nat), x = s.core c ∧ b = x.here ∧ x.double = false ∧ sp = (if x.cur = 0 then b.g 30 else BitVec.ofNat 32 x.sphi) ∧ a = (sp -
      16#32).toNat ∧ sp.toNat % 16 = 0 ∧ x.splo ≤ a ∧ a < x.sphi ∧ fzAllowed c x { sys := true, planeB := b.planeB } true a = true ∧ fzPlace c x a =
      .data o ∧ y = (fzTrap c code addr pc imprecise inSeq s).core c := by
  refine ⟨64, 3, 5, 0xF0, 0#32, _, false, false, fz 64 (sup { regs := [(30, 0x10100#32)] } []), _, _, _, _, rfl, rfl, ?_, rfl, rfl, ?_, ?_, ?_, ?_, ?_, rfl⟩
  all_goals decide +kernel

end Sys2Proof.Tests
end

section
/-! Every command keeps the queue, the order of time, free values and fuses, and the invariant (R11, R12, R495, R498): the rows' own laws, put together
along the dispatch. -/

namespace Sys2Proof.Machine
open Sys2Proof

/-- The dispatch has one case for each row of the operation table, and each row keeps the relation by the law of its own meaning. -/
theorem exec_keeps {s0 s : State} (hs : Keeps s0 s) (i : Instr) : OutKeeps s0 (exec i s) := by
  cases i with
  | timeSourceWrite => exact execTimeSourceWrite_keeps hs
  | dcOffsetMeasurement => exact execDcOffsetMeasurement_keeps hs
  | dcReferenceLoss => exact execDcReferenceLoss_keeps hs
  | ppsEdge => exact execPpsEdge_keeps hs
  | ppsReferenceLoss => exact execPpsReferenceLoss_keeps hs
  | ppsNextWrite => exact execPpsNextWrite_keeps hs
  | timeStep => exact execTimeStep_keeps hs
  | ppsOutRise => exact execPpsOutRise_keeps hs
  | ppsOutFall => exact execPpsOutFall_keeps hs
  | epochBoundary => exact execEpochBoundary_keeps hs
  | tokenTimerFiring => exact execTokenTimerFiring_keeps hs
  | timerEnableWrite => exact execTimerEnableWrite_keeps hs
  | dualClockQueueDelivery => exact execDualClockQueueDelivery_keeps hs
  | mailboxExchange => exact execMailboxExchange_keeps hs
  | cellPass => exact execCellPass_keeps hs
  | cellAdd => exact execCellAdd_keeps hs
  | cellSub => exact execCellSub_keeps hs
  | cellNeg => exact execCellNeg_keeps hs
  | cellAbs => exact execCellAbs_keeps hs
  | cellAnd => exact execCellAnd_keeps hs
  | cellOr => exact execCellOr_keeps hs
  | cellXor => exact execCellXor_keeps hs
  | cellAndn => exact execCellAndn_keeps hs
  | cellNot => exact execCellNot_keeps hs
  | cellShl => exact execCellShl_keeps hs
  | cellShr => exact execCellShr_keeps hs
  | cellSar => exact execCellSar_keeps hs
  | cellRol => exact execCellRol_keeps hs
  | cellRor => exact execCellRor_keeps hs
  | cellCmpeq => exact execCellCmpeq_keeps hs
  | cellCmpne => exact execCellCmpne_keeps hs
  | cellCmplt => exact execCellCmplt_keeps hs
  | cellCmpltu => exact execCellCmpltu_keeps hs
  | cellCmple => exact execCellCmple_keeps hs
  | cellCmpleu => exact execCellCmpleu_keeps hs
  | cellSel => exact execCellSel_keeps hs
  | cellMin => exact execCellMin_keeps hs
  | cellMax => exact execCellMax_keeps hs
  | cellMinu => exact execCellMinu_keeps hs
  | cellMaxu => exact execCellMaxu_keeps hs
  | cellClz => exact execCellClz_keeps hs
  | cellAdds => exact execCellAdds_keeps hs
  | cellSubs => exact execCellSubs_keeps hs
  | cellAddsu => exact execCellAddsu_keeps hs
  | cellSubsu => exact execCellSubsu_keeps hs
  | cellSats => exact execCellSats_keeps hs
  | cellSatu => exact execCellSatu_keeps hs
  | cellMul => exact execCellMul_keeps hs
  | cellMulh => exact execCellMulh_keeps hs
  | cellMulhu => exact execCellMulhu_keeps hs
  | cellQmul31 => exact execCellQmul31_keeps hs
  | cellQmul16 => exact execCellQmul16_keeps hs
  | cellMac2 => exact execCellMac2_keeps hs
  | cellMac2u => exact execCellMac2u_keeps hs
  | cellMsu2 => exact execCellMsu2_keeps hs
  | cellMac2z => exact execCellMac2z_keeps hs
  | cellRdacc => exact execCellRdacc_keeps hs
  | cellFadd => exact execCellFadd_keeps hs
  | cellFsub => exact execCellFsub_keeps hs
  | cellFmul => exact execCellFmul_keeps hs
  | cellFma => exact execCellFma_keeps hs
  | cellFms => exact execCellFms_keeps hs
  | cellFnma => exact execCellFnma_keeps hs
  | cellFmin => exact execCellFmin_keeps hs
  | cellFmax => exact execCellFmax_keeps hs
  | cellFcmplt => exact execCellFcmplt_keeps hs
  | cellFcmple => exact execCellFcmple_keeps hs
  | cellFcmpeq => exact execCellFcmpeq_keeps hs
  | cellFtoi => exact execCellFtoi_keeps hs
  | cellFtoir => exact execCellFtoir_keeps hs
  | cellItof => exact execCellItof_keeps hs
  | cellFabs => exact execCellFabs_keeps hs
  | cellFneg => exact execCellFneg_keeps hs
  | cellFclass => exact execCellFclass_keeps hs
  | cellLut => exact execCellLut_keeps hs
  | cellLut4 => exact execCellLut4_keeps hs
  | cellSdiff => exact execCellSdiff_keeps hs
  | cellSlt => exact execCellSlt_keeps hs
  | cellSle => exact execCellSle_keeps hs
  | cellSadd => exact execCellSadd_keeps hs
  | cellSlater => exact execCellSlater_keeps hs
  | cellSearlier => exact execCellSearlier_keeps hs
  | cellLd => exact execCellLd_keeps hs
  | cellSt => exact execCellSt_keeps hs
  | cellGather => exact execCellGather_keeps hs
  | cellSteer => exact execCellSteer_keeps hs
  | cellDrop => exact execCellDrop_keeps hs
  | cellCancel => exact execCellCancel_keeps hs
  | tokenDelivery => exact execTokenDelivery_keeps hs
  | matchEntryWaitTimeout => exact execMatchEntryWaitTimeout_keeps hs
  | orderWindowReached => exact execOrderWindowReached_keeps hs
  | winnerSelection => exact execWinnerSelection_keeps hs
  | instanceDispatch => exact execInstanceDispatch_keeps hs
  | cancelWordArrival => exact execCancelWordArrival_keeps hs
  | bankPowerWrite => exact execBankPowerWrite_keeps hs
  | bankPowerTransitionDone => exact execBankPowerTransitionDone_keeps hs
  | gatherStart => exact execGatherStart_keeps hs
  | gatherElementRead => exact execGatherElementRead_keeps hs
  | scrubRead => exact execScrubRead_keeps hs
  | contextRepair => exact execContextRepair_keeps hs
  | tidGrantNotice => exact execTidGrantNotice_keeps hs
  | suspendWrite => exact execSuspendWrite_keeps hs
  | openingNotice => exact execOpeningNotice_keeps hs
  | closeReport => exact execCloseReport_keeps hs
  | closeHandover => exact execCloseHandover_keeps hs
  | closeNotice => exact execCloseNotice_keeps hs
  | commitNotice => exact execCommitNotice_keeps hs
  | childRecheck => exact execChildRecheck_keeps hs
  | storeBufferDrain => exact execStoreBufferDrain_keeps hs
  | reentryInject => exact execReentryInject_keeps hs
  | selvedgeEntryArrival => exact execSelvedgeEntryArrival_keeps hs
  | deadlineCheck => exact execDeadlineCheck_keeps hs
  | releaseInstant => exact execReleaseInstant_keeps hs
  | portBusyRelease => exact execPortBusyRelease_keeps hs
  | tidReturn => exact execTidReturn_keeps hs
  | laneMismatchReport => exact execLaneMismatchReport_keeps hs
  | abortNotice => exact execAbortNotice_keeps hs
  | replayNotice => exact execReplayNotice_keeps hs
  | noReplayNotice => exact execNoReplayNotice_keeps hs
  | replayServiceInsert => exact execReplayServiceInsert_keeps hs
  | replayStreamStart => exact execReplayStreamStart_keeps hs
  | remapStart => exact execRemapStart_keeps hs
  | remapComplete => exact execRemapComplete_keeps hs
  | clearSuspectWrite => exact execClearSuspectWrite_keeps hs
  | pageCopyComplete => exact execPageCopyComplete_keeps hs
  | dramPatrolScrub => exact execDramPatrolScrub_keeps hs
  | flitCrcError => exact execFlitCrcError_keeps hs
  | driveResyncComplete => exact execDriveResyncComplete_keeps hs
  | packetInjection => exact execPacketInjection_keeps hs
  | routeCacheRefillDone => exact execRouteCacheRefillDone_keeps hs
  | packetForward => exact execPacketForward_keeps hs
  | urgencyAgeing => exact execUrgencyAgeing_keeps hs
  | packetDelivery => exact execPacketDelivery_keeps hs
  | readRequest => exact execReadRequest_keeps hs
  | writeRequest => exact execWriteRequest_keeps hs
  | pullRequest => exact execPullRequest_keeps hs
  | readResp => exact execReadResp_keeps hs
  | writeAck => exact execWriteAck_keeps hs
  | pullResp => exact execPullResp_keeps hs
  | streamQueueAppend => exact execStreamQueueAppend_keeps hs
  | routeEntryWriteLazy => exact execRouteEntryWriteLazy_keeps hs
  | routeEntryWriteInvalidate => exact execRouteEntryWriteInvalidate_keeps hs
  | routeInvalidationComplete => exact execRouteInvalidationComplete_keeps hs
  | flushAllWrite => exact execFlushAllWrite_keeps hs
  | hoopBankPowerWrite => exact execHoopBankPowerWrite_keeps hs
  | hoopBankTransitionDone => exact execHoopBankTransitionDone_keeps hs
  | dramRequestService => exact execDramRequestService_keeps hs
  | islandWipeComplete => exact execIslandWipeComplete_keeps hs
  | cfgWidthSample => exact execCfgWidthSample_keeps hs
  | imageBeginDeviceLoad => exact execImageBeginDeviceLoad_keeps hs
  | imageBeginRegionReload => exact execImageBeginRegionReload_keeps hs
  | imageBeginShadowLoad => exact execImageBeginShadowLoad_keeps hs
  | imageBeginRecipeStore => exact execImageBeginRecipeStore_keeps hs
  | imageData => exact execImageData_keeps hs
  | imageEnd => exact execImageEnd_keeps hs
  | imageAbort => exact execImageAbort_keeps hs
  | loadCheckComplete => exact execLoadCheckComplete_keeps hs
  | sdoFrameRead => exact execSdoFrameRead_keeps hs
  | sdoFrameWrite => exact execSdoFrameWrite_keeps hs
  | sdoFrameCaRead => exact execSdoFrameCaRead_keeps hs
  | sdoFrameCaWrite => exact execSdoFrameCaWrite_keeps hs
  | bqWrite => exact execBqWrite_keeps hs
  | readStatus => exact execReadStatus_keeps hs
  | readSdoResponse => exact execReadSdoResponse_keeps hs
  | readBq => exact execReadBq_keeps hs
  | foeWriteRecipe => exact execFoeWriteRecipe_keeps hs
  | foeWriteShadow => exact execFoeWriteShadow_keeps hs
  | foeWriteRegion => exact execFoeWriteRegion_keeps hs
  | foeReadRecipe => exact execFoeReadRecipe_keeps hs
  | foeWriteFirmware => exact execFoeWriteFirmware_keeps hs
  | foeReadFirmware => exact execFoeReadFirmware_keeps hs
  | doneHighSeen => exact execDoneHighSeen_keeps hs
  | fabricStart => exact execFabricStart_keeps hs
  | regionDrained => exact execRegionDrained_keeps hs
  | regionLeaveReset => exact execRegionLeaveReset_keeps hs
  | controlStartLoad => exact execControlStartLoad_keeps hs
  | controlAcknowledge => exact execControlAcknowledge_keeps hs
  | coIdWrite => exact execCoIdWrite_keeps hs
  | tCWrite => exact execTCWrite_keeps hs
  | changeoverArm => exact execChangeoverArm_keeps hs
  | commitWrite => exact execCommitWrite_keeps hs
  | cancelWrite => exact execCancelWrite_keeps hs
  | prepareDeadline => exact execPrepareDeadline_keeps hs
  | changeoverInstant => exact execChangeoverInstant_keeps hs
  | oldPlaneRetire => exact execOldPlaneRetire_keeps hs
  | voteFrame => exact execVoteFrame_keeps hs
  | fzAdd => exact execFzAdd_keeps hs
  | fzSub => exact execFzSub_keeps hs
  | fzAnd => exact execFzAnd_keeps hs
  | fzOr => exact execFzOr_keeps hs
  | fzXor => exact execFzXor_keeps hs
  | fzAndn => exact execFzAndn_keeps hs
  | fzSll => exact execFzSll_keeps hs
  | fzSrl => exact execFzSrl_keeps hs
  | fzSra => exact execFzSra_keeps hs
  | fzRor => exact execFzRor_keeps hs
  | fzSlt => exact execFzSlt_keeps hs
  | fzSltu => exact execFzSltu_keeps hs
  | fzMin => exact execFzMin_keeps hs
  | fzMax => exact execFzMax_keeps hs
  | fzClz => exact execFzClz_keeps hs
  | fzMul => exact execFzMul_keeps hs
  | fzMulh => exact execFzMulh_keeps hs
  | fzMulhu => exact execFzMulhu_keeps hs
  | fzDiv => exact execFzDiv_keeps hs
  | fzDivu => exact execFzDivu_keeps hs
  | fzRem => exact execFzRem_keeps hs
  | fzRemu => exact execFzRemu_keeps hs
  | fzAddi => exact execFzAddi_keeps hs
  | fzAndi => exact execFzAndi_keeps hs
  | fzOri => exact execFzOri_keeps hs
  | fzXori => exact execFzXori_keeps hs
  | fzSlti => exact execFzSlti_keeps hs
  | fzSltiu => exact execFzSltiu_keeps hs
  | fzSlli => exact execFzSlli_keeps hs
  | fzSrli => exact execFzSrli_keeps hs
  | fzSrai => exact execFzSrai_keeps hs
  | fzLui => exact execFzLui_keeps hs
  | fzLw => exact execFzLw_keeps hs
  | fzLh => exact execFzLh_keeps hs
  | fzLhu => exact execFzLhu_keeps hs
  | fzLb => exact execFzLb_keeps hs
  | fzLbu => exact execFzLbu_keeps hs
  | fzSwap => exact execFzSwap_keeps hs
  | fzSw => exact execFzSw_keeps hs
  | fzSh => exact execFzSh_keeps hs
  | fzSb => exact execFzSb_keeps hs
  | fzClw => exact execFzClw_keeps hs
  | fzClh => exact execFzClh_keeps hs
  | fzClb => exact execFzClb_keeps hs
  | fzCld => exact execFzCld_keeps hs
  | fzCsw => exact execFzCsw_keeps hs
  | fzCsh => exact execFzCsh_keeps hs
  | fzCsb => exact execFzCsb_keeps hs
  | fzCsd => exact execFzCsd_keeps hs
  | fzBeq => exact execFzBeq_keeps hs
  | fzBne => exact execFzBne_keeps hs
  | fzBlt => exact execFzBlt_keeps hs
  | fzBge => exact execFzBge_keeps hs
  | fzBltu => exact execFzBltu_keeps hs
  | fzBgeu => exact execFzBgeu_keeps hs
  | fzJ => exact execFzJ_keeps hs
  | fzJal => exact execFzJal_keeps hs
  | fzJalr => exact execFzJalr_keeps hs
  | fzCtx => exact execFzCtx_keeps hs
  | fzSavl => exact execFzSavl_keeps hs
  | fzSavu => exact execFzSavu_keeps hs
  | fzRstl => exact execFzRstl_keeps hs
  | fzRstu => exact execFzRstu_keeps hs
  | fzSavf => exact execFzSavf_keeps hs
  | fzRstf => exact execFzRstf_keeps hs
  | fzRfe => exact execFzRfe_keeps hs
  | fzRfi => exact execFzRfi_keeps hs
  | fzWait => exact execFzWait_keeps hs
  | fzWaitWake => exact execFzWaitWake_keeps hs
  | fzSys => exact execFzSys_keeps hs
  | fzBrk => exact execFzBrk_keeps hs
  | fzFence => exact execFzFence_keeps hs
  | fzEi => exact execFzEi_keeps hs
  | fzDi => exact execFzDi_keeps hs
  | fzFadd => exact execFzFadd_keeps hs
  | fzFsub => exact execFzFsub_keeps hs
  | fzFmul => exact execFzFmul_keeps hs
  | fzFdiv => exact execFzFdiv_keeps hs
  | fzFsqrt => exact execFzFsqrt_keeps hs
  | fzFma => exact execFzFma_keeps hs
  | fzFms => exact execFzFms_keeps hs
  | fzFnma => exact execFzFnma_keeps hs
  | fzFmin => exact execFzFmin_keeps hs
  | fzFmax => exact execFzFmax_keeps hs
  | fzFcmplt => exact execFzFcmplt_keeps hs
  | fzFcmple => exact execFzFcmple_keeps hs
  | fzFcmpeq => exact execFzFcmpeq_keeps hs
  | fzFtoi => exact execFzFtoi_keeps hs
  | fzFtoir => exact execFzFtoir_keeps hs
  | fzItof => exact execFzItof_keeps hs
  | fzFmvgf => exact execFzFmvgf_keeps hs
  | fzFmvfg => exact execFzFmvfg_keeps hs
  | fzFabs => exact execFzFabs_keeps hs
  | fzFneg => exact execFzFneg_keeps hs
  | fzFlw => exact execFzFlw_keeps hs
  | fzFsw => exact execFzFsw_keeps hs
  | interruptEntry => exact execInterruptEntry_keeps hs
  | replayqPop => exact execReplayqPop_keeps hs
  | replayRequestWrite => exact execReplayRequestWrite_keeps hs
  | txdataAppend => exact execTxdataAppend_keeps hs
  | txlastSend => exact execTxlastSend_keeps hs
  | rxheadRead => exact execRxheadRead_keeps hs
  | rxdataPop => exact execRxdataPop_keeps hs
  | excountRead => exact execExcountRead_keeps hs
  | latchedPairRead => exact execLatchedPairRead_keeps hs
  | wdogWrite => exact execWdogWrite_keeps hs
  | pullreqWrite => exact execPullreqWrite_keeps hs
  | doorbellWrite => exact execDoorbellWrite_keeps hs
  | shctlStop => exact execShctlStop_keeps hs
  | shctlRestart => exact execShctlRestart_keeps hs
  | ibindWrite => exact execIbindWrite_keeps hs
  | watchdogWarning => exact execWatchdogWarning_keeps hs
  | watchdogExpiry => exact execWatchdogExpiry_keeps hs
  | mpRestartDone => exact execMpRestartDone_keeps hs
  | supervisorTimerExpiry => exact execSupervisorTimerExpiry_keeps hs
  | mpTimerExpiry => exact execMpTimerExpiry_keeps hs
  | supervisorRestartWrite => exact execSupervisorRestartWrite_keeps hs
  | shuttleRestartWrite => exact execShuttleRestartWrite_keeps hs
  | objectWrite => exact execObjectWrite_keeps hs
  | sdoUpload => exact execSdoUpload_keeps hs
  | sdoCompleteAccessRead => exact execSdoCompleteAccessRead_keeps hs
  | sdoCompleteAccessWrite => exact execSdoCompleteAccessWrite_keeps hs
  | sdoSegment => exact execSdoSegment_keeps hs
  | sdoSegmentTimeout => exact execSdoSegmentTimeout_keeps hs
  | sdoBlockRequest => exact execSdoBlockRequest_keeps hs
  | sdoAbortRequest => exact execSdoAbortRequest_keeps hs
  | sdoInfoObjectList => exact execSdoInfoObjectList_keeps hs
  | sdoInfoObjectDesc => exact execSdoInfoObjectDesc_keeps hs
  | sdoInfoEntryDesc => exact execSdoInfoEntryDesc_keeps hs
  | mailboxRepeatRequest => exact execMailboxRepeatRequest_keeps hs
  | secureResponseDue => exact execSecureResponseDue_keeps hs
  | saveWrite => exact execSaveWrite_keeps hs
  | saveComplete => exact execSaveComplete_keeps hs
  | restoreDefaultsWrite => exact execRestoreDefaultsWrite_keeps hs
  | lockWrite => exact execLockWrite_keeps hs
  | alStateRequest => exact execAlStateRequest_keeps hs
  | smWatchdogExpiry => exact execSmWatchdogExpiry_keeps hs
  | rxpdoBufferSwitch => exact execRxpdoBufferSwitch_keeps hs
  | txpdoCapture => exact execTxpdoCapture_keeps hs
  | ethercatFrameError => exact execEthercatFrameError_keeps hs
  | syncEvent => exact execSyncEvent_keeps hs
  | latchEvent => exact execLatchEvent_keeps hs
  | siiWrite => exact execSiiWrite_keeps hs
  | emcyMailboxRead => exact execEmcyMailboxRead_keeps hs
  | canEmcyFrameSent => exact execCanEmcyFrameSent_keeps hs
  | nmtStartRemoteNode => exact execNmtStartRemoteNode_keeps hs
  | nmtStopRemoteNode => exact execNmtStopRemoteNode_keeps hs
  | nmtEnterPreOperational => exact execNmtEnterPreOperational_keeps hs
  | nmtResetNode => exact execNmtResetNode_keeps hs
  | nmtResetCommunication => exact execNmtResetCommunication_keeps hs
  | heartbeatTimer => exact execHeartbeatTimer_keeps hs
  | canFrameReceived => exact execCanFrameReceived_keeps hs
  | canBusOff => exact execCanBusOff_keeps hs
  | canBusOffRecovery => exact execCanBusOffRecovery_keeps hs
  | mpLoadWindow => exact execMpLoadWindow_keeps hs
  | tioInputEdge => exact execTioInputEdge_keeps hs
  | tioDeglitchPass => exact execTioDeglitchPass_keeps hs
  | tioBurstSummary => exact execTioBurstSummary_keeps hs
  | tioStuckTimeout => exact execTioStuckTimeout_keeps hs
  | tioTokenQueueEntry => exact execTioTokenQueueEntry_keeps hs
  | pulseTrainEdge => exact execPulseTrainEdge_keeps hs
  | deLeadStart => exact execDeLeadStart_keeps hs
  | uartFrameEnd => exact execUartFrameEnd_keeps hs
  | ssiPoll => exact execSsiPoll_keeps hs
  | ssiReadComplete => exact execSsiReadComplete_keeps hs
  | driveResponseReceived => exact execDriveResponseReceived_keeps hs
  | driveResponseTimeout => exact execDriveResponseTimeout_keeps hs
  | csiFrameStart => exact execCsiFrameStart_keeps hs
  | csiLineStart => exact execCsiLineStart_keeps hs
  | csiLongPacket => exact execCsiLongPacket_keeps hs
  | csiFrameEnd => exact execCsiFrameEnd_keeps hs
  | i2cXferWrite => exact execI2cXferWrite_keeps hs
  | i2cTransferEnd => exact execI2cTransferEnd_keeps hs
  | linkTokenFrame => exact execLinkTokenFrame_keeps hs
  | linkRelayFrame => exact execLinkRelayFrame_keeps hs
  | linkIdleFrame => exact execLinkIdleFrame_keeps hs
  | linkResendTimeout => exact execLinkResendTimeout_keeps hs
  | linkIdleTimer => exact execLinkIdleTimer_keeps hs
  | voteTimer => exact execVoteTimer_keeps hs
  | linkTrainingDone => exact execLinkTrainingDone_keeps hs
  | linkLossOfLock => exact execLinkLossOfLock_keeps hs
  | bqPacketReadout => exact execBqPacketReadout_keeps hs
  | alarmEvent => exact execAlarmEvent_keeps hs
  | alarmClearWrite => exact execAlarmClearWrite_keeps hs
  | samplerRecordOffer => exact execSamplerRecordOffer_keeps hs
  | samplerReleaseWrite => exact execSamplerReleaseWrite_keeps hs
  | traceExportRead => exact execTraceExportRead_keeps hs
  | traceExportCopy => exact execTraceExportCopy_keeps hs
  | journalRecordLeave => exact execJournalRecordLeave_keeps hs
  | journalBlockWrite => exact execJournalBlockWrite_keeps hs
  | nvmeCommandComplete => exact execNvmeCommandComplete_keeps hs
  | nvmeCommandTimeout => exact execNvmeCommandTimeout_keeps hs
  | journalBlockRead => exact execJournalBlockRead_keeps hs
  | formatMirrored => exact execFormatMirrored_keeps hs
  | formatStriped => exact execFormatStriped_keeps hs
  | journalEnableTrue => exact execJournalEnableTrue_keeps hs
  | journalEnableFalse => exact execJournalEnableFalse_keeps hs
  | porstNReset => exact execPorstNReset_keeps hs
  | supplyMonitorReset => exact execSupplyMonitorReset_keeps hs
  | resetNReset => exact execResetNReset_keeps hs
  | restartWrite => exact execRestartWrite_keeps hs
  | requestedReset => exact execRequestedReset_keeps hs
  | resetRelease => exact execResetRelease_keeps hs
  | startStepTimeout => exact execStartStepTimeout_keeps hs
  | clearRecordWrite => exact execClearRecordWrite_keeps hs
  | stopWrite => exact execStopWrite_keeps hs
  | stopDrained => exact execStopDrained_keeps hs
  | flashEraseComplete => exact execFlashEraseComplete_keeps hs
  | flashProgramComplete => exact execFlashProgramComplete_keeps hs
  | fwBegin => exact execFwBegin_keeps hs
  | fwBlockHalf => exact execFwBlockHalf_keeps hs
  | fwEnd => exact execFwEnd_keeps hs
  | fwAbort => exact execFwAbort_keeps hs
  | updateVerdict => exact execUpdateVerdict_keeps hs
  | activateAtWrite => exact execActivateAtWrite_keeps hs
  | activationInstant => exact execActivationInstant_keeps hs
  | lcRequestProv => exact execLcRequestProv_keeps hs
  | lcRequestFiel => exact execLcRequestFiel_keeps hs
  | lcRequestRetn => exact execLcRequestRetn_keeps hs
  | lcRequestScrp => exact execLcRequestScrp_keeps hs
  | authWrite => exact execAuthWrite_keeps hs
  | challengeWrite => exact execChallengeWrite_keeps hs
  | imageKeyHashWrite => exact execImageKeyHashWrite_keeps hs
  | securityReleaseWrite => exact execSecurityReleaseWrite_keeps hs
  | tamperEvent => exact execTamperEvent_keeps hs
  | domainOnWrite => exact execDomainOnWrite_keeps hs
  | domainOffWrite => exact execDomainOffWrite_keeps hs
  | domainSwitchDone => exact execDomainSwitchDone_keeps hs
  | domainSwitchTimeout => exact execDomainSwitchTimeout_keeps hs
  | referenceClockStop => exact execReferenceClockStop_keeps hs
  | dcSystemTimeUpdate dc => exact execDcSystemTimeUpdate_keeps (_dc := dc) hs
  | pcieLinkDown => exact execPcieLinkDown_keeps hs
  | ethercatPortLinkChange => exact execEthercatPortLinkChange_keeps hs
  | reservedEncoding => exact execReservedEncoding_keeps hs
  | instructionFetchFault => exact execInstructionFetchFault_keeps hs
  | orderlyStopWaitExpiry => exact execOrderlyStopWaitExpiry_keeps hs
  | operatingTimeSecond => exact execOperatingTimeSecond_keeps hs

/-- With no command waiting a step is one cycle of CD0. -/
theorem step_of_pending_nil {s : State} (h : s.pending = []) : step s = .next (tick s) := by simp only [step, h]

/-- A step takes the front command and runs it on the rest of the queue. -/
theorem step_of_pending_cons {s : State} {c : Instr} {cs : List Instr} (h : s.pending = c :: cs) : step s = exec c { s with pending := cs } := by
  simp only [step, h]

/-- The invariant does not speak of the queue. -/
theorem inv_withPending {s : State} (h : Inv s) (cs : List Instr) : Inv { s with pending := cs } := ⟨h.od, h.time, h.lc⟩

/-- What a state keeps meets the invariant with it. -/
theorem Keeps.inv {s0 s : State} (h : Keeps s0 s) (h0 : Inv s0) : Inv s := (h.h h0).2

/-- Settles O51: every command keeps the relation from the state it begins in. -/
theorem commandsGoOnward : Obligations.CommandsGoOnward := by
  unfold Obligations.CommandsGoOnward
  intro i s t hs ht
  obtain ⟨honward, hinv⟩ := ((exec_keeps (.refl s) i).get ht).h hs
  exact ⟨honward, hinv.lc⟩

/-- Settles O52: the state without its front command meets the invariant too, and the command keeps it; so does a cycle of CD0. -/
theorem stepKeepsInv : Obligations.StepKeepsInv := by
  unfold Obligations.StepKeepsInv
  intro s t hs ht
  cases hp : s.pending with
  | nil =>
    obtain rfl : tick s = t := by injection (step_of_pending_nil hp).symm.trans ht
    exact (tick_keeps (.refl s)).inv hs
  | cons c cs =>
    rw [step_of_pending_cons hp] at ht
    exact ((exec_keeps (.refl _) c).get ht).inv (inv_withPending hs cs)

/-- Settles O49: with an empty queue the step is `tick`. -/
theorem stepIdle : Obligations.StepIdle := fun _ h => step_of_pending_nil h

/-- Settles O53: the dictionary's defaults are in canonical form; the other fields are those of an empty block. -/
theorem resetMeetsInv : Obligations.ResetMeetsInv :=
  ⟨⟨odReset_wf, Nat.two_pow_pos 64, Nat.zero_le 4⟩, rfl, rfl, rfl⟩

end Sys2Proof.Machine
end

section
/-! Writes of a token timer's settings (R35, R347): the dictionary lists them as plain RW values, and the state check
refuses them while the timer is enabled. -/

namespace Sys2Proof.Machine
open Sys2Proof

@[simp] theorem arrives_timer (path : Nat) (s : State) (b : Bool) (n : Nat) : (arrives path s).timer b n = s.timer b n := by
  unfold arrives; split <;> rfl

@[simp] theorem arrives_activeB (path : Nat) (s : State) : (arrives path s).activeB = s.activeB := by
  unfold arrives; split <;> rfl

/-- The subindices of a token timer's settings and the sizes of their values (Table 1.12). -/
def timerSetting (sub size : Nat) : Prop := sub = 2 ∧ size = 8 ∨ sub = 3 ∧ size = 4 ∨ sub = 4 ∧ size = 2

/-- Table 1.12 lists each setting of each of the 16 timers as RW, of its size. -/
theorem rowOf_timerSetting {n sub size : Nat} (hn : n < 16) (hs : timerSetting sub size) :
    ∃ r, rowOf (0x2110 + n) sub = some r ∧ r.acc = .rw ∧ r.size = size := by
  have start : ∀ n < 16, rowOf (0x2110 + n) 2 = some (row 0x2110 16 2 2 8 27 .rw 0) := by decide
  have period : ∀ n < 16, rowOf (0x2110 + n) 3 = some (row 0x2110 16 3 3 4 7 .rw 0) := by decide
  have stream : ∀ n < 16, rowOf (0x2110 + n) 4 = some (row 0x2110 16 4 4 2 6 .rw 0) := by decide
  obtain ⟨rfl, rfl⟩ | ⟨rfl, rfl⟩ | ⟨rfl, rfl⟩ := hs
  · exact ⟨_, start n hn, rfl, rfl⟩
  · exact ⟨_, period n hn, rfl, rfl⟩
  · exact ⟨_, stream n hn, rfl, rfl⟩

/-- A value of an RW row's own size passes the checks of direction and length. -/
theorem writeCode_rw {r : ObjRow} {n : Nat} (s : State) (hr : r.acc = .rw) (h0 : n ≠ 0) (hn : r.size = n) : writeCode r n s = 0 := by
  simp [writeCode, hr, hn, h0]

/-- The settings of an enabled timer of the active plane are refused for the device's state (R35). -/
theorem stateBusy_timerSetting {n sub size : Nat} {s : State} (hn : n < 16) (hs : timerSetting sub size)
    (he : (s.timer s.activeB n).enable = true) : stateBusy s (0x2110 + n) sub = true := by
  have hsub : sub ≠ 1 := by unfold timerSetting at hs; omega
  have hlow : 0x2110 + n < 0x2120 := by omega
  simp [stateBusy, hsub, hlow, he]

/-- The dictionary's answer to a write of an enabled timer's setting. -/
theorem dictWrite_timerSetting {path n sub size : Nat} {bs : List Byte} {s : State} (hn : n < 16) (hs : timerSetting sub size)
    (hb : bs.length = size) (he : (s.timer s.activeB n).enable = true) :
    dictWrite path (0x2110 + n) sub bs s = .now (.refuse s abortState) := by
  obtain ⟨r, hrow, hacc, hsize⟩ := rowOf_timerSetting hn hs
  have h0 : size ≠ 0 := by unfold timerSetting at hs; omega
  have hcode : writeCode r bs.length s = 0 := writeCode_rw s hacc (hb ▸ h0) (hb ▸ hsize)
  simp [dictWrite, hrow, hcode, writeSub, stateBusy_timerSetting hn hs he]

/-- A write of plain size is the dictionary's answer, where nothing delays it (R347). -/
theorem serveAct_write_refused {q : SdoReq} {s : State} {code : Nat} (hk : q.kind = 1) (hl : q.data.length ≤ 4096) (h0 : code ≠ 0)
    (hw : dictWrite q.path q.ix q.sub q.data s = .now (.refuse s code)) : serveAct q s = answered q.path (.refuse s code) := by
  have hl' : ¬ 4096 < q.data.length := by omega
  simp [serveAct, perform, readShown, hk, hl', hw, Reply.refuse, h0]

/-- A write of stated size outside the secure range that its path may make is a request of the dictionary (R295, R347). -/
theorem execObjectWrite_plain {path ix sub : Nat} {bs : FrameData} (s : State) (hp : path < 4) (hix : secureIndex ix = false) :
    execObjectWrite path ix sub bs.length bs s = .next (sdoRequest { path := path, kind := 1, ix := ix, sub := sub, data := byteData bs } s) := by
  simp [execObjectWrite, done, coreMay, hp, writeRequest, byteData, anyRequest, hix]

/-- Settles O54: the write reaches the dictionary's state check, which refuses it, and a refusal changes nothing. -/
theorem timerSettingsRefused : Obligations.TimerSettingsRefused := by
  unfold Obligations.TimerSettingsRefused
  intro path n sub size bs s hp hn hs hb hserves he
  have hix : secureIndex (0x2110 + n) = false := by simp [secureIndex]; omega
  have hlen : (byteData bs).length = size := by simp [byteData, hb]
  have hw : dictWrite path (0x2110 + n) sub (byteData bs) (arrives path s) = .now (.refuse (arrives path s) abortState) :=
    dictWrite_timerSetting hn hs hlen (by simpa using he)
  have hmax : (byteData bs).length ≤ 4096 := by omega
  calc exec (.objectWrite path (0x2110 + n) sub size bs) s
      = .next (sdoRequest { path := path, kind := 1, ix := 0x2110 + n, sub := sub, data := byteData bs } s) :=
        hb ▸ execObjectWrite_plain s hp hix
    _ = .next (serveAct { path := path, kind := 1, ix := 0x2110 + n, sub := sub, data := byteData bs } (arrives path s)) :=
        congrArg _ (sdoRequest_act hserves (by simp) rfl)
    _ = .next (answered path (.refuse (arrives path s) 0x08000022)) :=
        congrArg _ (serveAct_write_refused rfl hmax (by decide) hw)

end Sys2Proof.Machine
end

section
/-! What the rows of the time base, PPS_OUT, the token timers and the epochs do when their conditions hold (R14 to R38, R526). -/

namespace Sys2Proof.Machine
open Sys2Proof

/-- SOURCE selects another reference (R14). -/
theorem writeSource_reference {s : State} {v : Nat} (h2 : v ≤ 2) (h0 : v ≠ 0) (hne : v ≠ s.obj 0x2100 1) :
    writeSource v s = .ok (startAcquiring (s.setObj 0x2100 1 v)) := by
  simp [writeSource, Nat.not_lt.mpr h2, hne, h0]

/-- A whole second is a value of PPS_NEXT (R16). -/
theorem writePpsNext_second {s : State} {v : Nat} (hv : v % 1000000000 = 0) : writePpsNext v s = .ok (s.setObj 0x2100 6 v) := by
  simp [writePpsNext, hv]

/-- A disabled timer of the active plane is enabled (R33). -/
theorem writeTimerEnable_disabled {s : State} {n : Nat} (hd : (s.timer s.activeB n).enable = false) :
    writeTimerEnable n true s = .ok (s.setTimer s.activeB n (timerArm (s.t + 1000) { s.timer s.activeB n with enable := true })) := by
  simp [writeTimerEnable, hd]

/-- A reference that LOCKED follows is lost when it has shown no sign for its time (R15, R16). -/
theorem refLost_locked {s : State} {ns : Nat} (hst : s.obj 0x2100 2 = 2) (hns : s.time.lastRef + ns ≤ s.time.clk) : refLost ns s = true := by
  simp [refLost, State.tbState, hst, hns]

/-- PPS_EDGE without a step: the offset is noted and judged, in HOLDOVER after ACQUIRING is entered (R16). -/
theorem execPpsEdge_noStep {s u w : State} {off : Int} (hsrc : s.obj 0x2100 1 = 2) (hst : s.tbState ≠ 0) (hoff : off = (s.t : Int) - ppsMeaning s)
    (hu : u = { s.setObj 0x2100 6 0 with time := { s.time with lastRef := s.time.clk, refSeen := true, ppsPrev := some (ppsMeaning s) } })
    (hw : w = loopUpdate off (noteOffset off (if u.tbState = 3 then tbEnter 1 u else u))) (hno : stepRequired w off = false) :
    execPpsEdge s = .next (judgeOffset 8 off false w) := by
  have hskip : ¬ ((w.tbState = 1 ∨ w.tbState = 4) ∧ stepRequired w off = true ∧ stepAllowed w = true) := by simp [hno]
  subst hoff hu hw
  exact (if_pos ⟨hsrc, hst⟩).trans (if_neg hskip)

/-- Settles O1: writes go through the dictionary's gate to the effect of their own subindex; the events of the reference act under their guards. -/
theorem timeBaseCommands : Obligations.TimeBaseCommands := by
  unfold Obligations.TimeBaseCommands
  refine ⟨?source, ?dcOffset, ?dcUpdate, ?dcLoss, ?ppsLoss, ?ppsEdge, ?timeStep, ?ppsNext, ?timerEnable⟩
  case source =>
    intro s path v hacc h2 h0 hne
    exact congrArg _ ((sdoWrite_accepted _ hacc).trans (congrArg _ (writeSource_reference h2 h0 hne)))
  case dcOffset =>
    rintro s _ dc hsrc hst hm rfl
    exact if_pos ⟨hsrc, hst, hm⟩
  case dcUpdate =>
    intro s dc hsrc hst
    show execDcSystemTimeUpdate dc s = _
    simp [execDcSystemTimeUpdate, touchRef, State.tbState, done, hsrc, hst]
  case dcLoss =>
    intro s hsrc hst hlost
    exact if_pos ⟨hsrc, refLost_locked hst hlost⟩
  case ppsLoss =>
    rintro s _ hsrc hst hlost rfl
    exact if_pos ⟨hsrc, refLost_locked hst hlost⟩
  case ppsEdge =>
    intro s u w off hsrc hst hoff hu hw hno
    have hu3 : u.tbState = 3 := by
      rw [hu]
      exact (s.obj_setObj_other 0 (by decide) (by decide) (by decide)).trans hst
    exact execPpsEdge_noStep hsrc (by simp [State.tbState, hst]) hoff hu (by rw [hw, if_pos hu3]) hno
  case timeStep =>
    intro s dc hsrc hst hfar hallowed
    exact (if_pos ⟨hsrc, .inl hst, decide_eq_true hfar⟩).trans (if_pos hallowed)
  case ppsNext =>
    intro s path v hacc hv
    exact congrArg _ ((sdoWrite_accepted _ hacc).trans (congrArg _ (writePpsNext_second hv)))
  case timerEnable =>
    intro s path n hn hacc hd
    have hn' : n % 16 = n := Nat.mod_eq_of_lt hn
    show execTimerEnableWrite path n true s = _
    simp only [execTimerEnableWrite, hn', b2n]
    exact congrArg _ ((sdoWrite_accepted _ hacc).trans (congrArg _ (writeTimerEnable_disabled hd)))

/-- Settles O2: each event's guard holds, and a firing that is due divides by whether its predecessor still waits. -/
theorem ppsOutAndTimers : Obligations.PpsOutAndTimers := by
  unfold Obligations.PpsOutAndTimers
  refine ⟨?rise, ?fall, ?emitted, ?counted, ?epoch, ?clockStop⟩
  case rise =>
    intro s hwidth hsecond
    exact if_pos ⟨hwidth, hsecond⟩
  case fall =>
    intro s hout hwidth
    exact if_pos ⟨hout, hwidth⟩
  case emitted =>
    rintro s b n x _ hn rfl he ha ht hm hidle t' hentry rfl
    show execTokenTimerFiring b n s = _
    simp only [execTokenTimerFiring, Nat.mod_eq_of_lt hn]
    refine (if_pos ⟨he, ha, ht, hm⟩).trans ((if_neg (by simp [hidle])).trans ?_)
    simp only [hentry, done]
  case counted =>
    rintro s b n x hn rfl he ha ht hm hwaits
    show execTokenTimerFiring b n s = _
    simp only [execTokenTimerFiring, Nat.mod_eq_of_lt hn]
    exact (if_pos ⟨he, ha, ht, hm⟩).trans (if_pos hwaits)
  case epoch =>
    intro s q hepoch
    exact if_pos hepoch
  case clockStop =>
    intro s
    rfl

end Sys2Proof.Machine
end

section
/-! Token delivery, the entry wait, selection, dispatch and cancellation at a motif (R83 to R104). -/

namespace Sys2Proof.Machine
open Sys2Proof

@[simp] theorem countWaits_nil (m pos : Nat) (s : State) : countWaits m pos [] s = s := rfl

/-- A cell with no run under way has its issue slot free (R98). -/
theorem slotFree_idle (x : Motif) (pos : Nat) {c : Cell} (hr : c.runs = []) : slotFree x pos c = true := by simp [slotFree, hr]

/-- A context that is not OPEN opens no transaction (R134). -/
theorem opens_of_txb_ne {k : BitVec 128} (i : Inst) (hk : ctxTxb k ≠ 1) : opens k i = false := by simp [opens, hk]

/-- The first candidate of an idle cell, which became ready in this cycle, wins: it passes over none, and none is marked late (R99, R100). -/
theorem execWinnerSelection_first {m pos : Nat} {s : State} {w : Inst} {is : List Inst} (hwin : ((s.motif m).cell pos).winner = none)
    (hruns : ((s.motif m).cell pos).runs = []) (hremap : remapping (s.motif m) [(pos, 0, 0)] = false)
    (hcand : candidates s (s.motif m) pos ((s.motif m).cell pos) = w :: is) (helig : eligible s (s.motif m) pos ((s.motif m).cell pos) w = true)
    (hnow : s.time.clk < w.readyAt) :
    execWinnerSelection m pos s = .next (settleCell m pos (s.setMotif m ((s.motif m).setCell pos
      { (s.motif m).cell pos with ready := ((s.motif m).cell pos).ready.filter (fun i => decide (i ≠ w)),
                                  formed := ((s.motif m).cell pos).formed.filter (fun i => decide (i ≠ w)), winner := some w }))) := by
  have hbypass : ¬ w.readyAt ≤ s.time.clk := Nat.not_le.mpr hnow
  simp [execWinnerSelection, done, hwin, hruns, hremap, hcand, helig, hbypass, slotFree_idle]

/-- A winner that opens nothing and is not refused by its TID runs, or meets its length fault (R99, R101). -/
theorem execInstanceDispatch_runs {m pos tok : Nat} {bad : TidList} {s u : State} {i : Inst} {k : BitVec 128}
    (hwin : ((s.motif m).cell pos).winner = some i) (hk : k = ((s.motif m).slot pos i.slot).ctx)
    (hremap : remapping (s.motif m) [(pos, 0, 0)] = false) (hopen : ctxTxb k ≠ 1)
    (hu : u = noteDispatch m pos k i (noteNext m pos k i (s.setMotif m ((s.motif m).setCell pos { (s.motif m).cell pos with winner := none }))))
    (htid : ¬ (i.tid = 0 ∧ (ctxTxb k = 2 ∨ ctxTxb k = 3 ∨ ctxTxb k = 4))) (hclosed : ¬ (i.tid ≠ 0 ∧ ((u.motif m).part i.tid).closed = true)) :
    execInstanceDispatch m pos 0 tok bad s = .next (settleCell m pos (runOrFault m pos k i u)) := by
  subst hk hu
  have hclean : ¬ (0 : Nat) = 1 := by decide
  have hwhole : ¬ (0 : Nat) = 2 := by decide
  simp only [execInstanceDispatch, hwin, hremap, opens_of_txb_ne i hopen, Bool.false_and, Bool.or_false, Bool.false_eq_true, if_false,
    if_neg hclean, if_neg hwhole]
  exact (if_neg htid).trans (if_neg hclosed)

/-- Settles O10: each command finds the head or the winner it names, and its guards hold or fail as the clause says. -/
theorem motifTokens : Obligations.MotifTokens := by
  unfold Obligations.MotifTokens
  refine ⟨?network, ?crossingFull, ?shuttle, ?cells, ?entryWait, ?entryTimeout, ?order, ?selection, ?dispatchPlain, ?dispatchTid, ?cancel⟩
  case network =>
    intro m src s o os hout hkind hrouter hgrant hroom
    have hroom' : ¬ 32 < crossUsed s m + o.size := Nat.not_lt.mpr hroom
    show execTokenDelivery m src s = _
    simp [execTokenDelivery, done, hout, hkind, hrouter, hgrant, hroom']
  case crossingFull =>
    intro m src s o os hout hkind hrouter hfull
    show execTokenDelivery m src s = _
    simp [execTokenDelivery, done, hout, hkind, hrouter, hfull]
  case shuttle =>
    rintro m src s _ o os hout hkind hshuttle hgrant hword rfl
    show execTokenDelivery m src s = _
    simp [execTokenDelivery, done, hout, hkind, hshuttle, hgrant, hword]
  case cells =>
    intro m src s o os hout hkind hword hdests hlive hremap hgrant hentry hsrc
    show execTokenDelivery m src s = _
    simp [execTokenDelivery, done, hout, hkind, hword, hdests, hlive, hremap, hgrant, hentry, hsrc]
  case entryWait =>
    intro m src s o os hout hkind hword hdests hlive hremap hgrant hentry hfirst
    show execTokenDelivery m src s = _
    simp [execTokenDelivery, done, hout, hkind, hword, hdests, hlive, hremap, hgrant, hentry, hfirst]
  case entryTimeout =>
    intro m src s o os hout hwait hlong
    show execMatchEntryWaitTimeout m src s = _
    simp only [execMatchEntryWaitTimeout, hout, if_pos (And.intro hwait hlong)]
    split <;> rfl
  case order =>
    intro m pos s
    rfl
  case selection =>
    intro m pos s w is hwin hruns hremap hcand helig hnow
    exact execWinnerSelection_first hwin hruns hremap hcand helig hnow
  case dispatchPlain =>
    intro m pos tok bad s u i k hwin hk hremap htid htxb hlen hu
    have hrun : runOrFault m pos k i u = startRun m pos i u := by simp [runOrFault, hlen]
    rw [← hrun]
    exact execInstanceDispatch_runs hwin hk hremap (by simp [htxb]) hu (by simp [htxb]) (by simp [htid])
  case dispatchTid =>
    intro m pos tok bad s u i k hwin hk hremap htid htxb hu hclosed
    exact execInstanceDispatch_runs hwin hk hremap htxb hu (by simp [htid]) (by simp [hclosed])
  case cancel =>
    intro m src s o os hout hword hgrant hkind
    show execCancelWordArrival m src s = _
    simp only [execCancelWordArrival, hout]
    exact if_pos ⟨hword, hgrant, hkind⟩

end Sys2Proof.Machine
end

section
/-! Requests of the secure range, the mailbox of the security island, wipes and tamper events (R44, R384, R498, R500, R505). -/

namespace Sys2Proof.Machine
open Sys2Proof

/-- A write to the secure range on a path that takes it (R384, R385). -/
theorem secureSend_sent {path ix sub : Nat} {bs : List Byte} {s : State} (h : Sends s path) :
    secureSend path ix sub bs s = secureTaken { path := path, kind := 1, ix := ix, sub := sub, data := bs } s := secureRequest_sent h

/-- Settles O38: the eight writes are secure requests on a path that takes them; an exchange and an answer go by their due times, and a wipe by
whether the island was tampered with. -/
theorem secureRequests : Obligations.SecureRequests := by
  unfold Obligations.SecureRequests
  refine ⟨?prov, ?fiel, ?retn, ?scrp, ?auth, ?challenge, ?keyHash, ?release,
    ?exchanged, ?exchangeWiped, ?due, ?dueSegments, ?wipeLoads, ?wipeTampered, ?tamper⟩
  case prov | fiel | retn | scrp => exact fun _ _ h => congrArg _ (secureSend_sent h)
  case auth | challenge => exact fun _ _ _ h => congrArg _ (secureSend_sent h)
  case keyHash => exact fun _ _ _ _ h => congrArg _ (secureSend_sent h)
  case release => exact fun _ _ _ h => congrArg _ (secureSend_sent h)
  case exchanged =>
    intro s u d a hd hmp hbegun hdue hwipe hanswer
    have hbegun' : ¬ s.time.clk < d.at' + 1000 := Nat.not_lt.mpr hbegun
    have hdue' : ¬ d.due ≤ s.time.clk := Nat.not_le.mpr hdue
    show execMailboxExchange 0 s = _
    simp [execMailboxExchange, done, hd, hmp, hbegun', hdue', hwipe, hanswer]
  case exchangeWiped =>
    intro ecc s d hd hmp hbegun hdue hwipe
    have hbegun' : ¬ s.time.clk < d.at' + 1000 := Nat.not_lt.mpr hbegun
    have hdue' : ¬ d.due ≤ s.time.clk := Nat.not_le.mpr hdue
    show execMailboxExchange ecc s = _
    simp [execMailboxExchange, done, hd, hmp, hbegun', hdue', hwipe, abortSecure]
  case due =>
    intro s d ds a hs hdue ha hplain
    show execSecureResponseDue s = _
    simp only [execSecureResponseDue, hs, Nat.not_lt.mpr hdue, ha]
    exact if_neg hplain
  case dueSegments =>
    intro s d ds a n hs hdue ha hk hn h0
    show execSecureResponseDue s = _
    simp [execSecureResponseDue, done, hs, Nat.not_lt.mpr hdue, ha, hk, hn, h0]
  case wipeLoads =>
    intro s hw ht
    show execIslandWipeComplete s = _
    simp [execIslandWipeComplete, done, hw, ht, loadIsland, State.setIsland]
  case wipeTampered =>
    intro s hw ht
    show execIslandWipeComplete s = _
    simp [execIslandWipeComplete, done, hw, ht]
  case tamper =>
    rintro s _ rfl
    rfl

end Sys2Proof.Machine
end

section
/-! The accumulators as operands (R55). -/

namespace Sys2Proof.Machine
open Sys2Proof

/-- The clamp to a signed word, as an integer. -/
theorem sat32_fst_toInt (i : Int) : (sat32 i).1.toInt = max (-2 ^ 31) (min (2 ^ 31 - 1) i) := by
  unfold sat32
  split
  case isTrue hlow =>
    have hval : (0x80000000#32).toInt = -2 ^ 31 := by decide
    simp only [hval]
    omega
  case isFalse hlow =>
    split
    case isTrue hhigh =>
      have hval : (0x7FFFFFFF#32).toInt = 2 ^ 31 - 1 := by decide
      simp only [hval]
      omega
    case isFalse hhigh =>
      have hfits : (BitVec.ofInt 32 i).toInt = i := BitVec.toInt_ofInt_eq_self (by decide) (by omega) (by omega)
      simp only [hfits]
      omega

/-- A word sign-extended to an accumulator keeps its value. -/
theorem accWrite_toInt (w : Word) : (accWrite w).toInt = w.toInt := BitVec.toInt_signExtend_of_le (by decide)

/-- Settles O55: a source code 8 or 9 is the clamp of its accumulator, a destination code 8 or 9 the sign extension into it. -/
theorem accumulatorOperands : Obligations.AccumulatorOperands := by
  unfold Obligations.AccumulatorOperands
  refine ⟨?source, ?dest, ?value⟩
  case source =>
    intro ctx b r mc
    exact ⟨sat32_fst_toInt b.a0.toInt, sat32_fst_toInt b.a1.toInt⟩
  case dest =>
    intro b w
    exact ⟨rfl, rfl⟩
  case value =>
    intro b w
    exact ⟨accWrite_toInt w, accWrite_toInt w⟩

end Sys2Proof.Machine
end

section
/-! Where a beat puts its result, and what the end of a run sends (R58, R59, R72, R141). -/

namespace Sys2Proof.Machine
open Sys2Proof

/-- Only motif `m` may differ between two states. -/
structure OnlyMotif (m : Nat) (s t : State) : Prop where
  others : ∀ n, n ≠ m → t.motif n = s.motif n
  rest : { t with motifs := s.motifs } = s

theorem OnlyMotif.refl (m : Nat) (s : State) : OnlyMotif m s s := ⟨fun _ _ => rfl, rfl⟩

theorem OnlyMotif.setMotif {m : Nat} {s t : State} (h : OnlyMotif m s t) (x : Motif) : OnlyMotif m s (t.setMotif m x) :=
  ⟨fun n hn => (t.motif_setMotif_other x hn).trans (h.others n hn), h.rest⟩

theorem OnlyMotif.retireRun {m : Nat} {s t : State} (h : OnlyMotif m s t) (pos : Nat) (r : Run) : OnlyMotif m s (retireRun m pos r t) :=
  h.setMotif _

@[simp] theorem setRunBank_beats (x : Motif) (pos : Nat) (r : Run) (b : Bank) : (setRunBank x pos r b).2.beats = r.beats := by
  unfold setRunBank
  dsimp only
  split
  · rfl
  · split <;> rfl

/-- A stopped run works on a bank of its own (R141). -/
theorem setRunBank_stopped {r : Run} (hr : r.stopped = true) (x : Motif) (pos : Nat) (b : Bank) :
    setRunBank x pos r b = (x, { r with bank := b }) := by
  simp [setRunBank, hr]

/-- After a beat before its last, a run goes back into its place. -/
theorem endBeat_of_lt {r : Run} (hr : r.beat < r.beats) (op m pos : Nat) (fin : Nat → Nat → Run → State → State) (s : State) :
    endBeat op m pos fin r s = s.setMotif m (replaceRun (s.motif m) pos op r) := if_pos hr

/-- After its last beat, a run ends with `fin` and leaves the cell. -/
theorem endBeat_of_le {r : Run} (hr : r.beats ≤ r.beat) (op m pos : Nat) (fin : Nat → Nat → Run → State → State) (s : State) :
    endBeat op m pos fin r s = retireRun m pos r (fin m pos r (s.setMotif m (removeRun (s.motif m) pos op))) := if_neg (Nat.not_lt.mpr hr)

/-- A stopped run sends no result token (R141). -/
theorem sendResults_stopped {r : Run} (hr : r.stopped = true) (m pos : Nat) (s : State) : sendResults m pos r s = s := if_pos (.inl hr)

/-- A stopped STEER sends no token (R141). -/
theorem sendSteer_stopped {r : Run} (hr : r.stopped = true) (m pos : Nat) (s : State) : sendSteer m pos r s = s := if_pos (.inl hr)

@[simp] theorem removeRun_outs (x : Motif) (pos op : Nat) : (removeRun x pos op).outs = x.outs := by
  unfold removeRun
  split <;> rfl

@[simp] theorem removeRun_closes (x : Motif) (pos op : Nat) : (removeRun x pos op).closes = x.closes := by
  unfold removeRun
  split <;> rfl

/-- A stopped run forms no close when it leaves (R137, R141), and its output buffers stay. -/
theorem retireRun_stopped {r : Run} (hr : r.stopped = true) (m pos : Nat) (s : State) :
    ((retireRun m pos r s).motif m).outs = (s.motif m).outs ∧ ((retireRun m pos r s).motif m).closes = (s.motif m).closes := by
  simp only [retireRun, State.motif_setMotif_same, hr, Bool.not_true, Bool.false_eq_true, false_and, and_false, if_false]
  split <;> exact ⟨rfl, rfl⟩

/-- A beat before the last: the run goes back with its result and its bank. -/
theorem deliver_of_lt {r : Run} (hr : r.beat + 1 < r.beats) (op m pos : Nat) (ds : List Nat) (fin : Nat → Nat → Run → State → State) (w : Word)
    (s : State) {p : Motif × Run} (hp : p = setRunBank (s.motif m) pos r (ds.foldl (fun b d => writeDest b d w) (runBank (s.motif m) pos r))) :
    deliver op m pos ds fin r w s =
      (s.setMotif m p.1).setMotif m (replaceRun p.1 pos op { p.2 with beat := r.beat + 1, prev := w, out := r.out ++ [w] }) := by
  subst hp
  simp only [deliver]
  rw [endBeat_of_lt (by simpa using hr), State.motif_setMotif_same]

/-- The last beat of a stopped run, whose end sends nothing: the run leaves the cell. -/
theorem deliver_stopped_last {r : Run} (hs : r.stopped = true) (hr : r.beats ≤ r.beat + 1) (op m pos : Nat) (ds : List Nat)
    {fin : Nat → Nat → Run → State → State} (hfin : ∀ (q : Run) (t : State), q.stopped = true → fin m pos q t = t) (w : Word) (s : State) :
    ∃ q : Run, q.stopped = true ∧
      deliver op m pos ds fin r w s = retireRun m pos q ((s.setMotif m (s.motif m)).setMotif m (removeRun (s.motif m) pos op)) := by
  refine ⟨{ r with bank := ds.foldl (fun b d => writeDest b d w) (runBank (s.motif m) pos r), beat := r.beat + 1, prev := w, out := r.out ++ [w] },
    hs, ?leaves⟩
  simp only [deliver, setRunBank_stopped hs]
  refine (endBeat_of_le hr ..).trans ?_
  rw [State.motif_setMotif_same]
  exact congrArg (retireRun m pos _) (hfin _ _ hs)

/-- Settles O9: before the last beat the run goes back into its place; a stopped run sends nothing and forms no close when it leaves. -/
theorem beatDelivery : Obligations.BeatDelivery := by
  unfold Obligations.BeatDelivery
  refine ⟨?before, ?stopped⟩
  case before =>
    rintro op m pos ds fin r w s _ hr rfl
    rw [deliver_of_lt hr op m pos ds fin w s rfl]
    obtain ⟨others, rest⟩ := ((OnlyMotif.refl m s).setMotif _).setMotif _
    exact ⟨State.motif_setMotif_same .., others, rest⟩
  case stopped =>
    rintro op m pos ds fin r w s _ hs hr hfin rfl
    have hsilent : ∀ (q : Run) (t : State), q.stopped = true → fin m pos q t = t := by
      rcases hfin with rfl | rfl
      · exact fun _ _ hq => sendResults_stopped hq ..
      · exact fun _ _ hq => sendSteer_stopped hq ..
    obtain ⟨q, hq, hend⟩ := deliver_stopped_last hs hr op m pos ds hsilent w s
    have hleaves := retireRun_stopped hq m pos ((s.setMotif m (s.motif m)).setMotif m (removeRun (s.motif m) pos op))
    rw [State.motif_setMotif_same, removeRun_outs, removeRun_closes] at hleaves
    obtain ⟨outs, closes⟩ := hleaves
    obtain ⟨others, rest⟩ := (((OnlyMotif.refl m s).setMotif _).setMotif _).retireRun pos q
    rw [hend]
    exact ⟨outs, closes, others, rest⟩

end Sys2Proof.Machine
end

section
/-! The result words of the plain, lookup, stamp, saturating and floating-point operations (R64 to R70, R73, R76). -/

namespace Sys2Proof.Machine
open Sys2Proof

/-- A beat of a run in progress counts its events, notes a failed comparison and delivers its result word. -/
theorem plainBeat_run {op : Nat} {b : CellBeat} {s : State} {r : Run} {rest : List Run} (hrun : takeRun (s.motif b.m) b.pos op = some (r, rest))
    (f : BeatIn → FRes) :
    plainBeat op f b s = deliver op b.m b.pos (runDsts s b.m b.pos r) sendResults r (resultWord b (f (beatIn s b.m b.pos r)))
      (if lanesDiffer b then noteMismatch b.m b.pos r false (countEvents (f (beatIn s b.m b.pos r)) s)
        else countEvents (f (beatIn s b.m b.pos r)) s) := by
  simp only [plainBeat, hrun]

@[simp] theorem countEvents_plain (w : Word) (s : State) : countEvents (plain w) s = s := rfl

/-- An operation whose result may raise events. -/
theorem cellEventRow_of_plainBeat {mk : CellBeat → Instr} {op : Nat} {f g : BeatIn → FRes}
    (hexec : ∀ b s, exec (mk b) s = done (plainBeat op g b s)) (hg : ∀ i, g i = f i) : CellEventRow mk op f := by
  obtain rfl : g = f := funext hg
  intro b s r rest hrun
  rw [hexec, plainBeat_run hrun]
  rfl

/-- An operation without an event. -/
theorem cellRow_of_plainBeat {mk : CellBeat → Instr} {op : Nat} {f : BeatIn → Word} {g : BeatIn → FRes}
    (hexec : ∀ b s, exec (mk b) s = done (plainBeat op g b s)) (hg : ∀ i, g i = plain (f i)) : CellRow mk op f :=
  cellEventRow_of_plainBeat (f := fun i => plain (f i)) hexec hg

/-- A rotation by nothing is no rotation: the model's second shift distance is then 0, the library's 32. -/
theorem rotl_eq_rotateLeft (a : Word) {n : Nat} (hn : n < 32) : rotl a n = a.rotateLeft n := by
  rw [rotl, BitVec.rotateLeft_def, Nat.mod_eq_of_lt hn]
  rcases Nat.eq_zero_or_pos n with rfl | hpos
  · simp [BitVec.ushiftRight_eq_zero]
  · rw [Nat.mod_eq_of_lt (by omega : 32 - n < 32)]

theorem rotr_eq_rotateRight (a : Word) {n : Nat} (hn : n < 32) : rotr a n = a.rotateRight n := by
  rw [rotr, BitVec.rotateRight_def, Nat.mod_eq_of_lt hn]
  rcases Nat.eq_zero_or_pos n with rfl | hpos
  · simp [BitVec.shiftLeft_eq_zero]
  · rw [Nat.mod_eq_of_lt (by omega : 32 - n < 32)]

theorem shAmt_lt (b : Word) : shAmt b < 32 := Nat.mod_lt _ (by decide)

/-- A choice by a comparison is a choice by what the comparison decides. -/
theorem ite_of_iff {α : Type} {c : Bool} {p : Prop} [Decidable p] (h : c = true ↔ p) (x y : α) : (if c then x else y) = if p then x else y :=
  ite_congr (propext h) (fun _ => rfl) fun _ => rfl

/-- A comparison's result word. -/
theorem truth_eq_ite {c : Bool} {p : Prop} [Decidable p] (h : c = true ↔ p) : truth c = if p then 1#32 else 0#32 := ite_of_iff h ..

theorem truth_bne (a b : Word) : truth (a != b) = if a = b then 0#32 else 1#32 := by
  rw [truth_eq_ite bne_iff_ne, ite_not]

/-- Settles O3: each operation is a plain beat; the rotations and comparisons are those of the library, the others Table 2.6 word for word. -/
theorem cellIntegerResults : Obligations.CellIntegerResults := by
  unfold Obligations.CellIntegerResults
  refine ⟨?pass, ?add, ?sub, ?neg, ?and, ?or, ?xor, ?andn, ?not, ?shl, ?shr, ?sar, ?rol, ?ror, ?cmpeq, ?cmpne, ?cmplt, ?cmpltu, ?cmple, ?cmpleu,
    ?sel, ?min, ?max, ?minu, ?maxu, ?clz, ?mul, ?mulh, ?mulhu⟩
  case pass | add | sub | neg | and | or | xor | andn | not | shl | shr | sar | sel | clz | mul | mulh | mulhu =>
    exact cellRow_of_plainBeat (fun _ _ => rfl) fun _ => rfl
  case rol => exact cellRow_of_plainBeat (fun _ _ => rfl) fun i => congrArg plain (rotl_eq_rotateLeft i.a (shAmt_lt i.b))
  case ror => exact cellRow_of_plainBeat (fun _ _ => rfl) fun i => congrArg plain (rotr_eq_rotateRight i.a (shAmt_lt i.b))
  case cmpeq => exact cellRow_of_plainBeat (fun _ _ => rfl) fun i => congrArg plain (truth_eq_ite beq_iff_eq)
  case cmpne => exact cellRow_of_plainBeat (fun _ _ => rfl) fun i => congrArg plain (truth_bne i.a i.b)
  case cmplt | cmpltu | cmple | cmpleu => exact cellRow_of_plainBeat (fun _ _ => rfl) fun i => congrArg plain (truth_eq_ite decide_eq_true_iff)
  case min | max | minu | maxu => exact cellRow_of_plainBeat (fun _ _ => rfl) fun i => congrArg plain (ite_of_iff decide_eq_true_iff ..)

/-- Settles O4: each operation is a plain beat with the result of Table 2.6. -/
theorem cellTableAndStampResults : Obligations.CellTableAndStampResults := by
  unfold Obligations.CellTableAndStampResults
  refine ⟨?lut, ?lut4, ?sdiff, ?slt, ?sle, ?sadd, ?slater, ?searlier⟩
  all_goals exact cellRow_of_plainBeat (fun _ _ => rfl) fun _ => rfl

/-- ABS decides by the sign bit. -/
theorem aluAbs_eq (a : Word) : aluAbs a = if a = 0x80000000#32 then { val := 0x7FFFFFFF#32, intSat := true }
    else { val := if a.toInt < 0 then 0#32 - a else a } := by
  have hsign : a.getLsbD 31 = true ↔ a.toInt < 0 := by
    rw [← BitVec.msb_eq_getLsbD_last a, BitVec.msb_eq_toInt, decide_eq_true_iff]
  simp only [aluAbs, plain, hsign]

/-- Settles O5: each operation is a plain beat that counts the events of its result. -/
theorem cellEventResults : Obligations.CellEventResults := by
  unfold Obligations.CellEventResults
  refine ⟨?abs, ?adds, ?subs, ?addsu, ?subsu, ?sats, ?satu, ?qmul31, ?qmul16, ?rdacc, ?fadd, ?fsub, ?fmul, ?fma, ?fms, ?fnma, ?fmin, ?fmax,
    ?fcmplt, ?fcmple, ?fcmpeq, ?ftoi, ?ftoir, ?itof, ?fabs, ?fneg, ?fclass⟩
  case abs => exact cellEventRow_of_plainBeat (fun _ _ => rfl) fun i => aluAbs_eq i.a
  all_goals exact cellEventRow_of_plainBeat (fun _ _ => rfl) fun _ => rfl

end Sys2Proof.Machine
end

section
/-! The MAC2 family: the accumulators of every beat, and the read-out of the last (R67). -/

namespace Sys2Proof.Machine
open Sys2Proof

/-- An operation of the MAC2 family. -/
theorem macRow_of_macBeat {mk : CellBeat → Instr} {op : Nat} {signed sub clear : Bool}
    (hexec : ∀ b s, exec (mk b) s = done (macBeat op signed sub clear b s)) : MacRow mk op signed sub clear := by
  rintro b s _ r rest _ _ _ hrun rfl rfl rfl rfl
  rw [hexec]
  simp only [macBeat, hrun]
  refine ⟨?before, ?last⟩
  case before =>
    intro hr
    exact congrArg _ (if_pos hr)
  case last =>
    intro hr
    exact congrArg _ (if_neg (Nat.not_lt.mpr hr))

/-- Settles O6: the four operations are beats of the MAC2 family with their own signs and clearing. -/
theorem cellMac2 : Obligations.CellMac2 := by
  unfold Obligations.CellMac2
  refine ⟨?mac2, ?mac2u, ?msu2, ?mac2z⟩
  all_goals exact macRow_of_macBeat fun _ _ => rfl

end Sys2Proof.Machine
end

section
/-! STEER, DROP and CANCEL (R72, R79). -/

namespace Sys2Proof.Machine
open Sys2Proof

/-- Settles O8: the beat finds its run; CANCEL sends its word unless its run is stopped. -/
theorem cellSteerDropCancel : Obligations.CellSteerDropCancel := by
  unfold Obligations.CellSteerDropCancel
  refine ⟨?steer, ?drop, ?cancel, ?cancelStopped⟩
  case steer =>
    rintro b s r rest _ hrun rfl
    show done (steerBeat b s) = _
    simp only [steerBeat, hrun]
    rfl
  case drop =>
    intro b s r rest hrun
    show done (dropBeat b s) = _
    simp only [dropBeat, hrun]
    rfl
  case cancel =>
    intro b s r rest hrun hagree hs
    show done (cancelBeat b s) = _
    simp [cancelBeat, hrun, lanesDiffer, resultWord, plain, hagree, hs, done]
  case cancelStopped =>
    intro b s r rest hrun hagree hs
    show done (cancelBeat b s) = _
    simp [cancelBeat, hrun, lanesDiffer, hagree, hs, done]

end Sys2Proof.Machine
end

section
/-! LD, ST and GATHER beats whose lanes agree (R71, R109, R110, R117, R120, R148, R149). -/

namespace Sys2Proof.Machine
open Sys2Proof

/-- The context of a beat's run. -/
abbrev beatCtx (s : State) (b : CellBeat) (r : Run) : BitVec 128 := ((s.motif b.m).slot b.pos r.inst.slot).ctx

/-- The program fault code of a beat's address, 0 for an allowed one. -/
abbrev beatFault (s : State) (b : CellBeat) (r : Run) : Nat :=
  spFault s b.m (ctxBank (beatCtx s b r)) (ctxSpan (beatCtx s b r)) (memAddr (beatIn s b.m b.pos r))

/-- The scratchpad address of a beat. -/
abbrev beatLinear (s : State) (b : CellBeat) (r : Run) : Nat :=
  spLinear (ctxBank (beatCtx s b r)) (ctxSpan (beatCtx s b r)) (memAddr (beatIn s b.m b.pos r))

/-- An LD that store-buffer entry `e` answers. -/
def loadEntry (b : CellBeat) (r : Run) (s : State) (e : SbEntry) : State :=
  if b.ecc = 2 then faultBeat 0x70 b r .device (sbBad b.m e s)
  else deliver 0x70 b.m b.pos (runDsts s b.m b.pos r) sendResults r e.data (if b.ecc = 1 then sramCorrected b.m s else s)

/-- An LD that the scratchpad answers, in the state `st` in which its bank serves it. -/
def loadBank (b : CellBeat) (r : Run) (s st : State) : State :=
  (spRead b.m (beatLinear s b r) b.ecc st).1.elim (faultBeat 0x70 b r .device (raise 8 (spRead b.m (beatLinear s b r) b.ecc st).2))
    (fun w => deliver 0x70 b.m b.pos (runDsts s b.m b.pos r) sendResults r w (spRead b.m (beatLinear s b r) b.ecc st).2)

section
variable {b : CellBeat} {s : State} {r : Run} {rest : List Run}

/-- An LD beat faults, is answered by the store buffer, or asks its bank. -/
theorem loadBeat_agreeing (hrun : takeRun (s.motif b.m) b.pos 0x70 = some (r, rest)) (hs : r.stopped = false) (hagree : b.mismatch = none) :
    loadBeat b s = if beatFault s b r ≠ 0 then faultBeat 0x70 b r (.program (beatFault s b r)) s
      else (sbEntryFor (s.motif b.m) r.inst.tid (beatLinear s b r)).elim
        (atBank b.m (spBank (beatLinear s b r)) (cellRequest s b (beatCtx s b r)) (loadBank b r s) s) (loadEntry b r s) := by
  simp only [loadBeat, hrun, hs, hagree, lanesDiffer, Option.isSome_none, Option.getD_none, Bool.false_and, Bool.false_eq_true, if_false]
  refine ite_congr rfl (fun _ => rfl) fun _ => ?_
  cases sbEntryFor (s.motif b.m) r.inst.tid (beatLinear s b r) with
  | some e => rfl
  | none =>
    refine congrArg (fun f => atBank b.m (spBank (beatLinear s b r)) (cellRequest s b (beatCtx s b r)) f s) (funext fun st => ?_)
    simp only [loadBank]
    rcases spRead b.m (beatLinear s b r) b.ecc st with ⟨_ | w, u⟩ <;> rfl

/-- An ST beat faults, asks its bank under TID 0, or takes a place in the store buffer. -/
theorem storeBeat_agreeing (hrun : takeRun (s.motif b.m) b.pos 0x71 = some (r, rest)) (hs : r.stopped = false) (hagree : b.mismatch = none) :
    storeBeat b s = if beatFault s b r ≠ 0 then faultBeat 0x71 b r (.program (beatFault s b r)) s
      else if r.inst.tid = 0 then
        atBank b.m (spBank (beatLinear s b r)) (cellRequest s b (beatCtx s b r)) (fun st => endBeat 0x71 b.m b.pos sendResults
          { r with beat := r.beat + 1 } (spStore b.m (beatLinear s b r) (beatIn s b.m b.pos r).b b.ecc st)) s
      else if 256 ≤ (s.motif b.m).sb.length then
        faultBeat 0x71 b r (.program 0x20) (s.setMotif b.m { (s.motif b.m).setPart r.inst.tid
          { (s.motif b.m).part r.inst.tid with overEx := r.inst.exec + 1 } with sbOver := true })
      else endBeat 0x71 b.m b.pos sendResults { r with beat := r.beat + 1 } (s.setMotif b.m { s.motif b.m with
        sb := (s.motif b.m).sb ++ [{ tid := r.inst.tid, addr := beatLinear s b r, data := (beatIn s b.m b.pos r).b }] }) := by
  simp [storeBeat, hrun, hs, hagree, lanesDiffer]

end

/-- A request that its bank serves. -/
theorem atBank_turn {m bank : Nat} {a : BankAsk} {s : State} (h : bankTurn s m bank a = true) (f : State → State) :
    atBank m bank a f s = f (takeTurn m a s) := if_pos h

/-- A request that another goes before (R109). -/
theorem atBank_noTurn {m bank : Nat} {a : BankAsk} {s : State} (h : bankTurn s m bank a = false) (f : State → State) :
    atBank m bank a f s = loseTurn m a s := if_neg (by simp [h])

theorem loadBank_read {b : CellBeat} {r : Run} {s st u : State} {w : Word} (h : spRead b.m (beatLinear s b r) b.ecc st = (some w, u)) :
    loadBank b r s st = deliver 0x70 b.m b.pos (runDsts s b.m b.pos r) sendResults r w u := by
  simp only [loadBank, h, Option.elim_some]

/-- Settles O7: an agreeing beat of LD or ST divides by its address, its TID, the store buffer and its bank's arbitration; one of GATHER passes its
index word. -/
theorem cellMemory : Obligations.CellMemory := by
  unfold Obligations.CellMemory
  refine ⟨?forwarded, ?read, ?loadWaits, ?buffered, ?full, ?stored, ?loadFault, ?gather⟩
  case forwarded =>
    intro b s r rest e hrun hs hagree hcode he hecc
    show done (loadBeat b s) = _
    rw [loadBeat_agreeing hrun hs hagree, if_neg (fun h => h hcode), he]
    exact congrArg _ (if_neg hecc)
  case read =>
    rintro b s u r rest w _ hrun hs hagree hcode he rfl hturn hread
    show done (loadBeat b s) = _
    rw [loadBeat_agreeing hrun hs hagree, if_neg (fun h => h hcode), he, Option.elim_none, atBank_turn hturn, loadBank_read hread]
    rfl
  case loadWaits =>
    rintro b s r rest _ hrun hs hagree hcode he rfl hturn
    show done (loadBeat b s) = _
    rw [loadBeat_agreeing hrun hs hagree, if_neg (fun h => h hcode), he, Option.elim_none, atBank_noTurn hturn]
    rfl
  case buffered =>
    intro b s r rest hrun hs hagree htid hroom hcode
    show done (storeBeat b s) = _
    rw [storeBeat_agreeing hrun hs hagree, if_neg (fun h => h hcode), if_neg htid, if_neg (Nat.not_le.mpr hroom)]
    rfl
  case full =>
    intro b s r rest hrun hs hagree htid hfull hcode
    show done (storeBeat b s) = _
    rw [storeBeat_agreeing hrun hs hagree, if_neg (fun h => h hcode), if_neg htid, if_pos hfull]
    rfl
  case stored =>
    rintro b s r rest _ hrun hs hagree htid hcode rfl hturn
    show done (storeBeat b s) = _
    rw [storeBeat_agreeing hrun hs hagree, if_neg (fun h => h hcode), if_pos htid, atBank_turn hturn]
    rfl
  case loadFault =>
    rintro b s r rest _ hrun hs hagree rfl hcode
    show done (loadBeat b s) = _
    rw [loadBeat_agreeing hrun hs hagree, if_pos hcode]
    rfl
  case gather =>
    intro b s r rest hrun hagree hr
    show done (gatherBeat b s) = _
    simp only [gatherBeat, hrun, hagree, lanesDiffer, Option.isSome_none, Bool.false_eq_true, if_false]
    exact congrArg _ (endBeat_of_lt hr ..)

end Sys2Proof.Machine
end

section
/-! The fault words, the engine and the banks of a motif, and the repair of its contexts (R109, R113, R114, R118 to R124, R275). -/

namespace Sys2Proof.Machine
open Sys2Proof

/-- The four parts of a fault word do not overlap: none reaches the place of the part above it. -/
theorem toNat_gatherFaultWord {code k : Nat} (a : Nat) (hcode : code < 16) (hk : k < 16) :
    (gatherFaultWord code k a).toNat = 2 ^ 28 * code + 2 ^ 24 * k + a % 2 ^ 18 := by
  rw [gatherFaultWord, BitVec.toNat_ofNat]
  omega

/-- Settles O56: each field is its part of the word's number. -/
theorem gatherFaultWords : Obligations.GatherFaultWords := by
  unfold Obligations.GatherFaultWords
  intro code k a hcode hk
  simp only [toNat_gatherFaultWord a hcode hk, field]
  omega

/-- A legal value for the banks of an idle motif whose mirrored pairs it keeps alike (R114). -/
theorem writeBankPower_legal {m v : Nat} {s : State} (hidle : motifIdle s m = true)
    (hlegal : (List.range 8).any (fun b => field v (2 * b + 1) (2 * b) == 3) = false) (hpairs : mirrorSplit s m v = false) :
    writeBankPower m v s = .ok (startBanks m v s) := by
  simp only [writeBankPower, hidle, hlegal, hpairs, Bool.not_true, Bool.false_eq_true, if_false]

/-- A transition that is due leaves the list; one to OFF loses the bank's contents (R113). -/
theorem execBankPowerTransitionDone_due {m bank : Nat} {s : State} {t : BankTr} {ts : List BankTr}
    (hdue : takeFirst (fun (t : BankTr) => t.bank == bank && decide (t.due ≤ s.time.clk)) (s.motif m).bankTr = some (t, ts)) :
    execBankPowerTransitionDone m bank s =
      .next (s.setMotif m (if t.target = 2 then zeroBank bank { s.motif m with bankTr := ts } else { s.motif m with bankTr := ts })) := by
  simp only [execBankPowerTransitionDone, hdue, done]

/-- The oldest gather starts once it holds its words and the one before it has left the output buffer (R124). -/
theorem execGatherStart_ready {m : Nat} {s : State} {g : Gather} {gs : List Gather} (hg : (s.motif m).gathers = g :: gs) (hready : g.ready = true)
    (htail : gatherTail (s.motif m) = false) :
    execGatherStart m s = .next (s.setMotif m { s.motif m with gathers := { g with started := true } :: gs }) := by
  simp [execGatherStart, hg, hready, htail, done]

section
variable {m ecc : Nat} {bad : TidList} {s : State} {g : Gather} {gs : List Gather}

/-- The context of a gather. -/
abbrev gatherCtx (s : State) (m : Nat) (g : Gather) : BitVec 128 := ((s.motif m).slot g.pos g.slot).ctx

/-- The address of a gather's next element in its window. -/
abbrev gatherAddr (g : Gather) : Nat := g.base + 4 * g.indices.getD g.k 0

/-- The fault code of a gather's next element, 0 inside the window. -/
abbrev gatherCode (s : State) (m : Nat) (g : Gather) : Nat := gatherCheck s m (gatherCtx s m g) g (g.indices.getD g.k 0)

/-- An element outside the window fills, or is a gather fault (R122, R123). -/
theorem execGatherElementRead_outside (hg : (s.motif m).gathers = g :: gs) (hstarted : g.started = true)
    (hfits : gatherFits (s.motif m) (gatherCtx s m g) g = true) (hcode : gatherCode s m g ≠ 0) :
    execGatherElementRead m ecc bad s = .next (if ctxGfill (gatherCtx s m g) then gatherWord m g g.fill true (s.bump (0x3200 + m) 0x0D)
      else gatherFault m g (gatherCode s m g) (gatherAddr g) bad s) := by
  simp only [execGatherElementRead, hg, hstarted, hfits, Bool.not_true, Bool.or_false, Bool.false_eq_true, if_false]
  exact (if_pos hcode).trans (apply_ite Host.Outcome.next ..).symm

/-- An element inside the window is read once the engine wins the bank, and joins the output (R109, R118). -/
theorem execGatherElementRead_inside {u : State} {w : Word} {q : BankAsk} (hg : (s.motif m).gathers = g :: gs) (hstarted : g.started = true)
    (hfits : gatherFits (s.motif m) (gatherCtx s m g) g = true) (hcode : gatherCode s m g = 0)
    (hq : q = { cls := 3, waited := askWaited (s.motif m) 3 0 }) (hturn : bankTurn s m (ctxBank (gatherCtx s m g)) q = true)
    (hread : spRead m (32768 * ctxBank (gatherCtx s m g) + gatherAddr g) ecc (takeTurn m q s) = (some w, u)) :
    execGatherElementRead m ecc bad s = .next (gatherWord m g w false u) := by
  subst hq
  have hinside : ¬ gatherCode s m g ≠ 0 := not_not_intro hcode
  simp only [execGatherElementRead, hg, hstarted, hfits, Bool.not_true, Bool.or_false, Bool.false_eq_true, if_false]
  rw [if_neg hinside, atBank_turn hturn, hread]
  rfl

end

/-- Settles O11: the write passes the dictionary's gate to the banks; a transition divides by its target, and a gather's element by the check of its
address and the context's GFILL. -/
theorem motifEngines : Obligations.MotifEngines := by
  unfold Obligations.MotifEngines
  refine ⟨?write, ?off, ?notOff, ?start, ?read, ?fill, ?fault, ?repair⟩
  case write =>
    intro s path m v hm hv hacc hidle hlegal hpairs
    show execBankPowerWrite path m v s = _
    simp only [execBankPowerWrite, Nat.mod_eq_of_lt hm, Nat.mod_eq_of_lt hv]
    exact congrArg _ ((sdoWrite_accepted _ hacc).trans (congrArg _ (writeBankPower_legal hidle hlegal hpairs)))
  case off =>
    intro m bank s t ts hdue htarget
    exact (execBankPowerTransitionDone_due hdue).trans (by rw [if_pos htarget]; rfl)
  case notOff =>
    intro m bank s t ts hdue htarget
    exact (execBankPowerTransitionDone_due hdue).trans (by rw [if_neg htarget])
  case start => exact fun _ _ _ _ hg hready htail => execGatherStart_ready hg hready htail
  case read =>
    intro m ecc bad s u g gs w q hg hstarted hfits hcode hq hturn hread
    exact execGatherElementRead_inside hg hstarted hfits hcode hq hturn hread
  case fill =>
    intro m ecc bad s g gs hg hstarted hfits hcode hfill
    exact (execGatherElementRead_outside hg hstarted hfits hcode).trans (by rw [if_pos hfill])
  case fault =>
    rintro m ecc _ bad s g gs hg hstarted hfits rfl hcode hfill
    exact (execGatherElementRead_outside hg hstarted hfits hcode).trans (by rw [hfill]; rfl)
  case repair => exact fun _ _ _ _ _ => rfl

end Sys2Proof.Machine
end

section
/-! Route entries in the masters and the caches, and the power of the hoop store's banks (R113, R114, R236, R237, R242). -/

namespace Sys2Proof.Machine
open Sys2Proof

theorem writeEntryLazy_legal {v : Nat} {s : State} (hok : entryOk v = true) : writeEntryLazy v s = .ok (masterWrite (s.obj 0x3800 1) v s) := if_pos hok

theorem writeEntryNow_legal {path v : Nat} {s : State} (hok : entryOk v = true) :
    writeEntryNow path v s = .inr (startInvalidate path (s.obj 0x3800 1) v s) := if_pos hok

/-- The oldest invalidation of a write under way is done, and its path is answered (R237). -/
theorem invalidationDone_answered {s : State} {st path : Nat} {rest : List (Nat × Nat)} (hhead : s.net.invalidating = (st, path) :: rest)
    (hpath : path < 8) :
    invalidationDone s = answered path (.ok ((invalidate st { s with net := { s.net with invalidating := rest } }).setObj 0x3800 8 s.t)) := by
  simp only [invalidationDone, hhead, if_pos hpath]

theorem invalidationDone_none {s : State} (hnone : s.net.invalidating = []) : invalidationDone s = s := by
  simp only [invalidationDone, hnone]

/-- A legal value for the banks of an idle hoop that leaves the banks 7 of the slices as they are (R242). -/
theorem writeHoopPower_legal {h v : Nat} {s : State} (hidle : hoopIdle s h = true)
    (hlegal : (List.range 32).any (fun b => bankField v b == 3 || (b % 8 == 7 && bankField v b != bankField (s.obj (0x3100 + h) 0x20) b)) = false) :
    writeHoopPower h v s = .ok (startHoopBanks h v s) := by
  simp only [writeHoopPower, hidle, hlegal, Bool.not_true, Bool.false_eq_true, if_false]

/-- A transition that is due leaves the list; one to OFF loses the bank's contents (R113, R242). -/
theorem execHoopBankTransitionDone_due {h bank : Nat} {s : State} {t : BankTr} {ts : List BankTr}
    (hdue : takeFirst (fun (t : BankTr) => t.bank == bank && decide (t.due ≤ s.time.clk)) (s.hoop h).bankTr = some (t, ts)) :
    execHoopBankTransitionDone h bank s =
      .next (s.setHoop h (if t.target = 2 then zeroHoopBank bank { s.hoop h with bankTr := ts } else { s.hoop h with bankTr := ts })) := by
  simp only [execHoopBankTransitionDone, hdue, done]

/-- Settles O17: INVALIDATE_ON_WRITE chooses the row that acts, and each write passes the dictionary's gate; the confirmation serves the oldest
invalidation, and a transition divides by its target. -/
theorem routingCommands : Obligations.RoutingCommands := by
  unfold Obligations.RoutingCommands
  refine ⟨?lazy, ?now, ?confirmed, ?nothing, ?flush, ?write, ?off, ?notOff⟩
  case lazy =>
    intro s path v hacc hmode hok
    exact (if_pos hmode).trans (congrArg _ ((sdoWrite_accepted _ hacc).trans (congrArg _ (writeEntryLazy_legal hok))))
  case now =>
    intro s path v hacc hmode hok
    refine (if_neg hmode).trans (congrArg _ ((sdoAction_accepted _ hacc).trans ?_))
    rw [writeEntryNow_legal hok]
    rfl
  case confirmed =>
    intro s st path rest hhead hpath
    exact congrArg (fun u => Host.Outcome.next (serveNext u)) (invalidationDone_answered hhead hpath)
  case nothing =>
    intro s hnone
    exact congrArg (fun u => Host.Outcome.next (serveNext u)) (invalidationDone_none hnone)
  case flush => exact fun _ _ hacc => congrArg _ (sdoWrite_accepted _ hacc)
  case write =>
    rintro s path h v _ hh hacc hidle rfl hlegal
    show execHoopBankPowerWrite path h v s = _
    simp only [execHoopBankPowerWrite, Nat.mod_eq_of_lt hh]
    exact congrArg _ ((sdoWrite_accepted _ hacc).trans (congrArg _ (writeHoopPower_legal hidle hlegal)))
  case off =>
    intro h bank s t ts hdue htarget
    exact (execHoopBankTransitionDone_due hdue).trans (by rw [if_pos htarget]; rfl)
  case notOff =>
    intro h bank s t ts hdue htarget
    exact (execHoopBankTransitionDone_due hdue).trans (by rw [if_neg htarget])

end Sys2Proof.Machine
end

section
/-! System instructions of a Fizhaig core and what they may raise (R109, R298, R316, R323, R324, R333, R334). -/

namespace Sys2Proof.Machine
open Sys2Proof

/-- An exception whose push does not wait is taken. -/
theorem orHeld_of_none {c : Nat} {s : State} (h : trapHeld c s = none) (taken : State) : orHeld c s taken = taken := by rw [orHeld, h, Option.getD_none]

/-- An exception whose push waits for the scratchpad is left for it (R109). -/
theorem orHeld_of_some {c : Nat} {s u : State} (h : trapHeld c s = some u) (taken : State) : orHeld c s taken = u := by
  rw [orHeld, h, Option.getD_some]

/-- Every exception but SYS saves the pc of its own instruction (Table 8.10). -/
theorem trapPc_of_ne {code : Nat} (h : code ≠ 0x0B) (b : FBank) : trapPc code b = b.pc := if_neg h

section
variable {c : Nat} {s : State}

/-- An instruction that raises an exception other than SYS and has done nothing else. -/
theorem fzDo_trap_here {code a : Nat} {f : State → FzRes} (h : FzRuns c s) (hcode : code ≠ 0x0B) (hf : f s = .trap code a false s) :
    fzDo c s f = .next (orHeld c s (fzTrap c code a (s.core c).here.pc false false s)) := by
  rw [fzDo_trap h hf, trapPc_of_ne hcode]

/-- A SYSTEM instruction in SYSTEM mode has its effect. -/
theorem fzSystem_sys (hsys : (s.core c).here.sys = true) (f : State → FzRes) : fzSystem c s f = f s := if_pos hsys

/-- A SYSTEM instruction in TASK mode raises PRIVILEGED (R323, Table 8.10). -/
theorem fzDo_privileged (h : FzRuns c s) (htask : (s.core c).here.sys = false) (f : State → FzRes) :
    fzDo c s (fun s => fzSystem c s f) = .next (orHeld c s (fzTrap c 2 0 (s.core c).here.pc false false s)) :=
  fzDo_trap_here h (by decide) (if_neg (by simp [htask]))

/-- EI and DI in SYSTEM mode. -/
theorem setIe_sys (h : FzRuns c s) (hsys : (s.core c).here.sys = true) (v : Bool) :
    setIe c v s = .next (fzNext c (fzAdvance c (s.setCore c ((s.core c).setHere { (s.core c).here with ie := v })))) :=
  fzDo_ok h (fzSystem_sys hsys _)

/-- RFI in SYSTEM mode makes the bank that was left current again (R316). -/
theorem execFzRfi_sys (h : FzRuns c s) (hsys : (s.core c).here.sys = true) :
    execFzRfi c s = .next (fzNext c (s.setCore c { (s.core c).setHere { (s.core c).here with pc := (s.core c).here.pc + 4#32 } with
      cur := prevBank c (s.core c).here })) :=
  fzDo_ok h (fzSystem_sys hsys _)

/-- WAIT stops the bank unless its core's wake condition holds (Table 8.13). -/
theorem execFzWait_runs (h : FzRuns c s) :
    execFzWait c s = .next (fzNext c (if wakes s c then fzAdvance c s
      else (fzAdvance c s).setCore c (((fzAdvance c s).core c).setHere { ((fzAdvance c s).core c).here with wait := .event }))) :=
  fzDo_ok h rfl

/-- FENCE stops the bank unless every WRITE of its core is acknowledged (R298). -/
theorem execFzFence_runs (h : FzRuns c s) :
    execFzFence c s = .next (fzNext c (if (s.core c).writes.isEmpty then fzAdvance c s
      else s.setCore c ((s.core c).setHere { (s.core c).here with wait := .fence }))) :=
  fzDo_ok h (apply_ite FzRes.ok ..).symm

theorem execFzSys_runs (h : FzRuns c s) : execFzSys c s = .next (orHeld c s (fzTrap c 0x0B 0 ((s.core c).here.pc + 4#32) false false s)) :=
  fzDo_trap h rfl

theorem execFzBrk_runs (h : FzRuns c s) : execFzBrk c s = .next (orHeld c s (fzTrap c 0x0C 0 (s.core c).here.pc false false s)) :=
  fzDo_trap_here h (by decide) rfl

/-- A word that is no instruction of Table 8.13 raises ILLEGAL (R333). -/
theorem execReservedEncoding_runs {w : Nat} (h : FzRuns c s) (hword : isOpcode (w % 2 ^ 32) = false) :
    execReservedEncoding c w s = .next (orHeld c s (fzTrap c 1 0 (s.core c).here.pc false false s)) := by
  rw [execReservedEncoding, hword]
  exact fzDo_trap_here h (by decide) rfl

/-- The access of a task to a SYSTEM register stops at the check of the register (R334). -/
theorem ctrlCheck_privileged {a : Nat} {k : CKind} (htask : (s.core c).here.sys = false) (hk : ctrlKind c (a / 4 * 4) = some (k, true))
    (f : CKind → FzRes) : ctrlCheck c a s f = .trap 2 a false s := by
  simp [ctrlCheck, hk, htask]

/-- What a task's access to a SYSTEM register raises. -/
abbrev registerRefused (c ra imm : Nat) (s : State) : Host.Outcome State Fault Refusal :=
  .next (orHeld c s (fzTrap c 2 (fzEa c ra imm s).toNat (s.core c).here.pc false false s))

section
variable {ra imm : Nat} {k : CKind} (h : FzRuns c s) (htask : (s.core c).here.sys = false) (hspace : (fzEa c ra imm s).toNat < 0x10000)
  (hk : ctrlKind c ((fzEa c ra imm s).toNat / 4 * 4) = some (k, true))
include h htask hspace hk

/-- CLW, CLH and CLB. -/
theorem fzDo_ctrlLoad_privileged {n : Nat} (halign : (fzEa c ra imm s).toNat % n = 0) (rd : Nat) :
    fzDo c s (fun s => ctrlLoad c n rd (fzEa c ra imm s).toNat s) = registerRefused c ra imm s := by
  refine fzDo_trap_here h (by decide) ?_
  rw [ctrlLoad, ctrlGet, if_neg (not_not_intro halign), if_neg (Nat.not_le.mpr hspace), ctrlCheck_privileged htask hk]

/-- CSW, CSH and CSB. -/
theorem fzDo_ctrlStore_privileged {n : Nat} (halign : (fzEa c ra imm s).toNat % n = 0) (rs : Nat) :
    fzDo c s (fun s => ctrlStore c n (fzEa c ra imm s).toNat ((s.core c).here.g rs) s) = registerRefused c ra imm s := by
  refine fzDo_trap_here h (by decide) ?_
  rw [ctrlStore, ctrlPut, if_neg (not_not_intro halign), if_neg (Nat.not_le.mpr hspace), ctrlCheck_privileged htask hk]
  rfl

/-- CLD and CSD: the first register of the pair decides before the second is looked at (R336). -/
theorem fzDo_pairCheck_privileged {rd : Nat} (halign : (fzEa c ra imm s).toNat % 8 = 0) (heven : rd % 2 = 0) (write : Bool) (f : State → FzRes) :
    fzDo c s (fun s => pairCheck c rd (fzEa c ra imm s).toNat write s (f s)) = registerRefused c ra imm s := by
  refine fzDo_trap_here h (by decide) ?_
  rw [pairCheck, if_neg (not_not_intro heven), if_neg (not_not_intro halign), if_neg (Nat.not_le.mpr hspace), pairWord,
    ctrlCheck_privileged htask hk]

end

end

/-- Settles O46: an instruction of a core that runs is its effect or its exception; the exceptions of a task are those of `fzSystem` and of the
check of a control register. -/
theorem fizhaigSystem : Obligations.FizhaigSystem := by
  unfold Obligations.FizhaigSystem
  refine ⟨?rfi, ?sleeps, ?awake, ?wakes, ?sleepsOn, ?sysBrk, ?reserved, ?held, ?fence, ?fenceWaits, ?ei, ?di, ?privileged, ?privilegedRegister⟩
  case rfi => exact fun _ _ h hsys => execFzRfi_sys h hsys
  case sleeps =>
    rintro c s _ h rfl hsleeps
    exact (execFzWait_runs h).trans (by rw [hsleeps]; rfl)
  case awake =>
    intro c s h hwakes
    exact (execFzWait_runs h).trans (by rw [if_pos hwakes])
  case wakes => exact fun _ _ hwakes => if_pos hwakes
  case sleepsOn => exact fun _ _ hsleeps => if_neg (by simp [hsleeps])
  case sysBrk =>
    intro c s h hturn
    exact ⟨(execFzSys_runs h).trans (by rw [orHeld_of_none hturn]), (execFzBrk_runs h).trans (by rw [orHeld_of_none hturn])⟩
  case reserved =>
    intro c w s h hturn hword
    exact (execReservedEncoding_runs h hword).trans (by rw [orHeld_of_none hturn])
  case held =>
    intro c w s u h hheld hword
    refine ⟨(execFzSys_runs h).trans ?_, (execFzBrk_runs h).trans ?_, (execReservedEncoding_runs h hword).trans ?_⟩
    all_goals rw [orHeld_of_some hheld]
  case fence =>
    intro c s h hwrites
    exact (execFzFence_runs h).trans (by rw [hwrites]; rfl)
  case fenceWaits =>
    intro c s h hwrites
    exact (execFzFence_runs h).trans (by rw [if_neg (by simpa using hwrites)])
  case ei => exact fun _ _ h hsys => setIe_sys h hsys true
  case di => exact fun _ _ h hsys => setIe_sys h hsys false
  case privileged =>
    intro c ecc s h htask
    refine ⟨?ei, ?di, ?rfe, ?rfi, ?savf, ?rstf⟩
    case ei | di | rfe | rfi | savf | rstf => exact fzDo_privileged h htask _
  case privilegedRegister =>
    rintro c rd ra imm _ n s k i h htask rfl hspace halign hk hi
    obtain ⟨rfl, rfl | rfl⟩ | ⟨rfl, rfl | rfl⟩ | ⟨rfl, rfl | rfl⟩ | ⟨rfl, heven, rfl | rfl⟩ := hi
    case inl.inl | inr.inl.inl | inr.inr.inl.inl => exact fzDo_ctrlLoad_privileged h htask hspace hk halign rd
    case inl.inr | inr.inl.inr | inr.inr.inl.inr => exact fzDo_ctrlStore_privileged h htask hspace hk halign rd
    case inr.inr.inr.inl =>
      show execFzCld c rd ra imm s = _
      exact fzDo_pairCheck_privileged h htask hspace hk halign heven false _
    case inr.inr.inr.inr =>
      show execFzCsd c rd ra imm s = _
      exact fzDo_pairCheck_privileged h htask hspace hk halign heven true _

end Sys2Proof.Machine
end

section
/-! Notices of a transaction at the selvedge controller and at the motifs (R132, R137 to R143, R169 to R174). -/

namespace Sys2Proof.Machine
open Sys2Proof

/-- A motif with an OPEN context whose pool has fallen to 8 TIDs gets 16 free ones (R131, R132). -/
theorem execTidGrantNotice_refills {m : Nat} {tids : TidList} {s : State} (hopen : holdsOpen (s.motif m) = true)
    (hlow : (s.motif m).pool.length ≤ 8) (hfree : 16 ≤ (freeTids s tids).length) :
    execTidGrantNotice m tids s = .next (s.setMotif m { s.motif m with pool := (s.motif m).pool ++ (freeTids s tids).take 16 }) :=
  if_pos (by simp only [hopen, hlow, hfree, decide_true, Bool.and_self])

/-- A close that is not formed yet is formed when no mismatch of its TID is pending (R137). -/
theorem execCloseReport_formed {m tid : Nat} {s : State} {c : CloseRep} {cs : List CloseRep}
    (hc : takeFirst (fun (c : CloseRep) => c.tid == tid && !c.formed) (s.motif m).closes = some (c, cs))
    (hsound : (s.motif m).mism.any (fun d => d.tid == tid) = false) :
    execCloseReport m tid s = .next (s.setMotif m
      { (s.motif m).setPart tid { (s.motif m).part tid with closed := true } with closes := cs ++ [{ c with formed := true }] }) := by
  simp only [execCloseReport, hc, hsound]
  rfl

/-- A formed close whose words have all crossed goes to the selvedge controller under its transaction's stamp (R138). -/
theorem execCloseHandover_formed {m tid : Nat} {s : State} {c : CloseRep} {cs : List CloseRep} {r : Txn}
    (hc : takeFirst (fun (c : CloseRep) => c.tid == tid && c.formed) (s.motif m).closes = some (c, cs)) (hcrossed : wordsWaiting s m tid = false)
    (hr : s.txn? tid = some r) :
    execCloseHandover m tid s =
      .next ((s.setMotif m { s.motif m with closes := cs }).submit m (noticeToSelvedge 1 tid c.exec r.stamp [0#32, 0#32])) := by
  simp only [execCloseHandover, hc, hcrossed, hr]
  rfl

/-- A commit notice commits its TID at the motif (R140). -/
theorem execCommitNotice_taken {m tid : Nat} {s u : State} {p : Packet} (hp : takePacket (atMotif 5 m tid) s = some (p, u)) :
    execCommitNotice m tid s = .next (u.setMotif m ((u.motif m).commitTid tid)) := by
  simp only [execCommitNotice, hp, done]

/-- At a motif that did not open the TID an abort notice of an execution that has not ended aborts it there, with no replay to decide (R171 to R173). -/
theorem execAbortNotice_motif {m tid : Nat} {bad : TidList} {s u : State} {p : Packet} (hm : m < 64)
    (hp : takePacket (atMotif 2 m tid) s = some (p, u)) (hexec : ((u.motif m).part tid).ended ≤ p.exec)
    (hopener : ((u.motif m).part tid).opener = false) : execAbortNotice m tid bad s = .next (abortAtMotif m tid p.exec u) := by
  simp only [execAbortNotice, if_neg (Nat.not_le.mpr hm), hp, if_neg (Nat.not_lt.mpr hexec), hopener, Bool.false_and]
  rfl

section
variable {tid : Nat} {s w : State} {p : Packet} {x : Txn}

/-- An opening notice moves an OPEN record to EXECUTING (R139). -/
theorem execOpeningNotice_taken (hp : takePacket (atSelvedge 0 tid) s = some (p, w)) (hx : (deadlineGone tid w).txn? tid = some x) :
    execOpeningNotice tid s =
      .next (if x.state = .opened then txnMove tid .executing 0 x (deadlineGone tid w) else deadlineGone tid w) := by
  simp only [execOpeningNotice, hp, hx, done, apply_ite Host.Outcome.next]

/-- A close notice: late, of an execution that has ended, or one that adds its masks and tries the commit (R139, R142 to R144). -/
theorem execCloseNotice_taken {ecc : Nat} (hp : takePacket (atSelvedge 1 tid) s = some (p, w)) (hx : (deadlineGone tid w).txn? tid = some x) :
    execCloseNotice tid ecc s = .next (if pastDeadline s.now x then (deadlineGone tid w).bump 0x3500 0x0B
      else if p.exec < x.exec ∨ !x.live then deadlineGone tid w
      else tryCommit tid (entryEcc tid ecc ((deadlineGone tid w).setTxn tid
        { x with part := x.part ||| leNat (wordBytes p.data) ||| 2 ^ p.src, closed := x.closed ||| 2 ^ p.src }))) := by
  simp only [execCloseNotice, hp, hx, done, apply_ite Host.Outcome.next]

/-- At the selvedge controller an abort notice aborts the TID, unless its execution has ended (R141, R172). -/
theorem execAbortNotice_selvedge {m : Nat} {bad : TidList} (hm : 64 ≤ m) (hp : takePacket (atSelvedge 2 tid) s = some (p, w))
    (hx : (deadlineGone tid w).txn? tid = some x) :
    execAbortNotice m tid bad s = .next (if p.exec < x.exec then deadlineGone tid w
      else selvAbort 8 tid (causeOfWord (wordAt p.data 0)) (wordAt p.data 1) (deadlineGone tid w)) := by
  simp only [execAbortNotice, if_pos hm, hp, hx, done, apply_ite Host.Outcome.next]

/-- A replay notice starts the next execution of an aborted record that was not given up (R142, R174). -/
theorem execReplayNotice_taken (hp : takePacket (atSelvedge 3 tid) s = some (p, w)) (hx : (deadlineAt tid w).txn? tid = some x) :
    execReplayNotice tid s = .next (if x.state = .aborted ∧ !x.noReplay then
        txnMove tid .executing 0 { x with exec := p.exec, part := 2 ^ x.opener, closed := 0, cause := .none } (silenceKids 8 tid (deadlineAt tid w))
      else deadlineAt tid w) := by
  simp only [execReplayNotice, hp, hx, done, apply_ite Host.Outcome.next]

/-- A no-replay notice is noted in an aborted record (R174). -/
theorem execNoReplayNotice_taken (hp : takePacket (atSelvedge 4 tid) s = some (p, w)) (hx : (deadlineGone tid w).txn? tid = some x) :
    execNoReplayNotice tid s =
      .next (if x.state = .aborted then (deadlineGone tid w).setTxn tid { x with noReplay := true } else deadlineGone tid w) := by
  simp only [execNoReplayNotice, hp, hx, done, apply_ite Host.Outcome.next]

end

/-- Settles O12: each notice is the packet taken, and its clause's conditions choose one of the outcomes of that notice. -/
theorem transactionNotices : Obligations.TransactionNotices := by
  unfold Obligations.TransactionNotices
  refine ⟨?grant, ?opening, ?closeReport, ?handover, ?close, ?lateClose, ?commit, ?abortMotif, ?abortSelvedge, ?replay, ?noReplay⟩
  case grant => exact fun _ _ _ hopen hlow hfree => execTidGrantNotice_refills hopen hlow hfree
  case opening =>
    rintro tid s w _ p x hp rfl hx hopened
    exact (execOpeningNotice_taken hp hx).trans (by rw [if_pos hopened])
  case closeReport =>
    rintro m tid s c cs _ rfl hc hsound
    exact execCloseReport_formed hc hsound
  case handover => exact fun _ _ _ _ _ _ hc hcrossed hr => execCloseHandover_formed hc hcrossed hr
  case close =>
    rintro tid ecc s w _ p x hp rfl hx hearly hexec hlive
    have hcounts : ¬ (p.exec < x.exec ∨ (!x.live) = true) := by simp [hexec, hlive]
    exact (execCloseNotice_taken hp hx).trans (by rw [hearly, if_neg hcounts]; rfl)
  case lateClose =>
    rintro tid ecc s w _ p x hp rfl hx hlate
    exact (execCloseNotice_taken hp hx).trans (by rw [if_pos hlate])
  case commit => exact fun _ _ _ _ _ hp => execCommitNotice_taken hp
  case abortMotif => exact fun _ _ _ _ _ _ hm hp hexec hopener => execAbortNotice_motif hm hp hexec hopener
  case abortSelvedge =>
    rintro m tid bad s w _ p x hm hp rfl hx hexec
    exact (execAbortNotice_selvedge hm hp hx).trans (by rw [if_neg (Nat.not_lt.mpr hexec)])
  case replay =>
    rintro tid s w _ p x hp rfl hx haborted hreplay
    exact (execReplayNotice_taken hp hx).trans (by rw [if_pos ⟨haborted, by rw [hreplay]; rfl⟩])
  case noReplay =>
    rintro tid s w _ p x hp rfl hx haborted
    exact (execNoReplayNotice_taken hp hx).trans (by rw [if_pos haborted])

end Sys2Proof.Machine
end

section
/-! Suspension, rechecks, the drain of the store buffer, re-entry, arrivals at the selvedge and the return of a TID (R135, R140, R143 to R145, R150, R152
to R158). -/

namespace Sys2Proof.Machine
open Sys2Proof

/-- A live record is OPEN, EXECUTING or CHECKED (Table 4.3). -/
theorem Txn.live_iff {x : Txn} : x.live = true ↔ x.state = .opened ∨ x.state = .executing ∨ x.state = .checked := by
  simp [Txn.live, or_assoc]

/-- A live record has come to no end. -/
theorem Txn.not_ended_of_live {x : Txn} (h : x.live = true) : x.state ≠ .committed ∧ x.state ≠ .released ∧ x.state ≠ .aborted := by
  obtain hstate | hstate | hstate := live_iff.mp h <;> simp [hstate]

/-- A TID listed for re-examination leaves the list and is examined (R140). -/
theorem execChildRecheck_listed {tid ecc : Nat} {s : State} (hlisted : s.selvedge.recheck.contains tid = true) :
    execChildRecheck tid ecc s =
      .next (tryCommit tid (entryEcc tid ecc (deadlineGone tid { s with selvedge := { s.selvedge with recheck := s.selvedge.recheck.erase tid } }))) :=
  if_pos hlisted

/-- The oldest committed store whose bank is ON leaves the buffer: its word is written, unless it reads as uncorrectable (R150, Table 5.2). -/
theorem execStoreBufferDrain_committed {m : Nat} {s : State} {e : SbEntry} {es : List SbEntry} (ecc entry : Nat)
    (he : takeFirst (fun (e : SbEntry) => e.committed && spOn s m (spBank e.addr)) (s.motif m).sb = some (e, es)) :
    execStoreBufferDrain m ecc entry s = .next (if entry = 2 then sbBad m e (s.setMotif m { s.motif m with sb := es })
      else spStore m e.addr e.data ecc (if entry = 1 then sramCorrected m (s.setMotif m { s.motif m with sb := es })
        else s.setMotif m { s.motif m with sb := es })) := by
  simp only [execStoreBufferDrain, he, done, apply_ite Host.Outcome.next]

/-- The oldest entry that waits for re-entry enters its stream as a free token (R156). -/
theorem execReentryInject_oldest {s : State} {e : Entry} {es : List Entry} (he : s.selvedge.inject = e :: es) :
    execReentryInject s = .next (enterFree 71 e.stream { stamp := e.stamp, words := e.words, prio := e.prio }
      { s with selvedge := { s.selvedge with inject := es } }) := by
  simp only [execReentryInject, he, done]

/-- A token of a live transaction in its current execution, before its deadline: its class must be allowed on the port (R157), its words must have the
port's format (R155), and the queue must have room (R158). -/
theorem execSelvedgeEntryArrival_live {port : Nat} {s w : State} {p : Packet} {x : Txn} (hp : takePacket (atPort port) s = some (p, w))
    (htid : p.tid ≠ 0) (hx : (deadlineGone p.tid w).txn? p.tid = some x) (hexec : x.exec ≤ p.exec) (hlive : x.live = true) (hearly : pastDeadline s.now x = false) :
    execSelvedgeEntryArrival port s = .next (
      if !bit (s.cls x.planeB x.cls).ports port then selvAbort 8 p.tid (.program 0x24) 64 (deadlineGone p.tid w)
      else if !portFormat s port (p.data.take p.words) then selvAbort 8 p.tid (.program 0x25) 64 (deadlineGone p.tid w)
      else if 256 ≤ ((deadlineGone p.tid w).queue port).length then
        (if p.waited = 0 then
          ({ s with net := { s.net with inbox := s.net.inbox.map (fun q => if q = p then { q with waited := 1 } else q) } } : State).bump 0x3500 5
        else s)
      else queueAdd port (entryOf p x) (deadlineGone p.tid w)) := by
  obtain ⟨hcommitted, hreleased, haborted⟩ := Txn.not_ended_of_live hlive
  have hended : ¬ (x.state = .committed ∨ x.state = .released ∨ pastDeadline s.now x = true) := by simp [hcommitted, hreleased, hearly]
  simp only [execSelvedgeEntryArrival, hp, if_neg htid, hx, if_neg (Nat.not_lt.mpr hexec), if_neg hended, if_neg haborted, done,
    apply_ite Host.Outcome.next]

/-- Settles O13: a write passes the dictionary's gate; the other commands find the TID, the store or the entry they name, and a token that arrives meets
none of the conditions that would turn it away. -/
theorem transactionTimes : Obligations.TransactionTimes := by
  unfold Obligations.TransactionTimes
  refine ⟨?suspend, ?recheck, ?drain, ?drainBad, ?reentry, ?arrival, ?deadlines, ?tidReturn⟩
  case suspend =>
    intro s path c hc hacc _
    show execSuspendWrite path c true s = _
    simp only [execSuspendWrite, Nat.mod_eq_of_lt hc]
    exact congrArg _ (sdoWrite_accepted _ hacc)
  case recheck => exact fun _ _ _ hlisted => execChildRecheck_listed hlisted
  case drain => exact fun _ ecc _ _ _ he => execStoreBufferDrain_committed ecc 0 he
  case drainBad => exact fun _ ecc _ _ _ he => execStoreBufferDrain_committed ecc 2 he
  case reentry => exact fun _ _ _ he => execReentryInject_oldest he
  case arrival =>
    rintro port s w _ p x hp rfl htid hx hexec hlive hearly hport hformat hroom
    refine (execSelvedgeEntryArrival_live hp htid hx hexec hlive hearly).trans ?_
    rw [hport, hformat, if_neg (Nat.not_le.mpr hroom)]
    rfl
  case deadlines => exact fun _ => rfl
  case tidReturn =>
    intro tid s x hx hreleased hold
    show execTidReturn tid s = _
    simp only [execTidReturn, hx]
    exact if_pos ⟨hreleased, hold⟩

end Sys2Proof.Machine
end

section
/-! The release instant, ports that free, and answers at their initiators (R143, R159 to R161, R216, R239, R405, R416). -/

namespace Sys2Proof.Machine
open Sys2Proof

/-- After the check of every deadline, everything of the earliest release instant that has come leaves on every port, and its transactions are released
(R143, R159, R161). -/
theorem execReleaseInstant_due {bad : List EntryError} {s : State} {r : Stamp}
    (hr : earliestDue ((s.selvedge.txns.map (·.1)).foldl (fun st t => deadlineAt t st) s) = some r) :
    execReleaseInstant bad s = .next (
      let a := (s.selvedge.txns.map (·.1)).foldl (fun st t => deadlineAt t st) s
      let due := a.selvedge.txns.filter (fun e => dueAt r e.2)
      let z := due.foldl releaseTxn ((List.range 42).foldl (releasePort r bad due) a)
      entriesShow (z.setObj 0x3500 0x10 z.t)) := by
  simp only [execReleaseInstant, hr, done]

/-- The end of a CAN FD frame takes it out of the controller, counts it and hands over the entries that wait (R160, R379). -/
theorem execPortBusyRelease_can {s : State} (hbusy : (s.line 33).busy = true) :
    execPortBusyRelease 33 s = .next (canNext (s.line 33).waiting
      ((({ s with can := { s.can with tx := s.can.tx.drop 1 } } : State).setLine 33 { s.line 33 with busy := false }).bump 0x4600 9)) := by
  simp only [execPortBusyRelease, ↓reduceIte, hbusy, done]

/-- A free serial port outside the lead of a release sends the entry that has waited longest (R160, R405). -/
theorem execPortBusyRelease_serial {port : Nat} {e : Entry} {es : List Entry} {s : State} (hlow : 24 ≤ port) (hhigh : port < 32)
    (hfree : serBusy s (port - 24) = false) (hlead : (s.serial (port - 24)).lead = none) (hwaits : (s.line port).waiting = e :: es) :
    execPortBusyRelease port s = .next (portSend port e (s.setLine port { s.line port with waiting := es })) := by
  have hcan : port ≠ 33 := by omega
  have hserial : 24 ≤ port ∧ port < 32 ∧ (!serBusy s (port - 24)) = true ∧ (s.serial (port - 24)).lead.isNone = true := by
    simp [hlow, hhigh, hfree, hlead]
  simp only [execPortBusyRelease, if_neg hcan, if_pos hserial, hwaits, done]

/-- The end of a frame on board link `l` starts its next one (R160). -/
theorem execPortBusyRelease_link {l : Nat} {s : State} (hl : l < 2) (hbusy : (s.line (40 + l)).busy = true) :
    execPortBusyRelease (40 + l) s = .next (linkStart l s) := by
  have hcan : 40 + l ≠ 33 := by omega
  have hserial : ¬ (24 ≤ 40 + l ∧ 40 + l < 32 ∧ (!serBusy s (40 + l - 24)) = true ∧ (s.serial (40 + l - 24)).lead.isNone = true) := by omega
  have hlink : (40 + l = 40 ∨ 40 + l = 41) ∧ (s.line (40 + l)).busy = true := ⟨by omega, hbusy⟩
  simp only [execPortBusyRelease, if_neg hcan, if_neg hserial, if_pos hlink, Nat.add_sub_cancel_left, done]

section
variable {k : Nat} {s u : State} {p : Packet}

/-- The tag of a READ_RESP says whether the journal engine or a core asked (R216). -/
theorem execReadResp_taken (hp : takeAnswer k 8 s = some (p, u)) :
    execReadResp k s = .next (if 2 ^ 22 ≤ p.timer then ringData p u else if 2 ^ 20 ≤ p.timer then fzReadDone p u else u) := by
  simp only [execReadResp, hp, done]

/-- The tag of a WRITE_ACK says whether the journal engine, a core or the camera block asked (R216). -/
theorem execWriteAck_taken (hp : takeAnswer k 9 s = some (p, u)) :
    execWriteAck k s = .next (if 2 ^ 22 ≤ p.timer then ringAck p.timer u else if 2 ^ 20 ≤ p.timer then fzWriteDone p u
      else if 2 ^ 19 ≤ p.timer then camAck ((p.timer - 2 ^ 19) / 2 ^ 16) p.timer p.aux u else u) := by
  simp only [execWriteAck, hp, done]

/-- The tag of a PULL_RESP says whether a core asked (R239). -/
theorem execPullResp_taken (hp : takeAnswer k 10 s = some (p, u)) :
    execPullResp k s = .next (if 2 ^ 20 ≤ p.timer then fzPullDone p u else u) := by
  simp only [execPullResp, hp, done]

end

/-- Settles O34: the earliest due instant and the kind of the port choose what is released or starts, and the range of an answer's tag who asked. -/
theorem releaseAndAnswers : Obligations.ReleaseAndAnswers := by
  unfold Obligations.ReleaseAndAnswers
  refine ⟨?release, ?can, ?serial, ?link, ?readCore, ?writeCore, ?writeCamera, ?readJournal, ?writeJournal, ?pullCore⟩
  case release =>
    rintro bad s _ r rfl hr
    exact execReleaseInstant_due hr
  case can =>
    rintro s _ hbusy rfl
    exact execPortBusyRelease_can hbusy
  case serial => exact fun _ _ _ _ hlow hhigh hfree hlead hwaits => execPortBusyRelease_serial hlow hhigh hfree hlead hwaits
  case link => exact fun _ _ hl hbusy => execPortBusyRelease_link hl hbusy
  case readCore =>
    intro k p s u hp hcore hjournal
    exact (execReadResp_taken hp).trans (by rw [if_neg (Nat.not_le.mpr hjournal), if_pos hcore])
  case writeCore =>
    intro k p s u hp hcore hjournal
    exact (execWriteAck_taken hp).trans (by rw [if_neg (Nat.not_le.mpr hjournal), if_pos hcore])
  case writeCamera =>
    intro k p s u hp hcamera hcore
    have hjournal : ¬ 2 ^ 22 ≤ p.timer := by omega
    exact (execWriteAck_taken hp).trans (by rw [if_neg hjournal, if_neg (Nat.not_le.mpr hcore), if_pos hcamera])
  case readJournal =>
    intro k p s u hp hjournal
    exact (execReadResp_taken hp).trans (by rw [if_pos hjournal])
  case writeJournal =>
    intro k p s u hp hjournal
    exact (execWriteAck_taken hp).trans (by rw [if_pos hjournal])
  case pullCore =>
    intro k p s u hp hcore
    exact (execPullResp_taken hp).trans (by rw [if_pos hcore])

end Sys2Proof.Machine
end

section
/-! Mismatch reports, the log streamer, remaps and flit errors, where their conditions hold (R169 to R206). -/

namespace Sys2Proof.Machine
open Sys2Proof

/-- The oldest mismatch is counted, and its TID says whether an alarm or an abort follows (R169, R170). -/
theorem execLaneMismatchReport_oldest {m : Nat} {s : State} {d : Mism} {ds : List Mism} (bad : TidList) (hd : (s.motif m).mism = d :: ds) :
    execLaneMismatchReport m bad s = .next (let t := countMism m d (s.setMotif m { s.motif m with mism := ds })
      if d.tid = 0 then raise 18 t else motifAbort m d.tid d.exec .mismatch bad (suspectMark m d t)) := by
  simp only [execLaneMismatchReport, hd, done]
  split <;> rfl

/-- The idle streamer takes the next TID's records when no remap holds it and its execution has not ended; no read shows an error (R179, R184). -/
theorem execReplayStreamStart_idle {m t : Nat} {s : State} {ts : List Nat} (bad : TidList) (hreplay : (s.motif m).replays = t :: ts)
    (hbuffer : ((s.motif m).out 18).any (fun o => o.tok.replay) = false) (hidle : (s.motif m).streaming = []) (hremap : remapWanted s m t = false)
    (hlive : ((s.motif m).part t).ended ≤ ((s.motif m).part t).exec) :
    execReplayStreamStart m 0 bad s = .next (countReplay m ((s.motif m).part t).cls ((s.motif m).part t).exec (s.setMotif m
      (feedStream s.time.clk (((s.motif m).log.filter (fun r => r.bound && r.tid == t)).map (replayToken (s.motif m) ((s.motif m).part t).exec))
        { s.motif m with replays := ts }))) := by
  have hfree : ¬ (((s.motif m).out 18).any (fun o => o.tok.replay) = true ∨ (!(s.motif m).streaming.isEmpty) = true ∨ remapWanted s m t = true) := by
    simp [hbuffer, hidle, hremap]
  simp only [execReplayStreamStart, hreplay, if_neg hfree, if_neg (Nat.not_lt.mpr hlive), done]
  rfl

/-- A remap begins when a suspect position is due and a spare is free (R184, R185). -/
theorem execRemapStart_due {m t p sp : Nat} {s : State} (bad : TidList) (hspare : freeSpare s m = some sp) (hnext : nextRemap s m = some (t, p)) :
    execRemapStart m bad s = .next (collateral m p t bad (s.setMotif m
      { s.motif m with remaps := (s.motif m).remaps ++ [{ pos := p, spare := sp, tid := t, since := s.time.clk }] })) := by
  simp only [execRemapStart, hspare, hnext, done]

/-- A flit error below the limits of R198 is counted on its link and the flit is resent. -/
theorem execFlitCrcError_retried {x y port run : Nat} {again : Bool} {s : State} (hx : x < 8) (hy : y < 8) (hport : port < 7) (hlinked : port ≠ 0)
    (hrun : run = if again then mget 0 s.net.retries (linkKey x y port) + 1 else 1) (hretry : run < 4)
    (herrs : mget 0 s.net.epochErrs (linkOf x y port) < 15) :
    execFlitCrcError x y port again s = .next ((({ s with net := { s.net with
      retries := mset 0 s.net.retries (linkKey x y port) run
      epochErrs := mset 0 s.net.epochErrs (linkOf x y port) (mget 0 s.net.epochErrs (linkOf x y port) + 1) } } : State).bump 0x3702 1).bump 0x3702 2) := by
  have hbelow : ¬ (4 ≤ run ∨ 16 ≤ mget 0 s.net.epochErrs (linkOf x y port) + 1) := by omega
  simp only [execFlitCrcError, Nat.mod_eq_of_lt hx, Nat.mod_eq_of_lt hy, Nat.mod_eq_of_lt hport, if_neg hlinked, ← hrun, if_neg hbelow, done]

/-- Settles O14: each command finds the mismatch, the replay, the remap or the link it names, and the clause's conditions choose its outcome. -/
theorem faultMasking : Obligations.FaultMasking := by
  unfold Obligations.FaultMasking
  refine ⟨?alarm, ?abort, ?replay, ?remapBegins, ?remapEnds, ?clearSuspect, ?scrub, ?pageCopy, ?patrol, ?flit⟩
  case alarm =>
    intro m bad s d ds hd htid
    exact (execLaneMismatchReport_oldest bad hd).trans (congrArg _ (if_pos htid))
  case abort =>
    intro m bad s d ds hd htid
    exact (execLaneMismatchReport_oldest bad hd).trans (congrArg _ (if_neg htid))
  case replay =>
    rintro m t bad s ts _ rfl hreplay hbuffer hidle hremap hlive
    exact execReplayStreamStart_idle bad hreplay hbuffer hidle hremap hlive
  case remapBegins =>
    rintro m t sp p bad s _ rfl hspare hnext
    exact execRemapStart_due bad hspare hnext
  case remapEnds =>
    rintro m words s _ _ _ r rs hr rfl rfl rfl
    show execRemapComplete m words s = _
    simp only [execRemapComplete, hr, done]
  case clearSuspect => exact fun _ _ _ hacc => congrArg _ (sdoWrite_accepted _ hacc)
  case scrub =>
    intro w s hscratch
    exact if_neg (ne_true_of_eq_false hscratch)
  case pageCopy => exact fun _ _ => rfl
  case patrol => exact fun _ _ _ => rfl
  case flit =>
    rintro x y port _ _ run again s hx hy hport hlinked rfl rfl hrun hretry herrs
    exact execFlitCrcError_retried hx hy hport hlinked hrun hretry herrs

end Sys2Proof.Machine
end

section
/-! Transfers of the dictionary on a path that serves them (R192, R347 to R349, R384). -/

namespace Sys2Proof.Machine
open Sys2Proof

/-- An index outside 0x5C00 to 0x5FFF is not the security island's (R384). -/
theorem secureIndex_outside {ix : Nat} (h : ix < 0x5C00 ∨ 0x6000 ≤ ix) : secureIndex ix = false := by
  simp only [secureIndex, Bool.and_eq_false_iff, decide_eq_false_iff_not]
  omega

/-- A served read, write or complete access of plain size is what the dictionary answers (R347). -/
theorem anyRequest_served {q : SdoReq} {s : State} (hq : Serves s q) (hkind : q.kind < 4) (hstated : q.stated = none)
    (hix : q.ix < 0x5C00 ∨ 0x6000 ≤ q.ix) : anyRequest q s = serveAct q (arrives q.path s) := by
  rw [anyRequest, secureIndex_outside hix]
  exact sdoRequest_act hq hkind hstated

/-- A write or complete write all of whose bytes came with its initiate is an ordinary request (R348). -/
theorem writeRequest_whole {q : SdoReq} {n : Nat} (s : State) (hn : n = q.data.length) : writeRequest q n s = anyRequest q s := if_pos hn

theorem byteData_length (bs : FrameData) : (byteData bs).length = bs.length := List.length_map _

section
variable {path ix sub ecc : Nat} {s : State}

/-- A read that its path serves and its core may make (R295, R347). -/
theorem execSdoUpload_served (hq : Serves s { path := path, kind := 0, ix := ix, sub := sub, ecc := ecc }) (hmay : coreMay s false path ix sub 0 = true)
    (hix : ix < 0x5C00 ∨ 0x6000 ≤ ix) :
    execSdoUpload path ix sub ecc s = .next (serveAct { path := path, kind := 0, ix := ix, sub := sub, ecc := ecc } (arrives path s)) := by
  rw [execSdoUpload, hmay]
  exact congrArg _ (anyRequest_served hq (by decide : 0 < 4) rfl hix)

/-- A write that its path serves and its core may make, with all its bytes (R295, R347). -/
theorem execObjectWrite_served {bs : FrameData} (hq : Serves s { path := path, kind := 1, ix := ix, sub := sub, data := byteData bs })
    (hmay : coreMay s true path ix sub (leNat (byteData bs)) = true) (hix : ix < 0x5C00 ∨ 0x6000 ≤ ix) :
    execObjectWrite path ix sub bs.length bs s =
      .next (serveAct { path := path, kind := 1, ix := ix, sub := sub, data := byteData bs } (arrives path s)) := by
  rw [execObjectWrite, hmay]
  exact congrArg _ ((writeRequest_whole s (byteData_length bs).symm).trans (anyRequest_served hq (by decide : 1 < 4) rfl hix))

/-- A complete-access read on a path that has complete access (R349). -/
theorem execSdoCompleteAccessRead_served {from1 : Bool} (hq : Serves s { path := path, kind := 2, ix := ix, sub := b2n from1, ecc := ecc })
    (hpath : path ≠ 1) (hix : ix < 0x5C00 ∨ 0x6000 ≤ ix) :
    execSdoCompleteAccessRead path ix from1 ecc s =
      .next (serveAct { path := path, kind := 2, ix := ix, sub := b2n from1, ecc := ecc } (arrives path s)) := by
  rw [execSdoCompleteAccessRead, if_neg hpath]
  exact congrArg _ (anyRequest_served hq (by decide : 2 < 4) rfl hix)

/-- A complete-access write on a path that has complete access, with all its bytes (R349). -/
theorem execSdoCompleteAccessWrite_served {from1 : Bool} {bs : FrameData}
    (hq : Serves s { path := path, kind := 3, ix := ix, sub := b2n from1, data := byteData bs }) (hpath : path ≠ 1) (hix : ix < 0x5C00 ∨ 0x6000 ≤ ix) :
    execSdoCompleteAccessWrite path ix from1 bs.length bs s =
      .next (serveAct { path := path, kind := 3, ix := ix, sub := b2n from1, data := byteData bs } (arrives path s)) := by
  rw [execSdoCompleteAccessWrite, if_neg hpath]
  exact congrArg _ ((writeRequest_whole s (byteData_length bs).symm).trans (anyRequest_served hq (by decide : 3 < 4) rfl hix))

/-- A read that the dictionary answers at once goes out as its stored words show (R192). -/
theorem serveAct_read_now {q : SdoReq} {r : Reply} (hkind : q.kind = 0) (hdata : q.data = []) (h : dictRead q.path q.ix q.sub s = .now r) :
    serveAct q s = answered q.path (readShown q s r) := by
  have hperform : perform q s = .now r := by simp [perform, hkind, hdata, h]
  rw [serveAct, hperform]

/-- Refusals show nothing of the stored words (R192). -/
theorem readShown_refused {q : SdoReq} {r : Reply} (h : r.abort ≠ 0) : readShown q s r = r := if_pos (.inl h)

/-- A read of words without errors is answered as it is (R192). -/
theorem readShown_clean {q : SdoReq} (h : q.ecc = 0) (r : Reply) : readShown q s r = r := by
  simp [readShown, h]

/-- A read of an uncorrectable word is refused, counted and latched (R192, Table 9.4). -/
theorem readShown_uncorrectable {q : SdoReq} {r : Reply} (hkind : q.kind = 0) (hread : r.abort = 0) (h : q.ecc = 2) :
    readShown q s r = .refuse (raise 8 (s.bump 0x3701 2)) abortHardware := by
  simp [readShown, hkind, hread, h]

/-- A numeric subindex with a value the spec gives, outside the objects of the trace and the journal, reads as that value's bytes (R386). -/
theorem dictRead_value {r : ObjRow} (hix : ix < 0x5000 ∨ 0x6000 ≤ ix) (hrow : rowOf ix sub = some r) (hacc : r.acc ≠ .wo) (hsize : r.size ≠ 0)
    (hopen : openValue ix sub = false) : dictRead path ix sub s = .now { data := leBytes (readNat s ix sub) r.size, state := s } := by
  have htrace : ¬ (ix = 0x5200 ∧ sub = 0x0C) := by omega
  have hblock : ¬ (ix = 0x5300 ∧ sub = 0x10) := by omega
  simp only [dictRead, hrow, if_neg hacc, readSub, if_neg htrace, if_neg hblock, if_neg hsize, hopen, Bool.false_eq_true, if_false]

/-- A read of a numeric subindex is answered with its bytes, as its stored words show (R192, R386). -/
theorem execSdoUpload_value {r : ObjRow} (hq : Serves s { path := path, kind := 0, ix := ix, sub := sub, ecc := ecc })
    (hmay : coreMay s false path ix sub 0 = true) (hix : ix < 0x5000 ∨ 0x6000 ≤ ix) (hrow : rowOf ix sub = some r) (hacc : r.acc ≠ .wo) (hsize : r.size ≠ 0)
    (hopen : openValue ix sub = false) :
    execSdoUpload path ix sub ecc s = .next (answered path (readShown { path := path, kind := 0, ix := ix, sub := sub, ecc := ecc } (arrives path s)
      { data := leBytes (readNat (arrives path s) ix sub) r.size, state := arrives path s })) := by
  rw [execSdoUpload_served hq hmay (by omega), serveAct_read_now rfl rfl (dictRead_value hix hrow hacc hsize hopen)]

/-- A subindex that no row lists is refused as absent (R347). -/
theorem dictRead_absent (hrow : rowOf ix sub = none) : dictRead path ix sub s = .now (.refuse s (absentCode ix)) := by
  simp only [dictRead, hrow]

/-- A read of an absent subindex is answered with its abort code, whatever the stored words show (R347). -/
theorem execSdoUpload_absent (hq : Serves s { path := path, kind := 0, ix := ix, sub := sub, ecc := ecc }) (hmay : coreMay s false path ix sub 0 = true)
    (hix : ix < 0x5C00 ∨ 0x6000 ≤ ix) (hrow : rowOf ix sub = none) :
    execSdoUpload path ix sub ecc s = .next (answered path (.refuse (arrives path s) (absentCode ix))) := by
  have hcode : absentCode ix ≠ 0 := by unfold absentCode; split <;> decide
  rw [execSdoUpload_served hq hmay hix, serveAct_read_now rfl rfl (dictRead_absent hrow), readShown_refused hcode]

/-- A write of a read-only subindex is refused (R347). -/
theorem dictWrite_readOnly {r : ObjRow} {bs : List Byte} (hrow : rowOf ix sub = some r) (hacc : r.acc = .ro) :
    dictWrite path ix sub bs s = .now (.refuse s abortReadOnly) := by
  have hcode : writeCode r bs.length s = abortReadOnly := if_pos (.inr (.inl hacc))
  have hne : abortReadOnly ≠ 0 := by decide
  simp only [dictWrite, hrow, hcode, if_pos hne]

end

/-- Settles O20: each transfer reaches the dictionary, and the row of its subindex decides the answer. -/
theorem dictionaryTransfers : Obligations.DictionaryTransfers := by
  unfold Obligations.DictionaryTransfers
  refine ⟨?upload, ?value, ?uncorrectable, ?noObject, ?noSub, ?write, ?readOnly, ?completeRead, ?completeWrite⟩
  case upload =>
    rintro path ix sub ecc s _ rfl hq hmay hix
    exact execSdoUpload_served hq hmay hix
  case value =>
    rintro path ix sub ecc s _ r rfl hq hmay hix hrow hacc hsize hopen rfl
    refine (execSdoUpload_value hq hmay hix hrow hacc hsize hopen).trans ?_
    rw [readShown_clean rfl]
  case uncorrectable =>
    rintro path ix sub ecc s _ r rfl hq hmay hix hrow hacc hsize hopen rfl
    refine (execSdoUpload_value hq hmay hix hrow hacc hsize hopen).trans ?_
    rw [readShown_uncorrectable rfl rfl rfl, abortHardware]
  case noObject =>
    rintro path ix sub ecc s _ rfl hq hmay hix hobject hrow
    have hcode : absentCode ix = 0x06020000 := by simp [absentCode, hobject, abortNoObject]
    exact hcode ▸ execSdoUpload_absent hq hmay hix hrow
  case noSub =>
    rintro path ix sub ecc s _ rfl hq hmay hix hobject hrow
    have hcode : absentCode ix = 0x06090011 := by simp [absentCode, hobject, abortNoSub]
    exact hcode ▸ execSdoUpload_absent hq hmay hix hrow
  case write =>
    rintro path ix sub _ bs s _ rfl hq hmay rfl hix
    exact execObjectWrite_served hq hmay hix
  case readOnly =>
    rintro path ix sub _ bs s _ r rfl hq hmay rfl hlen hix hrow hacc
    have hmax : (byteData bs).length ≤ 4096 := Nat.le_trans (Nat.le_of_eq (byteData_length bs)) hlen
    refine (execObjectWrite_served hq hmay hix).trans (congrArg _ ?_)
    exact serveAct_write_refused rfl hmax (by decide) (dictWrite_readOnly hrow hacc)
  case completeRead =>
    rintro path ix ecc from1 s _ rfl hq hpath hix
    exact execSdoCompleteAccessRead_served hq hpath hix
  case completeWrite =>
    rintro path ix _ from1 bs s _ rfl hq hpath rfl hix
    exact execSdoCompleteAccessWrite_served hq hpath hix

end Sys2Proof.Machine
end

section
/-! Reads of blocks, ENABLE, the resynchronisation and the NVMe commands of the journal (R201, R452 to R465). -/

namespace Sys2Proof.Machine
open Sys2Proof

/-- A block of a segment that the index holds is read from the first drive that has it (R461). -/
theorem startBlockRead_held {path d : Nat} {ds : List Nat} {g : JSeg} {s : State} (hseg : readSegment s = some g) (hdrive : segDrives s g.number = d :: ds) :
    startBlockRead path s = .inr (nvRead path d g.number (s.obj 0x5300 0x0F) s) := by
  simp only [startBlockRead, hseg, hdrive]

/-- TRUE mounts the volume of a journal that is STOPPED or has none, with both drives present (R463). -/
theorem writeJournalEnableTrue_mounts {s : State} (hstate : s.obj 0x5300 1 = 3 ∨ s.obj 0x5300 1 = 0) (h0 : s.obji 0 0x4400 2 = 1)
    (h1 : s.obji 1 0x4400 2 = 1) : writeJournalEnableTrue s = .ok (mount (s.setObj 0x5300 5 1)) := if_pos ⟨hstate, h0, h1⟩

/-- FALSE over TRUE is only stored where the journal does not run (R465). -/
theorem writeJournalEnableFalse_stored {s : State} (henabled : s.obj 0x5300 5 = 1) (hstate : s.obj 0x5300 1 ≠ 2) :
    writeJournalEnableFalse s = .ok (setCond 34 false (s.setObj 0x5300 5 0)) := by
  have hon : s.obj 0x5300 5 ≠ 0 := by omega
  exact (if_neg hon).trans (if_neg hstate)

/-- A resync goes on while the journal runs mirrored with one drive lost and no command of priority 1 or 2 waits: the next segments are copied, and what
still differs decides between the progress shown and mirroring resumed (R201, R202, R461). -/
theorem execDriveResyncComplete_copies {d n : Nat} {s u : State} {v w : DriveVol} {used : List Nat} (hd : d < 2) (hruns : s.obj 0x5300 1 = 2)
    (hmode : striped s = false) (hlost : s.journal.lost.contains d = true) (hother : s.journal.lost.contains (1 - d) = false)
    (hquiet : s.journal.waiting.any (fun c => decide (c.prio ≤ 2)) = false) (hv : v = s.vol (1 - d)) (hused : used = usedSegments v (s.vol d))
    (hw : w = ((used.filter (segDiffers v (s.vol d))).take n).foldl (copySegment v) (s.vol d)) (hu : u = (s.setVol d w).setObji d 0x4400 2 1) :
    execDriveResyncComplete d n s = .next (if (used.filter (segDiffers v w)).length = 0
      then setDegraded 6 false (((u.setJournal { s.journal with lost := s.journal.lost.filter (fun x => x != d) }).setObj 0x3703 1 0).setObj 0x3703 2 100)
      else (u.setObj 0x3703 1 3).setObj 0x3703 2 (100 * (used.length - (used.filter (segDiffers v w)).length) / used.length)) := by
  have hgoes : s.obj 0x5300 1 = 2 ∧ (!striped s) = true ∧ s.journal.lost.contains d = true ∧ (!s.journal.lost.contains (1 - d)) = true ∧
      (!s.journal.waiting.any (fun c => decide (c.prio ≤ 2))) = true := by
    simp only [hruns, hmode, hlost, hother, hquiet, Bool.not_false, and_self]
  subst hu hw hused hv
  simp only [execDriveResyncComplete, Nat.mod_eq_of_lt hd, if_pos hgoes, done]
  split <;> rfl

section
variable {d n : Nat} {s : State} {c : NvCmd} (hc : flightCmd s d n = some c)
include hc

/-- A write that failed is counted on its drive, which is lost with the command still to be served (R201). -/
theorem nvmeComplete_failedWrite (hkind : c.kind ≠ 5) {u : State}
    (hu : u = (nvDrop c s).setObji d 0x4400 0x0A (satAdd 32 ((nvDrop c s).obji d 0x4400 0x0A) 1)) :
    nvmeComplete d n true s = driveLost d (u.setJournal { u.journal with waiting := c :: u.journal.waiting }) := by
  subst hu
  simp only [nvmeComplete, hc, if_neg hkind, if_true]

/-- A read that has completed is answered, and the next commands are issued (R461). -/
theorem nvmeComplete_read (hkind : c.kind = 5) : nvmeComplete d n false s = nvIssue (readDone c (nvDrop c s)) := by
  simp only [nvmeComplete, hc, if_pos hkind, Bool.false_eq_true, if_false]

/-- A command in flight for 2 s is counted and issued again, unless it is its third time (R452). -/
theorem nvmeTimeout_again (hlate : c.issued + 2000000000 ≤ s.time.clk) (htries : (c.tries + 1) % 4 ≠ 3) {u : State}
    (hu : u = (nvDrop c s).bumpi d 0x4400 9) :
    nvmeTimeout d n s = u.setJournal { u.journal with flight := u.journal.flight ++ [{ c with tries := c.tries + 1, issued := s.time.clk }] } := by
  subst hu
  simp only [nvmeTimeout, hc, if_neg (Nat.not_lt.mpr hlate), if_neg htries]

end

/-- Settles O33: the writes and the block read pass the dictionary's gate to their effects; what differs between the drives divides a resync, and the
kind, the age and the tries of a command in flight what becomes of it. -/
theorem journalCommands : Obligations.JournalCommands := by
  unfold Obligations.JournalCommands
  refine ⟨?blockRead, ?mirrored, ?striped, ?enableAgain, ?enable, ?disable, ?resync, ?failed, ?readDone, ?timeout, ?linkDown⟩
  case blockRead =>
    intro path d ds g s hq hseg hdrive
    refine congrArg _ ((sdoAct_served _ hq).trans ?_)
    rw [startBlockRead_held hseg hdrive]
    rfl
  case mirrored | striped => exact fun _ _ hacc _ _ _ => congrArg _ (sdoWrite_accepted _ hacc)
  case enableAgain =>
    intro s path hacc _ hstate h0 h1
    exact congrArg _ ((sdoWrite_accepted _ hacc).trans (congrArg _ (writeJournalEnableTrue_mounts hstate h0 h1)))
  case enable =>
    intro s path hacc _ hstate h0 h1
    exact congrArg _ ((sdoWrite_accepted _ hacc).trans (congrArg _ (writeJournalEnableTrue_mounts (.inl hstate) h0 h1)))
  case disable =>
    intro s path hacc henabled hstate
    exact congrArg _ ((sdoWrite_accepted _ hacc).trans (congrArg _ (writeJournalEnableFalse_stored henabled hstate)))
  case resync =>
    intro d n s u v w used hd hruns hmode hlost hother hquiet hv hused hw hu
    have hcopies := execDriveResyncComplete_copies hd hruns hmode hlost hother hquiet hv hused hw hu
    refine ⟨fun hdone => hcopies.trans (congrArg _ (if_pos ?_)), fun hleft => hcopies.trans (congrArg _ (if_neg ?_))⟩
    · exact List.length_eq_zero_iff.mpr hdone
    · exact mt List.length_eq_zero_iff.mp hleft
  case failed =>
    rintro d n s _ c hc hkind rfl
    exact congrArg (done ∘ serveNext) (nvmeComplete_failedWrite hc hkind rfl)
  case readDone =>
    intro d n s c hc hkind
    exact congrArg (done ∘ serveNext) (nvmeComplete_read hc hkind)
  case timeout =>
    intro d n s u c hc hlate htries hu
    exact congrArg (done ∘ serveNext) (nvmeTimeout_again hc hlate htries hu)
  case linkDown =>
    intro d s hd
    show execPcieLinkDown d s = _
    rw [execPcieLinkDown, Nat.mod_eq_of_lt hd]
    rfl

end Sys2Proof.Machine
end

section
/-! Packets on their way from a source queue to an endpoint (R42, R215 to R237). -/

namespace Sys2Proof.Machine
open Sys2Proof

section
variable {k : Nat} {s : State} {p : Packet}

/-- No refill, no failed link and no full buffer: the head of the source is what leaves (R218, R220, R234). -/
theorem execPacketInjection_head {ps : List Packet} (hhead : (s.source k).queue = p :: ps) (hrefill : (s.source k).refill = none)
    (hcut : edgeCut s k = false) (hheld : injectHeld s k p = false) : execPacketInjection k s = .next (injectHead k p s) := by
  simp only [execPacketInjection, hhead, hrefill, hcut, hheld, Option.isSome_none, Bool.false_eq_true, if_false, done]

/-- Notices and answers carry their destination already (R218). -/
theorem injectHead_addressed (htyp : p.typ = 1 ∨ (8 ≤ p.typ ∧ p.typ ≤ 10)) : injectHead k p s = inject k p (popSource k s) := by
  have htoken : p.typ ≠ 0 := by omega
  have hrequest : p.isRequest = false := by
    simp only [Packet.isRequest, Bool.or_eq_false_iff, beq_eq_false_iff_ne]
    omega
  simp only [injectHead, if_neg htoken, hrequest, Bool.false_eq_true, if_false, if_pos htyp]

section
variable {st : Nat} (htyp : p.typ = 0) (hstream : p.stream = some st) (hframe : (s.source k).frame.filter (fun h => h.1 == st) = none)
include htyp hstream hframe

theorem injectHead_cached {e : Nat} (hentry : cached s k st = some e) : injectHead k p s = injectRouted k st e p (cacheTouch k st s) := by
  simp only [injectHead, if_pos htyp, hstream, hframe, hentry]

theorem injectHead_miss (hentry : cached s k st = none) :
    injectHead k p s = (s.setSource k { s.source k with refill := some st }).bump 0x3800 6 := by
  simp only [injectHead, if_pos htyp, hstream, hframe, hentry]

end

/-- A header below the highest urgency rises by 1, and is counted when it reaches 15 (R225). -/
theorem execUrgencyAgeing_flying (hat : s.net.flying[k]? = some p) (hurgency : p.urgency < 15) :
    execUrgencyAgeing false k s = .next (
      let u : State := { s with net := { s.net with flying := s.net.flying.set k { p with urgency := p.urgency + 1 } } }
      if p.urgency = 14 then u.bump 0x3010 2 else u) := by
  simp only [execUrgencyAgeing, Bool.false_eq_true, if_false, hat, if_neg (Nat.not_le.mpr hurgency), done]

end

/-- The granted packet leaves by its port; no word of its buffer shows an error (R223). -/
theorem execPacketForward_granted {x y port : Nat} {s : State} {p : Packet} (bad : TidList) (hgrant : grantee s x y port = some p) :
    execPacketForward x y port 0 bad s = .next (forward x y port p p s) := by
  have hcorrectable : ¬ (0 = 2) := by decide
  have hclean : ¬ (0 = 1) := by decide
  simp only [execPacketForward, hgrant, if_neg hcorrectable, if_neg hclean, done]

section
variable {x y : Nat} {edge : Bool} {s : State} {p : Packet}
  (hfound : s.net.flying.find? (fun p => p.rx == x && p.ry == y && p.inPort == 8 + b2n edge && !deliveryHeld s x y p) = some p)
include hfound

/-- A request for an offline motif is answered with status 1 and counted (R215). -/
theorem execPacketDelivery_offlineRequest (hlocal : toLocal p = true) (hoffline : (s.motif (8 * y + x)).offline = true)
    (hrequest : p.isRequest = true) :
    execPacketDelivery x y edge s = .next (answer (initiatorOf x y edge) { p with waited := 0 } 1 []
      ((noteReceived (initiatorOf x y edge) p (dropFlying p s)).bump 0x3010 5)) := by
  simp only [execPacketDelivery, hfound, if_pos (And.intro hlocal hoffline), if_pos hrequest, done]

/-- A packet that is no request and that its destination does not accept is counted as undeliverable (R217). -/
theorem execPacketDelivery_undeliverable (honline : ¬ (toLocal p = true ∧ (s.motif (8 * y + x)).offline = true))
    (haccepts : accepts x y edge p = false) (hrequest : p.isRequest = false) :
    execPacketDelivery x y edge s = .next ((noteReceived (initiatorOf x y edge) p (dropFlying p s)).bump 0x3010 7) := by
  simp only [execPacketDelivery, hfound, if_neg honline, haccepts, hrequest, Bool.not_false, Bool.false_eq_true, if_false, if_true, done]

theorem execPacketDelivery_accepted (honline : ¬ (toLocal p = true ∧ (s.motif (8 * y + x)).offline = true))
    (haccepts : accepts x y edge p = true) :
    execPacketDelivery x y edge s =
      .next (atEndpoint x y edge { p with waited := 0 } (noteReceived (initiatorOf x y edge) p (dropFlying p s))) := by
  simp only [execPacketDelivery, hfound, if_neg honline, haccepts, Bool.not_true, Bool.false_eq_true, if_false, done]

end

section
variable {p : Packet}

theorem not_toLocal_of_edge (hedge : p.edge = true) : ¬ toLocal p = true := by simp [toLocal, hedge]

theorem toLocal_of_forMotif (hmotif : forMotif p = true) : toLocal p = true := by
  simp only [forMotif, Bool.and_eq_true] at hmotif
  exact hmotif.1.1

theorem typ_of_forMotif (hmotif : forMotif p = true) : p.typ = 0 := by
  simp only [forMotif, Bool.and_eq_true, beq_iff_eq] at hmotif
  exact hmotif.1.2

/-- Every router accepts a token for one of the 17 endpoints of its motif (Table 6.5). -/
theorem accepts_of_forMotif (x y : Nat) (hmotif : forMotif p = true) (hendpoint : p.endpoint ≤ 16) : accepts x y false p = true := by
  have htyp := typ_of_forMotif hmotif
  simp [accepts, htyp, hendpoint]

theorem atEndpoint_motif (x y : Nat) (edge : Bool) (s : State) (hmotif : forMotif p = true) :
    atEndpoint x y edge p s = cross (64 + (8 * y + x)) p s := if_pos hmotif

/-- A token for the MP waits in its queue and raises its interrupt source 7 (Table 8.7). -/
theorem atEndpoint_mpToken (s : State) (hedge : p.edge = true) (htyp : p.typ = 0) :
    atEndpoint 4 0 true p s = ({ s with net := { s.net with inbox := s.net.inbox ++ [p] } } : State).interrupt 68 7 := by
  have hmotif : ¬ forMotif p = true := mt toLocal_of_forMotif (not_toLocal_of_edge hedge)
  simp [atEndpoint, hmotif, htyp]

end

/-- Settles O15: a free source sends its head, whose kind and route entry decide; a grant and an age choose the forwarded and the aged packet; the
motif, the endpoint and the kind of an arrived packet decide its delivery. -/
theorem networkTransport : Obligations.NetworkTransport := by
  unfold Obligations.NetworkTransport
  refine ⟨?addressed, ?cached, ?miss, ?refill, ?forward, ?age, ?ageFull, ?motif, ?offline, ?undeliverable, ?mp⟩
  case addressed =>
    intro k s p ps hhead hrefill hcut hheld htyp
    exact (execPacketInjection_head hhead hrefill hcut hheld).trans (congrArg _ (injectHead_addressed htyp))
  case cached =>
    intro k st e s p ps hhead hrefill hcut hheld htyp hstream hframe hentry
    exact (execPacketInjection_head hhead hrefill hcut hheld).trans (congrArg _ (injectHead_cached htyp hstream hframe hentry))
  case miss =>
    intro k st s p ps hhead hrefill hcut hheld htyp hstream hframe hentry
    exact (execPacketInjection_head hhead hrefill hcut hheld).trans (congrArg _ (injectHead_miss htyp hstream hframe hentry))
  case refill =>
    intro k st s hrefill
    show execRouteCacheRefillDone k s = _
    simp only [execRouteCacheRefillDone, hrefill, done]
  case forward =>
    rintro x y port bad s _ p hgrant rfl
    exact execPacketForward_granted bad hgrant
  case age =>
    intro k s p hat hurgency
    have hbelow : p.urgency ≠ 14 := by omega
    exact (execUrgencyAgeing_flying hat (by omega)).trans (congrArg _ (if_neg hbelow))
  case ageFull =>
    intro k s p hat hurgency
    refine (execUrgencyAgeing_flying hat (by omega)).trans (congrArg _ ((if_pos hurgency).trans ?_))
    rw [hurgency]
  case motif =>
    intro x y s p hfound hmotif hendpoint honline
    have hdelivers := execPacketDelivery_accepted (edge := false) hfound (by simp [honline]) (accepts_of_forMotif x y hmotif hendpoint)
    exact hdelivers.trans (congrArg _ (atEndpoint_motif x y false _ hmotif))
  case offline =>
    intro x y s p hfound hlocal hoffline hrequest
    exact execPacketDelivery_offlineRequest (edge := false) hfound hlocal hoffline hrequest
  case undeliverable =>
    intro x y edge s p hfound honline haccepts hrequest
    exact execPacketDelivery_undeliverable hfound (by simp [honline]) haccepts hrequest
  case mp =>
    rintro s _ p hfound hedge haccepts htyp rfl
    have honline (h : toLocal p = true ∧ (s.motif (8 * 0 + 4)).offline = true) := not_toLocal_of_edge hedge h.1
    exact (execPacketDelivery_accepted (edge := true) hfound honline haccepts).trans (congrArg _ (atEndpoint_mpToken _ hedge htyp))

end Sys2Proof.Machine
end

section
/-! Crossings toward the network, and requests served by the hoop stores, the stream queues and the DRAM controller (R42, R216, R229 to R248). -/

namespace Sys2Proof.Machine
open Sys2Proof

/-- The oldest packet of a motif's crossing joins its router's source queue (R42). -/
theorem execDualClockQueueDelivery_toRouter {q : Nat} {s : State} {p : Packet} {ps : List Packet} (hq : q < 64)
    (hhead : mget [] s.net.crossing q = p :: ps) :
    execDualClockQueueDelivery q s = .next (({ s with net := { s.net with crossing := mset [] s.net.crossing q ps } } : State).submit q p) := by
  have htrace : ¬ 200 ≤ q := by omega
  have hbank : ¬ 128 ≤ q := by omega
  simp only [execDualClockQueueDelivery, if_neg htrace, if_neg hbank, hhead, if_pos hq, done]

section
variable {x y ecc : Nat} {edge : Bool} {s u : State} {p : Packet}

theorem execReadRequest_taken (hp : takeRequest x y edge 2 s = some (p, u)) :
    execReadRequest x y edge ecc s = .next (readTarget (initiatorOf x y edge) ecc p s u) := by
  simp only [execReadRequest, hp, done]

theorem execWriteRequest_taken (hp : takeRequest x y edge 3 s = some (p, u)) :
    execWriteRequest x y edge ecc s = .next (writeTarget (initiatorOf x y edge) ecc p s u) := by
  simp only [execWriteRequest, hp, done]

/-- A READ of a hoop-store bank that is ON and shows no uncorrectable word is answered with its words and counted (R216, R240). -/
theorem readTarget_hoop {j h o : Nat} {v : State} (hregion : regionOf s p.addr = .hoop h o) (hon : hoopOn s h (hoopBank o) = true)
    (hcheck : hoopChecks h (wordsOf o (4 * p.count)) ecc (hoopWaits h o u) = (true, v)) :
    readTarget j ecc p s u = answer j p 0 (memWords (v.hoop h).mem o p.count) (v.addObjW 64 (0x3100 + h) 0x21 (4 * p.count)) := by
  simp only [readTarget, hregion, hon, hcheck, Bool.not_true, Bool.false_eq_true, if_false]

theorem readTarget_unmapped {j : Nat} (hregion : regionOf s p.addr = .unmapped) : readTarget j ecc p s u = answer j p 2 [] u := by
  simp only [readTarget, hregion]

/-- A WRITE to a hoop-store bank that is ON stores its bytes with fresh check bits, and is counted (R216, R240). -/
theorem writeTarget_hoop {j h o : Nat} (hregion : regionOf s p.addr = .hoop h o) (hon : hoopOn s h (hoopBank o) = true) :
    writeTarget j ecc p s u = (
      let ws := p.data.take p.count
      let v := hoopWaits h o u
      let z := v.hoop h
      answer j p 0 [] ((v.setHoop h { z with
        mem := memWrite z.mem o (wordBytes ws)
        ecc := z.ecc.filter (fun e => decide (e.1 < (o + 7) / 8) || decide ((o + 4 * ws.length) / 8 ≤ e.1)) }).addObjW 64
          (0x3100 + h) 0x22 (4 * ws.length))) := by
  simp only [writeTarget, hregion, hon, Bool.not_true, Bool.false_eq_true, if_false]

/-- A PULL at a hoop's first slice whose queue holds a token in a slot that can be read: the token is answered and leaves the queue (R239). -/
theorem execPullRequest_answered {h a : Nat} {v : State} {z : StreamQ} (hp : takePacket (waitingAt x y edge 4) s = some (p, u))
    (hslice : sliceZero x y = some h) (hz : z = u.squeue h (p.endpoint - 48)) (ha : a = slotAt z 0) (hcount : z.count ≠ 0)
    (hstatus : slotStatus s a = 0) (hwaits : slotWaits s a = false) (hcheck : slotCheck a ecc u = (true, v)) :
    execPullRequest x y edge ecc s = .next (answer (initiatorOf x y edge) p 0 (slotPeek v a ++ [0#32, 0#32])
      ((slotBytes false a v).setSqueue h (p.endpoint - 48) z.pulled)) := by
  subst ha hz
  have husable : ¬ slotStatus s (slotAt (u.squeue h (p.endpoint - 48)) 0) ≠ 0 := fun h => h hstatus
  simp only [execPullRequest, hp, hslice, if_neg hcount, if_neg husable, hwaits, hcheck, Bool.false_eq_true, if_false, done]

theorem execPullRequest_empty {h : Nat} (hp : takePacket (waitingAt x y edge 4) s = some (p, u)) (hslice : sliceZero x y = some h)
    (hcount : (u.squeue h (p.endpoint - 48)).count = 0) :
    execPullRequest x y edge ecc s = .next (answer (initiatorOf x y edge) p 5 [] u) := by
  simp only [execPullRequest, hp, hslice, if_pos hcount, done]

end

/-- A token without a TID whose queue has a slot in memory that answers is stored there (R239). -/
theorem execStreamQueueAppend_stored {h q x y a : Nat} {s : State} {p : Packet} {ps : List Packet} {z : StreamQ} (hrouter : sliceRouter h 0 = (x, y))
    (hp : takeFirst (fun (p : Packet) => p.typ == 0 && !p.edge && p.dx == x && p.dy == y && p.endpoint == 48 + q) s.net.inbox = some (p, ps))
    (hz : z = s.squeue h q) (htid : p.tid = 0) (hwords : p.words ≠ 0) (hroom : z.count < z.slots) (ha : a = slotAt z z.count)
    (hstatus : slotStatus s a = 0) (hwaits : slotWaits s a = false) :
    execStreamQueueAppend h q s = .next (
      (slotBytes true a (storeWords a (slotWords (packetToken p)) { s with net := { s.net with inbox := ps } })).setSqueue h q
        { z with count := z.count + 1, peak := max z.peak (z.held + 1) }) := by
  subst ha hz
  have hnoTid : ¬ p.tid ≠ 0 := fun h => h htid
  have hused : ¬ (p.words = 0 ∨ (s.squeue h q).slots = 0) := by omega
  have hanswers : ¬ (slotStatus s (slotAt (s.squeue h q) (s.squeue h q).count) ≠ 0 ∨
      slotWaits s (slotAt (s.squeue h q) (s.squeue h q).count) = true) := by simp [hstatus, hwaits]
  simp only [execStreamQueueAppend, hrouter, hp, if_neg hnoTid, if_neg hused, if_neg (Nat.not_le.mpr hroom), if_neg hanswers, done]

section
variable {ecc pick o : Nat} {s : State} {p : Packet} (hpower : bit s.power.on 11 = true) (hnext : dramNext s pick = some p)
  (hregion : regionOf s p.addr = .dram o)
include hpower hnext hregion

/-- A READ that the controller chooses is answered with its words after their check, and counted (R245, R248). -/
theorem execDramRequestService_read {v : State} (htyp : p.typ = 2)
    (hcheck : dramCheck o p.count ecc { s with dram := { s.dram with rows := s.dram.rows.erase p } } = (true, v)) :
    execDramRequestService ecc pick s = .next (answer 65 p 0 (memWords v.dram.mem o p.count) (v.addObjW 64 0x3012 9 (4 * p.count))) := by
  simp only [execDramRequestService, if_pos hpower, hnext, hregion, if_pos htyp, hcheck, done]

theorem execDramRequestService_write (htyp : p.typ ≠ 2) :
    execDramRequestService ecc pick s = .next (answer 65 p 0 [] ((dramWrite o (p.data.take p.count)
      { s with dram := { s.dram with rows := s.dram.rows.erase p } }).addObjW 64 0x3012 0x0A (4 * p.count))) := by
  simp only [execDramRequestService, if_pos hpower, hnext, hregion, if_neg htyp, done]

end

/-- Settles O16: a crossing below 64 leads to its router; the memory an address names serves a READ or a WRITE; a stream queue's count and the memory of
its slot decide an append and a PULL; the controller's choice is served by its kind. -/
theorem networkMemory : Obligations.NetworkMemory := by
  unfold Obligations.NetworkMemory
  refine ⟨?crossing, ?read, ?unmapped, ?write, ?append, ?pull, ?empty, ?dramRead, ?dramWrite⟩
  case crossing => exact fun _ _ _ _ hq hhead => execDualClockQueueDelivery_toRouter hq hhead
  case read =>
    intro x y ecc h o edge s u v p hp hregion hon hcheck
    exact (execReadRequest_taken hp).trans (congrArg _ (readTarget_hoop hregion hon hcheck))
  case unmapped =>
    intro x y ecc edge s u p hp hregion
    exact (execReadRequest_taken hp).trans (congrArg _ (readTarget_unmapped hregion))
  case write =>
    rintro x y ecc h o edge s u _ p _ _ hp hregion hon rfl rfl rfl
    exact (execWriteRequest_taken hp).trans (congrArg _ (writeTarget_hoop hregion hon))
  case append =>
    rintro h q x y a s _ p ps z hrouter hp hz htid hwords hroom ha hstatus hwaits rfl
    exact execStreamQueueAppend_stored hrouter hp hz htid hwords hroom ha hstatus hwaits
  case pull =>
    intro x y ecc h a edge s u v p z hp hslice hz ha hcount hstatus hwaits hcheck
    exact execPullRequest_answered hp hslice hz ha hcount hstatus hwaits hcheck
  case empty => exact fun _ _ _ _ _ _ _ _ hp hslice hcount => execPullRequest_empty hp hslice hcount
  case dramRead =>
    intro ecc pick o s v p hpower hnext htyp hregion hcheck
    exact execDramRequestService_read hpower hnext hregion htyp hcheck
  case dramWrite =>
    intro ecc pick o s p hpower hnext htyp hregion
    exact execDramRequestService_write hpower hnext hregion (by omega)

end Sys2Proof.Machine
end

section
/-! Region loads, the changeover's commands and its two instants (R276, R281 to R289, R331). -/

namespace Sys2Proof.Machine
open Sys2Proof

/-- A region whose classes are drained is held in reset and written (R276). -/
theorem execRegionDrained_drained {img : List Byte} {s : State} (hregion : s.load.region = some img)
    (hdrained : (regionClasses s (headerOf img).motifs).all (fun c => s.obj (0x3400 + c) 0x14 == 0) = true) :
    execRegionDrained s = .next ((writeRegion img s).setLoad { s.load with region := none, locking := some img }) := by
  simp only [execRegionDrained, hregion]
  exact if_pos hdrained

/-- START_LOAD from IDLE while no firmware waits for its instant and no recipe is selected (R285). -/
theorem writeControl_startLoad {s : State} (hidle : s.obj 0x3600 1 = 0) (hfw : s.obj 0x5800 1 ≠ 5) (hsource : s.obj 0x3600 4 ≠ 1)
    (hafter : (coState 1 (s.setObj 0x3600 0x0A 0)).obj 0x3600 4 ≠ 1) :
    writeControl 1 s = .ok (coState 1 (s.setObj 0x3600 0x0A 0)) := by
  have hlegal : ¬ (s.obj 0x3600 1 ≠ 0 ∨ s.obj 0x5800 1 = 5 ∨
      (s.obj 0x3600 4 = 1 ∧ (s.load.active ∨ s.load.region.isSome ∨ s.load.locking.isSome))) := by
    rintro (h | h | h)
    · exact h hidle
    · exact hfw h
    · exact hsource h.1
  simp only [writeControl, if_pos, if_neg hlegal, if_neg hafter]

theorem writeControl_acknowledge {s : State} (hended : s.obj 0x3600 1 = 6 ∨ s.obj 0x3600 1 = 7) :
    writeControl 2 s = .ok (coState 0 (s.setObj 0x3600 0x0A 0)) := if_pos hended

/-- CO_ID and T_c may be written before ARMED, and once the unit is REFUSED (R286). -/
theorem not_coLocked {s : State} (hopen : s.obj 0x3600 1 < 3 ∨ 6 < s.obj 0x3600 1) : ¬ coLocked s = true := by
  simp only [coLocked, Bool.and_eq_true, decide_eq_true_eq]
  omega

theorem writeCoId_open {v : Nat} {s : State} (hopen : s.obj 0x3600 1 < 3 ∨ 6 < s.obj 0x3600 1) : writeCoId v s = .ok (s.setObj 0x3600 2 v) :=
  if_neg (not_coLocked hopen)

theorem writeTc_open {v : Nat} {s : State} (hopen : s.obj 0x3600 1 < 3 ∨ 6 < s.obj 0x3600 1) (hfuture : s.t + 2000000 ≤ v) :
    writeTc v s = .ok (s.setObj 0x3600 3 v) :=
  (if_neg (not_coLocked hopen)).trans (if_neg (Nat.not_lt.mpr hfuture))

/-- Settles O18: the state of the changeover selects the branch of each write's effect, and each event acts under its guard. -/
theorem changeoverCommands : Obligations.ChangeoverCommands := by
  unfold Obligations.ChangeoverCommands
  refine ⟨?drained, ?leaveReset, ?startLoad, ?acknowledge, ?coId, ?tC, ?arm, ?commit, ?cancel, ?deadline⟩
  case drained => exact fun _ _ hregion hdrained => execRegionDrained_drained hregion hdrained
  case leaveReset =>
    rintro s _ _ img hlocking rfl rfl
    show execRegionLeaveReset s = _
    simp only [execRegionLeaveReset, hlocking, done]
  case startLoad =>
    intro s path hacc hidle hfw hsource hafter
    exact congrArg _ ((sdoWrite_accepted _ hacc).trans (congrArg _ (writeControl_startLoad hidle hfw hsource hafter)))
  case acknowledge =>
    intro s path hacc hended
    exact congrArg _ ((sdoWrite_accepted _ hacc).trans (congrArg _ (writeControl_acknowledge hended)))
  case coId =>
    intro s path v hacc hopen
    exact congrArg _ ((sdoWrite_accepted _ hacc).trans (congrArg _ (writeCoId_open hopen)))
  case tC =>
    intro s path v hacc hopen hfuture
    exact congrArg _ ((sdoWrite_accepted _ hacc).trans (congrArg _ (writeTc_open hopen hfuture)))
  case arm => exact fun _ hloaded hid hfuture hlocked => if_pos ⟨hloaded, hid, hfuture, .inl hlocked⟩
  case commit =>
    intro s path v hacc harmed hid hearly hcounts
    exact congrArg _ ((sdoWrite_accepted _ hacc).trans (congrArg _ (if_pos ⟨harmed, hid, hearly, hcounts⟩)))
  case cancel =>
    intro s path v hacc hcommitted hid hearly
    refine congrArg _ ((sdoWrite_accepted _ hacc).trans (congrArg _ ?_))
    exact (if_pos ⟨.inl hcommitted, hid⟩).trans (if_pos ⟨hcommitted, hearly⟩)
  case deadline => exact fun _ harmed hlate => if_pos ⟨harmed, hlate⟩

/-- At T_c the planes change roles, and the timers and the shuttle halves of the new plane `b` start (R281 to R283, R331). -/
theorem execChangeoverInstant_flips {b : Bool} {s a v u : State} (hcommitted : s.obj 0x3600 1 = 4) (hdue : tC s ≤ s.t) (hplane : s.activeB = !b)
    (ha : a = (((s.setObj 0x3600 0x0B (b2n b)).setObj 0x3600 0x0D (tC s + s.obj 0x3600 0x0C)).setObj 0x3600 0x10 (s.obj 0x3600 0x11)).setObj
      0x3600 0x11 (s.obj 0x3600 0x10))
    (hv : v = if b then { a with timersB := armTimers (tC s) a.timersB } else { a with timersA := armTimers (tC s) a.timersA })
    (hu : u = (List.range 64).foldl (fun st m => if hasProgram (st.core m) b then startShuttleHalf m b (wakeShuttle m st) else st) v) :
    execChangeoverInstant s =
      .next (motifsShow (classesOn (coState 5 ((List.range 4).foldl (fun st h => st.interrupt (64 + h) 1) u)))) := by
  have hnew : (!s.activeB) = b := by rw [hplane, Bool.not_not]
  subst hnew
  rw [hu, hv, ha]
  exact if_pos ⟨hcommitted, hdue⟩

/-- Settles O19: the plane that was active names the new one, and with it the timers and the halves that start; the retirement's guard holds. -/
theorem changeoverInstants : Obligations.ChangeoverInstants := by
  unfold Obligations.ChangeoverInstants
  refine ⟨?toB, ?toA, ?retire⟩
  case toB => exact fun _ _ _ hcommitted hdue hplane ha hu => execChangeoverInstant_flips (b := true) hcommitted hdue hplane ha rfl hu
  case toA => exact fun _ _ _ hcommitted hdue hplane ha hu => execChangeoverInstant_flips (b := false) hcommitted hdue hplane ha rfl hu
  case retire =>
    rintro s _ _ hswitched hdue rfl rfl
    exact if_pos ⟨hswitched, hdue⟩

end Sys2Proof.Machine
end

section
/-! Frames on the config slave port: the one way an intact frame in turn is taken, and the effect of each kind (R260 to R265, R426, R428, R430). -/

namespace Sys2Proof.Machine
open Sys2Proof

/-- A frame reaches the frame layer while the port has a width and CFG_RDY is high (R260, R261). -/
theorem hostPort_served {s : State} {w : Nat} (hwidth : s.cfg.width = some w) (henabled : w ≠ 3) (hready : cfgReady s = true) (bs : List Byte) :
    hostPort bs s = hostFrame bs s := by
  simp [hostPort, hwidth, henabled, hready]

/-- The port takes the frame: it is relayed and noted as the last accepted SEQ over what the addressed unit does on it, and over the state as it is when
it addresses other units only (R262, R426). -/
theorem hostPort_takes {s u : State} {bs : List Byte} (h : HostTakes s bs)
    (heffect : (if bit (hostParse bs).mask (s.obj 0x3601 6) then hostAct (hostParse bs) s else some s) = some u) :
    hostPort bs s =
      hostRelay (bs.take (12 + (hostParse bs).len)) (hostParse bs) { u with cfg := { u.cfg with lastSeq := some (hostParse bs).seq } } := by
  obtain ⟨w, hwidth, henabled⟩ : ∃ w, s.cfg.width = some w ∧ w ≠ 3 := by
    obtain hw | hw | hw := h.width <;> exact ⟨_, hw, by decide⟩
  have hfresh := h.fresh
  rw [hostPort_served hwidth henabled h.ready]
  cases hlast : s.cfg.lastSeq with
  | none => simp only [hostFrame, h.intact, hlast, h.mask, heffect, reduceCtorEq, Bool.not_true, Bool.or_self, Bool.false_eq_true, if_false]
  | some q =>
    have hturn : ((hostParse bs).seq != (q + 1) % 65536) = false := bne_eq_false_iff_eq.mpr (h.next q hlast)
    rw [hlast] at hfresh
    simp only [hostFrame, h.intact, hlast, hfresh, hturn, h.mask, heffect, Bool.not_true, Bool.or_self, Bool.false_eq_true, if_false]

/-- A row whose selector takes every frame of a kind is a row of host frames of that kind. -/
theorem hostRow_of_selector {mk : FrameData → Instr} {sel kind : Nat → Nat → Bool} (hexec : ∀ data s, exec (mk data) s = hostRow sel data s)
    (hsel : ∀ k b, kind k b = true → sel k b = true) : HostRow mk kind := by
  rintro data _ _ s u rfl rfl htakes hkind
  have hrow : exec (mk data) s = .next (hostPort (byteData data) s) := (hexec data s).trans (congrArg _ (if_pos (hsel _ _ hkind)))
  refine ⟨fun haddressed hact => ?_, fun hothers => ?_⟩
  · exact hrow.trans (congrArg _ (hostPort_takes htakes ((if_pos haddressed).trans hact)))
  · exact hrow.trans (congrArg _ (hostPort_takes htakes (if_neg (ne_true_of_eq_false hothers))))

/-- Settles O23: the port's acceptance does not depend on the kind, which only selects the row. -/
theorem hostFrames : Obligations.HostFrames := by
  unfold Obligations.HostFrames
  refine ⟨?_, ?_, ?_, ?_, ?_, ?_, ?_, ?_, ?_, ?_, ?_, ?_, ?status, ?_, ?_⟩
  case status =>
    exact hostRow_of_selector (sel := fun k b => (k == 0x30 && !([1, 4, 5, 6, 7].contains b)) || kindUnknown k) (fun _ _ => rfl)
      fun _ _ hkind => Bool.or_eq_true_iff.mpr (.inl hkind)
  all_goals exact hostRow_of_selector (fun _ _ => rfl) fun _ _ hkind => hkind

section
variable {f : HostFrame} {s : State}

theorem hostAct_begin (hkind : f.kind = 1) : hostAct f s = hostBegin f s := if_pos hkind

theorem hostAct_data (hkind : f.kind = 2) : hostAct f s = hostData f s := by simp [hostAct, hkind]

theorem hostAct_end (hkind : f.kind = 3) : hostAct f s = if hostReceiving s ∧ f.len = 0 then some (loadWhole s) else none := by
  simp [hostAct, hkind]

theorem hostAct_abort (hkind : f.kind = 4) :
    hostAct f s = if f.len = 0 then some (if s.load.active ∧ s.load.source = 0 then abortLoad s else s) else none := by
  simp [hostAct, hkind]

theorem hostAct_read (hkind : f.kind = 0x30) : hostAct f s = hostRead f s := by simp [hostAct, hkind]

theorem hostAct_bqWrite (hlow : 0x20 ≤ f.kind) (hhigh : f.kind ≤ 0x23) : hostAct f s = hostBqWrite f s := by
  have h1 : f.kind ≠ 1 := by omega
  have h2 : f.kind ≠ 2 := by omega
  have h3 : f.kind ≠ 3 := by omega
  have h4 : f.kind ≠ 4 := by omega
  have h10 : f.kind ≠ 0x10 := by omega
  simp only [hostAct, h1, h2, h3, h4, h10, hlow, hhigh, if_false, and_self, if_true]

/-- A READ of the status is answered with its body, which shows the frame's own SEQ as the last accepted one (R264). -/
theorem hostRead_status (hlen : f.len = 4) (hwhat : le f.body 0 1 = 0) (hrest : le f.body 1 1 = 0) :
    hostRead f s = some (hostSend f 0x80 (statusBody { s with cfg := { s.cfg with lastSeq := some f.seq } }) s) := by
  have hlegal : ¬ (f.len ≠ 4 ∨ le f.body 1 1 ≠ 0) := by simp [hlen, hrest]
  exact (if_neg hlegal).trans (if_pos hwhat)

theorem hostBqWrite_legal (hlen : 8 ≤ f.len) (hprio : le f.body 0 4 < 4) :
    hostBqWrite f s = some (bqWrite (f.kind % 4) (le f.body 0 4) (leWords (f.body.drop 4)) s) := if_neg (by omega)

end

/-- The first width that the pins show is the port's (R260). -/
theorem execCfgWidthSample_first {mode : Nat} {s : State} (hmode : mode < 4) (hwidth : s.cfg.width = none) :
    execCfgWidthSample mode s = .next (({ s with cfg := { s.cfg with width := some mode } } : State).setObj 0x3601 7 mode) := by
  simp only [execCfgWidthSample, hwidth, Nat.mod_eq_of_lt hmode, Option.isSome_none, Bool.false_eq_true, if_false, done]

theorem execCfgWidthSample_fixed {mode w : Nat} {s : State} (hwidth : s.cfg.width = some w) : execCfgWidthSample mode s = .next s :=
  if_pos (by rw [hwidth, Option.isSome_some])

/-- A frame that is not intact counts as a frame error and does nothing else (R263). -/
theorem hostFrame_damaged {bs : List Byte} {s : State} (hdamaged : hostIntact bs = false) : hostFrame bs s = s.bump 0x3601 9 :=
  if_pos (by rw [hdamaged, Bool.not_false])

/-- Settles O24: the kind of a frame selects its effect, and each effect acts under its guard. -/
theorem hostFrameEffects : Obligations.HostFrameEffects := by
  unfold Obligations.HostFrameEffects
  refine ⟨?first, ?fixed, ?begin, ?data, ?finish, ?abort, ?status, ?bqWrite, ?damaged⟩
  case first => exact fun _ _ hmode hwidth => execCfgWidthSample_first hmode hwidth
  case fixed => exact fun _ _ _ hwidth => execCfgWidthSample_fixed hwidth
  case begin =>
    intro f s hkind hlen htarget hpad hmay
    exact (hostAct_begin hkind).trans (if_pos ⟨hlen, htarget, hpad, hmay⟩)
  case data =>
    intro f s hkind hreceiving hlen hoffset
    exact (hostAct_data hkind).trans (if_pos ⟨hreceiving, hlen, hoffset⟩)
  case finish =>
    intro f s hkind hreceiving hlen
    exact (hostAct_end hkind).trans (if_pos ⟨hreceiving, hlen⟩)
  case abort =>
    intro f s hkind hlen hactive hsource
    rw [hostAct_abort hkind, if_pos hlen, if_pos ⟨hactive, hsource⟩]
  case status => exact fun _ _ hkind hlen hwhat hrest => (hostAct_read hkind).trans (hostRead_status hlen hwhat hrest)
  case bqWrite => exact fun _ _ hlow hhigh hlen hprio => (hostAct_bqWrite hlow hhigh).trans (hostBqWrite_legal hlen hprio)
  case damaged =>
    intro data s hkind hwidth hready hdamaged
    have hrow : exec (.imageData data) s = .next (hostPort (byteData data) s) := congrArg _ (if_pos (beq_iff_eq.mpr hkind))
    rw [hrow, hostPort_served hwidth (by decide) hready, hostFrame_damaged (bs := byteData data) hdamaged]

end Sys2Proof.Machine
end

section
/-! File access over EtherCAT (R268, R271, R372, R380, R383, R485 to R489). -/

namespace Sys2Proof.Machine
open Sys2Proof

/-- A free MP takes a packet up at once (R380). -/
theorem foeArrives_free {s u : State} {p : FoePacket} (hfree : mpFree s = true) (h : foeDo p s = u) : done (foeArrives p s) = .next u :=
  congrArg _ ((if_pos hfree).trans h)

/-- A packet that comes while the MP serves something else stays in the empty mailbox, and waits its turn (R380, R383). -/
theorem foeArrives_busy {s : State} {p : FoePacket} (hbusy : mpFree s = false) (hservice : foeOpen s = true ∨ inBoot s = true)
    (hempty : s.ecat.foeWait = none) :
    foeArrives p s = { s with ecat := { s.ecat with foeWait := some p }, sdoWait := s.sdoWait ++ [{ kind := 9 }] } := by
  have hopen : (foeOpen s || inBoot s) = true := Bool.or_eq_true_iff.mpr hservice
  simp only [foeArrives, hbusy, hopen, hempty, Bool.not_true, Option.isSome_none, Bool.or_self, Bool.false_eq_true, if_false]

/-- A write request of an image that may begin starts the load of its kind (R268, R271). -/
theorem foeBegin_mayBegin {file kind slot : Nat} {s : State} (hopen : foeOpen s = true) (hslot : file = 0 → slot < recipeSlots s)
    (hfull : serviceOnly s = false) (hmay : mayBegin s kind slot 2 = true) :
    foeBegin file kind slot 0 s = beginLoad kind slot 2 0 (s.setFoe { active := true, file := file, slot := slot }) := by
  have hfound : ¬ (0 ≠ 0 ∨ (file = 0 ∧ recipeSlots s ≤ slot)) := by
    rintro (h | ⟨hfile, hle⟩)
    · exact h rfl
    · exact Nat.not_le.mpr (hslot hfile) hle
  simp only [foeBegin, hopen, hfound, hfull, hmay, Bool.not_true, Bool.or_self, Bool.false_eq_true, if_false]

/-- A data packet that fills the mailbox is appended, and the file goes on (R372). -/
theorem foeImage_full {file : Nat} {bs : List Byte} {s : State} (hopen : foeOpen s = true) (hactive : s.ecat.foe.active = true)
    (hwriting : s.ecat.foe.reading = false) (hfile : s.ecat.foe.file = file) (hfull : bs.length = foeMax s) (hload : s.load.active = true)
    (hsource : s.load.source = 2) :
    foeImage file bs s = loadBytes bs (s.setFoe { s.ecat.foe with packet := s.ecat.foe.packet + 1, error := none }) := by
  simp [foeImage, hopen, hactive, hwriting, hfile, hfull, hload, hsource]

/-- A read request of a stored recipe sends its first packet (R271). -/
theorem foeReadRecipe_stored {slot : Nat} {img : List Byte} {s : State} (hopen : foeOpen s = true) (hstored : mfind s.flash.recipes slot = some img)
    (hidle : s.ecat.foe.active = false) (hfull : serviceOnly s = false) :
    foeReadRecipe slot 0 true s = foeSend (s.setFoe { active := true, reading := true, slot := slot, rest := img }) := by
  simp [foeReadRecipe, hopen, hstored, hidle, hfull]

/-- In BOOT a firmware request opens the transfer when BEGIN would not be refused (R485, R486). -/
theorem foeWriteFirmware_request {s : State} (hboot : inBoot s = true) (hidle : s.ecat.foe.active = false)
    (hstate : [1, 2, 5, 6].contains (fwState s) = false) :
    foeWriteFirmware 0 true [] s = ({ s with update := { s.update with foe := false } } : State).setFoe { active := true, file := 3 } := by
  have hlegal : ¬ (s.ecat.foe.active = true ∨ [1, 2, 5, 6].contains (fwState s) = true) :=
    not_or.mpr ⟨ne_true_of_eq_false hidle, ne_true_of_eq_false hstate⟩
  exact (if_pos hboot).trans (if_neg hlegal)

theorem foeWriteFirmware_packet {pw : Nat} {bs : List Byte} {s : State} (hboot : inBoot s = true) : foeWriteFirmware pw false bs s = fwFoePacket bs s :=
  if_pos hboot

theorem foeReadFirmware_boot {s : State} (hboot : inBoot s = true) : foeReadFirmware s = foeRefuse .notFound s := if_pos (.inl hboot)

/-- Settles O26: a free MP does what the packet's file and kind say, one that is not leaves it in the mailbox; a due verdict is delivered. -/
theorem fileTransfers : Obligations.FileTransfers := by
  unfold Obligations.FileTransfers
  refine ⟨?recipe, ?shadow, ?region, ?packet, ?read, ?firmware, ?firmwarePacket, ?firmwareRead, ?verdict, ?waits⟩
  case recipe =>
    intro slot s hfree hopen hslot hfull hmay
    exact foeArrives_free hfree (foeBegin_mayBegin hopen (fun _ => hslot) hfull hmay)
  case shadow =>
    intro s hfree hopen hfull hmay
    exact foeArrives_free hfree (foeBegin_mayBegin hopen (fun h => absurd h (by decide)) hfull hmay)
  case region =>
    intro s hfree hopen hfull hmay
    exact foeArrives_free hfree (foeBegin_mayBegin hopen (fun h => absurd h (by decide)) hfull hmay)
  case packet =>
    intro pw bs s hfree hopen hactive hwriting hfile hfull hload hsource
    have hbytes : (byteData bs).length = foeMax s := (byteData_length bs).trans hfull
    exact foeArrives_free hfree (foeImage_full hopen hactive hwriting hfile hbytes hload hsource)
  case read =>
    intro slot img s hfree hopen hstored hidle hfull
    exact foeArrives_free hfree (foeReadRecipe_stored hopen hstored hidle hfull)
  case firmware =>
    intro s hfree hboot hidle hstate
    exact foeArrives_free hfree (foeWriteFirmware_request hboot hidle hstate)
  case firmwarePacket =>
    intro pw bs s hfree hboot
    exact foeArrives_free hfree (foeWriteFirmware_packet hboot)
  case firmwareRead =>
    intro pw s hfree hboot
    exact foeArrives_free hfree (foeReadFirmware_boot hboot)
  case verdict =>
    intro s sig hsig hdue
    show execUpdateVerdict s = _
    simp only [execUpdateVerdict, hsig, hdue, if_true, done]
  case waits =>
    intro slot pw req bs s hbusy hservice hempty
    exact congrArg _ (foeArrives_busy hbusy hservice hempty)

end Sys2Proof.Machine
end

section
/-! The end of a load's check, the jobs of the flash, and the return of the MP (R259, R270, R329, R480, R481, R483). -/

namespace Sys2Proof.Machine
open Sys2Proof

section
variable {failed : Nat} {s : State} (hactive : s.load.active = true) (hwhole : s.load.whole = true) (hwriting : recipeWriting s = false)
  (hmp : mpDown s = false)
include hactive hwhole hwriting hmp

theorem execLoadCheckComplete_stored (hkind : s.load.kind = 3) (hcheck : checkStored s s.load.buf = none) :
    execLoadCheckComplete failed s = .next (storeRecipe s.load.slot s.load.buf s) := by
  simp only [execLoadCheckComplete, hactive, hwhole, hwriting, hmp, hkind, hcheck, Bool.not_true, Bool.or_self, Bool.false_eq_true, if_false, if_true,
    done]

theorem execLoadCheckComplete_notStored {f : Refuse} (hkind : s.load.kind = 3) (hcheck : checkStored s s.load.buf = some f) :
    execLoadCheckComplete failed s = .next (endLoad (some f) s) := by
  simp only [execLoadCheckComplete, hactive, hwhole, hwriting, hmp, hkind, hcheck, Bool.not_true, Bool.or_self, Bool.false_eq_true, if_false, if_true,
    done]

theorem execLoadCheckComplete_refused {f : Refuse} (hkind : s.load.kind ≠ 3) (hcheck : checkAll s s.load.kind s.load.buf = some f) :
    execLoadCheckComplete failed s = .next (loadRefused f s) := by
  simp only [execLoadCheckComplete, hactive, hwhole, hwriting, hmp, hkind, hcheck, Bool.not_true, Bool.or_self, Bool.false_eq_true, if_false, done]

/-- A load that passes every check turns on the hoop halves it needs, all of which come on, and is written (R259, R517). -/
theorem execLoadCheckComplete_accepted (hkind : s.load.kind ≠ 3) (hcheck : checkAll s s.load.kind s.load.buf = none)
    (hhalves : (halvesNeeded s.load.buf s).find? (fun d => bit failed d) = none) :
    execLoadCheckComplete failed s =
      .next (loadAccepted s.load.buf ((halvesNeeded s.load.buf s).foldl (fun st d => domainReach d true st) s)) := by
  simp only [execLoadCheckComplete, hactive, hwhole, hwriting, hmp, hkind, hcheck, hhalves, Bool.not_true, Bool.or_self, Bool.false_eq_true, if_false,
    done]

end

/-- The erase that runs is done, and so is its entry of the intent log (R480, R483). -/
theorem execFlashEraseComplete_noted {s : State} {j : FlashJob} {js : List FlashJob} (hrunning : s.flash.running = true) (hjobs : s.flash.jobs = j :: js)
    (herase : j.erase = true) (horphan : s.flash.orphan = false) :
    execFlashEraseComplete s = .next (flashNext (s.setFlash (intentDone j.addr s.flash))) := by
  simp only [execFlashEraseComplete, hrunning, hjobs, herase, horphan, Bool.false_eq_true, if_false, if_true, done]

/-- The last page of a copy of the saved values makes the copy valid (R355, R481). -/
theorem execFlashProgramComplete_saved {s : State} {j : FlashJob} {js : List FlashJob} {c : Nat} {v : SavedCopy} (hrunning : s.flash.running = true)
    (hjobs : s.flash.jobs = j :: js) (hprogram : j.erase = false) (hpurpose : j.purpose = 3) (heffect : j.effect = .saved c v) :
    execFlashProgramComplete s = .next (flashNext (s.setFlash { s.flash with saved := mput s.flash.saved c v })) := by
  have hother : j.purpose ≠ 1 := by rw [hpurpose]; decide
  simp only [execFlashProgramComplete, hrunning, hjobs, hprogram, hother, heffect, flashEffect, Bool.false_eq_true, if_false, done]

/-- The MP returns with a valid slot whose image has run before: its firmware runs, and what waits is served (R329). -/
theorem execMpRestartDone_valid {s : State} (hdown : s.obj 0x3030 1 ≠ 0) (hvalid : slotValid (s.setObj 0x3030 1 0) = true)
    (hseen : imageNew (s.setObj 0x3030 1 0) = false) :
    execMpRestartDone s = .next (serveNext (mailPump (runFirmware (s.setObj 0x3030 1 0)))) := by
  simp only [execMpRestartDone, hdown, hvalid, hseen, Bool.false_eq_true, if_false, if_true, done]

/-- Settles O36: the image's kind and its check decide the end of a load, the job that runs decides what is done, and the slot what the MP runs. -/
theorem loadsAndFlash : Obligations.LoadsAndFlash := by
  unfold Obligations.LoadsAndFlash
  refine ⟨?stored, ?notStored, ?accepted, ?refused, ?erase, ?program, ?restart⟩
  case stored =>
    intro failed s hactive hwhole hwriting hmp hkind hcheck
    exact execLoadCheckComplete_stored hactive hwhole hwriting hmp hkind hcheck
  case notStored =>
    intro failed f s hactive hwhole hwriting hmp hkind hcheck
    exact execLoadCheckComplete_notStored hactive hwhole hwriting hmp hkind hcheck
  case accepted =>
    intro s hactive hwhole hwriting hmp hkind hcheck hhalves
    exact execLoadCheckComplete_accepted hactive hwhole hwriting hmp hkind hcheck hhalves
  case refused =>
    intro failed f s hactive hwhole hwriting hmp hkind hcheck
    exact execLoadCheckComplete_refused hactive hwhole hwriting hmp hkind hcheck
  case erase => exact fun _ _ _ hrunning hjobs herase horphan => execFlashEraseComplete_noted hrunning hjobs herase horphan
  case program =>
    intro s j js c v hrunning hjobs hprogram hpurpose heffect
    exact execFlashProgramComplete_saved hrunning hjobs hprogram hpurpose heffect
  case restart =>
    rintro s _ hdown rfl hvalid hseen
    exact execMpRestartDone_valid hdown hvalid hseen

end Sys2Proof.Machine
end

section
/-! The words of the Fizhaig instructions (R332, R333): a decoder by the fields of Tables 8.12 and 8.13, as the inverse of `encodeFizhaig`. Its definitions
are noncomputable because the runtime does not hold constructor numbers as high as those of these instructions. -/

namespace Sys2Proof.Machine
open Sys2Proof

/-- The FP instruction of the low 6 bits of FUNC; the fused ones have fc above them (Table 8.13). -/
noncomputable def fpInstrOf (c e d a b f : Nat) : Nat → Option Instr
  | 0x00 => some (.fzFadd c d a b e)
  | 0x01 => some (.fzFsub c d a b e)
  | 0x02 => some (.fzFmul c d a b e)
  | 0x03 => some (.fzFdiv c d a b e)
  | 0x04 => some (.fzFsqrt c d a e)
  | 0x05 => some (.fzFma c d a b f e)
  | 0x06 => some (.fzFms c d a b f e)
  | 0x07 => some (.fzFnma c d a b f e)
  | 0x08 => some (.fzFmin c d a b e)
  | 0x09 => some (.fzFmax c d a b e)
  | 0x0A => some (.fzFcmplt c d a b e)
  | 0x0B => some (.fzFcmple c d a b e)
  | 0x0C => some (.fzFcmpeq c d a b e)
  | 0x0D => some (.fzFtoi c d a e)
  | 0x0E => some (.fzFtoir c d a e)
  | 0x0F => some (.fzItof c d a e)
  | 0x10 => some (.fzFmvgf c d a e)
  | 0x11 => some (.fzFmvfg c d a e)
  | 0x12 => some (.fzFabs c d a e)
  | 0x13 => some (.fzFneg c d a e)
  | _ => none

/-- The instruction of OP 0 and a FUNC: a register operation (Table 8.13). -/
noncomputable def aluInstrOf (c d a b : Nat) : Nat → Option Instr
  | 0x000 => some (.fzAdd c d a b)
  | 0x001 => some (.fzSub c d a b)
  | 0x002 => some (.fzAnd c d a b)
  | 0x003 => some (.fzOr c d a b)
  | 0x004 => some (.fzXor c d a b)
  | 0x005 => some (.fzAndn c d a b)
  | 0x008 => some (.fzSll c d a b)
  | 0x009 => some (.fzSrl c d a b)
  | 0x00A => some (.fzSra c d a b)
  | 0x00B => some (.fzRor c d a b)
  | 0x010 => some (.fzSlt c d a b)
  | 0x011 => some (.fzSltu c d a b)
  | 0x012 => some (.fzMin c d a b)
  | 0x013 => some (.fzMax c d a b)
  | 0x014 => some (.fzClz c d a)
  | _ => none

/-- The instruction of OP 1 and a FUNC: a multiplication or division (Table 8.13). -/
noncomputable def mulInstrOf (c d a b : Nat) : Nat → Option Instr
  | 0x000 => some (.fzMul c d a b)
  | 0x001 => some (.fzMulh c d a b)
  | 0x002 => some (.fzMulhu c d a b)
  | 0x004 => some (.fzDiv c d a b)
  | 0x005 => some (.fzDivu c d a b)
  | 0x006 => some (.fzRem c d a b)
  | 0x007 => some (.fzRemu c d a b)
  | _ => none

/-- The system instruction of a FUNC (Table 8.13). -/
noncomputable def systemInstrOf (c e a : Nat) : Nat → Option Instr
  | 0x000 => some (.fzCtx c a e)
  | 0x001 => some (.fzSavl c)
  | 0x002 => some (.fzSavu c)
  | 0x003 => some (.fzRstl c e)
  | 0x004 => some (.fzRstu c e)
  | 0x005 => some (.fzSavf c)
  | 0x006 => some (.fzRstf c e)
  | 0x008 => some (.fzRfe c e)
  | 0x009 => some (.fzRfi c)
  | 0x00A => some (.fzWait c)
  | 0x00B => some (.fzSys c)
  | 0x00C => some (.fzBrk c)
  | 0x00D => some (.fzFence c)
  | 0x00E => some (.fzEi c)
  | 0x00F => some (.fzDi c)
  | _ => none

/-- The instruction of an OP without FUNC, with two register fields and [15:0] (Table 8.13). -/
noncomputable def immInstrOf (c e d a imm : Nat) : Nat → Option Instr
  | 0x04 => some (.fzAddi c d a imm)
  | 0x05 => some (.fzAndi c d a imm)
  | 0x06 => some (.fzOri c d a imm)
  | 0x07 => some (.fzXori c d a imm)
  | 0x08 => some (.fzSlti c d a imm)
  | 0x09 => some (.fzSltiu c d a imm)
  | 0x0A => some (.fzSlli c d a imm)
  | 0x0B => some (.fzSrli c d a imm)
  | 0x0C => some (.fzSrai c d a imm)
  | 0x0D => some (.fzLui c d imm)
  | 0x10 => some (.fzLw c d a imm e)
  | 0x11 => some (.fzLh c d a imm e)
  | 0x12 => some (.fzLhu c d a imm e)
  | 0x13 => some (.fzLb c d a imm e)
  | 0x14 => some (.fzLbu c d a imm e)
  | 0x15 => some (.fzSwap c d a imm e)
  | 0x18 => some (.fzSw c d a imm e)
  | 0x19 => some (.fzSh c d a imm e)
  | 0x1A => some (.fzSb c d a imm e)
  | 0x1C => some (.fzClw c d a imm)
  | 0x1D => some (.fzClh c d a imm)
  | 0x1E => some (.fzClb c d a imm)
  | 0x1F => some (.fzCld c d a imm)
  | 0x20 => some (.fzCsw c d a imm)
  | 0x21 => some (.fzCsh c d a imm)
  | 0x22 => some (.fzCsb c d a imm)
  | 0x23 => some (.fzCsd c d a imm)
  | 0x28 => some (.fzBeq c d a imm)
  | 0x29 => some (.fzBne c d a imm)
  | 0x2A => some (.fzBlt c d a imm)
  | 0x2B => some (.fzBge c d a imm)
  | 0x2C => some (.fzBltu c d a imm)
  | 0x2D => some (.fzBgeu c d a imm)
  | 0x32 => some (.fzJalr c d a imm)
  | 0x3D => some (.fzFlw c d a imm e)
  | 0x3E => some (.fzFsw c d a imm e)
  | _ => none

/-- The instruction of the fields of a word: OP, the register fields, FUNC, the immediate and the displacement (Tables 8.12, 8.13). -/
noncomputable def instrOfFields (c e op d a b f imm disp : Nat) : Option Instr :=
  match op with
  | 0x00 => aluInstrOf c d a b f
  | 0x01 => mulInstrOf c d a b f
  | 0x30 => some (.fzJ c disp)
  | 0x31 => some (.fzJal c disp)
  | 0x38 => systemInstrOf c e a f
  | 0x3C => fpInstrOf c e d a b (f / 64) (f % 64)
  | _ => immInstrOf c e d a imm op

/-- The instruction of a core, a memory state and a word. -/
noncomputable def decodeFizhaig (x : Nat × Nat × Nat) : Option Instr :=
  let w := x.2.2
  instrOfFields x.1 x.2.1 (w / 2 ^ 26) (w / 2 ^ 21 % 2 ^ 5) (w / 2 ^ 16 % 2 ^ 5) (w / 2 ^ 11 % 2 ^ 5) (w % 2 ^ 11) (w % 2 ^ 16) (w % 2 ^ 26)

/-- The word of an instruction is 32 bits long, no reserved encoding, and decoded to the instruction. -/
structure FzDecodes (i : Instr) (x : Nat × Nat × Nat) : Prop where
  bound : x.2.2 < 2 ^ 32
  opcode : isOpcode x.2.2 = true
  decoded : decodeFizhaig x = some i

theorem opTable_op_lt : ∀ r ∈ opTable, r.op < 2 ^ 6 := by decide

/-- A word of OP and 26 bits below it that fits a row of Table 8.13. -/
theorem FzDecodes.of_row {i : Instr} {c e op disp : Nat} {fbits func : Nat} {zeros : List (Nat × Nat)}
    (hrow : ⟨op, fbits, func, zeros⟩ ∈ opTable) (hdisp : disp < 2 ^ 26) (hfunc : (op * 2 ^ 26 + disp) % 2 ^ fbits = func)
    (hzeros : ∀ z ∈ zeros, field (op * 2 ^ 26 + disp) z.1 z.2 = 0)
    (hdec : instrOfFields c e op (disp / 2 ^ 21) (disp / 2 ^ 16 % 2 ^ 5) (disp / 2 ^ 11 % 2 ^ 5) (disp % 2 ^ 11) (disp % 2 ^ 16) disp = some i) :
    FzDecodes i (c, e, op * 2 ^ 26 + disp) := by
  have hop : op < 2 ^ 6 := opTable_op_lt _ hrow
  refine ⟨?bound, ?opcode, ?decoded⟩
  case bound => dsimp only; omega
  case opcode =>
    have hfield : field (op * 2 ^ 26 + disp) 31 26 = op := by simp only [field]; omega
    refine List.any_eq_true.mpr ⟨_, hrow, ?_⟩
    simp only [OpRow.fits, Bool.and_eq_true, List.all_eq_true, beq_iff_eq]
    exact ⟨⟨hfield, hfunc⟩, hzeros⟩
  case decoded =>
    rw [← hdec, decodeFizhaig]
    congr 1 <;> dsimp only <;> omega

/-- A word with two register fields and [15:0]. -/
theorem FzDecodes.of_wordI {i : Instr} {c e op d a imm : Nat} {zeros : List (Nat × Nat)} (hd : d < 2 ^ 5) (ha : a < 2 ^ 5) (himm : imm < 2 ^ 16)
    (hrow : ⟨op, 0, 0, zeros⟩ ∈ opTable) (hzeros : ∀ z ∈ zeros, field (fzWordI op d a imm) z.1 z.2 = 0)
    (hdec : ∀ b f disp, instrOfFields c e op d a b f imm disp = some i) : FzDecodes i (c, e, fzWordI op d a imm) := by
  have hword : fzWordI op d a imm = op * 2 ^ 26 + (d * 2 ^ 21 + a * 2 ^ 16 + imm) := by simp only [fzWordI, Nat.add_assoc]
  rw [hword] at hzeros ⊢
  refine .of_row hrow (by omega) (Nat.mod_one _) hzeros ?_
  have hfd : (d * 2 ^ 21 + a * 2 ^ 16 + imm) / 2 ^ 21 = d := by omega
  have hfa : (d * 2 ^ 21 + a * 2 ^ 16 + imm) / 2 ^ 16 % 2 ^ 5 = a := by omega
  have hfimm : (d * 2 ^ 21 + a * 2 ^ 16 + imm) % 2 ^ 16 = imm := by omega
  rw [hfd, hfa, hfimm, hdec]

/-- The fields below OP of a word with three registers. -/
theorem registers_and_func (d : Nat) {a b f : Nat} (ha : a < 2 ^ 5) (hb : b < 2 ^ 5) (hf : f < 2 ^ 11) :
    (d * 2 ^ 21 + a * 2 ^ 16 + b * 2 ^ 11 + f) / 2 ^ 21 = d ∧ (d * 2 ^ 21 + a * 2 ^ 16 + b * 2 ^ 11 + f) / 2 ^ 16 % 2 ^ 5 = a ∧
      (d * 2 ^ 21 + a * 2 ^ 16 + b * 2 ^ 11 + f) / 2 ^ 11 % 2 ^ 5 = b ∧ (d * 2 ^ 21 + a * 2 ^ 16 + b * 2 ^ 11 + f) % 2 ^ 11 = f := by
  omega

/-- A word with three register fields and FUNC. -/
theorem FzDecodes.of_wordR {i : Instr} {c e op d a b f fbits : Nat} {zeros : List (Nat × Nat)} (hd : d < 2 ^ 5) (ha : a < 2 ^ 5) (hb : b < 2 ^ 5)
    (hf : f < 2 ^ 11) (hbits : fbits ≤ 11) (hrow : ⟨op, fbits, f % 2 ^ fbits, zeros⟩ ∈ opTable)
    (hzeros : ∀ z ∈ zeros, field (fzWordR op d a b f) z.1 z.2 = 0)
    (hdec : ∀ imm disp, instrOfFields c e op d a b f imm disp = some i) : FzDecodes i (c, e, fzWordR op d a b f) := by
  have hword : fzWordR op d a b f = op * 2 ^ 26 + (d * 2 ^ 21 + a * 2 ^ 16 + b * 2 ^ 11 + f) := by simp only [fzWordR, Nat.add_assoc]
  have hfunc : (op * 2 ^ 26 + (d * 2 ^ 21 + a * 2 ^ 16 + b * 2 ^ 11 + f)) % 2 ^ fbits = f % 2 ^ fbits := by
    have hmod : (op * 2 ^ 26 + (d * 2 ^ 21 + a * 2 ^ 16 + b * 2 ^ 11 + f)) % 2 ^ 11 = f % 2 ^ 11 := by omega
    rw [← Nat.mod_mod_of_dvd _ (Nat.pow_dvd_pow 2 hbits), hmod, Nat.mod_mod_of_dvd _ (Nat.pow_dvd_pow 2 hbits)]
  rw [hword] at hzeros ⊢
  refine .of_row hrow (by omega) hfunc hzeros ?_
  obtain ⟨hfd, hfa, hfb, hff⟩ := registers_and_func d ha hb hf
  rw [hfd, hfa, hfb, hff, hdec]

/-! ## The instructions of each format, from their checks of well-formedness -/

section
variable {i : Instr} {c e op d a b f imm : Nat} {x : Nat × Nat × Nat}

/-- Three general registers. -/
theorem FzDecodes.of_regs3 (henc : some (c, e, fzWordR op d a b f) = some x) (hwf : (coreOk c && regOk d && regOk a && regOk b) = true)
    (hf : f < 2 ^ 11) (hrow : ⟨op, 11, f % 2 ^ 11, []⟩ ∈ opTable) (hdec : ∀ imm disp, instrOfFields c e op d a b f imm disp = some i) :
    FzDecodes i x := by
  obtain rfl := Option.some.inj henc
  simp only [regOk, Bool.and_eq_true, decide_eq_true_eq] at hwf
  obtain ⟨⟨⟨-, hd⟩, ha⟩, hb⟩ := hwf
  exact .of_wordR hd ha hb hf (Nat.le_refl _) hrow (List.forall_mem_nil _) hdec

/-- Three f registers, or two and a general one. -/
theorem FzDecodes.of_fregs3 (henc : some (c, e, fzWordR op d a b f) = some x)
    (hwf : (coreOk c && regOk d && regOk a && regOk b && decide (e < 3)) = true) (hf : f < 2 ^ 11) (hrow : ⟨op, 6, f % 2 ^ 6, []⟩ ∈ opTable)
    (hdec : ∀ imm disp, instrOfFields c e op d a b f imm disp = some i) : FzDecodes i x := by
  obtain rfl := Option.some.inj henc
  simp only [regOk, Bool.and_eq_true, decide_eq_true_eq] at hwf
  obtain ⟨⟨⟨⟨-, hd⟩, ha⟩, hb⟩, -⟩ := hwf
  exact .of_wordR hd ha hb hf (by decide) hrow (List.forall_mem_nil _) hdec

/-- An f register of one register: rb's field is 0. -/
theorem FzDecodes.of_fregs2 (henc : some (c, e, fzWordR op d a 0 f) = some x)
    (hwf : (coreOk c && regOk d && regOk a && decide (e < 3)) = true) (hf : f < 2 ^ 11) (hrow : ⟨op, 6, f % 2 ^ 6, []⟩ ∈ opTable)
    (hdec : ∀ imm disp, instrOfFields c e op d a 0 f imm disp = some i) : FzDecodes i x := by
  obtain rfl := Option.some.inj henc
  simp only [regOk, Bool.and_eq_true, decide_eq_true_eq] at hwf
  obtain ⟨⟨⟨-, hd⟩, ha⟩, -⟩ := hwf
  exact .of_wordR hd ha (by decide) hf (by decide) hrow (List.forall_mem_nil _) hdec

/-- A fused FP operation: fc stands above the low 6 bits of FUNC. -/
theorem FzDecodes.of_fregs4 {g k : Nat} (henc : some (c, e, fzWordR op d a b (64 * g + k)) = some x)
    (hwf : (coreOk c && regOk d && regOk a && regOk b && regOk g && decide (e < 3)) = true) (hk : k < 2 ^ 6) (hrow : ⟨op, 6, k, []⟩ ∈ opTable)
    (hdec : ∀ f imm disp, f / 64 = g → f % 64 = k → instrOfFields c e op d a b f imm disp = some i) : FzDecodes i x := by
  obtain rfl := Option.some.inj henc
  simp only [regOk, Bool.and_eq_true, decide_eq_true_eq] at hwf
  obtain ⟨⟨⟨⟨⟨-, hd⟩, ha⟩, hb⟩, hg⟩, -⟩ := hwf
  have hlow : (64 * g + k) % 2 ^ 6 = k := by omega
  have hhigh : (64 * g + k) / 64 = g := by omega
  exact .of_wordR hd ha hb (by omega) (by decide) (hlow.symm ▸ hrow) (List.forall_mem_nil _) fun _ _ => hdec _ _ _ hhigh hlow

/-- Two registers and an immediate or displacement of 16 bits. -/
theorem FzDecodes.of_imm (henc : some (c, e, fzWordI op d a imm) = some x) (hwf : (coreOk c && regOk d && regOk a && decide (imm < 2 ^ 16)) = true)
    (hrow : ⟨op, 0, 0, []⟩ ∈ opTable) (hdec : ∀ b f disp, instrOfFields c e op d a b f imm disp = some i) : FzDecodes i x := by
  obtain rfl := Option.some.inj henc
  simp only [regOk, Bool.and_eq_true, decide_eq_true_eq] at hwf
  obtain ⟨⟨⟨-, hd⟩, ha⟩, himm⟩ := hwf
  exact .of_wordI hd ha himm hrow (List.forall_mem_nil _) hdec

/-- An access of a memory word: the same fields, with the word's state. -/
theorem FzDecodes.of_memory (henc : some (c, e, fzWordI op d a imm) = some x)
    (hwf : (coreOk c && regOk d && regOk a && decide (imm < 2 ^ 16) && decide (e < 3)) = true)
    (hrow : ⟨op, 0, 0, []⟩ ∈ opTable) (hdec : ∀ b f disp, instrOfFields c e op d a b f imm disp = some i) : FzDecodes i x :=
  .of_imm henc (Bool.and_eq_true_iff.mp hwf).1 hrow hdec

/-- A shift by an immediate: imm[15:5] is 0. -/
theorem FzDecodes.of_shift (henc : some (c, e, fzWordI op d a imm) = some x) (hwf : (coreOk c && regOk d && regOk a && decide (imm < 32)) = true)
    (hrow : ⟨op, 0, 0, [(15, 5)]⟩ ∈ opTable) (hdec : ∀ b f disp, instrOfFields c e op d a b f imm disp = some i) : FzDecodes i x := by
  obtain rfl := Option.some.inj henc
  simp only [regOk, Bool.and_eq_true, decide_eq_true_eq] at hwf
  obtain ⟨⟨⟨-, hd⟩, ha⟩, himm⟩ := hwf
  refine .of_wordI hd ha (by omega) hrow ?_ hdec
  simp only [List.forall_mem_singleton, field, fzWordI]
  omega

/-- A system instruction without a field. -/
theorem FzDecodes.of_noFields {zeros : List (Nat × Nat)} (hrow : ⟨op, 11, f % 2 ^ 11, zeros⟩ ∈ opTable) (henc : some (c, e, fzWordR op 0 0 0 f) = some x)
    (hf : f < 2 ^ 11) (hzeros : ∀ z ∈ zeros, field (fzWordR op 0 0 0 f) z.1 z.2 = 0)
    (hdec : ∀ imm disp, instrOfFields c e op 0 0 0 f imm disp = some i) : FzDecodes i x := by
  obtain rfl := Option.some.inj henc
  exact .of_wordR (by decide) (by decide) (by decide) hf (by decide) hrow hzeros hdec

/-- A displacement of 26 bits. -/
theorem FzDecodes.of_jump {disp : Nat} (henc : some (c, e, op * 2 ^ 26 + disp) = some x) (hwf : (coreOk c && decide (disp < 2 ^ 26)) = true)
    (hrow : ⟨op, 0, 0, []⟩ ∈ opTable) (hdec : ∀ d a b f imm, instrOfFields c e op d a b f imm disp = some i) : FzDecodes i x := by
  obtain rfl := Option.some.inj henc
  simp only [Bool.and_eq_true, decide_eq_true_eq] at hwf
  exact .of_row hrow hwf.2 (Nat.mod_one _) (List.forall_mem_nil _) (hdec ..)

end

/-- Every word `encodeFizhaig` gives is decoded again. -/
theorem encodeFizhaig_decodes {i : Instr} {x : Nat × Nat × Nat} (hwf : i.wf = true) (henc : encodeFizhaig i = some x) : FzDecodes i x := by
  cases i with
  | fzAdd | fzSub | fzAnd | fzOr | fzXor | fzAndn | fzSll | fzSrl | fzSra | fzRor | fzSlt | fzSltu | fzMin | fzMax
  | fzMul | fzMulh | fzMulhu | fzDiv | fzDivu | fzRem | fzRemu => exact .of_regs3 henc hwf (by decide) (by decide) fun _ _ => rfl
  | fzClz c d a =>
    obtain rfl := Option.some.inj henc
    replace hwf : (coreOk c && regOk d && regOk a) = true := hwf
    simp only [regOk, Bool.and_eq_true, decide_eq_true_eq] at hwf
    obtain ⟨⟨-, hd⟩, ha⟩ := hwf
    refine .of_wordR (fbits := 11) (zeros := [(15, 11)]) hd ha (by decide) (by decide) (by decide) (by decide) ?_ fun _ _ => rfl
    simp only [List.forall_mem_singleton, field, fzWordR]
    omega
  | fzCtx c a e =>
    obtain rfl := Option.some.inj henc
    replace hwf : (coreOk c && regOk a && decide (e < 3)) = true := hwf
    simp only [regOk, Bool.and_eq_true, decide_eq_true_eq] at hwf
    obtain ⟨⟨-, ha⟩, -⟩ := hwf
    refine .of_wordR (fbits := 11) (zeros := [(25, 21), (15, 11)]) (by decide) ha (by decide) (by decide) (by decide) (by decide) ?_ fun _ _ => rfl
    refine List.forall_mem_cons.mpr ⟨?_, List.forall_mem_singleton.mpr ?_⟩
    all_goals
      simp only [field, fzWordR]
      omega
  | fzSavl | fzSavu | fzRstl | fzRstu => exact .of_noFields (zeros := [(25, 11)]) (by decide) henc (by decide) (by decide) fun _ _ => rfl
  | fzSavf | fzRstf | fzRfe | fzRfi | fzWait | fzSys | fzBrk | fzFence | fzEi | fzDi =>
    exact .of_noFields (zeros := []) (by decide) henc (by decide) (by decide) fun _ _ => rfl
  | fzFadd | fzFsub | fzFmul | fzFdiv | fzFmin | fzFmax | fzFcmplt | fzFcmple | fzFcmpeq =>
    exact .of_fregs3 henc hwf (by decide) (by decide) fun _ _ => rfl
  | fzFsqrt | fzFtoi | fzFtoir | fzItof | fzFmvgf | fzFmvfg | fzFabs | fzFneg => exact .of_fregs2 henc hwf (by decide) (by decide) fun _ _ => rfl
  | fzFma | fzFms | fzFnma =>
    refine .of_fregs4 henc hwf (by decide) (by decide) fun f _ _ hhigh hlow => ?_
    rw [instrOfFields, hhigh, hlow, fpInstrOf]
  | fzAddi | fzAndi | fzOri | fzXori | fzSlti | fzSltiu | fzClw | fzClh | fzClb | fzCld | fzCsw | fzCsh | fzCsb | fzCsd
  | fzBeq | fzBne | fzBlt | fzBge | fzBltu | fzBgeu | fzJalr => exact .of_imm henc hwf (by decide) fun _ _ _ => rfl
  | fzLw | fzLh | fzLhu | fzLb | fzLbu | fzSwap | fzSw | fzSh | fzSb | fzFlw | fzFsw => exact .of_memory henc hwf (by decide) fun _ _ _ => rfl
  | fzSlli | fzSrli | fzSrai => exact .of_shift henc hwf (by decide) fun _ _ _ => rfl
  | fzLui c d imm =>
    obtain rfl := Option.some.inj henc
    replace hwf : (coreOk c && regOk d && decide (imm < 2 ^ 16)) = true := hwf
    simp only [regOk, Bool.and_eq_true, decide_eq_true_eq] at hwf
    obtain ⟨⟨-, hd⟩, himm⟩ := hwf
    refine .of_wordI (zeros := [(20, 16)]) hd (by decide) himm (by decide) ?_ fun _ _ _ => rfl
    simp only [List.forall_mem_singleton, field, fzWordI]
    omega
  | fzJ | fzJal => exact .of_jump henc hwf (by decide) fun _ _ _ _ _ => rfl
  | _ => exact absurd henc.symm (Option.some_ne_none x)

theorem or_two_pow_sub_one {v n : Nat} (hv : v < 2 ^ n) : v ||| (2 ^ n - 1) = 2 ^ n - 1 := by
  refine Nat.eq_of_testBit_eq fun k => ?_
  rw [Nat.testBit_or, Nat.testBit_two_pow_sub_one]
  rcases Nat.lt_or_ge k n with hk | hk
  · simp [hk]
  · simp [Nat.testBit_lt_two_pow (Nat.lt_of_lt_of_le hv (Nat.pow_le_pow_right (by decide) hk))]

/-- The 15 bits between OP and FUNC of an RFE are lost in the mask of its ignored bits. -/
theorem rfe_word_or_ignored {v : Nat} (hv : v < 2 ^ 15) : (0xE0000008 + 2048 * v) ||| 0x3FFF800 = 0xE0000008 ||| 0x3FFF800 := by
  have hword : 0xE0000008 + 2048 * v = 2 ^ 26 * 56 ||| (2 ^ 11 * v ||| 8) := by
    rw [← Nat.two_pow_add_eq_or_of_lt (b := 8) (by decide) v, ← Nat.two_pow_add_eq_or_of_lt (by omega) 56]
    omega
  have hmask : 2 ^ 11 * v ||| 0x3FFF800 = 0x3FFF800 := by
    calc 2 ^ 11 * v ||| 0x3FFF800 = v <<< 11 ||| (2 ^ 15 - 1) <<< 11 := by rw [Nat.shiftLeft_eq v, Nat.mul_comm]; rfl
      _ = (v ||| (2 ^ 15 - 1)) <<< 11 := Nat.shiftLeft_or_distrib.symm
      _ = 0x3FFF800 := by rw [or_two_pow_sub_one hv]; rfl
  calc (0xE0000008 + 2048 * v) ||| 0x3FFF800 = (2 ^ 26 * 56 ||| 8) ||| (2 ^ 11 * v ||| 0x3FFF800) := by rw [hword]; ac_rfl
    _ = 0xE0000008 ||| 0x3FFF800 := by rw [hmask]; rfl

/-- Settles O60: the words are decoded to their instructions, so that no two instructions share one. -/
theorem fizhaigWords : Obligations.FizhaigWords := by
  unfold Obligations.FizhaigWords
  refine ⟨?word, ?unique, ?spelled, ?ignored⟩
  case word =>
    intro i c e w hwf henc
    obtain ⟨hbound, hopcode, -⟩ := encodeFizhaig_decodes hwf henc
    exact ⟨hbound, hopcode, by simp [fizhaigSpells, henc]⟩
  case unique =>
    intro i j x hi hj hix hjx
    have hdecoded := (encodeFizhaig_decodes hi hix).decoded
    exact Option.some.inj (hdecoded.symm.trans (encodeFizhaig_decodes hj hjx).decoded)
  case spelled => exact ⟨rfl, rfl, rfl, rfl, rfl, rfl, rfl, rfl, rfl⟩
  case ignored =>
    intro c v hv
    have hspells : fizhaigSpells c (0xE0000008 + 2048 * v) (.fzRfe c 0) =
        (c == c && (0xE0000008 + 2048 * v ||| 0x3FFF800) == (0xE0000008 ||| 0x3FFF800)) := rfl
    rw [hspells, rfe_word_or_ignored hv, beq_self_eq_true, beq_self_eq_true, Bool.true_and]

end Sys2Proof.Machine
end

section
/-! The integer instructions of a Fizhaig core: register operations, immediates, branches and jumps (R299, R323, R332, R333). -/

namespace Sys2Proof.Machine
open Sys2Proof

/-! ## Results into a register -/

/-- An instruction on the registers of the current bank writes its register and goes on. -/
theorem fzAlu_runs {c : Nat} {s : State} (h : FzRuns c s) (rd : Nat) (v : FBank → Word) :
    fzAlu c rd v s = .next (fzNext c (fzSetReg c rd (v (s.core c).here) s)) :=
  fzDo_ok h rfl

theorem fzAluRow_of_fzAlu {mk : Nat → Nat → Nat → Nat → Instr} {f g : Word → Word → Word}
    (hg : ∀ a b, g a b = f a b) (hexec : ∀ c rd ra rb s, exec (mk c rd ra rb) s = fzAlu c rd (fun b => g (b.g ra) (b.g rb)) s) :
    FzAluRow mk f := by
  intro c rd ra rb s h
  rw [hexec, fzAlu_runs h, hg]

theorem fzImmRow_of_fzAlu {mk : Nat → Nat → Nat → Nat → Instr} {f g : Word → Nat → Word}
    (hg : ∀ a n, g a n = f a n) (hexec : ∀ c rd ra imm s, exec (mk c rd ra imm) s = fzAlu c rd (fun b => g (b.g ra) imm) s) :
    FzImmRow mk f := by
  intro c rd ra imm s h
  rw [hexec, fzAlu_runs h, hg]

/-- Settles O40: each instruction writes one result; the comparisons and the rotation are those of the library, the others Table 8.13 word for word. -/
theorem fizhaigRegisterOperations : Obligations.FizhaigRegisterOperations := by
  unfold Obligations.FizhaigRegisterOperations
  refine ⟨?add, ?sub, ?and, ?or, ?xor, ?andn, ?sll, ?srl, ?sra, ?ror, ?slt, ?sltu, ?min, ?max, ?mul, ?mulh, ?mulhu, ?div, ?divu, ?rem, ?remu,
    ?clz, ?zero⟩
  case add | sub | and | or | xor | andn | sll | srl | sra | mul | mulh | mulhu | div | divu | rem | remu =>
    exact fzAluRow_of_fzAlu (fun _ _ => rfl) fun _ _ _ _ _ => rfl
  case ror => exact fzAluRow_of_fzAlu (fun a b => rotr_eq_rotateRight a (shAmt_lt b)) fun _ _ _ _ _ => rfl
  case slt | sltu => exact fzAluRow_of_fzAlu (fun _ _ => truth_eq_ite decide_eq_true_iff) fun _ _ _ _ _ => rfl
  case min | max => exact fzAluRow_of_fzAlu (fun _ _ => ite_of_iff decide_eq_true_iff ..) fun _ _ _ _ _ => rfl
  case clz => exact fun _ rd ra _ h => fzAlu_runs h rd fun b => clz (b.g ra)
  case zero => exact fun _ _ => ⟨rfl, rfl⟩

/-! ## Transfers of control -/

section
variable {c : Nat} {s : State} {target : Word}

theorem fzJump_aligned (haligned : target.toNat % 4 = 0) (rd : Nat) :
    fzJump c rd target s =
      .ok (s.setCore c ((s.core c).setHere { (s.core c).here.setG rd ((s.core c).here.pc + 4#32) with pc := target })) :=
  if_neg (not_not_intro haligned)

/-- A target that is no multiple of 4 raises ALIGN (R333). -/
theorem fzJump_misaligned (hmisaligned : target.toNat % 4 ≠ 0) (rd : Nat) : fzJump c rd target s = .trap 3 target.toNat false s :=
  if_pos hmisaligned

end

/-- A branch is a jump without a link, or the next instruction. -/
theorem fzBranchRow_of_fzBranch {mk : Nat → Nat → Nat → Nat → Instr} {p q : Word → Word → Bool}
    (hq : ∀ a b, q a b = p a b) (hexec : ∀ c ra rb disp s, exec (mk c ra rb disp) s = fzBranch c (fun b => q (b.g ra) (b.g rb)) disp s) :
    FzBranchRow mk p := by
  obtain rfl : q = p := funext fun a => funext (hq a)
  rintro c ra rb disp s _ h rfl
  rw [hexec]
  refine ⟨?taken, ?misaligned, ?next⟩
  case taken => exact fun htest haligned => fzDo_ok h ((if_pos htest).trans (fzJump_aligned haligned 0))
  case misaligned => exact fun htest hmisaligned => fzDo_trap_here h (by decide) ((if_pos htest).trans (fzJump_misaligned hmisaligned 0))
  case next => exact fun htest => fzDo_ok h (if_neg (Bool.eq_false_iff.mp htest))

/-- Settles O41: immediates are results into a register; branches and jumps go to their target when it is aligned. -/
theorem fizhaigImmediatesAndJumps : Obligations.FizhaigImmediatesAndJumps := by
  unfold Obligations.FizhaigImmediatesAndJumps
  refine ⟨?addi, ?andi, ?ori, ?xori, ?slti, ?sltiu, ?slli, ?srli, ?srai, ?lui, ?beq, ?bne, ?blt, ?bge, ?bltu, ?bgeu, ?j, ?jal, ?jalr, ?misaligned⟩
  case addi | andi | ori | xori | slli | srli | srai => exact fzImmRow_of_fzAlu (fun _ _ => rfl) fun _ _ _ _ _ => rfl
  case slti | sltiu => exact fzImmRow_of_fzAlu (fun _ _ => truth_eq_ite decide_eq_true_iff) fun _ _ _ _ _ => rfl
  case lui => exact fun _ rd imm _ h => fzAlu_runs h rd fun _ => BitVec.ofNat 32 (65536 * (imm % 65536))
  case beq | bne | blt | bltu => exact fzBranchRow_of_fzBranch (fun _ _ => rfl) fun _ _ _ _ _ => rfl
  case bge => exact fzBranchRow_of_fzBranch (fun _ _ => decide_not.symm.trans (decide_eq_decide.mpr Int.not_lt)) fun _ _ _ _ _ => rfl
  case bgeu => exact fzBranchRow_of_fzBranch (fun _ _ => decide_not.symm.trans (decide_eq_decide.mpr Nat.not_lt)) fun _ _ _ _ _ => rfl
  case j =>
    rintro c disp s _ _ h rfl rfl haligned
    exact fzDo_ok h (fzJump_aligned haligned 0)
  case jal =>
    rintro c disp s _ _ h rfl rfl haligned
    exact fzDo_ok h (fzJump_aligned haligned 31)
  case jalr =>
    rintro c rd ra imm s _ _ h rfl rfl haligned
    exact fzDo_ok h (fzJump_aligned haligned rd)
  case misaligned =>
    rintro c rd ra imm s _ h rfl hmisaligned
    exact fzDo_trap_here h (by decide) (fzJump_misaligned hmisaligned rd)

end Sys2Proof.Machine
end

section
/-! Loads, stores and SWAP of a Fizhaig core on its data memory (R296 to R298, R333). -/

namespace Sys2Proof.Machine
open Sys2Proof

section
variable {c a o : Nat} {s : State}

theorem fzPeek_data {x : Core} (hplace : fzPlace c x a = .data o) (n : Nat) : fzPeek c x a n = leNat (memRead x.dmem o n) := by
  rw [fzPeek, hplace]

theorem fzPoke_data {x : Core} (hplace : fzPlace c x a = .data o) (n v : Nat) :
    fzPoke c a n v x = { x with dmem := memWrite x.dmem o (leBytes v n) } := by
  rw [fzPoke, hplace]

/-- Data memory gives its bytes, unless they are uncorrectable (R192). -/
theorem fzRead_data (hplace : fzPlace c (s.core c) a = .data o) {ecc : Nat} (hecc : ecc ≠ 2) (n : Nat) :
    fzRead c a n ecc s = (some (leNat (memRead (s.core c).dmem o n)), fzEcc ecc s) := by
  rw [fzRead, hplace, ← fzPeek_data hplace]
  exact if_neg hecc

/-- Data memory takes every byte. -/
theorem fzWrite_data (hplace : fzPlace c (s.core c) a = .data o) (n v ecc : Nat) :
    fzWrite c a n v ecc s = (true, s.setCore c { s.core c with dmem := memWrite (s.core c).dmem o (leBytes v n) }) := by
  rw [fzWrite, hplace, fzPoke_data hplace]

end

/-! ## Loads -/

section
variable {c kind rd ecc : Nat} {a : Word} {s : State}

theorem fzLoad_misaligned (hmisaligned : a.toNat % loadSize kind ≠ 0) : fzLoad c kind rd a ecc s = .trap 3 a.toNat false s := if_pos hmisaligned

theorem fzLoad_forbidden (haligned : a.toNat % loadSize kind = 0) (hforbidden : fzAllowed c (s.core c) (s.core c).here false a.toNat = false) :
    fzLoad c kind rd a ecc s = .trap 4 a.toNat false s := by
  rw [fzLoad, if_neg (not_not_intro haligned), hforbidden]
  rfl

theorem fzLoad_data {o : Nat} (haligned : a.toNat % loadSize kind = 0) (hallowed : fzAllowed c (s.core c) (s.core c).here false a.toNat = true)
    (hplace : fzPlace c (s.core c) a.toNat = .data o) (hecc : ecc ≠ 2) :
    fzLoad c kind rd a ecc s =
      .ok (fzLand c (s.core c).cur kind rd (loadValue kind (leNat (memRead (s.core c).dmem o (loadSize kind)))) (fzEcc ecc s)) := by
  rw [fzLoad, if_neg (not_not_intro haligned), hallowed]
  simp only [hplace, fzAtBank_data _ hplace, fzRead_data hplace hecc]
  rfl

end

/-- A load of the general registers. -/
theorem fzLoadRow_of_fzLoad {mk : Nat → Nat → Nat → Nat → Nat → Instr} {kind : Nat}
    (hexec : ∀ c rd ra imm ecc s, exec (mk c rd ra imm ecc) s = fzDo c s fun s => fzLoad c kind rd (fzEa c ra imm s) ecc s) : FzLoadRow mk kind := by
  rintro c rd ra imm ecc s _ h rfl
  rw [hexec]
  refine ⟨?loads, ?misaligned, ?forbidden⟩
  case loads => exact fun o haligned hallowed hplace hecc => fzDo_ok h (fzLoad_data haligned hallowed hplace hecc)
  case misaligned => exact fun hmisaligned => fzDo_trap_here h (by decide) (fzLoad_misaligned hmisaligned)
  case forbidden => exact fun haligned hforbidden => fzDo_trap_here h (by decide) (fzLoad_forbidden haligned hforbidden)

/-! ## Stores -/

section
variable {c n ecc : Nat} {a v : Word} {s : State}

theorem fzStore_misaligned (hmisaligned : a.toNat % n ≠ 0) : fzStore c n a v ecc s = .trap 3 a.toNat false s := if_pos hmisaligned

theorem fzStore_forbidden (haligned : a.toNat % n = 0) (hforbidden : fzAllowed c (s.core c) (s.core c).here true a.toNat = false) :
    fzStore c n a v ecc s = .trap 4 a.toNat false s := by
  rw [fzStore, if_neg (not_not_intro haligned), hforbidden]
  rfl

theorem fzStore_data {o : Nat} (haligned : a.toNat % n = 0) (hallowed : fzAllowed c (s.core c) (s.core c).here true a.toNat = true)
    (hplace : fzPlace c (s.core c) a.toNat = .data o) :
    fzStore c n a v ecc s = .ok (fzAdvance c (s.setCore c
      { s.core c with dmem := memWrite (s.core c).dmem o (leBytes (v.toNat % 2 ^ (8 * n)) n) })) := by
  rw [fzStore, if_neg (not_not_intro haligned), hallowed]
  simp only [hplace, fzAtBank_data _ hplace, fzWrite_data hplace]
  rfl

end

/-- A store of the general registers. -/
theorem fzStoreRow_of_fzStore {mk : Nat → Nat → Nat → Nat → Nat → Instr} {n : Nat}
    (hexec : ∀ c rs ra imm ecc s, exec (mk c rs ra imm ecc) s = fzDo c s fun s => fzStore c n (fzEa c ra imm s) ((s.core c).here.g rs) ecc s) :
    FzStoreRow mk n := by
  rintro c rs ra imm ecc s _ h rfl
  rw [hexec]
  refine ⟨?stores, ?misaligned, ?forbidden⟩
  case stores => exact fun o haligned hallowed hplace => fzDo_ok h (fzStore_data haligned hallowed hplace)
  case misaligned => exact fun hmisaligned => fzDo_trap_here h (by decide) (fzStore_misaligned hmisaligned)
  case forbidden => exact fun haligned hforbidden => fzDo_trap_here h (by decide) (fzStore_forbidden haligned hforbidden)

/-- SWAP reads the word before it writes (Table 8.13). -/
theorem fzSwap_data {c rd o : Nat} {a : Word} {s : State} (haligned : a.toNat % 4 = 0)
    (hallowed : fzAllowed c (s.core c) (s.core c).here true a.toNat = true) (hplace : fzPlace c (s.core c) a.toNat = .data o) :
    fzSwap c rd a 0 s = .ok (fzSetReg c rd (BitVec.ofNat 32 (leNat (memRead (s.core c).dmem o 4)))
      (s.setCore c { s.core c with dmem := memWrite (s.core c).dmem o (leBytes ((s.core c).here.g rd).toNat 4) })) := by
  have hclean : fzEcc 0 s = s := rfl
  rw [fzSwap, if_neg (not_not_intro haligned), hallowed]
  simp only [hplace, fzAtBank_data _ hplace, fzRead_data hplace (show 0 ≠ 2 by decide), hclean, fzWrite_data hplace]
  rfl

theorem execFzSwap_data {c rd ra imm o : Nat} {s : State} (h : FzRuns c s) (haligned : (fzEa c ra imm s).toNat % 4 = 0)
    (hallowed : fzAllowed c (s.core c) (s.core c).here true (fzEa c ra imm s).toNat = true)
    (hplace : fzPlace c (s.core c) (fzEa c ra imm s).toNat = .data o) :
    execFzSwap c rd ra imm 0 s = .next (fzNext c (fzSetReg c rd (BitVec.ofNat 32 (leNat (memRead (s.core c).dmem o 4)))
      (s.setCore c { s.core c with dmem := memWrite (s.core c).dmem o (leBytes ((s.core c).here.g rd).toNat 4) }))) :=
  fzDo_ok h (fzSwap_data haligned hallowed hplace)

/-- Settles O42: alignment is checked first, then the right to the address, and data memory is accessed without arbitration. -/
theorem fizhaigMemory : Obligations.FizhaigMemory := by
  unfold Obligations.FizhaigMemory
  refine ⟨?lw, ?lh, ?lhu, ?lb, ?lbu, ?sw, ?sh, ?sb, ?swap⟩
  case lw | lh | lhu | lb | lbu => exact fzLoadRow_of_fzLoad fun _ _ _ _ _ _ => rfl
  case sw | sh | sb => exact fzStoreRow_of_fzStore fun _ _ _ _ _ _ => rfl
  case swap =>
    rintro c rd ra imm _ o s h rfl haligned hallowed hplace
    exact execFzSwap_data h haligned hallowed hplace

end Sys2Proof.Machine
end

section
/-! Loads and stores of the control space of a Fizhaig core (R334 to R336). -/

namespace Sys2Proof.Machine
open Sys2Proof

section
variable {c a : Nat} {s : State} {k : CKind} {sys : Bool}

/-- The checks of R334 let an access to a register of the current mode through. -/
theorem ctrlCheck_ok (hk : ctrlKind c (a / 4 * 4) = some (k, sys)) (hsys : sys = true → (s.core c).here.sys = true) (f : CKind → FzRes) :
    ctrlCheck c a s f = f k := by
  have hmode : (sys && !(s.core c).here.sys) = false := by cases sys <;> simp_all
  simp only [ctrlCheck, hk, hmode, Bool.false_eq_true, if_false]

section
variable {n : Nat} (halign : a % n = 0) (hspace : a < 0x10000) (hk : ctrlKind c (a / 4 * 4) = some (k, sys))
  (hsys : sys = true → (s.core c).here.sys = true)
include halign hspace hk hsys

/-- A load reads the register, with its side effect at full width only (R335). -/
theorem ctrlLoad_reads (rd : Nat) :
    ctrlLoad c n rd a s = .ok (fzSetReg c rd (BitVec.ofNat 32 (if n = 4 then ctrlRead c a s else ctrlNarrow c a n s).1)
      (if n = 4 then ctrlRead c a s else ctrlNarrow c a n s).2) := by
  rw [ctrlLoad, ctrlGet, if_neg (not_not_intro halign), if_neg (Nat.not_le.mpr hspace), ctrlCheck_ok hk hsys]

/-- A store comes to what the register's kind does with it. -/
theorem ctrlPut_checked (v : Nat) :
    ctrlPut c a n v s = match k with
      | .rw => if n = 4 then ctrlWrite c a v s
        else ctrlWrite c (a / 4 * 4) (wordWith (BitVec.ofNat 32 (ctrlVal s c (a / 4 * 4))) a n v).toNat s
      | .ws => if n = 4 then ctrlWrite c a v s else .trap 5 a false s
      | _ => .trap 5 a false s := by
  rw [ctrlPut, if_neg (not_not_intro halign), if_neg (Nat.not_le.mpr hspace), ctrlCheck_ok hk hsys]
  cases k <;> rfl

end

/-- One register of a pair passes its checks when it may be read, and for a write when it can be written (R334, R335). -/
theorem pairWord_ok (hk : ctrlKind c (a / 4 * 4) = some (k, sys)) (hsys : sys = true → (s.core c).here.sys = true) {write : Bool}
    (hwrite : write = true → k = .rw ∨ k = .ws) (f : FzRes) : pairWord c write a s f = f := by
  have hkind : (write && k != .rw && k != .ws) = false := by
    cases write with
    | false => rfl
    | true => obtain rfl | rfl := hwrite rfl <;> rfl
  rw [pairWord, ctrlCheck_ok hk hsys, hkind]
  rfl

/-- Both registers of a pair pass their checks (R336). -/
theorem pairCheck_ok {j : CKind} {p q write : Bool} {rd : Nat} (heven : rd % 2 = 0) (halign : a % 8 = 0) (hspace : a < 0x10000)
    (hk : ctrlKind c (a / 4 * 4) = some (k, p)) (hj : ctrlKind c ((a + 4) / 4 * 4) = some (j, q))
    (hsys : (p || q) = true → (s.core c).here.sys = true) (hwrite : write = true → (k = .rw ∨ k = .ws) ∧ (j = .rw ∨ j = .ws)) (f : FzRes) :
    pairCheck c rd a write s f = f := by
  rw [pairCheck, if_neg (not_not_intro heven), if_neg (not_not_intro halign), if_neg (Nat.not_le.mpr hspace),
    pairWord_ok hk (fun hp => hsys (by simp [hp])) fun hw => (hwrite hw).1, pairWord_ok hj (fun hq => hsys (by simp [hq])) fun hw => (hwrite hw).2]

theorem pairPut_ok {u t : State} {v w : Nat} (hfirst : ctrlWrite c a v s = .ok u) (hsecond : ctrlWrite c (a + 4) w u = .ok t) :
    pairPut c a v w s = .ok (fzAdvance c t) := by
  simp only [pairPut, hfirst, hsecond]

end

theorem fzCtrlLoadRow_of_ctrlLoad {mk : Nat → Nat → Nat → Nat → Instr} {n : Nat}
    (hexec : ∀ c rd ra imm s, exec (mk c rd ra imm) s = fzDo c s fun s => ctrlLoad c n rd (fzEa c ra imm s).toNat s) : FzCtrlLoadRow mk n := by
  rintro c rd ra imm _ s ⟨k, sys⟩ h rfl halign hspace hk hsys
  have hload := ctrlLoad_reads halign hspace hk hsys rd
  rw [hexec]
  refine ⟨?full, ?narrow⟩
  case full =>
    rintro rfl
    exact fzDo_ok h hload
  case narrow =>
    intro hn
    rw [if_neg hn] at hload
    exact fzDo_ok h hload

theorem fzCtrlStoreRow_of_ctrlStore {mk : Nat → Nat → Nat → Nat → Instr} {n : Nat}
    (hexec : ∀ c rs ra imm s, exec (mk c rs ra imm) s = fzDo c s fun s => ctrlStore c n (fzEa c ra imm s).toNat ((s.core c).here.g rs) s) :
    FzCtrlStoreRow mk n := by
  rintro c rs ra imm _ _ s sys h rfl rfl halign hspace hsys
  rw [hexec]
  refine ⟨?taken, ?refused⟩
  case taken =>
    intro t hk ht
    refine fzDo_ok h ?_
    rw [ctrlStore, ctrlPut_checked halign hspace hk hsys]
    exact congrArg (FzRes.andThen · _) ht
  case refused =>
    intro hk
    refine fzDo_trap_here h (by decide) ?_
    rw [ctrlStore, ctrlPut_checked halign hspace hk hsys]
    rfl

/-! ## Pairs -/

section
variable {c r ra imm : Nat} {s u t : State} {k j : CKind} {p q : Bool} (h : FzRuns c s) (heven : r % 2 = 0)
  (halign : (fzEa c ra imm s).toNat % 8 = 0) (hspace : (fzEa c ra imm s).toNat < 0x10000)
  (hk : ctrlKind c ((fzEa c ra imm s).toNat / 4 * 4) = some (k, p)) (hj : ctrlKind c (((fzEa c ra imm s).toNat + 4) / 4 * 4) = some (j, q))
  (hsys : (p || q) = true → (s.core c).here.sys = true)
include h heven halign hspace hk hj hsys

/-- CLD reads the lower register first (R336). -/
theorem execFzCld_pair {v w : Nat} (hfirst : ctrlRead c (fzEa c ra imm s).toNat s = (v, u))
    (hsecond : ctrlRead c ((fzEa c ra imm s).toNat + 4) u = (w, t)) :
    execFzCld c r ra imm s = .next (fzNext c (fzSetReg c (r + 1) (BitVec.ofNat 32 w)
      (t.setCore c ((t.core c).setHere ((t.core c).here.setG r (BitVec.ofNat 32 v)))))) := by
  refine fzDo_ok h ?_
  rw [pairCheck_ok heven halign hspace hk hj hsys (fun hw => absurd hw (by decide))]
  simp only [hfirst, hsecond]

/-- CSD writes the lower register first (R336). -/
theorem execFzCsd_pair (hkw : k = .rw ∨ k = .ws) (hjw : j = .rw ∨ j = .ws)
    (hfirst : ctrlWrite c (fzEa c ra imm s).toNat ((s.core c).here.g r).toNat s = .ok u)
    (hsecond : ctrlWrite c ((fzEa c ra imm s).toNat + 4) ((s.core c).here.g (r + 1)).toNat u = .ok t) :
    execFzCsd c r ra imm s = .next (fzNext c (fzAdvance c t)) := by
  refine fzDo_ok h ?_
  rw [pairCheck_ok heven halign hspace hk hj hsys (fun _ => ⟨hkw, hjw⟩), pairPut_ok hfirst hsecond]

end

/-- Settles O43: an access that passes the checks of R334 is the read or write of the register, and a pair two of them. -/
theorem fizhaigControlSpace : Obligations.FizhaigControlSpace := by
  unfold Obligations.FizhaigControlSpace
  refine ⟨?clw, ?clh, ?clb, ?csw, ?csh, ?csb, ?cld, ?csd⟩
  case clw | clh | clb => exact fzCtrlLoadRow_of_ctrlLoad fun _ _ _ _ _ => rfl
  case csw | csh | csb => exact fzCtrlStoreRow_of_ctrlStore fun _ _ _ _ _ => rfl
  case cld =>
    rintro c rd ra imm _ s u t v w k j p q h rfl heven halign hspace hk hj hsys hfirst hsecond
    exact execFzCld_pair h heven halign hspace hk hj hsys hfirst hsecond
  case csd =>
    rintro c rs ra imm _ s u t k j p q h rfl heven halign hspace hk hj hsys hkw hjw hfirst hsecond
    exact execFzCsd_pair h heven halign hspace hk hj hsys hkw hjw hfirst hsecond

end Sys2Proof.Machine
end

section
/-! The control registers with side effects: the replay service, the token ports, latched pairs, the watchdog, PULL, the doorbell, SHCTL and IBIND
(R317, R320, R321, R328, R329, R334, R336). -/

namespace Sys2Proof.Machine
open Sys2Proof

/-! ## One access of a fixed register -/

section
variable {c a : Nat} {s t : State} {k : CKind} {sys : Bool} (halign : a % 4 = 0) (hspace : a < 0x10000) (hk : ctrlKind c a = some (k, sys))
  (hsys : sys = true → (s.core c).here.sys = true)
include halign hspace hk hsys

theorem readReg_runs {v : Nat} (h : FzRuns c s) (rd : Nat) (hread : ctrlRead c a s = (v, t)) :
    readReg c rd a s = .next (fzNext c (fzSetReg c rd (BitVec.ofNat 32 v) t)) := by
  have hload := ctrlLoad_ok (rd := rd) halign hspace hk hsys
  rw [hread] at hload
  exact fzDo_ok h hload

variable (hkind : k = .rw ∨ k = .ws)
include hkind

theorem ctrlStore_full {w : Word} (hwrite : ctrlWrite c a w.toNat s = .ok t) : ctrlStore c 4 a w s = .ok (fzAdvance c t) := by
  have hw : w.toNat % 2 ^ (8 * 4) = w.toNat := Nat.mod_eq_of_lt w.isLt
  rw [ctrlStore, hw, ctrlPut_ok halign hspace hk hkind hsys, hwrite]
  rfl

theorem writeReg_runs {rs : Nat} (h : FzRuns c s) (hwrite : ctrlWrite c a ((s.core c).here.g rs).toNat s = .ok t) :
    writeReg c rs a s = .next (fzNext c (fzAdvance c t)) :=
  fzDo_ok h (ctrlStore_full halign hspace hk hsys hkind hwrite)

end

/-! ## The registers of each sort of core (R334, Table 8.14) -/

theorem isShuttle_of_lt {c : Nat} (hc : c < 64) : isShuttle c = true := decide_eq_true hc

theorem isShuttle_of_le {c : Nat} (hc : 64 ≤ c) : isShuttle c = false := decide_eq_false (Nat.not_lt.mpr hc)

theorem isMp_of_lt {c : Nat} (hc : c < 68) : isMp c = false := beq_false_of_ne (Nat.ne_of_lt hc)

theorem ctrlKind_congr {c d : Nat} (hshuttle : isShuttle c = isShuttle d) (hmp : isMp c = isMp d) (a : Nat) : ctrlKind c a = ctrlKind d a := by
  simp only [ctrlKind, hshuttle, hmp]

/-- Every shuttle has the registers of shuttle 0. -/
theorem ctrlKind_shuttle {c : Nat} (hc : c < 64) (a : Nat) : ctrlKind c a = ctrlKind 0 a :=
  ctrlKind_congr (isShuttle_of_lt hc) (isMp_of_lt (Nat.lt_trans hc (by decide))) a

/-- Every supervisor has the registers of supervisor 0. -/
theorem ctrlKind_supervisor {c : Nat} (hc : 64 ≤ c) (hc' : c < 68) (a : Nat) : ctrlKind c a = ctrlKind 64 a :=
  ctrlKind_congr (isShuttle_of_le hc) (isMp_of_lt hc') a

theorem ctrlKind_pullreq {c : Nat} (hc : c < 68) : ctrlKind c 0x90 = some (.ws, false) := by
  rcases Nat.lt_or_ge c 64 with hshuttle | hsupervisor
  · rw [ctrlKind_shuttle hshuttle]; rfl
  · rw [ctrlKind_supervisor hsupervisor hc]; rfl

theorem ctrlKind_ibindL {c : Nat} (hc : 64 ≤ c) (hc' : c < 69) : ctrlKind c 0x38 = some (.rw, true) := by
  rcases Nat.lt_or_ge c 68 with hsupervisor | hmp
  · rw [ctrlKind_supervisor hc hsupervisor]; rfl
  · obtain rfl : c = 68 := by omega
    rfl

theorem ctrlKind_shctl {c n : Nat} (hc : 64 ≤ c) (hc' : c < 68) (hn : n < 16) : ctrlKind c (0x2000 + 4 * n) = some (.ws, true) := by
  have hregisters : ∀ n < 16, ctrlKind 64 (0x2000 + 4 * n) = some (.ws, true) := by decide
  rw [ctrlKind_supervisor hc hc', hregisters n hn]

/-- The last registers of the map are the SHCTL words (Table 8.14). -/
theorem ctrlWrite_shctl {c a w : Nat} {s : State} (ha : 0x2000 ≤ a) : ctrlWrite c a w s = .ok (shuttleControl c ((a - 0x2000) / 4) w s) := by
  unfold ctrlWrite
  repeat rw [if_neg (by omega)]
  rw [if_pos ha]

/-! ## The accesses -/

section
variable {c : Nat} {s : State} (h : FzRuns c s)
include h

section
variable (hc : c < 64)
include hc

/-- A load of a register of shuttles. -/
theorem readReg_shuttle {a v : Nat} {k : CKind} {t : State} (halign : a % 4 = 0) (hspace : a < 0x10000) (hk : ctrlKind 0 a = some (k, false)) (rd : Nat)
    (hread : ctrlRead c a s = (v, t)) : readReg c rd a s = .next (fzNext c (fzSetReg c rd (BitVec.ofNat 32 v) t)) :=
  readReg_runs halign hspace ((ctrlKind_shuttle hc a).trans hk) nofun h rd hread

/-- A store to a register of shuttles. -/
theorem writeReg_shuttle {a rs : Nat} {t : State} (halign : a % 4 = 0) (hspace : a < 0x10000) (hk : ctrlKind 0 a = some (.ws, false))
    (hwrite : ctrlWrite c a ((s.core c).here.g rs).toNat s = .ok t) : writeReg c rs a s = .next (fzNext c (fzAdvance c t)) :=
  writeReg_runs halign hspace ((ctrlKind_shuttle hc a).trans hk) nofun (.inr rfl) h hwrite

end

/-- A write of a SHCTL word in SYSTEM mode (Table 8.14). -/
theorem shctl_runs {n : Nat} (hc : 64 ≤ c) (hc' : c < 68) (hn : n < 16) (hsys : (s.core c).here.sys = true) (w : Word) :
    fzDo c s (ctrlStore c 4 (0x2000 + 4 * (n % 16)) w) = .next (fzNext c (fzAdvance c (shuttleControl c n w.toNat s))) := by
  have hindex : (0x2000 + 4 * n - 0x2000) / 4 = n := by omega
  have hwrite := ctrlWrite_shctl (c := c) (w := w.toNat) (s := s) (Nat.le_add_right 0x2000 (4 * n))
  rw [hindex] at hwrite
  rw [Nat.mod_eq_of_lt hn]
  exact fzDo_ok h (ctrlStore_full (by omega) (by omega) (ctrlKind_shctl hc hc' hn) (fun _ => hsys) (.inr rfl) hwrite)

end

/-! ## Registers with an effect -/

section
variable {c : Nat} {s : State}

theorem ctrlRead_rxhead {t : Token} (hhead : rxHead s c = some t) :
    ctrlRead c 0x1024 s = (t.stamp.toNat, s.setCore c { s.core c with rxStarted := true }) := by
  simp [ctrlRead, ctrlVal, hhead]

theorem ctrlRead_rxdata {t : Token} (hstarted : (s.core c).rxStarted = true) (hhead : rxHead s c = some t) :
    ctrlRead c 0x1028 s = ((t.words.headD 0#32).toNat, rxPop c s) := by
  simp [ctrlRead, ctrlVal, hstarted, hhead]

/-- The state after a replay request (R321): the log streamer has the TID, the decision is no longer in service, and the request counts. -/
def replayRequested (c tid f : Nat) (s u : State) : State :=
  let z := (u.setMotif c { s.motif c with replays := (s.motif c).replays ++ [tid], serving := (s.motif c).serving.erase tid }).setCore c
    { s.core c with popped := (s.core c).popped + 1 }
  z.setObji c 0x3038 7 (max (z.obji c 0x3038 7) (6 + 3 * ((s.core c).popped % 4) + (Config.freeWord f).toNat % 3))

/-- A replay request of a TID from the replay service. -/
theorem replayRequest_ok {w f : Nat} {u : State} (hcur : (s.core c).cur = 1) (hw : w % 4096 ≠ 0) (hfresh : s.fresh = (f, u)) :
    replayRequest c w s = .ok (replayRequested c (w % 4096) f s u) := by
  rw [replayRequest, if_neg (not_not_intro hcur), if_neg hw, hfresh]
  rfl

theorem txAppend_ok (w : Word) (hroom : (s.core c).txWords.length < 15) :
    txAppend c w s = .ok (s.setCore c { s.core c with txWords := (s.core c).txWords ++ [w] }) :=
  if_neg (Nat.not_le.mpr hroom)

/-- The token that TXLAST sends (Table 8.14). -/
def txToken (c : Nat) (w : Word) (s : State) : Token :=
  { tid := field (s.core c).txctl 26 15, stamp := BitVec.ofNat 32 (s.core c).txstamp, words := (s.core c).txWords ++ [w],
    prio := field (s.core c).txctl 14 13, exec := ((s.motif c).part (field (s.core c).txctl 26 15)).exec, planeB := bit (s.core c).txctl 0 }

theorem txLast_ok {w : Word} (hroom : (s.core c).txWords.length < 15) (hout : outUsed (s.motif c) 18 + 1 + (txToken c w s).words.length ≤ 16) :
    txLast c w s = .ok ((s.setMotif c ((s.motif c).pushOut s.time.clk 18
      { route := (s.motif c).route (bit (s.core c).txctl 0) (field (s.core c).txctl 8 1) (field (s.core c).txctl 12 9), tok := txToken c w s })).setCore c
      { s.core c with txWords := [] }) := by
  rw [txLast, if_neg (Nat.not_le.mpr hroom)]
  exact if_neg (Nat.not_lt.mpr hout)

theorem pullRequest_ok {w : Nat} {u : State} (hroom : (s.core c).held < 4)
    (hu : u = fzSend c { typ := 4, dx := (sliceRouter (w / 16 % 4) 0).1, dy := (sliceRouter (w / 16 % 4) 0).2, endpoint := 48 + w % 16 } s) :
    pullRequest c w s = .ok (u.setCore c { u.core c with pullDone := false }) := by
  have hplace : fzRoom c (s.core c) = true := by simp [fzRoom, hroom]
  rw [pullRequest, hplace, hu]
  rfl

theorem shuttleControl_stop {n : Nat} (hstate : (s.core (hoopMotif (c - 64) n)).state = 0) (hstarted : (s.core (hoopMotif (c - 64) n)).started = true) :
    shuttleControl c n 1 s =
      fzShowState (hoopMotif (c - 64) n) 2 (s.setCore (hoopMotif (c - 64) n) { s.core (hoopMotif (c - 64) n) with state := 2 }) :=
  if_pos ⟨hstate, hstarted⟩

theorem writeIbind_ok {w : Nat} (hok : ibindOk c w (s.core c).ibindH (s.core c) = true) :
    writeIbind c false w s = .ok (s.setCore c { s.core c with ibindL := w, ibindH := (s.core c).ibindH }) :=
  if_pos hok

end

theorem ofNat_toNat_word (w : Word) : BitVec.ofNat 32 w.toNat = w := by rw [BitVec.ofNat_toNat, BitVec.setWidth_eq]

/-- Settles O44: each command is one full access of its register, whose kind and effect decide; SHCTL and IBIND are SYSTEM registers. -/
theorem fizhaigShuttleRegisters : Obligations.FizhaigShuttleRegisters := by
  unfold Obligations.FizhaigShuttleRegisters
  refine ⟨?replayq, ?replay, ?txdata, ?txlast, ?rxhead, ?rxdata, ?excount, ?latched, ?wdog, ?pullreq, ?doorbell, ?stop, ?restart, ?ibind⟩
  case replayq => exact fun c rd s h hc => readReg_shuttle h hc rfl (by decide) rfl rd rfl
  case replay =>
    rintro c rs _ s u f h hc hcur rfl hw hfresh
    exact writeReg_shuttle h hc rfl (by decide) rfl (replayRequest_ok hcur hw hfresh)
  case txdata =>
    intro c rs s h hc hroom
    refine writeReg_shuttle h hc rfl (by decide) rfl ((txAppend_ok _ hroom).trans ?_)
    rw [ofNat_toNat_word]
  case txlast =>
    rintro c rs s _ _ h hc rfl rfl hroom hout
    refine writeReg_shuttle h hc rfl (by decide) rfl ?_
    show txLast c (BitVec.ofNat 32 ((s.core c).here.g rs).toNat) s = _
    rw [ofNat_toNat_word]
    exact txLast_ok hroom hout
  case rxhead =>
    intro c rd s t h hc hhead
    exact readReg_shuttle h hc rfl (by decide) rfl rd (ctrlRead_rxhead hhead)
  case rxdata =>
    intro c rd s t h hc hstarted hhead
    exact readReg_shuttle h hc rfl (by decide) rfl rd (ctrlRead_rxdata hstarted hhead)
  case excount => exact fun c rd s h => readReg_runs (a := 0x6C) rfl (by decide) rfl nofun h rd rfl
  case latched => exact fun rd s h => readReg_runs (a := 0x78) (sys := false) rfl (by decide) rfl nofun h rd rfl
  case wdog =>
    rintro _ rs s h rfl hsys
    exact writeReg_runs rfl (by decide) rfl (fun _ => hsys) (.inr rfl) h rfl
  case pullreq =>
    intro c rs s u h hc hroom hu
    exact writeReg_runs rfl (by decide) (ctrlKind_pullreq hc) nofun (.inr rfl) h (pullRequest_ok hroom hu)
  case doorbell => exact fun c rs s h hc => writeReg_shuttle h hc rfl (by decide) rfl rfl
  case stop =>
    intro c n s h hc hc' hn hsys hstate hstarted
    refine (shctl_runs h hc hc' hn hsys 1#32).trans ?_
    rw [← shuttleControl_stop hstate hstarted]
    rfl
  case restart => exact fun c n s h hc hc' hn hsys => shctl_runs h hc hc' hn hsys 2#32
  case ibind =>
    rintro c rs _ s h hc hc' hsys rfl hok
    exact writeReg_runs rfl (by decide) (ctrlKind_ibindL hc hc') (fun _ => hsys) (.inl rfl) h (writeIbind_ok hok)

end Sys2Proof.Machine
end

section
/-! The FP instructions of a Fizhaig core and the gate before them: FPMODE, the save area and the owner of the file (R310 to R314). -/

namespace Sys2Proof.Machine
open Sys2Proof

/-! ## Results of the bank that owns the file -/

theorem fzFop_runs {c ecc : Nat} {s : State} (h : FpRuns c s) (fd : Nat) (v : Core → FRes) :
    fzFop c fd ecc v s = .next (fzNext c (fzSetF c fd (v (s.core c)) false s)) :=
  fzFp_ok h rfl

theorem fzFtoG_runs {c ecc : Nat} {s : State} (h : FpRuns c s) (rd : Nat) (v : Core → FRes) :
    fzFtoG c rd ecc v s = .next (fzNext c (fzSetGf c rd (v (s.core c)) s)) :=
  fzFp_ok h rfl

theorem fpRow_of_fzFop {mk : Nat → Nat → Nat → Nat → Nat → Instr} {f : Word → Word → FRes}
    (hexec : ∀ c fd fa fb ecc s, exec (mk c fd fa fb ecc) s = fzFop c fd ecc (fun x => f (x.f fa) (x.f fb)) s) : FpRow mk f := by
  intro c fd fa fb ecc s h
  rw [hexec, fzFop_runs h]

theorem fpRow3_of_fzFop {mk : Nat → Nat → Nat → Nat → Nat → Nat → Instr} {f : Word → Word → Word → FRes}
    (hexec : ∀ c fd fa fb fc ecc s, exec (mk c fd fa fb fc ecc) s = fzFop c fd ecc (fun x => f (x.f fa) (x.f fb) (x.f fc)) s) : FpRow3 mk f := by
  intro c fd fa fb fc ecc s h
  rw [hexec, fzFop_runs h]

theorem fpRow1_of_fzFop {mk : Nat → Nat → Nat → Nat → Instr} {f : Word → FRes}
    (hexec : ∀ c fd fa ecc s, exec (mk c fd fa ecc) s = fzFop c fd ecc (fun x => f (x.f fa)) s) : FpRow1 mk f := by
  intro c fd fa ecc s h
  rw [hexec, fzFop_runs h]

theorem fpFromRow_of_fzFop {mk : Nat → Nat → Nat → Nat → Instr} {f : Word → FRes}
    (hexec : ∀ c fd ra ecc s, exec (mk c fd ra ecc) s = fzFop c fd ecc (fun x => f (x.here.g ra)) s) : FpFromRow mk f := by
  intro c fd ra ecc s h
  rw [hexec, fzFop_runs h]

theorem fpCmpRow_of_fzFtoG {mk : Nat → Nat → Nat → Nat → Nat → Instr} {f : Word → Word → FRes}
    (hexec : ∀ c rd fa fb ecc s, exec (mk c rd fa fb ecc) s = fzFtoG c rd ecc (fun x => f (x.f fa) (x.f fb)) s) : FpCmpRow mk f := by
  intro c rd fa fb ecc s h
  rw [hexec, fzFtoG_runs h]

theorem fpToRow_of_fzFtoG {mk : Nat → Nat → Nat → Nat → Instr} {f : Word → FRes}
    (hexec : ∀ c rd fa ecc s, exec (mk c rd fa ecc) s = fzFtoG c rd ecc (fun x => f (x.f fa)) s) : FpToRow mk f := by
  intro c rd fa ecc s h
  rw [hexec, fzFtoG_runs h]

/-! ## The gate -/

section
variable {c ecc : Nat} {s : State} (f : State → FzRes)

/-- The FP file is off (R310). -/
theorem fpGate_off (hmode : fpMode c (s.core c) = 0) : fpGate c ecc s f = .trap 1 0 false s := if_pos (.inl hmode)

/-- No FP save area (R311). -/
theorem fpGate_noArea (hmode : fpMode c (s.core c) = 1) (harea : fpsaOf c (s.core c).cur (s.core c) = 0) : fpGate c ecc s f = .trap 0x0A 0 false s := by
  simp [fpGate, hmode, harea]

/-- The owner of the file goes on. -/
theorem fpGate_owner (hmode : fpMode c (s.core c) = 1) (harea : fpsaOf c (s.core c).cur (s.core c) ≠ 0) (howns : (s.core c).cur = (s.core c).fpown) :
    fpGate c ecc s f = f s := by
  rw [howns] at harea
  simp [fpGate, hmode, howns, harea]

/-- The strict mode refuses another bank (R311). -/
theorem fpGate_strict (hmode : fpMode c (s.core c) = 1) (harea : fpsaOf c (s.core c).cur (s.core c) ≠ 0) (hother : (s.core c).cur ≠ (s.core c).fpown) :
    fpGate c ecc s f = .trap 7 0 false (countSwap c s) := by
  simp [fpGate, hmode, harea, hother]

/-- The lazy mode swaps the file to another bank first (R312). -/
theorem fpGate_lazy {y : Core} (hmode : fpMode c (s.core c) = 2) (harea : fpsaOf c (s.core c).cur (s.core c) ≠ 0)
    (hother : (s.core c).cur ≠ (s.core c).fpown) (hswap : fpSwap c (s.core c) = .inr y) : fpGate c 0 s f = f (countSwap c (s.setCore c y)) := by
  simp [fpGate, hmode, harea, hother, hswap, fzEcc]

end

/-! ## SAVF and RSTF -/

section
variable {c ecc : Nat} {s : State} (h : FzRuns c s)
include h

/-- What the gate raises, an FP instruction raises. -/
theorem fzFp_trap {code : Nat} {t : State} (hcode : code ≠ 0x0B) (hgate : ∀ g, fpGate c ecc s g = .trap code 0 false t) (f : State → FzRes) :
    fzFp c ecc s f = .next (orHeld c s (fzTrap c code 0 (t.core c).here.pc false false t)) := by
  rw [← trapPc_of_ne hcode]
  exact fzDo_trap h (hgate f)

variable (hsys : (s.core c).here.sys = true)
include hsys

/-- What the gate raises, SAVF and RSTF raise in SYSTEM mode. -/
theorem fzFpArea_trap {code : Nat} {t : State} (hcode : code ≠ 0x0B) (hgate : ∀ g, fpGate c ecc s g = .trap code 0 false t) (f : Nat → Core → Core) :
    fzFpArea c ecc s f = .next (orHeld c s (fzTrap c code 0 (t.core c).here.pc false false t)) := by
  rw [← trapPc_of_ne hcode]
  exact fzDo_trap h ((fzSystem_sys hsys _).trans (hgate _))

/-- SAVF and RSTF work on the save area of the context that the gate lets through, the swap done. -/
theorem fzFpArea_ok {u : State} (f : Nat → Core → Core) (hgate : ∀ g, fpGate c 0 s g = g u)
    (harea : fpAreaOk c (u.core c) (u.core c).here.planeB (fpsaOf c (u.core c).cur (u.core c)) = true) :
    fzFpArea c 0 s f = .next (fzNext c (fzAdvance c (u.setCore c (f (fpsaOf c (u.core c).cur (u.core c)) (u.core c))))) := by
  refine fzDo_ok h ((fzSystem_sys hsys _).trans ((hgate _).trans ?_))
  dsimp only
  rw [harea]
  rfl

/-- SAVF saves the groups of its mask: all of them in the strict mode, else the dirty ones (R312). -/
theorem execFzSavf_ok {a mask : Nat} {u : State} (hgate : ∀ g, fpGate c 0 s g = g u) (ha : a = fpsaOf c (u.core c).cur (u.core c))
    (harea : fpAreaOk c (u.core c) (u.core c).here.planeB a = true) (hmask : (if fpMode c (u.core c) = 1 then 15 else (u.core c).here.dirty) = mask) :
    execFzSavf c s = .next (fzNext c (fzAdvance c (u.setCore c (cleanGroups (u.core c).cur mask (saveGroups c a mask (u.core c)))))) := by
  subst ha hmask
  rw [execFzSavf, fzFpArea_ok h hsys _ hgate harea]

/-- RSTF restores the groups marked valid (R313). -/
theorem execFzRstf_ok {a : Nat} {u : State} (hgate : ∀ g, fpGate c 0 s g = g u) (ha : a = fpsaOf c (u.core c).cur (u.core c))
    (harea : fpAreaOk c (u.core c) (u.core c).here.planeB a = true) :
    execFzRstf c 0 s = .next (fzNext c (fzAdvance c (u.setCore c (cleanGroups (u.core c).cur ((fzWord c (u.core c) (a + 4)).toNat % 16)
      (loadGroups c a ((fzWord c (u.core c) (a + 4)).toNat % 16) (u.core c)))))) := by
  subst ha
  rw [execFzRstf, fzFpArea_ok h hsys _ hgate harea]

end

/-- Settles O45: in the bank that owns the file an instruction is its effect; elsewhere the gate decides, for SAVF and RSTF as for the others. -/
theorem fizhaigFloat : Obligations.FizhaigFloat := by
  unfold Obligations.FizhaigFloat
  refine ⟨?fadd, ?fsub, ?fmul, ?fmin, ?fmax, ?fma, ?fms, ?fnma, ?fsqrt, ?fabs, ?fneg, ?fcmplt, ?fcmple, ?fcmpeq, ?ftoi, ?ftoir, ?fmvfg, ?itof, ?fmvgf,
    ?fdiv, ?flw, ?fsw, ?off, ?noArea, ?strict, ?savf, ?rstf, ?areaStrict, ?savfLazy⟩
  case fadd | fsub | fmul | fmin | fmax => exact fpRow_of_fzFop fun _ _ _ _ _ _ => rfl
  case fma | fms | fnma => exact fpRow3_of_fzFop fun _ _ _ _ _ _ _ => rfl
  case fsqrt | fabs | fneg => exact fpRow1_of_fzFop fun _ _ _ _ _ => rfl
  case fcmplt | fcmple | fcmpeq => exact fpCmpRow_of_fzFtoG fun _ _ _ _ _ _ => rfl
  case ftoi | ftoir | fmvfg => exact fpToRow_of_fzFtoG fun _ _ _ _ _ => rfl
  case itof | fmvgf => exact fpFromRow_of_fzFop fun _ _ _ _ _ => rfl
  case fdiv => exact fun c fd fa fb ecc s h => fzFp_ok h rfl
  case flw =>
    rintro c fd ra imm _ o ecc s h rfl haligned hallowed hplace hecc
    exact fzFp_ok h (fzLoad_data (kind := 5) haligned hallowed hplace hecc)
  case fsw =>
    rintro c fs ra imm _ o ecc s h rfl haligned hallowed hplace
    have hword : ((s.core c).f fs).toNat % 2 ^ (8 * 4) = ((s.core c).f fs).toNat := Nat.mod_eq_of_lt ((s.core c).f fs).isLt
    have hstore := fzStore_data (ecc := ecc) (v := (s.core c).f fs) haligned hallowed hplace
    rw [hword] at hstore
    exact fzFp_ok h hstore
  case off => exact fun c fd fa fb ecc s h hmode => fzFp_trap h (by decide) (fun g => fpGate_off g hmode) _
  case noArea => exact fun c fd fa fb ecc s h hmode harea => fzFp_trap h (by decide) (fun g => fpGate_noArea g hmode harea) _
  case strict => exact fun c fd fa fb ecc s h hmode harea hother => fzFp_trap h (by decide) (fun g => fpGate_strict g hmode harea hother) _
  case savf =>
    rintro c _ s h hsys hmode howns rfl hne harea
    exact execFzSavf_ok h hsys (fun g => fpGate_owner g hmode hne howns) rfl harea (if_pos hmode)
  case rstf =>
    rintro c _ _ s h hsys hmode howns rfl hne harea rfl
    exact execFzRstf_ok h hsys (fun g => fpGate_owner g hmode hne howns) rfl harea
  case areaStrict =>
    intro c ecc s h hsys hmode harea hother
    refine ⟨?savf, ?rstf⟩
    case savf =>
      show execFzSavf c s = _
      rw [execFzSavf]
      exact fzFpArea_trap h hsys (by decide) (fun g => fpGate_strict g hmode harea hother) _
    case rstf =>
      show execFzRstf c ecc s = _
      rw [execFzRstf]
      exact fzFpArea_trap h hsys (by decide) (fun g => fpGate_strict g hmode harea hother) _
  case savfLazy =>
    rintro c _ s _ _ y h rfl hsys hmode harea hother hswap rfl rfl hok hmode'
    exact execFzSavf_ok h hsys (fun g => fpGate_lazy g hmode harea hother hswap) rfl hok (if_neg (by rw [hmode']; decide))

end Sys2Proof.Machine
end

section
/-! Events of the Fizhaig cores: fetch faults, interrupt entry, the replay service, the watchdog, timers and restarts (R297, R316, R319, R320, R322,
R328 to R330). -/

namespace Sys2Proof.Machine
open Sys2Proof

/-- A fetch that is not allowed raises ACCESS (R297). -/
theorem execInstructionFetchFault_access {c ecc : Nat} {s : State} (hissues : fzIssues s c = true)
    (hfetch : fzFetchable c (s.core c) (s.core c).here = false) :
    execInstructionFetchFault c ecc s = .next (orHeld c s (fzTrap c 4 (s.core c).here.pc.toNat (s.core c).here.pc false false s)) := by
  rw [execInstructionFetchFault, hissues]
  dsimp only
  rw [hfetch]
  rfl

/-- The bank that a level's source enters on the MP: one boundary is left behind, and the level's vector lies ahead (R316). -/
def mpInterruptBank (l : Nat) (x : Core) : FBank :=
  { (x.setHere { x.here with wait := .none }).bank (boundBank x.ibindL x.ibindH l) with
    prev := x.cur, level := l, ie := false, wait := .none, planeB := false, pc := BitVec.ofNat 32 (x.vbaseA + 0x200 + 16 * l) }

/-- The MP with the bank of a source of a level entered, and the source no longer pending. -/
def mpInterrupted (n l : Nat) (x : Core) : Core :=
  { (x.setHere { x.here with wait := .none }).setBank (boundBank x.ibindL x.ibindH l) (mpInterruptBank l x) with
    cur := boundBank x.ibindL x.ibindH l, ipend := withBit x.ipend n false }

/-- The source of the highest level above the current one enters its bound bank (R316, R319). -/
theorem execInterruptEntry_mp {n l : Nat} {s : State} (hstarted : (s.core 68).started = true) (hstate : (s.core 68).state = 0)
    (hie : (s.core 68).here.ie = true) (hboundary : interruptible (s.core 68).here = true) (hsource : nextSource 68 (s.core 68) = some n)
    (hlevel : l = sourceLevel (s.core 68) n) (hhigher : (s.core 68).here.level < l) :
    execInterruptEntry 68 s = .next (s.setCore 68 (mpInterrupted n l (s.core 68))).fresh.2 := by
  subst hlevel
  have htakes : ¬ (68 ≥ 69 ∨ isShuttle 68 ∨ !(s.core 68).started ∨ (s.core 68).state ≠ 0 ∨ !(s.core 68).here.ie ∨ !interruptible (s.core 68).here) := by
    simp [hstarted, hstate, hie, hboundary, isShuttle]
  rw [execInterruptEntry, if_neg htakes, hsource]
  exact if_neg (Nat.not_le.mpr hhigher)

/-- A decision makes bank 1 of a shuttle current, whatever the shuttle does (R320). -/
theorem execReplayServiceInsert_decided {m : Nat} {s : State} (hm : m < 64) (hdecided : (s.motif m).decided ≠ []) (hstate : (s.core m).state ≠ 1)
    (hcur : (s.core m).cur ≠ 1) :
    execReplayServiceInsert m s = .next (s.setCore m { (s.core m).setBank 1
      { (s.core m).bank 1 with prev := (s.core m).cur, pc := replayPc m, sys := true, ie := false, wait := .none } with cur := 1, popped := 0 }) := by
  have hsome : ¬ ((s.motif m).decided.isEmpty = true) := by simpa using hdecided
  rw [execReplayServiceInsert, Nat.mod_eq_of_lt hm]
  dsimp only
  rw [if_neg hsome, if_neg hstate, if_neg hcur]
  rfl

/-- A halted supervisor restarts by its object (R330, Table 8.16). -/
theorem execSupervisorRestartWrite_halted {path h : Nat} {s : State} (hh : h < 4) (haccepts : Accepts s path (0x3031 + h) 7 1 1)
    (hhalted : s.obj (0x3031 + h) 1 = 1) :
    execSupervisorRestartWrite path h true s = .next (answered path (.ok (restartSupervisor h (mailArrives s)))) := by
  have hwrite : writeSupervisorRestart h true (mailArrives s) = .ok (restartSupervisor h (mailArrives s)) := if_pos hhalted
  rw [execSupervisorRestartWrite, Nat.mod_eq_of_lt hh, ← hwrite]
  exact congrArg _ (sdoWrite_accepted _ haccepts)

/-- A halted shuttle restarts by its object (R328, Table 8.17). -/
theorem execShuttleRestartWrite_halted {path v : Nat} {s : State} (haccepts : Accepts s path 0x3038 9 1 v) (hv : v < 64)
    (hhalted : ((mailArrives s).core v).state = 1) :
    execShuttleRestartWrite path v s = .next (answered path (.ok (restartShuttle v (mailArrives s)))) := by
  have hwrite : writeShuttleRestart v (mailArrives s) = .ok (restartShuttle v (mailArrives s)) := by
    rw [writeShuttleRestart, if_neg (by omega), if_pos (.inl hhalted)]
  rw [execShuttleRestartWrite, ← hwrite]
  exact congrArg _ (sdoWrite_accepted _ haccepts)

/-- Settles O47: each event's conditions decide it; a restart is the effect of an accepted write. -/
theorem fizhaigEvents : Obligations.FizhaigEvents := by
  unfold Obligations.FizhaigEvents
  refine ⟨?fetch, ?interrupt, ?replay, ?warning, ?expiry, ?supervisorTimer, ?mpTimer, ?supervisor, ?shuttle⟩
  case fetch => exact fun _ _ _ hissues hfetch => execInstructionFetchFault_access hissues hfetch
  case interrupt =>
    rintro n l _ f s u _ _ _ rfl hstarted hstate hie hboundary hsource hlevel hhigher rfl rfl rfl hfresh
    refine (execInterruptEntry_mp hstarted hstate hie hboundary hsource hlevel hhigher).trans ?_
    exact congrArg Host.Outcome.next (congrArg Prod.snd hfresh)
  case replay =>
    rintro m s _ hm rfl hdecided hstate hcur
    exact execReplayServiceInsert_decided hm hdecided hstate hcur
  case warning => exact fun _ hstarted hwarned hhalf => if_pos ⟨hstarted, by simp [hwarned], hhalf⟩
  case expiry => exact fun _ hstarted hend => if_pos ⟨hstarted, hend⟩
  case supervisorTimer =>
    intro h s hh
    show execSupervisorTimerExpiry h s = _
    rw [execSupervisorTimerExpiry, Nat.mod_eq_of_lt hh]
    rfl
  case mpTimer => exact fun _ => rfl
  case supervisor => exact fun _ _ _ hh haccepts hhalted => execSupervisorRestartWrite_halted hh haccepts hhalted
  case shuttle => exact fun _ _ _ haccepts hv hhalted => execShuttleRestartWrite_halted haccepts hv hhalted

end Sys2Proof.Machine
end

section
/-! The memories of a Fizhaig core: what a store of words leaves unchanged, and what a word reads after it (R296, R341). -/

namespace Sys2Proof.Machine
open Sys2Proof

/-! ## Little-endian bytes -/

@[simp] theorem leBytes_length (v n : Nat) : (leBytes v n).length = n := by
  induction n generalizing v with
  | zero => rfl
  | succ n ih => simp [leBytes, ih]

theorem leNat_leBytes (v n : Nat) : leNat (leBytes v n) = v % 256 ^ n := by
  induction n generalizing v with
  | zero => simp [leBytes, leNat, Nat.mod_one]
  | succ n ih => simp [leBytes, leNat, ih, Nat.pow_succ', Nat.mod_mul]

/-! ## Runs of bytes -/

theorem memRead_eq_of_bytes {m : Mem} {a : Nat} {bs : List Byte} (hbytes : ∀ (i : Nat) (hi : i < bs.length), memByte m (a + i) = bs[i]) :
    memRead m a bs.length = bs := by
  induction bs generalizing a with
  | nil => rfl
  | cons b bs ih =>
    have hfirst : memByte m a = b := hbytes 0 (Nat.zero_lt_succ _)
    have hrest : memRead m (a + 1) bs.length = bs := ih fun i hi => by
      rw [Nat.add_assoc, Nat.add_comm 1 i]
      exact hbytes (i + 1) (Nat.succ_lt_succ hi)
    simp only [List.length_cons, memRead, hfirst, hrest]

theorem memRead_congr {m m' : Mem} {a n : Nat} (hbytes : ∀ i < n, memByte m (a + i) = memByte m' (a + i)) : memRead m a n = memRead m' a n := by
  induction n generalizing a with
  | zero => rfl
  | succ n ih =>
    have hfirst : memByte m a = memByte m' a := hbytes 0 (Nat.zero_lt_succ _)
    have hrest : memRead m (a + 1) n = memRead m' (a + 1) n := ih fun i hi => by
      rw [Nat.add_assoc, Nat.add_comm 1 i]
      exact hbytes (i + 1) (Nat.succ_lt_succ hi)
    simp only [memRead, hfirst, hrest]

/-- The bytes of a run just written. -/
theorem memRead_memWrite_same (m : Mem) (a : Nat) (bs : List Byte) : memRead (memWrite m a bs) a bs.length = bs :=
  memRead_eq_of_bytes fun i hi => memByte_memWrite_in m a bs i hi

/-- A run apart from the written one. -/
theorem memRead_memWrite_other (m : Mem) {a b n : Nat} {bs : List Byte} (hapart : b + n ≤ a ∨ a + bs.length ≤ b) :
    memRead (memWrite m a bs) b n = memRead m b n :=
  memRead_congr fun i hi => memByte_memWrite_other m a bs (b + i) (by omega)

/-! ## Places of data memory (Table 8.2) -/

/-- The addresses of data memory. -/
theorem fzPlace_eq_data_iff {c a o : Nat} {x : Core} :
    fzPlace c x a = .data o ↔ a < 0x80000000 ∧ ¬ (privBase ≤ a ∧ a < privBase + privSize c) ∧ ¬ (romBase ≤ a ∧ a < romBase + romSize c) ∧
      (if isMp c then a < 0x100000 ∧ o = a else 2 * imemHalf c ≤ a ∧ 0x10000 ≤ a ∧ a < 0x10000 + 2 * dmemHalf c ∧ o = a - 0x10000) := by
  unfold fzPlace
  by_cases hmp : isMp c = true
  · simp only [if_pos hmp]
    repeat' split
    all_goals simp only [FPlace.data.injEq, reduceCtorEq, false_iff]; omega
  · simp only [if_neg hmp]
    repeat' split
    all_goals simp only [FPlace.data.injEq, reduceCtorEq, false_iff]; omega

theorem regions_aligned (c : Nat) : privSize c % 16 = 0 ∧ romSize c % 16 = 0 ∧ 2 * imemHalf c % 16 = 0 ∧ 2 * dmemHalf c % 16 = 0 := by
  unfold privSize romSize imemHalf dmemHalf
  repeat' split
  all_goals decide

/-- Data memory holds whole blocks of 16 bytes. -/
theorem fzPlace_data_add {c a o i : Nat} {x : Core} (hplace : fzPlace c x a = .data o) (haligned : a % 16 = 0) (hi : i < 16) :
    fzPlace c x (a + i) = .data (o + i) := by
  obtain ⟨hpriv, hrom, himem, hdmem⟩ := regions_aligned c
  rw [fzPlace_eq_data_iff] at hplace ⊢
  simp only [privBase, romBase] at hplace ⊢
  by_cases hmp : isMp c = true
  · simp only [if_pos hmp] at hplace ⊢
    omega
  · simp only [if_neg hmp] at hplace ⊢
    omega

/-! ## Words of a core -/

section
variable {c a o : Nat} {x : Core}

/-- The map of a core is not touched by its memories. -/
theorem fzPlace_fzPoke (n v b : Nat) : fzPlace c (fzPoke c a n v x) b = fzPlace c x b := by
  unfold fzPoke
  split <;> rfl

theorem fzWord_data (hplace : fzPlace c x a = .data o) : fzWord c x a = BitVec.ofNat 32 (leNat (memRead x.dmem o 4)) := by
  rw [fzWord, fzPeek_data hplace]

theorem fzWord_fzPoke_same (hplace : fzPlace c x a = .data o) (w : Word) : fzWord c (fzPoke c a 4 w.toNat x) a = w := by
  have hword : leNat (leBytes w.toNat 4) = w.toNat := by rw [leNat_leBytes]; exact Nat.mod_eq_of_lt w.isLt
  rw [fzWord_data ((fzPlace_fzPoke ..).trans hplace), fzPoke_data hplace]
  have hread := memRead_memWrite_same x.dmem o (leBytes w.toNat 4)
  rw [leBytes_length] at hread
  rw [hread, hword, BitVec.ofNat_toNat, BitVec.setWidth_eq]

theorem fzWord_fzPoke_other {b q v : Nat} (hplace : fzPlace c x a = .data o) (hother : fzPlace c x b = .data q) (hapart : q + 4 ≤ o ∨ o + 4 ≤ q) :
    fzWord c (fzPoke c a 4 v x) b = fzWord c x b := by
  rw [fzWord_data ((fzPlace_fzPoke ..).trans hother), fzWord_data hother, fzPoke_data hplace,
    memRead_memWrite_other _ (by rw [leBytes_length]; exact hapart)]

/-- The places of the words after the first. -/
theorem places_after_first {w : Word} {ws : List Word} (hplaces : ∀ i < (w :: ws).length, fzPlace c x (a + 4 * i) = .data (o + 4 * i)) :
    ∀ i < ws.length, fzPlace c (fzPoke c a 4 w.toNat x) (a + 4 + 4 * i) = .data (o + 4 + 4 * i) := by
  intro i hi
  rw [fzPlace_fzPoke, Nat.add_assoc, Nat.add_assoc, Nat.add_comm 4 (4 * i)]
  exact hplaces (i + 1) (Nat.succ_lt_succ hi)

/-- Words stored above a word leave it unchanged. -/
theorem fzWord_fzPokes_below {b q : Nat} {ws : List Word} (hplaces : ∀ i < ws.length, fzPlace c x (a + 4 * i) = .data (o + 4 * i))
    (hbelow : fzPlace c x b = .data q) (hq : q + 4 ≤ o) : fzWord c (fzPokes c a ws x) b = fzWord c x b := by
  induction ws generalizing x a o with
  | nil => rfl
  | cons w ws ih =>
    have hfirst : fzPlace c x a = .data o := hplaces 0 (Nat.zero_lt_succ _)
    have hrest := places_after_first hplaces
    rw [fzPokes, ih hrest ((fzPlace_fzPoke ..).trans hbelow) (by omega), fzWord_fzPoke_other hfirst hbelow (.inl hq)]

/-- Words stored in a row are read back. -/
theorem fzWord_fzPokes {ws : List Word} (hplaces : ∀ i < ws.length, fzPlace c x (a + 4 * i) = .data (o + 4 * i)) (i : Nat) (hi : i < ws.length) :
    fzWord c (fzPokes c a ws x) (a + 4 * i) = ws[i] := by
  induction ws generalizing x a o i with
  | nil => simp at hi
  | cons w ws ih =>
    have hfirst : fzPlace c x a = .data o := hplaces 0 (Nat.zero_lt_succ _)
    have hrest := places_after_first hplaces
    rw [fzPokes]
    cases i with
    | zero => exact (fzWord_fzPokes_below hrest ((fzPlace_fzPoke ..).trans hfirst) (Nat.le_refl _)).trans (fzWord_fzPoke_same hfirst w)
    | succ i =>
      rw [Nat.mul_succ, Nat.add_comm (4 * i) 4, ← Nat.add_assoc]
      exact ih hrest i (Nat.lt_of_succ_lt_succ hi)

end

end Sys2Proof.Machine
end

section
/-! Exception entry on a stack in data memory (R323 to R325). -/

namespace Sys2Proof.Machine
open Sys2Proof

/-! ## Registers, banks and cores -/

@[simp] theorem Core.bank_setBank_same (x : Core) (k : Nat) (b : FBank) : (x.setBank k b).bank k = b := mget_mset_same ({} : FBank) x.banks k b

/-- A register other than g0 reads what was written. -/
theorem FBank.g_setG_same {i : Nat} (hi : i % 32 ≠ 0) (b : FBank) (w : Word) : (b.setG i w).g i = w := by
  rw [FBank.g, FBank.setG, if_neg hi, if_neg hi]
  exact mget_mset_same 0#32 b.regs (i % 32) w

@[simp] theorem fzBump_core (c mp sup sh k : Nat) (s : State) : (fzBump c mp sup sh s).core k = s.core k := by
  unfold fzBump
  split
  · rfl
  · split <;> rfl

@[simp] theorem fzLastCause_core (c v k : Nat) (s : State) : (fzLastCause c v s).core k = s.core k := by
  unfold fzLastCause
  split
  · rfl
  · split <;> rfl

@[simp] theorem fzPoke_vbaseA (c a n v : Nat) (x : Core) : (fzPoke c a n v x).vbaseA = x.vbaseA := by
  unfold fzPoke
  split <;> rfl

@[simp] theorem fzPoke_vbaseB (c a n v : Nat) (x : Core) : (fzPoke c a n v x).vbaseB = x.vbaseB := by
  unfold fzPoke
  split <;> rfl

/-- The vectors of a core are not touched by its memories. -/
@[simp] theorem fzVbase_fzPokes (c a : Nat) (ws : List Word) (x : Core) (planeB : Bool) : fzVbase c (fzPokes c a ws x) planeB = fzVbase c x planeB := by
  induction ws generalizing a x with
  | nil => rfl
  | cons w ws ih => rw [fzPokes, ih, fzVbase, fzVbase, fzPoke_vbaseA, fzPoke_vbaseB]

/-! ## The push -/

section
variable {c o : Nat} {s : State} {x : Core}

/-- A push into data memory between SPLO and SPHI is not refused (R325). -/
theorem pushRefusal_data {planeB : Bool} {sp : Word} (haligned : sp.toNat % 16 = 0) (hlow : x.splo ≤ (sp - 16#32).toNat)
    (hhigh : (sp - 16#32).toNat < x.sphi) (hallowed : fzAllowed c x { sys := true, planeB := planeB } true (sp - 16#32).toNat = true)
    (hplace : fzPlace c x (sp - 16#32).toNat = .data o) : pushRefusal c s x planeB sp = 0 := by
  rw [pushRefusal, if_neg (not_not_intro haligned), if_neg (by omega), hallowed, hplace]
  rfl

theorem fzPush_data {a : Nat} (hplace : fzPlace c (s.core c) a = .data o) (ws : List Word) :
    fzPush c a ws s = s.setCore c (fzPokes c a ws (s.core c)) := by
  rw [fzPush, hplace]

/-- A frame below an aligned stack pointer is aligned. -/
theorem frame_aligned {sp : Word} (haligned : sp.toNat % 16 = 0) : (sp - 16#32).toNat % 16 = 0 := by
  rw [BitVec.toNat_sub]
  have h16 : (16#32).toNat = 16 := rfl
  have hlt := sp.isLt
  omega

end

/-! ## The core after the entry -/

/-- The cause word of an exception of the current bank (Table 8.9). -/
def causeWord (code : Nat) (imprecise inSeq : Bool) (x : Core) : Nat :=
  code + 2 ^ 8 * (x.cur % 16) + 2 ^ 12 * b2n x.here.sys + 2 ^ 13 * b2n imprecise + 2 ^ 14 * b2n inSeq

/-- The four words an exception pushes (R324). -/
def exceptionFrame (code addr : Nat) (pc : Word) (imprecise inSeq : Bool) (x : Core) : List Word :=
  [pc, x.here.status x.cur, BitVec.ofNat 32 (causeWord code imprecise inSeq x), BitVec.ofNat 32 addr]

/-- The state with the exception counted and its cause in the core's object (R323). -/
def trapNoted (c cause : Nat) (s : State) : State :=
  fzLastCause c cause (fzBump c 4 2 4 (s.setCore c { s.core c with exccount := satAdd 32 (s.core c).exccount 1 }))

theorem trapNoted_core (c cause : Nat) (s : State) : (trapNoted c cause s).core c = { s.core c with exccount := satAdd 32 (s.core c).exccount 1 } := by
  rw [trapNoted, fzLastCause_core, fzBump_core, State.core_setCore_same]

/-- The core at the push: its bank waits no more, and bank 0 has the stack pointer of the push. -/
def trapAtPush (b : FBank) (sp : Word) (y : Core) : Core :=
  (y.setHere { b with wait := .none }).setBank 0 (((y.setHere { b with wait := .none }).bank 0).setG 30 sp)

/-- Bank 0 at the vector of an exception, below the frame, in SYSTEM mode with interrupts off. -/
def trapBank (vector : Nat) (b : FBank) (sp : Word) (y : Core) : FBank :=
  { (((y.setHere { b with wait := .none }).bank 0).setG 30 sp).setG 30 (sp - 16#32) with
    pc := BitVec.ofNat 32 vector, sys := true, ie := false, planeB := b.planeB, wait := .none }

/-- The core with the frame pushed and bank 0 entered. -/
def trapEntered (c code : Nat) (frame : List Word) (b : FBank) (sp : Word) (y : Core) : Core :=
  { (fzPokes c (sp - 16#32).toNat frame (trapAtPush b sp y)).setBank 0 (trapBank (fzVbase c y b.planeB + 16 * code) b sp y) with cur := 0 }

section
variable {c code addr : Nat} {pc sp : Word} {imprecise inSeq : Bool} {s : State}

/-- An exception whose push is allowed enters bank 0 after the push. -/
theorem fzTrap_pushed {u t : State} {y : Core} (hdouble : (s.core c).double = false) (hu : u = trapNoted c (causeWord code imprecise inSeq (s.core c)) s)
    (hsp : sp = entrySp (s.core c)) (hy : y = u.core c)
    (hpush : pushRefusal c (u.setCore c (trapAtPush (s.core c).here sp y)) ((u.setCore c (trapAtPush (s.core c).here sp y)).core c)
      (s.core c).here.planeB sp = 0)
    (ht : t = fzPush c (sp - 16#32).toNat (exceptionFrame code addr pc imprecise inSeq (s.core c))
      (u.setCore c (trapAtPush (s.core c).here sp y))) :
    fzTrap c code addr pc imprecise inSeq s = t.setCore c { (t.core c).setBank 0
      (trapBank (fzVbase c (t.core c) (s.core c).here.planeB + 16 * code) (s.core c).here sp y) with cur := 0 } := by
  have hnodouble : ¬ ((s.core c).double = true) := by simp [hdouble]
  subst hu hsp hy ht
  rw [fzTrap, if_neg hnodouble]
  exact if_pos hpush

/-- An exception whose push into data memory is allowed: the frame, and bank 0 entered. -/
theorem fzTrap_core_data {o : Nat} {y : Core} (hdouble : (s.core c).double = false) (hsp : sp = entrySp (s.core c))
    (haligned : sp.toNat % 16 = 0) (hlow : (s.core c).splo ≤ (sp - 16#32).toNat) (hhigh : (sp - 16#32).toNat < (s.core c).sphi)
    (hallowed : fzAllowed c (s.core c) { sys := true, planeB := (s.core c).here.planeB } true (sp - 16#32).toNat = true)
    (hplace : fzPlace c (s.core c) (sp - 16#32).toNat = .data o) (hy : y = { s.core c with exccount := satAdd 32 (s.core c).exccount 1 }) :
    (fzTrap c code addr pc imprecise inSeq s).core c =
      trapEntered c code (exceptionFrame code addr pc imprecise inSeq (s.core c)) (s.core c).here sp y := by
  have hplace' : fzPlace c (trapAtPush (s.core c).here sp y) (sp - 16#32).toNat = .data o := by rw [hy]; exact hplace
  have hpush (u : State) : pushRefusal c u (trapAtPush (s.core c).here sp y) (s.core c).here.planeB sp = 0 := by
    refine pushRefusal_data haligned ?_ ?_ ?_ hplace'
    all_goals rw [hy]
    · exact hlow
    · exact hhigh
    · exact hallowed
  have hnoted := trapNoted_core c (causeWord code imprecise inSeq (s.core c)) s
  rw [fzTrap_pushed hdouble rfl hsp (hy.trans hnoted.symm) (by rw [State.core_setCore_same]; exact hpush _) rfl, State.core_setCore_same,
    fzPush_data (by rw [State.core_setCore_same]; exact hplace'), State.core_setCore_same, State.core_setCore_same, fzVbase_fzPokes]
  rfl

end

/-- What the entered core shows: its registers at the vector, and the frame on the stack of bank 0. -/
theorem trapEntered_here (c code : Nat) (frame : List Word) (b : FBank) (sp : Word) (y : Core) :
    (trapEntered c code frame b sp y).here = trapBank (fzVbase c y b.planeB + 16 * code) b sp y :=
  Core.bank_setBank_same ..

theorem trapBank_sp (vector : Nat) (b : FBank) (sp : Word) (y : Core) : (trapBank vector b sp y).g 30 = sp - 16#32 :=
  FBank.g_setG_same (by decide) _ _

/-- The words of the frame are read back from the stack. -/
theorem fzWord_trapEntered {c code o : Nat} {frame : List Word} {b : FBank} {sp : Word} {y : Core} (hframe : frame.length = 4)
    (haligned : sp.toNat % 16 = 0) (hplace : fzPlace c y (sp - 16#32).toNat = .data o) (i : Nat) (hi : i < 4) :
    fzWord c (trapEntered c code frame b sp y) ((sp - 16#32).toNat + 4 * i) = frame[i] := by
  have hplaces : ∀ i < frame.length, fzPlace c (trapAtPush b sp y) ((sp - 16#32).toNat + 4 * i) = .data (o + 4 * i) :=
    fun i hi => fzPlace_data_add (x := y) hplace (frame_aligned haligned) (by omega)
  exact fzWord_fzPokes hplaces i (by omega)

/-- Settles O58: the push of a counted exception lies in data memory, so that its words are read back there. -/
theorem fizhaigExceptionEntry : Obligations.FizhaigExceptionEntry := by
  unfold Obligations.FizhaigExceptionEntry
  rintro c code addr o pc sp imprecise inSeq s _ _ _ _ rfl rfl hdouble hsp rfl haligned hlow hhigh hallowed hplace rfl
  have hcore := fzTrap_core_data (code := code) (addr := addr) (pc := pc) (imprecise := imprecise) (inSeq := inSeq) hdouble hsp haligned hlow hhigh
    hallowed hplace rfl
  have hwords := fzWord_trapEntered (c := c) (code := code) (frame := exceptionFrame code addr pc imprecise inSeq (s.core c)) (b := (s.core c).here)
    (y := { s.core c with exccount := satAdd 32 (s.core c).exccount 1 }) rfl haligned hplace
  rw [hcore, trapEntered_here]
  exact ⟨rfl, rfl, rfl, rfl, trapBank_sp .., rfl, hwords 0 (by decide), hwords 1 (by decide), hwords 3 (by decide), hwords 2 (by decide)⟩

end Sys2Proof.Machine
end

section
/-! Save, restore, context switch and exception return of a Fizhaig core (R303 to R309, R324, R326). -/

namespace Sys2Proof.Machine
open Sys2Proof

/-- A load of saved data that is not uncorrectable goes on (R192). -/
theorem fzEccGate_ok {ecc : Nat} (hecc : ecc ≠ 2) (s : State) (f : State → FzRes) (inSeq : Bool) : fzEccGate ecc s f inSeq = f (fzEcc ecc s) :=
  if_neg hecc

/-! ## Save and restore -/

section
variable {c : Nat} {s : State}

theorem saveInstr_ok {r : Sum Nat Core} {x : Core} (hr : r = .inr x) (advance : Bool) :
    saveInstr c r advance s = .ok (if advance then fzAdvance c (s.setCore c x) else s.setCore c x) := by
  rw [hr, saveInstr]

/-- What is refused raises its exception at SSP. -/
theorem saveInstr_refused {r : Sum Nat Core} {n : Nat} (hr : r = .inl n) (advance : Bool) :
    saveInstr c r advance s = .trap n (s.core c).here.ssp.toNat false s := by
  rw [hr, saveInstr]

variable (h : FzRuns c s)
include h

/-- A restore of either half: SAVL and SAVU go on at the next instruction, RSTL where the frame says (R308, R309). -/
theorem fzDo_restore_ok {ecc : Nat} {high advance : Bool} (hecc : ecc ≠ 2) (hframe : RestoreOk c ((fzEcc ecc s).core c).cur high ((fzEcc ecc s).core c)) :
    fzDo c s (fun s => fzEccGate ecc s (fun s => saveInstr c (restoreBank c (s.core c).cur high (s.core c).here.sys (s.core c)) advance s)) =
      .next (fzNext c (if advance then fzAdvance c ((fzEcc ecc s).setCore c
          (restoredFrame c ((fzEcc ecc s).core c).cur high ((fzEcc ecc s).core c).here.sys ((fzEcc ecc s).core c)))
        else (fzEcc ecc s).setCore c (restoredFrame c ((fzEcc ecc s).core c).cur high ((fzEcc ecc s).core c).here.sys ((fzEcc ecc s).core c)))) :=
  fzDo_ok h ((fzEccGate_ok hecc ..).trans (saveInstr_ok (restoreBank_ok hframe) advance))

/-- A restore of either half that is refused. -/
theorem fzDo_restore_refused {ecc n : Nat} {high advance : Bool} (hecc : ecc ≠ 2)
    (hrefused : restoreBank c ((fzEcc ecc s).core c).cur high ((fzEcc ecc s).core c).here.sys ((fzEcc ecc s).core c) = .inl n) :
    fzDo c s (fun s => fzEccGate ecc s (fun s => saveInstr c (restoreBank c (s.core c).cur high (s.core c).here.sys (s.core c)) advance s)) =
      .next (orHeld c s (fzTrap c n ((fzEcc ecc s).core c).here.ssp.toNat (trapPc n ((fzEcc ecc s).core c).here) false false (fzEcc ecc s))) :=
  fzDo_trap h ((fzEccGate_ok hecc ..).trans (saveInstr_refused hrefused advance))

end

/-! ## Context switches -/

section
variable {c a : Nat} {s : State}

/-- Step 1 of R303: a CCB that fails its checks raises CTX_INVALID. -/
theorem ctxSwitch_invalid (hccb : ccbOk c (s.core c) a = false) : ctxSwitch c a s = .trap 0x0A a false s := if_pos (by simp [hccb])

variable (hccb : ccbOk c (s.core c) a = true)
include hccb

/-- Step 2: the current context goes on. -/
theorem ctxSwitch_current (hcurrent : (s.core c).here.resident = true ∧ (s.core c).here.ssb.toNat = a + 16) : ctxSwitch c a s = .ok (fzAdvance c s) := by
  rw [ctxSwitch, hccb]
  exact if_pos hcurrent

variable (hother : ¬ ((s.core c).here.resident = true ∧ (s.core c).here.ssb.toNat = a + 16))
include hother

/-- Step 3: a resident context has its bank. -/
theorem ctxSwitch_resident (hresident : bit (fzWord c (s.core c) (a + 8)).toNat 0 = true)
    (hbank : (ctxBanks c (s.core c) (s.core c).here.planeB).contains (field (fzWord c (s.core c) (a + 8)).toNat 4 1) = true) :
    ctxSwitch c a s = .ok (s.setCore c { ctxLeft (s.core c) with cur := field (fzWord c (s.core c) (a + 8)).toNat 4 1 }) := by
  exact (if_neg (by simp [hccb])).trans ((if_neg hother).trans ((if_pos hresident).trans (if_pos hbank)))

variable (habsent : bit (fzWord c (s.core c) (a + 8)).toNat 0 = false)
include habsent

/-- Step 4: a free bank takes the context. -/
theorem ctxSwitch_free {f : Nat} (hfree : (ctxBanks c (s.core c) (s.core c).here.planeB).find?
      (fun k => !((s.core c).bank k).resident && k != (s.core c).cur) = some f) (henters : CtxEnters c f a (ctxLeft (s.core c))) :
    ctxSwitch c a s = .ok (s.setCore c (ctxEntered c f a (ctxLeft (s.core c)))) := by
  have hentry := admitCtx_ok henters
  rw [ctxLeft] at hentry
  simp only [ctxSwitch, hccb, hother, habsent, hfree, hentry, Bool.not_true, Bool.false_eq_true, if_false]
  rfl

variable {v : Nat} (hnone : (ctxBanks c (s.core c) (s.core c).here.planeB).find?
    (fun k => !((s.core c).bank k).resident && k != (s.core c).cur) = none)
  (hvictim : victim (s.core c) (ctxBanks c (s.core c) (s.core c).here.planeB) = some v)
include hnone hvictim

/-- Step 4 without a free bank: the overflow sequence frees the victim's (R304). -/
theorem ctxSwitch_overflow (hevictable : Evictable c v (ctxLeft (s.core c))) (henters : CtxEnters c v a (evicted c v (ctxLeft (s.core c)))) :
    ctxSwitch c a s = .ok (fzBump c 6 6 6 (s.setCore c (ctxEntered c v a (evicted c v (ctxLeft (s.core c)))))) := by
  have hevict := evict_ok hevictable
  have hentry := admitCtx_ok henters
  rw [ctxLeft] at hevict
  simp only [ctxSwitch, hccb, hother, habsent, hnone, hvictim, hevict, Bool.not_true, Bool.false_eq_true, if_false]
  rw [ctxLeft] at hentry
  simp only [hentry]
  rfl

/-- A victim without room for two frames: SAVE_DEPLETED, inside the sequence (R304, R308). -/
theorem ctxSwitch_depleted (hdepleted : ((ctxLeft (s.core c)).bank v).ssl.toNat < ((ctxLeft (s.core c)).bank v).ssp.toNat + 160) :
    ctxSwitch c a s = .trap 8 a true s := by
  have hevict : evict c v (ctxLeft (s.core c)) = .inl 8 := if_pos hdepleted
  rw [ctxLeft] at hevict
  simp only [ctxSwitch, hccb, hother, habsent, hnone, hvictim, hevict, Bool.not_true, Bool.false_eq_true, if_false]

end

section
variable {c ra ecc : Nat} {s : State} (h : FzRuns c s)
include h

theorem execFzCtx_ok {t : State} (hecc : ecc ≠ 2) (hswitch : ctxSwitch c ((s.core c).here.g ra).toNat (fzEcc ecc s) = .ok t) :
    execFzCtx c ra ecc s = .next (fzNext c t) := by
  rw [execFzCtx]
  exact fzDo_ok h ((fzEccGate_ok hecc ..).trans hswitch)

/-- A CTX that is refused, before its overflow sequence or inside it. -/
theorem execFzCtx_trap {n : Nat} {inSeq : Bool} (hn : n ≠ 0x0B) (hecc : ecc ≠ 2)
    (hswitch : ctxSwitch c ((s.core c).here.g ra).toNat (fzEcc ecc s) = .trap n ((s.core c).here.g ra).toNat inSeq (fzEcc ecc s)) :
    execFzCtx c ra ecc s = .next (orHeld c s (fzTrap c n ((s.core c).here.g ra).toNat ((fzEcc ecc s).core c).here.pc false inSeq (fzEcc ecc s))) := by
  rw [execFzCtx, ← trapPc_of_ne hn]
  exact fzDo_trap h ((fzEccGate_ok hecc ..).trans hswitch)

/-- A CTX that meets an uncorrectable word (R192). -/
theorem execFzCtx_uncorrectable :
    execFzCtx c ra 2 s =
      .next (orHeld c s (fzTrap c 6 0 ((fzEcc 2 s).core c).here.pc false (ctxOverflows c ((s.core c).here.g ra).toNat s) (fzEcc 2 s))) := by
  rw [execFzCtx, ← trapPc_of_ne (show 6 ≠ 0x0B by decide)]
  exact fzDo_trap h (if_pos rfl)

end

/-! ## Exception returns -/

section
variable {c ecc : Nat} {s t : State}

/-- In the recovery bank the last-resort frame is taken, and DOUBLE cleared (R326). -/
theorem rfe_recovery (hcur : (s.core c).cur = 16) (hecc : ecc ≠ 2) :
    rfe c ecc s = .ok ((fzEcc ecc s).setCore c { returnTo c (fzWord c (s.core c) privBase) (fzWord c (s.core c) (privBase + 4))
      (fzWord c (s.core c) (privBase + 8)) ((fzEcc ecc s).core c) with double := false }) :=
  (if_pos hcur).trans (fzEccGate_ok hecc ..)

variable (hcur : (s.core c).cur ≠ 16)
include hcur

theorem rfe_misaligned (hmisaligned : ((s.core c).here.g 30).toNat % 4 ≠ 0) : rfe c ecc s = .trap 3 ((s.core c).here.g 30).toNat false s :=
  (if_neg hcur).trans (if_pos hmisaligned)

variable (haligned : ((s.core c).here.g 30).toNat % 4 = 0) (hlow : fzAllowed c (s.core c) (s.core c).here false ((s.core c).here.g 30).toNat = true)
  (hhigh : fzAllowed c (s.core c) (s.core c).here false (((s.core c).here.g 30).toNat + 12) = true) {p st cs : Word}
include haligned hlow hhigh

/-- An RFE through a frame that lies outside the NoC window reads it where its memory lets the core. -/
theorem rfe_frame {u : State} (hplace : ∀ na, fzPlace c (s.core c) ((s.core c).here.g 30).toNat ≠ .noc na)
    (hturn : ∀ f, fzAtBank c ((s.core c).here.g 30).toNat f s = f u)
    (hframe : frameRead c ((s.core c).here.g 30).toNat ecc u = (some (p, st, cs), t)) :
    rfe c ecc s = .ok (t.setCore c (returnTo c p st cs ((t.core c).setHere ((s.core c).here.setG 30 ((s.core c).here.g 30 + 16#32))))) := by
  have hallowed : ¬ ((!fzAllowed c (s.core c) (s.core c).here false ((s.core c).here.g 30).toNat) = true ∨
      (!fzAllowed c (s.core c) (s.core c).here false (((s.core c).here.g 30).toNat + 12)) = true) := by simp [hlow, hhigh]
  refine (if_neg hcur).trans ((if_neg (not_not_intro haligned)).trans ((if_neg hallowed).trans ?_))
  split
  · next na hna => exact absurd hna (hplace na)
  · rw [hturn]
    simp only [hframe]

end

section
variable {c ecc : Nat} {s : State} (h : FzRuns c s) (hsys : (s.core c).here.sys = true)
include h hsys

theorem execFzRfe_ok {t : State} (hrfe : rfe c ecc s = .ok t) : execFzRfe c ecc s = .next (fzNext c t) := by
  rw [execFzRfe]
  exact fzDo_ok h ((fzSystem_sys hsys _).trans hrfe)

theorem execFzRfe_misaligned (hcur : (s.core c).cur ≠ 16) (hmisaligned : ((s.core c).here.g 30).toNat % 4 ≠ 0) :
    execFzRfe c ecc s = .next (orHeld c s (fzTrap c 3 ((s.core c).here.g 30).toNat (s.core c).here.pc false false s)) := by
  rw [execFzRfe]
  exact fzDo_trap_here h (by decide) ((fzSystem_sys hsys _).trans (rfe_misaligned hcur hmisaligned))

end

/-- A memory of the core's own is free at once. -/
theorem fzAtBank_local {c a : Nat} {s : State} (hlocal : (match fzPlace c (s.core c) a with | .noc _ | .scratch _ => false | _ => true) = true)
    (f : State → FzRes) : fzAtBank c a f s = f s := by
  rw [fzAtBank]
  split
  · next o ho => rw [ho] at hlocal; exact absurd hlocal Bool.false_ne_true
  · rfl

/-- A bank of the scratchpad whose turn it is. -/
theorem fzAtBank_turn {c a o : Nat} {s : State} (hplace : fzPlace c (s.core c) a = .scratch o) (hon : spOn s c (spBank o) = true)
    (hturn : bankTurn s c (spBank o) (shuttleAsk s c (spBank o)) = true) (f : State → FzRes) :
    fzAtBank c a f s = f (takeTurn c (shuttleAsk s c (spBank o)) s) := by
  simp [fzAtBank, hplace, hon, hturn]

/-- Settles O59: each instruction's conditions decide its effect, which its exec lemma carries over to the step. -/
theorem fizhaigContexts : Obligations.FizhaigContexts := by
  unfold Obligations.FizhaigContexts
  refine ⟨?savl, ?savu, ?savlRefused, ?savuRefused, ?rstl, ?rstu, ?rstlRefused, ?rstuRefused, ?badCcb, ?current, ?resident, ?free, ?victim,
    ?depleted, ?uncorrectable, ?recovery, ?localFrame, ?scratchFrame, ?misaligned⟩
  case savl =>
    rintro c s _ h rfl hok
    show execFzSavl c s = _
    rw [execFzSavl]
    exact fzDo_ok h (saveInstr_ok (saveBank_ok hok) true)
  case savu =>
    rintro c s _ h rfl hok
    show execFzSavu c s = _
    rw [execFzSavu]
    exact fzDo_ok h (saveInstr_ok (saveBank_ok hok) true)
  case savlRefused =>
    rintro c n s _ h rfl hrefused
    show execFzSavl c s = _
    rw [execFzSavl]
    exact fzDo_trap h (saveInstr_refused hrefused true)
  case savuRefused =>
    rintro c n s _ h rfl hrefused
    show execFzSavu c s = _
    rw [execFzSavu]
    exact fzDo_trap h (saveInstr_refused hrefused true)
  case rstl =>
    rintro c ecc s _ _ h hecc rfl rfl hok
    show execFzRstl c ecc s = _
    rw [execFzRstl]
    exact fzDo_restore_ok (advance := false) h hecc hok
  case rstu =>
    rintro c ecc s _ _ h hecc rfl rfl hok
    show execFzRstu c ecc s = _
    rw [execFzRstu]
    exact fzDo_restore_ok (advance := true) h hecc hok
  case rstlRefused =>
    rintro c n ecc s _ _ h hecc rfl rfl hrefused
    show execFzRstl c ecc s = _
    rw [execFzRstl]
    exact fzDo_restore_refused (advance := false) h hecc hrefused
  case rstuRefused =>
    rintro c n ecc s _ _ h hecc rfl rfl hrefused
    show execFzRstu c ecc s = _
    rw [execFzRstu]
    exact fzDo_restore_refused (advance := true) h hecc hrefused
  case badCcb =>
    rintro c ra ecc _ s _ _ h hecc rfl rfl rfl hccb
    exact execFzCtx_trap h (by decide) hecc (ctxSwitch_invalid hccb)
  case current =>
    rintro c ra ecc _ s _ _ h hecc rfl rfl rfl hccb hresident hssb
    exact execFzCtx_ok h hecc (ctxSwitch_current hccb ⟨hresident, hssb⟩)
  case resident =>
    rintro c ra ecc _ _ s _ _ h hecc rfl rfl rfl hccb hother hresident rfl hbank
    exact execFzCtx_ok h hecc (ctxSwitch_resident hccb hother hresident hbank)
  case free =>
    rintro c ra ecc _ f s _ _ h hecc rfl rfl rfl hccb habsent hother hfree henters
    exact execFzCtx_ok h hecc (ctxSwitch_free hccb hother habsent hfree henters)
  case victim =>
    rintro c ra ecc _ v s _ _ h hecc rfl rfl rfl hccb habsent hother hnone hvictim hevictable henters
    exact execFzCtx_ok h hecc (ctxSwitch_overflow hccb hother habsent hnone hvictim hevictable henters)
  case depleted =>
    rintro c ra ecc _ v s _ _ h hecc rfl rfl rfl hccb habsent hother hnone hvictim hdepleted
    exact execFzCtx_trap h (by decide) hecc (ctxSwitch_depleted hccb hother habsent hnone hvictim hdepleted)
  case uncorrectable => exact fun _ _ _ h => execFzCtx_uncorrectable h
  case recovery =>
    rintro c ecc s _ _ h hecc rfl rfl hsys hcur
    exact execFzRfe_ok h hsys (rfe_recovery hcur hecc)
  case localFrame =>
    rintro c ecc _ s t _ p st cs h rfl hsys hcur rfl haligned hlow hhigh hlocal hframe
    have hplace : ∀ na, fzPlace c (s.core c) ((s.core c).here.g 30).toNat ≠ .noc na := by
      intro na hna
      rw [hna] at hlocal
      exact absurd hlocal Bool.false_ne_true
    exact execFzRfe_ok h hsys (rfe_frame hcur haligned hlow hhigh hplace (fzAtBank_local hlocal) hframe)
  case scratchFrame =>
    rintro c ecc _ o s t _ p st cs h rfl hsys hcur rfl haligned hlow hhigh hplace hon hturn hframe
    have hlocal : ∀ na, fzPlace c (s.core c) ((s.core c).here.g 30).toNat ≠ .noc na := by simp [hplace]
    exact execFzRfe_ok h hsys (rfe_frame hcur haligned hlow hhigh hlocal (fzAtBank_turn hplace hon hturn) hframe)
  case misaligned =>
    rintro c ecc _ s _ h rfl hsys hcur rfl hmisaligned
    exact execFzRfe_misaligned h hsys hcur hmisaligned

end Sys2Proof.Machine
end

section
/-! A step takes the front command of the queue, log entry 1 (R350). -/

namespace Sys2Proof.Machine
open Sys2Proof

/-- Settles O48: the front command runs on the state with the rest of the queue, which for a command put in front is the state itself. -/
theorem stepFront : Obligations.StepFront := ⟨fun _ _ _ h => step_of_pending_cons h, fun _ _ => step_of_pending_cons rfl⟩

end Sys2Proof.Machine
end

section
/-! Answers of the security island (R384). -/

namespace Sys2Proof.Machine
open Sys2Proof

/-- Settles O57: the island's answer accepts, with no abort code, or refuses with `abortSecure`, along each kind of request. -/
theorem secureRefusals : Obligations.SecureRefusals := by
  unfold Obligations.SecureRefusals
  intro q due s
  unfold islandAnswer
  split
  case isTrue hscrapped => exact .inr rfl
  split
  case isTrue hread =>
    split
    case h_1 bs hbs =>
      split
      · exact .inl rfl
      · exact .inr rfl
    case h_2 hnone => exact .inr rfl
  split
  case isTrue hinitiate =>
    split
    · exact .inl rfl
    · exact .inr rfl
  split
  case isTrue hwrite =>
    split
    · exact .inl rfl
    · exact .inr rfl
  case isFalse hother => exact .inr rfl

end Sys2Proof.Machine
end

section
/-! Segments, block transfers, aborts and information services of SDO (R348, R351, R371, R374, R386). -/

namespace Sys2Proof.Machine
open Sys2Proof

/-- A segment of the right toggle takes the next part of a read (R348). -/
theorem segment_read {q : SdoReq} {last : Bool} {s : State} (hsub : q.sub = b2n last) (hactive : (s.path q.path).active = true)
    (htoggle : (s.path q.path).toggle = false) (hread : (s.path q.path).write = false) :
    segment q s = .taken (segmentTaken q.path ((s.path q.path).buf.take (segPart s q.path)) ((s.path q.path).buf.drop (segPart s q.path))
      (decide (segPart s q.path < (s.path q.path).buf.length)) s) := by
  have hfirst : b2n last / 2 = 0 := by cases last <;> rfl
  simp [segment, hsub, hactive, htoggle, hread, hfirst]

/-- A segment that its path serves is taken by the transfer in progress (R348). -/
theorem sdoRequest_segment {q : SdoReq} {s t : State} (hq : Serves s q) (hkind : q.kind = 4) (hseg : segment q (arrives q.path s) = .taken t) :
    sdoRequest q s = t := by
  rw [sdoRequest_served hq]
  simp [serveNow, hkind, hq.gate, hseg]

/-- A segment outside a write to the secure range is an ordinary request (R384). -/
theorem segmentRequest_plain {path : Nat} {last : Bool} {bs : List Byte} {s : State} (hplain : ((s.path path).write && secureIndex (s.path path).ix) = false) :
    segmentRequest path false last bs s = sdoRequest { path := path, kind := 4, ix := (s.path path).ix, sub := b2n last, data := bs } s := by
  have hplain' : ((s.path path).active && (s.path path).write && secureIndex (s.path path).ix) = false := by rw [Bool.and_assoc, hplain, Bool.and_false]
  have hsub : 2 * b2n false + b2n last = b2n last := Nat.zero_add _
  simp only [segmentRequest, hplain', hsub, Bool.false_eq_true, if_false]

/-- Block transfers are not served (R371). -/
theorem sdoRequest_block {q : SdoReq} {s : State} (hq : Serves s q) (hkind : q.kind = 5) :
    sdoRequest q s = answered q.path (.refuse (arrives q.path s) abortCommand) := by
  rw [sdoRequest_served hq]
  simp [serveNow, hkind, hq.gate]

/-- An information request that its path serves is answered in parts of its answer's own length (R371, R386). -/
theorem sdoRequest_info {q : SdoReq} {s : State} {bs : List Byte} (hq : Serves s q) (hkind : q.kind = 6 ∨ q.kind = 7 ∨ q.kind = 8)
    (hreply : infoReply q (arrives q.path s) = { data := bs, state := arrives q.path s }) :
    sdoRequest q s = answeredPart q.path bs.length { data := bs, state := arrives q.path s } := by
  have hlow : 6 ≤ q.kind := by omega
  have h4 : q.kind ≠ 4 := by omega
  have h5 : q.kind ≠ 5 := by omega
  have h9 : q.kind ≠ 9 := by omega
  have h10 : q.kind ≠ 10 := by omega
  rw [sdoRequest_served hq]
  simp [serveNow, hq.gate, hlow, hreply, h4, h5, h9, h10]

theorem infoReply_list {typ : Nat} (s : State) (htyp : typ ≤ 5) :
    infoReply { path := 0, kind := 6, ix := 0x1018, sub := typ } s = { data := infoListBytes typ, state := s } := by
  simp [infoReply, Nat.not_lt.mpr htyp]

theorem infoReply_object {ix : Nat} (s : State) (hobject : hasObject ix = true) :
    infoReply { path := 0, kind := 7, ix := ix } s = { data := infoObjectBytes ix, state := s } := by
  simp [infoReply, hobject]

theorem infoReply_entry {ix sub : Nat} {r : ObjRow} (s : State) (hrow : rowOf ix sub = some r) :
    infoReply { path := 0, kind := 8, ix := ix, sub := sub } s = { data := infoEntryBytes r ix sub, state := s } := by
  simp [infoReply, hrow]

/-- An information request of an index outside the secure range is an ordinary request (R384). -/
theorem anyRequest_plain {q : SdoReq} (s : State) (hix : q.ix < 0x5C00 ∨ 0x6000 ≤ q.ix) : anyRequest q s = sdoRequest q s := by
  simp [anyRequest, secureIndex_outside hix]

/-- The queued EMCY message goes into the empty SM1 buffer (R374). -/
theorem mailPump_emcy {s : State} {e : Emcy} {es : List Emcy} (hactive : coeActive s = true) (hempty : s.ecat.mailbox = false) (hmp : mpDown s = false)
    (hqueue : s.coeEmcy = e :: es) :
    mailPump s = { s with coeEmcy := es, ecat := { s.ecat with mailbox := true, lastMail := .emcy e.bytes } } := by
  simp [mailPump, hactive, hempty, hmp, hqueue]

/-- Settles O21: each service reaches its own meaning: a transfer in progress, a refusal with its code, a description or the SM1 buffer. -/
theorem sdoProtocol : Obligations.SdoProtocol := by
  unfold Obligations.SdoProtocol
  refine ⟨?segment, ?timeout, ?block, ?abort, ?list, ?object, ?entry, ?again, ?emcy⟩
  case segment =>
    rintro path last s _ rfl hq hactive htoggle hread hplain
    exact congrArg _ ((segmentRequest_plain hplain).trans (sdoRequest_segment hq rfl (segment_read rfl hactive htoggle hread)))
  case timeout =>
    intro path s hactive hidle hlate
    show execSdoSegmentTimeout path s = _
    simp [execSdoSegmentTimeout, done, hactive, hidle, Nat.not_lt.mpr hlate, abortTimeout]
  case block =>
    intro path ix sub s hplain hq
    have hblock : blockRequest path ix sub s = sdoRequest { path := path, kind := 5, ix := 0x1018 } s := by simp [blockRequest, hplain]
    exact congrArg _ (hblock.trans (sdoRequest_block hq rfl))
  case abort =>
    intro path s hactive hidle
    exact congrArg _ (if_pos ⟨hactive, by simp [hidle]⟩)
  case list =>
    intro typ s hq htyp
    exact congrArg _ (sdoRequest_info hq (.inl rfl) (infoReply_list _ htyp))
  case object =>
    intro ix s hq hix hobject
    exact congrArg _ ((anyRequest_plain s hix).trans (sdoRequest_info hq (.inr (.inl rfl)) (infoReply_object _ hobject)))
  case entry =>
    intro ix sub s r hq hix hrow
    exact congrArg _ ((anyRequest_plain s hix).trans (sdoRequest_info hq (.inr (.inr rfl)) (infoReply_entry _ hrow)))
  case again =>
    intro s hactive hmp hmail
    exact congrArg _ (if_pos ⟨hactive, by simp [hmp], hmail⟩)
  case emcy =>
    intro s e es hactive hmp hqueue
    exact congrArg _ (mailPump_emcy (s := { s with ecat := { s.ecat with mailbox := false } }) hactive rfl hmp hqueue)

end Sys2Proof.Machine
end

section
/-! The stored parameters, the start record, RESTART and the orderly stop (R345, R354 to R356, R472, R477, R503). -/

namespace Sys2Proof.Machine
open Sys2Proof

/-- RESTORE_DEFAULTS with its word removes the saved copies (R355). -/
theorem writeRestore_word {s : State} (hidle : saving s = false) :
    writeRestore 0x64616F6C s = .ok ((s.setFlash { s.flash with saved := [] }).setObj 0x2011 3 4) := by
  simp [writeRestore, hidle]

/-- LOCK with its word locks the parameters that are not locked (R356). -/
theorem writeLock_word {s : State} (hopen : s.obj 0x2012 1 = 0) :
    writeLock 0x6B636F6C s = .ok (persistTouch ((s.setObj 0x2012 1 1).setObj 0x2012 3 s.t)) := by
  simp [writeLock, hopen]

/-- CLEAR_RECORD with its word (R472). -/
theorem writeClearRecord_word (s : State) : writeClearRecord 0x64726372 s = .ok (recordChanged { s with start := { s.start with
    record := s.start.record.map (fun e => (e.1, { e.2 with fails := 0, variant := 0 })) } }) := if_neg (fun h => h rfl)

/-- RESTART with its word (R503). -/
theorem writeRestart_word (s : State) : writeRestart 0x74657372 s = .ok (resetSoon s) := if_neg (fun h => h rfl)

/-- RESTART with any other value is refused (R503). -/
theorem writeRestart_other {v : Nat} (s : State) (hv : v ≠ 0x74657372) : writeRestart v s = .refuse s abortValue := if_pos hv

/-- STOP with its word, in RUNNING without a changeover or an activation that is due (R477, steps 1 and 2). -/
theorem writeStop_running {s : State} (hrunning : s.obj 0x2001 0 = 1) (hchange : s.obj 0x3600 1 = 0) (hscheduled : fwState s ≠ 5)
    (hactivating : fwState s ≠ 6) :
    writeStop 0x706F7473 s = .ok (setStop 1 (s.time.clk + maxOffset s + 1000000) ((((List.range 64).foldl
      (fun st c => if st.classState c = 1 then st.setObj (0x3400 + c) 1 2 else st) s).setObj 0x2001 0 4).setObj 0x2000 0x0A 1)) := by
  simp [writeStop, devState, hrunning, hchange, hscheduled, hactivating]

/-- Settles O22: each write passes the dictionary's gate to the effect of its own word, and each event acts in the stop's step it ends. -/
theorem storedParameters : Obligations.StoredParameters := by
  unfold Obligations.StoredParameters
  refine ⟨?save, ?saved, ?restore, ?lock, ?clearRecord, ?restart, ?restartOther, ?stop, ?drained, ?durable, ?expired⟩
  case save => exact fun _ _ hacc _ _ => congrArg _ (sdoWrite_accepted _ hacc)
  case saved =>
    intro s hsaving hjob
    exact if_pos (by simp [hsaving, hjob])
  case restore =>
    intro s path hacc hidle
    exact congrArg _ ((sdoWrite_accepted _ hacc).trans (congrArg _ (writeRestore_word hidle)))
  case lock =>
    intro s path hacc hopen
    exact congrArg _ ((sdoWrite_accepted _ hacc).trans (congrArg _ (writeLock_word hopen)))
  case clearRecord =>
    intro s path hacc
    exact congrArg _ ((sdoWrite_accepted _ hacc).trans (congrArg _ (writeClearRecord_word _)))
  case restart =>
    intro s path hacc
    exact congrArg _ ((sdoWrite_accepted _ hacc).trans (congrArg _ (writeRestart_word _)))
  case restartOther =>
    intro s path v hacc hv
    exact congrArg _ ((sdoWrite_accepted _ hacc).trans (congrArg _ (writeRestart_other _ hv)))
  case stop =>
    intro s a path hacc hrunning hchange hscheduled hactivating ha
    rw [ha]
    exact congrArg _ ((sdoWrite_accepted _ hacc).trans (congrArg _ (writeStop_running hrunning hchange hscheduled hactivating)))
  case drained =>
    intro s hphase hdrained
    exact if_pos ⟨hphase, hdrained⟩
  case durable =>
    intro s hphase hdurable
    have hlater : ¬ (s.start.stopPhase = 1 ∧ classesDrained s = true) := by omega
    exact (if_neg hlater).trans (if_pos ⟨hphase, hdurable⟩)
  case expired =>
    intro s hphase hdue
    exact if_pos ⟨hphase, hdue⟩

end Sys2Proof.Machine
end

section
/-! The EtherCAT interface: AL requests, the SM2 watchdog, process data, port errors, SYNC and LATCH events, SII writes (R357 to R372). -/

namespace Sys2Proof.Machine
open Sys2Proof

/-- A free MP decides a request at once (R359, R380). -/
theorem alRequest_free {q : AlRequest} {s : State} (hfree : mpFree s = true) : alRequest q s = alDecide q (alDrop s) := by
  simp [alRequest, hfree]

/-- An upward request that comes while the MP serves something else or restarts waits its turn (R380, R383). -/
theorem alRequest_waits {q : AlRequest} {s : State} (hbusy : mpFree s = false) (hup : alUpward (ecatState s) q.state = true) :
    alRequest q s = { alDrop s with ecat := { (alDrop s).ecat with alWait := some q }, sdoWait := (alDrop s).sdoWait ++ [{ kind := 10 }] } := by
  simp [alRequest, hbusy, hup]

/-- The output buffer and the input view after a frame with outputs of the mapped size (R362, R364). -/
def outputsTaken (ago : Nat) (bs : FrameData) (s : State) : State :=
  { s with ecat := { s.ecat with
      outBuf := byteData bs, outSeen := true, outAt := s.time.clk, captureDue := s.ecat.captureDue || s.ecat.syncMode == 1,
      passed := insertNow (s.tAgo ago) (mappedEntries s 0x1C13) s.ecat.inBuf } }

section
variable {ago : Nat} {bs : FrameData} {s : State} (hlength : bs.length = mapTotal s 0x1C12)
include hlength

theorem execRxpdoBufferSwitch_safeop (hstate : ecatState s = 4) : execRxpdoBufferSwitch ago bs s = .next (outputsTaken ago bs s) := by
  simp [execRxpdoBufferSwitch, done, outputsTaken, byteData, hlength, hstate]

/-- In OP the outputs are split into their entries, and each written group emits its token (R365, R367). -/
theorem execRxpdoBufferSwitch_op (hstate : ecatState s = 8) :
    execRxpdoBufferSwitch ago bs s = .next ((List.range 64).foldl (groupToken (s.stampAgo ago))
      ((rxSplit (mappedEntries (outputsTaken ago bs s) 0x1C12) (byteData bs)).foldl rxApply (outputsTaken ago bs s))) := by
  simp [execRxpdoBufferSwitch, done, outputsTaken, byteData, hlength, hstate]

end

/-- A programmed SYNC0 outside DC mode emits its token where a plane has its ingress record (R369). -/
theorem execSyncEvent_sync0 {s : State} (hfabric : s.fabric = true) (hmode : s.ecat.syncMode ≠ 2) (hprogrammed : s.ecat.sync0 ≠ 0)
    (hingress : (ingressStream s false 40).isSome = true) :
    execSyncEvent 0 s = .next (enterFabric 67 40 { stamp := s.now, words := [0#32] } s) := by
  simp [execSyncEvent, done, hfabric, hmode, hprogrammed, hingress]

/-- A capture reads the mapped inputs into the TxPDO buffer (R364). -/
theorem execTxpdoCapture_due {s u : State} {bs : List Byte} (hstate : ecatState s = 4 ∨ ecatState s = 8) (hdue : captureDue s = true)
    (hread : (mappedEntries s 0x1C13).foldl txEntry ([], s) = (bs, u)) :
    execTxpdoCapture s = .next { u with ecat := { u.ecat with inBuf := bs, captureDue := false, capturedAt := u.time.clk } } := by
  rw [execTxpdoCapture, if_pos ⟨hstate, hdue⟩, hread]
  rfl

/-- Settles O25: whether the MP is free decides a state request, the EtherCAT state a frame with outputs, and the guard of each event its effect. -/
theorem etherCatCommands : Obligations.EtherCatCommands := by
  unfold Obligations.EtherCatCommands
  refine ⟨?decided, ?waits, ?watchdog, ?safeop, ?op, ?capture, ?frameError, ?link, ?sync, ?latch, ?sii⟩
  case decided =>
    intro q s hcalibrated hfree
    exact congrArg _ ((if_pos hcalibrated).trans (alRequest_free hfree))
  case waits =>
    intro q s hcalibrated hbusy hup
    exact congrArg _ ((if_pos hcalibrated).trans (alRequest_waits hbusy hup))
  case watchdog =>
    intro s hop hset hexpired
    exact if_pos ⟨hop, hset, hexpired⟩
  case safeop => exact fun _ _ _ hstate hlength => execRxpdoBufferSwitch_safeop hlength hstate
  case op =>
    rintro ago bs s _ hstate hlength rfl
    exact execRxpdoBufferSwitch_op hlength hstate
  case capture => exact fun _ _ _ hstate hdue hread => execTxpdoCapture_due hstate hdue hread
  case frameError =>
    intro port s hport
    show execEthercatFrameError port s = _
    rw [execEthercatFrameError, Nat.mod_eq_of_lt hport, done]
  case link =>
    intro port up s hport
    show execEthercatPortLinkChange port up s = _
    rw [execEthercatPortLinkChange, Nat.mod_eq_of_lt hport, done, b2n]
  case sync => exact fun _ hfabric hmode hprogrammed hingress => execSyncEvent_sync0 hfabric hmode hprogrammed hingress
  case latch =>
    intro n dc falling s hn hdc hpin
    show execLatchEvent n falling dc s = _
    simp only [execLatchEvent, Nat.mod_eq_of_lt hn, Nat.mod_eq_of_lt hdc, if_neg hpin, done, b2n]
  case sii =>
    intro a bs s hfits
    exact if_neg (Nat.not_lt.mpr hfits)

end Sys2Proof.Machine
end

section
/-! CANopen and the CAN FD controller, the MP's load windows and the operating time (R374, R376 to R382, R440, R441). -/

namespace Sys2Proof.Machine
open Sys2Proof

/-- An NMT command to all nodes or to this one is counted as received and carried out (R377, R378). -/
theorem nmtCommand_mine {target : Nat} {s : State} (f : State → State) (hnode : s.can.node ≠ 0) (hbus : busOff s = false)
    (hmine : target = 0 ∨ target = s.can.node) : nmtCommand target f s = f (s.bump 0x4600 8) := by
  simp only [nmtCommand, hnode, hbus, hmine, Bool.false_eq_true, or_self, if_false, if_true]

/-- A heartbeat that is due sends the NMT state (R376). -/
theorem execHeartbeatTimer_due {s u : State} (hnode : s.can.node ≠ 0) (hperiod : s.obj 0x4600 5 ≠ 0) (hdue : s.can.hbNext ≤ s.time.clk)
    (hbus : busOff s = false) (hu : u = { s with can := { s.can with hbNext := s.time.clk + 1000000 * s.obj 0x4600 5 } }) :
    execHeartbeatTimer s = .next (serviceSend (0x700 + s.can.node) [BitVec.ofNat 8 (s.obj 0x4600 6)] u) := by
  have hgo : ¬ (s.can.node = 0 ∨ s.obj 0x4600 5 = 0 ∨ s.time.clk < s.can.hbNext) := by omega
  subst hu
  exact (if_neg hgo).trans (congrArg _ (if_neg (ne_true_of_eq_false hbus)))

/-- The oldest EMCY message goes out, and the next one a millisecond later at the earliest (R374). -/
theorem execCanEmcyFrameSent_due {s : State} {e : Emcy} {es : List Emcy} (hqueue : s.canEmcy = e :: es) (hactive : canActive s = true)
    (hbus : busOff s = false) (hmp : mpDown s = false) (hdue : s.can.emcyNext ≤ s.time.clk) :
    execCanEmcyFrameSent s =
      .next (serviceSend (0x080 + s.can.node) e.bytes { s with canEmcy := es, can := { s.can with emcyNext := s.time.clk + 1000000 } }) := by
  simp [execCanEmcyFrameSent, done, hqueue, hactive, hbus, hmp, Nat.not_lt.mpr hdue]

/-- With CANopen off, a frame that a filter matches becomes free tokens on the filter's stream (R379). -/
theorem execCanFrameReceived_filtered {w0 ago st : Nat} {p : Bool} {bs : FrameData} {s u : State} (hbus : busOff s = false) (hlength : bs.length ≤ 64)
    (hu : u = (s.setObj 0x4600 7 (b2n p)).bump 0x4600 8) (hnode : u.can.node = 0) (hother : canReserved u w0 = false) (hfabric : u.fabric = true)
    (hfilter : canFilter u (u.time.clk - ago) w0 = some st) :
    execCanFrameReceived w0 ago p bs s =
      .next ((canTokens (s.stampAgo ago) w0 (byteData bs)).foldl (fun a t => enterFree 70 st t a) u) := by
  subst hu
  simp only [execCanFrameReceived, byteData, List.length_map, hbus, Nat.not_lt.mpr hlength, hnode, hother, hfabric, hfilter]
  simp [done]

/-- A low load without shedding changes nothing of it (R381). -/
theorem shedAfter_low {load low : Nat} (hload : load < 70) (hlow : low + 1 < 10) : shedAfter load 0 false low = 0 := by
  have hhigh : ¬ 90 ≤ load := by omega
  have htenth : ¬ (load < 70 ∧ low + 1 = 10) := by omega
  rw [shedAfter, if_neg hhigh, if_neg htenth]

/-- A window of low load without shedding notes the load and its peak (R381). -/
theorem execMpLoadWindow_low {s u : State} {load : Nat} (hload : load < 70) (hdue : s.upkeep.windowAt + 100000000 ≤ s.time.clk)
    (hshed : s.obj 0x2010 3 = 0) (hlow : s.upkeep.low + 1 < 10) (hhigh : s.upkeep.high = false)
    (hu : u = { s with upkeep := { s.upkeep with windowAt := s.time.clk, high := false, low := s.upkeep.low + 1 } }) :
    execMpLoadWindow load s = .next (((u.setObj 0x2010 1 load).peak 0x2010 2 load).setObj 0x2010 3 0) := by
  have hgo : ¬ (s.time.clk < s.upkeep.windowAt + 100000000 ∨ 100 < load) := by omega
  have hbelow : ¬ 90 ≤ load := by omega
  have hcount : s.upkeep.low + 1 ≠ 10 := by omega
  subst hu
  simp [execMpLoadWindow, done, hgo, hshed, hhigh, shedAfter_low hload hlow, hbelow, hload, hcount]

/-- A second of operating time that does not end an hour (R440). -/
theorem execOperatingTimeSecond_plain {s : State} {n : Nat} (hdue : s.upkeep.secondAt + 1000000000 ≤ s.time.clk)
    (hn : n = min (2 ^ 32 - 1) (s.obj 0x5000 0x0A + 1)) (hhour : n % 3600 ≠ 0) :
    execOperatingTimeSecond s =
      .next (({ s with upkeep := { s.upkeep with secondAt := s.upkeep.secondAt + 1000000000 } } : State).setObj 0x5000 0x0A n) := by
  subst hn
  exact (if_neg (Nat.not_lt.mpr hdue)).trans (congrArg _ (if_neg hhour))

/-- Settles O27: an NMT command names this node, and the guard of each other event holds. -/
theorem canCommands : Obligations.CanCommands := by
  unfold Obligations.CanCommands
  refine ⟨?start, ?stop, ?preOperational, ?resetNode, ?resetCommunication, ?heartbeat, ?emcy, ?frame, ?busOff, ?recovery, ?load, ?second⟩
  case start | stop | preOperational | resetNode | resetCommunication =>
    intro target s hnode hbus hmine
    exact congrArg _ (nmtCommand_mine _ hnode hbus hmine)
  case heartbeat => exact fun _ _ hnode hperiod hdue hbus hu => execHeartbeatTimer_due hnode hperiod hdue hbus hu
  case emcy => exact fun _ _ _ hqueue hactive hbus hmp hdue => execCanEmcyFrameSent_due hqueue hactive hbus hmp hdue
  case frame =>
    intro w0 ago st p bs s u hbus hlength hu hnode hother hfabric hfilter
    exact execCanFrameReceived_filtered hbus hlength hu hnode hother hfabric hfilter
  case busOff => exact fun _ hbus => if_neg (ne_true_of_eq_false hbus)
  case recovery => exact fun _ hbus => if_pos hbus
  case load => exact fun _ _ _ hload hdue hshed hlow hhigh hu => execMpLoadWindow_low hload hdue hshed hlow hhigh hu
  case second => exact fun _ _ hdue hn hhour => execOperatingTimeSecond_plain hdue hn hhour

end Sys2Proof.Machine
end

section
/-! Every command goes on from every state (log entry 3): along each branch of its row the outcome is a next state. -/

namespace Sys2Proof.Machine
open Sys2Proof

/-- The outcome is a next state, no fault and no refusal. -/
def GoesOn (o : Host.Outcome State Fault Refusal) : Prop := ∃ t, o = .next t

theorem GoesOn.next {s : State} : GoesOn (.next s) := ⟨s, rfl⟩

theorem GoesOn.ite {p : Prop} [Decidable p] {a b : Host.Outcome State Fault Refusal} (ha : GoesOn a) (hb : GoesOn b) : GoesOn (if p then a else b) := by
  split
  · exact ha
  · exact hb

/-! ## The shapes of an instruction of a Fizhaig core -/

/-- Whatever its effect comes to, an instruction of a core goes on: issued or not, trapped or waiting (R298). -/
theorem fzDo_goesOn (c : Nat) (s : State) (f : State → FzRes) : GoesOn (fzDo c s f) := by
  fun_cases fzDo <;> exact .next

theorem fzAlu_goesOn (c rd : Nat) (v : FBank → Word) (s : State) : GoesOn (fzAlu c rd v s) := fzDo_goesOn ..

theorem fzBranch_goesOn (c : Nat) (test : FBank → Bool) (disp : Nat) (s : State) : GoesOn (fzBranch c test disp s) := fzDo_goesOn ..

theorem readReg_goesOn (c rd a : Nat) (s : State) : GoesOn (readReg c rd a s) := fzDo_goesOn ..

theorem writeReg_goesOn (c rs a : Nat) (s : State) : GoesOn (writeReg c rs a s) := fzDo_goesOn ..

theorem setIe_goesOn (c : Nat) (v : Bool) (s : State) : GoesOn (setIe c v s) := fzDo_goesOn ..

theorem fzFp_goesOn (c ecc : Nat) (s : State) (f : State → FzRes) : GoesOn (fzFp c ecc s f) := fzDo_goesOn ..

theorem fzFpArea_goesOn (c ecc : Nat) (s : State) (f : Nat → Core → Core) : GoesOn (fzFpArea c ecc s f) := fzDo_goesOn ..

theorem fzFop_goesOn (c fd ecc : Nat) (v : Core → FRes) (s : State) : GoesOn (fzFop c fd ecc v s) := fzFp_goesOn ..

theorem fzFtoG_goesOn (c rd ecc : Nat) (v : Core → FRes) (s : State) : GoesOn (fzFtoG c rd ecc v s) := fzFp_goesOn ..

/-! ## Token timers -/

theorem execTokenTimerFiring_goesOn (planeB : Bool) (n : Nat) (s : State) : GoesOn (execTokenTimerFiring planeB n s) := by
  fun_cases execTokenTimerFiring <;> exact .next

/-! ## Packets, crossings and the memories of the network -/

theorem execPacketInjection_goesOn (i : Nat) (s : State) : GoesOn (execPacketInjection i s) := by
  fun_cases execPacketInjection <;> exact .next

theorem execRouteCacheRefillDone_goesOn (i : Nat) (s : State) : GoesOn (execRouteCacheRefillDone i s) := by
  fun_cases execRouteCacheRefillDone <;> exact .next

theorem execPacketForward_goesOn (x y port ecc : Nat) (bad : TidList) (s : State) : GoesOn (execPacketForward x y port ecc bad s) := by
  fun_cases execPacketForward <;> exact .next

theorem execUrgencyAgeing_goesOn (inSource : Bool) (i : Nat) (s : State) : GoesOn (execUrgencyAgeing inSource i s) := by
  fun_cases execUrgencyAgeing <;> exact .next

theorem execPacketDelivery_goesOn (x y : Nat) (edge : Bool) (s : State) : GoesOn (execPacketDelivery x y edge s) := by
  fun_cases execPacketDelivery <;> exact .next

theorem execDualClockQueueDelivery_goesOn (q : Nat) (s : State) : GoesOn (execDualClockQueueDelivery q s) := by
  fun_cases execDualClockQueueDelivery <;> exact .next

theorem execReadRequest_goesOn (x y : Nat) (edge : Bool) (ecc : Nat) (s : State) : GoesOn (execReadRequest x y edge ecc s) := by
  fun_cases execReadRequest <;> exact .next

theorem execWriteRequest_goesOn (x y : Nat) (edge : Bool) (ecc : Nat) (s : State) : GoesOn (execWriteRequest x y edge ecc s) := by
  fun_cases execWriteRequest <;> exact .next

theorem execStreamQueueAppend_goesOn (hoop q : Nat) (s : State) : GoesOn (execStreamQueueAppend hoop q s) := by
  fun_cases execStreamQueueAppend <;> exact .next

theorem execPullRequest_goesOn (x y : Nat) (edge : Bool) (ecc : Nat) (s : State) : GoesOn (execPullRequest x y edge ecc s) := by
  fun_cases execPullRequest <;> exact .next

theorem execHoopBankTransitionDone_goesOn (h bank : Nat) (s : State) : GoesOn (execHoopBankTransitionDone h bank s) := by
  fun_cases execHoopBankTransitionDone <;> exact .next

theorem execDramRequestService_goesOn (ecc pick : Nat) (s : State) : GoesOn (execDramRequestService ecc pick s) := by
  fun_cases execDramRequestService <;> exact .next

/-! ## The security island -/

theorem execMailboxExchange_goesOn (ecc : Nat) (s : State) : GoesOn (execMailboxExchange ecc s) := by
  fun_cases execMailboxExchange <;> exact .next

theorem execSecureResponseDue_goesOn (s : State) : GoesOn (execSecureResponseDue s) := by
  fun_cases execSecureResponseDue <;> exact .next

/-! ## Dispatch and gathers -/

theorem execTokenDelivery_goesOn (m src : Nat) (s : State) : GoesOn (execTokenDelivery m src s) := by
  fun_cases execTokenDelivery <;> exact .next

theorem execMatchEntryWaitTimeout_goesOn (m src : Nat) (s : State) : GoesOn (execMatchEntryWaitTimeout m src s) := by
  fun_cases execMatchEntryWaitTimeout <;> exact .next

theorem execWinnerSelection_goesOn (m pos : Nat) (s : State) : GoesOn (execWinnerSelection m pos s) := by
  fun_cases execWinnerSelection <;> exact .next

theorem execInstanceDispatch_goesOn (m pos ecc tok : Nat) (bad : TidList) (s : State) : GoesOn (execInstanceDispatch m pos ecc tok bad s) := by
  fun_cases execInstanceDispatch <;> exact .next

theorem execCancelWordArrival_goesOn (m src : Nat) (s : State) : GoesOn (execCancelWordArrival m src s) := by
  fun_cases execCancelWordArrival <;> exact .next

theorem execBankPowerTransitionDone_goesOn (m bank : Nat) (s : State) : GoesOn (execBankPowerTransitionDone m bank s) := by
  fun_cases execBankPowerTransitionDone <;> exact .next

theorem execGatherStart_goesOn (m : Nat) (s : State) : GoesOn (execGatherStart m s) := by
  fun_cases execGatherStart <;> exact .next

theorem execGatherElementRead_goesOn (m ecc : Nat) (bad : TidList) (s : State) : GoesOn (execGatherElementRead m ecc bad s) := by
  fun_cases execGatherElementRead <;> exact .next

/-! ## Fault masking -/

theorem execLaneMismatchReport_goesOn (m : Nat) (bad : TidList) (s : State) : GoesOn (execLaneMismatchReport m bad s) := by
  fun_cases execLaneMismatchReport <;> exact .next

theorem execReplayStreamStart_goesOn (m ecc : Nat) (bad : TidList) (s : State) : GoesOn (execReplayStreamStart m ecc bad s) := by
  fun_cases execReplayStreamStart <;> exact .next

theorem execRemapStart_goesOn (m : Nat) (bad : TidList) (s : State) : GoesOn (execRemapStart m bad s) := by
  fun_cases execRemapStart <;> exact .next

theorem execRemapComplete_goesOn (m : Nat) (words : List LaneWord) (s : State) : GoesOn (execRemapComplete m words s) := by
  fun_cases execRemapComplete <;> exact .next

theorem execScrubRead_goesOn (w : ScrubWord) (s : State) : GoesOn (execScrubRead w s) := by
  fun_cases execScrubRead <;> exact .next

/-! ## Timed transactions -/

theorem execOpeningNotice_goesOn (tid : Nat) (s : State) : GoesOn (execOpeningNotice tid s) := by
  fun_cases execOpeningNotice <;> exact .next

theorem execCloseReport_goesOn (m tid : Nat) (s : State) : GoesOn (execCloseReport m tid s) := by
  fun_cases execCloseReport <;> exact .next

theorem execCloseHandover_goesOn (m tid : Nat) (s : State) : GoesOn (execCloseHandover m tid s) := by
  fun_cases execCloseHandover <;> exact .next

theorem execCloseNotice_goesOn (tid ecc : Nat) (s : State) : GoesOn (execCloseNotice tid ecc s) := by
  fun_cases execCloseNotice <;> exact .next

theorem execCommitNotice_goesOn (m tid : Nat) (s : State) : GoesOn (execCommitNotice m tid s) := by
  fun_cases execCommitNotice <;> exact .next

theorem execStoreBufferDrain_goesOn (m ecc entry : Nat) (s : State) : GoesOn (execStoreBufferDrain m ecc entry s) := by
  fun_cases execStoreBufferDrain <;> exact .next

theorem execReentryInject_goesOn (s : State) : GoesOn (execReentryInject s) := by
  fun_cases execReentryInject <;> exact .next

theorem execSelvedgeEntryArrival_goesOn (port : Nat) (s : State) : GoesOn (execSelvedgeEntryArrival port s) := by
  fun_cases execSelvedgeEntryArrival <;> exact .next

theorem execTidReturn_goesOn (tid : Nat) (s : State) : GoesOn (execTidReturn tid s) := by
  fun_cases execTidReturn <;> exact .next

theorem execAbortNotice_goesOn (m tid : Nat) (bad : TidList) (s : State) : GoesOn (execAbortNotice m tid bad s) := by
  fun_cases execAbortNotice <;> exact .next

theorem execReplayNotice_goesOn (tid : Nat) (s : State) : GoesOn (execReplayNotice tid s) := by
  fun_cases execReplayNotice <;> exact .next

theorem execNoReplayNotice_goesOn (tid : Nat) (s : State) : GoesOn (execNoReplayNotice tid s) := by
  fun_cases execNoReplayNotice <;> exact .next

/-! ## Release at the ports -/

theorem execDeLeadStart_goesOn (ch : Nat) (s : State) : GoesOn (execDeLeadStart ch s) := by
  fun_cases execDeLeadStart <;> exact .next

theorem execReleaseInstant_goesOn (bad : List EntryError) (s : State) : GoesOn (execReleaseInstant bad s) := by
  fun_cases execReleaseInstant <;> exact .next

theorem execPortBusyRelease_goesOn (port : Nat) (s : State) : GoesOn (execPortBusyRelease port s) := by
  fun_cases execPortBusyRelease <;> exact .next

/-! ## Answers at their initiators -/

theorem execReadResp_goesOn (i : Nat) (s : State) : GoesOn (execReadResp i s) := by
  fun_cases execReadResp <;> exact .next

theorem execWriteAck_goesOn (i : Nat) (s : State) : GoesOn (execWriteAck i s) := by
  fun_cases execWriteAck <;> exact .next

theorem execPullResp_goesOn (i : Nat) (s : State) : GoesOn (execPullResp i s) := by
  fun_cases execPullResp <;> exact .next

/-! ## The ends of checks and programs -/

theorem execLoadCheckComplete_goesOn (failed : Nat) (s : State) : GoesOn (execLoadCheckComplete failed s) := by
  fun_cases execLoadCheckComplete <;> exact .next

theorem execFlashProgramComplete_goesOn (s : State) : GoesOn (execFlashProgramComplete s) := by
  fun_cases execFlashProgramComplete <;> exact .next

/-! ## Start and reset -/

theorem execRequestedReset_goesOn (s : State) : GoesOn (execRequestedReset s) := by
  fun_cases execRequestedReset <;> exact .next

theorem execFabricStart_goesOn (s : State) : GoesOn (execFabricStart s) := by
  fun_cases execFabricStart <;> exact .next

/-! ## Regions that leave -/

theorem execRegionDrained_goesOn (s : State) : GoesOn (execRegionDrained s) := by
  fun_cases execRegionDrained <;> exact .next

theorem execRegionLeaveReset_goesOn (s : State) : GoesOn (execRegionLeaveReset s) := by
  fun_cases execRegionLeaveReset <;> exact .next

/-! ## Events of the Fizhaig cores -/

theorem execReservedEncoding_goesOn (c w : Nat) (s : State) : GoesOn (execReservedEncoding c w s) :=
  .ite .next (fzDo_goesOn ..)

theorem execInstructionFetchFault_goesOn (c ecc : Nat) (s : State) : GoesOn (execInstructionFetchFault c ecc s) := by
  fun_cases execInstructionFetchFault <;> exact .next

theorem execInterruptEntry_goesOn (c : Nat) (s : State) : GoesOn (execInterruptEntry c s) := by
  fun_cases execInterruptEntry <;> exact .next

/-! ## Latched pairs -/

theorem execLatchedPairRead_goesOn (c rd addr : Nat) (s : State) : GoesOn (execLatchedPairRead c rd addr s) := by
  fun_cases execLatchedPairRead
  · exact readReg_goesOn ..
  · exact .next

/-! ## CAN -/

theorem execCanEmcyFrameSent_goesOn (s : State) : GoesOn (execCanEmcyFrameSent s) := by
  fun_cases execCanEmcyFrameSent <;> exact .next

theorem execCanFrameReceived_goesOn (w0 ago : Nat) (passive : Bool) (bs : FrameData) (s : State) : GoesOn (execCanFrameReceived w0 ago passive bs s) := by
  fun_cases execCanFrameReceived <;> exact .next

/-! ## Timed pins -/

theorem execTioInputEdge_goesOn (p : Nat) (level : Bool) (s0 : State) : GoesOn (execTioInputEdge p level s0) := by
  fun_cases execTioInputEdge <;> exact .next

theorem execTioStuckTimeout_goesOn (p : Nat) (s0 : State) : GoesOn (execTioStuckTimeout p s0) := by
  fun_cases execTioStuckTimeout <;> exact .next

theorem execTioTokenQueueEntry_goesOn (p : Nat) (s : State) : GoesOn (execTioTokenQueueEntry p s) := by
  fun_cases execTioTokenQueueEntry <;> exact .next

theorem execPulseTrainEdge_goesOn (p : Nat) (s0 : State) : GoesOn (execPulseTrainEdge p s0) := by
  fun_cases execPulseTrainEdge <;> exact .next

/-! ## Serial ports -/

theorem execSsiPoll_goesOn (ch : Nat) (s : State) : GoesOn (execSsiPoll ch s) := by
  fun_cases execSsiPoll <;> exact .next

theorem execSsiReadComplete_goesOn (ch pos st : Nat) (err : Bool) (s : State) : GoesOn (execSsiReadComplete ch pos st err s) := by
  fun_cases execSsiReadComplete <;> exact .next

theorem execDriveResponseReceived_goesOn (ch ago : Nat) (bytes : List RxByte) (s : State) : GoesOn (execDriveResponseReceived ch ago bytes s) := by
  fun_cases execDriveResponseReceived <;> exact .next

theorem execDriveResponseTimeout_goesOn (ch : Nat) (s : State) : GoesOn (execDriveResponseTimeout ch s) := by
  fun_cases execDriveResponseTimeout <;> exact .next

/-! ## Cameras -/

theorem execCsiLineStart_goesOn (cam vc : Nat) (s : State) : GoesOn (execCsiLineStart cam vc s) := by
  fun_cases execCsiLineStart <;> exact .next

theorem execCsiLongPacket_goesOn (cam : Nat) (q : CsiLine) (s : State) : GoesOn (execCsiLongPacket cam q s) := by
  fun_cases execCsiLongPacket <;> exact .next

theorem execCsiFrameEnd_goesOn (cam vc : Nat) (s : State) : GoesOn (execCsiFrameEnd cam vc s) := by
  fun_cases execCsiFrameEnd <;> exact .next

/-! ## Links -/

theorem execLinkResendTimeout_goesOn (l : Nat) (s : State) : GoesOn (execLinkResendTimeout l s) := by
  fun_cases execLinkResendTimeout <;> exact .next

/-! ## Boundary queues -/

theorem execBqPacketReadout_goesOn (q : Nat) (s : State) : GoesOn (execBqPacketReadout q s) := by
  fun_cases execBqPacketReadout <;> exact .next

/-! ## Trace and journal -/

theorem execTraceExportCopy_goesOn (s : State) : GoesOn (execTraceExportCopy s) := by
  fun_cases execTraceExportCopy <;> exact .next

theorem execJournalRecordLeave_goesOn (s : State) : GoesOn (execJournalRecordLeave s) := by
  fun_cases execJournalRecordLeave <;> exact .next

theorem execJournalBlockWrite_goesOn (s : State) : GoesOn (execJournalBlockWrite s) := by
  fun_cases execJournalBlockWrite <;> exact .next

/-! ## Boot flash -/

theorem execFlashEraseComplete_goesOn (s : State) : GoesOn (execFlashEraseComplete s) := by
  fun_cases execFlashEraseComplete <;> exact .next

/-! ## Firmware verdicts -/

theorem execUpdateVerdict_goesOn (s : State) : GoesOn (execUpdateVerdict s) := by
  fun_cases execUpdateVerdict <;> exact .next

/-! ## Power domains -/

theorem execDomainSwitchDone_goesOn (s : State) : GoesOn (execDomainSwitchDone s) := by
  fun_cases execDomainSwitchDone <;> exact .next

theorem execDomainSwitchTimeout_goesOn (s : State) : GoesOn (execDomainSwitchTimeout s) := by
  fun_cases execDomainSwitchTimeout <;> exact .next

/-- One case for each row of the operation table: instructions of a core go by `fzDo` and the shapes made of it, rows with guards by the tree of
their guards, and rows that end in one outcome, which are the rest, by that. -/
theorem exec_goesOn (i : Instr) (s : State) : GoesOn (exec i s) := by
  cases i with
  | fzAdd | fzSub | fzAnd | fzOr | fzXor | fzAndn | fzSll | fzSrl | fzSra | fzRor | fzSlt | fzSltu | fzMin | fzMax | fzClz | fzMul | fzMulh | fzMulhu
    | fzDiv | fzDivu | fzRem | fzRemu | fzAddi | fzAndi | fzOri | fzXori | fzSlti | fzSltiu | fzSlli | fzSrli | fzSrai | fzLui =>
    unfold exec
    exact fzAlu_goesOn ..
  | fzLw | fzLh | fzLhu | fzLb | fzLbu | fzSwap | fzSw | fzSh | fzSb | fzClw | fzClh | fzClb | fzCld | fzCsw | fzCsh | fzCsb | fzCsd | fzJ | fzJal
    | fzJalr | fzCtx | fzSavl | fzSavu | fzRstl | fzRstu | fzRfe | fzRfi | fzWait | fzSys | fzBrk | fzFence | shctlStop | shctlRestart =>
    unfold exec
    exact fzDo_goesOn ..
  | fzBeq | fzBne | fzBlt | fzBge | fzBltu | fzBgeu =>
    unfold exec
    exact fzBranch_goesOn ..
  | fzSavf | fzRstf =>
    unfold exec
    exact fzFpArea_goesOn ..
  | fzEi | fzDi =>
    unfold exec
    exact setIe_goesOn ..
  | fzFadd | fzFsub | fzFmul | fzFsqrt | fzFma | fzFms | fzFnma | fzFmin | fzFmax | fzItof | fzFmvgf | fzFabs | fzFneg =>
    unfold exec
    exact fzFop_goesOn ..
  | fzFdiv | fzFlw | fzFsw =>
    unfold exec
    exact fzFp_goesOn ..
  | fzFcmplt | fzFcmple | fzFcmpeq | fzFtoi | fzFtoir | fzFmvfg =>
    unfold exec
    exact fzFtoG_goesOn ..
  | replayqPop | rxheadRead | rxdataPop | excountRead =>
    unfold exec
    exact readReg_goesOn ..
  | replayRequestWrite | txdataAppend | txlastSend | wdogWrite | pullreqWrite | doorbellWrite | ibindWrite =>
    unfold exec
    exact writeReg_goesOn ..
  | dcOffsetMeasurement | dcReferenceLoss | ppsReferenceLoss | ppsOutRise | ppsOutFall | epochBoundary | contextRepair | tidGrantNotice
    | childRecheck | routeEntryWriteLazy | routeEntryWriteInvalidate | islandWipeComplete | cfgWidthSample | doneHighSeen | changeoverArm
    | prepareDeadline | changeoverInstant | oldPlaneRetire | fzWaitWake | watchdogWarning | watchdogExpiry | mpRestartDone | sdoSegmentTimeout
    | saveComplete | smWatchdogExpiry | txpdoCapture | latchEvent | siiWrite | heartbeatTimer | canBusOff | canBusOffRecovery | mpLoadWindow
    | tioDeglitchPass | tioBurstSummary | uartFrameEnd | linkIdleTimer | voteTimer | linkTrainingDone | samplerRecordOffer | porstNReset
    | supplyMonitorReset | resetNReset | resetRelease | activationInstant | dcSystemTimeUpdate | operatingTimeSecond =>
    exact .ite .next .next
  | flitCrcError | rxpdoBufferSwitch | syncEvent | csiFrameStart | startStepTimeout | orderlyStopWaitExpiry =>
    exact .ite .next (.ite .next .next)
  | ppsEdge | timeStep | driveResyncComplete =>
    exact .ite (.ite .next .next) .next
  | replayServiceInsert | stopDrained =>
    exact .ite .next (.ite .next (.ite .next .next))
  | tokenTimerFiring => exact execTokenTimerFiring_goesOn ..
  | dualClockQueueDelivery => exact execDualClockQueueDelivery_goesOn ..
  | mailboxExchange => exact execMailboxExchange_goesOn ..
  | tokenDelivery => exact execTokenDelivery_goesOn ..
  | matchEntryWaitTimeout => exact execMatchEntryWaitTimeout_goesOn ..
  | winnerSelection => exact execWinnerSelection_goesOn ..
  | instanceDispatch => exact execInstanceDispatch_goesOn ..
  | cancelWordArrival => exact execCancelWordArrival_goesOn ..
  | bankPowerTransitionDone => exact execBankPowerTransitionDone_goesOn ..
  | gatherStart => exact execGatherStart_goesOn ..
  | gatherElementRead => exact execGatherElementRead_goesOn ..
  | scrubRead => exact execScrubRead_goesOn ..
  | openingNotice => exact execOpeningNotice_goesOn ..
  | closeReport => exact execCloseReport_goesOn ..
  | closeHandover => exact execCloseHandover_goesOn ..
  | closeNotice => exact execCloseNotice_goesOn ..
  | commitNotice => exact execCommitNotice_goesOn ..
  | storeBufferDrain => exact execStoreBufferDrain_goesOn ..
  | reentryInject => exact execReentryInject_goesOn ..
  | selvedgeEntryArrival => exact execSelvedgeEntryArrival_goesOn ..
  | releaseInstant => exact execReleaseInstant_goesOn ..
  | portBusyRelease => exact execPortBusyRelease_goesOn ..
  | tidReturn => exact execTidReturn_goesOn ..
  | laneMismatchReport => exact execLaneMismatchReport_goesOn ..
  | abortNotice => exact execAbortNotice_goesOn ..
  | replayNotice => exact execReplayNotice_goesOn ..
  | noReplayNotice => exact execNoReplayNotice_goesOn ..
  | replayStreamStart => exact execReplayStreamStart_goesOn ..
  | remapStart => exact execRemapStart_goesOn ..
  | remapComplete => exact execRemapComplete_goesOn ..
  | packetInjection => exact execPacketInjection_goesOn ..
  | routeCacheRefillDone => exact execRouteCacheRefillDone_goesOn ..
  | packetForward => exact execPacketForward_goesOn ..
  | urgencyAgeing => exact execUrgencyAgeing_goesOn ..
  | packetDelivery => exact execPacketDelivery_goesOn ..
  | readRequest => exact execReadRequest_goesOn ..
  | writeRequest => exact execWriteRequest_goesOn ..
  | pullRequest => exact execPullRequest_goesOn ..
  | readResp => exact execReadResp_goesOn ..
  | writeAck => exact execWriteAck_goesOn ..
  | pullResp => exact execPullResp_goesOn ..
  | streamQueueAppend => exact execStreamQueueAppend_goesOn ..
  | hoopBankTransitionDone => exact execHoopBankTransitionDone_goesOn ..
  | dramRequestService => exact execDramRequestService_goesOn ..
  | loadCheckComplete => exact execLoadCheckComplete_goesOn ..
  | fabricStart => exact execFabricStart_goesOn ..
  | regionDrained => exact execRegionDrained_goesOn ..
  | regionLeaveReset => exact execRegionLeaveReset_goesOn ..
  | interruptEntry => exact execInterruptEntry_goesOn ..
  | latchedPairRead => exact execLatchedPairRead_goesOn ..
  | secureResponseDue => exact execSecureResponseDue_goesOn ..
  | canEmcyFrameSent => exact execCanEmcyFrameSent_goesOn ..
  | canFrameReceived => exact execCanFrameReceived_goesOn ..
  | tioInputEdge => exact execTioInputEdge_goesOn ..
  | tioStuckTimeout => exact execTioStuckTimeout_goesOn ..
  | tioTokenQueueEntry => exact execTioTokenQueueEntry_goesOn ..
  | pulseTrainEdge => exact execPulseTrainEdge_goesOn ..
  | deLeadStart => exact execDeLeadStart_goesOn ..
  | ssiPoll => exact execSsiPoll_goesOn ..
  | ssiReadComplete => exact execSsiReadComplete_goesOn ..
  | driveResponseReceived => exact execDriveResponseReceived_goesOn ..
  | driveResponseTimeout => exact execDriveResponseTimeout_goesOn ..
  | csiLineStart => exact execCsiLineStart_goesOn ..
  | csiLongPacket => exact execCsiLongPacket_goesOn ..
  | csiFrameEnd => exact execCsiFrameEnd_goesOn ..
  | linkResendTimeout => exact execLinkResendTimeout_goesOn ..
  | bqPacketReadout => exact execBqPacketReadout_goesOn ..
  | traceExportCopy => exact execTraceExportCopy_goesOn ..
  | journalRecordLeave => exact execJournalRecordLeave_goesOn ..
  | journalBlockWrite => exact execJournalBlockWrite_goesOn ..
  | requestedReset => exact execRequestedReset_goesOn ..
  | flashEraseComplete => exact execFlashEraseComplete_goesOn ..
  | flashProgramComplete => exact execFlashProgramComplete_goesOn ..
  | updateVerdict => exact execUpdateVerdict_goesOn ..
  | domainSwitchDone => exact execDomainSwitchDone_goesOn ..
  | domainSwitchTimeout => exact execDomainSwitchTimeout_goesOn ..
  | reservedEncoding => exact execReservedEncoding_goesOn ..
  | instructionFetchFault => exact execInstructionFetchFault_goesOn ..
  | _ => exact .next

/-- Settles O50: each row of the dispatch goes on. -/
theorem everyCommandAnswers : Obligations.EveryCommandAnswers := exec_goesOn

end Sys2Proof.Machine
end

section
/-! Timed pins: what an edge, the deglitch time, the end of a burst, the stuck limit, the bank queues and a pulse train do to a pin whose written
MODE is in force (R394, R396 to R398, R400, R402). -/

namespace Sys2Proof.Machine
open Sys2Proof

section
variable {p : Nat} {s : State}

/-- Edges folded since the pin's last token go out as one summary when that token is 64 ns old and none is held (R397, R400). -/
theorem tioSummary_due {c : Nat} (hfolded : (s.pin p).folded ≠ 0) (hlast : (s.pin p).lastTok = some c) (hdue : c + 64 ≤ s.time.clk)
    (hheld : (s.pin p).held = none) : tioSummary p s =
      tioSend p (tioToken (s.pin p).foldFirst (s.pin p).level 2 [BitVec.ofNat 32 (s.pin p).folded, (s.pin p).foldLast]) s := by
  have hsends : (s.pin p).folded ≠ 0 ∧ decide (c + 64 ≤ s.time.clk) = true ∧ (s.pin p).held.isNone = true :=
    ⟨hfolded, decide_eq_true hdue, by rw [hheld]; rfl⟩
  simp only [tioSummary, hlast, if_pos hsends]

variable (hp : p < 24)
include hp

/-- A held token that no stuck token follows enters its bank's queue when there is a place (R400). -/
theorem execTioTokenQueueEntry_enters {t : Token} {u : State} (hheld : (s.pin p).held = some t) (hstuck : (s.pin p).stuckTok = none)
    (hroom : (bankQueue s (p / 8)).length < 16) (hu : u = s.setPin p { s.pin p with held := none }) : execTioTokenQueueEntry p s =
      .next { u with ports := { u.ports with tioBanks := mset [] u.ports.tioBanks (p / 8) (bankQueue s (p / 8) ++ [(p, t)]) } } := by
  subst hu
  simp only [execTioTokenQueueEntry, Nat.mod_eq_of_lt hp, hheld, if_pos hroom, hstuck, Option.isSome_none, Bool.false_eq_true, if_false, done]

variable (hmode : (s.pin p).mode = tioCfg s p 2)
include hmode

/-- A crossing of the threshold that follows no edge still in the deglitch stage enters that stage with its stamp (R29, R396). -/
theorem execTioInputEdge_deglitches {level : Bool} {u : State} (hraw : (s.pin p).raw ≠ level) (hout : tioOut s p = false)
    (hu : u = (tioDue p s).setObjBit 0x4000 0x0B p level) (hin : tioIn s p = true) (hfirst : (u.pin p).edge = none) (htime : tioCfg s p 4 ≠ 0) :
    execTioInputEdge p level s = .next (u.setPin p { u.pin p with raw := level, edge := some (u.time.clk, u.now) }) := by
  have hseen : ¬ ((s.pin p).raw = level ∨ tioHolds s p = true) := by simp [hraw, tioHolds_input hout]
  subst hu
  simp only [execTioInputEdge, Nat.mod_eq_of_lt hp, tioSettle_inForce hmode, if_neg hseen, hin, Bool.not_true, Bool.false_eq_true, if_false, hfirst,
    if_neg htime, done]

/-- A pass over an input looks at what its deglitch stage has due (R396). -/
theorem execTioDeglitchPass_input (hin : tioIn s p = true) : execTioDeglitchPass p s = .next (tioDue p s) := by
  simp only [execTioDeglitchPass, Nat.mod_eq_of_lt hp, tioSettle_inForce hmode, if_pos hin, done]

/-- A pass over an input sends the burst summary that is due (R397). -/
theorem execTioBurstSummary_input (hin : tioIn s p = true) : execTioBurstSummary p s = .next (tioSummary p s) := by
  simp only [execTioBurstSummary, Nat.mod_eq_of_lt hp, tioSettle_inForce hmode, if_pos hin, done]

/-- The first pin found active beyond its limit, with no token held, sets the alarm's condition and reports at once (R398). -/
theorem execTioStuckTimeout_first {c lim : Nat} {st : Stamp} {w u : State} {x : TioPin} (hin : tioIn s p = true) (hw : w = tioSummary p s)
    (hx : x = w.pin p) (hlim : lim = 1000 * tioCfg w p 6) (hactive : x.activeAt = some (c, st)) (hwin : tioIn w p = true) (hlim0 : lim ≠ 0)
    (hlong : c + lim ≤ w.time.clk) (hnew : x.stuck = false) (hheld : x.held = none) (hfirst : w.obj 0x4000 0x0F = 0)
    (hu : u = (w.setPin p { x with stuck := true, stuckTok := none }).setObjBit 0x4000 0x0F p true) :
    execTioStuckTimeout p s = .next (tioSend p (tioToken (st + BitVec.ofNat 32 lim) x.level 1 [st]) (setCond 28 true u)) := by
  subst hu hlim hx hw
  have hstuck : tioIn (tioSummary p s) p = true ∧ 1000 * tioCfg (tioSummary p s) p 6 ≠ 0 ∧
      c + 1000 * tioCfg (tioSummary p s) p 6 ≤ (tioSummary p s).time.clk ∧ (!((tioSummary p s).pin p).stuck) = true :=
    ⟨hwin, hlim0, hlong, by rw [hnew]; rfl⟩
  simp only [execTioStuckTimeout, Nat.mod_eq_of_lt hp, tioSettle_inForce hmode, if_pos hin, hactive, if_pos hstuck, hheld, if_pos hfirst,
    Option.isSome_none, Bool.false_eq_true, if_false, done]

/-- An edge of a pulse train that is due and not its last drives the pin, even edges to the pulse level (R402). -/
theorem execPulseTrainEdge_due {t : Pulse} (hpulse : (s.pin p).pulse = some t) (hdue : t.start + pulseEdgeAt s p t.next ≤ s.time.clk)
    (hmore : t.next + 1 < 2 * (tioCfg s p 0x0A % 65536)) :
    execPulseTrainEdge p s = .next (tioDrive p (if t.next % 2 = 0 then pulseLevel s p else !pulseLevel s p)
      (s.setPin p { s.pin p with pulse := some { t with next := t.next + 1 } })) := by
  simp only [execPulseTrainEdge, Nat.mod_eq_of_lt hp, tioSettle_inForce hmode, hpulse, if_pos hdue, if_neg (Nat.not_le.mpr hmore), done]

end

/-- Settles O28: the written MODE is in force, so each event acts on the pin as it stands, under the guard that the clause's hypotheses meet. -/
theorem tioCommands : Obligations.TioCommands := by
  unfold Obligations.TioCommands
  refine ⟨?edge, ?pass, ?summary, ?stuck, ?queue, ?pulse⟩
  case edge =>
    intro p level s u hp hmode hraw hout hu hin hfirst htime
    exact execTioInputEdge_deglitches hp hmode hraw hout hu hin hfirst htime
  case pass => exact fun _ _ hp hmode hin => execTioDeglitchPass_input hp hmode hin
  case summary =>
    rintro p c s _ hp rfl hmode hin hfolded hlast hdue hheld
    exact (execTioBurstSummary_input hp hmode hin).trans (congrArg _ (tioSummary_due hfolded hlast hdue hheld))
  case stuck =>
    intro p c lim st s w u x hp hmode hin hw hx hlim hactive hwin hlim0 hlong hnew hheld hfirst hu
    exact execTioStuckTimeout_first hp hmode hin hw hx hlim hactive hwin hlim0 hlong hnew hheld hfirst hu
  case queue =>
    intro p t s u hp hheld hstuck hroom hu
    exact execTioTokenQueueEntry_enters hp hheld hstuck hroom hu
  case pulse => exact fun _ _ _ hp hmode hpulse hdue hmore => execPulseTrainEdge_due hp hmode hpulse hdue hmore

end Sys2Proof.Machine
end

section
/-! Serial channels: the lead of DE, UART frames, encoder reads and the responses of drives (R404, R406 to R413). -/

namespace Sys2Proof.Machine
open Sys2Proof

section
variable {ch : Nat} {s : State}

/-- A channel that reads an encoder is polled at each whole multiple of its period (R409). -/
theorem ssiPoll_comes (hmode : serMode s ch = 2) (hperiod : serCfg s ch 7 ≠ 0) (hinstant : s.t % serCfg s ch 7 = 0) :
    ¬ (serMode s ch ≠ 2 ∨ serCfg s ch 7 = 0 ∨ s.t % serCfg s ch 7 ≠ 0) := by
  simp [hmode, hperiod, hinstant]

variable (hch : ch < 8)
include hch

/-- A free half-duplex channel raises DE for the first release within its lead (R404). -/
theorem execDeLeadStart_raises {r : Stamp} (hmode : serMode s ch = 1 ∨ serMode s ch = 3) (hhalf : serFull s ch = false)
    (hlead : (s.serial ch).lead = none) (hfree : serBusy s ch = false)
    (hr : (leadStamps s ch).find? (fun r => decide (diff r s.now ≤ (serCfg s ch 5 : Int)) && decide (0 < diff r s.now)) = some r) :
    execDeLeadStart ch s = .next (s.setSerial ch { s.serial ch with lead := some r, deAt := s.time.clk }) := by
  have hraises : (serMode s ch = 1 ∨ serMode s ch = 3) ∧ (!serFull s ch) = true ∧ (s.serial ch).lead.isNone = true ∧ (!serBusy s ch) = true := by
    simp [hmode, hhalf, hlead, hfree]
  simp only [execDeLeadStart, Nat.mod_eq_of_lt hch, hr, if_pos hraises, done]

/-- A frame of bytes that the channel heard, followed by the gap, has its errors counted and enters with the stamp of its first bit (R407). -/
theorem execUartFrameEnd_enters {ago : Nat} {bytes got : List RxByte} (hmode : serMode s ch = 1) (hbytes : bytes = uartBytes (serCfg s ch 4) got)
    (hsome : bytes ≠ []) (hheard : rxIgnored s ch ago = false) (hgap : bitsNs s ch (serCfg s ch 6) ≤ ago) :
    execUartFrameEnd ch ago got s = .next ((uartTokens (s.stampAgo ago) bytes.length bytes).foldl (fun st t => serToken ch t st)
      (s.setObji ch 0x4100 0x0A (satAdd 32 (s.obji ch 0x4100 0x0A) ((bytes.filter (·.parity)).length + (bytes.filter (·.framing)).length)))) := by
  subst hbytes
  have hframe : ¬ (serMode s ch ≠ 1 ∨ (uartBytes (serCfg s ch 4) got).isEmpty = true ∨ rxIgnored s ch ago = true ∨
      ago < bitsNs s ch (serCfg s ch 6)) := by
    simp [hmode, hsome, hheard, hgap]
  simp only [execUartFrameEnd, Nat.mod_eq_of_lt hch, if_neg hframe, done]

section
variable (hmode : serMode s ch = 2) (hperiod : serCfg s ch 7 ≠ 0) (hinstant : s.t % serCfg s ch 7 = 0)
include hmode hperiod hinstant

/-- A poll of a free channel starts a read (R409). -/
theorem execSsiPoll_free (hfree : (s.serial ch).reading = none) : execSsiPoll ch s =
    .next (serBump ch 8 (s.setSerial ch { s.serial ch with reading := some (s.time.clk, s.now, true), shared := false })) := by
  simp only [execSsiPoll, Nat.mod_eq_of_lt hch, if_neg (ssiPoll_comes hmode hperiod hinstant), hfree, done]

/-- A poll that meets a read begun earlier is skipped and counted (R409). -/
theorem execSsiPoll_busy {c : Nat} {st : Stamp} {poll : Bool} (hreading : (s.serial ch).reading = some (c, st, poll)) (hearlier : c ≠ s.time.clk) :
    execSsiPoll ch s = .next (serBump ch 0x0C s) := by
  simp only [execSsiPoll, Nat.mod_eq_of_lt hch, if_neg (ssiPoll_comes hmode hperiod hinstant), hreading, if_neg hearlier, done]

end

/-- A read that a release began ends without a line error: its binary position and its status go out with the stamp of the first falling edge (R410). -/
theorem execSsiReadComplete_binary {pos sts c fmt : Nat} {stamp : Stamp} (hreading : (s.serial ch).reading = some (c, stamp, false))
    (hend : c + ssiNs s ch ≤ s.time.clk) (hfmt : fmt = serCfg s ch 4) (hbinary : bit fmt 10 = false) :
    execSsiReadComplete ch pos sts false s = .next (serToken ch
      { stamp := stamp, words := [BitVec.ofNat 32 (pos % 2 ^ (fmt % 64)), BitVec.ofNat 32 (sts % 2 ^ (fmt / 64 % 16))] }
      (s.setSerial ch { s.serial ch with reading := none })) := by
  subst hfmt
  simp only [execSsiReadComplete, Nat.mod_eq_of_lt hch, hreading, if_pos hend, hbinary, Bool.false_eq_true, if_false, b2n, Nat.mul_zero, Nat.add_zero,
    done]

section
variable {head seq : Nat} (hcmd : (s.serial ch).cmd = some (head, seq))
include hcmd

/-- An intact response of the open command, within its timeout, closes the command and goes out as a token (R412, R413). -/
theorem execDriveResponseReceived_intact {ago : Nat} {bytes : List RxByte} {bs : List Byte} (hmode : serMode s ch = 3)
    (hsoon : s.time.clk ≤ (s.serial ch).endAt + serCfg s ch 6 + ago) (hafter : (s.serial ch).endAt + ago ≤ s.time.clk)
    (hbs : bs = bytes.map (fun b => BitVec.ofNat 8 b.value)) (hframing : bytes.any (·.framing) = false) (hok : driveFrameOk bs = true)
    (hhead : (bs.getD 1 0#8).toNat % 128 = head % 128) (hseq : (bs.getD 2 0#8).toNat = seq) (hresponse : bit (bs.getD 1 0#8).toNat 7 = true) :
    execDriveResponseReceived ch ago bytes s = .next (serToken ch (driveToken (s.stampAgo ago) (bs.getD 1 0#8).toNat seq (bs.getD 3 0#8).toNat
      false false false (leWords ((bs.drop 4).take (bs.getD 3 0#8).toNat))) (s.setSerial ch { s.serial ch with cmd := none })) := by
  have hopen : ¬ (serMode s ch ≠ 3 ∨ (s.serial ch).endAt + serCfg s ch 6 + ago < s.time.clk ∨ s.time.clk < (s.serial ch).endAt + ago) := by
    omega
  subst hbs
  simp only [execDriveResponseReceived, Nat.mod_eq_of_lt hch, hcmd, if_neg hopen, hframing, hok, hhead, hseq, hresponse, bne_self_eq_false,
    Bool.not_true, Bool.or_self, Bool.false_eq_true, if_false, done]

/-- A command without a response at its timeout is closed, counted and reported, and raises alarm 29 (R413). -/
theorem execDriveResponseTimeout_late (hlate : (s.serial ch).endAt + serCfg s ch 6 ≤ s.time.clk) : execDriveResponseTimeout ch s =
    .next (serToken ch (driveToken s.now (head % 128) seq 0 false true false [])
      (raise 29 (serBump ch 0x0B (s.setSerial ch { s.serial ch with cmd := none })))) := by
  simp only [execDriveResponseTimeout, Nat.mod_eq_of_lt hch, hcmd, if_pos hlate, done]

end

end

/-- Settles O29: the mode and the settings of the channel let each event act, and the read or the command under way says how. -/
theorem serialCommands : Obligations.SerialCommands := by
  unfold Obligations.SerialCommands
  refine ⟨?lead, ?uart, ?poll, ?overrun, ?read, ?response, ?timeout⟩
  case lead => exact fun _ _ _ hch hr hmode hhalf hlead hfree => execDeLeadStart_raises hch hmode hhalf hlead hfree hr
  case uart =>
    rintro ch ago bytes got s _ hch hmode hbytes hsome hheard hgap rfl
    exact execUartFrameEnd_enters hch hmode hbytes hsome hheard hgap
  case poll => exact fun _ _ hch hmode hperiod hinstant hfree => execSsiPoll_free hch hmode hperiod hinstant hfree
  case overrun =>
    exact fun _ _ _ _ _ hch hmode hperiod hinstant hreading hearlier => execSsiPoll_busy hch hmode hperiod hinstant hreading hearlier
  case read => exact fun _ _ _ _ _ _ _ hch hreading hend hfmt hbinary => execSsiReadComplete_binary hch hreading hend hfmt hbinary
  case response =>
    intro ch ago head seq bytes bs s hch hmode hcmd hsoon hafter hbs hframing hok hhead hseq hresponse
    exact execDriveResponseReceived_intact hch hcmd hmode hsoon hafter hbs hframing hok hhead hseq hresponse
  case timeout => exact fun _ _ _ _ hch hcmd hlate => execDriveResponseTimeout_late hch hcmd hlate

end Sys2Proof.Machine
end

section
/-! Cameras: the packets of a frame on the camera's channel, and transfers on the sensor bus (R414 to R419). -/

namespace Sys2Proof.Machine
open Sys2Proof

section
variable {cam : Nat} {s : State} (hcam : cam < 2)
include hcam

section
variable (hon : camCfg s cam 2 = 1)
include hon

/-- A frame start while no frame is in progress opens the next frame, notes its stamp and lane rate, and sends its token (R417, R418). -/
theorem execCsiFrameStart_opens {vc number rate : Nat} {a u : State} (hnumber : number < 65536) (hrate : rate < 65536)
    (hmine : camMine s cam vc = true) (hnone : (s.cam cam).current = none)
    (ha : a = s.setCam cam { s.cam cam with
      frames := (s.cam cam).frames ++ [{ id := (s.cam cam).nextId, number := number, sf := s.now }], nextId := (s.cam cam).nextId + 1, line := none })
    (hu : u = (a.setObji cam 0x4200 0x11 a.now.toNat).setObji cam 0x4200 0x12 rate) :
    execCsiFrameStart cam vc number rate s = .next (camToken (32 + cam) u.now [BitVec.ofNat 32 number] u) := by
  subst hu ha
  simp only [execCsiFrameStart, Nat.mod_eq_of_lt hcam, Nat.mod_eq_of_lt hnumber, Nat.mod_eq_of_lt hrate, hon, hmine, hnone, ne_eq, not_true_eq_false,
    Bool.not_true, Bool.false_eq_true, if_false, done]

/-- A line start of another virtual channel is only counted (R414). -/
theorem execCsiLineStart_foreign {vc : Nat} (hforeign : camMine s cam vc = false) :
    execCsiLineStart cam vc s = .next (s.bumpi cam 0x4200 0x0F) := by
  simp only [execCsiLineStart, Nat.mod_eq_of_lt hcam, hon, hforeign, ne_eq, not_true_eq_false, Bool.not_false, if_true, if_false, done]

section
variable {f : CamFrame} (hframe : (s.cam cam).current = some f)
include hframe

/-- A line start in a frame sends the token of its next line (R417). -/
theorem execCsiLineStart_inFrame {vc : Nat} (hmine : camMine s cam vc = true) :
    execCsiLineStart cam vc s = .next (lineToken cam f.lines (s.setCam cam { s.cam cam with line := some s.now })) := by
  simp only [execCsiLineStart, Nat.mod_eq_of_lt hcam, hon, hmine, hframe, ne_eq, not_true_eq_false, Bool.not_true, Bool.false_eq_true, if_false, done]

/-- A long packet with a header error is noted in the frame and is no line (R418). -/
theorem execCsiLongPacket_headerError {q : CsiLine} (herror : q.headerError = true) :
    execCsiLongPacket cam q s = .next (s.setCam cam ((s.cam cam).setFrame { f with status := f.status ||| 4 })) := by
  simp only [execCsiLongPacket, Nat.mod_eq_of_lt hcam, hon, hframe, herror, ne_eq, not_true_eq_false, if_true, if_false, done]

/-- A clean line of the geometry, announced by its line start, is written to its window's address when the line buffer holds it (R415, R416). -/
theorem execCsiLongPacket_written {a : Nat} {q : CsiLine} (hheader : q.headerError = false) (hmine : camMine s cam q.vc = true)
    (htype : q.dt = field (camCfg s cam 3) 21 16) (hline : (s.cam cam).line ≠ none) (hcrc : q.crcError = false) (hbytes : csiBytes q ≠ [])
    (haddress : lineAddress s cam f.lines = some a)
    (hfits : ((s.cam cam).lines.map (·.bytes)).foldl (· + ·) 0 + (csiBytes q).length ≤ 16384)
    (hlength : (csiBytes q).length = camCfg s cam 4 % 2 ^ 14 * pixelBytes q.dt) (hclean : f.status = 0) :
    execCsiLongPacket cam q s = .next (lineWrite cam f.id a (csiBytes q)
      (s.setCam cam ({ s.cam cam with line := none }.setFrame { f with lines := f.lines + 1, status := 0 }))) := by
  have hours : ¬ ((!camMine s cam q.vc) = true ∨ q.dt ≠ field (camCfg s cam 3) 21 16) := by simp [hmine, htype]
  have hannounced : (s.cam cam).line.isNone = false := Option.isNone_eq_false_iff.mpr (Option.isSome_iff_ne_none.mpr hline)
  have hsome : (csiBytes q).isEmpty = false := by simpa using hbytes
  simp only [execCsiLongPacket, Nat.mod_eq_of_lt hcam, hon, hframe, hheader, if_neg hours, hannounced, hsome, haddress, Nat.not_lt.mpr hfits, hcrc,
    ← hlength, hclean, bne_self_eq_false, b2n, ne_eq, not_true_eq_false, decide_false, Bool.false_and, Bool.false_eq_true, if_false, Nat.mul_zero,
    Nat.or_zero, done]

/-- A frame end closes the frame, with a line error where it had not the lines of its geometry (R418). -/
theorem execCsiFrameEnd_closes {vc : Nat} (hmine : camMine s cam vc = true) :
    execCsiFrameEnd cam vc s = .next (camFinish cam (s.setCam cam ((s.cam cam).setFrame
      { f with status := f.status ||| (if f.lines = field (camCfg s cam 4) 29 16 then 0 else 8), ended := true }))) := by
  have herror : 8 * b2n (f.lines != field (camCfg s cam 4) 29 16) = if f.lines = field (camCfg s cam 4) 29 16 then 0 else 8 := by
    by_cases h : f.lines = field (camCfg s cam 4) 29 16 <;> simp [h, b2n]
  simp only [execCsiFrameEnd, Nat.mod_eq_of_lt hcam, hon, hmine, hframe, herror, ne_eq, not_true_eq_false, Bool.not_true, Bool.false_eq_true, if_false,
    done]

end

end

/-- A transfer that ends within its 10 ms leaves its result and the bytes read for the camera, and answers the write that began it (R419). -/
theorem i2cDone_inTime {code : Nat} {q : I2c} (bytes : FrameData) (hcode : code < 4) (hq : (s.cam cam).i2c = some q)
    (hsoon : s.time.clk ≤ q.since + 10000000) :
    i2cDone (cam % 2) code bytes s = answered q.path (.ok (s.setCam cam { s.cam cam with
      i2c := none
      result := BitVec.ofNat 8 code :: BitVec.ofNat 8 ((bytes.take q.reads).map (BitVec.ofNat 8)).length :: (bytes.take q.reads).map (BitVec.ofNat 8) })) := by
  have hlate : decide (q.since + 10000000 < s.time.clk) = false := decide_eq_false (Nat.not_lt.mpr hsoon)
  simp only [i2cDone, Nat.mod_eq_of_lt hcam, hq, hlate, Nat.mod_eq_of_lt hcode, Bool.false_eq_true, if_false]

end

/-- A write of I2C_XFER that passes its checks starts a transfer of the selected camera (R419). -/
theorem startI2c_checked {path : Nat} {bytes : List Nat} {s : State} (hcheck : i2cCheck s (s.obj 0x4200 1) bytes = 0) :
    startI2c path bytes s = .inr (s.setCam (s.obj 0x4200 1) { s.cam (s.obj 0x4200 1) with i2c := some (i2cTransfer s (s.obj 0x4200 1) path bytes) }) :=
  if_neg (not_not_intro hcheck)

/-- Settles O30: a packet of the camera's channel acts on the frame in progress, and a write of I2C_XFER passes the dictionary's gate to its transfer. -/
theorem cameraCommands : Obligations.CameraCommands := by
  unfold Obligations.CameraCommands
  refine ⟨?frameStart, ?foreign, ?lineStart, ?headerError, ?line, ?frameEnd, ?i2cWrite, ?i2cEnd⟩
  case frameStart =>
    intro cam vc number rate s a u hcam hnumber hrate hon hmine hnone ha hu
    exact execCsiFrameStart_opens hcam hon hnumber hrate hmine hnone ha hu
  case foreign => exact fun _ _ _ hcam hon hforeign => execCsiLineStart_foreign hcam hon hforeign
  case lineStart => exact fun _ _ _ _ hcam hon hmine hframe => execCsiLineStart_inFrame hcam hon hframe hmine
  case headerError => exact fun _ _ _ _ hcam hon hframe herror => execCsiLongPacket_headerError hcam hon hframe herror
  case line =>
    intro cam a q f s hcam hon hframe hheader hmine htype hline hcrc hbytes haddress hfits hlength hclean
    exact execCsiLongPacket_written hcam hon hframe hheader hmine htype hline hcrc hbytes haddress hfits hlength hclean
  case frameEnd => exact fun _ _ _ _ hcam hon hmine hframe => execCsiFrameEnd_closes hcam hon hframe hmine
  case i2cWrite =>
    rintro path _ bytes s hq rfl hcheck
    refine congrArg _ ((sdoAct_served _ hq).trans ?_)
    rw [startI2c_checked hcheck]
    rfl
  case i2cEnd =>
    intro cam code q bytes s hcam hcode hq hsoon
    exact congrArg (done ∘ serveNext) (i2cDone_inTime hcam bytes hcode hq hsoon)

end Sys2Proof.Machine
end

section
/-! Bride links and the board queues toward the fabric: frames by kind, loss and training, resends, idle frames, votes and packets read out
(R420 to R431). -/

namespace Sys2Proof.Machine
open Sys2Proof

section
variable {l : Nat} {s : State} (hl : l < 2)
include hl

/-- A frame of the row's kind is received on its link (R420). -/
theorem linkRow_ofKind {kind : Nat} {bs : FrameData} (hkind : bs.headD 0 % 16 = kind) : linkRow kind l bs s = .next (linkReceive l bs s) := by
  simp only [linkRow, if_pos hkind, Nat.mod_eq_of_lt hl, done]

/-- A link in training comes UP, with both directions at the SEQ of a fresh link (R424). -/
theorem execLinkTrainingDone_up (htraining : s.obji l 0x4300 4 = 1) : execLinkTrainingDone l s =
    .next (linkAlarm ((s.setLink l { sentAt := s.time.clk, votedAt := s.time.clk }).setObji l 0x4300 4 2)) := by
  simp only [execLinkTrainingDone, Nat.mod_eq_of_lt hl, if_neg (not_not_intro htraining), done]

section
variable (hup : linkUp s l = true)
include hup

/-- A link that is UP goes DOWN when it loses its lock (R424). -/
theorem execLinkLossOfLock_up : execLinkLossOfLock l s = .next (linkLoss l s) := by
  simp only [execLinkLossOfLock, Nat.mod_eq_of_lt hl, if_pos hup, done]

/-- A link that has sent nothing for 1,000 ns sends (R422). -/
theorem execLinkIdleTimer_sends (hidle : (s.link l).sentAt + 1000 ≤ s.time.clk) :
    execLinkIdleTimer l s = .next (s.setLink l { s.link l with sentAt := s.time.clk }) := by
  simp only [execLinkIdleTimer, Nat.mod_eq_of_lt hl, hup, decide_eq_true hidle, Bool.and_self, if_true, done]

section
variable {f : LinkFrame} {fs : List LinkFrame} (hunacked : (s.link l).unacked = f :: fs) (hoverdue : linkOverdue s f = true)
include hunacked hoverdue

/-- An oldest frame that has been sent again 16 times loses the link (R424). -/
theorem execLinkResendTimeout_loses (hrounds : 16 ≤ f.rounds) : execLinkResendTimeout l s = .next (linkLoss l s) := by
  simp only [execLinkResendTimeout, Nat.mod_eq_of_lt hl, hunacked, hup, hoverdue, Bool.not_true, Bool.or_self, Bool.false_eq_true, if_false,
    if_pos hrounds, done]

/-- Before that, every overdue frame is sent again and counted (R422). -/
theorem execLinkResendTimeout_resends (hrounds : f.rounds < 16) : execLinkResendTimeout l s = .next ((s.setLink l { s.link l with
      unacked := (f :: fs).map (fun g => if linkOverdue s g then { g with sentAt := s.time.clk, rounds := g.rounds + 1 } else g)
      sentAt := s.time.clk }).setObji l 0x4300 9 (satAdd 32 (s.obji l 0x4300 9) ((f :: fs).filter (linkOverdue s)).length)) := by
  simp only [execLinkResendTimeout, Nat.mod_eq_of_lt hl, hunacked, hup, hoverdue, Bool.not_true, Bool.or_self, Bool.false_eq_true, if_false,
    if_neg (Nat.not_le.mpr hrounds), done]

end

end

end

/-- The next packet of a board queue in free mode leaves the queue and enters as tokens with the packet's stamp (R429). -/
theorem execBqPacketReadout_free {q : Nat} {p : BqPacket} {ps : List BqPacket} {s : State} (hq : q < 4) (htake : bqTake (s.bq q) = some (p, ps))
    (hfree : s.obji q 0x4500 4 ≠ 1) :
    execBqPacketReadout q s = .next ((bqTokens p.stamp 2048 p.words).foldl (fun st t => enterFabric 70 (36 + q) t st) (s.setBq q ps)) := by
  simp only [execBqPacketReadout, Nat.mod_eq_of_lt hq, htake, if_neg hfree, done]

/-- Settles O31: a frame's kind selects its row, the link's state and the rounds of its oldest frame what its events do. -/
theorem linkCommands : Obligations.LinkCommands := by
  unfold Obligations.LinkCommands
  refine ⟨?token, ?vote, ?relay, ?idleFrame, ?lossOfLock, ?training, ?lost, ?resend, ?idle, ?votes, ?readout⟩
  case token | vote | relay | idleFrame => exact fun _ _ _ hl hkind => linkRow_ofKind hl hkind
  case lossOfLock => exact fun _ _ hl hup => execLinkLossOfLock_up hl hup
  case training => exact fun _ _ hl htraining => execLinkTrainingDone_up hl htraining
  case lost => exact fun _ _ _ _ hl hup hunacked hoverdue hrounds => execLinkResendTimeout_loses hl hup hunacked hoverdue hrounds
  case resend => exact fun _ _ _ _ hl hup hunacked hoverdue hrounds => execLinkResendTimeout_resends hl hup hunacked hoverdue hrounds
  case idle => exact fun _ _ hl hup hidle => execLinkIdleTimer_sends hl hup hidle
  case votes => exact fun _ hrunning => if_neg hrunning
  case readout => exact fun _ _ _ _ hq htake hfree => execBqPacketReadout_free hq htake hfree

end Sys2Proof.Machine
end

section
/-! Alarm latches, releases of the sampler, copies of trace blocks and the records of the journal (R435, R437, R442, R443, R450, R451, R457, R460). -/

namespace Sys2Proof.Machine
open Sys2Proof

/-- A single-number write of CLEAR clears a clearable latch and is refused for another (R437). -/
theorem writeAlarmClear_single {v : Nat} (s : State) (hv : v ≤ 127) :
    writeAlarmClear v s = if alarmClearable s v then .ok (allClear s (clearLatch v s)) else .refuse s abortState := by
  have hall : ¬ v = 255 := by omega
  exact (if_neg hall).trans (if_neg (Nat.not_lt.mpr hv))

/-- A RELEASE within the stored records removes those up to its number, where no loss waits to be recorded (R442, R443). -/
theorem writeRelease_drops {s u : State} {n k : Nat} (hfree : s.obj 0x5000 0x0D = 0) (hk : k = (n + 1 + 2 ^ 32 - s.obj 0x5000 1) % 2 ^ 32)
    (hstored : k ≤ (s.obj 0x5000 2 + 1 + 2 ^ 32 - s.obj 0x5000 1) % 2 ^ 32) (hk0 : k ≠ 0) (hrecs : s.sampler.recs ≠ [])
    (hu : u = samplerShow { s with sampler := { s.sampler with recs := s.sampler.recs.drop k } }) (hloss : u.obj 0x5000 4 = 0) :
    writeRelease n s = .ok u := by
  have hlocked : ¬ s.obj 0x5000 0x0D = 1 := by omega
  have hsome : ¬ ((n + 1 + 2 ^ 32 - s.obj 0x5000 1) % 2 ^ 32 = 0 ∨ s.sampler.recs.isEmpty = true) := not_or.mpr ⟨hk ▸ hk0, by simpa using hrecs⟩
  have hrecording : ¬ (u.obj 0x5000 4 = 1 ∧ samplerRoom u 36 = true) := by omega
  subst hk hu
  simp only [writeRelease, if_neg hlocked, if_neg (Nat.not_lt.mpr hstored), if_neg hsome, if_neg hrecording]

/-- A record of a type and size that the spec lists is offered (R439). -/
theorem execSamplerRecordOffer_listed {typ t : Nat} {bs : FrameData} {s : State} (h : samplerPayload typ = some bs.length) :
    execSamplerRecordOffer typ t bs s = .next (emit (.record typ t (bs.map (BitVec.ofNat 8))) s) := if_pos h

/-- With the MP up, level 5 not shed and no copy under way, the oldest block to be exported is read from the ring (R451). -/
theorem execTraceExportCopy_reads {s : State} {b : TraceBlock} (hmp : mpDown s = false) (hshed : bit (s.obj 0x2010 3) 1 = false)
    (hidle : s.trace.ring.any (·.exporting) = false) (hb : s.trace.ring.find? (fun b => b.needExport && b.left == 0) = some b) :
    execTraceExportCopy s = .next (ringRead 2 b.slot (ringSet { b with exporting := true } s)) := by
  simp only [execTraceExportCopy, hmp, hshed, hidle, hb, Bool.or_self, Bool.false_eq_true, if_false, done]

/-- A copied block is answered and taken as read, and leaves the ring if nothing else needs it (R450, R451). -/
theorem readExport_ready {s : State} {b : TraceBlock} (hb : s.trace.ready = some b) :
    readExport s = { data := partBytes b.forExport
                     state := ringFree { s with trace := { s.trace with
                       ready := none, ring := s.trace.ring.map (fun x => if x.slot = b.slot then { x with needExport := false, exporting := false } else x) } } } := by
  simp only [readExport, hb]

/-- The oldest staged record leaves when it is 1 ms old (R457). -/
theorem execJournalRecordLeave_due {s : State} {r : JRec} {rs : List JRec} (hstage : s.journal.stage = r :: rs) (hdue : r.k + 1000000 ≤ s.t) :
    execJournalRecordLeave s = .next (stageLeave s) := by
  simp only [execJournalRecordLeave, hstage, if_pos hdue, done]

/-- A running journal writes its oldest full block (R460). -/
theorem execJournalBlockWrite_full {s : State} {rs : List JRec} {rest : List (List JRec)} (hruns : s.obj 0x5300 1 = 2)
    (hfull : s.journal.full = rs :: rest) :
    execJournalBlockWrite s = .next (journalBlockWrite rs { s with journal := { s.journal with full := rest } }) := by
  simp only [execJournalBlockWrite, hfull, if_neg (not_not_intro hruns), done]

/-- Settles O32: writes and reads pass the dictionary's gate to the effect of their subindex; the events find what their clause says is there. -/
theorem recordingCommands : Obligations.RecordingCommands := by
  unfold Obligations.RecordingCommands
  refine ⟨?event, ?clear, ?clearRefused, ?offer, ?release, ?copy, ?read, ?leave, ?block⟩
  case event =>
    intro a s ha
    show execAlarmEvent a s = _
    rw [execAlarmEvent, Nat.mod_eq_of_lt ha]
    rfl
  case clear =>
    intro s path v hacc hv hclearable
    exact congrArg _ ((sdoWrite_accepted _ hacc).trans (congrArg _ ((writeAlarmClear_single _ hv).trans (if_pos hclearable))))
  case clearRefused =>
    intro s path v hacc hv hheld
    exact congrArg _ ((sdoWrite_accepted _ hacc).trans (congrArg _ ((writeAlarmClear_single _ hv).trans (if_neg (Bool.eq_false_iff.mp hheld)))))
  case offer => exact fun _ _ _ _ hpayload => execSamplerRecordOffer_listed hpayload
  case release =>
    intro s u path n k hacc hfree hk hstored hk0 hrecs hu hloss
    exact congrArg _ ((sdoWrite_accepted _ hacc).trans
      (congrArg _ (writeRelease_drops (s := mailArrives s) hfree hk hstored hk0 hrecs hu hloss)))
  case copy => exact fun _ _ hmp hshed hidle hb => execTraceExportCopy_reads hmp hshed hidle hb
  case read =>
    intro path s b hq hb
    exact congrArg _ ((sdoServe_served _ hq).trans (congrArg _ (readExport_ready (s := mailArrives s) hb)))
  case leave => exact fun _ _ _ hstage hdue => execJournalRecordLeave_due hstage hdue
  case block => exact fun _ _ _ hruns hfull => execJournalBlockWrite_full hruns hfull

end Sys2Proof.Machine
end

section
/-! Resets, the release of reset, the step timeout and the fabric start (R273, R466 to R471, R511, R512). -/

namespace Sys2Proof.Machine
open Sys2Proof

/-- A requested reset acts once it is due (R498, R503). -/
theorem execRequestedReset_due {s : State} {k : Nat} (hreq : s.start.resetAt = some k) (hdue : k ≤ s.time.clk) :
    execRequestedReset s = .next (resetState 4 false s) := by
  simp only [execRequestedReset, hreq, if_neg (Nat.not_lt.mpr hdue), done]

/-- The state that leaves reset with what a board shows (R267, R467). -/
def outOfReset (b : Board) (s : State) : State :=
  { s with start := { s.start with held := false, relAt := s.time.clk, board := b }, flash := { s.flash with mib := b.flashMiB } }

/-- After a reset of cause 3 or more the mode and the supply classes stay as they are (R467, R511). -/
theorem execResetRelease_warm {s : State} {cause : Nat} (b : Board) (steps : List StepOutcome) (hheld : s.start.held = true)
    (hcause : s.obj 0x2000 1 = cause) (hwarm : 3 ≤ cause) :
    execResetRelease b steps s = .next (runSteps startSteps steps (((outOfReset b s).setObj 0x2000 1 cause).setObj 0x2001 0 0)) := by
  have h0 : cause ≠ 0 := by omega
  have h1 : cause ≠ 1 := by omega
  have h2 : ¬ cause ≤ 2 := by omega
  simp [execResetRelease, outOfReset, done, hheld, hcause, h0, h1, h2]

/-- After a power-on reset the mode and the supply classes are those of the board (R467, R511). -/
theorem execResetRelease_powerOn {s : State} (b : Board) (steps : List StepOutcome) (hheld : s.start.held = true) (hcause : s.obj 0x2000 1 = 1) :
    execResetRelease b steps s = .next (runSteps startSteps steps
      (((((outOfReset b s).setObj 0x2000 1 1).setObj 0x2001 0 0).setObj 0x3601 6 (b.mode % 8)).setObj 0x2200 7 (vddioClasses b))) := by
  simp [execResetRelease, outOfReset, done, hheld, hcause]

/-- A running step that has reached its maximum is missed if it is optional and fails otherwise (R468, R469, R471). -/
theorem execStartStepTimeout_overrun {s : State} (os : List StepOutcome) (hfree : stepFree s = false)
    (hmax : 1000000 * stepMax s.start.step ≤ stepTaken s) :
    execStartStepTimeout os s = .next (if isOptional s.start.step = true
      then runSteps ((startSteps.dropWhile (· ≠ s.start.step)).drop 1) os (stepMissed s.start.step 1 (stepTaken s / 1000000) s)
      else stepFailed s.start.step 1 (stepTaken s / 1000000) s) := by
  simp only [execStartStepTimeout, hfree, Nat.not_lt.mpr hmax, decide_false, Bool.or_self, Bool.false_eq_true, if_false, done, apply_ite Host.Outcome.next]

/-- At its instant the fabric starts, and the device is READY or DEGRADED (R273, R468). -/
theorem execFabricStart_due {s : State} {k : Nat} (hat : s.start.fabricAt = some k) (hfabric : s.fabric = false) (hdue : k ≤ s.t) :
    execFabricStart s =
      let a := stepPass 12 ((s.time.clk - s.start.stepAt) / 1000000) (fabricStart s)
      .next (mirrorTouch (startReport (deviceShow ((a.setObj 0x2000 2 ((a.time.clk - a.start.relAt) / 1000000)).setObj 0x2001 0 1)))) := by
  simp [execFabricStart, hat, hfabric, Nat.not_lt.mpr hdue, done]

/-- Settles O35: the width and the level decide a reset at a pin, the cause what a release records, and whether a step is optional what its overrun does. -/
theorem resetAndStart : Obligations.ResetAndStart := by
  unfold Obligations.ResetAndStart
  refine ⟨?porst, ?supply, ?reset, ?requested, ?warm, ?powerOn, ?failed, ?missed, ?done, ?fabric⟩
  case porst => exact fun _ _ _ => (apply_ite Host.Outcome.next ..).symm
  case supply => exact fun _ _ _ _ _ => (apply_ite Host.Outcome.next ..).symm
  case reset => exact fun _ _ => (apply_ite Host.Outcome.next ..).symm
  case requested => exact fun _ _ hreq hdue => execRequestedReset_due hreq hdue
  case warm =>
    rintro s _ b steps hheld hcause rfl
    exact execResetRelease_warm b steps hheld hcause (Nat.le_refl 3)
  case powerOn =>
    rintro s _ b steps hheld hcause rfl
    exact execResetRelease_powerOn b steps hheld hcause
  case failed =>
    rintro os s _ rfl hfree hmax hmandatory
    exact (execStartStepTimeout_overrun os hfree hmax).trans (congrArg _ (if_neg (Bool.eq_false_iff.mp hmandatory)))
  case missed =>
    rintro os s _ rfl hfree hmax hoptional
    exact (execStartStepTimeout_overrun os hfree hmax).trans (congrArg _ (if_pos hoptional))
  case done =>
    intro s hdone hfabric hnone
    exact if_pos ⟨hdone, by simp [hfabric], hnone⟩
  case fabric =>
    rintro s _ _ k hat hfabric hdue rfl rfl
    exact execFabricStart_due hat hfabric hdue

end Sys2Proof.Machine
end

section
/-! Firmware update: the transfer of an image, ABORT, ACTIVATE_AT and its instant (R486 to R492). -/

namespace Sys2Proof.Machine
open Sys2Proof

/-- The first half of a block waits for the second (R487). -/
theorem fwHalf_first {bs : List Byte} {s : State} (hreceiving : fwState s = 1) (hmore : s.update.got < fwBlocksOf s.update.head)
    (hroom : s.update.buffered < 2) (hfirst : s.update.half = none) :
    fwHalf bs s = .ok (s.setUpdate { s.update with half := some bs }) := by
  simp [fwHalf, hreceiving, Nat.not_le.mpr hmore, Nat.not_le.mpr hroom, hfirst]

/-- END after the last block enters VERIFYING (R488). -/
theorem fwEnd_complete {bs : List Byte} {s : State} (hreceiving : fwState s = 1) (hall : s.update.got = fwBlocksOf s.update.head)
    (hwhole : s.update.half = none) :
    fwEnd bs s = .ok (fwEnter 2 (s.setUpdate { s.update with sig := some bs, sigAt := s.time.clk })) := by
  simp [fwEnd, hreceiving, hall, hwhole]

/-- ABORT while RECEIVING drops the image and is recorded (R491). -/
theorem fwAbort_receiving {s : State} (hreceiving : fwState s = 1) :
    fwAbort 1 s = .ok (fwRecord 6 (fwVersion s.update.head) (fwEnter 0 (fwDrop s))) := by
  simp [fwAbort, hreceiving]

/-- ACTIVATE_AT at least 100 ms ahead of a verified image arms it (R492). -/
theorem writeActivateAt_verified {v : Nat} {s : State} (hverified : fwState s = 3) (hchange : s.obj 0x3600 1 = 0) (hahead : s.t + 100000000 ≤ v) :
    writeActivateAt v s = .ok (fwRecord 4 (s.obj 0x5800 9) (fwEnter 5 (s.setObj 0x5800 6 v))) := by
  simp [writeActivateAt, hverified, hchange, Nat.not_lt.mpr hahead]

/-- Settles O37: each transfer passes the dictionary's gate, has the length its subindex takes, and finds the update in the STATE of its clause. -/
theorem firmwareUpdate : Obligations.FirmwareUpdate := by
  unfold Obligations.FirmwareUpdate
  refine ⟨?begin, ?half, ?endImage, ?abort, ?activate, ?instant⟩
  case begin =>
    intro path bs s hq hlen
    have hfits : ¬ 832 < (bs.map (BitVec.ofNat 8)).length := by simpa using hlen
    exact congrArg _ ((sdoServe_served _ hq).trans (congrArg _ (if_neg hfits)))
  case half =>
    intro path bs s hq hlen hreceiving hmore hroom hfirst
    refine congrArg _ ((sdoServe_served _ hq).trans (congrArg _ ?_))
    simp only [List.length_map, hlen, Nat.lt_irrefl, if_false]
    exact fwHalf_first (s := mailArrives s) hreceiving hmore hroom hfirst
  case endImage =>
    intro path bs s hq hlen hreceiving hall hwhole
    refine congrArg _ ((sdoServe_served _ hq).trans (congrArg _ ?_))
    simp only [List.length_map, hlen, Nat.lt_irrefl, if_false]
    exact fwEnd_complete (s := mailArrives s) hreceiving hall hwhole
  case abort =>
    intro s path hacc hreceiving
    exact congrArg _ ((sdoWrite_accepted _ hacc).trans (congrArg _ (fwAbort_receiving hreceiving)))
  case activate =>
    intro s path v hacc hverified hchange hahead
    exact congrArg _ ((sdoWrite_accepted _ hacc).trans (congrArg _ (writeActivateAt_verified (s := mailArrives s) hverified hchange hahead)))
  case instant => exact fun _ harmed hdue => if_pos ⟨harmed, hdue⟩

end Sys2Proof.Machine
end

section
/-! Power domains: the writes of DOMAIN_CONTROL, the end of a switch and its timeout (R515, R516, R518). -/

namespace Sys2Proof.Machine
open Sys2Proof

/-- An accepted write whose action answers at once. -/
theorem sdoAction_answers {s : State} {path ix sub size v code : Nat} {f : State → Sum Nat State} (hacc : Accepts s path ix sub size v)
    (hf : f (mailArrives s) = .inl code) :
    sdoAction path ix sub size v f s = answered path (.refuse (mailArrives s) code) := by
  rw [sdoAction_accepted f hacc, hf]

/-- An accepted write whose action runs on. -/
theorem sdoAction_starts {s s1 : State} {path ix sub size v : Nat} {f : State → Sum Nat State} (hacc : Accepts s path ix sub size v)
    (hf : f (mailArrives s) = .inr s1) : sdoAction path ix sub size v f s = sdoStart path s1 := by
  rw [sdoAction_accepted f hacc, hf]

/-- The state in which a switch of domain d, begun now for a write on `path`, runs (R518). -/
def switchBegun (d : Nat) (on : Bool) (path : Nat) (s : State) : State :=
  { s with power := { s.power with switch := some (d, on, path, s.time.clk) } }

/-- The state in which no switch runs any more. -/
def switchEnded (s : State) : State := { s with power := { s.power with switch := none } }

/-- A domain that host software may never switch refuses every value (R515). -/
theorem writeDomain_fixed {s : State} (path v : Nat) (hfixed : domainFixed (s.obj 0x2200 0x0C) = true) :
    writeDomain path v s = .inl abortState := if_pos hfixed

/-- A write of the state that the domain holds has no effect and the answer code 0 (R518). -/
theorem writeDomain_held {s : State} {v : Nat} (path : Nat) (hv : v = 1 ∨ v = 2) (hfree : domainFixed (s.obj 0x2200 0x0C) = false)
    (hheld : domainOn s (s.obj 0x2200 0x0C) = (v == 1)) : writeDomain path v s = .inl 0 := by
  obtain rfl | rfl := hv <;> simp [writeDomain, hfree, hheld]

/-- ON starts a switch of a domain that is OFF (R518). -/
theorem writeDomain_turnsOn {s : State} (path : Nat) (hfree : domainFixed (s.obj 0x2200 0x0C) = false)
    (hoff : domainOn s (s.obj 0x2200 0x0C) = false) : writeDomain path 1 s = .inr (switchBegun (s.obj 0x2200 0x0C) true path s) := by
  simp [writeDomain, switchBegun, hfree, hoff]

/-- OFF starts a switch of a domain that is ON and whose conditions hold (R515). -/
theorem writeDomain_turnsOff {s : State} (path : Nat) (hfree : domainFixed (s.obj 0x2200 0x0C) = false)
    (hon : domainOn s (s.obj 0x2200 0x0C) = true) (hchange : s.obj 0x3600 1 = 0) (hload : s.obj 0x3601 1 = 0)
    (hstop : domainMayStop s (s.obj 0x2200 0x0C) = true) :
    writeDomain path 2 s = .inr (switchBegun (s.obj 0x2200 0x0C) false path s) := by
  simp [writeDomain, switchBegun, hfree, hon, hchange, hload, hstop]

/-- A switch that has had its time, and for ON at most twice its time, is done (R516, R518). -/
theorem execDomainSwitchDone_reached {s : State} {d path begun : Nat} {on : Bool} (hswitch : s.power.switch = some (d, on, path, begun))
    (hdue : begun + switchNs d on ≤ s.time.clk) (hlate : on = true → s.time.clk ≤ begun + 2 * domainOnNs d) :
    execDomainSwitchDone s = .next (serveNext (answered path (.ok (domainReach d on (switchEnded s))))) := by
  have hguard : ¬ (s.time.clk < begun + switchNs d on ∨ (on ∧ begun + 2 * domainOnNs d < s.time.clk)) := by
    rintro (hearly | ⟨hon, hover⟩)
    · exact Nat.not_lt.mpr hdue hearly
    · exact Nat.not_lt.mpr (hlate hon) hover
  simp only [execDomainSwitchDone, hswitch, if_neg hguard, done, switchEnded]

/-- A turn-on that has taken twice its time fails (R518). -/
theorem execDomainSwitchTimeout_overrun {s : State} {d path begun : Nat} (hswitch : s.power.switch = some (d, true, path, begun))
    (hover : begun + 2 * domainOnNs d ≤ s.time.clk) :
    execDomainSwitchTimeout s = .next (serveNext (answered path (.refuse (raise 69 (switchEnded s)) abortState))) := by
  simp [execDomainSwitchTimeout, hswitch, Nat.not_lt.mpr hover, done, switchEnded]

/-- Settles O39: a write passes the dictionary's gate, and the domain's number and state decide its effect; a switch that runs ends by its times. -/
theorem powerDomains : Obligations.PowerDomains := by
  unfold Obligations.PowerDomains
  refine ⟨?turnOn, ?fixed, ?turnOff, ?isOn, ?timeout, ?heldOn, ?heldOff, ?isOff⟩
  case turnOn =>
    rintro path _ s hacc rfl hfree hoff
    exact congrArg _ (sdoAction_starts hacc (writeDomain_turnsOn path hfree hoff))
  case fixed =>
    intro path s hacc hfixed
    exact congrArg _ (sdoAction_answers hacc (writeDomain_fixed path 1 hfixed))
  case turnOff =>
    rintro path _ s hacc rfl hfree hon hchange hload hstop
    exact congrArg _ (sdoAction_starts hacc (writeDomain_turnsOff path hfree hon hchange hload hstop))
  case isOn =>
    intro path d begun s hswitch hdue hlate
    exact execDomainSwitchDone_reached hswitch hdue fun _ => hlate
  case timeout =>
    intro path d begun s hswitch hover
    exact execDomainSwitchTimeout_overrun hswitch hover
  case heldOn =>
    intro path s hacc hfree hon
    exact congrArg _ (sdoAction_answers hacc (writeDomain_held path (.inl rfl) hfree hon))
  case heldOff =>
    intro path s hacc hfree hoff
    exact congrArg _ (sdoAction_answers hacc (writeDomain_held path (.inr rfl) hfree hoff))
  case isOff =>
    intro path d begun s hswitch hdue
    exact execDomainSwitchDone_reached hswitch hdue nofun

end Sys2Proof.Machine
end
